-- ==== Sys2Proof/Word.lean ====
section
/-! DEFINITION. The word and byte types of the FT-7248 model (spec/00_scope.md, R10). -/

namespace Sys2Proof

/-- A byte, the smallest unit of the device address space (R380). -/
abbrev Byte := BitVec 8

/-- The content of one 8-byte dictionary slot (R10, R505). -/
abbrev Slot64 := BitVec 64

end Sys2Proof
end

