-- ==== Sys2Proof/Machine/Bits.lean ====
section
/-! DEFINITION. Bit fields, sign extension, rounding and byte order, as the formats of
spec/00_scope.md use them. Every field of a register is cut out and put back here. -/

namespace Sys2Proof.Machine

/-- Bits [hi:lo] of a number. -/
def natBits (n hi lo : Nat) : Nat := n / 2 ^ lo % 2 ^ (hi + 1 - lo)

/-- Field [hi:lo] of a slot. -/
def getF (v : BitVec 64) (hi lo : Nat) : Nat := natBits v.toNat hi lo

/-- A slot with field [hi:lo] replaced; the value is taken modulo the width of the field. -/
def setF (v : BitVec 64) (hi lo x : Nat) : BitVec 64 :=
  BitVec.ofNat 64 (v.toNat - getF v hi lo * 2 ^ lo + x % 2 ^ (hi + 1 - lo) * 2 ^ lo)

/-- Bit `b` of a slot. -/
def bitAt (v : BitVec 64) (b : Nat) : Bool := v.toNat.testBit b

/-- A Boolean as a bit. -/
def b2n (b : Bool) : Nat := if b then 1 else 0

/-- A slot with bit `b` replaced. -/
def setBit (v : BitVec 64) (b : Nat) (x : Bool) : BitVec 64 := setF v b b (b2n x)

/-- Two's complement of a `w`-bit number (R10, I24 and I48). -/
def toSigned (w n : Nat) : Int :=
  if n % 2 ^ w < 2 ^ (w - 1) then (n % 2 ^ w : Int) else (n % 2 ^ w : Int) - 2 ^ w

/-- The low `w` bits of an integer. -/
def ofSigned (w : Nat) (i : Int) : Nat := (i % (2 ^ w : Int)).toNat

/-- Rounds down a quotient by a positive number. -/
def floorDiv (n : Int) (d : Nat) : Int := n / (d : Int)

/-- Rounds a quotient by a positive number to the nearest integer, ties to even. -/
def rneDiv (n : Int) (d : Nat) : Int :=
  let q := n / (d : Int)
  let r := n % (d : Int)
  if 2 * r < d then q
  else if 2 * r > d then q + 1
  else if q % 2 = 0 then q else q + 1

/-- Rounds a quotient by a positive number to the nearest integer, ties toward plus infinity. -/
def rnuDiv (n : Int) (d : Nat) : Int := (2 * n + d) / (2 * d : Int)

/-- Limits an integer to the interval from `lo` to `hi`. -/
def clampI (lo hi x : Int) : Int := if x < lo then lo else if x > hi then hi else x

/-- Limits an integer to the two's-complement range of 24 bits (R8). -/
def sat24 (x : Int) : Int := clampI (-8388608) 8388607 x

/-- The `n` little-endian bytes of a number. -/
def leBytes : (n x : Nat) → List (BitVec 8)
  | 0, _ => []
  | n + 1, x => BitVec.ofNat 8 x :: leBytes n (x / 256)

/-- The number that little-endian bytes spell. -/
def ofLe : List (BitVec 8) → Nat
  | [] => 0
  | b :: r => b.toNat + 256 * ofLe r

/-- The `n` big-endian bytes of a number, in network order. -/
def beBytes (n x : Nat) : List (BitVec 8) := (leBytes n x).reverse

/-- One step of the reflected CRC-32 of R66 over one bit. -/
def crc32Bit (c : Nat) : Nat := if c % 2 = 1 then (c / 2) ^^^ 0xEDB88320 else c / 2

/-- One byte of the CRC-32 of R66. -/
def crc32Byte (c : Nat) (b : BitVec 8) : Nat :=
  crc32Bit (crc32Bit (crc32Bit (crc32Bit (crc32Bit (crc32Bit (crc32Bit (crc32Bit (c ^^^ b.toNat))))))))

/-- The CRC-32 of R66 over a list of bytes. -/
def crc32 (bs : List (BitVec 8)) : Nat := (bs.foldl crc32Byte 0xFFFFFFFF) ^^^ 0xFFFFFFFF

/-- The number of bits set among the lowest `w`. -/
def popcount : (w n : Nat) → Nat
  | 0, _ => 0
  | w + 1, n => n % 2 + popcount w (n / 2)

/-- The number of the lowest bit set among bits 0 to `w - 1`, searched upward from `i`. -/
def lowestBit (n : Nat) : (fuel i : Nat) → Option Nat
  | 0, _ => none
  | fuel + 1, i => if n.testBit i then some i else lowestBit n fuel (i + 1)

/-- Floor of the square root by Newton-free search on bits, `k` bits of result. -/
def isqrtAux (n : Nat) : (k r : Nat) → Nat
  | 0, r => r
  | k + 1, r => if (r + 2 ^ k) * (r + 2 ^ k) ≤ n then isqrtAux n k (r + 2 ^ k) else isqrtAux n k r

/-- Saturating increment by `n` at `w` bits (R12, counters that saturate). -/
def satAdd (w v n : Nat) : Nat := if v + n < 2 ^ w then v + n else 2 ^ w - 1

end Sys2Proof.Machine
end

