-- ==== Sys2Proof/Machine/Types.lean ====
section
/-! DEFINITION. The plain data types of the device's state that is not a dictionary entry: time
stamps, events, queues, sessions and the parts of each block. -/

namespace Sys2Proof.Machine

/-! ### Time stamps and messages out (R2, R527) -/

/-- A TS64 value (R2): 60 bits of device time in FRAC units and its three marks. -/
structure Stamp where
  /-- COARSE * 4096 + FRAC. -/
  t : Nat
  /-- TS_FAB. -/
  fab : Bool
  /-- TS_DEG. -/
  deg : Bool
  /-- TS_EST. -/
  est : Bool
  deriving DecidableEq, Repr, Inhabited

/-- An event record (R527). -/
structure EventRec where
  ts : Stamp
  cc : BitVec 64
  event : Nat
  count : Nat
  param : Nat
  order : Nat
  deriving DecidableEq, Repr, Inhabited

/-- Where a RAP client is (R522, R525). -/
inductive Peer
  /-- A client on the management Ethernet: MAC address, IPv4 address and UDP port. -/
  | eth (mac ip port : Nat)
  /-- A client on the fabric: its unique identifier. -/
  | fabric (uid : Nat)
  deriving DecidableEq, Repr, Inhabited

/-- A RAP request after its header is read (R519). -/
structure RapMsg where
  magic : Nat
  version : Nat
  len : Nat
  session : Nat
  seq : Nat
  status : Nat
  count : Nat
  addr : Nat
  data : List (BitVec 8)
  deriving DecidableEq, Repr, Inhabited

/-- What meets a write at the moment it is executed: the bits of its slot that hardware updates in the
same clock (R512), and where a running slew of SYS stands in 0.1 ppb (R492). What is not brought is a
free value. (DESIGN CHOICE, log entry 10.)
(DESIGN CHOICE, log entry 20.) -/
structure WriteEnv where
  hw : BitVec 64
  stands : Option Int
  parity : Bool
  deriving DecidableEq, Repr, Inhabited

/-- A RAP reply or NOTIFY (R519, R520). -/
structure RapReply where
  op : Nat
  session : Nat
  seq : Nat
  status : Nat
  count : Nat
  addr : Nat
  ts : Stamp
  data : List (BitVec 8)
  deriving DecidableEq, Repr, Inhabited

/-- The content of a fabric packet (R466). R479 gives a layout for Ridgeline messages alone; the others
hold the values their rules name. -/
inductive FabBody
  /-- R467: key, address, root key followed, root distance, and whether the port is the sender's
  parent port. -/
  | hello (key addr root dist : Nat) (parent : Bool)
  /-- R475: send stamp of the previous TIME packet and arrival stamp of the peer's latest. -/
  | time (prevSend arrival : Nat)
  /-- R469. -/
  | addrReq (uid : Nat) (want : Option Nat)
  /-- R469. -/
  | addrGrant (uid addr : Nat)
  /-- R470: address, UID, sequence number and the neighbours' addresses. -/
  | lsr (addr uid seq : Nat) (nbrs : List Nat)
  /-- R473: an acknowledgement for a virtual channel. -/
  | e2eAck (vc : Nat)
  /-- A RAP message (R518). -/
  | rap (bytes : List (BitVec 8))
  /-- R479. -/
  | ridge (kind id seq rlSeq : Nat) (srcFab : Bool) (fireAt : BitVec 64) (sentAt age : Nat)
  /-- A packet of reserved TYPE. -/
  | reserved (type : Nat)
  deriving DecidableEq, Repr, Inhabited

/-- A fabric packet (R465). -/
structure FabPkt where
  dst : Nat
  src : Nat
  ttl : Nat
  seq : Nat
  bcast : Bool
  ack : Option Nat
  body : FabBody
  deriving DecidableEq, Repr, Inhabited

/-- A frame as it arrives on a port (R459, R462): its link sequence number, whether its CRC and codewords
are right, the codewords corrected and not correctable in it, its acknowledgement or negative
acknowledgement of a frame number, its credit return, and the packet whose last frame it is. -/
structure FabFrame where
  seq : Nat
  ok : Bool
  corrected : Nat
  uncorrected : Nat
  ack : Option (Nat × Bool)
  credit : Option (Nat × Nat)
  pkt : Option FabPkt
  deriving DecidableEq, Repr, Inhabited

/-- The NVMe commands that the drive engine issues (R442). -/
inductive NvmeOp
  | identifyCtrl | identifyNs | setQueues | setCache | createCq | createSq | write | read | flush | smart
  deriving DecidableEq, Repr, Inhabited

/-- What leaves the device toward a party outside it. The outbox of State keeps these in order. -/
inductive OutMsg
  /-- An MSI-X message of an endpoint port (R529). -/
  | msix (port vector : Nat)
  /-- A posted write on a PCIe port: notify writes of R413 and DMA writes of R418. -/
  | pcieWrite (port addr : Nat) (data : List (BitVec 8))
  /-- A completion a PCIe port returns; `status` 0 Successful, 1 Unsupported Request,
  2 Configuration Request Retry Status. -/
  | pcieCompletion (port tag status : Nat) (data : List (BitVec 8))
  /-- A configuration access below a root port (R441). -/
  | pcieConfig (port bdf reg : Nat) (write : Bool) (data : Nat)
  /-- A RAP reply or NOTIFY to a client. -/
  | rap (peer : Peer) (msg : RapReply)
  /-- An ARP reply (R525): the addresses it is sent to, and the device's own. -/
  | arpReply (mac ip ownMac ownIp : Nat)
  /-- An ICMP echo reply (R525): the addresses it is sent to, and the device's own. -/
  | icmpReply (mac ip ownMac ownIp : Nat) (data : List (BitVec 8))
  /-- A level driven on an output pin, named by the manual's pin name and number. -/
  | pin (name : String) (number level : Nat)
  /-- An SPI transfer to a digitiser (R61): chip select, SCK divider, SPI mode, the bytes it clocks in all and
  the bytes sent: all of them, or in 3-wire mode those before the turnaround. -/
  | spi (group cs divider mode count : Nat) (threeWire : Bool) (data : List (BitVec 8))
  /-- An I2C transfer to a digitiser or its EEPROM (R61, R65): `count` bytes at 400 or 100 kHz. -/
  | i2c (group addr offset count khz : Nat) (read : Bool) (data : List (BitVec 8))
  /-- A fabric packet on a port, with the link sequence number of its first frame (R462, R465). -/
  | fabric (port seq : Nat) (pkt : FabPkt)
  /-- A frame that a port with LOOP = 2 sends back unchanged (R460). -/
  | fabricEcho (port : Nat) (frame : FabFrame)
  /-- An acknowledgement or a negative acknowledgement of a link sequence number (R462). -/
  | fabricAck (port seq : Nat) (good : Bool)
  /-- Credits returned for a virtual channel (R459, R464). -/
  | fabricCredit (port vc n : Nat)
  /-- An NVMe command to a controller (R442). -/
  | nvme (port fn : Nat) (op : NvmeOp) (lba cookie : Nat)
  /-- The label that a Write to a controller's LBA 0 carries (R444). -/
  | nvmeLabel (port fn : Nat) (data : List (BitVec 8))
  /-- A write of a controller's CC.EN (R443). -/
  | nvmeEnable (port fn : Nat) (on : Bool)
  /-- A DisplayPort auxiliary or main-link action (R254, R255, R269): 0 full training, 1 fast training, 2 a read of
  the panel's capabilities, 3 a read of its link status, 4 the frame that the panel is to store, 5 a frame sent with MSA
  timing ignored (R268). -/
  | edp (what : Nat) (frame : Nat)
  /-- A composed display line (R257). -/
  | line (frame number : Nat) (pixels : List Nat)
  /-- A PMBus transaction (R562). -/
  | pmbus (rail command value : Nat)
  /-- A JTAG shift (R600). -/
  | jtag (instruction value : Nat)
  deriving DecidableEq, Repr, Inhabited

/-- The spacing of output samples on one output grid, in FRAC units as a quotient, and how far the exact time of
one of them lies past the time that its stamp holds, over the same divisor (R52, R75). -/
structure Pace where
  frac : Nat
  num : Nat
  den : Nat
  deriving DecidableEq, Repr, Inhabited

/-- One conditioning output sample (R75, R104): its output number, its value and its marks. -/
structure OutSample where
  q : Nat
  ts : Stamp
  pace : Pace
  i : Int
  qv : Int
  valid : Bool
  deg : Bool
  subst : Bool
  stale : Bool
  deriving DecidableEq, Repr, Inhabited

/-! ### Triggers (chapter 05) -/

/-- A trigger as its word holds it (R158): INFO carries mask, FIRST, domain, resolution, channel,
LATE, DEGRADED, DATA_INVALID and the generation. -/
structure Trig where
  ts : Stamp
  cc : BitVec 64
  info : Nat
  offs : Nat
  value : Nat
  lead : Nat
  deriving DecidableEq, Repr, Inhabited

/-- One set of a unit's active values: the cause time from which it holds (R164, R165). -/
structure UnitVer where
  fromT : Nat
  gen : Nat
  param : BitVec 64
  span : BitVec 64
  holdoff : Nat
  deriving DecidableEq, Repr, Inhabited

/-- One change of a unit's ARMED, and whether software made it (R142). -/
structure ArmRec where
  t : Nat
  armed : Bool
  software : Bool
  deriving DecidableEq, Repr, Inhabited

/-- A condition unit beyond its entries. -/
structure TrigUnit where
  /-- Active values, newest first. -/
  vers : List UnitVer
  /-- Causes before this time are not evaluated (R165). -/
  evalFrom : Nat
  /-- Changes of ARMED, newest first. -/
  arms : List ArmRec
  /-- No decision for a cause before this time (R141). -/
  holdUntil : Option Nat
  runHigh : Nat
  runLow : Nat
  /-- Powers of the latest valid samples, newest first (R144). -/
  window : List Nat
  /-- The pending A stamp (R146). -/
  aPend : Option Stamp
  /-- The FRONT clock of the latest shadow write, and the shadows as they stood at its start (R96, R164). -/
  prior : Option (Nat × UnitVer)
  deriving DecidableEq, Repr, Inhabited

/-- A decision evaluated and not yet issued (R137-R159). -/
structure Decision where
  unit : Nat
  /-- The cause time before attachment. -/
  cause : Stamp
  /-- The TS64 the decision carries and, where a sample is its cause, that sample's number. -/
  ts : Stamp
  sample : Option Nat
  /-- Frequency domain: the resolution, 0 or 1. -/
  fd : Option Nat
  /-- An outside cause (R137). -/
  outside : Bool
  value : Nat
  ready : Nat
  due : Nat
  degraded : Bool
  invalid : Bool
  /-- HOLDOFF and the generation in force for the cause (R141, R158). -/
  holdoff : Nat
  gen : Nat
  deriving DecidableEq, Repr, Inhabited

/-- An outside cause that waits for its cause sample (R138), with HOLDOFF and the generation in force for it. -/
structure WaitCause where
  unit : Nat
  cause : Stamp
  value : Nat
  ready : Nat
  holdoff : Nat
  gen : Nat
  deriving DecidableEq, Repr, Inhabited

/-- A run of `n` output samples of equal validity on one output grid: the first one's number, stamp and
pace. -/
structure OutRun where
  q : Nat
  ts : Stamp
  n : Nat
  valid : Bool
  pace : Pace
  deriving DecidableEq, Repr, Inhabited

/-- The latest output sample that has left conditioning: its stamp, the FRONT clock it left in, and whether a
new frame origin has come since (R104, R189). -/
structure LeftSample where
  ts : Stamp
  clock : Nat
  /-- The time of the first sample that left in that clock (R211). -/
  first : Nat
  old : Bool
  deriving DecidableEq, Repr, Inhabited

/-- The trigger logic of a channel beyond its entries. -/
structure TrigChan where
  units : Vector TrigUnit 8
  waiting : List WaitCause
  pend : List Decision
  /-- Output samples so far, as runs, newest first, and the latest sample. -/
  runs : List OutRun
  last : Option LeftSample
  /-- The hand-over time of a pending commit, and the units' shadows as they stood when it was taken
  (R164). -/
  handAt : Option Nat
  handVers : List UnitVer
  /-- The latest cause time evaluated. -/
  evaluated : Option Nat
  /-- The latest FRONT edge whose triggers have been issued (R154, R156). -/
  done : Option Nat
  /-- The latest stretch in which the units were not clocked: its begin, and its end once it has ended (R166). -/
  restAt : Option Nat
  restTo : Option Nat
  deriving DecidableEq, Repr, Inhabited

/-- An entry of the provisional store (R162). -/
structure Provisional where
  id : Nat
  seq : Nat
  fireAt : Stamp
  at' : Nat
  deriving DecidableEq, Repr, Inhabited

/-! ### Sequencers (chapter 06) -/

/-- A sequencer timer (R188): FRONT clocks left before it reads expired, while it is loaded. -/
structure SeqTimer where
  loaded : Bool
  left : Nat
  deriving DecidableEq, Repr, Inhabited

/-- A microword in progress (R181): the word, its nanoword and the device time of its first edge, and the timers and
counters as they stood before its actions. -/
structure SeqBegun where
  w : Nat
  n : Nat
  at' : Nat
  timer0 : SeqTimer
  timer1 : SeqTimer
  cnt : List Nat
  /-- A PROVISIONAL was outstanding, and the target channel's capture was open, before its actions. -/
  prov : Bool
  cap : Bool
  deriving DecidableEq, Repr, Inhabited

/-- What one edge has changed in SEQ_SIGNAL (R181, R184, R353): the edge, the bits as they stood before it, and those
set at it. -/
structure SignalEdge where
  edge : Nat
  before : Nat
  set : Nat
  deriving DecidableEq, Repr, Inhabited

/-- A sequencer beyond its entries. The shadow bank is what the window of R203 holds. -/
structure Seq where
  /-- The active bank: microwords and nanowords that software has written, by address. -/
  micro : List (Nat × Nat)
  nano : List (Nat × Nat)
  /-- Addresses of the shadow bank that software has written. -/
  shadowMicro : List Nat
  shadowNano : List Nat
  stack : List Nat
  latch : Option Trig
  taken : Option Trig
  timer0 : SeqTimer
  timer1 : SeqTimer
  /-- PROVISIONALs that await their CONFIRM or CANCEL: TRIG_ID, sequence number and when each was sent. -/
  provisional : List (Nat × Nat × Nat)
  begun : Option SeqBegun
  signal : Option SignalEdge
  stopPosted : Bool
  haltPosted : Bool
  /-- FRONT clocks since the latest safe point (R201). -/
  sinceSafe : Nat
  /-- How long the microword in progress had lasted when the clock stopped (R199). -/
  held : Option Nat
  deriving DecidableEq, Repr, Inhabited

/-! ### Record writers (chapter 07) -/

/-- One unit of a record (R208), numbered from the writer's latest enable. `cause` holds bits 4 to 6
of a GAP annotation's KIND: 1 INPUT, 2 DISCARD, 4 POWER; 0 for an accepted unit. -/
structure RecUnit where
  n : Nat
  ts : Stamp
  cause : Nat
  bytes : List (BitVec 8)
  deg : Bool
  subst : Bool
  stale : Bool
  deriving DecidableEq, Repr, Inhabited

/-- One item in an elastic buffer (R28): its size and the number of the accepted unit it completes. -/
structure EbItem where
  size : Nat
  unit : Option Nat
  deriving DecidableEq, Repr, Inhabited

/-- A writer's ACQ_CFG, ACQ_RING and NOTE_MAX, which no write changes while it is enabled (R224, R225). -/
structure RecSettings where
  cfg : BitVec 64
  ring : BitVec 64
  noteMax : Nat
  deriving DecidableEq, Repr, Inhabited

/-- A capture from its START or SPLIT to its publication. -/
structure Capture where
  settings : RecSettings
  trig : Trig
  seq : Nat
  pre : Nat
  post : Nat
  /-- Opened by a SPLIT that closed the previous record (R215). -/
  cont : Bool
  /-- Number of the trigger unit, once known; it may lie before the writer's first unit. -/
  ut : Option Int
  /-- The span so far, oldest first. -/
  units : List RecUnit
  /-- Tags with their IMM, in the order placed. -/
  tags : List (Nat × Stamp)
  /-- END of a STOP or SPLIT waiting for its T_stop, 0 for none. -/
  stopEnd : Nat
  /-- The first FRONT edge of the nanoword that stops or splits. -/
  stopAt : Nat
  tStop : Option Nat
  /-- END once closed, 0 while open. -/
  ending : Nat
  /-- Number of the unit after its last unit, once closed (R219). -/
  stop : Nat
  spilled : Bool
  /-- Number of the unit that would have passed the clamp point (R213), once spilled. -/
  spillAt : Nat
  /-- Ring offset of the first byte, once an opening header is written. -/
  opened : Option Nat
  /-- The first record after ENABLE := 1 or R224 (R219). -/
  first : Bool
  /-- A discard interval that overlaps the span has gone from the writer's list (R29). -/
  lostSeen : Bool
  deriving DecidableEq, Repr, Inhabited

/-- A MINMAX interval being formed: the number of the sample that continues it, extremes and what its samples
carried. -/
structure MinMax where
  next : Nat
  whole : Bool
  iMin : Int
  iMax : Int
  qMin : Int
  qMax : Int
  cause : Nat
  deg : Bool
  subst : Bool
  stale : Bool
  deriving DecidableEq, Repr, Inhabited

/-- A record in a ring (R207, R213): its first byte's ring offset, its length (0 while a spilled record is
open), its written units and whether the drive engine may pack it (R446). -/
structure RecSpan where
  start : Nat
  len : Nat
  units : Nat
  packs : Bool
  deriving DecidableEq, Repr, Inhabited

/-- A START that reached a writer while a capture was open (R189, R223): its trigger, its FRONT clock, the
sequencer and whether its SEQ_CAP_IGNORED counted it. -/
structure HeldStart where
  trig : Trig
  clock : Nat
  seq : Nat
  counted : Bool
  deriving DecidableEq, Repr, Inhabited

/-- A record writer and its elastic buffer beyond their entries. -/
structure Writer where
  /-- Records published and not wholly released, oldest first. -/
  spans : List RecSpan
  /-- The elastic buffer, oldest item first, whether a discard interval is open, and whether it has discarded
  a word. -/
  eb : List EbItem
  discarding : Bool
  wordLost : Bool
  /-- Discard intervals with their bounds of R29, newest first. -/
  lost : List (Nat × Option Nat)
  /-- Units formed since the latest enable, and their times as runs on one grid, newest first. -/
  count : Nat
  runs : List OutRun
  /-- Accepted units that have left the buffer are those below this number. -/
  drained : Nat
  /-- History from its oldest accepted unit on (R209). -/
  hist : List RecUnit
  /-- Captures not yet published, oldest first. -/
  caps : List Capture
  agg : Option MinMax
  /-- Number of the unit after the latest published record's last unit (R219). -/
  lastStop : Nat
  /-- No capture has opened since ENABLE := 1 or R224 (R219). -/
  fresh : Bool
  held : Option HeldStart
  deriving DecidableEq, Repr, Inhabited

/-! ### Lane groups (chapter 02) -/

/-- A lane group beyond its entries. Times are in FRAC units. -/
structure LaneGroup where
  /-- Converter samples that wait for delivery, oldest first, with their validity (R49). -/
  buf : List (Nat × Bool)
  /-- t_0, the release edge and the boundary B_0 less SYSREF_OFS of the latest release (R51, R52). -/
  t0 : Nat
  relAt : Nat
  grid : Nat
  /-- P of the latest release in SYS ticks, or a numerator of 0 after a raw one (R53). -/
  gridP : Nat × Nat
  /-- How far `grid` lies behind a grid point, as a numerator over that of `gridP` (R53). -/
  gridRem : Nat
  /-- The group has been released since cold reset. -/
  released : Bool
  /-- Converter samples delivered since that release. -/
  n : Nat
  /-- The SYSREF edge captured since ALIGN was entered (R51). -/
  capture : Option Nat
  /-- The latest SYSREF edge captured since the group was enabled (R42). -/
  lastEdge : Option Nat
  /-- G of R42, from the latest entry to SYNC. -/
  genAt : Nat
  /-- Device time at which the present state was entered. -/
  since : Nat
  /-- SYNCBg is driven low (R48). -/
  syncLow : Bool
  /-- PRSNTg is low, and since when it has held its level (R64). -/
  prsntLow : Bool
  prsntSince : Nat
  /-- The auto-ID read is in progress (R65). -/
  idBusy : Bool
  /-- Octets, in raw mode words, that the loopback generator has sent per lane (R42). -/
  loopN : Nat
  /-- Octets of a frame that is not whole yet, by logical lane, with their validity (R46). -/
  part : List (List (Nat × Bool))
  /-- The descrambler of each logical lane: its latest bits (R46). -/
  scr : List Nat
  /-- Raw words received, newest first, by logical lane (R44, R55). -/
  raw : List (List Nat)
  deriving DecidableEq, Repr, Inhabited

/-! ### Conditioning (chapter 03) -/

/-- A sample inside the chain, at LSB 2 ^ -23. -/
structure ChainSample where
  i : Int
  q : Int
  valid : Bool
  deriving DecidableEq, Repr, Inhabited

/-- A half-band stage (R84): its latest inputs, newest first, and the parity of their count. -/
structure HalfBand where
  hist : List ChainSample
  odd : Bool
  deriving DecidableEq, Repr, Inhabited

/-- The active copy of a channel's shadows (R95). -/
structure CndActive where
  ftw : Int
  pow : Nat
  bank : Nat
  ofsE : Int
  ofsO : Int
  gain : Nat
  taps : List Int
  deriving DecidableEq, Repr, Inhabited

/-- An output word on its way out of conditioning (R76), with what its stages saturated (R92). -/
structure CndWord where
  outs : List OutSample
  sats : Nat
  satAt : Nat
  deriving DecidableEq, Repr, Inhabited

/-- Sums over a block of interleave estimates (R80). -/
structure IlBlock where
  n : Nat
  bad : Bool
  sumE : Int
  sumO : Int
  sqE : Nat
  sqO : Nat
  deriving DecidableEq, Repr, Inhabited

/-- A conditioning chain beyond its entries. -/
structure CndChan where
  act : CndActive
  now : Bool
  timed : Option Nat
  /-- ENABLE := 1 waits for its hand-over (R95). -/
  enabling : Bool
  /-- The FRONT clock in which an untimed hand-over takes effect while no samples come (R97). -/
  due : Option Nat
  /-- NCO phase (R81). -/
  phase : Nat
  /-- Time of the latest chain-input sample. -/
  lastT : Option Nat
  stages : List HalfBand
  eq : List ChainSample
  ilE : List ChainSample
  ilO : List ChainSample
  il : IlBlock
  /-- The latest estimate block that is complete: its sums (R80). -/
  ilDone : Option IlBlock
  /-- Output samples since the frame origin (R104). -/
  q : Nat
  words : List CndWord
  /-- How many words at the head were formed before the latest release (R104). -/
  oldWords : Nat
  deriving DecidableEq, Repr, Inhabited

/-! ### The spectral engine (chapter 04) -/

/-- The active copy of a resolution's shadows, and its size and hop (R130). -/
structure SpxVer where
  gen : Nat
  win : BitVec 64
  ofs : Int
  col : BitVec 64
  range : BitVec 64
  log2n : Nat
  hop : Nat
  deriving DecidableEq, Repr, Inhabited

/-- A frame of a resolution (R105). -/
structure SpxFrame where
  k : Nat
  ver : SpxVer
  handover : Bool
  skip : Bool
  /-- Frames of the resolution since the hand-over frame (R126). -/
  pos : Nat
  first : Stamp
  last : Stamp
  /-- The pace of its first sample. -/
  pace : Pace
  deg : Bool
  /-- Frames skipped since the previous computed frame (R119). -/
  skipped : Nat
  /-- Its samples so far, newest first. -/
  xs : List OutSample
  deriving DecidableEq, Repr, Inhabited

/-- A column vector (R126). -/
structure ColVec where
  ts : Stamp
  cols : List Nat
  invalid : Bool
  deg : Bool
  handover : Bool
  gen : Nat
  /-- FRAME, EXP and SKIP of its last spectrum's block. -/
  k : Nat
  exp : Nat
  skip : Nat
  deriving DecidableEq, Repr, Inhabited

/-- The RMS group in progress (R126). -/
structure RmsGroup where
  sums : List Nat
  n : Nat
  bad : Bool
  deg : Bool
  handover : Bool
  deriving DecidableEq, Repr, Inhabited

/-- A resolution beyond its entries. -/
structure SpxRes where
  ver : SpxVer
  now : Bool
  timed : Option Nat
  /-- The timed commit was pending when the frame grid restarted (R130). -/
  kept : Bool
  enabling : Bool
  /-- ENABLE := 1 written while draining (R111). -/
  again : Bool
  nextK : Nat
  begun : List SpxFrame
  /-- Frames that have ended and wait for emission, oldest first. -/
  ready : List SpxFrame
  skipped : Nat
  skipRun : Bool
  carry : Bool
  pos : Nat
  /-- Time of the latest sample kH. -/
  lastBegin : Option Nat
  /-- Pipelines busy with frames read at the bypass clock, and until when (R128). -/
  busy : List (Nat × Nat)
  group : RmsGroup
  deriving DecidableEq, Repr, Inhabited

/-! ### Canopy and the spectrogram (chapter 08) -/

/-- A snapshot in progress (R242, R243). -/
structure Snap where
  /-- No decay pass holds it back any more. -/
  begun : Bool
  addr : Nat
  win : BitVec 64
  ts : BitVec 64
  counted : Nat
  held : Bool
  cleared : Bool
  /-- Cells that were read before their count changed, with what was read. -/
  read : List (Nat × Nat)
  deriving DecidableEq, Repr, Inhabited

/-- A Canopy store and what goes with it, beyond the entries. A cell is numbered column * 1024 + row. -/
structure CanopyChan where
  cells : List (Nat × Nat)
  /-- Saturation has been seen since the latest clear. -/
  satSeen : Bool
  /-- The next spectrum is a clear spectrum. -/
  clear : Bool
  decay : Nat
  regions : List (BitVec 64 × BitVec 64)
  /-- The decay pass in progress: its DECAY and the cells whose step an update has overtaken. -/
  pass : Option (Nat × List Nat)
  snap : Option Snap
  /-- Device time of the next decay event of DECAY_SRC = 2 counts from here. -/
  since : Nat
  deriving DecidableEq, Repr, Inhabited

/-- A spectrogram writer beyond its entries. -/
structure SpgChan where
  /-- Vectors of the group so far, and the first one's marks. -/
  n : Nat
  valid : Nat
  first : Stamp
  last : Stamp
  handover : Bool
  deg : Bool
  gen : Nat
  /-- Columns of the latest vector, and the values so far. -/
  width : Nat
  cols : List Nat
  /-- Lines completed and not yet written, as bytes without LINE, DROPPED and GAP_TS, with TS and
  TRUNC. -/
  lines : List (List (BitVec 8) × BitVec 64 × Bool)
  dropped : Nat
  gapTs : BitVec 64
  deriving DecidableEq, Repr, Inhabited

/-! ### Scan-out (chapter 09) -/

/-- The active copy of the scan-out's shadows (R264). -/
structure ScnActive where
  bg : BitVec 64
  plot : BitVec 64
  dens : BitVec 64
  ovlAddr : BitVec 64
  ovlCfg : BitVec 64
  ovlRect : BitVec 64
  /-- SCN_TRACE and SCN_TRACE_BUF by trace. -/
  traces : List (BitVec 64 × BitVec 64)
  deriving DecidableEq, Repr, Inhabited

/-- The scan-out beyond its entries. -/
structure Scn where
  act : ScnActive
  /-- TRACE_RESET bits that wait for a vector. -/
  reset : Nat
  /-- The copy of the trace buffers runs, and the newest vector that waits for its end, by trace (R260). -/
  copying : Bool
  wait : Vector (Option (List Nat)) 8
  /-- The on-chip copies by trace, and the traces whose copy was in time (R263). -/
  copy : List (List Nat)
  drawn : Nat
  /-- A commit is pending, and a flip is due at the next frame start. -/
  commit : Bool
  flip : Bool
  /-- A trace buffer or the shown store has changed since the previous sampling point (R268). -/
  changed : Bool
  /-- The frame's extended front porch runs, and when the frame began. -/
  extended : Bool
  frameAt : Nat
  /-- The next active line of the frame, and whether its last one has ended. -/
  nextLine : Nat
  blank : Bool
  /-- Frame timing runs. -/
  timing : Bool
  /-- Link training is in progress; the link is up; the frame in progress is sent (R255). -/
  training : Bool
  link : Bool
  sending : Bool
  hpd : Bool
  /-- Panel capabilities read from its DPCD: PSR, ignoring of MSA timing, and fast link training. -/
  psrCap : Bool
  msaCap : Bool
  fastCap : Bool
  /-- PSR_ENTER waits: frames left to send; PSR_EXIT waits for its frame start; ENABLE := 0 waits for
  the frame's end. -/
  psrEnter : Nat
  psrExit : Bool
  stopping : Bool
  /-- The panel entered self-refresh for a power state (R270). -/
  autoPsr : Bool
  /-- Genlock: frames in a row with an error of at most 1, and the latest edge. -/
  good : Nat
  edgeAt : Nat
  /-- The adjustment made since the latest frame start, in ppm (R266). -/
  moved : Int
  deriving DecidableEq, Repr, Inhabited

/-! ### Lantern (chapter 10) -/

/-- An entry of a core's stack (R290). (DEDUCED, log entry 32.) -/
inductive LntFrame
  /-- A return address. -/
  | addr (a : Nat)
  /-- SR, above the address that an interrupt pushed. -/
  | sr (v : Nat)
  /-- The enclosing loop: LEND, LCNT and its body's first address. -/
  | loop (lend lcnt start : Nat)
  deriving DecidableEq, Repr, Inhabited

/-- Where a write to a register comes from (R288). -/
inductive LntSrc
  | moveX | moveY | alu | other
  deriving DecidableEq, Repr, Inhabited

/-- A write on its way to the register of a control code. -/
structure LntWrite where
  code : Nat
  val : Nat
  src : LntSrc
  deriving DecidableEq, Repr, Inhabited

/-- An outstanding XFER, as its descriptor gave it (R303). -/
structure LntXfer where
  addr : Nat
  count : Nat
  loc : Nat
  /-- Y rather than X; out of the core rather than into it. -/
  inY : Bool
  out : Bool
  pack : Nat
  deriving DecidableEq, Repr, Inhabited

/-- Why a core in state WAIT waits. -/
inductive LntWait
  | none | wait | sync
  deriving DecidableEq, Repr, Inhabited

/-- A core beyond its entries (R278). PC and SR stand in LNT_PC and LNT_SR. -/
structure LntCore where
  /-- X0-X3, then Y0-Y3. -/
  d : Vector Nat 8
  a : Vector Nat 4
  n : Vector Nat 8
  m : Vector Nat 8
  st : Vector Nat 8
  lcnt : Nat
  lend : Nat
  /-- First address of the innermost loop's body. -/
  lstart : Nat
  tmr : Nat
  imr : Nat
  ipend : Nat
  stack : List LntFrame
  /-- Writes that land at the end of the next instruction (R287). -/
  late : List LntWrite
  /-- Delay slots still to execute, and where the branch goes when it is taken, with SR to restore. -/
  slots : Nat
  target : Option (Nat × Option Nat)
  /-- Executions left of the repeated instruction, 0 for none. -/
  rep : Nat
  xfers : List LntXfer
  waiting : LntWait
  /-- ENABLE has been written 0 and the core is not OFF yet, or is HALTED. -/
  zero : Bool
  /-- DSP cycles the task has spent in RUN, WAIT and SYNC (R301). -/
  spent : Nat
  deriving DecidableEq, Repr, Inhabited

/-- A task a pool holds (R296-R302). -/
structure LntTask where
  seq : Nat
  kind : Nat
  item : List (BitVec 8)
  ts : BitVec 64
  retry : Bool
  /-- The core that works on it. -/
  core : Option Nat
  dead : Bool
  /-- It waits in the reset journal for its pool's enable (R308). -/
  journal : Bool
  /-- Staged items, first first, with their queues. -/
  staged : List (Nat × List (BitVec 8))
  deriving DecidableEq, Repr, Inhabited

/-! ### Time intervals and comparators (chapter 11) -/

/-- An item in a stamp FIFO (R325): KIND, 0 for a data item, and its two words. -/
structure TimEntry where
  kind : Nat
  w0 : BitVec 64
  w1 : BitVec 64
  deriving DecidableEq, Repr, Inhabited

/-- A note that waits for its stream's next item. -/
structure TimNote where
  kind : Nat
  ts : BitVec 64
  count : Nat
  deriving DecidableEq, Repr, Inhabited

/-- An open gate (R330): its opening edge, the transitions since, and whether a stamped edge came. -/
structure TimGate where
  opened : Stamp
  n : Nat
  edge : Bool
  deriving DecidableEq, Repr, Inhabited

/-- A stop that waits for pairing, with the notes that belong to its item (R325, R327). -/
structure TimStop where
  ts : Stamp
  notes : List TimNote
  deriving DecidableEq, Repr, Inhabited

/-- A stream beyond its entries. -/
structure TimStream where
  fifo : List TimEntry
  discarding : Bool
  notes : List TimNote
  gate : Option TimGate
  /-- Starts not yet paired, oldest first, and stops that wait for pairing (R327-R329). -/
  starts : List Stamp
  stops : List TimStop
  replaced : Bool
  /-- The queue item being gathered, and when its first item came (R335). -/
  batch : List TimEntry
  batchAt : Nat
  /-- What a queue refused: first item's TS64 and the items (R325). -/
  refused : Option (BitVec 64 × Nat)
  deriving DecidableEq, Repr, Inhabited

/-- A TI input beyond its entries. -/
structure TimInput where
  /-- The interpolator that takes the next edge. -/
  rot : Nat
  /-- When the latest stamped edge came, by the island's count, and its stamp. -/
  edgeAt : Option Nat
  edgeTs : BitVec 64
  /-- c2 - c1 of the latest 1,024 edges, newest first (R319). -/
  spans : List Int
  rising : TimStream
  falling : TimStream
  /-- Histograms of the table run, by interpolator (R321). -/
  hist : List (List Nat)
  /-- When the latest edge of the input came, stamped or not, and the interpolator of the injected conversion
  in flight (R320). -/
  signalAt : Nat
  inject : Option Nat
  /-- T_i, when it was, and the tables before the installation there, until an edge of a later tick (R322). -/
  oldTables : Option (Nat × Nat × List (BitVec 64))
  /-- When stamping stopped for the bypass clock and for IDLE (R336, R337). -/
  clockStop : BitVec 64
  idleStop : BitVec 64
  /-- The comparators have taken their state since they were powered (R314). -/
  started : Bool
  /-- Device time of the latest threshold write (R315). -/
  settleAt : Nat
  /-- Whether the latest table run passed; none after an abandoned one (R322, R569). -/
  tableEnd : Option Bool
  deriving DecidableEq, Repr, Inhabited

/-! ### Supply converters and monitors (chapter 13) -/

/-- A step that has sampled and whose conversions run (R361, R366). -/
structure SupStep where
  step : Nat
  /-- The last step of its sequence. -/
  last : Bool
  seq : Nat
  /-- The sequence's step 0, and when the conversions end. -/
  zero : Stamp
  ends : Nat
  degraded : Bool
  /-- Entries with their codes. -/
  codes : List (Nat × Nat)
  deriving DecidableEq, Repr, Inhabited

/-- A group, or an integrating converter, beyond its entries. -/
structure SupUnit where
  /-- Trigger times of the running sequence and of a pending trigger. -/
  trig : Stamp
  pend : Option Stamp
  /-- The SYS ticks of the triggers of the latest millisecond, by their edges (R362). -/
  ticks : List Nat
  go : Nat
  timerAt : Nat
  /-- The opening edge of a pulse (R363). -/
  pulse : Option Nat
  /-- Steps sampled since T_go, when the next one samples, the present sequence's number and its step 0. -/
  k : Nat
  next : Nat
  seq : Nat
  zero : Stamp
  steps : List SupStep
  /-- Start of the window and its end, once known (R367), since when an edge is awaited, and the first cycle of a
  CYCLES window, with whether it has begun. -/
  start : Option Stamp
  ending : Option Nat
  since : Nat
  cyc : Nat
  begun : Bool
  deriving DecidableEq, Repr, Inhabited

/-- The window monitors beyond their entries (R369-R371). -/
structure Mon where
  /-- Device time of the first monitor enable. -/
  base : Option Nat
  ticks : Nat
  periods : Nat
  /-- Monitors whose watch runs, as a bit map, and the tick's time. -/
  watch : Nat
  tickAt : Nat
  deriving DecidableEq, Repr, Inhabited

/-! ### GDDR7 and SRAM (chapter 14) -/

/-- The masters of the GDDR7 controller (R389). -/
inductive MemMaster
  | recordWriter | timuWriter | spectrogramWriter | scanOut
  | driveEngine | pcieEndpoint | dma | lanternXfer | canopySnapshot
  | trainingProbe | patrol | ageingProbe
  deriving DecidableEq, Repr, Inhabited

/-- The fixed class of a master: 0 real-time, 1 bulk, 2 background (R389). -/
def MemMaster.cls : MemMaster → Nat
  | .recordWriter | .timuWriter | .spectrogramWriter | .scanOut => 0
  | .driveEngine | .pcieEndpoint | .dma | .lanternXfer | .canopySnapshot => 1
  | .trainingProbe | .patrol | .ageingProbe => 2

/-- A segment that waits for a bank visit (R390): its master, its address and length, whether it writes, and
how long it has waited in nanoseconds. -/
structure MemSeg where
  master : MemMaster
  addr : Nat
  len : Nat
  write : Bool
  waited : Nat
  deriving DecidableEq, Repr, Inhabited

/-- A movement of a byte lane's read and write centres that a probe found, in 1/64 UI (R386). -/
structure LaneMove where
  dev : Nat
  lane : Nat
  rd : Int
  wr : Int
  deriving DecidableEq, Repr, Inhabited

/-- A segment in its bank's queue, and when it came, by the island's count (R390). -/
structure QueuedSeg where
  seg : MemSeg
  cameAt : Nat
  deriving DecidableEq, Repr, Inhabited

/-- A PCIe request to device memory that waits until GDDR7 serves (R383, R387): read or write, with its tag. -/
structure HeldRequest where
  port : Nat
  tag : Nat
  write : Bool
  addr : Nat
  len : Nat
  data : List (BitVec 8)
  deriving DecidableEq, Repr, Inhabited

/-- The GDDR7 controller and the SRAM patrol beyond their entries. -/
structure Ddr where
  /-- What training is under way: 0 start-up, 1 retrain, 2 a rate change, 3 verification after a warm
  reset. -/
  kind : Nat
  /-- The rate a change goes to, and a request that is held (R388). -/
  rate : Nat
  held : Option Nat
  /-- When each device was probed last, and its temperature then in 0.1 degrees (R386). -/
  probes : List (Nat × Nat × Int)
  moves : List LaneMove
  /-- Devices that a probe holds, and the management island's count at its end (R386). -/
  probing : List (Nat × Nat)
  /-- The bank a device has just refreshed, until its next visit (R386). -/
  refreshed : List (Nat × Nat)
  /-- Refreshes postponed, by device * 16 + bank (R393). -/
  debt : List (Nat × Nat)
  /-- The bank that began the latest visit of each device (R390). -/
  rot : Vector Nat 16
  /-- The segments queued for each device, oldest first; those of one bank are that bank's queue (R390). -/
  queues : Vector (List QueuedSeg) 16
  /-- The next address a patrol read covers (R395). -/
  patrol : Nat
  /-- When the latest SRAM patrol took place, by the island's count (R399). -/
  scrubAt : Nat
  /-- A warm reset left the contents in self-refresh with trained settings, which its verification has not met yet
  (R396). -/
  kept : Bool
  /-- The devices have been trained since they were powered (R396). -/
  trained : Bool
  /-- When start-up began, by the island's count (R383). -/
  since : Nat
  /-- The STATE of a training or rate change that self-refresh interrupted, which goes on after it (R396, R403). -/
  again : Option Nat
  /-- Selects what the training pattern area holds (R381). -/
  pattern : Nat
  /-- A block that uses SRAM has been enabled (R398). -/
  sramUsed : Bool
  deriving DecidableEq, Repr, Inhabited

/-! ### Queues and DMA (chapter 15) -/

/-- An item that a queue has accepted, and its KIND (R408). -/
structure QueueItem where
  kind : Nat
  bytes : List (BitVec 8)
  deriving DecidableEq, Repr, Inhabited

/-- The live state of an enabled queue (R407, R411). -/
structure QueueLive where
  base : Nat
  tagBase : Nat
  depth : Nat
  esize : Nat
  /-- PROD = 1: filled by software. -/
  prodSw : Bool
  /-- CONS = 1: consumed by a Lantern pool. -/
  consPool : Bool
  notifyEn : Bool
  head : Nat
  tail : Nat
  notifyAddr : Nat
  notifyData : Nat
  refused : Nat
  gapFirst : BitVec 64
  gapResume : BitVec 64
  /-- An interval of refusals is open (R411). -/
  gapOpen : Bool
  /-- Reservations of Lantern ENQ (R409). -/
  reserved : Nat
  /-- Items accepted while the memory of ring, tags or notify target serves nothing, oldest first: TAIL goes past
  them once they are written (R383, R391, R409). -/
  staged : List QueueItem
  deriving DecidableEq, Repr, Inhabited

/-- One DMA channel beyond its dictionary entries (R421-R424). -/
structure DmaChan where
  /-- ENABLE := 0 waits for the pause to complete (R422). -/
  offPending : Bool
  /-- The device itself paused the channel on entry to IDLE or DOZE (R424). -/
  devPaused : Bool
  deriving DecidableEq, Repr, Inhabited

/-- One feed beyond its entry (R414, R415): spectra or vectors since the latest item, and the IQ
block being filled. -/
structure Feed where
  skipped : Nat
  buf : List OutSample
  deriving DecidableEq, Repr, Inhabited

/-! ### Nolrad fabric (chapter 17) -/

/-- A packet in a port's replay buffer (R462): the link sequence number of its first frame, how many
frames it takes, how often it has been sent and when it was accepted. -/
structure Replay where
  seq : Nat
  frames : Nat
  tries : Nat
  pkt : FabPkt
  at' : Nat
  deriving DecidableEq, Repr, Inhabited

/-- What a port has heard of its neighbour (R467). -/
structure Nbr where
  key : Nat
  addr : Nat
  root : Nat
  dist : Nat
  /-- The neighbour names this port its parent port. -/
  namesUs : Bool
  deriving DecidableEq, Repr, Inhabited

/-- A fabric port beyond its entries. -/
structure FabPort where
  txSeq : Nat
  rxNext : Nat
  replay : List Replay
  /-- Packets that wait for credits or replay space, oldest first, and since when. -/
  wait : List (FabPkt × Nat)
  credits0 : Nat
  credits1 : Nat
  credits2 : Nat
  /-- Since when the replay buffer is full. -/
  fullSince : Option Nat
  nbr : Option Nbr
  /-- Send stamps of the latest TIME packet and the one before, the arrival stamp of the latest received, and when
  the latest was sent. -/
  timeSent : Nat
  timePrev : Nat
  timeArrived : Option Nat
  timeAt : Option Nat
  /-- When the latest HELLO was sent. -/
  helloAt : Option Nat
  /-- When the present state was entered. -/
  since : Nat
  deriving DecidableEq, Repr, Inhabited

/-- A held link-state record (R470). -/
structure Lsr where
  addr : Nat
  uid : Nat
  seq : Nat
  nbrs : List Nat
  heardAt : Nat
  deriving DecidableEq, Repr, Inhabited

/-- A packet in the end-to-end retransmit store (R473). -/
structure E2eItem where
  pkt : FabPkt
  sentAt : Nat
  /-- Since when its destination has had no route. -/
  lostAt : Option Nat
  deriving DecidableEq, Repr, Inhabited

/-- One end-to-end stream to a destination (R473). -/
structure E2eTx where
  uid : Nat
  vc : Nat
  next : Nat
  unacked : List E2eItem
  waiting : List FabPkt
  deriving DecidableEq, Repr, Inhabited

/-- One end-to-end stream from a source (R473). -/
structure E2eRx where
  uid : Nat
  vc : Nat
  next : Nat
  /-- An acknowledgement is owed. -/
  owes : Bool
  deriving DecidableEq, Repr, Inhabited

/-- A Ridgeline message held behind a gap (R482): its RL_SEQ, FIRE_AT as it was taken at arrival (R481), and since
when it is held. -/
structure RlHeld where
  seq : Nat
  pkt : FabPkt
  fire : Stamp
  since : Nat
  deriving DecidableEq, Repr, Inhabited

/-- The Ridgeline messages of one sender (R482): the RL_SEQ taken next, what is held, oldest first, and the
numbers that were skipped. -/
structure RlRx where
  src : Nat
  next : Nat
  held : List RlHeld
  skipped : List Nat
  deriving DecidableEq, Repr, Inhabited

/-- An address the root has granted (R469): since when its device has left, and whether others may have it. -/
structure Grant where
  uid : Nat
  addr : Nat
  leftAt : Option Nat
  free : Bool
  deriving DecidableEq, Repr, Inhabited

/-- The fabric beyond its entries. -/
structure Fab where
  ports : Vector FabPort 8
  lsrs : List Lsr
  lsrSeq : Nat
  /-- When the latest periodic flood took place (R470). -/
  lsrAt : Option Nat
  /-- Since when root key and parent port have stood unchanged (R468). -/
  stableSince : Nat
  grants : List Grant
  tx : List E2eTx
  rx : List E2eRx
  rl : List RlRx
  /-- Latest offsets measured on the parent port, newest first, and how many came since ACQUIRE began;
  consecutive offsets within 20 ps (R476). -/
  thetas : List Int
  calm : Nat
  holdSince : Nat
  /-- The time state left HOLDOVER for ACQUIRE (R476). -/
  keepFab : Bool
  /-- When the latest ADDR_REQ was sent. -/
  reqAt : Nat
  /-- A link-state change awaits the recomputation of the routing table (R472). -/
  routeDue : Bool
  /-- Ridgeline messages that await the new broadcast tree (R482), each with the time up to which its AGE counts. -/
  resend : List (FabPkt × Nat)
  /-- RL_SEQ of the device's own Ridgeline messages that no link has accepted yet (R479). -/
  unsent : List Nat
  deriving DecidableEq, Repr, Inhabited

/-! ### RAP sessions (R522, R524) -/

/-- A NOTIFY message not yet acknowledged. -/
structure NotifyOut where
  seq : Nat
  recs : List EventRec
  sentAt : Nat
  deriving DecidableEq, Repr, Inhabited

/-- One RAP session. -/
structure Session where
  peer : Peer
  id : Nat
  /-- The next SEQ expected. -/
  expected : Nat
  /-- Requests held ahead of the expected number, with their operation codes. -/
  ahead : List (Nat × RapMsg)
  /-- Replies to the latest 64 executed requests, newest first. -/
  cache : List RapReply
  /-- Device time of the latest request. -/
  lastAt : Nat
  /-- Subscribed events as a bit map of 1,024 bits. -/
  subs : Nat
  /-- The notify buffer, at most one record per event. -/
  buf : List EventRec
  /-- The next notify sequence number. -/
  nseq : Nat
  outstanding : List NotifyOut
  deriving DecidableEq, Repr, Inhabited

/-- One save set of MRAM (R516). -/
structure SaveSet where
  valid : Bool
  recs : List (Nat × BitVec 64)
  deriving DecidableEq, Repr, Inhabited

/-- The management island's own state (chapter 19). -/
structure Mgt where
  sessions : List Session
  sets : Vector SaveSet 2
  /-- Entries marked faulted by the parity check (R513). -/
  faulted : List Nat
  /-- Blocks stopped by a parity fault, by the slot of their ENABLE, until ENABLE is written 0
  and then 1 (R513). -/
  stopped : List Nat
  /-- The first access flag that the access being executed has set (R521). -/
  flagged : Option Nat
  /-- What a save in progress has read (R516). -/
  saving : Option (List (Nat × BitVec 64))
  /-- Events raised in the present SYS clock, in ascending order of event number: they take their ORDER and are delivered
  when it ends (R527). -/
  raised : List EventRec
  deriving DecidableEq, Repr, Inhabited

/-! ### Clocks and cycles (chapters 18 and 12) -/

/-- Clock synthesis beyond its entries. -/
structure Clk where
  /-- Loops 0 to 3 that meet the phase condition and wait for the others (R491). -/
  phaseMet : Vector Bool 6
  /-- The frequency word with which each loop met it. -/
  words : Vector Nat 6
  /-- Band memory entries, least recently used first, by loop (R497). -/
  lru : Vector (List Nat) 6
  /-- SYS has locked since the latest cold reset (R490). -/
  everLocked : Bool
  /-- Remainder of the device-time counter below one FRAC unit, as a fraction (R495). -/
  remNum : Nat
  remDen : Nat
  /-- FRAC units of BYPASS not yet counted as a whole ns, by loop (R502). -/
  bypassRem : Vector Nat 6
  /-- Time since power-up, in FRAC units, which no step of device time moves: what the management island
  counts. -/
  up : Nat
  /-- The steering target of the fabric (R476), in 0.1 ppb. -/
  fabTarget : Int
  /-- Device time of FRONT's edges modulo their period: a fabric step moves it (R490, R495). -/
  frontOfs : Nat
  deriving DecidableEq, Repr, Inhabited

/-- One cycle the tracker has estimated (R346): its number, its start and its period, both in
2^-16 FRAC unit. -/
structure CycleRec where
  m : Nat
  start : Nat
  period : Nat
  deriving DecidableEq, Repr, Inhabited

/-- The cycle tracker and the waypoint scheduler beyond their entries. -/
structure Ccs where
  /-- Latest CYC edge's estimated time and the CYC period, in 2^-16 FRAC unit. -/
  edge : Nat
  per : Nat
  /-- Edges seen since SEEK began. -/
  seen : Bool
  two : Bool
  /-- Consecutive cycles within 1/256 cycle in SEEK, or good edges in HOLDOVER. -/
  good : Nat
  /-- CYC edges since the latest cycle start (R345). -/
  div : Nat
  /-- Cycle starts estimated, newest first. -/
  cycles : List CycleRec
  /-- Positions whose FABRIC message has been sent already (R355). -/
  sentAhead : List Nat
  /-- Phase errors of the latest 1,024 edges, newest first (R346). -/
  errs : List Int
  /-- When HOLDOVER was entered, and when the latest CYC edge came, by the island's count. -/
  heldAt : Nat
  cameAt : Nat
  /-- Entries fired in the SYS tick below, and that tick (R351). -/
  firedTick : Nat
  firedCount : Nat
  deriving DecidableEq, Repr, Inhabited

/-! ### Power (chapter 20) -/

/-- The power ladder beyond its entries (R557, R558). -/
structure Pwr where
  /-- Where the present movement ends. -/
  target : Nat
  /-- The movement goes down. -/
  down : Bool
  /-- The state whose entry or exit steps are under way, and the step in progress, from 1. -/
  into : Nat
  step : Nat
  /-- A wake cause has taken effect and its climb has not ended. -/
  woken : Bool
  /-- TARGET of a GO taken while moving. -/
  go : Option Nat
  /-- DOZE was entered with its step 5 made. -/
  flushed : Bool
  /-- Rails whose power-good input is awaited, as a bit map, and since when. -/
  pgWait : Nat
  pgSince : Nat
  /-- Power-good inputs that count, and PS_EN0-2, as bit maps. -/
  pg : Nat
  en : Nat
  /-- Levels of PS_PG0-2 at the pins (R588), as a bit map. -/
  pgHigh : Nat
  /-- When the present step began, in the management island's count. -/
  since : Nat
  /-- VOUT_MODE of each rail as it was read (R562). -/
  vout : Vector (BitVec 8) 8
  /-- PMBus work that waits for DOZE or higher, oldest first: the rail, and VOUT_MODE (`true`) or VOUT_COMMAND (R562). -/
  railDue : List (Nat × Bool)
  deriving DecidableEq, Repr, Inhabited

/-! ### The drive engine (chapter 16) -/

/-- What an NVMe command of the engine is for. -/
inductive DrvWhat
  /-- A step of a controller's initialisation. -/
  | init (step : Nat)
  /-- The volatile write cache of a member. -/
  | cache
  | data (set block strip : Nat)
  | parity (set stripe strip : Nat)
  | label (set : Nat)
  /-- A Flush, with the strips whose Writes had completed before it. -/
  | flush (set : Nat) (covers : List (Nat × Nat))
  | smart
  | rebuildRead (set stripe strip : Nat)
  | rebuildWrite (set stripe strip : Nat)
  deriving DecidableEq, Repr, Inhabited

/-- An outstanding NVMe command. -/
structure DrvCmd where
  cookie : Nat
  op : NvmeOp
  what : DrvWhat
  lba : Nat
  sentAt : Nat
  tries : Nat
  /-- It has been given to the controller; else it waits for room in its queue. -/
  sent : Bool
  deriving DecidableEq, Repr, Inhabited

/-- What an NVMe completion brings. -/
inductive NvmeData
  | none
  /-- Identify, CNS 01h: the largest transfer in bytes, 0 for no limit, whether the volatile write cache can be turned
  off, and the controller's CAP.MQES. -/
  | ctrl (mdts : Nat) (vwcOff : Bool) (mqes : Nat)
  /-- Identify, CNS 00h: whether namespace 1 is active, its size in LBAs, bytes per LBA and of metadata. -/
  | ns (active : Bool) (nsze lba metadata : Nat)
  /-- The bytes read at LBA 0. -/
  | label (data : List (BitVec 8))
  /-- SMART: critical warning, percentage used and temperature in K. -/
  | smart (warning used temp : Nat)
  deriving DecidableEq, Repr, Inhabited

/-- A label (R444). -/
structure DrvLabel where
  index : Nat
  n : Nat
  flags : Nat
  setId : Nat
  gen : Nat
  next : Nat
  degFrom : Nat
  stripes : Nat
  deriving DecidableEq, Repr, Inhabited

/-- An NVMe controller below a root port. -/
structure Ctrl where
  port : Nat
  fn : Nat
  /-- 1: CC.EN is 0 and RDY = 0 is awaited; 2: RDY = 1 is awaited; 3: initialising; 4: ready. -/
  phase : Nat
  mdtsOk : Bool
  vwcOff : Bool
  formatOk : Bool
  nsze : Nat
  /-- Entries of its I/O queues: min(MQES + 1, 256) (R442). -/
  depth : Nat
  label : Option DrvLabel
  cmds : List DrvCmd
  /-- Device time of the latest timeout. -/
  timeoutAt : Option Nat
  deriving DecidableEq, Repr, Inhabited

/-- A member of a stripe set beyond its entry: strips written, and strips durable, by stripe and strip. -/
structure DrvMember where
  done : List (Nat × Nat)
  safe : List (Nat × Nat)
  deriving DecidableEq, Repr, Inhabited

/-- A rebuild (R454): the member, the next stripe and strip, the first stripe written to all members, reads
still awaited, and when the latest strip began. -/
structure Rebuild where
  m : Nat
  next : Nat
  strip : Nat
  upto : Nat
  left : Nat
  began : Option Nat
  deriving DecidableEq, Repr, Inhabited

/-- An accepted block: its journal entry (R448), its header (R447), and where in the carried stream its
payload begins and ends. -/
structure DrvBlock where
  set : Nat
  b : Nat
  ch : Nat
  pad : Bool
  part : Bool
  pos : Nat × Nat
  next : Nat × Nat
  ringFirst : Nat
  ringEnd : Nat
  payLen : Nat
  firstRec : Nat
  ts : BitVec 64
  deriving DecidableEq, Repr, Inhabited

/-- A stripe set beyond its entries. -/
structure DrvSet where
  /-- K of R445. -/
  k : Nat
  /-- The take position of each channel: a ring offset, and carried bytes of the packed record there. -/
  pos : Vector (Nat × Nat) 4
  /-- Publications of each channel that are not wholly taken: the ring offset each reached, and its time. -/
  marks : Vector (List (Nat × Nat)) 4
  /-- Carried bytes of each channel that a stop still has to take (R451). -/
  rest : Vector Nat 4
  /-- INIT, as the set began with it (R444, R455). -/
  init : Bool
  /-- When the members were last flushed (R449). -/
  flushAt : Option Nat
  /-- 0 no stop; 1 blocks drain; 2 labels are written (R451). -/
  stop : Nat
  /-- ENABLE has been written 0: OFF follows the stop. -/
  offAfter : Bool
  /-- Durable blocks not yet below DRV_SET_DURABLE: number, channel and RING_END. -/
  freed : List (Nat × Nat × Nat)
  rebuild : Option Rebuild
  firstAll : Nat
  degFrom : Option Nat
  /-- The member whose rebuild has not ended, and the stripe it began at (R454, R455). -/
  owes : Option (Nat × Nat)
  /-- Members that rejoined while the set was stopping: member, port, function, replacement. -/
  rejoin : List (Nat × Nat × Nat × Bool)
  members : Vector DrvMember 16
  deriving DecidableEq, Repr, Inhabited

/-- A hot-plug-capable switch downstream port (R438): its root port, the bus below it, the bridges above that bus, and
the base and size of its window, size 0 where none was placed. -/
structure PciSlot where
  port : Nat
  bus : Nat
  depth : Nat
  base : Nat
  room : Nat
  deriving DecidableEq, Repr, Inhabited

/-- A memory BAR placed below a root port (R438): the port, the function's table index, its base and log2 size. -/
structure PciBar where
  port : Nat
  f : Nat
  base : Nat
  log2 : Nat
  deriving DecidableEq, Repr, Inhabited

/-- The drive engine, and what enumeration placed below the root ports. -/
structure Drv where
  sets : Vector DrvSet 4
  /-- The cairn journal, oldest entry first. -/
  journal : List DrvBlock
  ctrls : List Ctrl
  cookie : Nat
  /-- Root ports on which an enumeration runs, as a bit map. -/
  enum : Nat
  /-- Ports whose configuration access is outstanding (R441), as a bit map. -/
  acc : Nat
  slots : List PciSlot
  bars : List PciBar
  /-- When the SMART log pages were last read (R442). -/
  smartAt : Option Nat
  deriving DecidableEq, Repr, Inhabited

/-- A function or bridge found below a root port, in depth-first order (R438): how many bridges lie above
it, its device and function number, its identity and the log2 sizes of its memory BARs. -/
structure PciDev where
  depth : Nat
  dev : Nat
  fn : Nat
  bridge : Bool
  hot : Bool
  vendor : Nat
  device : Nat
  cls : Nat
  bars : List Nat
  deriving DecidableEq, Repr, Inhabited

/-! ### PCIe functions (R433, R529) -/

/-- One vector of an MSI-X table. -/
structure MsixVec where
  addr : Nat
  data : Nat
  masked : Bool
  deriving DecidableEq, Repr, Inhabited

/-- The configuration state of an endpoint function that the model's rules read (R433-R437). -/
structure EpFn where
  /-- The boot code has enabled the port to answer configuration requests (R432). -/
  enabled : Bool
  /-- Configuration dwords written by the host, by register number. -/
  config : List (Nat × Nat)
  busMaster : Bool
  memSpace : Bool
  msixEnable : Bool
  msixMask : Bool
  /-- MSI-X table, vectors that differ from the reset value. -/
  table : List (Nat × MsixVec)
  /-- Pending bits, one per vector. -/
  pba : Nat
  /-- An FLR is in progress (R437). -/
  flr : Bool
  /-- PERST# is deasserted (R543). -/
  out : Bool
  deriving DecidableEq, Repr, Inhabited

/-! ### Health (chapter 21) -/

/-- A calibration run in progress (R568, R569): its ID, the sensor reading when it began, and the
management island's count then. -/
structure CalRun where
  id : Nat
  temp : Int
  since : Nat
  /-- CND_IL_EST_BLOCKS when it began, for IDs 64 and 65. -/
  blocks : Nat
  deriving DecidableEq, Repr, Inhabited

/-- A record of the health journal in MRAM (R577). -/
structure HltRec where
  n : Nat
  ts : BitVec 64
  kind : Nat
  target : Nat
  months : Nat
  old : Nat
  new : Nat
  deriving DecidableEq, Repr, Inhabited

/-- The calibration supervisor and the health monitor beyond their entries. -/
structure Hlt where
  /-- OFS_O and GAIN of AC0 and AC2 in the calibration store (R571). -/
  il : List (Int × Nat)
  /-- IDs whose values the calibration store holds. -/
  stored : List Nat := []
  /-- The TIMU tables it holds, by slot. -/
  tables : List (Nat × BitVec 64) := []
  /-- Codes of REF_LO and REF_HI of the last passing run, by ID: the converters' trims. -/
  trims : List (Nat × Int × Int) := []
  runs : List CalRun := []
  /-- Calibrations that are due, and since when (R567, R568). -/
  due : List (Nat × Nat) := []
  /-- Failed calibrations that wait for their retry, and since when (R569). -/
  retry : List (Nat × Nat) := []
  /-- IDs with a passing run since cold reset. -/
  passed : List Nat := []
  /-- TIM_TRIM of an input at its last passing run. -/
  trimAt : List (Nat × Nat) := []
  /-- The health journal in MRAM, newest first. -/
  journal : List HltRec := []
  /-- HLT_TEMP has been raised and not every sensor has fallen below since (R575). -/
  hot : Bool := false
  /-- PWR_RAIL_VSET of each rail at the end of the boot script (R573). -/
  v0 : List Nat := []
  /-- When the sensors, the replicas, a lane and the age were read last. -/
  sensorAt : Option Nat := none
  replicaAt : Option Nat := none
  laneAt : Option Nat := none
  ageAt : Option Nat := none
  /-- The lane that is measured next: a J-lane, or 48 + an F-lane. -/
  lane : Nat := 0
  /-- When the voltage and the DRAM period were adjusted last, and each lane's target. -/
  voltAt : Option Nat := none
  dramAt : Option Nat := none
  eqAt : List (Nat × Nat) := []
  /-- Since when the least slack has stood above its upper bound. -/
  slackAt : Option Nat := none
  /-- Fraction of the age below one second, in 2^-32 s. -/
  ageLow : Nat := 0
  /-- The copy of the age in MRAM, and the equivalent seconds at its latest write. -/
  ageCopy : Option (BitVec 64) := none
  ageSince : Nat := 0
  deriving DecidableEq, Repr, Inhabited

/-! ### Boot and reset (chapter 20) -/

/-- The reset journal (R550): what a warm reset keeps for the replay of R552. (DESIGN CHOICE, log entry 50.) -/
structure Journal where
  /-- Slots to restore, with their contents. -/
  regs : List (Nat × BitVec 64)
  writers : Vector Writer 4
  queues : List (Nat × QueueLive)
  dma : Vector DmaChan 128
  pools : Vector (List LntTask) 8
  /-- The fabric retransmit store, and what the streams from others have reached. -/
  tx : List E2eTx
  rx : List E2eRx
  deriving DecidableEq, Repr, Inhabited

/-- What the ROM finds when it reads and checks a slot (R536-R538, R571): both slots' headers; whether the
flash answered; whether the SHA-384 of PUBKEY equals the fused hash and SIG is valid; whether the flash was
read in 8D-8D-8D mode; the slot's body; the calibrations whose stored values are missing or fail their CRC;
and the MRAM addresses whose reads fail their ECC. (DESIGN CHOICE, log entry 20.) -/
structure SlotRead where
  head0 : List (BitVec 8)
  head1 : List (BitVec 8)
  answered : Bool
  keyHash : Bool
  sig : Bool
  octal : Bool
  body : List (BitVec 8)
  missing : List (Fin 86)
  badMram : List (BitVec 18)
  deriving DecidableEq, Repr, Inhabited

/-- The boot ROM and the resets beyond their entries. -/
structure Boot where
  /-- A warm reset's progress: 0 none, 1 quiescing, 2 blocks held in reset, 3 the ROM reads the slot
  or executes the script again; and since when. -/
  phase : Nat
  since : Nat
  /-- The slot that was tried first and has failed (R537). -/
  tried : Option Nat
  /-- The boot script, the place of its next record and that record's number. -/
  script : List (BitVec 8)
  pos : Nat
  recNo : Nat
  /-- Since when the present WAIT or DELAY record runs. -/
  waits : Option Nat
  /-- When the watchdog's count began (R553). -/
  wdogAt : Nat
  /-- RANGE of a block reset that has not completed (R554). -/
  blk : Option Nat
  /-- When the PMBus master polled last (R562). -/
  pollAt : Option Nat
  journal : Option Journal
  /-- RAP requests that arrived during a warm reset, with their operation codes (R550). -/
  held : List (Peer × Nat × RapMsg)
  deriving DecidableEq, Repr, Inhabited

/-! ### What happenings bring with them -/

/-- A change of a digitiser's presence (R64, R67): the group, and the bytes that its SPI and I2C transfers in
progress have received by the end of their current byte. -/
structure PresenceChange where
  group : Fin 4
  spi : List (BitVec 8)
  i2c : List (BitVec 8)
  deriving DecidableEq, Repr, Inhabited

/-- What the logical lanes bring in one multiblock, frame or word cycle (R49, R55): each lane's octets, and
whether it began at B_0. -/
structure LaneCells where
  octets : List (List (BitVec 8))
  first : Bool
  deriving DecidableEq, Repr, Inhabited

/-- A group whose logical lanes lose lock (R49, R55): the lanes, and what they lose: 0 EMB_LOCK, 1 SYNC_LOCK,
2 CDR_LOCK. -/
structure LockLoss where
  group : Fin 4
  lanes : BitVec 12
  what : Fin 3
  deriving DecidableEq, Repr, Inhabited

/-- Logical lanes of a group (R60). -/
structure LaneSet where
  group : Fin 4
  lanes : BitVec 12
  deriving DecidableEq, Repr, Inhabited

/-- What the logical lanes of a group find in SYNC (R45, R48): those that gain SYNC_LOCK, those that gain
EMB_LOCK, and what each lane's ILAS gave: values in the layout of R47, LID, JESDV and SUBCLASSV. -/
structure SyncFind where
  sync : BitVec 12
  emb : BitVec 12
  ilas : List (Nat × Nat × Nat × Nat)
  deriving DecidableEq, Repr, Inhabited

/-- A lane whose frequency offset leaves its range, or returns within it (R39): lanes 48 to 63 are F-lanes. -/
structure OffsetChange where
  lane : Fin 64
  leaves : Bool
  deriving DecidableEq, Repr, Inhabited

/-- A Ridgeline message as it arrives: the packet, and its place within the SYS tick (R161). -/
structure RidgeMsg where
  pkt : FabPkt
  place : Fin 4096
  deriving DecidableEq, Repr, Inhabited

/-- The mean of a supply input over a window, in nanovolts (R368). -/
structure WindowMean where
  input : Fin 64
  nv : Int
  deriving DecidableEq, Repr, Inhabited

/-- What a probe of a GDDR7 device meets (R386, R389): the movements of its lanes, and the segments that the
scheduler holds for the device beside it. -/
structure ProbeFind where
  moves : List (Fin 4 × Int × Int)
  segs : List MemSeg
  /-- EDC retries of its accesses, and whether all of them failed (R394). -/
  retries : Fin 4
  fails : Bool
  deriving DecidableEq, Repr, Inhabited

/-- What a patrol read meets (R389, R395): its error, and the segments that the scheduler holds for its device
beside it. -/
structure PatrolFind where
  ecc : Fin 3
  segs : List MemSeg
  /-- EDC retries of the read, and whether all of them failed (R394). -/
  retries : Fin 4
  fails : Bool
  deriving DecidableEq, Repr, Inhabited

/-- What a refresh meets (R392, R393): whether its bank has a visit in progress, and the temperature that the device
reports, in 0.1 degrees. -/
structure RefreshFind where
  busy : Bool
  temp : Int
  deriving DecidableEq, Repr, Inhabited

/-- How eDP link training ended (R253, R254), and whether the panel's DPCD offers fast training. -/
structure TrainEnd where
  ok : Bool
  fast : Bool
  deriving DecidableEq, Repr, Inhabited

/-- A start of a sequencer (R195, R198): which, and whether the fetch of its first microword meets a parity
mismatch. -/
structure SeqStart where
  q : Fin 5
  parity : Bool
  deriving DecidableEq, Repr, Inhabited

/-- The memory errors that an access of a Lantern core meets (R276): how many words have a single-bit error, and
whether one has a double-bit error. -/
structure LntEcc where
  corrected : Nat
  double : Bool
  deriving DecidableEq, Repr, Inhabited

/-- The end of an XFER (R303): whether a bus error ends it, and the errors in the local words that it read. -/
structure XferEnd where
  err : Bool
  ecc : LntEcc
  deriving DecidableEq, Repr, Inhabited

end Sys2Proof.Machine
end

