-- ==== Sys2Proof/Syntax.lean ====
section
/-! DEFINITION. The commands of the FT-7248 as a block: one constructor per row of
spec/opcode_table.json. A command is an operation or a happening at the device: the fields of a
constructor are what the party outside the device brings to it. -/

namespace Sys2Proof

open Sys2Proof.Machine

/-- The commands, in the order of the table. -/
inductive Instr
  /-- REGISTER_WRITE (R507). A write by any requester to a dictionary entry that has no row of its own is taken or refused under its access class, CFG, width, protection and same-clock rules. `who` is the requester and `uid` the peer of a fabric one; `addr` is the BAR0 byte address. -/
  | registerWrite (who : Fin 8) (uid : BitVec 56) (addr : BitVec 27) (data : List (BitVec 8)) (env : WriteEnv)
  /-- RAP_READ (R520). A RAP READ request returns one slot in its reply. -/
  | rapRead (peer : Peer) (m : RapMsg)
  /-- RAP_WRITE (R520). A RAP WRITE request writes one slot and is accepted when the OK reply is sent. -/
  | rapWrite (peer : Peer) (m : RapMsg) (env : WriteEnv)
  /-- RAP_READ_BLOCK (R520). A RAP READ_BLOCK request returns up to 128 consecutive slots read together. -/
  | rapReadBlock (peer : Peer) (m : RapMsg)
  /-- RAP_WRITE_BLOCK (R520). A RAP WRITE_BLOCK request writes up to 128 consecutive slots and replies with a bitmap of slots written. -/
  | rapWriteBlock (peer : Peer) (m : RapMsg) (envs : List WriteEnv)
  /-- RAP_SUBSCRIBE (R520). A RAP SUBSCRIBE request adds or removes a range of events from the session's subscriptions. -/
  | rapSubscribe (peer : Peer) (m : RapMsg)
  /-- NOTIFY_ACK (R524). A client's NOTIFY reply acknowledges that notify sequence number and frees its outstanding slot. -/
  | notifyAck (peer : Peer) (m : RapMsg)
  /-- NOTIFY_SEND (R524). The device sends buffered event records of a session as a NOTIFY once fewer than 8 are outstanding. -/
  | notifySend (n : Fin 32)
  /-- NOTIFY_RESEND (R524). An outstanding NOTIFY not acknowledged within 1 ms is sent again and counted. -/
  | notifyResend (n : Fin 32) (seq : BitVec 32)
  /-- ARP_REQUEST (R525). An ARP request for MGT_ETH_IP is answered. -/
  | arpRequest (mac : BitVec 48) (ip : BitVec 32) (target : BitVec 32)
  /-- ICMP_ECHO_REQUEST (R525). An ICMP echo request to MGT_ETH_IP is answered while PING_EN = 1. -/
  | icmpEchoRequest (mac : BitVec 48) (ip : BitVec 32) (data : List (BitVec 8))
  /-- ETH_FRAME_DISCARD (R525). A management Ethernet frame that is not acted on is discarded and counted in MGT_ETH_DROP. -/
  | ethFrameDiscard (taken : Bool)
  /-- MGT_ETH_LINK (R525). The management Ethernet link changes state, raising event 20 and counting a loss. -/
  | mgtEthLink (up : Bool)
  /-- PARITY_CHECK (R513). The periodic 1 ms configuration parity check runs over every CFG field and RWD entry. `bad` names the slots whose parity does not match. -/
  | parityCheck (bad : List Nat)
  /-- SAVE (R516). SAVE := 1 starts copying every saved entry into the invalid save set in MRAM. -/
  | saveStart (who : Fin 8)
  /-- SAVE_COMPLETE (R516). A save set is complete and CRC-checked, becomes valid, and MGT_SAVE_DONE is raised. -/
  | saveComplete
  /-- ERASE (R516). ERASE := 1 marks both save sets invalid. -/
  | eraseSets
  /-- LNK_GROUP_ENABLE (R60). ENABLE := 1 on a lane group starts it from OFF toward WAIT_PRESENT or POWER. -/
  | lnkGroupEnable (g : Fin 4)
  /-- LNK_GROUP_DISABLE (R60). ENABLE := 0 sends the lane group to OFF within 1 µs. -/
  | lnkGroupDisable (g : Fin 4)
  /-- PRSNT_EDGE (R64). A change on PRSNTg starts or breaks its debounce interval. -/
  | prsntEdge (g : Fin 4) (low : Bool)
  /-- PRESENT_CHANGE (R64). PRSNTg holds low for 20 ms or high for 100 µs, so PRESENT changes. -/
  | presentChange (c : PresenceChange)
  /-- ID_READY (R65). The auto-ID read ends, MAGIC and CRC are checked and ID_VALID is set. -/
  | idReady (g : Fin 4) (image : List (BitVec 8))
  /-- POWER_DONE (R60). The fixed 20 µs of POWER elapse and the group enters CDR. -/
  | powerDone (g : Fin 4)
  /-- CDR_LOCK (R60). All lanes in use have CDR_LOCK and the group enters ADAPT. -/
  | cdrLock (x : LaneSet)
  /-- CDR_TIMEOUT (R60). CDR does not lock within 100 µs and the group faults with CDR_TIMEOUT or FREQ_OFFSET. -/
  | cdrTimeout (g : Fin 4)
  /-- ADAPT_DONE (R60). All lanes converge and the group enters SYNC, or TEST when a PRBS is selected. `boost` and `dfe` hold the CTLE boost of each logical lane that has converged and the DFE taps of each. -/
  | adaptDone (g : Fin 4) (boost : List (Option Nat)) (dfe : List (List Int))
  /-- ADAPT_TIMEOUT (R60). Adaptation does not converge within 5 ms and the group faults. -/
  | adaptTimeout (g : Fin 4)
  /-- EMB_LOCK (R60). All logical lanes have sync and multiblock lock, so the group enters ALIGN. -/
  | embLock (g : Fin 4) (x : SyncFind)
  /-- SYNC_TIMEOUT (R60). SYNC does not complete within 1 ms and the group faults. -/
  | syncTimeout (g : Fin 4)
  /-- SYSREF_EDGE (R51). A SYSREF rising edge is captured on a SYS tick, defining LEMC boundaries for groups in ALIGN. -/
  | sysrefEdge
  /-- RELEASE (R51). At the release point the lane buffers are released, the group enters RUN and intake time is anchored. `here` and `there` hold the arrivals of the logical lanes of the group and of its partner. -/
  | lnkRelease (g : Fin 4) (here : List (Option Int)) (there : List (Option Int))
  /-- SYSREF_MISSING (R60). No release within 100 ms of ALIGN faults the group. -/
  | sysrefMissing (g : Fin 4)
  /-- RAW_GO (R56). RAW_GO := 1 releases a raw group at the next FRONT edge. -/
  | rawGo (g : Fin 4)
  /-- RAW_SNAP (R56). RAW_SNAP := 1 captures the current word of every lane of the group in one FRONT clock. `words` holds what each logical lane shows where it has brought too few words. -/
  | rawSnap (g : Fin 4) (words : List (BitVec 64))
  /-- ADAPT_RESTART (R62). ADAPT_RESTART := 1 restarts adaptation on all lanes in SYNC, ALIGN or RUN. -/
  | adaptRestart (g : Fin 4)
  /-- FAULT_RELINK (R60). After 1 ms in FAULT the group restarts at CDR when RELINK = 1. -/
  | faultRelink (g : Fin 4)
  /-- MULTIBLOCK (R49). A multiblock or frame arrives on the logical lanes, and a CRC-12 or code error marks its samples invalid. `cells` holds what each logical lane brings, `code` its code errors; `crc` names the lanes with CRC-12 mismatches. -/
  | multiblock (g : Fin 4) (cells : LaneCells) (code : List Nat) (crc : BitVec 12)
  /-- LINK_LOST (R49). Loss of EMB_LOCK, SYNC_LOCK or raw CDR lock on a logical lane faults the group. -/
  | linkLost (x : LockLoss)
  /-- FREQ_OFS_FAULT (R39). A lane's frequency offset leaves ±200 ppm, faulting the group when it is past CDR. -/
  | freqOfsFault (x : OffsetChange)
  /-- EYE_SCAN_START (R40). START := 1 in LNK_EYE_CTL clears the result and begins a scan point, after any monitor point. Lanes from 48 on are F-lanes. -/
  | eyeScanStart (j : Fin 64)
  /-- EYE_DONE (R40). A scan point has compared its bits and writes LNK_EYE_RESULT. -/
  | eyeDone (j : Fin 64) (bad : BitVec 32)
  /-- SPI_GO (R61). GO := 1 in LNK_SPI_CMD starts an SPI transfer to the digitiser. -/
  | spiGo (g : Fin 4)
  /-- SPI_DONE (R61). An SPI transfer ends and raises SPI_DONE. -/
  | spiDone (g : Fin 4) (data : List (BitVec 8))
  /-- I2C_GO (R61). GO := 1 in LNK_I2C_CMD starts an I²C transfer. -/
  | i2cGo (g : Fin 4)
  /-- I2C_DONE (R61). An I²C transfer ends, is refused with NACK, and raises I2C_DONE. -/
  | i2cDone (g : Fin 4) (nack : Bool) (data : List (BitVec 8))
  /-- LANE_WORD (R37). A lane group delivers one word of samples to conditioning with their intake times. -/
  | laneWord (g : Fin 4)
  /-- CONDITIONING_OUTPUT (R76). An output word leaves conditioning 24 FRONT clocks after its newest input and feeds units, spectral engine, feeds and elastic buffer. -/
  | conditioningOutput (c : Fin 4)
  /-- CND_ENABLE (R99). ENABLE := 1 starts channel conditioning, restarts the frame numbering and makes a hand-over. -/
  | cndEnable (c : Fin 4)
  /-- CND_DISABLE (R99). ENABLE := 0 stops channel conditioning and closes an open record with END 5. -/
  | cndDisable (c : Fin 4)
  /-- CND_COMMIT (R95). COMMIT := 1 requests a hand-over at the first sample of the next input word. -/
  | cndCommit (c : Fin 4)
  /-- CND_COMMIT_TIMED (R95). COMMIT_TIMED := 1 requests a hand-over at CND_COMMIT_AT, or at once with COMMIT_LATE if passed. -/
  | cndCommitTimed (c : Fin 4)
  /-- IL_ESTIMATE (R80). A block of 2^24 sample pairs ends and the interleave residual estimates are written. -/
  | ilEstimate (c : Fin 4)
  /-- SPX_ENABLE (R109). ENABLE := 1 on a disabled resolution checks size, hop, channel, pipelines and buffer and starts or refuses it. -/
  | spxEnable (r : Fin 8)
  /-- SPX_DISABLE (R111). ENABLE := 0 lets frames already begun complete and sets DRAINING. -/
  | spxDisable (r : Fin 8)
  /-- SPX_DRAIN_END (R111). The last spectrum leaves, the holding returns to the pool and a pending enable is carried out. -/
  | spxDrainEnd (r : Fin 8)
  /-- SPECTRUM_EMIT (R120). A spectrum's last bin leaves its pipeline L_spx clocks after its newest sample and goes to units, mapper, Canopy, records and feeds. -/
  | spectrumEmit (r : Fin 8)
  /-- SPX_COMMIT (R130). COMMIT := 1 on a resolution requests a hand-over at the next frame. -/
  | spxCommit (r : Fin 8)
  /-- SPX_COMMIT_TIMED (R130). COMMIT_TIMED := 1 requests a hand-over at the first frame at or after SPX_COMMIT_AT. -/
  | spxCommitTimed (r : Fin 8)
  /-- TRIGGER_ISSUE (R153). At the first FRONT edge at or after a decision is due, the channel issues its trigger to the sequencer, outputs and queue. -/
  | triggerIssue (c : Fin 4)
  /-- TRIG_OUT_PULSE_END (R167). WIDTH SYS ticks after the latest start, TRIG_OUTn returns to its idle level. -/
  | trigOutPulseEnd (n : Fin 4)
  /-- FORCE (R167). FORCE := 1 gives one TRIG_OUTn pulse whatever ENABLE holds. -/
  | trigOutForce (n : Fin 4)
  /-- EXT_TRIG_EDGE (R145). An edge on EXT_TRIGp is captured and is a cause for every EXTERNAL unit that selects it. -/
  | extTrigEdge (p : Fin 8) (rising : Bool)
  /-- TIMU_WINDOW_EXPIRY (R146). A PATTERN 2 A stamp receives no B stamp by WMAX, giving a decision at A + WMAX. -/
  | timuWindowExpiry (c : Fin 4) (u : Fin 8)
  /-- FIRE (R161). A Ridgeline FIRE is received, forwarded on the tree and becomes a cause for matching FABRIC units. -/
  | rlFire (p : Fin 8) (k : RidgeMsg)
  /-- PROVISIONAL (R162). A Ridgeline PROVISIONAL is received and held in the provisional store, or refused. -/
  | rlProvisional (p : Fin 8) (k : RidgeMsg)
  /-- CONFIRM (R162). A Ridgeline CONFIRM turns its held PROVISIONAL into a FIRE, or is counted unmatched. -/
  | rlConfirm (p : Fin 8) (k : RidgeMsg)
  /-- CANCEL (R162). A Ridgeline CANCEL discards its held PROVISIONAL, or is counted unmatched. -/
  | rlCancel (p : Fin 8) (k : RidgeMsg)
  /-- PROVISIONAL_EXPIRY (R162). A provisional entry's 64 ns window ends without CONFIRM or CANCEL and it is discarded. -/
  | provisionalExpiry
  /-- TRG_UNIT_ENABLE (R165). ENABLE := 1 on a disabled unit copies its shadows to the active copy and sets STATE UNKNOWN. -/
  | trgUnitEnable (c : Fin 4) (u : Fin 8)
  /-- TRG_UNIT_DISABLE (R165). ENABLE := 0 stops new evaluations while decisions already evaluated are still issued. -/
  | trgUnitDisable (c : Fin 4) (u : Fin 8)
  /-- TRG_ARM (R142). A software write of ARMED arms or disarms a unit from the device time the write is taken. -/
  | trgArm (c : Fin 4) (u : Fin 8) (on : Bool)
  /-- TRG_COMMIT (R164). COMMIT := 1 sets the channel's hand-over time to the moment the write is taken. -/
  | trgCommit (c : Fin 4)
  /-- TRG_COMMIT_TIMED (R164). COMMIT_TIMED := 1 sets the hand-over time to TRG_COMMIT_AT. -/
  | trgCommitTimed (c : Fin 4)
  /-- TRG_HANDOVER (R164). The units' shadows pass to the active copy at T_h, with COMMIT_LATE for causes already evaluated. -/
  | trgHandover (c : Fin 4)
  /-- SEQ_ENABLE (R198). ENABLE := 1 on a stopped sequencer starts it at address 0x000 with empty stack and latch. -/
  | seqEnable (x : SeqStart)
  /-- SEQ_DISABLE (R198). ENABLE := 0 posts a stop taken at the next safe point. -/
  | seqDisable (q : Fin 5)
  /-- FORCE_HALT (R195). FORCE_HALT := 1 halts the sequencer at the end of the current microword. -/
  | forceHalt (q : Fin 5)
  /-- SEQ_COMMIT (R196). COMMIT := 1 requests a microcode bank swap at the next safe point, or at once when halted. -/
  | seqCommit (q : Fin 5)
  /-- FAULT_POST (R193). FAULT_POST := 1 posts the SOFT fault source. -/
  | faultPost (q : Fin 5)
  /-- SEQ_REQ (R193). Writing 1 to a bit of SEQ_REQ posts that request. -/
  | seqReq (q : Fin 5) (mask : Fin 16)
  /-- CONT (R180). A microword with NAC CONT performs its nanoword and continues at pc + 1. `parity` says that the fetch meets a parity mismatch (R195). -/
  | seqCont (q : Fin 5) (parity : Bool)
  /-- JUMP (R180). A microword with NAC JUMP performs its nanoword and continues at IMM. `parity` says that the fetch meets a parity mismatch (R195). -/
  | seqJump (q : Fin 5) (parity : Bool)
  /-- MAP (R180). A microword with NAC MAP continues at IMM OR the sampled group. `parity` says that the fetch meets a parity mismatch (R195). -/
  | seqMap (q : Fin 5) (parity : Bool)
  /-- JNZ (R180). A microword with NAC JNZ branches to IMM when the sampled group is not zero. `parity` says that the fetch meets a parity mismatch (R195). -/
  | seqJnz (q : Fin 5) (parity : Bool)
  /-- JZ (R180). A microword with NAC JZ branches to IMM when the sampled group is zero. `parity` says that the fetch meets a parity mismatch (R195). -/
  | seqJz (q : Fin 5) (parity : Bool)
  /-- SEQ_WAIT (R180). A microword with NAC WAIT repeats until the sampled group is not zero. `parity` says that the fetch meets a parity mismatch (R195). -/
  | seqWait (q : Fin 5) (parity : Bool)
  /-- WAITMAP (R180). A microword with NAC WAITMAP repeats until the group is not zero, then continues at IMM OR g. `parity` says that the fetch meets a parity mismatch (R195). -/
  | seqWaitmap (q : Fin 5) (parity : Bool)
  /-- SEQ_CALL (R180). A microword with NAC CALL pushes pc + 1 and continues at IMM. `parity` says that the fetch meets a parity mismatch (R195). -/
  | seqCall (q : Fin 5) (parity : Bool)
  /-- CALLMAP (R180). A microword with NAC CALLMAP pushes pc + 1 and continues at IMM OR g. `parity` says that the fetch meets a parity mismatch (R195). -/
  | seqCallmap (q : Fin 5) (parity : Bool)
  /-- SEQ_RET (R180). A microword with NAC RET continues at the popped address. `parity` says that the fetch meets a parity mismatch (R195). -/
  | seqRet (q : Fin 5) (parity : Bool)
  /-- RETI (R180). A microword with NAC RETI continues at the popped address and clears INHIBIT. `parity` says that the fetch meets a parity mismatch (R195). -/
  | seqReti (q : Fin 5) (parity : Bool)
  /-- RESTART (R180). A microword with NAC RESTART empties the stack, clears INHIBIT and continues at IMM. `parity` says that the fetch meets a parity mismatch (R195). -/
  | seqRestart (q : Fin 5) (parity : Bool)
  /-- SEQ_HALT (R180). A microword with NAC HALT halts the sequencer with cause HALT. `parity` says that the fetch meets a parity mismatch (R195). -/
  | seqHalt (q : Fin 5) (parity : Bool)
  /-- SEQ_TIMER_EXPIRY (R188). A sequencer timer counts down to expiry and reads expired from that clock. -/
  | seqTimerExpiry (q : Fin 5) (t : Fin 2)
  /-- ACQ_ENABLE (R225). ENABLE := 1 on a record writer starts it taking units into history. -/
  | acqEnable (c : Fin 4)
  /-- ACQ_DISABLE (R211). ENABLE := 0 closes an open capture with END 5 and publishes it before RUNNING falls. -/
  | acqDisable (c : Fin 4)
  /-- RECORD_UNIT_WRITE (R209). The record writer moves an accepted unit from the elastic buffer into the ring as history or record data. -/
  | recordUnitWrite (c : Fin 4)
  /-- ACQ_REL_WRITE (R206). Software moves ACQ_REL forward to return ring space, letting a waiting writer continue. -/
  | acqRelWrite (who : Fin 8) (c : Fin 4) (v : BitVec 64)
  /-- CAN_ENABLE (R235). ENABLE := 1 on Canopy clears the store and checks the update rate. -/
  | canEnable (c : Fin 4)
  /-- CAN_CLEAR (R235). CLEAR := 1 empties the store from the next spectrum and abandons a decay pass. -/
  | canClear (c : Fin 4)
  /-- CAN_HOLD (R241). A write of HOLD stops or resumes counting from the next spectrum. -/
  | canHold (c : Fin 4) (on : Bool)
  /-- CAN_COMMIT (R248). COMMIT := 1 passes decay and region shadows to the active copy at the next spectrum. -/
  | canCommit (c : Fin 4)
  /-- SNAP (R242). SNAP := 1 starts a snapshot of the store window to GDDR7 when no decay pass runs. `who` is the requester. -/
  | canSnap (who : Fin 8) (c : Fin 4)
  /-- CAN_SNAP_DONE (R242). A snapshot's last byte is written and CAN_SNAP_DONE is raised. -/
  | canSnapDone (c : Fin 4)
  /-- DECAY_TIMER (R236). Every CAN_DECAY_PERIOD µs a decay event starts or queues a decay pass. -/
  | decayTimer (c : Fin 4)
  /-- DECAY_PASS_END (R237). A decay pass has read every cell, increments CAN_DECAYS and lets the next pass or snapshot begin. -/
  | decayPassEnd (c : Fin 4)
  /-- SPG_ENABLE (R244). ENABLE := 1 on the spectrogram writer starts grouping column vectors into lines. -/
  | spgEnable (c : Fin 4)
  /-- SPG_LINE_WRITE (R246). A completed line is written to its ring slot, or discarded when GDDR7 access runs out. -/
  | spgLineWrite (c : Fin 4) (stalled : Bool)
  /-- SCN_ENABLE (R254). ENABLE := 1 reads the panel DPCD and trains the eDP link, or refuses with a CAUSE. -/
  | scnEnable
  /-- SCN_DISABLE (R271). ENABLE := 0 stops the link at the end of the current frame. -/
  | scnDisable
  /-- SCN_COMMIT (R264). COMMIT := 1 asks for the plane shadows to pass at the next sampling point. -/
  | scnCommit
  /-- PSR_ENTER (R269). PSR_ENTER := 1 finishes the frame, sends a stored frame and stops frame timing. -/
  | psrEnter
  /-- PSR_EXIT (R269). PSR_EXIT := 1 retrains and restarts frame timing. -/
  | psrExit
  /-- TRACE_RESET (R260). Writing 1 to TRACE_RESET bit t makes the next vector replace trace t's buffer. -/
  | traceReset (mask : BitVec 8)
  /-- SAMPLING_POINT (R264). At the end of the last active line a pending commit hands over, traces are copied and a decay event may be raised. -/
  | samplingPoint
  /-- FRAME_START (R256). A frame starts, SCN_FRAME increments and a pending flip is recorded. -/
  | frameStart (late : BitVec 8)
  /-- LINE_START (R263). A display line starts, and overlay pixels not fetched in time count as an underrun. `late` holds the runs of display columns, as first and count, whose overlay pixels have not been fetched. -/
  | lineStart (n : Fin 4096) (late : List (Nat × Nat))
  /-- EXTENDED_LINE_END (R268). An extended front-porch line of a static frame ends and repeats the sampling point. -/
  | extendedLineEnd
  /-- IRQ_HPD (R255). An IRQ_HPD makes the device read link status and retrain on lost lock. -/
  | irqHpd (lost : Bool)
  /-- HPD_LOST (R255). HPD low for more than 2 ms stops the link and sets HPD_LOST. -/
  | hpdLost
  /-- HPD_RETURN (R255). HPD returns and the device retrains and sends from the next frame start. -/
  | hpdReturn
  /-- VSYNC_IN_EDGE (R266). A VSYNC_IN rising edge is captured and genlock steers the PIX clock. -/
  | vsyncInEdge
  /-- SCN_VSYNC_LOST (R267). No VSYNC_IN edge for three frame periods sets VSYNC_LOST and holds the adjustment. -/
  | scnVsyncLost
  /-- NOP (R284). Parallel instruction NOP does no ALU operation and performs its moves. `ecc` says what memory errors the instruction meets (R276). -/
  | lntNop (k : Fin 32) (ecc : LntEcc)
  /-- ZERO (R284). Parallel instruction ZERO clears Ad. `ecc` says what memory errors the instruction meets (R276). -/
  | lntZero (k : Fin 32) (ecc : LntEcc)
  /-- COPY (R284). Parallel instruction COPY sets Ad from data source S1. `ecc` says what memory errors the instruction meets (R276). -/
  | lntCopy (k : Fin 32) (ecc : LntEcc)
  /-- COPYA (R284). Parallel instruction COPYA sets Ad from accumulator Aj. `ecc` says what memory errors the instruction meets (R276). -/
  | lntCopya (k : Fin 32) (ecc : LntEcc)
  /-- ADD (R284). Parallel instruction ADD adds S1 to Ad. `ecc` says what memory errors the instruction meets (R276). -/
  | lntAdd (k : Fin 32) (ecc : LntEcc)
  /-- SUB (R284). Parallel instruction SUB subtracts S1 from Ad. `ecc` says what memory errors the instruction meets (R276). -/
  | lntSub (k : Fin 32) (ecc : LntEcc)
  /-- ADDA (R284). Parallel instruction ADDA adds Aj to Ad. `ecc` says what memory errors the instruction meets (R276). -/
  | lntAdda (k : Fin 32) (ecc : LntEcc)
  /-- SUBA (R284). Parallel instruction SUBA subtracts Aj from Ad. `ecc` says what memory errors the instruction meets (R276). -/
  | lntSuba (k : Fin 32) (ecc : LntEcc)
  /-- MUL (R284). Parallel instruction MUL sets Ad to S1 × S2. `ecc` says what memory errors the instruction meets (R276). -/
  | lntMul (k : Fin 32) (ecc : LntEcc)
  /-- MULN (R284). Parallel instruction MULN sets Ad to −S1 × S2. `ecc` says what memory errors the instruction meets (R276). -/
  | lntMuln (k : Fin 32) (ecc : LntEcc)
  /-- MADD (R284). Parallel instruction MADD adds S1 × S2 to Ad. `ecc` says what memory errors the instruction meets (R276). -/
  | lntMadd (k : Fin 32) (ecc : LntEcc)
  /-- MSUB (R284). Parallel instruction MSUB subtracts S1 × S2 from Ad. `ecc` says what memory errors the instruction meets (R276). -/
  | lntMsub (k : Fin 32) (ecc : LntEcc)
  /-- DMUL (R284). Parallel instruction DMUL forms two products into Ad and Ad+1. `ecc` says what memory errors the instruction meets (R276). -/
  | lntDmul (k : Fin 32) (ecc : LntEcc)
  /-- DMADD (R284). Parallel instruction DMADD accumulates two products into Ad and Ad+1. `ecc` says what memory errors the instruction meets (R276). -/
  | lntDmadd (k : Fin 32) (ecc : LntEcc)
  /-- DSUMP (R284). Parallel instruction DSUMP adds the sum of two products to Ad. `ecc` says what memory errors the instruction meets (R276). -/
  | lntDsump (k : Fin 32) (ecc : LntEcc)
  /-- DDIFP (R284). Parallel instruction DDIFP adds the difference of two products to Ad. `ecc` says what memory errors the instruction meets (R276). -/
  | lntDdifp (k : Fin 32) (ecc : LntEcc)
  /-- CROSS (R284). Parallel instruction CROSS adds the cross products to Ad. `ecc` says what memory errors the instruction meets (R276). -/
  | lntCross (k : Fin 32) (ecc : LntEcc)
  /-- ABS (R284). Parallel instruction ABS sets Ad to its magnitude. `ecc` says what memory errors the instruction meets (R276). -/
  | lntAbs (k : Fin 32) (ecc : LntEcc)
  /-- NEG (R284). Parallel instruction NEG negates Ad. `ecc` says what memory errors the instruction meets (R276). -/
  | lntNeg (k : Fin 32) (ecc : LntEcc)
  /-- ROUND (R284). Parallel instruction ROUND rounds Ad to LSB 2⁻²³, ties to even. `ecc` says what memory errors the instruction meets (R276). -/
  | lntRound (k : Fin 32) (ecc : LntEcc)
  /-- CLIP (R284). Parallel instruction CLIP limits Ad to −1 to 1 − 2⁻⁴⁷ and sets LIM on change. `ecc` says what memory errors the instruction meets (R276). -/
  | lntClip (k : Fin 32) (ecc : LntEcc)
  /-- SHL (R284). Parallel instruction SHL shifts Ad left by the count. `ecc` says what memory errors the instruction meets (R276). -/
  | lntShl (k : Fin 32) (ecc : LntEcc)
  /-- SHRA (R284). Parallel instruction SHRA shifts Ad right with sign fill. `ecc` says what memory errors the instruction meets (R276). -/
  | lntShra (k : Fin 32) (ecc : LntEcc)
  /-- SHRL (R284). Parallel instruction SHRL shifts Ad right with zero fill. `ecc` says what memory errors the instruction meets (R276). -/
  | lntShrl (k : Fin 32) (ecc : LntEcc)
  /-- AND (R284). Parallel instruction AND ANDs S1 into the upper word of Ad. `ecc` says what memory errors the instruction meets (R276). -/
  | lntAnd (k : Fin 32) (ecc : LntEcc)
  /-- OR (R284). Parallel instruction OR ORs S1 into the upper word of Ad. `ecc` says what memory errors the instruction meets (R276). -/
  | lntOr (k : Fin 32) (ecc : LntEcc)
  /-- XOR (R284). Parallel instruction XOR XORs S1 into the upper word of Ad. `ecc` says what memory errors the instruction meets (R276). -/
  | lntXor (k : Fin 32) (ecc : LntEcc)
  /-- NOT (R284). Parallel instruction NOT inverts the upper word of Ad. `ecc` says what memory errors the instruction meets (R276). -/
  | lntNot (k : Fin 32) (ecc : LntEcc)
  /-- CMP (R284). Parallel instruction CMP sets flags from Ad − S1. `ecc` says what memory errors the instruction meets (R276). -/
  | lntCmp (k : Fin 32) (ecc : LntEcc)
  /-- CMPA (R284). Parallel instruction CMPA sets flags from Ad − Aj. `ecc` says what memory errors the instruction meets (R276). -/
  | lntCmpa (k : Fin 32) (ecc : LntEcc)
  /-- MAX (R284). Parallel instruction MAX sets Ad to the larger of Ad and Aj. `ecc` says what memory errors the instruction meets (R276). -/
  | lntMax (k : Fin 32) (ecc : LntEcc)
  /-- MIN (R284). Parallel instruction MIN sets Ad to the smaller of Ad and Aj. `ecc` says what memory errors the instruction meets (R276). -/
  | lntMin (k : Fin 32) (ecc : LntEcc)
  /-- NSIGN (R284). Parallel instruction NSIGN sets Ad to the count of leading sign bits. `ecc` says what memory errors the instruction meets (R276). -/
  | lntNsign (k : Fin 32) (ecc : LntEcc)
  /-- GOTO (R289). Control instruction GOTO branches on its condition after two delay slots. `ecc` says what memory errors the instruction meets (R276). -/
  | lntGoto (k : Fin 32) (ecc : LntEcc)
  /-- LNT_CALL (R289). Control instruction CALL pushes the return address and branches after two delay slots. `ecc` says what memory errors the instruction meets (R276). -/
  | lntCall (k : Fin 32) (ecc : LntEcc)
  /-- LNT_RET (R289). Control instruction RET returns to the popped address after two delay slots. `ecc` says what memory errors the instruction meets (R276). -/
  | lntRet (k : Fin 32) (ecc : LntEcc)
  /-- IRET (R289). Control instruction IRET returns from an interrupt and restores SR. `ecc` says what memory errors the instruction meets (R276). -/
  | lntIret (k : Fin 32) (ecc : LntEcc)
  /-- LEAVE (R291). Control instruction LEAVE pops the innermost loop at once. `ecc` says what memory errors the instruction meets (R276). -/
  | lntLeave (k : Fin 32) (ecc : LntEcc)
  /-- LOOP (R291). Control instruction LOOP pushes the enclosing loop and runs its body COUNT times. `ecc` says what memory errors the instruction meets (R276). -/
  | lntLoop (k : Fin 32) (ecc : LntEcc)
  /-- REPEAT (R292). Control instruction REPEAT executes the next parallel instruction COUNT times. `ecc` says what memory errors the instruction meets (R276). -/
  | lntRepeat (k : Fin 32) (ecc : LntEcc)
  /-- LIMM (R285). Control instruction LIMM loads an immediate into a control code. `ecc` says what memory errors the instruction meets (R276). -/
  | lntLimm (k : Fin 32) (ecc : LntEcc)
  /-- RMOV (R285). Control instruction RMOV moves one register to another by control code. `ecc` says what memory errors the instruction meets (R276). -/
  | lntRmov (k : Fin 32) (ecc : LntEcc)
  /-- MMOV (R285). Control instruction MMOV loads or stores a register from or to an absolute X or Y address. `ecc` says what memory errors the instruction meets (R276). -/
  | lntMmov (k : Fin 32) (ecc : LntEcc)
  /-- LNT_WAIT (R295). Control instruction WAIT suspends the core until an enabled interrupt is pending. `ecc` says what memory errors the instruction meets (R276). -/
  | lntWait (k : Fin 32) (ecc : LntEcc)
  /-- DONE (R299). Control instruction DONE ends the task and enters COMMIT_WAIT. `ecc` says what memory errors the instruction meets (R276). -/
  | lntDone (k : Fin 32) (ecc : LntEcc)
  /-- ENQ (R298). Control instruction ENQ stages an item and reserves a queue entry, or sets QF. `ecc` says what memory errors the instruction meets (R276). -/
  | lntEnq (k : Fin 32) (ecc : LntEcc)
  /-- XFER (R303). Control instruction XFER starts a transfer from its descriptor, or sets XF when four are outstanding. `ecc` says what memory errors the instruction meets (R276). -/
  | lntXfer (k : Fin 32) (ecc : LntEcc)
  /-- LNT_EVT (R304). Control instruction EVT raises LNT_EVT with a 24-bit code. `ecc` says what memory errors the instruction meets (R276). -/
  | lntEvt (k : Fin 32) (ecc : LntEcc)
  /-- LNT_SYNC (R304). Control instruction SYNC waits until no XFER is outstanding. `ecc` says what memory errors the instruction meets (R276). -/
  | lntSync (k : Fin 32) (ecc : LntEcc)
  /-- LNT_SIGNAL (R304). Control instruction SIGNAL posts vector 3 in the named core. `ecc` says what memory errors the instruction meets (R276). -/
  | lntSignal (k : Fin 32) (ecc : LntEcc)
  /-- INTERRUPT_ACCEPT (R294). A pending enabled interrupt is accepted at an allowed boundary, pushing the address and SR. -/
  | lntInterruptAccept (k : Fin 32)
  /-- TMR_EXPIRY (R293). TMR reaches 0 from 1 and posts interrupt TIMER. -/
  | lntTmrExpiry (k : Fin 32)
  /-- XFER_COMPLETE (R303). An XFER completes, posts interrupt XFER and may end a SYNC. -/
  | lntXferComplete (k : Fin 32) (x : Fin 4) (o : XferEnd) (n : Nat)
  /-- HOST_IRQ (R310). HOST_IRQ := 1 posts vector 4 in the core. -/
  | lntHostIrq (k : Fin 32)
  /-- LNT_ENABLE (R307). ENABLE := 1 on an OFF core clears its registers and makes it IDLE or starts it. -/
  | lntEnable (k : Fin 32)
  /-- LNT_DISABLE (R307). ENABLE := 0 sends a core OFF after its task commits or at an allowed boundary. -/
  | lntDisable (k : Fin 32)
  /-- LNT_FORCE_HALT (R301). FORCE_HALT := 1 halts the core at the end of the current instruction. -/
  | lntForceHalt (k : Fin 32)
  /-- LNT_POOL_ENABLE (R296). A write of a pool's ENABLE starts or stops it taking items from TASKQ. -/
  | lntPoolEnable (p : Fin 8) (on : Bool)
  /-- TASK_DISPATCH (R296). A pool gives the next queue item, or a held retry, to its lowest-numbered idle member with a TSEQ. -/
  | taskDispatch (p : Fin 8)
  /-- INBOX_DONE (R297). The inbox copy ends and the core starts the task at P 0x0000. -/
  | inboxDone (k : Fin 32)
  /-- TASK_COMMIT (R299). Once all lower TSEQs have committed, the task's staged items enter their queues and the core becomes IDLE. -/
  | taskCommit (k : Fin 32)
  /-- LNT_WATCHDOG (R301). The task watchdog expires and halts the core for a fault. -/
  | lntWatchdog (k : Fin 32)
  /-- TI_EDGE (R318). A comparator output change on a TI input is stamped and passed to units, pairing, gates and FIFOs, or merged. `b` is 0 for comparator A and 1 for B; `sub` is the place in the present SYS tick; `c`, `c1` and `c2` are the counts of R317. -/
  | tiEdge (inp : Fin 64) (b : Fin 2) (up : Bool) (sub : Fin 4096) (c : Int) (c1 : Int) (c2 : Int)
  /-- INTERVAL_PAIR (R329). Once every start up to t_s + 1 FRAC has arrived, the stop pairs with the latest eligible start and an item is written. -/
  | intervalPair (inp : Fin 64) (e : Fin 2)
  /-- PAIR_WINDOW_EXPIRY (R328). A start leaves PAIR_WIN unpaired and is counted as unpaired. -/
  | pairWindowExpiry (inp : Fin 64) (e : Fin 2)
  /-- NOEDGE (R330). No stamped edge follows a gate's opening edge within 2^40 FRAC, writing a NOEDGE note. -/
  | noedge (inp : Fin 64) (e : Fin 2)
  /-- STREAM_WRITE (R334). The stream writer moves one item from a FIFO to its ring or queue in rotation. -/
  | streamWrite (inp : Fin 64) (e : Fin 2)
  /-- QUEUE_BATCH_TIMEOUT (R335). A queue item is sent early 1 µs after its first TIMU item. -/
  | queueBatchTimeout (inp : Fin 64) (e : Fin 2)
  /-- TIM_ENABLE (R339). A write of an input's ENABLE starts stamping or begins draining its FIFOs. -/
  | timEnable (inp : Fin 64) (on : Bool)
  /-- TIM_S_REL_WRITE (R335). Software moves TIM_S_REL forward to return stamp ring space. -/
  | timSRelWrite (inp : Fin 64) (e : Fin 2) (v : BitVec 64)
  /-- INL_START (R320). INL_START := 1 starts a nonlinearity table run on the input. -/
  | inlStart (inp : Fin 64)
  /-- INJECTED_EDGE (R320). An on-die injected edge is converted and added to its interpolator's histogram. -/
  | injectedEdge (inp : Fin 64) (c : Int) (c1 : Int) (c2 : Int)
  /-- CMP_THRESHOLD_WRITE (R315). A write to a threshold or hysteresis entry restarts that comparator with SETTLING set. -/
  | cmpThresholdWrite (inp : Fin 64) (hyst : Bool) (v : BitVec 32)
  /-- SETTLING_END (R315). 50 ns after a threshold write, SETTLING clears and the UNDET rule applies. -/
  | settlingEnd (inp : Fin 64) (a : Fin 3) (b : Fin 3)
  /-- CCS_ENABLE (R344). A write of the tracker's ENABLE starts it in SEEK or sends it to OFF. -/
  | ccsEnable (on : Bool)
  /-- REORIGIN (R344). REORIGIN := 1 in TRACK or HOLDOVER sends the tracker to WAIT_ORIGIN. -/
  | reorigin
  /-- CYC_EDGE (R346). A CYC rising edge is timed and updates the loop, lock, origin, VEC0 and holdover state. -/
  | cycEdge (sub : Fin 4096) (vec0 : Bool)
  /-- CYC_MISSING (R347). No CYC edge within 4 predicted periods is a mark fault leading to HOLDOVER or SEEK. -/
  | cycMissing
  /-- HOLD_EXPIRED (R348). CCS_HOLD_MAX cycles pass in HOLDOVER and the tracker enters SEEK. -/
  | holdExpired
  /-- WP_ENABLE (R357). A write of the scheduler's ENABLE starts or stops waypoint firing. -/
  | wpEnable (on : Bool)
  /-- WP_TAIL_WRITE (R350). Software advances CCS_WP_TAIL to make written entries pending. -/
  | wpTailWrite (v : BitVec 32)
  /-- WP_CANCEL (R350). CANCEL := 1 retires every pending entry unexecuted and sets HEAD := TAIL. -/
  | wpCancel
  /-- WP_NONE (R353). A NONE waypoint reaches its target and retires. -/
  | wpNone
  /-- WP_ARM (R353). An ARM waypoint fires at its target, disarming then arming condition units. -/
  | wpArm
  /-- WP_TRIGGER (R353). A TRIGGER waypoint fires and named WAYPOINT units decide. -/
  | wpTrigger
  /-- WP_SIGNAL (R353). A SIGNAL waypoint fires and sets or clears a sequencer's signal bits. -/
  | wpSignal
  /-- WP_TAG (R353). A TAG waypoint fires and tags the open capture, or is refused. -/
  | wpTag
  /-- WP_CONVERT (R353). A CONVERT waypoint fires and triggers a SAR group or integrating converter. -/
  | wpConvert
  /-- WP_TASK (R354). A TASK waypoint fires and enqueues a 32-byte item. -/
  | wpTask
  /-- WP_FABRIC (R355). A FABRIC waypoint retires in order at its target. -/
  | wpFabric
  /-- FABRIC_LOOKAHEAD_SEND (R355). A FABRIC entry within look-ahead sends its FIRE FAB_ADV ticks before its target. -/
  | fabricLookaheadSend (j : Fin 64)
  /-- SUP_ENABLE (R365). A write of a group's or integrating converter's ENABLE starts it, in continuous mode at once, or stops it. Units 0 to 15 are the SAR groups, 16 to 19 the integrating converters. -/
  | supEnable (u : Fin 20) (on : Bool)
  /-- SUP_TRIGGER (R362). TRIGGER := 1 triggers a group or integrating converter, or sets PENDING or overruns. -/
  | supTrigger (u : Fin 20)
  /-- SUP_TIMER (R362). The SRC = 1 timer expires every TIMER ticks and triggers the group. -/
  | supTimer (u : Fin 20)
  /-- SUP_GO (R361). T_go is reached and the group's sequence or converter's window begins. -/
  | supGo (u : Fin 20)
  /-- SAR_STEP (R361). A sequence step samples all its entries at its scheduled microsecond. `volts` are the voltages at supply inputs, in microvolts. -/
  | sarStep (g : Fin 16) (volts : List (Fin 64 × Int))
  /-- SAR_CONVERSION_END (R366). A step's conversions end, results are written, and at the last step the sequence ends and a pending trigger starts. -/
  | sarConversionEnd (g : Fin 16)
  /-- LINE_SYNC_EDGE (R367). A LINE_SYNC rising edge starts or ends a LINE window. -/
  | lineSyncEdge
  /-- IC_WINDOW_END (R368). An integrating window ends and its code, times and CC64 are written. -/
  | icWindowEnd (x : Fin 4) (m : WindowMean)
  /-- IC_NOSYNC (R367). No LINE_SYNC edge within 100 ms abandons the window with cause NOSYNC. -/
  | icNosync (x : Fin 4)
  /-- MON_TICK (R369). Every CMP_MON_TICK µs each enabled monitor is powered for its settling and watch. -/
  | monTick
  /-- MON_SAMPLE (R369). A monitor's watch ends and its sample result updates STATE and VIOL bits. `settle` and `watch` are the levels of supply input `si`, in microvolts. -/
  | monSample (w : Fin 16) (si : Fin 64) (settle : List Int) (watch : List Int)
  /-- MON_PERIOD_START (R371). A monitor period begins, copying VIOL bits to LAST and clearing them. -/
  | monPeriodStart
  /-- MON_THR_WRITE (R370). A write of CMP_MON_THR returns the monitor's STATE to UNDET. -/
  | monThrWrite (w : Fin 16) (v : BitVec 32)
  /-- MEM_ENABLE (R383). MEM_CTL.ENABLE := 1 starts GDDR7 lock, initialisation and training. -/
  | memEnable
  /-- MEM_DISABLE (R403). ENABLE := 0 places the devices in self-refresh after visits in progress. -/
  | memDisable
  /-- MEM_READY (R383). Training ends and the controller enters READY, or FAULT when it fails. `rd` and `wr` hold, for each of the 64 byte lanes, 64 maps of 128 passing delay steps; `bad` names devices with verification errors, `over` the step that overran. -/
  | memReady (rd : List (List Nat)) (wr : List (List Nat)) (bad : BitVec 16) (late : Fin 8)
  /-- RETRAIN (R387). RETRAIN := 1 reruns training steps 3–6 with contents kept. -/
  | retrain
  /-- MEM_RATE_REQ (R388). GO := 1 in MEM_RATE_REQ requests a data-rate change, held during a sweep. -/
  | memRateReq (sel : Fin 32)
  /-- MEM_RATE_DONE (R388). The rate change completes, the new rate is written and MEM_RATE_DONE is raised. `rd` and `wr` hold, for each of the 64 byte lanes, 64 maps of 128 passing delay steps; `bad` names devices with verification errors, `over` the step that overran. -/
  | memRateDone (rd : List (List Nat)) (wr : List (List Nat)) (bad : BitVec 16) (late : Fin 8)
  /-- BGT_PROBE (R386). A period or temperature change starts a background probe of a device's eyes. -/
  | bgtProbe (d : Fin 16) (temp : Int) (found : ProbeFind)
  /-- REFRESH (R393). A bank's per-bank refresh falls due and is issued, postponed or forced at its limit. -/
  | refresh (d : Fin 16) (b : Fin 16) (x : RefreshFind)
  /-- BANK_VISIT (R390). The scheduler starts a bank visit chosen by class priority and rotation. -/
  | bankVisit (d : Fin 16) (segs : List MemSeg) (retries : Fin 4) (fails : Bool) (ecc : Fin 3) (left : List (BitVec 8))
  /-- PATROL_READ (R395). A background patrol read covers GDDR7 and writes back corrected data. -/
  | patrolRead (x : PatrolFind)
  /-- SRAM_SCRUB (R399). The SRAM patrol reads partition 4 once per SRM_SCRUB period. Each pair is a partition of R397 with a count of granules, or with a byte offset. -/
  | sramScrub (corrected : List (Fin 5 × Nat)) (double : List (Fin 5 × Nat))
  /-- QUEUE_ENABLE (R406). QDM_Q_CMD OP ENABLE reads the queue context and starts the queue. -/
  | queueEnable (q : Fin 65536)
  /-- QUEUE_DISABLE (R406). QDM_Q_CMD OP DISABLE stops the queue and writes its live state back. -/
  | queueDisable (q : Fin 65536)
  /-- QUEUE_SYNC (R406). QDM_Q_CMD OP SYNC writes the live state back without stopping. -/
  | queueSync (q : Fin 65536)
  /-- TAIL_DOORBELL (R410). A TAIL doorbell counts software-filled entries up to the new TAIL. -/
  | tailDoorbell (q : Fin 65536) (v : BitVec 32)
  /-- HEAD_DOORBELL (R412). A HEAD doorbell returns consumed entries and may send a notify. -/
  | headDoorbell (q : Fin 65536) (v : BitVec 32)
  /-- DMA_START_DOORBELL (R421). A start doorbell hands the shadow chain over on an IDLE channel, or sets SHD_PENDING. -/
  | dmaStartDoorbell (ch : Fin 128)
  /-- DMA_DESCRIPTOR_COMPLETE (R419). All writes of a descriptor complete, its WB is written and at the chain end QDM_DONE and a hand-over follow. -/
  | dmaDescriptorComplete (ch : Fin 128) (data : List (BitVec 8))
  /-- DMA_TRANSFER_ERROR (R420). A transfer error makes the descriptor bad, its WB is written with CAUSE and the channel goes on. -/
  | dmaTransferError (ch : Fin 128) (cause : Fin 8) (n : Nat) (data : List (BitVec 8))
  /-- DMA_ENABLE (R428). ENABLE := 1 makes a DMA channel IDLE. -/
  | dmaEnable (ch : Fin 128)
  /-- DMA_DISABLE (R422). ENABLE := 0 pauses the channel, discards its chains and enters OFF. -/
  | dmaDisable (ch : Fin 128)
  /-- DMA_PAUSE (R422). PAUSE := 1 stops new reads and the channel drains. -/
  | dmaPause (ch : Fin 128)
  /-- DMA_DRAIN_END (R422). Reads in flight complete and the channel is PAUSED with exact CUR and OFFSET. -/
  | dmaDrainEnd (ch : Fin 128) (n : Nat) (data : List (BitVec 8))
  /-- DMA_RESUME (R422). PAUSE := 0 re-reads descriptor CUR and continues at OFFSET. -/
  | dmaResume (ch : Fin 128)
  /-- PCI_LINK_UP (R440). A port's link comes up and a root port enumerates its hierarchy. -/
  | pciLinkUp (n : Fin 4) (rate : Fin 6) (width : Fin 4) (flit : Bool)
  /-- PCI_LINK_DOWN (R440). A port's link goes down, marking functions not present and members missing. -/
  | pciLinkDown (n : Fin 4)
  /-- PCI_ENUM (R438). An enumeration of a root port's hierarchy ends and functions are listed. -/
  | pciEnum (n : Fin 4) (devs : List PciDev)
  /-- SLOT_CHANGE (R440). A switch downstream port reports a presence or link-state change and its subtree is enumerated. -/
  | slotChange (n : Fin 4) (bus : Fin 256) (devs : List PciDev)
  /-- PERST (R543). PERST# deasserts on an endpoint port, enabling it once PROT_LOCK is set. -/
  | perst (n : Fin 4)
  /-- CONFIG_REQUEST (R432). A configuration request to an endpoint port is served, or answered with retry status before enabling. -/
  | configRequest (n : Fin 4) (tag : Fin 16384) (write : Bool) (reg : Fin 1024) (v : BitVec 32)
  /-- FLR (R437). A Function Level Reset begins, stopping the endpoint's requests. -/
  | flrStart (n : Fin 4)
  /-- PCI_FLR (R437). An FLR completes and resets configuration space and MSI-X state. -/
  | pciFlr (n : Fin 4)
  /-- BAR2_ACCESS (R435). A BAR2 read or write is served in the bulk class, or refused and counted. -/
  | bar2Access (n : Fin 4) (tag : Fin 16384) (write : Bool) (off : Nat) (len : Nat) (data : List (BitVec 8))
  /-- CFG_ACC_GO (R441). GO := 1 in PCI_RP_CFG_ACC issues a configuration read or write below a root port. -/
  | cfgAccGo (n : Fin 4) (v : BitVec 64)
  /-- CFG_ACC_DONE (R441). The configuration access completes, setting DONE and UR. -/
  | cfgAccDone (n : Fin 4) (ur : Bool) (data : BitVec 32)
  /-- STREAM_APERTURE_READ (R447). A drive reads a strip through the stream aperture and the engine forms it from ring bytes and parity. -/
  | streamApertureRead (n : Fin 4) (tag : Fin 16384) (x : Fin 4) (st : Nat) (place : Fin 16) (strip : Fin 8) (off : Nat) (len : Nat)
  /-- DOWNSTREAM_REQUEST (R439). A request from below a root port is mapped to device memory, the notice address or Unsupported Request. -/
  | downstreamRequest (n : Fin 4) (tag : Fin 16384) (write : Bool) (addr : BitVec 64) (len : Nat) (data : List (BitVec 8))
  /-- NVME_COMPLETION (R443). An NVMe completion arrives, reissuing a failed Write once and advancing durability. -/
  | nvmeCompletion (port : Fin 4) (fn : Fin 32) (cookie : Nat) (ok : Bool) (data : NvmeData)
  /-- NVME_TIMEOUT (R443). A command exceeds DRV_CMD_TIMEOUT and the controller is reset or the member fails. -/
  | nvmeTimeout (port : Fin 4) (fn : Fin 32) (cookie : Nat)
  /-- SMART_POLL (R442). Every 60 s the engine reads each member's SMART log page. -/
  | smartPoll
  /-- BLOCK_FLUSH_TIMEOUT (R446). FLUSH_US after the oldest untaken byte, a partial block is formed. -/
  | blockFlushTimeout (x : Fin 4) (c : Fin 4)
  /-- DRIVE_FLUSH_TIMER (R449). Every DFLUSH_US µs a Flush is submitted to each member with Writes outstanding. -/
  | driveFlushTimer (x : Fin 4)
  /-- DRV_SET_ENABLE (R444). Enabling a stripe set writes or checks labels and starts streaming, or refuses. -/
  | drvSetEnable (x : Fin 4) (on : Bool) (init : Bool)
  /-- DRV_STOP (R451). STOP := 1 forms final blocks, pads the stripe, waits for durability and writes labels. -/
  | drvStop (x : Fin 4)
  /-- FAB_ENABLE (R468). A write of FAB_CTL.ENABLE starts the device ISOLATED or takes it OFF. -/
  | fabEnable (on : Bool)
  /-- FAB_PORT_ENABLE (R461). A write of a fabric port's ENABLE starts or stops the port. -/
  | fabPortEnable (p : Fin 8) (on : Bool)
  /-- SIGNAL_DETECT (R461). A signal is detected on both lanes of an enabled port, which enters TRAIN. -/
  | signalDetect (p : Fin 8)
  /-- PORT_TRAIN_DONE (R461). Both lanes lock and equalisers agree, so the port enters ALIGN. -/
  | portTrainDone (p : Fin 8) (boost : List Nat) (dfe : List (List Int))
  /-- PORT_TRAIN_TIMEOUT (R461). Training exceeds 20 ms and retrains at a lower rate or faults. -/
  | portTrainTimeout (p : Fin 8)
  /-- PORT_ALIGN_DONE (R461). Markers lock and lanes deskew, so the port enters INIT. -/
  | portAlignDone (p : Fin 8)
  /-- PORT_ALIGN_TIMEOUT (R461). ALIGN exceeds 1 ms and the port faults. -/
  | portAlignTimeout (p : Fin 8)
  /-- PORT_INIT_DONE (R461). Parameters and credits are exchanged and the port enters UP. -/
  | portInitDone (p : Fin 8)
  /-- PORT_INIT_TIMEOUT (R461). INIT exceeds 100 µs and the port faults. -/
  | portInitTimeout (p : Fin 8)
  /-- PORT_FAULT_END (R461). After 10 ms in FAULT the port returns to DOWN. -/
  | portFaultEnd (p : Fin 8)
  /-- PORT_LINK_LOST (R461). A port in UP loses its link, routes switch to ALT and unacknowledged Ridgeline frames are resent. -/
  | portLinkLost (p : Fin 8)
  /-- FRAME_RECEIVE (R462). A fabric frame arrives, is checked, acknowledged or refused, and its packets are passed up in order. -/
  | frameReceive (p : Fin 8) (sub : Fin 4096) (f : FabFrame)
  /-- REPLAY_STALL (R463). A replay buffer full for 1 ms faults the port with CAUSE STALL. -/
  | replayStall (p : Fin 8)
  /-- HELLO_SEND (R466). Every 10 µs each port in UP sends a HELLO. -/
  | helloSend (p : Fin 8)
  /-- HELLO (R467). A received HELLO updates the root key, parent port and child ports. -/
  | helloPacket (p : Fin 8) (k : FabPkt)
  /-- ELECT_STABLE (R468). Root key and parent port stay unchanged for 100 µs and the device enters ADDR. -/
  | electStable
  /-- ADDR_REQ (R469). The root receives an ADDR_REQ and grants an address or stays silent when none is free. -/
  | addrReq (p : Fin 8) (k : FabPkt)
  /-- ADDR_GRANT (R469). A device receives its address and becomes JOINED. -/
  | addrGrant (p : Fin 8) (k : FabPkt)
  /-- ADDR_REQ_RESEND (R469). An unanswered ADDR_REQ is sent again after 1 ms. -/
  | addrReqResend
  /-- ADDR_HOLD_EXPIRY (R469). A departed device's address is released after 10 s. -/
  | addrHoldExpiry
  /-- LSR (R470). A received newer link-state record is stored and flooded onward. -/
  | lsrPacket (p : Fin 8) (k : FabPkt)
  /-- LSR_FLOOD_TIMER (R470). Every 100 ms a JOINED device floods its link-state record. -/
  | lsrFloodTimer
  /-- MEMBER_AGE_OUT (R470). A member whose latest LSR is older than 300 ms is removed and FAB_MEMBER raised. -/
  | memberAgeOut (a : Fin 1024)
  /-- FAB_ROUTE (R472). The device recomputes its routing table within 20 µs of an LSR change. -/
  | fabRoute
  /-- E2E_ACK (R473). An end-to-end acknowledgement frees stored packets up to its sequence number. -/
  | e2eAck (p : Fin 8) (k : FabPkt)
  /-- E2E_ACK_SEND (R473). A destination with no packet to carry it sends an E2E_ACK packet within 2 µs. -/
  | e2eAckSend (uid : BitVec 56) (vc : Fin 3)
  /-- E2E_RTO (R473). No acknowledgement within FAB_E2E_RTO resends from the oldest unacknowledged packet. -/
  | e2eRto (uid : BitVec 56) (vc : Fin 3)
  /-- FAB_UNREACH (R474). A packet whose destination has had no route for FAB_UNREACH_MS is removed and reported. -/
  | fabUnreach (uid : BitVec 56) (vc : Fin 3)
  /-- TIME_SEND (R475). Every 4,096 SYS ticks a port with TIME_EN sends a TIME packet. -/
  | timeSend (p : Fin 8) (sub : Fin 4096)
  /-- TIME (R475). A received TIME packet updates delay and θ and the time state, and may step when quiet. -/
  | timePacket (p : Fin 8) (k : FabPkt) (sub : Fin 4096)
  /-- FAB_STEP (R478). STEP := 1 moves device time by −θ at one SYS tick and realigns lane groups. -/
  | fabStep
  /-- FAB_HOLD_MAX (R476). HOLD_MAX passes in time HOLDOVER and the time state becomes FREE. -/
  | fabHoldMax
  /-- RL_HOLD_EXPIRY (R482). FAB_RL_HOLD µs pass before a Ridgeline gap fills, so the gap is skipped and counted. -/
  | rlHoldExpiry (src : Fin 1024)
  /-- REF_LOST (R489). The reference monitor finds REF_IN lost and locked loops enter HOLDOVER. -/
  | refLost
  /-- REF_BACK (R496). REF_IN is good for 1 ms and loops pull in or relock. -/
  | refBack (far : BitVec 6)
  /-- CLK_LOCK (R491). An ADPLL meets the phase condition and leaves BYPASS for LOCKED at the epoch boundary. -/
  | clkLock (k : Fin 6) (word : BitVec 24)
  /-- CLK_UNLOCK (R494). An ADPLL loses lock and switches to its bypass clock, marking data degraded. -/
  | clkUnlock (k : Fin 6)
  /-- SLEW_DONE (R492). A slewed ADPLL reaches its target and returns to LOCKED. -/
  | slewDone (k : Fin 6)
  /-- CLK_OFFSET_WRITE (R492). A write of CLK_OFFSET sets a new SYS steering target that is slewed. -/
  | clkOffsetWrite (who : Fin 8) (v : BitVec 24) (stands : Int)
  /-- BAND_CLEAR (R497). BAND_CLEAR := 1 clears an ADPLL's band memory. -/
  | bandClear (k : Fin 6)
  /-- POR (R549). Power-up or POR_N low causes a cold reset. -/
  | por
  /-- POR_RELEASE (R542). POR_N deasserts and the boot ROM begins reading the slot headers. -/
  | porRelease
  /-- SLOT_READ_DONE (R537). A boot slot has been read and verified, starting its script or trying the other slot or entering FAIL. -/
  | slotReadDone (r : SlotRead)
  /-- SCRIPT_WRITE (R539). A boot-script WRITE record writes its slot as requester 6. -/
  | scriptWrite (env : WriteEnv)
  /-- SCRIPT_WAIT (R539). A boot-script WAIT record polls its slot until the condition holds. -/
  | scriptWait
  /-- SCRIPT_WAIT_TIMEOUT (R539). A WAIT's timeout expires and the script stops with cause WAIT. -/
  | scriptWaitTimeout
  /-- SCRIPT_DELAY (R539). A boot-script DELAY record begins waiting PARAM µs. -/
  | scriptDelay
  /-- SCRIPT_DELAY_END (R539). The DELAY time passes and the script continues. -/
  | scriptDelayEnd
  /-- SAVESET (R539). A SAVESET record applies the valid save set. -/
  | scriptSaveset
  /-- WARM (R539). A WARM record marks the warm entry point. -/
  | scriptWarm
  /-- SCRIPT_COPY (R539). A COPY record copies following script bytes to a device address. -/
  | scriptCopy
  /-- SCRIPT_END (R540). An END record ends the script and sets PROT_LOCK if not yet set. -/
  | scriptEnd
  /-- WRST (R549). WRST_N low for at least 1 µs starts a warm reset. -/
  | wrst
  /-- WARM_RESET (R550). WARM := 1 starts a warm reset with quiescing. -/
  | warmReset
  /-- COLD_RESET (R549). COLD := 1 causes a cold reset. -/
  | coldReset
  /-- QUIESCE_END (R550). Quiescing completes or reaches QUIESCE_MAX, and blocks are held in reset. `left` names the steps of R550 that are unfinished, step 1 in bit 0. -/
  | quiesceEnd (left : BitVec 6)
  /-- RESET_RELEASE (R550). After 10 µs in reset, blocks are released and the ROM re-verifies the slot and runs from WARM. -/
  | resetRelease
  /-- REPLAY (R552). REPLAY := 1 restores the journalled state after a warm reset. -/
  | replayStart (who : Fin 8)
  /-- MGT_REPLAY_DONE (R552). Replay completes, REPLAYED is set and incomplete quiesce is reported. -/
  | mgtReplayDone
  /-- KICK (R553). KICK := 1 restarts the watchdog count. -/
  | wdogKick
  /-- WDOG_EXPIRY (R553). WDOG_MS pass without a kick and the device resets warm or cold. -/
  | wdogExpiry
  /-- MGT_BLK_RST (R554). GO := 1 in MGT_BLK_RST resets the entries of one index range, or is ignored. -/
  | mgtBlkRst (who : Fin 8) (range : Fin 256)
  /-- MGT_BLK_RST_DONE (R554). A block reset completes and raises MGT_BLK_RST_DONE. -/
  | mgtBlkRstDone
  /-- PWR_GO (R557). GO := 1 in PWR_CTL makes the device descend or climb toward TARGET. -/
  | pwrGo (who : Fin 8)
  /-- POWER_STEP_END (R558). An entry or exit step of the power ladder ends and the next begins or the state is reached. `levels` holds, where comparators restart, the place of each input in its hysteresis band, A then B. -/
  | powerStepEnd (levels : List (Fin 3))
  /-- PS_PG_ASSERT (R559). A power-good input asserts and the climb proceeds. -/
  | psPgAssert (k : Fin 3)
  /-- PWR_FAULT (R559). A power-good input times out or falls, so every PS_EN deasserts and the device resets cold. -/
  | pwrFault (k : Fin 3) (falls : Bool)
  /-- WAKE_N (R560). WAKE_N low for at least 1 µs wakes the device. -/
  | wakeN
  /-- WAKE_AT (R560). Device time reaches PWR_WAKE_AT and wakes the device. -/
  | wakeAt
  /-- ETH_WAKE (R560). A RAP datagram to port 47390 wakes the device from a low state. -/
  | ethWake
  /-- PMBUS_POLL (R562). Every POLL_MS ms the PMBus master reads telemetry and status of each rail. `rails` holds what each rail answers: mV, 10 mA, 0.1 degrees and STATUS_WORD. -/
  | pmbusPoll (rails : List (Option (Nat × Nat × Int × Nat)))
  /-- PMB_ALERT (R599). PMB_ALERT_N low makes the master read STATUS_WORD of every present rail. -/
  | pmbAlert (status : List (Option (BitVec 16)))
  /-- SENSOR_READ (R567). Every 1 ms the supervisor reads the temperature sensors, marks calibrations due and starts free runs. `temps` holds the 32 readings in 0.1 degrees. -/
  | sensorRead (temps : List Int)
  /-- CAL_RUN (R567). RUN := 1 makes one calibration due. -/
  | calRun (id : Fin 86)
  /-- CAL_RUN_ALL (R567). RUN_ALL := 1 makes every calibration due. -/
  | calRunAll
  /-- CAL_RUN_END (R569). A calibration run passes and applies values, or fails and marks stale. `lo` and `hi` are the codes of a converter's references. -/
  | calRunEnd (id : Fin 86) (lo : Int) (hi : Int)
  /-- CAL_RETRY (R569). RETRY_MS after a failure the calibration is retried. -/
  | calRetry (id : Fin 86)
  /-- CAL_MAX_WAIT (R568). A calibration due for MAX_WAIT without a passing run becomes stale. -/
  | calMaxWait (id : Fin 86)
  /-- REPLICA_READ (R572). Every 10 ms the monitor reads replica slack and may adjust the rail voltage. `slacks` are in 0.1 ps. -/
  | replicaRead (slacks : List Int)
  /-- LANE_EYE_POLL (R572). Every 100 ms one lane's eye is measured and its equaliser target may be raised. -/
  | laneEyePoll (height : BitVec 8) (width : BitVec 7)
  /-- AGE_TICK (R573). Each second the age advances, TIMU trims may step and the age is stored at its intervals. -/
  | ageTick
  /-- CND_COMMIT_AT_REACHED (R97). While the feeding group is not in RUN, a pending timed conditioning hand-over takes effect in the first FRONT clock whose device time reaches CND_COMMIT_AT. -/
  | cndCommitAtReached (c : Fin 4)
  /-- PRBS_LOCK (R41). A lane's PRBS checker gains or loses lock to the selected pattern, which sets PRBS_LOCK and gates counting into LNK_ERR_PRBS. -/
  | prbsLock (j : Fin 64) (on : Bool) (errors : Nat)
  /-- EDP_LINK_TRAINED (R254). eDP link training started by an enable, a retrain or PSR exit completes or fails, setting RUNNING or CAUSE TRAIN. -/
  | edpLinkTrained (e : TrainEnd) (psr : Bool) (msa : Bool)
  /-- CONTROLLER_READY_CHANGE (R443). An NVMe controller's CSTS.RDY reaches 0 after CC.EN := 0 or 1 after initialisation, letting the engine reissue commands or take the member. -/
  | controllerReadyChange (port : Fin 4) (fn : Fin 32) (ready : Bool)
  /-- CAP_TO_EXPIRY (R443). CSTS.RDY does not reach 0 within CAP.TO after a controller reset, so the reset has failed and the member becomes FAILED. -/
  | capToExpiry (port : Fin 4) (fn : Fin 32)
  /-- CONTROLLER_FATAL (R453). A member controller reports CSTS.CFS = 1 and the member becomes MISSING, degrading or failing its set. -/
  | controllerFatal (port : Fin 4) (fn : Fin 32)
  /-- BAR4_WRITE (R436). A host write to BAR4 that is not a well-formed doorbell, such as an MSI-X table or pending-array write or a misaligned doorbell-range write, is applied per the specification or discarded and counted. -/
  | bar4Write (n : Fin 4) (off : Fin 65536) (data : List (BitVec 8))
  /-- PCIE_LINK_ERROR (R458). A correctable or uncorrectable error detected on a PCIe port is counted in PCI_ERR_CORR or PCI_ERR_UNCORR, and an uncorrectable one is logged and raises PCI_AER. -/
  | pcieLinkError (n : Fin 4) (fatal : Bool)
  /-- PERST_RELEASE (R599). The device releases PERSTn_N of a root port 100 ms after that port's rails and REFCLK are stable. -/
  | perstRelease (n : Fin 4)
  /-- JTAG_INSTRUCTION (R600). An IEEE 1149.1 TAP operation on the JTAG pins loads BYPASS, IDCODE, SAMPLE/PRELOAD or EXTEST, and EXTEST takes the pins from their blocks. `code` is 0 BYPASS, 1 IDCODE, 2 SAMPLE/PRELOAD, 3 EXTEST. -/
  | jtagInstruction (code : Fin 4)
  deriving DecidableEq, Repr

end Sys2Proof
end

