-- ==== Sys2Proof/WellFormed.lean ====
section
/-! DEFINITION. Well-formed commands: operands inside the ranges that the spec gives them. Instance
numbers and fields are of fixed width in the constructors, so what is checked here is which requester
may be named (R514), and how many items a happening brings. -/

namespace Sys2Proof

open Sys2Proof.Machine

/-- Requesters are numbered 0 to 6 (R514). -/
def requesterOk (who : Fin 8) : Bool := decide (who.val ≤ 6)

/-- A list with one item for each of `n` places. -/
def holdsAll {α : Type} (xs : List α) (n : Nat) : Bool := xs.length == n

/-- A RAP message carries at most 1,024 bytes (R518). -/
def rapFits (m : RapMsg) : Bool := decide (m.data.length ≤ 1024)

/-- The operands of the command lie inside the ranges the spec gives them. -/
def Instr.wf : Instr → Bool
  | .registerWrite who _ _ data _ => decide (who.val ≤ 5) && !data.isEmpty && decide (data.length ≤ 4096)
  | .saveStart who | .acqRelWrite who _ _ | .canSnap who _ | .clkOffsetWrite who _ _ | .replayStart who
  | .mgtBlkRst who _ | .pwrGo who => requesterOk who
  | .rapRead _ m | .rapWrite _ m _ | .rapReadBlock _ m | .rapWriteBlock _ m _ | .rapSubscribe _ m
  | .notifyAck _ m => rapFits m
  | .icmpEchoRequest _ _ data => decide (data.length ≤ 1472)
  | .idReady _ image => decide (image.length ≤ 256)
  | .spiDone _ data | .i2cDone _ _ data => decide (data.length ≤ 64)
  | .adaptDone _ boost dfe => decide (boost.length ≤ 12) && dfe.all fun t => decide (t.length ≤ 12)
  | .portTrainDone _ boost dfe => decide (boost.length ≤ 4) && dfe.all fun t => decide (t.length ≤ 12)
  | .embLock _ x => decide (x.ilas.length ≤ 12)
  | .lnkRelease _ here there => decide (here.length ≤ 12 ∧ there.length ≤ 12)
  | .presentChange x => decide (x.spi.length ≤ 64 ∧ x.i2c.length ≤ 64)
  | .multiblock _ cells code _ => decide (cells.octets.length ≤ 12 ∧ code.length ≤ 12)
  | .lineStart _ late => late.all fun e => decide (e.1 + e.2 ≤ 4096)
  | .rawSnap _ words => decide (words.length ≤ 12)
  | .bgtProbe _ _ found => decide (found.moves.length ≤ 4)
  | .sarStep _ volts => decide (volts.length ≤ 16)
  | .memReady rd wr _ _ | .memRateDone rd wr _ _ => holdsAll rd 64 && holdsAll wr 64
  | .powerStepEnd levels => levels.isEmpty || holdsAll levels 128
  | .pmbusPoll rails => holdsAll rails 8
  | .pmbAlert status => holdsAll status 8
  | .sensorRead temps => holdsAll temps 32
  | .replicaRead slacks => holdsAll slacks 64
  | .slotReadDone r => holdsAll r.head0 256 && holdsAll r.head1 256 && decide (r.body.length ≤ 64 * 2 ^ 20)
  | _ => true

end Sys2Proof
end

