-- ==== Sys2Proof/Config.lean ====
section
/-! DEFINITION. What an implementation fixes and the spec leaves open: opaque constants, so that no
proof can see a value. -/

namespace Sys2Proof

/-- The fused MAC address, MGT_ETH_MAC at cold reset (R526: default "Fused"). (DESIGN CHOICE, log entry 5.) -/
opaque Config.fusedMac : BitVec 64

/-- The fused unique identifier, FAB_UID (R485: default "Fused"). (DESIGN CHOICE, log entry 5.) -/
opaque Config.fusedUid : BitVec 64

/-- The fused minimum ROLLBACK, MGT_ROLLBACK (R555: default "Fused"). (DESIGN CHOICE, log entry 5.) -/
opaque Config.fusedRollback : BitVec 64

/-- The fused key slots, MGT_KEY_STS (R555: default "Fused"). (DESIGN CHOICE, log entry 5.) -/
opaque Config.fusedKeys : BitVec 64

/-- HLT_AGE as MRAM holds it at power-up (R579: default "From MRAM"). (DESIGN CHOICE, log entry 5.) -/
opaque Config.mramAge : BitVec 64

/-- HLT_JRN_HEAD as MRAM holds it at power-up (R579: default "From MRAM"). (DESIGN CHOICE, log entry 5.) -/
opaque Config.mramJournalHead : BitVec 64

/-- FIRST_TS of a record whose span is empty: R214 gives no value; applied to a fresh number.
(DEDUCED, log entry 29.) -/
opaque Config.emptySpanTs : Nat → BitVec 64

/-- Whether a power within 0.004 dB of a LEVEL threshold counts as at or above it (R143), by the
power's numerator and denominator and the threshold. (DESIGN CHOICE, log entry 24.) -/
opaque Config.levelNear : Nat → Nat → Nat → Bool

/-- By how much, modulo 3 and less 1, a computed LM16 value differs from the rounded one (R118), by
the power's numerator and denominator. (DESIGN CHOICE, log entry 24.) -/
opaque Config.lmNudge : Nat → Nat → Nat

/-- The payload length of a fabric packet by TYPE, where R466 to R473 give no layout. (DEDUCED, log entry 44.) -/
opaque Config.fabricLen : Nat → Nat

/-- Whether the maintenance access has reached a cell of a Canopy store before an update of it, where
R237 and R242 leave the order to the device: by a fresh number and the cell. (DESIGN CHOICE, log entry 26.) -/
opaque Config.cellReached : Nat → Nat → Bool

/-- The taps of the half-band filters (R84 gives their number and no value): minimum-phase or not, and
the tap, newest input first. (DESIGN CHOICE, log entry 22.) -/
opaque Config.halfBandTap : Bool → Nat → Int

/-- The fraction bits of those taps. (DESIGN CHOICE, log entry 22.) -/
opaque Config.halfBandScale : Nat

/-- The residual skew that an interleave estimate finds (R80 gives no method): by the estimate's
number. (DESIGN CHOICE, log entry 22.) -/
opaque Config.ilSkew : Nat → BitVec 24

/-- The transition count of a gate whose input is faster than 1.6 GHz (R330), by a fresh number.
(DESIGN CHOICE, log entry 67.) -/
opaque Config.tiCount : Nat → Nat

/-- The gain estimate of R80 where the even samples have no power: by a fresh number.
(DESIGN CHOICE, log entry 22.) -/
opaque Config.ilGain : Nat → BitVec 32

/-- OFS_O (`false`) or CND_IL_GAIN (`true`) that a passing interleave calibration applies where the sum or the quotient of
R566 does not fit the entry: by a fresh number. (DESIGN CHOICE, log entry 67.) -/
opaque Config.ilOutside : Nat → Bool → BitVec 24

/-- A density pixel's colour where R258 leaves it undefined: by a fresh number and the pixel column.
(DEDUCED, log entry 31.) -/
opaque Config.densityPixel : Nat → Nat → Nat

/-- The change of the pixel clock, in ppm, that genlock makes for an error in pixel clocks at a present
adjustment (R266 bounds it and gives no law). (DEDUCED, log entry 31.) -/
opaque Config.genlockStep : Int → Int → Int

/-- Which of several writes that land together in one Lantern register wins where R288 names none: by a
fresh number, a number taken modulo the count of writes. (DESIGN CHOICE, log entry 34.) -/
opaque Config.lntTie : Nat → Nat

/-- What a pop of Lantern's stack gives where its top is an entry of another kind (R290 gives no value): by a fresh
number and the place of the value. (DEDUCED, log entry 32.) -/
opaque Config.lntPopped : Nat → Nat → BitVec 15

/-- A byte of a partly filled word of a Lantern copy (R297, R303 give no value): by a fresh number and
the byte's place. (DESIGN CHOICE, log entry 34.) -/
opaque Config.lntPad : Nat → Nat → BitVec 8

/-- WIN of an input whose THR_B lies below THR_A (R316 leaves it undefined), modulo 4: by a fresh
number. (DEDUCED, log entry 36.) -/
opaque Config.tiWindow : Nat → Nat

/-- u of R318 for an edge whose c1 and c2 are equal, where the quotient does not exist: by a fresh
number. (DEDUCED, log entry 36.) -/
opaque Config.tiFlat : Nat → Bool

/-- What the tracker's loop adds to a predicted edge for a phase error, by BW_SEL and the error in
2^-16 FRAC unit (R346 gives its order and bandwidth alone). (DEDUCED, log entry 37.) -/
opaque Config.loopPhase : Nat → Int → Int

/-- What the tracker's loop adds to the period for a phase error. (DEDUCED, log entry 37.) -/
opaque Config.loopPeriod : Nat → Int → Int

/-- Where in the Lantern partition a double-bit error lies (R404; no rule places a core's words in it): by
a fresh number. (DESIGN CHOICE, log entry 34.) -/
opaque Config.lanternOffset : Nat → BitVec 27

/-- The steering target, in 0.1 ppb, that the fabric sets for an offset θ at a present target (R476
bounds it and gives no law). (DEDUCED, log entry 47.) -/
opaque Config.fabSteer : Int → Int → Int

/-- A fresh SET_ID (R444 gives no value): by a fresh number. (DEDUCED, log entry 43.) -/
opaque Config.freshSetId : Nat → BitVec 64

/-- A dword of an endpoint's configuration space where this manual gives none (R431, R433): by port and
dword, what it reads before it is written. (DEDUCED, log entry 41.) -/
opaque Config.epConfig : Nat → Nat → BitVec 32

/-- The dword of the configuration space that holds the MSI-X capability's control bits (R433; the manual
places no capability). (DEDUCED, log entry 41.) -/
opaque Config.msixDword : Nat

/-- Old and new value of a journal record whose kind leaves them unstated (R577): by a fresh number.
(DEDUCED, log entry 55.) -/
opaque Config.journalValue : Nat → Bool → BitVec 32

/-- Health journal records that MRAM holds from earlier power cycles: by record number and word.
(DESIGN CHOICE, log entry 5.) -/
opaque Config.mramJournal : Nat → Nat → BitVec 64

/-- w of R573 in 2^-32 s where the rail's V₀ is 0: by a fresh number. (DEDUCED, log entry 55.) -/
opaque Config.ageUnknown : Nat → BitVec 64

/-- The word that a raw lane shows at RAW_SNAP where it has brought too few words for one and the command does
not bring it (R56): by a fresh number and the logical lane. (DESIGN CHOICE, log entry 59.) -/
opaque Config.rawWord : Nat → Nat → BitVec 64

/-- Where a running slew stands (R492), where the command that meets it does not bring it: by a fresh
number. -/
opaque Config.slewAt : Nat → Int

/-- IDCODE of the JTAG port (R600 gives no number). (PRESUMED, log entry 45.) -/
opaque Config.idcode : BitVec 32

/-- What the boundary-scan cells capture (R600): by a fresh number. (PRESUMED, log entry 45.) -/
opaque Config.boundary : Nat → Nat

/-- Whether a save has read an entry only after a write taken during the copy (R516): by a fresh number
and the slot. (DESIGN CHOICE, log entry 13.) -/
opaque Config.savedLate : Nat → Nat → Bool

/-- VALUE of a PATTERN 2 decision whose B stamp precedes its A stamp (R159 gives d no form below 0): by how far.
(DESIGN CHOICE, log entry 63.) -/
opaque Config.negativeDelay : Nat → BitVec 32

/-- A byte of the training pattern area, whose contents the manual does not give (R381): by a number that each training
and each probe changes, and the address. (DEDUCED, log entry 39.) -/
opaque Config.patternByte : Nat → Nat → BitVec 8

/-- The dwords of the configuration space where the PCI Express and the AER capability begin (R431 names what they
offer; the manual places no capability). (DEDUCED, log entry 41.) -/
opaque Config.pcieDword : Nat
opaque Config.aerDword : Nat

/-- How many attempts of a PMBus transaction are not acknowledged, where no command brings it (R562): by a fresh number.
(PRESUMED, log entry 52.) -/
opaque Config.pmbusFails : Nat → Nat

/-- What VOUT_MODE of a rail reads (R562): by a fresh number. (PRESUMED, log entry 52.) -/
opaque Config.voutMode : Nat → BitVec 8

end Sys2Proof
end

