-- ==== Sys2Proof/Machine/RegMap.lean ====
section
/-! DEFINITION. The object dictionary's map: every entry of the register tables of spec/, with its
slots, type, access class, default and the kinds of its fields (R10-R15, R505-R517). A slot is
numbered index * 256 + subindex, so its BAR0 byte address is 8 times that number. -/

namespace Sys2Proof.Machine

/-- The dictionary types of R10. -/
inductive EntryType
  | u8 | u16 | u32 | u64 | i24 | i48 | c48 | ts64 | cc64 | lm16 | str
  deriving DecidableEq, Repr

/-- The access classes of R507. -/
inductive Access
  | ro | rw | wo | rwd
  deriving DecidableEq, Repr

/-- One row of a register table: `count` blocks of `inner` indices every `stride` from `base`, and
`subCount` subindices every `subStep` from `sub`; then type, class, default and, per kind of R12,
the mask of its fields: `plain` CTL and SHD, `cfg` CFG, `w1c` EVT, `cnt` CNT, `self`
self-clearing (R511, a subset of `plain`). Bits in no mask are STS or reserved. -/
structure EntryRow where
  name : String
  base : Nat
  stride : Nat
  count : Nat
  inner : Nat
  sub : Nat
  subStep : Nat
  subCount : Nat
  ty : EntryType
  acc : Access
  dflt : Nat
  plain : Nat
  cfg : Nat
  w1c : Nat
  cnt : Nat
  self : Nat
  deriving DecidableEq, Repr

/-- The slot of an index and subindex. -/
def slot (index sub : Nat) : Nat := index * 256 + sub

/-- The index of a slot. -/
def slotIndex (k : Nat) : Nat := k / 256

/-- The subindex of a slot. -/
def slotSub (k : Nat) : Nat := k % 256

/-- Does the row hold this slot? -/
def EntryRow.holds (r : EntryRow) (k : Nat) : Bool :=
  let i := slotIndex k
  let u := slotSub k
  decide (r.base ≤ i) && decide ((i - r.base) / r.stride < r.count) &&
    decide ((i - r.base) % r.stride < r.inner) && decide (r.sub ≤ u) &&
    decide ((u - r.sub) % r.subStep = 0) && decide ((u - r.sub) / r.subStep < r.subCount)

/-- The width of a type in bytes (R10). A STR entry counts as entries of width 8 (R505). -/
def EntryType.width : EntryType → Nat
  | .u8 => 1 | .u16 => 2 | .u32 => 4 | .u64 => 8 | .i24 => 4 | .i48 => 8 | .c48 => 8
  | .ts64 => 8 | .cc64 => 8 | .lm16 => 2 | .str => 8

/-- The code of a type in MGT_DESC (R532). -/
def EntryType.code : EntryType → Nat
  | .u8 => 1 | .u16 => 2 | .u32 => 3 | .u64 => 4 | .i24 => 5 | .i48 => 6 | .c48 => 7
  | .ts64 => 8 | .cc64 => 9 | .lm16 => 10 | .str => 11

/-- The code of an access class in MGT_DESC (R532). -/
def Access.code : Access → Nat
  | .ro => 0 | .rw => 1 | .wo => 2 | .rwd => 3

/-- Indices 0x1100 to 0x11FF (spec/19_dictionary_registers.md; R532). -/
def rows11 : List EntryRow := [
  ⟨"MGT_ACC_STS", 0x1100, 1, 1, 1, 0, 1, 8, .u32, .rw, 0, 0, 0, 0x1F, 0, 0⟩,
  ⟨"MGT_ACC_LAST", 0x1101, 1, 1, 1, 0, 2, 8, .u32, .ro, 0, 0, 0, 0, 0, 0⟩,
  ⟨"MGT_ACC_LAST_TS", 0x1101, 1, 1, 1, 1, 2, 8, .ts64, .ro, 0, 0, 0, 0, 0, 0⟩,
  ⟨"MGT_RAP_CFG", 0x1102, 1, 1, 1, 0, 1, 1, .u32, .rw, 0x3C03, 0xFFFF03, 0, 0, 0, 0⟩,
  ⟨"MGT_RAP_SESSIONS", 0x1102, 1, 1, 1, 1, 1, 1, .u32, .ro, 0, 0, 0, 0, 0, 0⟩,
  ⟨"MGT_RAP_BAD", 0x1102, 1, 1, 1, 2, 1, 1, .u32, .rw, 0, 0, 0, 0, 0xFFFFFFFF, 0⟩,
  ⟨"MGT_RAP_RETRIES", 0x1102, 1, 1, 1, 3, 1, 1, .u32, .rw, 0, 0, 0, 0, 0xFFFFFFFF, 0⟩,
  ⟨"MGT_RAP_STALE", 0x1102, 1, 1, 1, 4, 1, 1, .u32, .rw, 0, 0, 0, 0, 0xFFFFFFFF, 0⟩,
  ⟨"MGT_NOTIFY_RESENT", 0x1102, 1, 1, 1, 5, 1, 1, .u32, .rw, 0, 0, 0, 0, 0xFFFFFFFF, 0⟩,
  ⟨"MGT_SAVE_CTL", 0x1103, 1, 1, 1, 0, 1, 1, .u32, .rw, 0, 3, 0, 0, 0, 3⟩,
  ⟨"MGT_SAVE_STS", 0x1103, 1, 1, 1, 1, 1, 1, .u32, .ro, 0, 0, 0, 0, 0, 0⟩,
  ⟨"MGT_SAVE_GEN", 0x1103, 1, 1, 1, 2, 1, 1, .u32, .ro, 0, 0, 0, 0, 0, 0⟩,
  ⟨"MGT_SAVE_TS", 0x1103, 1, 1, 1, 3, 1, 1, .ts64, .ro, 0, 0, 0, 0, 0, 0⟩,
  ⟨"MGT_DESC_Q", 0x1103, 1, 1, 1, 4, 1, 1, .u32, .rw, 0, 0xFFFFFF, 0, 0, 0, 0⟩,
  ⟨"MGT_DESC", 0x1103, 1, 1, 1, 5, 1, 1, .u32, .ro, 0, 0, 0, 0, 0, 0⟩,
  ⟨"MGT_PARITY_SRC", 0x1104, 1, 1, 1, 0, 1, 1, .u32, .ro, 0, 0, 0, 0, 0, 0⟩,
  ⟨"MGT_PARITY_TS", 0x1104, 1, 1, 1, 1, 1, 1, .ts64, .ro, 0, 0, 0, 0, 0, 0⟩,
  ⟨"MGT_PARITY_COUNT", 0x1104, 1, 1, 1, 2, 1, 1, .u32, .rw, 0, 0, 0, 0, 0xFFFFFFFF, 0⟩]

/-- Indices 0x1200 to 0x12FF (spec/20_boot_power_reset.md; R548). -/
def rows12 : List EntryRow := [
  ⟨"PROT_LOCK", 0x1200, 1, 1, 1, 0, 1, 1, .u32, .rw, 0, 1, 0, 0, 0, 0⟩,
  ⟨"PROT_DICT", 0x1201, 1, 1, 1, 0, 1, 32, .u64, .rw, 0, 0x8000FFFFFFFFFFFF, 0, 0, 0, 0⟩,
  ⟨"PROT_EP_WIN", 0x1210, 1, 4, 1, 0, 1, 16, .u64, .rw, 0, 0x8000FFFFFFFFF0FF, 0, 0, 0, 0⟩,
  ⟨"PROT_PEER_ID", 0x1220, 1, 1, 1, 0, 1, 32, .u64, .rw, 0, 0x87FFFFFFFFFFFFFF, 0, 0, 0, 0⟩,
  ⟨"PROT_PEER_DEF", 0x1220, 1, 1, 1, 32, 1, 1, .u32, .rw, 7, 7, 0, 0, 0, 0⟩,
  ⟨"PROT_PEER_WIN", 0x1230, 1, 7, 1, 0, 1, 8, .u64, .rw, 0, 0x80000003FFFFFFFF, 0, 0, 0, 0⟩]

/-- Indices 0x1300 to 0x13FF (spec/20_boot_power_reset.md; R564). -/
def rows13 : List EntryRow := [
  ⟨"PWR_CTL", 0x1300, 1, 1, 1, 0, 1, 1, .u32, .rw, 0, 0x7F, 0, 0, 0, 8⟩,
  ⟨"PWR_STS", 0x1300, 1, 1, 1, 1, 1, 1, .u32, .rw, 0, 0, 0, 0x80, 0, 0⟩,
  ⟨"PWR_WAKE_EN", 0x1300, 1, 1, 1, 2, 1, 1, .u32, .rw, 3, 0x7F, 0, 0, 0, 0⟩,
  ⟨"PWR_WAKE_AT", 0x1300, 1, 1, 1, 3, 1, 1, .ts64, .rw, 0, 0xEFFFFFFFFFFFFFFF, 0, 0, 0, 0⟩,
  ⟨"PWR_PG_TIMEOUT", 0x1300, 1, 1, 1, 4, 1, 1, .u32, .rw, 0x1F4, 0xFFFFFFFF, 0, 0, 0, 0⟩,
  ⟨"PWR_STATE_TS", 0x1300, 1, 1, 1, 5, 1, 1, .ts64, .ro, 0, 0, 0, 0, 0, 0⟩,
  ⟨"PWR_TRANSITIONS", 0x1300, 1, 1, 1, 6, 1, 1, .u32, .rw, 0, 0, 0, 0, 0xFFFFFFFF, 0⟩,
  ⟨"PWR_PMBUS_CFG", 0x1300, 1, 1, 1, 7, 1, 1, .u32, .rw, 0xA03, 0xFF03, 0, 0, 0, 0⟩,
  ⟨"PWR_RAIL_CFG", 0x1310, 1, 8, 1, 0, 1, 1, .u64, .rwd, 0, 0, 0xFFFFFFFFFFFF, 0, 0, 0⟩,
  ⟨"PWR_RAIL_VSET", 0x1310, 1, 8, 1, 1, 1, 1, .u32, .rw, 0, 0xFFFF, 0, 0x10000, 0, 0⟩,
  ⟨"PWR_RAIL_TELEM", 0x1310, 1, 8, 1, 2, 1, 1, .u64, .ro, 0, 0, 0, 0, 0, 0⟩]

/-- Indices 0x1400 to 0x14FF (spec/20_boot_power_reset.md; R555). -/
def rows14 : List EntryRow := [
  ⟨"MGT_RST_CTL", 0x1400, 1, 1, 1, 0, 1, 1, .u32, .rw, 0, 7, 0, 0, 0, 7⟩,
  ⟨"MGT_RST_STS", 0x1400, 1, 1, 1, 1, 1, 1, .u32, .rw, 0, 0, 0, 0, 0, 0⟩,
  ⟨"MGT_RST_TS", 0x1400, 1, 1, 1, 2, 1, 1, .ts64, .ro, 0, 0, 0, 0, 0, 0⟩,
  ⟨"MGT_WARM_COUNT", 0x1400, 1, 1, 1, 3, 1, 1, .u32, .rw, 0, 0, 0, 0, 0xFFFFFFFF, 0⟩,
  ⟨"MGT_JRN_AREA", 0x1400, 1, 1, 1, 4, 1, 1, .u64, .rwd, 0x1A, 0, 0xFFFFFFF0003F, 0, 0, 0⟩,
  ⟨"MGT_WDOG", 0x1400, 1, 1, 1, 5, 1, 1, .u32, .rw, 0, 0x3FFFF, 0, 0, 0, 0x20000⟩,
  ⟨"MGT_QUIESCE", 0x1400, 1, 1, 1, 6, 1, 1, .u32, .rw, 0x3E8, 0xFFFF, 0, 0, 0, 0⟩,
  ⟨"MGT_BOOT_STS", 0x1401, 1, 1, 1, 0, 1, 1, .u32, .ro, 0, 0, 0, 0, 0, 0⟩,
  ⟨"MGT_BOOT_SEQ", 0x1401, 1, 1, 1, 1, 1, 1, .u32, .ro, 0, 0, 0, 0, 0, 0⟩,
  ⟨"MGT_BOOT_TS", 0x1401, 1, 1, 1, 2, 1, 1, .ts64, .ro, 0, 0, 0, 0, 0, 0⟩,
  ⟨"MGT_BOOT_REC", 0x1401, 1, 1, 1, 3, 1, 1, .u32, .ro, 0, 0, 0, 0, 0, 0⟩,
  ⟨"MGT_ROLLBACK", 0x1401, 1, 1, 1, 4, 1, 1, .u32, .ro, 0, 0, 0, 0, 0, 0⟩,
  ⟨"MGT_KEY_STS", 0x1401, 1, 1, 1, 5, 1, 1, .u32, .ro, 0, 0, 0, 0, 0, 0⟩,
  ⟨"MGT_BLK_RST", 0x1402, 1, 1, 1, 0, 1, 1, .u32, .rw, 0, 0xFF01, 0, 0, 0, 1⟩]

/-- Indices 0x1500 to 0x15FF (spec/21_health_guarantees.md; R579). -/
def rows15 : List EntryRow := [
  ⟨"HLT_CTL", 0x1500, 1, 1, 1, 0, 1, 1, .u32, .rw, 0, 0x3F, 0, 0, 0, 0⟩,
  ⟨"HLT_VOLT_CFG", 0x1500, 1, 1, 1, 1, 1, 1, .u64, .rwd, 0x14003205000C80, 0, 0xFFFFFFFF07FFFFFF, 0, 0, 0⟩,
  ⟨"HLT_EQ_CFG", 0x1500, 1, 1, 1, 2, 1, 1, .u32, .rwd, 0x40C, 0, 0xFFFF, 0, 0, 0⟩,
  ⟨"HLT_DRAM_CFG", 0x1500, 1, 1, 1, 3, 1, 1, .u32, .rwd, 0xA0008, 0, 0xFFFF00FF, 0, 0, 0⟩,
  ⟨"HLT_TRIM_CFG", 0x1500, 1, 1, 1, 4, 1, 1, .u32, .rwd, 0x40C040, 0, 0xFFFFFF, 0, 0, 0⟩,
  ⟨"HLT_TEMP_WARN", 0x1500, 1, 1, 1, 5, 1, 1, .i24, .rw, 0x3E8, 0xFFFFFF, 0, 0, 0, 0⟩,
  ⟨"HLT_AGE", 0x1500, 1, 1, 1, 6, 1, 1, .u64, .ro, 0, 0, 0, 0, 0, 0⟩,
  ⟨"HLT_VOLT_ADJ", 0x1500, 1, 1, 1, 7, 1, 1, .i24, .ro, 0, 0, 0, 0, 0, 0⟩,
  ⟨"HLT_LIMIT_STS", 0x1500, 1, 1, 1, 8, 1, 1, .u32, .rw, 0, 0, 0, 0xF, 0, 0⟩,
  ⟨"HLT_JRN_HEAD", 0x1500, 1, 1, 1, 9, 1, 1, .u32, .ro, 0, 0, 0, 0, 0, 0⟩,
  ⟨"HLT_JRN_Q", 0x1500, 1, 1, 1, 10, 1, 1, .u32, .rw, 0, 0xFFFFFFFF, 0, 0, 0, 0⟩,
  ⟨"HLT_TEMP", 0x1501, 1, 1, 1, 0, 1, 32, .i24, .ro, 0, 0, 0, 0, 0, 0⟩,
  ⟨"HLT_REPLICA", 0x1502, 1, 1, 1, 0, 1, 64, .i24, .ro, 0, 0, 0, 0, 0, 0⟩,
  ⟨"HLT_LANE", 0x1503, 1, 1, 1, 0, 1, 64, .u32, .ro, 0, 0, 0, 0, 0, 0⟩,
  ⟨"HLT_JRN_REC", 0x1504, 1, 1, 1, 0, 1, 4, .u64, .ro, 0, 0, 0, 0, 0, 0⟩]

/-- Indices 0x1600 to 0x16FF (spec/21_health_guarantees.md; R578). -/
def rows16 : List EntryRow := [
  ⟨"CAL_CTL", 0x1600, 1, 1, 1, 0, 1, 1, .u32, .rw, 1, 3, 0, 0, 0, 2⟩,
  ⟨"CAL_CFG", 0x1600, 1, 1, 1, 1, 1, 1, .u32, .rw, 0x640814, 0xFFFFFFFF, 0, 0, 0, 0⟩,
  ⟨"CAL_STS", 0x1600, 1, 1, 1, 2, 1, 1, .u32, .ro, 0, 0, 0, 0, 0, 0⟩,
  ⟨"CAL_IL_LIM", 0x1600, 1, 1, 1, 3, 1, 1, .u64, .rw, 0x7D0010000004000, 0xFFFFFFFFFFFFFFFF, 0, 0, 0, 0⟩,
  ⟨"CAL_CONV_LIM", 0x1600, 1, 1, 1, 4, 1, 1, .u32, .rw, 0x400028, 0xFFFFFFFF, 0, 0, 0, 0⟩,
  ⟨"CAL_RETRY", 0x1600, 1, 1, 1, 5, 1, 1, .u32, .rw, 0x3E8, 0xFFFFFFFF, 0, 0, 0, 0⟩,
  ⟨"CAL_ID_CTL", 0x1610, 1, 86, 1, 0, 1, 1, .u32, .rw, 1, 3, 0, 0, 0, 2⟩,
  ⟨"CAL_ID_STS", 0x1610, 1, 86, 1, 1, 1, 1, .u32, .rw, 0, 0, 0, 0x10, 0, 0⟩,
  ⟨"CAL_ID_COUNT", 0x1610, 1, 86, 1, 2, 1, 1, .u32, .rw, 0, 0, 0, 0, 0xFFFFFFFF, 0⟩,
  ⟨"CAL_ID_FAILS", 0x1610, 1, 86, 1, 3, 1, 1, .u32, .rw, 0, 0, 0, 0, 0xFFFFFFFF, 0⟩,
  ⟨"CAL_ID_LAST_TS", 0x1610, 1, 86, 1, 4, 1, 1, .ts64, .ro, 0, 0, 0, 0, 0, 0⟩,
  ⟨"CAL_ID_LAST_CC", 0x1610, 1, 86, 1, 5, 1, 1, .cc64, .ro, 0xFFFFFFFFFFFFFFFF, 0, 0, 0, 0, 0⟩,
  ⟨"CAL_ID_TEMP", 0x1610, 1, 86, 1, 6, 1, 1, .i24, .ro, 0, 0, 0, 0, 0, 0⟩]

/-- Indices 0x1800 to 0x18FF (spec/19_dictionary_registers.md; R533). -/
def rows18 : List EntryRow := [
  ⟨"MGT_EVT_ROUTE", 0x1800, 1, 4, 1, 0, 1, 256, .u64, .rw, 0, 0x3FFFFFFF, 0, 0, 0, 0⟩,
  ⟨"MGT_EVT_PEND", 0x1810, 1, 1, 1, 0, 1, 16, .u64, .rw, 0, 0, 0, 0xFFFFFFFFFFFFFFFF, 0, 0⟩,
  ⟨"MGT_EVT_SERIAL", 0x1811, 1, 1, 1, 0, 1, 1, .u64, .ro, 0, 0, 0, 0, 0, 0⟩,
  ⟨"MGT_EVT_COALESCED", 0x1811, 1, 1, 1, 1, 1, 1, .u64, .rw, 0, 0, 0, 0, 0xFFFFFFFFFFFFFFFF, 0⟩,
  ⟨"MGT_EVT_UNROUTED", 0x1811, 1, 1, 1, 2, 1, 1, .u64, .rw, 0, 0, 0, 0, 0xFFFFFFFFFFFFFFFF, 0⟩]

/-- Indices 0x2000 to 0x20FF (spec/18_clocks.md; R502). -/
def rows20 : List EntryRow := [
  ⟨"CLK_CTL", 0x2000, 1, 1, 1, 0, 1, 1, .u32, .rw, 0x3F, 0x7F, 0, 0, 0, 0⟩,
  ⟨"CLK_STS", 0x2000, 1, 1, 1, 1, 1, 1, .u32, .rw, 0, 0, 0, 0x18, 0, 0⟩,
  ⟨"CLK_REF_FREQ", 0x2000, 1, 1, 1, 2, 1, 1, .u32, .rwd, 0x186A0, 0, 0xFFFFFFFF, 0, 0, 0⟩,
  ⟨"CLK_OFFSET", 0x2000, 1, 1, 1, 3, 1, 1, .i24, .rw, 0, 0xFFFFFF, 0, 0, 0, 0⟩,
  ⟨"CLK_OFFSET_NOW", 0x2000, 1, 1, 1, 4, 1, 1, .i24, .ro, 0, 0, 0, 0, 0, 0⟩,
  ⟨"CLK_SYSREF_SKIPPED", 0x2000, 1, 1, 1, 5, 1, 1, .u32, .rw, 0, 0, 0, 0, 0xFFFFFFFF, 0⟩,
  ⟨"CLK_REF_LOSTS", 0x2000, 1, 1, 1, 6, 1, 1, .u32, .rw, 0, 0, 0, 0, 0xFFFFFFFF, 0⟩,
  ⟨"CLK_PLL_CTL", 0x2010, 1, 6, 1, 0, 1, 1, .u32, .rw, 0, 1, 0, 0, 0, 1⟩,
  ⟨"CLK_PLL_STS", 0x2010, 1, 6, 1, 1, 1, 1, .u32, .ro, 0, 0, 0, 0, 0, 0⟩,
  ⟨"CLK_PLL_FREQ", 0x2010, 1, 6, 1, 2, 1, 1, .u64, .ro, 0, 0, 0, 0, 0, 0⟩,
  ⟨"CLK_PLL_UNLOCKS", 0x2010, 1, 6, 1, 3, 1, 1, .u32, .rw, 0, 0, 0, 0, 0xFFFFFFFF, 0⟩,
  ⟨"CLK_PLL_UNLOCK_TS", 0x2010, 1, 6, 1, 4, 1, 1, .ts64, .ro, 0, 0, 0, 0, 0, 0⟩,
  ⟨"CLK_PLL_LOCK_TS", 0x2010, 1, 6, 1, 5, 1, 1, .ts64, .ro, 0, 0, 0, 0, 0, 0⟩,
  ⟨"CLK_PLL_BYPASS_NS", 0x2010, 1, 6, 1, 6, 1, 1, .u64, .rw, 0, 0, 0, 0, 0xFFFFFFFFFFFFFFFF, 0⟩,
  ⟨"CLK_BAND", 0x2010, 1, 6, 1, 8, 1, 8, .u64, .ro, 0, 0, 0, 0, 0, 0⟩]

/-- Indices 0x2100 to 0x21FF, part 0 (spec/12_cycle_coordinates.md; R357). -/
def rows21_0 : List EntryRow := [
  ⟨"CCS_CTL", 0x2100, 1, 1, 1, 0, 1, 1, .u32, .rw, 0, 7, 0, 0, 0, 2⟩,
  ⟨"CCS_CFG", 0x2100, 1, 1, 1, 1, 1, 1, .u32, .rwd, 0x100, 0, 0x3FF, 0, 0, 0⟩,
  ⟨"CCS_STS", 0x2100, 1, 1, 1, 2, 1, 1, .u32, .rw, 0, 0, 0, 0x180, 0, 0⟩,
  ⟨"CCS_ORIGIN", 0x2100, 1, 1, 1, 3, 1, 1, .u64, .rwd, 0, 0, 0xFFFFFFFFFFFF, 0, 0, 0⟩,
  ⟨"CCS_CYC_DLY", 0x2100, 1, 1, 1, 4, 1, 1, .i24, .rw, 0, 0xFFFFFF, 0, 0, 0, 0⟩,
  ⟨"CCS_NOW", 0x2100, 1, 1, 1, 5, 1, 1, .cc64, .ro, 0xFFFFFFFFFFFFFFFF, 0, 0, 0, 0, 0⟩,
  ⟨"CCS_ORIGIN_TS", 0x2100, 1, 1, 1, 6, 1, 1, .ts64, .ro, 0, 0, 0, 0, 0, 0⟩,
  ⟨"CCS_PERIOD", 0x2100, 1, 1, 1, 7, 1, 1, .u64, .ro, 0, 0, 0, 0, 0, 0⟩,
  ⟨"CCS_JITTER", 0x2100, 1, 1, 1, 8, 1, 1, .u32, .ro, 0, 0, 0, 0, 0, 0⟩,
  ⟨"CCS_HOLD_MAX", 0x2100, 1, 1, 1, 9, 1, 1, .u32, .rw, 0, 0xFFFFFF, 0, 0, 0, 0⟩,
  ⟨"CCS_VEC0_LAST", 0x2100, 1, 1, 1, 10, 1, 1, .cc64, .ro, 0xFFFFFFFFFFFFFFFF, 0, 0, 0, 0, 0⟩,
  ⟨"CCS_VEC0_COUNT", 0x2100, 1, 1, 1, 11, 1, 1, .u32, .rw, 0, 0, 0, 0, 0xFFFFFFFF, 0⟩,
  ⟨"CCS_LOCK_COUNT", 0x2100, 1, 1, 1, 12, 1, 1, .u32, .rw, 0, 0, 0, 0, 0xFFFFFFFF, 0⟩,
  ⟨"CCS_HOLD_TS", 0x2100, 1, 1, 1, 13, 1, 1, .ts64, .ro, 0, 0, 0, 0, 0, 0⟩,
  ⟨"CCS_WP_CTL", 0x2101, 1, 1, 1, 0, 1, 1, .u32, .rw, 0, 3, 0, 0, 0, 2⟩,
  ⟨"CCS_WP_CFG", 0x2101, 1, 1, 1, 1, 1, 1, .u32, .rwd, 0, 0, 0x1FFFF, 0, 0, 0⟩,
  ⟨"CCS_WP_STS", 0x2101, 1, 1, 1, 2, 1, 1, .u32, .rw, 0, 0, 0, 0x18000, 0, 0⟩,
  ⟨"CCS_WP_HEAD", 0x2101, 1, 1, 1, 3, 1, 1, .u32, .ro, 0, 0, 0, 0, 0, 0⟩,
  ⟨"CCS_WP_TAIL", 0x2101, 1, 1, 1, 4, 1, 1, .u32, .rw, 0, 0xFFFFFFFF, 0, 0, 0, 0⟩,
  ⟨"CCS_WP_FIRED", 0x2101, 1, 1, 1, 5, 1, 1, .u64, .rw, 0, 0, 0, 0, 0xFFFFFFFFFFFFFFFF, 0⟩,
  ⟨"CCS_WP_LATE", 0x2101, 1, 1, 1, 6, 1, 1, .u32, .rw, 0, 0, 0, 0, 0xFFFFFFFF, 0⟩,
  ⟨"CCS_WP_SKIPPED", 0x2101, 1, 1, 1, 7, 1, 1, .u32, .rw, 0, 0, 0, 0, 0xFFFFFFFF, 0⟩,
  ⟨"CCS_WP_REFUSED", 0x2101, 1, 1, 1, 8, 1, 1, .u32, .rw, 0, 0, 0, 0, 0xFFFFFFFF, 0⟩,
  ⟨"CCS_WP_LAST_TS", 0x2101, 1, 1, 1, 9, 1, 1, .ts64, .ro, 0, 0, 0, 0, 0, 0⟩]

/-- Indices 0x2100 to 0x21FF, part 1 (spec/12_cycle_coordinates.md; R357). -/
def rows21_1 : List EntryRow := [
  ⟨"CCS_FAB_SEQ", 0x2101, 1, 1, 1, 10, 1, 1, .u32, .rw, 0, 0, 0, 0, 0xFFFF, 0⟩,
  ⟨"CCS_WP_CANCELLED", 0x2101, 1, 1, 1, 11, 1, 1, .u32, .rw, 0, 0, 0, 0, 0xFFFFFFFF, 0⟩,
  ⟨"CCS_WP_TABLE", 0x2180, 1, 32, 1, 0, 2, 128, .u64, .rw, 0, 0xFFFFFFFFFFFFFFFF, 0, 0, 0, 0⟩,
  ⟨"CCS_WP_TABLE", 0x2180, 1, 32, 1, 1, 2, 128, .u64, .rw, 0, 0xFFFFFFFFFFFFFF1F, 0, 0, 0, 0⟩]

/-- Indices 0x2100 to 0x21FF. -/
def rows21 : List EntryRow := rows21_0 ++ rows21_1

/-- Indices 0x3000 to 0x30FF (spec/02_lane_intake.md; R43). -/
def rows30 : List EntryRow := [
  ⟨"LNK_LANE_CTL", 0x3000, 1, 48, 1, 0, 1, 1, .u32, .rw, 0x1200, 0x1FFC080, 0x3F7E, 0, 0, 0⟩,
  ⟨"LNK_LANE_STS", 0x3000, 1, 48, 1, 1, 1, 1, .u32, .ro, 0, 0, 0, 0, 0, 0⟩,
  ⟨"LNK_DFE_LO", 0x3000, 1, 48, 1, 2, 1, 1, .u64, .ro, 0, 0, 0, 0, 0, 0⟩,
  ⟨"LNK_DFE_HI", 0x3000, 1, 48, 1, 3, 1, 1, .u32, .ro, 0, 0, 0, 0, 0, 0⟩,
  ⟨"LNK_EYE_CTL", 0x3000, 1, 48, 1, 4, 1, 1, .u32, .rw, 0, 0x1FFFF, 0, 0, 0, 0x10000⟩,
  ⟨"LNK_EYE_RESULT", 0x3000, 1, 48, 1, 5, 1, 1, .u64, .ro, 0, 0, 0, 0, 0, 0⟩,
  ⟨"LNK_ERR_CODE", 0x3000, 1, 48, 1, 6, 1, 1, .u32, .rw, 0, 0, 0, 0, 0xFFFFFFFF, 0⟩,
  ⟨"LNK_ERR_CRC", 0x3000, 1, 48, 1, 7, 1, 1, .u32, .rw, 0, 0, 0, 0, 0xFFFFFFFF, 0⟩,
  ⟨"LNK_ERR_PRBS", 0x3000, 1, 48, 1, 8, 1, 1, .u64, .rw, 0, 0, 0, 0, 0xFFFFFFFFFFFFFFFF, 0⟩,
  ⟨"LNK_RAW_WORD", 0x3000, 1, 48, 1, 9, 1, 1, .u64, .ro, 0, 0, 0, 0, 0, 0⟩,
  ⟨"LNK_ARRIVAL", 0x3000, 1, 48, 1, 10, 1, 1, .i24, .ro, 0, 0, 0, 0, 0, 0⟩]

/-- Indices 0x3100 to 0x31FF (spec/02_lane_intake.md; R61). -/
def rows31 : List EntryRow := [
  ⟨"LNK_GRP_CTL", 0x3100, 16, 4, 1, 0, 1, 1, .u32, .rw, 0x172, 0x70A1, 0x8F5E, 0, 0, 0x7000⟩,
  ⟨"LNK_GRP_STATE", 0x3100, 16, 4, 1, 1, 1, 1, .u32, .ro, 0, 0, 0, 0, 0, 0⟩,
  ⟨"LNK_JESD_PARAMS", 0x3100, 16, 4, 1, 2, 1, 1, .u64, .rwd, 0x7CF000B, 0, 0x1FFFFFFFFFFF, 0, 0, 0⟩,
  ⟨"LNK_LANE_MAP", 0x3100, 16, 4, 1, 3, 1, 1, .u64, .rwd, 0xBA9876543210, 0, 0xFFFFFFFFFFFF, 0, 0, 0⟩,
  ⟨"LNK_LANE_RATE", 0x3100, 16, 4, 1, 4, 1, 1, .u32, .rwd, 0x1EFE920, 0, 0xFFFFFFFF, 0, 0, 0⟩,
  ⟨"LNK_TS_NUM", 0x3100, 16, 4, 1, 5, 1, 1, .u32, .rwd, 1, 0, 0xFFFFFFFF, 0, 0, 0⟩,
  ⟨"LNK_TS_DEN", 0x3100, 16, 4, 1, 6, 1, 1, .u32, .rwd, 8, 0, 0xFFFFFFFF, 0, 0, 0⟩,
  ⟨"LNK_LAT_ADJ", 0x3100, 16, 4, 1, 7, 1, 1, .i24, .rwd, 0, 0, 0xFFFFFF, 0, 0, 0⟩,
  ⟨"LNK_SYSREF_OFS", 0x3100, 16, 4, 1, 8, 1, 1, .u16, .rwd, 0, 0, 0xFFF, 0, 0, 0⟩,
  ⟨"LNK_RELEASE_OFS", 0x3100, 16, 4, 1, 9, 1, 1, .u16, .rwd, 0x40, 0, 0xFFF, 0, 0, 0⟩,
  ⟨"LNK_ANCHOR", 0x3100, 16, 4, 1, 10, 1, 1, .ts64, .ro, 0, 0, 0, 0, 0, 0⟩,
  ⟨"LNK_SYSREF_LAST", 0x3100, 16, 4, 1, 11, 1, 1, .ts64, .ro, 0, 0, 0, 0, 0, 0⟩,
  ⟨"LNK_SYSREF_ERR", 0x3100, 16, 4, 1, 12, 1, 1, .i24, .ro, 0, 0, 0, 0, 0, 0⟩,
  ⟨"LNK_ILAS_SEEN", 0x3100, 16, 4, 1, 13, 1, 1, .u64, .ro, 0, 0, 0, 0, 0, 0⟩,
  ⟨"LNK_RUN_COUNT", 0x3100, 16, 4, 1, 14, 1, 1, .u32, .rw, 0, 0, 0, 0, 0xFFFFFFFF, 0⟩,
  ⟨"LNK_ID_IMAGE", 0x3101, 16, 4, 1, 0, 1, 32, .u64, .ro, 0, 0, 0, 0, 0, 0⟩,
  ⟨"LNK_SPI_CFG", 0x3102, 16, 4, 1, 0, 1, 1, .u32, .rw, 0xFA, 0, 0x7FF, 0, 0, 0⟩,
  ⟨"LNK_SPI_CMD", 0x3102, 16, 4, 1, 1, 1, 1, .u32, .rw, 0, 0x3FFF, 0, 0, 0, 0x2000⟩,
  ⟨"LNK_SPI_STS", 0x3102, 16, 4, 1, 2, 1, 1, .u32, .ro, 0, 0, 0, 0, 0, 0⟩,
  ⟨"LNK_SPI_DATA", 0x3102, 16, 4, 1, 8, 1, 8, .u64, .rw, 0, 0xFFFFFFFFFFFFFFFF, 0, 0, 0, 0⟩,
  ⟨"LNK_I2C_CMD", 0x3103, 16, 4, 1, 0, 1, 1, .u32, .rw, 0, 0xFFFFFF, 0, 0, 0, 0x800000⟩,
  ⟨"LNK_I2C_STS", 0x3103, 16, 4, 1, 1, 1, 1, .u32, .ro, 0, 0, 0, 0, 0, 0⟩,
  ⟨"LNK_I2C_DATA", 0x3103, 16, 4, 1, 8, 1, 8, .u64, .rw, 0, 0xFFFFFFFFFFFFFFFF, 0, 0, 0, 0⟩]

/-- Indices 0x3200 to 0x32FF, part 0 (spec/03_conditioning.md; R98). -/
def rows32_0 : List EntryRow := [
  ⟨"CND_CTL", 0x3200, 16, 4, 1, 0, 1, 1, .u32, .rw, 0x100, 0x47, 0x1FB8, 0, 0, 6⟩,
  ⟨"CND_STS", 0x3200, 16, 4, 1, 1, 1, 1, .u32, .ro, 0, 0, 0, 0, 0, 0⟩,
  ⟨"CND_CHAIN", 0x3200, 16, 4, 1, 2, 1, 1, .u32, .rwd, 1, 0, 0x3FFFFF, 0, 0, 0⟩,
  ⟨"CND_NCO_FTW", 0x3200, 16, 4, 1, 3, 1, 1, .i48, .rw, 0, 0xFFFFFFFFFFFF, 0, 0, 0, 0⟩,
  ⟨"CND_NCO_POW", 0x3200, 16, 4, 1, 4, 1, 1, .u16, .rw, 0, 0xFFFF, 0, 0, 0, 0⟩,
  ⟨"CND_COMMIT_AT", 0x3200, 16, 4, 1, 5, 1, 1, .ts64, .rw, 0, 0xEFFFFFFFFFFFFFFF, 0, 0, 0, 0⟩,
  ⟨"CND_SHADOW_GEN", 0x3200, 16, 4, 1, 6, 1, 1, .u32, .ro, 0, 0, 0, 0, 0, 0⟩,
  ⟨"CND_HANDOVER_TS", 0x3200, 16, 4, 1, 7, 1, 1, .ts64, .ro, 0, 0, 0, 0, 0, 0⟩,
  ⟨"CND_OUT_PERIOD", 0x3200, 16, 4, 1, 8, 1, 1, .u64, .ro, 0, 0, 0, 0, 0, 0⟩,
  ⟨"CND_GROUP_DELAY", 0x3200, 16, 4, 1, 9, 1, 1, .i48, .ro, 0, 0, 0, 0, 0, 0⟩,
  ⟨"CND_EVT", 0x3200, 16, 4, 1, 10, 1, 1, .u32, .rw, 0, 0, 0, 0x1FFFF, 0, 0⟩,
  ⟨"CND_SAT_CNT", 0x3200, 16, 4, 1, 11, 1, 1, .u32, .rw, 0, 0, 0, 0, 0xFFFFFFFF, 0⟩,
  ⟨"CND_OVR_CNT", 0x3200, 16, 4, 1, 12, 1, 1, .u32, .rw, 0, 0, 0, 0, 0xFFFFFFFF, 0⟩,
  ⟨"CND_EQ_KEY0", 0x3200, 16, 4, 1, 13, 1, 1, .u64, .rw, 0, 0xFFFFFFFFFFFFF, 0, 0, 0, 0⟩,
  ⟨"CND_EQ_KEY1", 0x3200, 16, 4, 1, 14, 1, 1, .u64, .rw, 0, 0xFFFFFFFFFFFFF, 0, 0, 0, 0⟩,
  ⟨"CND_EQ_TAP0", 0x3201, 16, 4, 1, 0, 1, 64, .c48, .rw, 0, 0xFFFFFFFFFFFF, 0, 0, 0, 0⟩,
  ⟨"CND_EQ_TAP1", 0x3202, 16, 4, 1, 0, 1, 64, .c48, .rw, 0, 0xFFFFFFFFFFFF, 0, 0, 0, 0⟩,
  ⟨"CND_IL_OFS_E", 0x3203, 16, 4, 1, 0, 1, 1, .i24, .rw, 0, 0xFFFFFF, 0, 0, 0, 0⟩,
  ⟨"CND_IL_OFS_O", 0x3203, 16, 4, 1, 1, 1, 1, .i24, .rw, 0, 0xFFFFFF, 0, 0, 0, 0⟩,
  ⟨"CND_IL_GAIN", 0x3203, 16, 4, 1, 2, 1, 1, .u32, .rw, 0x800000, 0xFFFFFF, 0, 0, 0, 0⟩,
  ⟨"CND_IL_EST_OFS", 0x3203, 16, 4, 1, 3, 1, 1, .i24, .ro, 0, 0, 0, 0, 0, 0⟩,
  ⟨"CND_IL_EST_GAIN", 0x3203, 16, 4, 1, 4, 1, 1, .u32, .ro, 0, 0, 0, 0, 0, 0⟩,
  ⟨"CND_IL_EST_SKEW", 0x3203, 16, 4, 1, 5, 1, 1, .i24, .ro, 0, 0, 0, 0, 0, 0⟩,
  ⟨"CND_IL_EST_BLOCKS", 0x3203, 16, 4, 1, 6, 1, 1, .u32, .ro, 0, 0, 0, 0, 0, 0⟩]

/-- Indices 0x3200 to 0x32FF, part 1 (spec/03_conditioning.md; R98). -/
def rows32_1 : List EntryRow := [
  ⟨"CND_IL_TAP", 0x3204, 16, 4, 1, 0, 1, 32, .i24, .rw, 0, 0xFFFFFF, 0, 0, 0, 0⟩]

/-- Indices 0x3200 to 0x32FF. -/
def rows32 : List EntryRow := rows32_0 ++ rows32_1

/-- Indices 0x4000 to 0x40FF (spec/04_spectral_engine.md; R132, R133). -/
def rows40 : List EntryRow := [
  ⟨"SPX_POOL", 0x4000, 1, 1, 1, 0, 1, 1, .u32, .ro, 0x8030, 0, 0, 0, 0, 0⟩,
  ⟨"SPX_USER_WIN", 0x4080, 1, 128, 1, 0, 1, 256, .u64, .rw, 0x80000000800000, 0xFFFFFF00FFFFFF, 0, 0, 0, 0⟩,
  ⟨"SPX_RES_CTL", 0x4008, 1, 8, 1, 0, 1, 1, .u32, .rw, 0, 7, 0, 0, 0, 6⟩,
  ⟨"SPX_RES_STS", 0x4008, 1, 8, 1, 1, 1, 1, .u32, .rw, 0, 0, 0, 0x180, 0, 0⟩,
  ⟨"SPX_RES_CFG", 0x4008, 1, 8, 1, 2, 1, 1, .u32, .rwd, 0x1EA, 0, 0x1FFFFF, 0, 0, 0⟩,
  ⟨"SPX_RES_WIN", 0x4008, 1, 8, 1, 3, 1, 1, .u32, .rw, 1, 0xFFFF000F, 0, 0, 0, 0⟩,
  ⟨"SPX_LM_OFS", 0x4008, 1, 8, 1, 4, 1, 1, .i24, .rw, 0, 0xFFFFFF, 0, 0, 0, 0⟩,
  ⟨"SPX_COL_CFG", 0x4008, 1, 8, 1, 5, 1, 1, .u32, .rw, 0xFFF, 0x1F7FFF, 0, 0, 0, 0⟩,
  ⟨"SPX_BIN_RANGE", 0x4008, 1, 8, 1, 6, 1, 1, .u64, .rw, 0xFFFFF00000, 0xFFFFFFFFFF, 0, 0, 0, 0⟩,
  ⟨"SPX_COMMIT_AT", 0x4008, 1, 8, 1, 7, 1, 1, .ts64, .rw, 0, 0xEFFFFFFFFFFFFFFF, 0, 0, 0, 0⟩,
  ⟨"SPX_SHADOW_GEN", 0x4008, 1, 8, 1, 8, 1, 1, .u32, .ro, 0, 0, 0, 0, 0, 0⟩,
  ⟨"SPX_HANDOVER_TS", 0x4008, 1, 8, 1, 9, 1, 1, .ts64, .ro, 0, 0, 0, 0, 0, 0⟩,
  ⟨"SPX_ORIGIN_TS", 0x4008, 1, 8, 1, 10, 1, 1, .ts64, .ro, 0, 0, 0, 0, 0, 0⟩,
  ⟨"SPX_SPEC_COUNT", 0x4008, 1, 8, 1, 11, 1, 1, .u64, .rw, 0, 0, 0, 0, 0xFFFFFFFFFFFFFFFF, 0⟩,
  ⟨"SPX_INVALID_COUNT", 0x4008, 1, 8, 1, 12, 1, 1, .u64, .rw, 0, 0, 0, 0, 0xFFFFFFFFFFFFFFFF, 0⟩,
  ⟨"SPX_SKIP_COUNT", 0x4008, 1, 8, 1, 13, 1, 1, .u64, .rw, 0, 0, 0, 0, 0xFFFFFFFFFFFFFFFF, 0⟩,
  ⟨"SPX_LAST_TS", 0x4008, 1, 8, 1, 14, 1, 1, .ts64, .ro, 0, 0, 0, 0, 0, 0⟩,
  ⟨"SPX_WIN_CG", 0x4008, 1, 8, 1, 15, 1, 1, .u32, .ro, 0, 0, 0, 0, 0, 0⟩,
  ⟨"SPX_WIN_ENBW", 0x4008, 1, 8, 1, 16, 1, 1, .u32, .ro, 0, 0, 0, 0, 0, 0⟩,
  ⟨"SPX_LATENCY", 0x4008, 1, 8, 1, 17, 1, 1, .u32, .ro, 0, 0, 0, 0, 0, 0⟩,
  ⟨"SPX_ALLOC", 0x4008, 1, 8, 1, 18, 1, 1, .u32, .ro, 0, 0, 0, 0, 0, 0⟩]

/-- Indices 0x4100 to 0x41FF, part 0 (spec/05_triggers.md; R168, R171, R173, R174). -/
def rows41_0 : List EntryRow := [
  ⟨"TRG_UNIT_CTL", 0x4100, 16, 4, 8, 0, 1, 1, .u32, .rw, 0, 7, 0, 0, 0, 0⟩,
  ⟨"TRG_UNIT_CFG", 0x4100, 16, 4, 8, 1, 1, 1, .u32, .rwd, 0, 0, 0x7F, 0, 0, 0⟩,
  ⟨"TRG_UNIT_PARAM", 0x4100, 16, 4, 8, 2, 1, 1, .u64, .rw, 0, 0xFFFFFFFFFFFF, 0, 0, 0, 0⟩,
  ⟨"TRG_UNIT_SPAN", 0x4100, 16, 4, 8, 3, 1, 1, .u64, .rw, 0, 0xFFFFFFFFFFFFFFFF, 0, 0, 0, 0⟩,
  ⟨"TRG_UNIT_HOLDOFF", 0x4100, 16, 4, 8, 4, 1, 1, .u32, .rw, 0, 0xFFFFFFFF, 0, 0, 0, 0⟩,
  ⟨"TRG_UNIT_STS", 0x4100, 16, 4, 8, 5, 1, 1, .u32, .rw, 0, 0, 0, 4, 0, 0⟩,
  ⟨"TRG_UNIT_COUNT", 0x4100, 16, 4, 8, 6, 1, 1, .u64, .rw, 0, 0, 0, 0, 0xFFFFFFFFFFFFFFFF, 0⟩,
  ⟨"TRG_UNIT_ABSORBED", 0x4100, 16, 4, 8, 7, 1, 1, .u32, .rw, 0, 0, 0, 0, 0xFFFFFFFF, 0⟩,
  ⟨"TRG_UNIT_LAST_TS", 0x4100, 16, 4, 8, 8, 1, 1, .ts64, .ro, 0, 0, 0, 0, 0, 0⟩,
  ⟨"TRG_UNIT_LAST_VALUE", 0x4100, 16, 4, 8, 9, 1, 1, .u32, .ro, 0, 0, 0, 0, 0, 0⟩,
  ⟨"TRG_CH_CTL", 0x4108, 16, 4, 1, 0, 1, 1, .u32, .rw, 0, 3, 0, 0, 0, 3⟩,
  ⟨"TRG_CH_STS", 0x4108, 16, 4, 1, 1, 1, 1, .u32, .rw, 0, 0, 0, 0x30, 0, 0⟩,
  ⟨"TRG_LAT_TD", 0x4108, 16, 4, 1, 2, 1, 1, .u32, .ro, 0x64, 0, 0, 0, 0, 0⟩,
  ⟨"TRG_LAT_FD_A", 0x4108, 16, 4, 1, 3, 1, 1, .u32, .ro, 0x4B0, 0, 0, 0, 0, 0⟩,
  ⟨"TRG_LAT_FD_B", 0x4108, 16, 4, 1, 4, 1, 1, .u32, .ro, 0x4B0, 0, 0, 0, 0, 0⟩,
  ⟨"TRG_INTAKE_LAG", 0x4108, 16, 4, 1, 5, 1, 1, .i48, .ro, 0, 0, 0, 0, 0, 0⟩,
  ⟨"TRG_COMMIT_AT", 0x4108, 16, 4, 1, 6, 1, 1, .ts64, .rw, 0, 0xEFFFFFFFFFFFFFFF, 0, 0, 0, 0⟩,
  ⟨"TRG_SHADOW_GEN", 0x4108, 16, 4, 1, 7, 1, 1, .u32, .ro, 0, 0, 0, 0, 0, 0⟩,
  ⟨"TRG_COUNT", 0x4108, 16, 4, 1, 8, 1, 1, .u64, .rw, 0, 0, 0, 0, 0xFFFFFFFFFFFFFFFF, 0⟩,
  ⟨"TRG_LATE_COUNT", 0x4108, 16, 4, 1, 9, 1, 1, .u32, .rw, 0, 0, 0, 0, 0xFFFFFFFF, 0⟩,
  ⟨"TRG_QUEUE", 0x4108, 16, 4, 1, 10, 1, 1, .u32, .rw, 0, 0x1FFFF, 0, 0, 0, 0⟩,
  ⟨"TRG_LAST_TS", 0x4108, 16, 4, 1, 11, 1, 1, .ts64, .ro, 0, 0, 0, 0, 0, 0⟩,
  ⟨"TRG_MASK", 0x4180, 1, 128, 1, 0, 1, 256, .u64, .rw, 0xFFFF0000FFFF0000, 0xFFFFFFFFFFFFFFFF, 0, 0, 0, 0⟩,
  ⟨"TRG_EXT_DLY", 0x4140, 1, 1, 1, 0, 1, 8, .i24, .rw, 0, 0xFFFFFF, 0, 0, 0, 0⟩]

/-- Indices 0x4100 to 0x41FF, part 1 (spec/05_triggers.md; R174). -/
def rows41_1 : List EntryRow := [
  ⟨"TRG_EXT_LEVEL", 0x4140, 1, 1, 1, 8, 1, 1, .u32, .ro, 0, 0, 0, 0, 0, 0⟩,
  ⟨"TRG_OUT_CFG", 0x4141, 1, 1, 1, 0, 1, 4, .u64, .rw, 0x64000, 0x10000001, 0xFFFFFFE, 0, 0, 0x10000000⟩,
  ⟨"TRG_PROV_STS", 0x4142, 1, 1, 1, 0, 1, 1, .u32, .rw, 0, 0, 0, 0x80, 0, 0⟩,
  ⟨"TRG_PROV_CONFIRMED", 0x4142, 1, 1, 1, 1, 1, 1, .u64, .rw, 0, 0, 0, 0, 0xFFFFFFFFFFFFFFFF, 0⟩,
  ⟨"TRG_PROV_CANCELLED", 0x4142, 1, 1, 1, 2, 1, 1, .u64, .rw, 0, 0, 0, 0, 0xFFFFFFFFFFFFFFFF, 0⟩,
  ⟨"TRG_PROV_EXPIRED", 0x4142, 1, 1, 1, 3, 1, 1, .u64, .rw, 0, 0, 0, 0, 0xFFFFFFFFFFFFFFFF, 0⟩,
  ⟨"TRG_PROV_REFUSED", 0x4142, 1, 1, 1, 4, 1, 1, .u64, .rw, 0, 0, 0, 0, 0xFFFFFFFFFFFFFFFF, 0⟩,
  ⟨"TRG_PROV_UNMATCHED", 0x4142, 1, 1, 1, 5, 1, 1, .u64, .rw, 0, 0, 0, 0, 0xFFFFFFFFFFFFFFFF, 0⟩]

/-- Indices 0x4100 to 0x41FF. -/
def rows41 : List EntryRow := rows41_0 ++ rows41_1

/-- Indices 0x4200 to 0x42FF, part 0 (spec/06_acquisition_sequencer.md; R201). -/
def rows42_0 : List EntryRow := [
  ⟨"SEQ_CTL", 0x4200, 16, 5, 1, 0, 1, 1, .u32, .rw, 0, 0xF, 0, 0, 0, 0xE⟩,
  ⟨"SEQ_CFG", 0x4200, 16, 5, 1, 1, 1, 1, .u32, .rwd, 0, 0, 0x1FFFFFF, 0, 0, 0⟩,
  ⟨"SEQ_STS", 0x4200, 16, 5, 1, 2, 1, 1, .u32, .ro, 0, 0, 0, 0, 0, 0⟩,
  ⟨"SEQ_PC", 0x4200, 16, 5, 1, 3, 1, 1, .u32, .ro, 0, 0, 0, 0, 0, 0⟩,
  ⟨"SEQ_CNT", 0x4200, 16, 5, 1, 4, 1, 4, .u64, .rw, 0, 0, 0, 0, 0xFFFFFFFFFFFF, 0⟩,
  ⟨"SEQ_CMP", 0x4200, 16, 5, 1, 8, 1, 4, .u64, .rw, 0, 0xFFFFFFFFFFFF, 0, 0, 0, 0⟩,
  ⟨"SEQ_TMR", 0x4200, 16, 5, 1, 12, 1, 1, .u64, .ro, 0, 0, 0, 0, 0, 0⟩,
  ⟨"SEQ_TMR_PRESET", 0x4200, 16, 5, 1, 13, 1, 1, .u64, .rw, 0, 0xFFFFFFFFFFFFFFFF, 0, 0, 0, 0⟩,
  ⟨"SEQ_LATCH", 0x4200, 16, 5, 1, 14, 1, 1, .u32, .ro, 0, 0, 0, 0, 0, 0⟩,
  ⟨"SEQ_TAKEN_TS", 0x4200, 16, 5, 1, 15, 1, 1, .ts64, .ro, 0, 0, 0, 0, 0, 0⟩,
  ⟨"SEQ_TAKEN_CC", 0x4200, 16, 5, 1, 16, 1, 1, .cc64, .ro, 0, 0, 0, 0, 0, 0⟩,
  ⟨"SEQ_TAKEN_INFO", 0x4200, 16, 5, 1, 17, 1, 1, .u32, .ro, 0, 0, 0, 0, 0, 0⟩,
  ⟨"SEQ_TRIG_MERGED", 0x4200, 16, 5, 1, 18, 1, 1, .u32, .rw, 0, 0, 0, 0, 0xFFFFFFFF, 0⟩,
  ⟨"SEQ_SWFLAG", 0x4200, 16, 5, 1, 19, 1, 1, .u32, .rw, 0, 0xF, 0, 0, 0, 0⟩,
  ⟨"SEQ_SIGNAL", 0x4200, 16, 5, 1, 20, 1, 1, .u32, .ro, 0, 0, 0, 0, 0, 0⟩,
  ⟨"SEQ_FAB_SEQ", 0x4200, 16, 5, 1, 21, 1, 1, .u32, .rw, 0, 0, 0, 0, 0xFFFF, 0⟩,
  ⟨"SEQ_FAB_LEAD", 0x4200, 16, 5, 1, 22, 1, 1, .u32, .rw, 0, 0xFFFFFFFF, 0, 0, 0, 0⟩,
  ⟨"SEQ_FAULT", 0x4200, 16, 5, 1, 23, 1, 1, .u32, .ro, 0, 0, 0, 0, 0, 0⟩,
  ⟨"SEQ_REQ", 0x4200, 16, 5, 1, 24, 1, 1, .u32, .rw, 0, 0xFF, 0, 0, 0, 0xF⟩,
  ⟨"SEQ_SAFE_MAX", 0x4200, 16, 5, 1, 25, 1, 1, .u32, .rw, 0, 0, 0, 0, 0xFFFFFFFF, 0⟩,
  ⟨"SEQ_SHADOW_GEN", 0x4200, 16, 5, 1, 26, 1, 1, .u32, .ro, 0, 0, 0, 0, 0, 0⟩,
  ⟨"SEQ_HANDOVER_TS", 0x4200, 16, 5, 1, 27, 1, 1, .ts64, .ro, 0, 0, 0, 0, 0, 0⟩,
  ⟨"SEQ_CAP_IGNORED", 0x4200, 16, 5, 1, 28, 1, 1, .u32, .rw, 0, 0, 0, 0, 0xFFFFFFFF, 0⟩,
  ⟨"SEQ_TAG_DROPPED", 0x4200, 16, 5, 1, 29, 1, 1, .u32, .rw, 0, 0, 0, 0, 0xFFFFFFFF, 0⟩]

/-- Indices 0x4200 to 0x42FF, part 1 (spec/06_acquisition_sequencer.md; R203). -/
def rows42_1 : List EntryRow := [
  ⟨"SEQ_MICRO", 0x4280, 24, 5, 16, 0, 1, 256, .u32, .rw, 0, 0xFFFFFFFF, 0, 0, 0, 0⟩,
  ⟨"SEQ_NANO", 0x4290, 24, 5, 8, 0, 1, 256, .u64, .rw, 0, 0xFFFFFFFFFFFFFFFF, 0, 0, 0, 0⟩]

/-- Indices 0x4200 to 0x42FF. -/
def rows42 : List EntryRow := rows42_0 ++ rows42_1

/-- Indices 0x4300 to 0x43FF (spec/01_architecture.md, spec/07_records.md; R30, R225). -/
def rows43 : List EntryRow := [
  ⟨"ACQ_EB_LEVEL", 0x43F0, 1, 4, 1, 0, 1, 1, .u32, .ro, 0, 0, 0, 0, 0, 0⟩,
  ⟨"ACQ_EB_PEAK", 0x43F0, 1, 4, 1, 1, 1, 1, .u32, .rw, 0, 0xFFFFFFFF, 0, 0, 0, 0⟩,
  ⟨"ACQ_EB_DISCARDS", 0x43F0, 1, 4, 1, 2, 1, 1, .u32, .rw, 0, 0, 0, 0, 0xFFFFFFFF, 0⟩,
  ⟨"ACQ_EB_GAP_FIRST", 0x43F0, 1, 4, 1, 3, 1, 1, .ts64, .ro, 0, 0, 0, 0, 0, 0⟩,
  ⟨"ACQ_EB_GAP_RESUME", 0x43F0, 1, 4, 1, 4, 1, 1, .ts64, .ro, 0, 0, 0, 0, 0, 0⟩,
  ⟨"ACQ_CTL", 0x4300, 16, 4, 1, 0, 1, 1, .u32, .rw, 0, 3, 0, 0, 0, 0⟩,
  ⟨"ACQ_CFG", 0x4300, 16, 4, 1, 1, 1, 1, .u32, .rwd, 0xA0, 0, 0x7FF, 0, 0, 0⟩,
  ⟨"ACQ_RING", 0x4300, 16, 4, 1, 2, 1, 1, .u64, .rwd, 0x10, 0, 0xFFFFFFFFF03F, 0, 0, 0⟩,
  ⟨"ACQ_PRE_LEN", 0x4300, 16, 4, 1, 3, 1, 1, .u64, .rw, 0, 0xFFFFFFFFFFFF, 0, 0, 0, 0⟩,
  ⟨"ACQ_POST_LEN", 0x4300, 16, 4, 1, 4, 1, 1, .u64, .rw, 0, 0xFFFFFFFFFFFF, 0, 0, 0, 0⟩,
  ⟨"ACQ_NOTE_MAX", 0x4300, 16, 4, 1, 5, 1, 1, .u32, .rwd, 0x40, 0, 0xFFFF, 0, 0, 0⟩,
  ⟨"ACQ_PUB", 0x4300, 16, 4, 1, 6, 1, 1, .u64, .ro, 0, 0, 0, 0, 0, 0⟩,
  ⟨"ACQ_REL", 0x4300, 16, 4, 1, 7, 1, 1, .u64, .rw, 0, 0xFFFFFFFFFFFFFFFF, 0, 0, 0, 0⟩,
  ⟨"ACQ_SEQ_NEXT", 0x4300, 16, 4, 1, 8, 1, 1, .u64, .rwd, 0, 0, 0xFFFFFFFFFFFFFFFF, 0, 0, 0⟩,
  ⟨"ACQ_STS", 0x4300, 16, 4, 1, 9, 1, 1, .u32, .rw, 0, 0, 0, 0x70, 0, 0⟩,
  ⟨"ACQ_LAST_TS", 0x4300, 16, 4, 1, 10, 1, 1, .ts64, .ro, 0, 0, 0, 0, 0, 0⟩,
  ⟨"ACQ_NOTES_LOST", 0x4300, 16, 4, 1, 11, 1, 1, .u32, .rw, 0, 0, 0, 0, 0xFFFFFFFF, 0⟩,
  ⟨"ACQ_CLAMPED", 0x4300, 16, 4, 1, 12, 1, 1, .u32, .rw, 0, 0, 0, 0, 0xFFFFFFFF, 0⟩]

/-- Indices 0x4400 to 0x44FF, part 0 (spec/08_canopy_density.md; R250). -/
def rows44_0 : List EntryRow := [
  ⟨"CAN_CTL", 0x4400, 16, 4, 1, 0, 1, 1, .u32, .rw, 0, 0x1F, 0, 0, 0, 0x16⟩,
  ⟨"CAN_CFG", 0x4400, 16, 4, 1, 1, 1, 1, .u32, .rwd, 0x7E00002, 0, 0x7FFFFFF, 0, 0, 0⟩,
  ⟨"CAN_STS", 0x4400, 16, 4, 1, 2, 1, 1, .u32, .rw, 0, 0, 0, 0x700, 0, 0⟩,
  ⟨"CAN_DECAY", 0x4400, 16, 4, 1, 3, 1, 1, .u32, .rw, 0, 0xFFFF, 0, 0, 0, 0⟩,
  ⟨"CAN_DECAY_PERIOD", 0x4400, 16, 4, 1, 4, 1, 1, .u32, .rwd, 0x411B, 0, 0xFFFFFFFF, 0, 0, 0⟩,
  ⟨"CAN_COUNTED", 0x4400, 16, 4, 1, 5, 1, 1, .u64, .rw, 0, 0, 0, 0, 0xFFFFFFFFFFFFFFFF, 0⟩,
  ⟨"CAN_DECAYS", 0x4400, 16, 4, 1, 6, 1, 1, .u64, .rw, 0, 0, 0, 0, 0xFFFFFFFFFFFFFFFF, 0⟩,
  ⟨"CAN_INVALID", 0x4400, 16, 4, 1, 7, 1, 1, .u64, .rw, 0, 0, 0, 0, 0xFFFFFFFFFFFFFFFF, 0⟩,
  ⟨"CAN_HELD", 0x4400, 16, 4, 1, 8, 1, 1, .u64, .rw, 0, 0, 0, 0, 0xFFFFFFFFFFFFFFFF, 0⟩,
  ⟨"CAN_OUT_LOW", 0x4400, 16, 4, 1, 9, 1, 1, .u64, .rw, 0, 0, 0, 0, 0xFFFFFFFFFFFFFFFF, 0⟩,
  ⟨"CAN_OUT_HIGH", 0x4400, 16, 4, 1, 10, 1, 1, .u64, .rw, 0, 0, 0, 0, 0xFFFFFFFFFFFFFFFF, 0⟩,
  ⟨"CAN_DECAY_MISSED", 0x4400, 16, 4, 1, 11, 1, 1, .u32, .rw, 0, 0, 0, 0, 0xFFFFFFFF, 0⟩,
  ⟨"CAN_CLEAR_TS", 0x4400, 16, 4, 1, 12, 1, 1, .ts64, .ro, 0, 0, 0, 0, 0, 0⟩,
  ⟨"CAN_LAST_TS", 0x4400, 16, 4, 1, 13, 1, 1, .ts64, .ro, 0, 0, 0, 0, 0, 0⟩,
  ⟨"CAN_SHADOW_GEN", 0x4400, 16, 4, 1, 14, 1, 1, .u32, .ro, 0, 0, 0, 0, 0, 0⟩,
  ⟨"CAN_SNAP_ADDR", 0x4400, 16, 4, 1, 15, 1, 1, .u64, .rw, 0, 0xFFFFFFFFFFC0, 0, 0, 0, 0⟩,
  ⟨"CAN_SNAP_WIN", 0x4400, 16, 4, 1, 16, 1, 1, .u64, .rw, 0xFFC00FFF000, 0xFFFFFFFFFFF, 0, 0, 0, 0⟩,
  ⟨"CAN_USE", 0x4400, 16, 4, 1, 17, 1, 1, .u32, .ro, 0, 0, 0, 0, 0, 0⟩,
  ⟨"CAN_REGION", 0x4401, 16, 4, 1, 0, 2, 8, .u64, .rw, 0, 0x3FFFFFFFFFFF, 0, 0, 0, 0⟩,
  ⟨"CAN_REGION_THR", 0x4401, 16, 4, 1, 1, 2, 8, .u32, .rw, 0, 0xFFFFFF, 0, 0, 0, 0⟩,
  ⟨"SPG_CTL", 0x4402, 16, 4, 1, 0, 1, 1, .u32, .rw, 0, 1, 0, 0, 0, 0⟩,
  ⟨"SPG_CFG", 0x4402, 16, 4, 1, 1, 1, 1, .u32, .rwd, 0, 0, 0xFFFFF, 0, 0, 0⟩,
  ⟨"SPG_RING", 0x4402, 16, 4, 1, 2, 1, 1, .u64, .rwd, 0x80000000000000, 0, 0xFFFFFFFFFFFFFFDF, 0, 0, 0⟩,
  ⟨"SPG_HEAD", 0x4402, 16, 4, 1, 3, 1, 1, .u64, .rwd, 0, 0, 0xFFFFFFFFFFFFFFFF, 0, 0, 0⟩]

/-- Indices 0x4400 to 0x44FF, part 1 (spec/08_canopy_density.md; R250). -/
def rows44_1 : List EntryRow := [
  ⟨"SPG_DROPPED", 0x4402, 16, 4, 1, 4, 1, 1, .u64, .rw, 0, 0, 0, 0, 0xFFFFFFFFFFFFFFFF, 0⟩,
  ⟨"SPG_STS", 0x4402, 16, 4, 1, 5, 1, 1, .u32, .rw, 0, 0, 0, 6, 0, 0⟩,
  ⟨"SPG_LAST_TS", 0x4402, 16, 4, 1, 6, 1, 1, .ts64, .ro, 0, 0, 0, 0, 0, 0⟩]

/-- Indices 0x4400 to 0x44FF. -/
def rows44 : List EntryRow := rows44_0 ++ rows44_1

/-- Indices 0x4500 to 0x45FF, part 0 (spec/09_display.md; R272). SCN_BG keeps its bits [31:30].
(DESIGN CHOICE, log entry 69.) -/
def rows45_0 : List EntryRow := [
  ⟨"SCN_CTL", 0x4500, 1, 1, 1, 0, 1, 1, .u32, .rw, 0, 0x1FFF, 0, 0, 0, 0xFFE⟩,
  ⟨"SCN_CFG", 0x4500, 1, 1, 1, 1, 1, 1, .u32, .rwd, 0x301F, 0, 0x7FFF, 0, 0, 0⟩,
  ⟨"SCN_STS", 0x4500, 1, 1, 1, 2, 1, 1, .u32, .rw, 0, 0, 0, 0x400, 0, 0⟩,
  ⟨"SCN_H_TIMING", 0x4500, 1, 1, 1, 3, 1, 1, .u64, .rwd, 0x8082002000300F00, 0, 0x83FF03FF03FF1FFF, 0, 0, 0⟩,
  ⟨"SCN_V_TIMING", 0x4500, 1, 1, 1, 4, 1, 1, .u64, .rwd, 0x8036000500030870, 0, 0x83FF03FF03FF1FFF, 0, 0, 0⟩,
  ⟨"SCN_PIXCLK", 0x4500, 1, 1, 1, 5, 1, 1, .u32, .rwd, 0x83D60, 0, 0xFFFFFFFF, 0, 0, 0⟩,
  ⟨"SCN_FRAME", 0x4500, 1, 1, 1, 6, 1, 1, .u64, .rw, 0, 0, 0, 0, 0xFFFFFFFFFFFF, 0⟩,
  ⟨"SCN_FLIP_TS", 0x4500, 1, 1, 1, 7, 1, 1, .ts64, .ro, 0, 0, 0, 0, 0, 0⟩,
  ⟨"SCN_FLIP_CC", 0x4500, 1, 1, 1, 8, 1, 1, .cc64, .ro, 0, 0, 0, 0, 0, 0⟩,
  ⟨"SCN_FLIP_FRAME", 0x4500, 1, 1, 1, 9, 1, 1, .u64, .ro, 0, 0, 0, 0, 0, 0⟩,
  ⟨"SCN_SHADOW_GEN", 0x4500, 1, 1, 1, 10, 1, 1, .u32, .ro, 0, 0, 0, 0, 0, 0⟩,
  ⟨"SCN_BG", 0x4500, 1, 1, 1, 11, 1, 1, .u32, .rw, 0, 0xFFFFFFFF, 0, 0, 0, 0⟩,
  ⟨"SCN_PLOT_RECT", 0x4500, 1, 1, 1, 12, 1, 1, .u64, .rw, 0x86FEFF000000, 0xFFFFFFFFFFFF, 0, 0, 0, 0⟩,
  ⟨"SCN_DENS_CFG", 0x4500, 1, 1, 1, 13, 1, 1, .u32, .rw, 0x3FF00000, 0x3FFFFFFF, 0, 0, 0, 0⟩,
  ⟨"SCN_OVL_ADDR", 0x4500, 1, 1, 1, 14, 1, 1, .u64, .rw, 0, 0xFFFFFFFFFFC0, 0, 0, 0, 0⟩,
  ⟨"SCN_OVL_CFG", 0x4500, 1, 1, 1, 15, 1, 1, .u32, .rw, 0xF00, 0xFFFFF, 0, 0, 0, 0⟩,
  ⟨"SCN_OVL_RECT", 0x4500, 1, 1, 1, 16, 1, 1, .u64, .rw, 0x86FEFF000000, 0xFFFFFFFFFFFF, 0, 0, 0, 0⟩,
  ⟨"SCN_UNDERRUN", 0x4500, 1, 1, 1, 17, 1, 1, .u32, .rw, 0, 0, 0, 0, 0xFFFFFFFF, 0⟩,
  ⟨"SCN_GL_ERR", 0x4500, 1, 1, 1, 18, 1, 1, .i24, .ro, 0, 0, 0, 0, 0, 0⟩,
  ⟨"SCN_PIX_ADJ", 0x4500, 1, 1, 1, 19, 1, 1, .i24, .ro, 0, 0, 0, 0, 0, 0⟩,
  ⟨"SCN_RETRAINS", 0x4500, 1, 1, 1, 20, 1, 1, .u32, .rw, 0, 0, 0, 0, 0xFFFFFFFF, 0⟩,
  ⟨"SCN_FRAMES_LOST", 0x4500, 1, 1, 1, 21, 1, 1, .u32, .rw, 0, 0, 0, 0, 0xFFFFFFFF, 0⟩,
  ⟨"SCN_GL_OFS", 0x4500, 1, 1, 1, 22, 1, 1, .u32, .rw, 0, 0xFFFFFF, 0, 0, 0, 0⟩,
  ⟨"SCN_TRACE", 0x4501, 1, 1, 1, 0, 2, 8, .u64, .rw, 0, 0xFFFFFFFFFFFFFFF, 0, 0, 0, 0⟩]

/-- Indices 0x4500 to 0x45FF, part 1 (spec/09_display.md; R272). -/
def rows45_1 : List EntryRow := [
  ⟨"SCN_TRACE_BUF", 0x4501, 1, 1, 1, 1, 2, 8, .u64, .rw, 0, 0xFFFFFFFFFFC0, 0, 0, 0, 0⟩,
  ⟨"SCN_CT0", 0x4502, 1, 2, 1, 0, 1, 256, .u64, .rw, 0, 0x3FFFFFFF3FFFFFFF, 0, 0, 0, 0⟩,
  ⟨"SCN_CT1", 0x4504, 1, 2, 1, 0, 1, 256, .u64, .rw, 0, 0x3FFFFFFF3FFFFFFF, 0, 0, 0, 0⟩]

/-- Indices 0x4500 to 0x45FF. -/
def rows45 : List EntryRow := rows45_0 ++ rows45_1

/-- Indices 0x5000 to 0x50FF (spec/10_lantern_dsp.md; R309). -/
def rows50 : List EntryRow := [
  ⟨"LNT_CTL", 0x5000, 1, 32, 1, 0, 1, 1, .u32, .rw, 0, 7, 0, 0, 0, 6⟩,
  ⟨"LNT_STS", 0x5000, 1, 32, 1, 1, 1, 1, .u32, .ro, 0, 0, 0, 0, 0, 0⟩,
  ⟨"LNT_PC", 0x5000, 1, 32, 1, 2, 1, 1, .u32, .ro, 0, 0, 0, 0, 0, 0⟩,
  ⟨"LNT_SR", 0x5000, 1, 32, 1, 3, 1, 1, .u32, .ro, 0, 0, 0, 0, 0, 0⟩,
  ⟨"LNT_TASK_LIMIT", 0x5000, 1, 32, 1, 4, 1, 1, .u32, .rw, 0, 0xFFFFFFFF, 0, 0, 0, 0⟩,
  ⟨"LNT_TASK_SEQ", 0x5000, 1, 32, 1, 5, 1, 1, .u32, .ro, 0, 0, 0, 0, 0, 0⟩,
  ⟨"LNT_TASKS", 0x5000, 1, 32, 1, 6, 1, 1, .u64, .rw, 0, 0, 0, 0, 0xFFFFFFFFFFFFFFFF, 0⟩,
  ⟨"LNT_BUSY", 0x5000, 1, 32, 1, 7, 1, 1, .u64, .rw, 0, 0, 0, 0, 0xFFFFFFFFFFFFFFFF, 0⟩,
  ⟨"LNT_FAULT_TS", 0x5000, 1, 32, 1, 8, 1, 1, .ts64, .ro, 0, 0, 0, 0, 0, 0⟩,
  ⟨"LNT_MEM_CORR", 0x5000, 1, 32, 1, 9, 1, 1, .u32, .rw, 0, 0, 0, 0, 0xFFFFFFFF, 0⟩,
  ⟨"LNT_XFER_ERR", 0x5000, 1, 32, 1, 10, 1, 1, .u32, .rw, 0, 0, 0, 0, 0xFFFFFFFF, 0⟩,
  ⟨"LNT_QF_COUNT", 0x5000, 1, 32, 1, 11, 1, 1, .u32, .rw, 0, 0, 0, 0, 0xFFFFFFFF, 0⟩,
  ⟨"LNT_POOL_CTL", 0x5020, 1, 8, 1, 0, 1, 1, .u32, .rw, 0, 1, 0, 0, 0, 0⟩,
  ⟨"LNT_POOL_CFG", 0x5020, 1, 8, 1, 1, 1, 1, .u64, .rwd, 0x40000000000, 0, 0x3FFFFFFFFFFFF, 0, 0, 0⟩,
  ⟨"LNT_POOL_MEMBERS", 0x5020, 1, 8, 1, 2, 1, 1, .u32, .rwd, 0, 0, 0xFFFFFFFF, 0, 0, 0⟩,
  ⟨"LNT_POOL_NEXT_SEQ", 0x5020, 1, 8, 1, 3, 1, 1, .u32, .rwd, 0, 0, 0xFFFFFFFF, 0, 0, 0⟩,
  ⟨"LNT_POOL_DONE_SEQ", 0x5020, 1, 8, 1, 4, 1, 1, .u32, .ro, 0, 0, 0, 0, 0, 0⟩,
  ⟨"LNT_POOL_HELD", 0x5020, 1, 8, 1, 5, 1, 1, .u32, .ro, 0, 0, 0, 0, 0, 0⟩,
  ⟨"LNT_POOL_RETRIES", 0x5020, 1, 8, 1, 6, 1, 1, .u32, .rw, 0, 0, 0, 0, 0xFFFFFFFF, 0⟩,
  ⟨"LNT_POOL_DEAD", 0x5020, 1, 8, 1, 7, 1, 1, .u32, .rw, 0, 0, 0, 0, 0xFFFFFFFF, 0⟩,
  ⟨"LNT_POOL_DEAD_SEQ", 0x5020, 1, 8, 1, 8, 1, 1, .u32, .ro, 0, 0, 0, 0, 0, 0⟩]

/-- Indices 0x5100 to 0x51FF (spec/11_time_interval.md; R339). -/
def rows51 : List EntryRow := [
  ⟨"TIM_CTL", 0x5100, 1, 64, 1, 0, 1, 1, .u32, .rw, 0, 0xF, 0, 0, 0, 8⟩,
  ⟨"TIM_STS", 0x5100, 1, 64, 1, 1, 1, 1, .u32, .rw, 0, 0, 0, 0x1F0, 0, 0⟩,
  ⟨"TIM_DLY", 0x5100, 1, 64, 1, 2, 1, 1, .i24, .rw, 0, 0xFFFFFF, 0, 0, 0, 0⟩,
  ⟨"TIM_MERGED", 0x5100, 1, 64, 1, 3, 1, 1, .u32, .rw, 0, 0, 0, 0, 0xFFFFFFFF, 0⟩,
  ⟨"TIM_RANGE_ERR", 0x5100, 1, 64, 1, 4, 1, 1, .u32, .rw, 0, 0, 0, 0, 0xFFFFFFFF, 0⟩,
  ⟨"TIM_CAL_GEN", 0x5100, 1, 64, 1, 5, 1, 1, .u32, .ro, 0, 0, 0, 0, 0, 0⟩,
  ⟨"TIM_CAL_TS", 0x5100, 1, 64, 1, 6, 1, 1, .ts64, .ro, 0, 0, 0, 0, 0, 0⟩,
  ⟨"TIM_REF_SPAN", 0x5100, 1, 64, 1, 7, 1, 1, .u32, .ro, 0, 0, 0, 0, 0, 0⟩,
  ⟨"TIM_TRIM", 0x5100, 1, 64, 1, 8, 1, 1, .u32, .rw, 0x80, 0xFF, 0, 0, 0, 0⟩,
  ⟨"TIM_S_CFG", 0x5100, 1, 64, 1, 16, 16, 2, .u32, .rwd, 0, 0, 0x3FFF, 0, 0, 0⟩,
  ⟨"TIM_S_RING", 0x5100, 1, 64, 1, 17, 16, 2, .u64, .rwd, 0xC, 0, 0xFFFFFFFFF03F, 0, 0, 0⟩,
  ⟨"TIM_S_PUB", 0x5100, 1, 64, 1, 18, 16, 2, .u64, .ro, 0, 0, 0, 0, 0, 0⟩,
  ⟨"TIM_S_REL", 0x5100, 1, 64, 1, 19, 16, 2, .u64, .rw, 0, 0xFFFFFFFFFFFFFFFF, 0, 0, 0, 0⟩,
  ⟨"TIM_S_QUEUE", 0x5100, 1, 64, 1, 20, 16, 2, .u32, .rwd, 0, 0, 0xFFFF, 0, 0, 0⟩,
  ⟨"TIM_S_PARAM", 0x5100, 1, 64, 1, 21, 16, 2, .u64, .rwd, 0, 0, 0xFFFFFFFF, 0, 0, 0⟩,
  ⟨"TIM_S_COUNT", 0x5100, 1, 64, 1, 22, 16, 2, .u64, .rw, 0, 0, 0, 0, 0xFFFFFFFFFFFFFFFF, 0⟩,
  ⟨"TIM_S_LOST", 0x5100, 1, 64, 1, 23, 16, 2, .u64, .rw, 0, 0, 0, 0, 0xFFFFFFFFFFFFFFFF, 0⟩,
  ⟨"TIM_S_ORPHAN", 0x5100, 1, 64, 1, 24, 16, 2, .u32, .rw, 0, 0, 0, 0, 0xFFFFFFFF, 0⟩,
  ⟨"TIM_S_UNPAIRED", 0x5100, 1, 64, 1, 25, 16, 2, .u32, .rw, 0, 0, 0, 0, 0xFFFFFFFF, 0⟩,
  ⟨"TIM_S_LAST", 0x5100, 1, 64, 1, 26, 16, 2, .ts64, .ro, 0, 0, 0, 0, 0, 0⟩,
  ⟨"TIM_S_LEVEL", 0x5100, 1, 64, 1, 27, 16, 2, .u32, .ro, 0, 0, 0, 0, 0, 0⟩,
  ⟨"TIM_INL", 0x5180, 1, 64, 1, 0, 1, 64, .u64, .rwd, 0, 0, 0xFFFFFFFFFFFFFFFF, 0, 0, 0⟩,
  ⟨"TIM_INL_CFG", 0x5140, 1, 1, 1, 0, 1, 1, .u32, .rw, 0x19A0014, 0xFFF001F, 0, 0, 0, 0⟩,
  ⟨"TIM_STAMPS", 0x5140, 1, 1, 1, 1, 1, 1, .u64, .rw, 0, 0, 0, 0, 0xFFFFFFFFFFFFFFFF, 0⟩]

/-- Indices 0x5200 to 0x52FF (spec/11_time_interval.md, spec/13_supply_converters.md; R341, R376). -/
def rows52 : List EntryRow := [
  ⟨"CMP_THR", 0x5200, 1, 64, 1, 0, 1, 1, .u32, .rw, 0, 0x3FFF3FFF, 0, 0, 0, 0⟩,
  ⟨"CMP_HYST", 0x5200, 1, 64, 1, 1, 1, 1, .u32, .rw, 0, 0x3F3F, 0, 0, 0, 0⟩,
  ⟨"CMP_STS", 0x5200, 1, 64, 1, 2, 1, 1, .u32, .rw, 0x30, 0, 0, 0xC0, 0, 0⟩,
  ⟨"CMP_CTL", 0x5200, 1, 64, 1, 3, 1, 1, .u32, .rw, 0, 1, 0, 0, 0, 0⟩,
  ⟨"CMP_BELOW_COUNT", 0x5200, 1, 64, 1, 4, 1, 1, .u32, .rw, 0, 0, 0, 0, 0xFFFFFFFF, 0⟩,
  ⟨"CMP_ABOVE_COUNT", 0x5200, 1, 64, 1, 5, 1, 1, .u32, .rw, 0, 0, 0, 0, 0xFFFFFFFF, 0⟩,
  ⟨"CMP_MON_CTL", 0x5240, 1, 16, 1, 0, 1, 1, .u32, .rw, 0, 3, 0, 0, 0, 0⟩,
  ⟨"CMP_MON_CFG", 0x5240, 1, 16, 1, 1, 1, 1, .u32, .rwd, 0, 0, 0x3F, 0, 0, 0⟩,
  ⟨"CMP_MON_THR", 0x5240, 1, 16, 1, 2, 1, 1, .u32, .rw, 0xFFF000, 0x1FFFFFFF, 0, 0, 0, 0⟩,
  ⟨"CMP_MON_STS", 0x5240, 1, 16, 1, 3, 1, 1, .u32, .rw, 0, 0, 0, 0xC, 0, 0⟩,
  ⟨"CMP_MON_LOW_COUNT", 0x5240, 1, 16, 1, 4, 1, 1, .u32, .rw, 0, 0, 0, 0, 0xFFFFFFFF, 0⟩,
  ⟨"CMP_MON_HIGH_COUNT", 0x5240, 1, 16, 1, 5, 1, 1, .u32, .rw, 0, 0, 0, 0, 0xFFFFFFFF, 0⟩,
  ⟨"CMP_MON_UNDET_COUNT", 0x5240, 1, 16, 1, 6, 1, 1, .u32, .rw, 0, 0, 0, 0, 0xFFFFFFFF, 0⟩,
  ⟨"CMP_MON_LAST_TS", 0x5240, 1, 16, 1, 7, 1, 1, .ts64, .ro, 0, 0, 0, 0, 0, 0⟩,
  ⟨"CMP_MON_TICK", 0x5250, 1, 1, 1, 0, 1, 1, .u32, .rwd, 0x64, 0, 0xFFFFFFFF, 0, 0, 0⟩]

/-- Indices 0x5300 to 0x53FF, part 0 (spec/13_supply_converters.md; R373, R375). -/
def rows53_0 : List EntryRow := [
  ⟨"SUP_G_CTL", 0x5300, 1, 16, 1, 0, 1, 1, .u32, .rw, 0, 7, 0, 0, 0, 2⟩,
  ⟨"SUP_G_CFG", 0x5300, 1, 16, 1, 1, 1, 1, .u32, .rwd, 0, 0, 0x3FFF, 0, 0, 0⟩,
  ⟨"SUP_G_STS", 0x5300, 1, 16, 1, 2, 1, 1, .u32, .rw, 0, 0, 0, 0x38, 0, 0⟩,
  ⟨"SUP_G_DELAY", 0x5300, 1, 16, 1, 3, 1, 1, .u32, .rw, 0, 0xFFFFFF, 0, 0, 0, 0⟩,
  ⟨"SUP_G_TIMER", 0x5300, 1, 16, 1, 4, 1, 1, .u32, .rwd, 0x2625A0, 0, 0xFFFFFFFF, 0, 0, 0⟩,
  ⟨"SUP_G_PW", 0x5300, 1, 16, 1, 5, 1, 1, .u64, .rwd, 0, 0, 0xFFFFFFFFFFFFFFFF, 0, 0, 0⟩,
  ⟨"SUP_G_TS", 0x5300, 1, 16, 1, 6, 1, 1, .ts64, .ro, 0, 0, 0, 0, 0, 0⟩,
  ⟨"SUP_G_CC", 0x5300, 1, 16, 1, 7, 1, 1, .cc64, .ro, 0xFFFFFFFFFFFFFFFF, 0, 0, 0, 0, 0⟩,
  ⟨"SUP_G_STARTED", 0x5300, 1, 16, 1, 8, 1, 1, .u32, .rw, 0, 0, 0, 0, 0xFFFFFFFF, 0⟩,
  ⟨"SUP_G_DONE_SEQ", 0x5300, 1, 16, 1, 9, 1, 1, .u32, .ro, 0, 0, 0, 0, 0, 0⟩,
  ⟨"SUP_G_OVERRUN", 0x5300, 1, 16, 1, 10, 1, 1, .u32, .rw, 0, 0, 0, 0, 0xFFFFFFFF, 0⟩,
  ⟨"SUP_G_TRIG_TS", 0x5300, 1, 16, 1, 11, 1, 1, .ts64, .ro, 0, 0, 0, 0, 0, 0⟩,
  ⟨"SUP_SEQ", 0x5310, 1, 16, 1, 0, 1, 32, .u32, .rwd, 0, 0, 0x7F, 0, 0, 0⟩,
  ⟨"SUP_RESULT", 0x5320, 1, 16, 1, 0, 1, 32, .u32, .ro, 0, 0, 0, 0, 0, 0⟩,
  ⟨"SUP_IC_CTL", 0x5340, 1, 4, 1, 0, 1, 1, .u32, .rw, 0, 7, 0, 0, 0, 2⟩,
  ⟨"SUP_IC_CFG", 0x5340, 1, 4, 1, 1, 1, 1, .u32, .rwd, 0, 0, 0x7FFFF, 0, 0, 0⟩,
  ⟨"SUP_IC_STS", 0x5340, 1, 4, 1, 2, 1, 1, .u32, .rw, 0, 0, 0, 0x38, 0, 0⟩,
  ⟨"SUP_IC_DELAY", 0x5340, 1, 4, 1, 3, 1, 1, .u32, .rw, 0, 0xFFFFFF, 0, 0, 0, 0⟩,
  ⟨"SUP_IC_TIMER", 0x5340, 1, 4, 1, 4, 1, 1, .u32, .rwd, 0x2FAF080, 0, 0xFFFFFFFF, 0, 0, 0⟩,
  ⟨"SUP_IC_PW", 0x5340, 1, 4, 1, 5, 1, 1, .u64, .rwd, 0, 0, 0xFFFFFFFFFFFFFFFF, 0, 0, 0⟩,
  ⟨"SUP_IC_LEN", 0x5340, 1, 4, 1, 6, 1, 1, .u32, .rwd, 1, 0, 0xFFFFFFFF, 0, 0, 0⟩,
  ⟨"SUP_IC_RESULT", 0x5340, 1, 4, 1, 7, 1, 1, .u32, .ro, 0, 0, 0, 0, 0, 0⟩,
  ⟨"SUP_IC_START_TS", 0x5340, 1, 4, 1, 8, 1, 1, .ts64, .ro, 0, 0, 0, 0, 0, 0⟩,
  ⟨"SUP_IC_END_TS", 0x5340, 1, 4, 1, 9, 1, 1, .ts64, .ro, 0, 0, 0, 0, 0, 0⟩]

/-- Indices 0x5300 to 0x53FF, part 1 (spec/13_supply_converters.md; R375). -/
def rows53_1 : List EntryRow := [
  ⟨"SUP_IC_START_CC", 0x5340, 1, 4, 1, 10, 1, 1, .cc64, .ro, 0xFFFFFFFFFFFFFFFF, 0, 0, 0, 0, 0⟩,
  ⟨"SUP_IC_GEN", 0x5340, 1, 4, 1, 11, 1, 1, .u32, .ro, 0, 0, 0, 0, 0, 0⟩,
  ⟨"SUP_IC_OVERRUN", 0x5340, 1, 4, 1, 12, 1, 1, .u32, .rw, 0, 0, 0, 0, 0xFFFFFFFF, 0⟩]

/-- Indices 0x5300 to 0x53FF. -/
def rows53 : List EntryRow := rows53_0 ++ rows53_1

/-- Indices 0x6000 to 0x60FF (spec/14_memory.md; R402). -/
def rows60 : List EntryRow := [
  ⟨"MEM_CTL", 0x6000, 1, 1, 1, 0, 1, 1, .u32, .rw, 0, 0xF, 0, 0, 0, 2⟩,
  ⟨"MEM_CFG", 0x6000, 1, 1, 1, 1, 1, 1, .u32, .rwd, 0x42, 0, 0x7F, 0, 0, 0⟩,
  ⟨"MEM_STS", 0x6000, 1, 1, 1, 2, 1, 1, .u32, .rw, 0, 0, 0, 0x4000, 0, 0⟩,
  ⟨"MEM_SIZE", 0x6000, 1, 1, 1, 3, 1, 1, .u64, .ro, 0, 0, 0, 0, 0, 0⟩,
  ⟨"MEM_RATE_REQ", 0x6000, 1, 1, 1, 4, 1, 1, .u32, .rw, 0, 0x8000001F, 0, 0, 0, 0x80000000⟩,
  ⟨"MEM_ERR_ADDR", 0x6000, 1, 1, 1, 5, 1, 1, .u64, .ro, 0, 0, 0, 0, 0, 0⟩,
  ⟨"MEM_ERR_TS", 0x6000, 1, 1, 1, 6, 1, 1, .ts64, .ro, 0, 0, 0, 0, 0, 0⟩,
  ⟨"MEM_RT_GAP_MAX", 0x6000, 1, 1, 1, 7, 1, 1, .u32, .rw, 0, 0xFFFFFFFF, 0, 0, 0, 0⟩,
  ⟨"MEM_REF_LATE", 0x6000, 1, 1, 1, 8, 1, 1, .u32, .rw, 0, 0, 0, 0, 0xFFFFFFFF, 0⟩,
  ⟨"MEM_BGT_CFG", 0x6000, 1, 1, 1, 9, 1, 1, .u32, .rw, 0x140064, 0xFFFFFF, 0, 0, 0, 0⟩,
  ⟨"MEM_BULK_WAIT", 0x6000, 1, 1, 1, 10, 1, 1, .u32, .rw, 0x7D0, 0xFFFF, 0, 0, 0, 0⟩,
  ⟨"MEM_TRAIN_TS", 0x6000, 1, 1, 1, 11, 1, 1, .ts64, .ro, 0, 0, 0, 0, 0, 0⟩,
  ⟨"MEM_DEV_STS", 0x6010, 1, 16, 1, 0, 1, 1, .u32, .ro, 0, 0, 0, 0, 0, 0⟩,
  ⟨"MEM_DEV_EDC_RETRY", 0x6010, 1, 16, 1, 1, 1, 1, .u64, .rw, 0, 0, 0, 0, 0xFFFFFFFFFFFFFFFF, 0⟩,
  ⟨"MEM_DEV_ODECC_CORR", 0x6010, 1, 16, 1, 2, 1, 1, .u64, .rw, 0, 0, 0, 0, 0xFFFFFFFFFFFFFFFF, 0⟩,
  ⟨"MEM_DEV_UNCORR", 0x6010, 1, 16, 1, 3, 1, 1, .u32, .rw, 0, 0, 0, 0, 0xFFFFFFFF, 0⟩,
  ⟨"MEM_LANE", 0x6010, 1, 16, 1, 4, 1, 4, .u64, .ro, 0, 0, 0, 0, 0, 0⟩]

/-- Indices 0x6100 to 0x61FF (spec/14_memory.md; R404). -/
def rows61 : List EntryRow := [
  ⟨"SRM_CORR", 0x6100, 1, 1, 1, 0, 1, 5, .u64, .rw, 0, 0, 0, 0, 0xFFFFFFFFFFFFFFFF, 0⟩,
  ⟨"SRM_UNCORR", 0x6100, 1, 1, 1, 5, 1, 5, .u32, .rw, 0, 0, 0, 0, 0xFFFFFFFF, 0⟩,
  ⟨"SRM_ERR_ADDR", 0x6100, 1, 1, 1, 10, 1, 1, .u64, .ro, 0, 0, 0, 0, 0, 0⟩,
  ⟨"SRM_ERR_TS", 0x6100, 1, 1, 1, 11, 1, 1, .ts64, .ro, 0, 0, 0, 0, 0, 0⟩,
  ⟨"SRM_SCRUB", 0x6100, 1, 1, 1, 12, 1, 1, .u32, .rw, 0x3E8, 0xFFFF, 0, 0, 0, 0⟩,
  ⟨"SRM_PART", 0x6100, 1, 1, 1, 16, 1, 1, .u32, .rw, 0x1F, 0x1F, 0, 0, 0, 0⟩]

/-- Indices 0x6200 to 0x62FF (spec/15_queues_dma.md; R425, R427). -/
def rows62 : List EntryRow := [
  ⟨"QDM_CTX_BASE", 0x6200, 1, 1, 1, 0, 1, 1, .u64, .rwd, 0, 0, 0xFFFFFFFFF000, 0, 0, 0⟩,
  ⟨"QDM_Q_CMD", 0x6200, 1, 1, 1, 1, 1, 1, .u32, .rw, 0, 0x3FFFF, 0, 0, 0, 0x30000⟩,
  ⟨"QDM_Q_STS", 0x6200, 1, 1, 1, 2, 1, 1, .u32, .ro, 0, 0, 0, 0, 0, 0⟩,
  ⟨"QDM_DOORBELL", 0x6200, 1, 1, 1, 3, 1, 1, .u64, .wo, 0, 0xFFFFFFFFFFFFFFFF, 0, 0, 0, 0⟩,
  ⟨"QDM_DB_IGNORED", 0x6200, 1, 1, 1, 4, 1, 1, .u32, .rw, 0, 0, 0, 0, 0xFFFFFFFF, 0⟩,
  ⟨"QDM_Q_ENABLED", 0x6200, 1, 1, 1, 5, 1, 1, .u32, .ro, 0, 0, 0, 0, 0, 0⟩,
  ⟨"QDM_FEED", 0x6210, 1, 1, 1, 0, 1, 16, .u64, .rw, 0x10000000000, 1, 0x3FFFFFFFFFE, 0, 0, 0⟩,
  ⟨"QDM_CH_CTL", 0x6240, 1, 128, 1, 0, 1, 1, .u32, .rw, 0, 7, 0, 0, 0, 4⟩,
  ⟨"QDM_CH_STS", 0x6240, 1, 128, 1, 1, 1, 1, .u32, .rw, 0, 0, 0, 0x20, 0, 0⟩,
  ⟨"QDM_CH_BASE", 0x6240, 1, 128, 1, 2, 1, 1, .u64, .ro, 0, 0, 0, 0, 0, 0⟩,
  ⟨"QDM_CH_COUNT", 0x6240, 1, 128, 1, 3, 1, 1, .u32, .ro, 0, 0, 0, 0, 0, 0⟩,
  ⟨"QDM_CH_NEXT_BASE", 0x6240, 1, 128, 1, 4, 1, 1, .u64, .rw, 0, 0xFFFFFFFFFFE0, 0, 0, 0, 0⟩,
  ⟨"QDM_CH_NEXT_COUNT", 0x6240, 1, 128, 1, 5, 1, 1, .u32, .rw, 0, 0xFFFFFFFF, 0, 0, 0, 0⟩,
  ⟨"QDM_CH_CUR", 0x6240, 1, 128, 1, 6, 1, 1, .u32, .ro, 0, 0, 0, 0, 0, 0⟩,
  ⟨"QDM_CH_OFFSET", 0x6240, 1, 128, 1, 7, 1, 1, .u32, .ro, 0, 0, 0, 0, 0, 0⟩,
  ⟨"QDM_CH_SHADOW_GEN", 0x6240, 1, 128, 1, 8, 1, 1, .u32, .ro, 0, 0, 0, 0, 0, 0⟩,
  ⟨"QDM_CH_BAD", 0x6240, 1, 128, 1, 9, 1, 1, .u32, .rw, 0, 0, 0, 0, 0xFFFFFFFF, 0⟩,
  ⟨"QDM_CH_BYTES", 0x6240, 1, 128, 1, 10, 1, 1, .u64, .rw, 0, 0, 0, 0, 0xFFFFFFFFFFFFFFFF, 0⟩,
  ⟨"QDM_CH_LAST_TS", 0x6240, 1, 128, 1, 11, 1, 1, .ts64, .ro, 0, 0, 0, 0, 0, 0⟩]

/-- Indices 0x6300 to 0x63FF (spec/16_pcie_drives.md; R456). -/
def rows63 : List EntryRow := [
  ⟨"PCI_PORT_CFG", 0x6300, 1, 4, 1, 0, 1, 1, .u32, .rwd, 0x28, 0, 0x7F, 0, 0, 0⟩,
  ⟨"PCI_PORT_STS", 0x6300, 1, 4, 1, 1, 1, 1, .u32, .ro, 0, 0, 0, 0, 0, 0⟩,
  ⟨"PCI_LINK_DOWNS", 0x6300, 1, 4, 1, 2, 1, 1, .u32, .rw, 0, 0, 0, 0, 0xFFFFFFFF, 0⟩,
  ⟨"PCI_ERR_CORR", 0x6300, 1, 4, 1, 3, 1, 1, .u32, .rw, 0, 0, 0, 0, 0xFFFFFFFF, 0⟩,
  ⟨"PCI_ERR_UNCORR", 0x6300, 1, 4, 1, 4, 1, 1, .u32, .rw, 0, 0, 0, 0, 0xFFFFFFFF, 0⟩,
  ⟨"PCI_EP_ID", 0x6300, 1, 4, 1, 5, 1, 1, .u64, .rwd, 0, 0, 0xFFFFFFFFFFFFFFFF, 0, 0, 0⟩,
  ⟨"PCI_EP_BAR2", 0x6300, 1, 4, 1, 6, 1, 1, .u64, .rwd, 0x24, 0, 0xFFFFFFF0003F, 0, 0, 0⟩,
  ⟨"PCI_EP_BAD_ACC", 0x6300, 1, 4, 1, 7, 1, 1, .u32, .rw, 0, 0, 0, 0, 0xFFFFFFFF, 0⟩,
  ⟨"PCI_RP_MEM", 0x6300, 1, 4, 1, 8, 1, 1, .u64, .rwd, 0, 0, 0x7FFFFFFFFF00003F, 0, 0, 0⟩,
  ⟨"PCI_RP_HP", 0x6300, 1, 4, 1, 9, 1, 1, .u32, .rwd, 0x18, 0, 0x3F, 0, 0, 0⟩,
  ⟨"PCI_RP_CFG_ACC", 0x6300, 1, 4, 1, 10, 1, 1, .u64, .rw, 0, 0xFFFFFFFF3FFFFFFF, 0, 0, 0, 0x20000000⟩,
  ⟨"PCI_RP_FN_COUNT", 0x6300, 1, 4, 1, 11, 1, 1, .u32, .ro, 0, 0, 0, 0, 0, 0⟩,
  ⟨"PCI_RP_FN", 0x6310, 1, 4, 1, 0, 2, 32, .u64, .ro, 0, 0, 0, 0, 0, 0⟩,
  ⟨"PCI_RP_FN_STS", 0x6310, 1, 4, 1, 1, 2, 32, .u64, .ro, 0, 0, 0, 0, 0, 0⟩]

/-- Indices 0x6400 to 0x64FF (spec/16_pcie_drives.md; R457). -/
def rows64 : List EntryRow := [
  ⟨"DRV_SET_CTL", 0x6400, 1, 4, 1, 0, 1, 1, .u32, .rw, 0, 0xF, 0, 0, 0, 2⟩,
  ⟨"DRV_SET_CFG", 0x6400, 1, 4, 1, 1, 1, 1, .u32, .rwd, 0x22, 0, 0x1FFF, 0, 0, 0⟩,
  ⟨"DRV_SET_STS", 0x6400, 1, 4, 1, 2, 1, 1, .u32, .rw, 0, 0, 0, 0x400, 0, 0⟩,
  ⟨"DRV_SET_STRIPES", 0x6400, 1, 4, 1, 3, 1, 1, .u64, .rwd, 0, 0, 0xFFFFFFFFFFFFFFFF, 0, 0, 0⟩,
  ⟨"DRV_SET_FLUSH", 0x6400, 1, 4, 1, 4, 1, 1, .u32, .rw, 0xC803E8, 0xFFFFFFFF, 0, 0, 0, 0⟩,
  ⟨"DRV_SET_NEXT_BLOCK", 0x6400, 1, 4, 1, 5, 1, 1, .u64, .ro, 0, 0, 0, 0, 0, 0⟩,
  ⟨"DRV_SET_DURABLE", 0x6400, 1, 4, 1, 6, 1, 1, .u64, .ro, 0, 0, 0, 0, 0, 0⟩,
  ⟨"DRV_SET_DEG_FROM", 0x6400, 1, 4, 1, 7, 1, 1, .u64, .ro, 0xFFFFFFFFFFFFFFFF, 0, 0, 0, 0, 0⟩,
  ⟨"DRV_SET_REBUILT", 0x6400, 1, 4, 1, 8, 1, 1, .u64, .ro, 0, 0, 0, 0, 0, 0⟩,
  ⟨"DRV_SET_ID", 0x6400, 1, 4, 1, 9, 1, 1, .u64, .ro, 0, 0, 0, 0, 0, 0⟩,
  ⟨"DRV_SET_GEN", 0x6400, 1, 4, 1, 10, 1, 1, .u64, .ro, 0, 0, 0, 0, 0, 0⟩,
  ⟨"DRV_REBUILD_RATE", 0x6400, 1, 4, 1, 11, 1, 1, .u32, .rw, 0x7D0, 0xFFFFFFFF, 0, 0, 0, 0⟩,
  ⟨"DRV_MEMBER", 0x6410, 1, 4, 1, 0, 2, 16, .u32, .rwd, 0, 0, 0x7F, 0, 0, 0⟩,
  ⟨"DRV_MEMBER_STS", 0x6410, 1, 4, 1, 1, 2, 16, .u64, .ro, 0, 0, 0, 0, 0, 0⟩,
  ⟨"DRV_AREA", 0x6420, 1, 1, 1, 0, 1, 1, .u64, .rwd, 0x1A, 0, 0xFFFFFFF0003F, 0, 0, 0⟩,
  ⟨"DRV_JOURNAL_USED", 0x6420, 1, 1, 1, 1, 1, 1, .u32, .ro, 0, 0, 0, 0, 0, 0⟩,
  ⟨"DRV_CMD_TIMEOUT", 0x6420, 1, 1, 1, 2, 1, 1, .u32, .rw, 0x7D0, 0xFFFFFFFF, 0, 0, 0, 0⟩,
  ⟨"DRV_CMD_ERR", 0x6420, 1, 1, 1, 3, 1, 1, .u32, .rw, 0, 0, 0, 0, 0xFFFFFFFF, 0⟩]

/-- Indices 0x6500 to 0x65FF, part 0 (spec/17_fabric.md; R485). -/
def rows65_0 : List EntryRow := [
  ⟨"FAB_CTL", 0x6500, 1, 1, 1, 0, 1, 1, .u32, .rw, 0, 3, 0, 0, 0, 2⟩,
  ⟨"FAB_CFG", 0x6500, 1, 1, 1, 1, 1, 1, .u32, .rwd, 0x80, 0, 0x7FFFF, 0, 0, 0⟩,
  ⟨"FAB_STS", 0x6500, 1, 1, 1, 2, 1, 1, .u32, .rw, 0, 0, 0, 0x300, 0, 0⟩,
  ⟨"FAB_UID", 0x6500, 1, 1, 1, 3, 1, 1, .u64, .ro, 0, 0, 0, 0, 0, 0⟩,
  ⟨"FAB_ADDR", 0x6500, 1, 1, 1, 4, 1, 1, .u32, .ro, 0, 0, 0, 0, 0, 0⟩,
  ⟨"FAB_ROOT", 0x6500, 1, 1, 1, 5, 1, 1, .u64, .ro, 0, 0, 0, 0, 0, 0⟩,
  ⟨"FAB_ROOT_DIST", 0x6500, 1, 1, 1, 6, 1, 1, .u32, .ro, 0, 0, 0, 0, 0, 0⟩,
  ⟨"FAB_MEMBERS", 0x6500, 1, 1, 1, 7, 1, 1, .u32, .ro, 0, 0, 0, 0, 0, 0⟩,
  ⟨"FAB_TIME_CFG", 0x6500, 1, 1, 1, 8, 1, 1, .u32, .rw, 0x14002, 0x1FFFFFFF, 0, 0, 0, 0⟩,
  ⟨"FAB_TIME_OFS", 0x6500, 1, 1, 1, 9, 1, 1, .i48, .ro, 0, 0, 0, 0, 0, 0⟩,
  ⟨"FAB_STEP_TS", 0x6500, 1, 1, 1, 10, 1, 1, .ts64, .ro, 0, 0, 0, 0, 0, 0⟩,
  ⟨"FAB_STEP_SIZE", 0x6500, 1, 1, 1, 11, 1, 1, .i48, .ro, 0, 0, 0, 0, 0, 0⟩,
  ⟨"FAB_E2E_RTO", 0x6500, 1, 1, 1, 12, 1, 1, .u32, .rw, 0x14, 0xFFFFFFFF, 0, 0, 0, 0⟩,
  ⟨"FAB_UNREACH_MS", 0x6500, 1, 1, 1, 13, 1, 1, .u32, .rw, 0xA, 0xFFFFFFFF, 0, 0, 0, 0⟩,
  ⟨"FAB_UNREACH", 0x6500, 1, 1, 1, 14, 1, 1, .u32, .rw, 0, 0, 0, 0, 0xFFFFFFFF, 0⟩,
  ⟨"FAB_E2E_DUP", 0x6500, 1, 1, 1, 15, 1, 1, .u32, .rw, 0, 0, 0, 0, 0xFFFFFFFF, 0⟩,
  ⟨"FAB_RL_HOLD", 0x6500, 1, 1, 1, 16, 1, 1, .u32, .rw, 0xC8, 0xFFFFFFFF, 0, 0, 0, 0⟩,
  ⟨"FAB_RL_SEQ", 0x6500, 1, 1, 1, 17, 1, 1, .u32, .rw, 0, 0, 0, 0, 0xFFFF, 0⟩,
  ⟨"FAB_RL_DUP", 0x6500, 1, 1, 1, 18, 1, 1, .u32, .rw, 0, 0, 0, 0, 0xFFFFFFFF, 0⟩,
  ⟨"FAB_RL_GAPS", 0x6500, 1, 1, 1, 19, 1, 1, .u32, .rw, 0, 0, 0, 0, 0xFFFFFFFF, 0⟩,
  ⟨"FAB_TTL_DROP", 0x6500, 1, 1, 1, 20, 1, 1, .u32, .rw, 0, 0, 0, 0, 0xFFFFFFFF, 0⟩,
  ⟨"FAB_BAD_PKT", 0x6500, 1, 1, 1, 21, 1, 1, .u32, .rw, 0, 0, 0, 0, 0xFFFFFFFF, 0⟩,
  ⟨"FAB_PORT_CTL", 0x6510, 1, 8, 1, 0, 1, 1, .u32, .rw, 0x100, 0x101, 0xE, 0, 0, 0⟩,
  ⟨"FAB_PORT_STS", 0x6510, 1, 8, 1, 1, 1, 1, .u32, .ro, 0, 0, 0, 0, 0, 0⟩]

/-- Indices 0x6500 to 0x65FF, part 1 (spec/17_fabric.md; R485). -/
def rows65_1 : List EntryRow := [
  ⟨"FAB_PORT_NBR", 0x6510, 1, 8, 1, 2, 1, 1, .u64, .ro, 0, 0, 0, 0, 0, 0⟩,
  ⟨"FAB_PORT_DELAY", 0x6510, 1, 8, 1, 3, 1, 1, .u32, .ro, 0, 0, 0, 0, 0, 0⟩,
  ⟨"FAB_PORT_ASYM", 0x6510, 1, 8, 1, 4, 1, 1, .i24, .rw, 0, 0xFFFFFF, 0, 0, 0, 0⟩,
  ⟨"FAB_PORT_RETRY", 0x6510, 1, 8, 1, 5, 1, 1, .u32, .rw, 0, 0, 0, 0, 0xFFFFFFFF, 0⟩,
  ⟨"FAB_PORT_FEC_CORR", 0x6510, 1, 8, 1, 6, 1, 1, .u64, .rw, 0, 0, 0, 0, 0xFFFFFFFFFFFFFFFF, 0⟩,
  ⟨"FAB_PORT_FEC_UNCORR", 0x6510, 1, 8, 1, 7, 1, 1, .u32, .rw, 0, 0, 0, 0, 0xFFFFFFFF, 0⟩,
  ⟨"FAB_PORT_DOWNS", 0x6510, 1, 8, 1, 8, 1, 1, .u32, .rw, 0, 0, 0, 0, 0xFFFFFFFF, 0⟩,
  ⟨"FAB_LANE_STS", 0x6520, 1, 16, 1, 1, 1, 1, .u32, .ro, 0, 0, 0, 0, 0, 0⟩,
  ⟨"FAB_DFE_LO", 0x6520, 1, 16, 1, 2, 1, 1, .u64, .ro, 0, 0, 0, 0, 0, 0⟩,
  ⟨"FAB_DFE_HI", 0x6520, 1, 16, 1, 3, 1, 1, .u32, .ro, 0, 0, 0, 0, 0, 0⟩,
  ⟨"FAB_EYE_CTL", 0x6520, 1, 16, 1, 4, 1, 1, .u32, .rw, 0, 0x1FFFF, 0, 0, 0, 0x10000⟩,
  ⟨"FAB_EYE_RESULT", 0x6520, 1, 16, 1, 5, 1, 1, .u64, .ro, 0, 0, 0, 0, 0, 0⟩,
  ⟨"FAB_ERR_PRBS", 0x6520, 1, 16, 1, 8, 1, 1, .u64, .rw, 0, 0, 0, 0, 0xFFFFFFFFFFFFFFFF, 0⟩,
  ⟨"FAB_LANE_CTL", 0x6520, 1, 16, 1, 0, 1, 1, .u32, .rw, 0x1200, 0x1FFC0FC, 0x3F02, 0, 0, 0⟩,
  ⟨"FAB_ROUTE", 0x6580, 1, 1, 1, 0, 1, 256, .u64, .ro, 0, 0, 0, 0, 0, 0⟩,
  ⟨"FAB_MEMBER", 0x6590, 1, 4, 1, 0, 1, 256, .u64, .ro, 0, 0, 0, 0, 0, 0⟩]

/-- Indices 0x6500 to 0x65FF. -/
def rows65 : List EntryRow := rows65_0 ++ rows65_1

/-- Indices 0x6600 to 0x66FF (spec/19_dictionary_registers.md; R526). -/
def rows66 : List EntryRow := [
  ⟨"MGT_ETH_CTL", 0x6600, 1, 1, 1, 0, 1, 1, .u32, .rw, 0, 3, 0, 0, 0, 0⟩,
  ⟨"MGT_ETH_CFG", 0x6600, 1, 1, 1, 1, 1, 1, .u32, .rwd, 0, 0, 3, 0, 0, 0⟩,
  ⟨"MGT_ETH_STS", 0x6600, 1, 1, 1, 2, 1, 1, .u32, .ro, 0, 0, 0, 0, 0, 0⟩,
  ⟨"MGT_ETH_MAC", 0x6600, 1, 1, 1, 3, 1, 1, .u64, .rwd, 0, 0, 0xFFFFFFFFFFFF, 0, 0, 0⟩,
  ⟨"MGT_ETH_IP", 0x6600, 1, 1, 1, 4, 1, 1, .u32, .rwd, 0, 0, 0xFFFFFFFF, 0, 0, 0⟩,
  ⟨"MGT_ETH_RX", 0x6600, 1, 1, 1, 5, 1, 1, .u64, .rw, 0, 0, 0, 0, 0xFFFFFFFFFFFFFFFF, 0⟩,
  ⟨"MGT_ETH_TX", 0x6600, 1, 1, 1, 6, 1, 1, .u64, .rw, 0, 0, 0, 0, 0xFFFFFFFFFFFFFFFF, 0⟩,
  ⟨"MGT_ETH_DROP", 0x6600, 1, 1, 1, 7, 1, 1, .u32, .rw, 0, 0, 0, 0, 0xFFFFFFFF, 0⟩,
  ⟨"MGT_ETH_DOWNS", 0x6600, 1, 1, 1, 8, 1, 1, .u32, .rw, 0, 0, 0, 0, 0xFFFFFFFF, 0⟩]

/-- The rows of one page of 256 indices. -/
def pageRows (page : Nat) : List EntryRow :=
  match page with
  | 0x11 => rows11
  | 0x12 => rows12
  | 0x13 => rows13
  | 0x14 => rows14
  | 0x15 => rows15
  | 0x16 => rows16
  | 0x18 => rows18
  | 0x20 => rows20
  | 0x21 => rows21
  | 0x30 => rows30
  | 0x31 => rows31
  | 0x32 => rows32
  | 0x40 => rows40
  | 0x41 => rows41
  | 0x42 => rows42
  | 0x43 => rows43
  | 0x44 => rows44
  | 0x45 => rows45
  | 0x50 => rows50
  | 0x51 => rows51
  | 0x52 => rows52
  | 0x53 => rows53
  | 0x60 => rows60
  | 0x61 => rows61
  | 0x62 => rows62
  | 0x63 => rows63
  | 0x64 => rows64
  | 0x65 => rows65
  | 0x66 => rows66
  | _ => []

/-- The row that holds a slot, or none for a slot that holds no entry (R506). -/
def findRow (k : Nat) : Option EntryRow := (pageRows (k / 65536)).find? fun r => r.holds k

/-- What an entry holds at cold reset (R15): its table's default, with the entries whose default
varies by slot or is fused or kept in MRAM spelled out. -/
def regDefault (k : Nat) : BitVec 64 :=
  let i := slotIndex k
  let u := slotSub k
  match findRow k with
  | none => 0
  | some r =>
    if r.base = 0x3201 || r.base = 0x3202 then (if u = 0 then 0x0000400000000000 else 0)
    else if r.base = 0x3204 then
      (if (i - 0x3204) / 16 % 2 = 1 then 0 else if u = 0x10 then 0x400000 else 0)
    else if r.base = 0x3203 && (i - 0x3203) / 16 % 2 = 1 then 0
    else if r.base = 0x5180 then
      BitVec.ofNat 64 ((4 * (u % 16)) * 1024 + ((4 * (u % 16) + 1) * 1024) * 2 ^ 16 +
        ((4 * (u % 16) + 2) * 1024) * 2 ^ 32 + ((4 * (u % 16) + 3) * 1024) * 2 ^ 48)
    else if r.base = 0x1610 && u = 0 && (i = 0x1650 || i = 0x1651) then 0
    else if k = slot 0x6600 3 then Config.fusedMac
    else if k = slot 0x6500 3 then Config.fusedUid
    else if k = slot 0x1401 4 then Config.fusedRollback
    else if k = slot 0x1401 5 then Config.fusedKeys
    else if k = slot 0x1500 6 then Config.mramAge
    else if k = slot 0x1500 9 then Config.mramJournalHead
    else BitVec.ofNat 64 r.dflt

/-! The slots by name: the parameters are the instance letters of the tables, in the order
index, then subindex. -/

/-- R30. -/
def Reg.ACQ_EB_LEVEL (i : Nat) : Nat := slot (0x43F0 + i) (0)
/-- R30. -/
def Reg.ACQ_EB_PEAK (i : Nat) : Nat := slot (0x43F0 + i) (1)
/-- R30. -/
def Reg.ACQ_EB_DISCARDS (i : Nat) : Nat := slot (0x43F0 + i) (2)
/-- R30. -/
def Reg.ACQ_EB_GAP_FIRST (i : Nat) : Nat := slot (0x43F0 + i) (3)
/-- R30. -/
def Reg.ACQ_EB_GAP_RESUME (i : Nat) : Nat := slot (0x43F0 + i) (4)
/-- R43. -/
def Reg.LNK_LANE_CTL (i : Nat) : Nat := slot (0x3000 + i) (0)
/-- R43. -/
def Reg.LNK_LANE_STS (i : Nat) : Nat := slot (0x3000 + i) (1)
/-- R43. -/
def Reg.LNK_DFE_LO (i : Nat) : Nat := slot (0x3000 + i) (2)
/-- R43. -/
def Reg.LNK_DFE_HI (i : Nat) : Nat := slot (0x3000 + i) (3)
/-- R43. -/
def Reg.LNK_EYE_CTL (i : Nat) : Nat := slot (0x3000 + i) (4)
/-- R43. -/
def Reg.LNK_EYE_RESULT (i : Nat) : Nat := slot (0x3000 + i) (5)
/-- R43. -/
def Reg.LNK_ERR_CODE (i : Nat) : Nat := slot (0x3000 + i) (6)
/-- R43. -/
def Reg.LNK_ERR_CRC (i : Nat) : Nat := slot (0x3000 + i) (7)
/-- R43. -/
def Reg.LNK_ERR_PRBS (i : Nat) : Nat := slot (0x3000 + i) (8)
/-- R43. -/
def Reg.LNK_RAW_WORD (i : Nat) : Nat := slot (0x3000 + i) (9)
/-- R43. -/
def Reg.LNK_ARRIVAL (i : Nat) : Nat := slot (0x3000 + i) (10)
/-- R61. -/
def Reg.LNK_GRP_CTL (i : Nat) : Nat := slot (0x3100 + 16 * i) (0)
/-- R61. -/
def Reg.LNK_GRP_STATE (i : Nat) : Nat := slot (0x3100 + 16 * i) (1)
/-- R61. -/
def Reg.LNK_JESD_PARAMS (i : Nat) : Nat := slot (0x3100 + 16 * i) (2)
/-- R61. -/
def Reg.LNK_LANE_MAP (i : Nat) : Nat := slot (0x3100 + 16 * i) (3)
/-- R61. -/
def Reg.LNK_LANE_RATE (i : Nat) : Nat := slot (0x3100 + 16 * i) (4)
/-- R61. -/
def Reg.LNK_TS_NUM (i : Nat) : Nat := slot (0x3100 + 16 * i) (5)
/-- R61. -/
def Reg.LNK_TS_DEN (i : Nat) : Nat := slot (0x3100 + 16 * i) (6)
/-- R61. -/
def Reg.LNK_LAT_ADJ (i : Nat) : Nat := slot (0x3100 + 16 * i) (7)
/-- R61. -/
def Reg.LNK_SYSREF_OFS (i : Nat) : Nat := slot (0x3100 + 16 * i) (8)
/-- R61. -/
def Reg.LNK_RELEASE_OFS (i : Nat) : Nat := slot (0x3100 + 16 * i) (9)
/-- R61. -/
def Reg.LNK_ANCHOR (i : Nat) : Nat := slot (0x3100 + 16 * i) (10)
/-- R61. -/
def Reg.LNK_SYSREF_LAST (i : Nat) : Nat := slot (0x3100 + 16 * i) (11)
/-- R61. -/
def Reg.LNK_SYSREF_ERR (i : Nat) : Nat := slot (0x3100 + 16 * i) (12)
/-- R61. -/
def Reg.LNK_ILAS_SEEN (i : Nat) : Nat := slot (0x3100 + 16 * i) (13)
/-- R61. -/
def Reg.LNK_RUN_COUNT (i : Nat) : Nat := slot (0x3100 + 16 * i) (14)
/-- R61. -/
def Reg.LNK_ID_IMAGE (i e : Nat) : Nat := slot (0x3101 + 16 * i) (e)
/-- R61. -/
def Reg.LNK_SPI_CFG (i : Nat) : Nat := slot (0x3102 + 16 * i) (0)
/-- R61. -/
def Reg.LNK_SPI_CMD (i : Nat) : Nat := slot (0x3102 + 16 * i) (1)
/-- R61. -/
def Reg.LNK_SPI_STS (i : Nat) : Nat := slot (0x3102 + 16 * i) (2)
/-- R61. -/
def Reg.LNK_SPI_DATA (i e : Nat) : Nat := slot (0x3102 + 16 * i) (8 + e)
/-- R61. -/
def Reg.LNK_I2C_CMD (i : Nat) : Nat := slot (0x3103 + 16 * i) (0)
/-- R61. -/
def Reg.LNK_I2C_STS (i : Nat) : Nat := slot (0x3103 + 16 * i) (1)
/-- R61. -/
def Reg.LNK_I2C_DATA (i e : Nat) : Nat := slot (0x3103 + 16 * i) (8 + e)
/-- R98. -/
def Reg.CND_CTL (i : Nat) : Nat := slot (0x3200 + 16 * i) (0)
/-- R98. -/
def Reg.CND_STS (i : Nat) : Nat := slot (0x3200 + 16 * i) (1)
/-- R98. -/
def Reg.CND_CHAIN (i : Nat) : Nat := slot (0x3200 + 16 * i) (2)
/-- R98. -/
def Reg.CND_NCO_FTW (i : Nat) : Nat := slot (0x3200 + 16 * i) (3)
/-- R98. -/
def Reg.CND_NCO_POW (i : Nat) : Nat := slot (0x3200 + 16 * i) (4)
/-- R98. -/
def Reg.CND_COMMIT_AT (i : Nat) : Nat := slot (0x3200 + 16 * i) (5)
/-- R98. -/
def Reg.CND_SHADOW_GEN (i : Nat) : Nat := slot (0x3200 + 16 * i) (6)
/-- R98. -/
def Reg.CND_HANDOVER_TS (i : Nat) : Nat := slot (0x3200 + 16 * i) (7)
/-- R98. -/
def Reg.CND_OUT_PERIOD (i : Nat) : Nat := slot (0x3200 + 16 * i) (8)
/-- R98. -/
def Reg.CND_GROUP_DELAY (i : Nat) : Nat := slot (0x3200 + 16 * i) (9)
/-- R98. -/
def Reg.CND_EVT (i : Nat) : Nat := slot (0x3200 + 16 * i) (10)
/-- R98. -/
def Reg.CND_SAT_CNT (i : Nat) : Nat := slot (0x3200 + 16 * i) (11)
/-- R98. -/
def Reg.CND_OVR_CNT (i : Nat) : Nat := slot (0x3200 + 16 * i) (12)
/-- R98. -/
def Reg.CND_EQ_KEY0 (i : Nat) : Nat := slot (0x3200 + 16 * i) (13)
/-- R98. -/
def Reg.CND_EQ_KEY1 (i : Nat) : Nat := slot (0x3200 + 16 * i) (14)
/-- R98. -/
def Reg.CND_EQ_TAP0 (i e : Nat) : Nat := slot (0x3201 + 16 * i) (e)
/-- R98. -/
def Reg.CND_EQ_TAP1 (i e : Nat) : Nat := slot (0x3202 + 16 * i) (e)
/-- R98. -/
def Reg.CND_IL_OFS_E (i : Nat) : Nat := slot (0x3203 + 16 * i) (0)
/-- R98. -/
def Reg.CND_IL_OFS_O (i : Nat) : Nat := slot (0x3203 + 16 * i) (1)
/-- R98. -/
def Reg.CND_IL_GAIN (i : Nat) : Nat := slot (0x3203 + 16 * i) (2)
/-- R98. -/
def Reg.CND_IL_EST_OFS (i : Nat) : Nat := slot (0x3203 + 16 * i) (3)
/-- R98. -/
def Reg.CND_IL_EST_GAIN (i : Nat) : Nat := slot (0x3203 + 16 * i) (4)
/-- R98. -/
def Reg.CND_IL_EST_SKEW (i : Nat) : Nat := slot (0x3203 + 16 * i) (5)
/-- R98. -/
def Reg.CND_IL_EST_BLOCKS (i : Nat) : Nat := slot (0x3203 + 16 * i) (6)
/-- R98. -/
def Reg.CND_IL_TAP (i e : Nat) : Nat := slot (0x3204 + 16 * i) (e)
/-- R132. -/
def Reg.SPX_POOL : Nat := slot (0x4000) (0)
/-- R132. -/
def Reg.SPX_USER_WIN (i e : Nat) : Nat := slot (0x4080 + i) (e)
/-- R133. -/
def Reg.SPX_RES_CTL (i : Nat) : Nat := slot (0x4008 + i) (0)
/-- R133. -/
def Reg.SPX_RES_STS (i : Nat) : Nat := slot (0x4008 + i) (1)
/-- R133. -/
def Reg.SPX_RES_CFG (i : Nat) : Nat := slot (0x4008 + i) (2)
/-- R133. -/
def Reg.SPX_RES_WIN (i : Nat) : Nat := slot (0x4008 + i) (3)
/-- R133. -/
def Reg.SPX_LM_OFS (i : Nat) : Nat := slot (0x4008 + i) (4)
/-- R133. -/
def Reg.SPX_COL_CFG (i : Nat) : Nat := slot (0x4008 + i) (5)
/-- R133. -/
def Reg.SPX_BIN_RANGE (i : Nat) : Nat := slot (0x4008 + i) (6)
/-- R133. -/
def Reg.SPX_COMMIT_AT (i : Nat) : Nat := slot (0x4008 + i) (7)
/-- R133. -/
def Reg.SPX_SHADOW_GEN (i : Nat) : Nat := slot (0x4008 + i) (8)
/-- R133. -/
def Reg.SPX_HANDOVER_TS (i : Nat) : Nat := slot (0x4008 + i) (9)
/-- R133. -/
def Reg.SPX_ORIGIN_TS (i : Nat) : Nat := slot (0x4008 + i) (10)
/-- R133. -/
def Reg.SPX_SPEC_COUNT (i : Nat) : Nat := slot (0x4008 + i) (11)
/-- R133. -/
def Reg.SPX_INVALID_COUNT (i : Nat) : Nat := slot (0x4008 + i) (12)
/-- R133. -/
def Reg.SPX_SKIP_COUNT (i : Nat) : Nat := slot (0x4008 + i) (13)
/-- R133. -/
def Reg.SPX_LAST_TS (i : Nat) : Nat := slot (0x4008 + i) (14)
/-- R133. -/
def Reg.SPX_WIN_CG (i : Nat) : Nat := slot (0x4008 + i) (15)
/-- R133. -/
def Reg.SPX_WIN_ENBW (i : Nat) : Nat := slot (0x4008 + i) (16)
/-- R133. -/
def Reg.SPX_LATENCY (i : Nat) : Nat := slot (0x4008 + i) (17)
/-- R133. -/
def Reg.SPX_ALLOC (i : Nat) : Nat := slot (0x4008 + i) (18)
/-- R168. -/
def Reg.TRG_UNIT_CTL (i u : Nat) : Nat := slot (0x4100 + 16 * i + u) (0)
/-- R168. -/
def Reg.TRG_UNIT_CFG (i u : Nat) : Nat := slot (0x4100 + 16 * i + u) (1)
/-- R168. -/
def Reg.TRG_UNIT_PARAM (i u : Nat) : Nat := slot (0x4100 + 16 * i + u) (2)
/-- R168. -/
def Reg.TRG_UNIT_SPAN (i u : Nat) : Nat := slot (0x4100 + 16 * i + u) (3)
/-- R168. -/
def Reg.TRG_UNIT_HOLDOFF (i u : Nat) : Nat := slot (0x4100 + 16 * i + u) (4)
/-- R168. -/
def Reg.TRG_UNIT_STS (i u : Nat) : Nat := slot (0x4100 + 16 * i + u) (5)
/-- R168. -/
def Reg.TRG_UNIT_COUNT (i u : Nat) : Nat := slot (0x4100 + 16 * i + u) (6)
/-- R168. -/
def Reg.TRG_UNIT_ABSORBED (i u : Nat) : Nat := slot (0x4100 + 16 * i + u) (7)
/-- R168. -/
def Reg.TRG_UNIT_LAST_TS (i u : Nat) : Nat := slot (0x4100 + 16 * i + u) (8)
/-- R168. -/
def Reg.TRG_UNIT_LAST_VALUE (i u : Nat) : Nat := slot (0x4100 + 16 * i + u) (9)
/-- R171. -/
def Reg.TRG_CH_CTL (i : Nat) : Nat := slot (0x4108 + 16 * i) (0)
/-- R171. -/
def Reg.TRG_CH_STS (i : Nat) : Nat := slot (0x4108 + 16 * i) (1)
/-- R171. -/
def Reg.TRG_LAT_TD (i : Nat) : Nat := slot (0x4108 + 16 * i) (2)
/-- R171. -/
def Reg.TRG_LAT_FD_A (i : Nat) : Nat := slot (0x4108 + 16 * i) (3)
/-- R171. -/
def Reg.TRG_LAT_FD_B (i : Nat) : Nat := slot (0x4108 + 16 * i) (4)
/-- R171. -/
def Reg.TRG_INTAKE_LAG (i : Nat) : Nat := slot (0x4108 + 16 * i) (5)
/-- R171. -/
def Reg.TRG_COMMIT_AT (i : Nat) : Nat := slot (0x4108 + 16 * i) (6)
/-- R171. -/
def Reg.TRG_SHADOW_GEN (i : Nat) : Nat := slot (0x4108 + 16 * i) (7)
/-- R171. -/
def Reg.TRG_COUNT (i : Nat) : Nat := slot (0x4108 + 16 * i) (8)
/-- R171. -/
def Reg.TRG_LATE_COUNT (i : Nat) : Nat := slot (0x4108 + 16 * i) (9)
/-- R171. -/
def Reg.TRG_QUEUE (i : Nat) : Nat := slot (0x4108 + 16 * i) (10)
/-- R171. -/
def Reg.TRG_LAST_TS (i : Nat) : Nat := slot (0x4108 + 16 * i) (11)
/-- R173. -/
def Reg.TRG_MASK (i e : Nat) : Nat := slot (0x4180 + i) (e)
/-- R174. -/
def Reg.TRG_EXT_DLY (e : Nat) : Nat := slot (0x4140) (e)
/-- R174. -/
def Reg.TRG_EXT_LEVEL : Nat := slot (0x4140) (8)
/-- R174. -/
def Reg.TRG_OUT_CFG (e : Nat) : Nat := slot (0x4141) (e)
/-- R174. -/
def Reg.TRG_PROV_STS : Nat := slot (0x4142) (0)
/-- R174. -/
def Reg.TRG_PROV_CONFIRMED : Nat := slot (0x4142) (1)
/-- R174. -/
def Reg.TRG_PROV_CANCELLED : Nat := slot (0x4142) (2)
/-- R174. -/
def Reg.TRG_PROV_EXPIRED : Nat := slot (0x4142) (3)
/-- R174. -/
def Reg.TRG_PROV_REFUSED : Nat := slot (0x4142) (4)
/-- R174. -/
def Reg.TRG_PROV_UNMATCHED : Nat := slot (0x4142) (5)
/-- R201. -/
def Reg.SEQ_CTL (i : Nat) : Nat := slot (0x4200 + 16 * i) (0)
/-- R201; [20:18] hold a value in SQ0 to SQ3 too. (DESIGN CHOICE, log entry 69.) -/
def Reg.SEQ_CFG (i : Nat) : Nat := slot (0x4200 + 16 * i) (1)
/-- R201. -/
def Reg.SEQ_STS (i : Nat) : Nat := slot (0x4200 + 16 * i) (2)
/-- R201. -/
def Reg.SEQ_PC (i : Nat) : Nat := slot (0x4200 + 16 * i) (3)
/-- R201. -/
def Reg.SEQ_CNT (i e : Nat) : Nat := slot (0x4200 + 16 * i) (4 + e)
/-- R201. -/
def Reg.SEQ_CMP (i e : Nat) : Nat := slot (0x4200 + 16 * i) (8 + e)
/-- R201. -/
def Reg.SEQ_TMR (i : Nat) : Nat := slot (0x4200 + 16 * i) (12)
/-- R201. -/
def Reg.SEQ_TMR_PRESET (i : Nat) : Nat := slot (0x4200 + 16 * i) (13)
/-- R201. -/
def Reg.SEQ_LATCH (i : Nat) : Nat := slot (0x4200 + 16 * i) (14)
/-- R201. -/
def Reg.SEQ_TAKEN_TS (i : Nat) : Nat := slot (0x4200 + 16 * i) (15)
/-- R201. -/
def Reg.SEQ_TAKEN_CC (i : Nat) : Nat := slot (0x4200 + 16 * i) (16)
/-- R201. -/
def Reg.SEQ_TAKEN_INFO (i : Nat) : Nat := slot (0x4200 + 16 * i) (17)
/-- R201. -/
def Reg.SEQ_TRIG_MERGED (i : Nat) : Nat := slot (0x4200 + 16 * i) (18)
/-- R201. -/
def Reg.SEQ_SWFLAG (i : Nat) : Nat := slot (0x4200 + 16 * i) (19)
/-- R201. -/
def Reg.SEQ_SIGNAL (i : Nat) : Nat := slot (0x4200 + 16 * i) (20)
/-- R201. -/
def Reg.SEQ_FAB_SEQ (i : Nat) : Nat := slot (0x4200 + 16 * i) (21)
/-- R201. -/
def Reg.SEQ_FAB_LEAD (i : Nat) : Nat := slot (0x4200 + 16 * i) (22)
/-- R201. -/
def Reg.SEQ_FAULT (i : Nat) : Nat := slot (0x4200 + 16 * i) (23)
/-- R201. -/
def Reg.SEQ_REQ (i : Nat) : Nat := slot (0x4200 + 16 * i) (24)
/-- R201. -/
def Reg.SEQ_SAFE_MAX (i : Nat) : Nat := slot (0x4200 + 16 * i) (25)
/-- R201. -/
def Reg.SEQ_SHADOW_GEN (i : Nat) : Nat := slot (0x4200 + 16 * i) (26)
/-- R201. -/
def Reg.SEQ_HANDOVER_TS (i : Nat) : Nat := slot (0x4200 + 16 * i) (27)
/-- R201. -/
def Reg.SEQ_CAP_IGNORED (i : Nat) : Nat := slot (0x4200 + 16 * i) (28)
/-- R201. -/
def Reg.SEQ_TAG_DROPPED (i : Nat) : Nat := slot (0x4200 + 16 * i) (29)
/-- R225. -/
def Reg.ACQ_CTL (i : Nat) : Nat := slot (0x4300 + 16 * i) (0)
/-- R225. -/
def Reg.ACQ_CFG (i : Nat) : Nat := slot (0x4300 + 16 * i) (1)
/-- R225. -/
def Reg.ACQ_RING (i : Nat) : Nat := slot (0x4300 + 16 * i) (2)
/-- R225. -/
def Reg.ACQ_PRE_LEN (i : Nat) : Nat := slot (0x4300 + 16 * i) (3)
/-- R225. -/
def Reg.ACQ_POST_LEN (i : Nat) : Nat := slot (0x4300 + 16 * i) (4)
/-- R225. -/
def Reg.ACQ_NOTE_MAX (i : Nat) : Nat := slot (0x4300 + 16 * i) (5)
/-- R225. -/
def Reg.ACQ_PUB (i : Nat) : Nat := slot (0x4300 + 16 * i) (6)
/-- R225. -/
def Reg.ACQ_REL (i : Nat) : Nat := slot (0x4300 + 16 * i) (7)
/-- R225. -/
def Reg.ACQ_SEQ_NEXT (i : Nat) : Nat := slot (0x4300 + 16 * i) (8)
/-- R225. -/
def Reg.ACQ_STS (i : Nat) : Nat := slot (0x4300 + 16 * i) (9)
/-- R225. -/
def Reg.ACQ_LAST_TS (i : Nat) : Nat := slot (0x4300 + 16 * i) (10)
/-- R225. -/
def Reg.ACQ_NOTES_LOST (i : Nat) : Nat := slot (0x4300 + 16 * i) (11)
/-- R225. -/
def Reg.ACQ_CLAMPED (i : Nat) : Nat := slot (0x4300 + 16 * i) (12)
/-- R250. -/
def Reg.CAN_CTL (i : Nat) : Nat := slot (0x4400 + 16 * i) (0)
/-- R250. -/
def Reg.CAN_CFG (i : Nat) : Nat := slot (0x4400 + 16 * i) (1)
/-- R250. -/
def Reg.CAN_STS (i : Nat) : Nat := slot (0x4400 + 16 * i) (2)
/-- R250. -/
def Reg.CAN_DECAY (i : Nat) : Nat := slot (0x4400 + 16 * i) (3)
/-- R250. -/
def Reg.CAN_DECAY_PERIOD (i : Nat) : Nat := slot (0x4400 + 16 * i) (4)
/-- R250. -/
def Reg.CAN_COUNTED (i : Nat) : Nat := slot (0x4400 + 16 * i) (5)
/-- R250. -/
def Reg.CAN_DECAYS (i : Nat) : Nat := slot (0x4400 + 16 * i) (6)
/-- R250. -/
def Reg.CAN_INVALID (i : Nat) : Nat := slot (0x4400 + 16 * i) (7)
/-- R250. -/
def Reg.CAN_HELD (i : Nat) : Nat := slot (0x4400 + 16 * i) (8)
/-- R250. -/
def Reg.CAN_OUT_LOW (i : Nat) : Nat := slot (0x4400 + 16 * i) (9)
/-- R250. -/
def Reg.CAN_OUT_HIGH (i : Nat) : Nat := slot (0x4400 + 16 * i) (10)
/-- R250. -/
def Reg.CAN_DECAY_MISSED (i : Nat) : Nat := slot (0x4400 + 16 * i) (11)
/-- R250. -/
def Reg.CAN_CLEAR_TS (i : Nat) : Nat := slot (0x4400 + 16 * i) (12)
/-- R250. -/
def Reg.CAN_LAST_TS (i : Nat) : Nat := slot (0x4400 + 16 * i) (13)
/-- R250. -/
def Reg.CAN_SHADOW_GEN (i : Nat) : Nat := slot (0x4400 + 16 * i) (14)
/-- R250. -/
def Reg.CAN_SNAP_ADDR (i : Nat) : Nat := slot (0x4400 + 16 * i) (15)
/-- R250. -/
def Reg.CAN_SNAP_WIN (i : Nat) : Nat := slot (0x4400 + 16 * i) (16)
/-- R250. -/
def Reg.CAN_USE (i : Nat) : Nat := slot (0x4400 + 16 * i) (17)
/-- R250. -/
def Reg.CAN_REGION (i e : Nat) : Nat := slot (0x4401 + 16 * i) (2 * e)
/-- R250. -/
def Reg.CAN_REGION_THR (i e : Nat) : Nat := slot (0x4401 + 16 * i) (1 + 2 * e)
/-- R250. -/
def Reg.SPG_CTL (i : Nat) : Nat := slot (0x4402 + 16 * i) (0)
/-- R250. -/
def Reg.SPG_CFG (i : Nat) : Nat := slot (0x4402 + 16 * i) (1)
/-- R250. -/
def Reg.SPG_RING (i : Nat) : Nat := slot (0x4402 + 16 * i) (2)
/-- R250. -/
def Reg.SPG_HEAD (i : Nat) : Nat := slot (0x4402 + 16 * i) (3)
/-- R250. -/
def Reg.SPG_DROPPED (i : Nat) : Nat := slot (0x4402 + 16 * i) (4)
/-- R250. -/
def Reg.SPG_STS (i : Nat) : Nat := slot (0x4402 + 16 * i) (5)
/-- R250. -/
def Reg.SPG_LAST_TS (i : Nat) : Nat := slot (0x4402 + 16 * i) (6)
/-- R272. -/
def Reg.SCN_CTL : Nat := slot (0x4500) (0)
/-- R272. -/
def Reg.SCN_CFG : Nat := slot (0x4500) (1)
/-- R272. -/
def Reg.SCN_STS : Nat := slot (0x4500) (2)
/-- R272. -/
def Reg.SCN_H_TIMING : Nat := slot (0x4500) (3)
/-- R272. -/
def Reg.SCN_V_TIMING : Nat := slot (0x4500) (4)
/-- R272. -/
def Reg.SCN_PIXCLK : Nat := slot (0x4500) (5)
/-- R272. -/
def Reg.SCN_FRAME : Nat := slot (0x4500) (6)
/-- R272. -/
def Reg.SCN_FLIP_TS : Nat := slot (0x4500) (7)
/-- R272. -/
def Reg.SCN_FLIP_CC : Nat := slot (0x4500) (8)
/-- R272. -/
def Reg.SCN_FLIP_FRAME : Nat := slot (0x4500) (9)
/-- R272. -/
def Reg.SCN_SHADOW_GEN : Nat := slot (0x4500) (10)
/-- R272. -/
def Reg.SCN_BG : Nat := slot (0x4500) (11)
/-- R272. -/
def Reg.SCN_PLOT_RECT : Nat := slot (0x4500) (12)
/-- R272. -/
def Reg.SCN_DENS_CFG : Nat := slot (0x4500) (13)
/-- R272. -/
def Reg.SCN_OVL_ADDR : Nat := slot (0x4500) (14)
/-- R272. -/
def Reg.SCN_OVL_CFG : Nat := slot (0x4500) (15)
/-- R272. -/
def Reg.SCN_OVL_RECT : Nat := slot (0x4500) (16)
/-- R272. -/
def Reg.SCN_UNDERRUN : Nat := slot (0x4500) (17)
/-- R272. -/
def Reg.SCN_GL_ERR : Nat := slot (0x4500) (18)
/-- R272. -/
def Reg.SCN_PIX_ADJ : Nat := slot (0x4500) (19)
/-- R272. -/
def Reg.SCN_RETRAINS : Nat := slot (0x4500) (20)
/-- R272. -/
def Reg.SCN_FRAMES_LOST : Nat := slot (0x4500) (21)
/-- R272. -/
def Reg.SCN_GL_OFS : Nat := slot (0x4500) (22)
/-- R272. -/
def Reg.SCN_TRACE (e : Nat) : Nat := slot (0x4501) (2 * e)
/-- R272. -/
def Reg.SCN_TRACE_BUF (e : Nat) : Nat := slot (0x4501) (1 + 2 * e)
/-- R272. -/
def Reg.SCN_CT0 (i e : Nat) : Nat := slot (0x4502 + i) (e)
/-- R272. -/
def Reg.SCN_CT1 (i e : Nat) : Nat := slot (0x4504 + i) (e)
/-- R309. -/
def Reg.LNT_CTL (i : Nat) : Nat := slot (0x5000 + i) (0)
/-- R309. -/
def Reg.LNT_STS (i : Nat) : Nat := slot (0x5000 + i) (1)
/-- R309. -/
def Reg.LNT_PC (i : Nat) : Nat := slot (0x5000 + i) (2)
/-- R309. -/
def Reg.LNT_SR (i : Nat) : Nat := slot (0x5000 + i) (3)
/-- R309. -/
def Reg.LNT_TASK_LIMIT (i : Nat) : Nat := slot (0x5000 + i) (4)
/-- R309. -/
def Reg.LNT_TASK_SEQ (i : Nat) : Nat := slot (0x5000 + i) (5)
/-- R309. -/
def Reg.LNT_TASKS (i : Nat) : Nat := slot (0x5000 + i) (6)
/-- R309. -/
def Reg.LNT_BUSY (i : Nat) : Nat := slot (0x5000 + i) (7)
/-- R309. -/
def Reg.LNT_FAULT_TS (i : Nat) : Nat := slot (0x5000 + i) (8)
/-- R309. -/
def Reg.LNT_MEM_CORR (i : Nat) : Nat := slot (0x5000 + i) (9)
/-- R309. -/
def Reg.LNT_XFER_ERR (i : Nat) : Nat := slot (0x5000 + i) (10)
/-- R309. -/
def Reg.LNT_QF_COUNT (i : Nat) : Nat := slot (0x5000 + i) (11)
/-- R309. -/
def Reg.LNT_POOL_CTL (i : Nat) : Nat := slot (0x5020 + i) (0)
/-- R309. -/
def Reg.LNT_POOL_CFG (i : Nat) : Nat := slot (0x5020 + i) (1)
/-- R309. -/
def Reg.LNT_POOL_MEMBERS (i : Nat) : Nat := slot (0x5020 + i) (2)
/-- R309. -/
def Reg.LNT_POOL_NEXT_SEQ (i : Nat) : Nat := slot (0x5020 + i) (3)
/-- R309. -/
def Reg.LNT_POOL_DONE_SEQ (i : Nat) : Nat := slot (0x5020 + i) (4)
/-- R309. -/
def Reg.LNT_POOL_HELD (i : Nat) : Nat := slot (0x5020 + i) (5)
/-- R309. -/
def Reg.LNT_POOL_RETRIES (i : Nat) : Nat := slot (0x5020 + i) (6)
/-- R309. -/
def Reg.LNT_POOL_DEAD (i : Nat) : Nat := slot (0x5020 + i) (7)
/-- R309. -/
def Reg.LNT_POOL_DEAD_SEQ (i : Nat) : Nat := slot (0x5020 + i) (8)
/-- R339. -/
def Reg.TIM_CTL (i : Nat) : Nat := slot (0x5100 + i) (0)
/-- R339. -/
def Reg.TIM_STS (i : Nat) : Nat := slot (0x5100 + i) (1)
/-- R339. -/
def Reg.TIM_DLY (i : Nat) : Nat := slot (0x5100 + i) (2)
/-- R339. -/
def Reg.TIM_MERGED (i : Nat) : Nat := slot (0x5100 + i) (3)
/-- R339. -/
def Reg.TIM_RANGE_ERR (i : Nat) : Nat := slot (0x5100 + i) (4)
/-- R339. -/
def Reg.TIM_CAL_GEN (i : Nat) : Nat := slot (0x5100 + i) (5)
/-- R339. -/
def Reg.TIM_CAL_TS (i : Nat) : Nat := slot (0x5100 + i) (6)
/-- R339. -/
def Reg.TIM_REF_SPAN (i : Nat) : Nat := slot (0x5100 + i) (7)
/-- R339. -/
def Reg.TIM_TRIM (i : Nat) : Nat := slot (0x5100 + i) (8)
/-- R339. -/
def Reg.TIM_S_CFG (i e : Nat) : Nat := slot (0x5100 + i) (16 + 16 * e)
/-- R339. -/
def Reg.TIM_S_RING (i e : Nat) : Nat := slot (0x5100 + i) (17 + 16 * e)
/-- R339. -/
def Reg.TIM_S_PUB (i e : Nat) : Nat := slot (0x5100 + i) (18 + 16 * e)
/-- R339. -/
def Reg.TIM_S_REL (i e : Nat) : Nat := slot (0x5100 + i) (19 + 16 * e)
/-- R339. -/
def Reg.TIM_S_QUEUE (i e : Nat) : Nat := slot (0x5100 + i) (20 + 16 * e)
/-- R339. -/
def Reg.TIM_S_PARAM (i e : Nat) : Nat := slot (0x5100 + i) (21 + 16 * e)
/-- R339. -/
def Reg.TIM_S_COUNT (i e : Nat) : Nat := slot (0x5100 + i) (22 + 16 * e)
/-- R339. -/
def Reg.TIM_S_LOST (i e : Nat) : Nat := slot (0x5100 + i) (23 + 16 * e)
/-- R339. -/
def Reg.TIM_S_ORPHAN (i e : Nat) : Nat := slot (0x5100 + i) (24 + 16 * e)
/-- R339. -/
def Reg.TIM_S_UNPAIRED (i e : Nat) : Nat := slot (0x5100 + i) (25 + 16 * e)
/-- R339. -/
def Reg.TIM_S_LAST (i e : Nat) : Nat := slot (0x5100 + i) (26 + 16 * e)
/-- R339. -/
def Reg.TIM_S_LEVEL (i e : Nat) : Nat := slot (0x5100 + i) (27 + 16 * e)
/-- R339. -/
def Reg.TIM_INL (i e : Nat) : Nat := slot (0x5180 + i) (e)
/-- R339. -/
def Reg.TIM_INL_CFG : Nat := slot (0x5140) (0)
/-- R339. -/
def Reg.TIM_STAMPS : Nat := slot (0x5140) (1)
/-- R341. -/
def Reg.CMP_THR (i : Nat) : Nat := slot (0x5200 + i) (0)
/-- R341. -/
def Reg.CMP_HYST (i : Nat) : Nat := slot (0x5200 + i) (1)
/-- R341. -/
def Reg.CMP_STS (i : Nat) : Nat := slot (0x5200 + i) (2)
/-- R341. -/
def Reg.CMP_CTL (i : Nat) : Nat := slot (0x5200 + i) (3)
/-- R341. -/
def Reg.CMP_BELOW_COUNT (i : Nat) : Nat := slot (0x5200 + i) (4)
/-- R341. -/
def Reg.CMP_ABOVE_COUNT (i : Nat) : Nat := slot (0x5200 + i) (5)
/-- R357. -/
def Reg.CCS_CTL : Nat := slot (0x2100) (0)
/-- R357. -/
def Reg.CCS_CFG : Nat := slot (0x2100) (1)
/-- R357. -/
def Reg.CCS_STS : Nat := slot (0x2100) (2)
/-- R357. -/
def Reg.CCS_ORIGIN : Nat := slot (0x2100) (3)
/-- R357. -/
def Reg.CCS_CYC_DLY : Nat := slot (0x2100) (4)
/-- R357. -/
def Reg.CCS_NOW : Nat := slot (0x2100) (5)
/-- R357. -/
def Reg.CCS_ORIGIN_TS : Nat := slot (0x2100) (6)
/-- R357. -/
def Reg.CCS_PERIOD : Nat := slot (0x2100) (7)
/-- R357. -/
def Reg.CCS_JITTER : Nat := slot (0x2100) (8)
/-- R357. -/
def Reg.CCS_HOLD_MAX : Nat := slot (0x2100) (9)
/-- R357. -/
def Reg.CCS_VEC0_LAST : Nat := slot (0x2100) (10)
/-- R357. -/
def Reg.CCS_VEC0_COUNT : Nat := slot (0x2100) (11)
/-- R357. -/
def Reg.CCS_LOCK_COUNT : Nat := slot (0x2100) (12)
/-- R357. -/
def Reg.CCS_HOLD_TS : Nat := slot (0x2100) (13)
/-- R357. -/
def Reg.CCS_WP_CTL : Nat := slot (0x2101) (0)
/-- R357. -/
def Reg.CCS_WP_CFG : Nat := slot (0x2101) (1)
/-- R357. -/
def Reg.CCS_WP_STS : Nat := slot (0x2101) (2)
/-- R357. -/
def Reg.CCS_WP_HEAD : Nat := slot (0x2101) (3)
/-- R357. -/
def Reg.CCS_WP_TAIL : Nat := slot (0x2101) (4)
/-- R357. -/
def Reg.CCS_WP_FIRED : Nat := slot (0x2101) (5)
/-- R357. -/
def Reg.CCS_WP_LATE : Nat := slot (0x2101) (6)
/-- R357. -/
def Reg.CCS_WP_SKIPPED : Nat := slot (0x2101) (7)
/-- R357. -/
def Reg.CCS_WP_REFUSED : Nat := slot (0x2101) (8)
/-- R357. -/
def Reg.CCS_WP_LAST_TS : Nat := slot (0x2101) (9)
/-- R357. -/
def Reg.CCS_FAB_SEQ : Nat := slot (0x2101) (10)
/-- R357. -/
def Reg.CCS_WP_CANCELLED : Nat := slot (0x2101) (11)
/-- R357. -/
def Reg.CCS_WP_TABLE (i e : Nat) : Nat := slot (0x2180 + i) (e)
/-- R373. -/
def Reg.SUP_G_CTL (i : Nat) : Nat := slot (0x5300 + i) (0)
/-- R373. -/
def Reg.SUP_G_CFG (i : Nat) : Nat := slot (0x5300 + i) (1)
/-- R373. -/
def Reg.SUP_G_STS (i : Nat) : Nat := slot (0x5300 + i) (2)
/-- R373. -/
def Reg.SUP_G_DELAY (i : Nat) : Nat := slot (0x5300 + i) (3)
/-- R373. -/
def Reg.SUP_G_TIMER (i : Nat) : Nat := slot (0x5300 + i) (4)
/-- R373. -/
def Reg.SUP_G_PW (i : Nat) : Nat := slot (0x5300 + i) (5)
/-- R373. -/
def Reg.SUP_G_TS (i : Nat) : Nat := slot (0x5300 + i) (6)
/-- R373. -/
def Reg.SUP_G_CC (i : Nat) : Nat := slot (0x5300 + i) (7)
/-- R373. -/
def Reg.SUP_G_STARTED (i : Nat) : Nat := slot (0x5300 + i) (8)
/-- R373. -/
def Reg.SUP_G_DONE_SEQ (i : Nat) : Nat := slot (0x5300 + i) (9)
/-- R373. -/
def Reg.SUP_G_OVERRUN (i : Nat) : Nat := slot (0x5300 + i) (10)
/-- R373. -/
def Reg.SUP_G_TRIG_TS (i : Nat) : Nat := slot (0x5300 + i) (11)
/-- R373. -/
def Reg.SUP_SEQ (i e : Nat) : Nat := slot (0x5310 + i) (e)
/-- R373. -/
def Reg.SUP_RESULT (i e : Nat) : Nat := slot (0x5320 + i) (e)
/-- R375. -/
def Reg.SUP_IC_CTL (i : Nat) : Nat := slot (0x5340 + i) (0)
/-- R375. -/
def Reg.SUP_IC_CFG (i : Nat) : Nat := slot (0x5340 + i) (1)
/-- R375. -/
def Reg.SUP_IC_STS (i : Nat) : Nat := slot (0x5340 + i) (2)
/-- R375. -/
def Reg.SUP_IC_DELAY (i : Nat) : Nat := slot (0x5340 + i) (3)
/-- R375. -/
def Reg.SUP_IC_TIMER (i : Nat) : Nat := slot (0x5340 + i) (4)
/-- R375. -/
def Reg.SUP_IC_PW (i : Nat) : Nat := slot (0x5340 + i) (5)
/-- R375. -/
def Reg.SUP_IC_LEN (i : Nat) : Nat := slot (0x5340 + i) (6)
/-- R375. -/
def Reg.SUP_IC_RESULT (i : Nat) : Nat := slot (0x5340 + i) (7)
/-- R375. -/
def Reg.SUP_IC_START_TS (i : Nat) : Nat := slot (0x5340 + i) (8)
/-- R375. -/
def Reg.SUP_IC_END_TS (i : Nat) : Nat := slot (0x5340 + i) (9)
/-- R375. -/
def Reg.SUP_IC_START_CC (i : Nat) : Nat := slot (0x5340 + i) (10)
/-- R375. -/
def Reg.SUP_IC_GEN (i : Nat) : Nat := slot (0x5340 + i) (11)
/-- R375. -/
def Reg.SUP_IC_OVERRUN (i : Nat) : Nat := slot (0x5340 + i) (12)
/-- R376. -/
def Reg.CMP_MON_CTL (i : Nat) : Nat := slot (0x5240 + i) (0)
/-- R376. -/
def Reg.CMP_MON_CFG (i : Nat) : Nat := slot (0x5240 + i) (1)
/-- R376. -/
def Reg.CMP_MON_THR (i : Nat) : Nat := slot (0x5240 + i) (2)
/-- R376. -/
def Reg.CMP_MON_STS (i : Nat) : Nat := slot (0x5240 + i) (3)
/-- R376. -/
def Reg.CMP_MON_LOW_COUNT (i : Nat) : Nat := slot (0x5240 + i) (4)
/-- R376. -/
def Reg.CMP_MON_HIGH_COUNT (i : Nat) : Nat := slot (0x5240 + i) (5)
/-- R376. -/
def Reg.CMP_MON_UNDET_COUNT (i : Nat) : Nat := slot (0x5240 + i) (6)
/-- R376. -/
def Reg.CMP_MON_LAST_TS (i : Nat) : Nat := slot (0x5240 + i) (7)
/-- R376. -/
def Reg.CMP_MON_TICK : Nat := slot (0x5250) (0)
/-- R402. -/
def Reg.MEM_CTL : Nat := slot (0x6000) (0)
/-- R402. -/
def Reg.MEM_CFG : Nat := slot (0x6000) (1)
/-- R402. -/
def Reg.MEM_STS : Nat := slot (0x6000) (2)
/-- R402. -/
def Reg.MEM_SIZE : Nat := slot (0x6000) (3)
/-- R402. -/
def Reg.MEM_RATE_REQ : Nat := slot (0x6000) (4)
/-- R402. -/
def Reg.MEM_ERR_ADDR : Nat := slot (0x6000) (5)
/-- R402. -/
def Reg.MEM_ERR_TS : Nat := slot (0x6000) (6)
/-- R402. -/
def Reg.MEM_RT_GAP_MAX : Nat := slot (0x6000) (7)
/-- R402. -/
def Reg.MEM_REF_LATE : Nat := slot (0x6000) (8)
/-- R402. -/
def Reg.MEM_BGT_CFG : Nat := slot (0x6000) (9)
/-- R402. -/
def Reg.MEM_BULK_WAIT : Nat := slot (0x6000) (10)
/-- R402. -/
def Reg.MEM_TRAIN_TS : Nat := slot (0x6000) (11)
/-- R402. -/
def Reg.MEM_DEV_STS (i : Nat) : Nat := slot (0x6010 + i) (0)
/-- R402. -/
def Reg.MEM_DEV_EDC_RETRY (i : Nat) : Nat := slot (0x6010 + i) (1)
/-- R402. -/
def Reg.MEM_DEV_ODECC_CORR (i : Nat) : Nat := slot (0x6010 + i) (2)
/-- R402. -/
def Reg.MEM_DEV_UNCORR (i : Nat) : Nat := slot (0x6010 + i) (3)
/-- R402. -/
def Reg.MEM_LANE (i e : Nat) : Nat := slot (0x6010 + i) (4 + e)
/-- R404. -/
def Reg.SRM_CORR (e : Nat) : Nat := slot (0x6100) (e)
/-- R404. -/
def Reg.SRM_UNCORR (e : Nat) : Nat := slot (0x6100) (5 + e)
/-- R404. -/
def Reg.SRM_ERR_ADDR : Nat := slot (0x6100) (10)
/-- R404. -/
def Reg.SRM_ERR_TS : Nat := slot (0x6100) (11)
/-- R404. -/
def Reg.SRM_SCRUB : Nat := slot (0x6100) (12)
/-- R404. -/
def Reg.SRM_PART : Nat := slot (0x6100) (16)
/-- R425. -/
def Reg.QDM_CTX_BASE : Nat := slot (0x6200) (0)
/-- R425. -/
def Reg.QDM_Q_CMD : Nat := slot (0x6200) (1)
/-- R425. -/
def Reg.QDM_Q_STS : Nat := slot (0x6200) (2)
/-- R425. -/
def Reg.QDM_DOORBELL : Nat := slot (0x6200) (3)
/-- R425. -/
def Reg.QDM_DB_IGNORED : Nat := slot (0x6200) (4)
/-- R425. -/
def Reg.QDM_Q_ENABLED : Nat := slot (0x6200) (5)
/-- R425. -/
def Reg.QDM_FEED (e : Nat) : Nat := slot (0x6210) (e)
/-- R427. -/
def Reg.QDM_CH_CTL (i : Nat) : Nat := slot (0x6240 + i) (0)
/-- R427. -/
def Reg.QDM_CH_STS (i : Nat) : Nat := slot (0x6240 + i) (1)
/-- R427. -/
def Reg.QDM_CH_BASE (i : Nat) : Nat := slot (0x6240 + i) (2)
/-- R427. -/
def Reg.QDM_CH_COUNT (i : Nat) : Nat := slot (0x6240 + i) (3)
/-- R427. -/
def Reg.QDM_CH_NEXT_BASE (i : Nat) : Nat := slot (0x6240 + i) (4)
/-- R427. -/
def Reg.QDM_CH_NEXT_COUNT (i : Nat) : Nat := slot (0x6240 + i) (5)
/-- R427. -/
def Reg.QDM_CH_CUR (i : Nat) : Nat := slot (0x6240 + i) (6)
/-- R427. -/
def Reg.QDM_CH_OFFSET (i : Nat) : Nat := slot (0x6240 + i) (7)
/-- R427. -/
def Reg.QDM_CH_SHADOW_GEN (i : Nat) : Nat := slot (0x6240 + i) (8)
/-- R427. -/
def Reg.QDM_CH_BAD (i : Nat) : Nat := slot (0x6240 + i) (9)
/-- R427. -/
def Reg.QDM_CH_BYTES (i : Nat) : Nat := slot (0x6240 + i) (10)
/-- R427. -/
def Reg.QDM_CH_LAST_TS (i : Nat) : Nat := slot (0x6240 + i) (11)
/-- R456. -/
def Reg.PCI_PORT_CFG (i : Nat) : Nat := slot (0x6300 + i) (0)
/-- R456. -/
def Reg.PCI_PORT_STS (i : Nat) : Nat := slot (0x6300 + i) (1)
/-- R456. -/
def Reg.PCI_LINK_DOWNS (i : Nat) : Nat := slot (0x6300 + i) (2)
/-- R456. -/
def Reg.PCI_ERR_CORR (i : Nat) : Nat := slot (0x6300 + i) (3)
/-- R456. -/
def Reg.PCI_ERR_UNCORR (i : Nat) : Nat := slot (0x6300 + i) (4)
/-- R456. -/
def Reg.PCI_EP_ID (i : Nat) : Nat := slot (0x6300 + i) (5)
/-- R456. -/
def Reg.PCI_EP_BAR2 (i : Nat) : Nat := slot (0x6300 + i) (6)
/-- R456. -/
def Reg.PCI_EP_BAD_ACC (i : Nat) : Nat := slot (0x6300 + i) (7)
/-- R456. -/
def Reg.PCI_RP_MEM (i : Nat) : Nat := slot (0x6300 + i) (8)
/-- R456. -/
def Reg.PCI_RP_HP (i : Nat) : Nat := slot (0x6300 + i) (9)
/-- R456. -/
def Reg.PCI_RP_CFG_ACC (i : Nat) : Nat := slot (0x6300 + i) (10)
/-- R456. -/
def Reg.PCI_RP_FN_COUNT (i : Nat) : Nat := slot (0x6300 + i) (11)
/-- R456. -/
def Reg.PCI_RP_FN (i e : Nat) : Nat := slot (0x6310 + i) (2 * e)
/-- R456. -/
def Reg.PCI_RP_FN_STS (i e : Nat) : Nat := slot (0x6310 + i) (1 + 2 * e)
/-- R457. -/
def Reg.DRV_SET_CTL (i : Nat) : Nat := slot (0x6400 + i) (0)
/-- R457. -/
def Reg.DRV_SET_CFG (i : Nat) : Nat := slot (0x6400 + i) (1)
/-- R457. -/
def Reg.DRV_SET_STS (i : Nat) : Nat := slot (0x6400 + i) (2)
/-- R457. -/
def Reg.DRV_SET_STRIPES (i : Nat) : Nat := slot (0x6400 + i) (3)
/-- R457. -/
def Reg.DRV_SET_FLUSH (i : Nat) : Nat := slot (0x6400 + i) (4)
/-- R457. -/
def Reg.DRV_SET_NEXT_BLOCK (i : Nat) : Nat := slot (0x6400 + i) (5)
/-- R457. -/
def Reg.DRV_SET_DURABLE (i : Nat) : Nat := slot (0x6400 + i) (6)
/-- R457. -/
def Reg.DRV_SET_DEG_FROM (i : Nat) : Nat := slot (0x6400 + i) (7)
/-- R457. -/
def Reg.DRV_SET_REBUILT (i : Nat) : Nat := slot (0x6400 + i) (8)
/-- R457. -/
def Reg.DRV_SET_ID (i : Nat) : Nat := slot (0x6400 + i) (9)
/-- R457. -/
def Reg.DRV_SET_GEN (i : Nat) : Nat := slot (0x6400 + i) (10)
/-- R457. -/
def Reg.DRV_REBUILD_RATE (i : Nat) : Nat := slot (0x6400 + i) (11)
/-- R457. -/
def Reg.DRV_MEMBER (i e : Nat) : Nat := slot (0x6410 + i) (2 * e)
/-- R457. -/
def Reg.DRV_MEMBER_STS (i e : Nat) : Nat := slot (0x6410 + i) (1 + 2 * e)
/-- R457. -/
def Reg.DRV_AREA : Nat := slot (0x6420) (0)
/-- R457. -/
def Reg.DRV_JOURNAL_USED : Nat := slot (0x6420) (1)
/-- R457. -/
def Reg.DRV_CMD_TIMEOUT : Nat := slot (0x6420) (2)
/-- R457. -/
def Reg.DRV_CMD_ERR : Nat := slot (0x6420) (3)
/-- R485. -/
def Reg.FAB_CTL : Nat := slot (0x6500) (0)
/-- R485. -/
def Reg.FAB_CFG : Nat := slot (0x6500) (1)
/-- R485. -/
def Reg.FAB_STS : Nat := slot (0x6500) (2)
/-- R485. -/
def Reg.FAB_UID : Nat := slot (0x6500) (3)
/-- R485. -/
def Reg.FAB_ADDR : Nat := slot (0x6500) (4)
/-- R485. -/
def Reg.FAB_ROOT : Nat := slot (0x6500) (5)
/-- R485. -/
def Reg.FAB_ROOT_DIST : Nat := slot (0x6500) (6)
/-- R485. -/
def Reg.FAB_MEMBERS : Nat := slot (0x6500) (7)
/-- R485. -/
def Reg.FAB_TIME_CFG : Nat := slot (0x6500) (8)
/-- R485. -/
def Reg.FAB_TIME_OFS : Nat := slot (0x6500) (9)
/-- R485. -/
def Reg.FAB_STEP_TS : Nat := slot (0x6500) (10)
/-- R485. -/
def Reg.FAB_STEP_SIZE : Nat := slot (0x6500) (11)
/-- R485. -/
def Reg.FAB_E2E_RTO : Nat := slot (0x6500) (12)
/-- R485. -/
def Reg.FAB_UNREACH_MS : Nat := slot (0x6500) (13)
/-- R485. -/
def Reg.FAB_UNREACH : Nat := slot (0x6500) (14)
/-- R485. -/
def Reg.FAB_E2E_DUP : Nat := slot (0x6500) (15)
/-- R485. -/
def Reg.FAB_RL_HOLD : Nat := slot (0x6500) (16)
/-- R485. -/
def Reg.FAB_RL_SEQ : Nat := slot (0x6500) (17)
/-- R485. -/
def Reg.FAB_RL_DUP : Nat := slot (0x6500) (18)
/-- R485. -/
def Reg.FAB_RL_GAPS : Nat := slot (0x6500) (19)
/-- R485. -/
def Reg.FAB_TTL_DROP : Nat := slot (0x6500) (20)
/-- R485. -/
def Reg.FAB_BAD_PKT : Nat := slot (0x6500) (21)
/-- R485. -/
def Reg.FAB_PORT_CTL (i : Nat) : Nat := slot (0x6510 + i) (0)
/-- R485. -/
def Reg.FAB_PORT_STS (i : Nat) : Nat := slot (0x6510 + i) (1)
/-- R485. -/
def Reg.FAB_PORT_NBR (i : Nat) : Nat := slot (0x6510 + i) (2)
/-- R485. -/
def Reg.FAB_PORT_DELAY (i : Nat) : Nat := slot (0x6510 + i) (3)
/-- R485. -/
def Reg.FAB_PORT_ASYM (i : Nat) : Nat := slot (0x6510 + i) (4)
/-- R485. -/
def Reg.FAB_PORT_RETRY (i : Nat) : Nat := slot (0x6510 + i) (5)
/-- R485. -/
def Reg.FAB_PORT_FEC_CORR (i : Nat) : Nat := slot (0x6510 + i) (6)
/-- R485. -/
def Reg.FAB_PORT_FEC_UNCORR (i : Nat) : Nat := slot (0x6510 + i) (7)
/-- R485. -/
def Reg.FAB_PORT_DOWNS (i : Nat) : Nat := slot (0x6510 + i) (8)
/-- R485. -/
def Reg.FAB_LANE_STS (i : Nat) : Nat := slot (0x6520 + i) (1)
/-- R485. -/
def Reg.FAB_DFE_LO (i : Nat) : Nat := slot (0x6520 + i) (2)
/-- R485. -/
def Reg.FAB_DFE_HI (i : Nat) : Nat := slot (0x6520 + i) (3)
/-- R485. -/
def Reg.FAB_EYE_CTL (i : Nat) : Nat := slot (0x6520 + i) (4)
/-- R485. -/
def Reg.FAB_EYE_RESULT (i : Nat) : Nat := slot (0x6520 + i) (5)
/-- R485. -/
def Reg.FAB_ERR_PRBS (i : Nat) : Nat := slot (0x6520 + i) (8)
/-- R485. -/
def Reg.FAB_LANE_CTL (i : Nat) : Nat := slot (0x6520 + i) (0)
/-- R485. -/
def Reg.FAB_ROUTE (e : Nat) : Nat := slot (0x6580) (e)
/-- R485. -/
def Reg.FAB_MEMBER (i e : Nat) : Nat := slot (0x6590 + i) (e)
/-- R502. -/
def Reg.CLK_CTL : Nat := slot (0x2000) (0)
/-- R502. -/
def Reg.CLK_STS : Nat := slot (0x2000) (1)
/-- R502. -/
def Reg.CLK_REF_FREQ : Nat := slot (0x2000) (2)
/-- R502. -/
def Reg.CLK_OFFSET : Nat := slot (0x2000) (3)
/-- R502. -/
def Reg.CLK_OFFSET_NOW : Nat := slot (0x2000) (4)
/-- R502. -/
def Reg.CLK_SYSREF_SKIPPED : Nat := slot (0x2000) (5)
/-- R502. -/
def Reg.CLK_REF_LOSTS : Nat := slot (0x2000) (6)
/-- R502. -/
def Reg.CLK_PLL_CTL (i : Nat) : Nat := slot (0x2010 + i) (0)
/-- R502. -/
def Reg.CLK_PLL_STS (i : Nat) : Nat := slot (0x2010 + i) (1)
/-- R502. -/
def Reg.CLK_PLL_FREQ (i : Nat) : Nat := slot (0x2010 + i) (2)
/-- R502. -/
def Reg.CLK_PLL_UNLOCKS (i : Nat) : Nat := slot (0x2010 + i) (3)
/-- R502. -/
def Reg.CLK_PLL_UNLOCK_TS (i : Nat) : Nat := slot (0x2010 + i) (4)
/-- R502. -/
def Reg.CLK_PLL_LOCK_TS (i : Nat) : Nat := slot (0x2010 + i) (5)
/-- R502. -/
def Reg.CLK_PLL_BYPASS_NS (i : Nat) : Nat := slot (0x2010 + i) (6)
/-- R502. -/
def Reg.CLK_BAND (i e : Nat) : Nat := slot (0x2010 + i) (8 + e)
/-- R526. -/
def Reg.MGT_ETH_CTL : Nat := slot (0x6600) (0)
/-- R526. -/
def Reg.MGT_ETH_CFG : Nat := slot (0x6600) (1)
/-- R526. -/
def Reg.MGT_ETH_STS : Nat := slot (0x6600) (2)
/-- R526. -/
def Reg.MGT_ETH_MAC : Nat := slot (0x6600) (3)
/-- R526. -/
def Reg.MGT_ETH_IP : Nat := slot (0x6600) (4)
/-- R526. -/
def Reg.MGT_ETH_RX : Nat := slot (0x6600) (5)
/-- R526. -/
def Reg.MGT_ETH_TX : Nat := slot (0x6600) (6)
/-- R526. -/
def Reg.MGT_ETH_DROP : Nat := slot (0x6600) (7)
/-- R526. -/
def Reg.MGT_ETH_DOWNS : Nat := slot (0x6600) (8)
/-- R532. -/
def Reg.MGT_ACC_STS (e : Nat) : Nat := slot (0x1100) (e)
/-- R532. -/
def Reg.MGT_ACC_LAST (e : Nat) : Nat := slot (0x1101) (2 * e)
/-- R532. -/
def Reg.MGT_ACC_LAST_TS (e : Nat) : Nat := slot (0x1101) (1 + 2 * e)
/-- R532. -/
def Reg.MGT_RAP_CFG : Nat := slot (0x1102) (0)
/-- R532. -/
def Reg.MGT_RAP_SESSIONS : Nat := slot (0x1102) (1)
/-- R532. -/
def Reg.MGT_RAP_BAD : Nat := slot (0x1102) (2)
/-- R532. -/
def Reg.MGT_RAP_RETRIES : Nat := slot (0x1102) (3)
/-- R532. -/
def Reg.MGT_RAP_STALE : Nat := slot (0x1102) (4)
/-- R532. -/
def Reg.MGT_NOTIFY_RESENT : Nat := slot (0x1102) (5)
/-- R532. -/
def Reg.MGT_SAVE_CTL : Nat := slot (0x1103) (0)
/-- R532. -/
def Reg.MGT_SAVE_STS : Nat := slot (0x1103) (1)
/-- R532. -/
def Reg.MGT_SAVE_GEN : Nat := slot (0x1103) (2)
/-- R532. -/
def Reg.MGT_SAVE_TS : Nat := slot (0x1103) (3)
/-- R532. -/
def Reg.MGT_DESC_Q : Nat := slot (0x1103) (4)
/-- R532. -/
def Reg.MGT_DESC : Nat := slot (0x1103) (5)
/-- R532. -/
def Reg.MGT_PARITY_SRC : Nat := slot (0x1104) (0)
/-- R532. -/
def Reg.MGT_PARITY_TS : Nat := slot (0x1104) (1)
/-- R532. -/
def Reg.MGT_PARITY_COUNT : Nat := slot (0x1104) (2)
/-- R533. -/
def Reg.MGT_EVT_ROUTE (i e : Nat) : Nat := slot (0x1800 + i) (e)
/-- R533. -/
def Reg.MGT_EVT_PEND (e : Nat) : Nat := slot (0x1810) (e)
/-- R533. -/
def Reg.MGT_EVT_SERIAL : Nat := slot (0x1811) (0)
/-- R533. -/
def Reg.MGT_EVT_COALESCED : Nat := slot (0x1811) (1)
/-- R533. -/
def Reg.MGT_EVT_UNROUTED : Nat := slot (0x1811) (2)
/-- R548. -/
def Reg.PROT_LOCK : Nat := slot (0x1200) (0)
/-- R548. -/
def Reg.PROT_DICT (e : Nat) : Nat := slot (0x1201) (e)
/-- R548. -/
def Reg.PROT_EP_WIN (i e : Nat) : Nat := slot (0x1210 + i) (e)
/-- R548. -/
def Reg.PROT_PEER_ID (e : Nat) : Nat := slot (0x1220) (e)
/-- R548. -/
def Reg.PROT_PEER_DEF : Nat := slot (0x1220) (32)
/-- R548. -/
def Reg.PROT_PEER_WIN (i e : Nat) : Nat := slot (0x1230 + i) (e)
/-- R555. -/
def Reg.MGT_RST_CTL : Nat := slot (0x1400) (0)
/-- R555. -/
def Reg.MGT_RST_STS : Nat := slot (0x1400) (1)
/-- R555. -/
def Reg.MGT_RST_TS : Nat := slot (0x1400) (2)
/-- R555. -/
def Reg.MGT_WARM_COUNT : Nat := slot (0x1400) (3)
/-- R555. -/
def Reg.MGT_JRN_AREA : Nat := slot (0x1400) (4)
/-- R555. -/
def Reg.MGT_WDOG : Nat := slot (0x1400) (5)
/-- R555. -/
def Reg.MGT_QUIESCE : Nat := slot (0x1400) (6)
/-- R555. -/
def Reg.MGT_BOOT_STS : Nat := slot (0x1401) (0)
/-- R555. -/
def Reg.MGT_BOOT_SEQ : Nat := slot (0x1401) (1)
/-- R555. -/
def Reg.MGT_BOOT_TS : Nat := slot (0x1401) (2)
/-- R555. -/
def Reg.MGT_BOOT_REC : Nat := slot (0x1401) (3)
/-- R555. -/
def Reg.MGT_ROLLBACK : Nat := slot (0x1401) (4)
/-- R555. -/
def Reg.MGT_KEY_STS : Nat := slot (0x1401) (5)
/-- R555. -/
def Reg.MGT_BLK_RST : Nat := slot (0x1402) (0)
/-- R564. -/
def Reg.PWR_CTL : Nat := slot (0x1300) (0)
/-- R564. -/
def Reg.PWR_STS : Nat := slot (0x1300) (1)
/-- R564. -/
def Reg.PWR_WAKE_EN : Nat := slot (0x1300) (2)
/-- R564. -/
def Reg.PWR_WAKE_AT : Nat := slot (0x1300) (3)
/-- R564. -/
def Reg.PWR_PG_TIMEOUT : Nat := slot (0x1300) (4)
/-- R564. -/
def Reg.PWR_STATE_TS : Nat := slot (0x1300) (5)
/-- R564. -/
def Reg.PWR_TRANSITIONS : Nat := slot (0x1300) (6)
/-- R564. -/
def Reg.PWR_PMBUS_CFG : Nat := slot (0x1300) (7)
/-- R564. -/
def Reg.PWR_RAIL_CFG (i : Nat) : Nat := slot (0x1310 + i) (0)
/-- R564. -/
def Reg.PWR_RAIL_VSET (i : Nat) : Nat := slot (0x1310 + i) (1)
/-- R564. -/
def Reg.PWR_RAIL_TELEM (i : Nat) : Nat := slot (0x1310 + i) (2)
/-- R578. -/
def Reg.CAL_CTL : Nat := slot (0x1600) (0)
/-- R578. -/
def Reg.CAL_CFG : Nat := slot (0x1600) (1)
/-- R578. -/
def Reg.CAL_STS : Nat := slot (0x1600) (2)
/-- R578. -/
def Reg.CAL_IL_LIM : Nat := slot (0x1600) (3)
/-- R578. -/
def Reg.CAL_CONV_LIM : Nat := slot (0x1600) (4)
/-- R578. -/
def Reg.CAL_RETRY : Nat := slot (0x1600) (5)
/-- R578. -/
def Reg.CAL_ID_CTL (i : Nat) : Nat := slot (0x1610 + i) (0)
/-- R578. -/
def Reg.CAL_ID_STS (i : Nat) : Nat := slot (0x1610 + i) (1)
/-- R578. -/
def Reg.CAL_ID_COUNT (i : Nat) : Nat := slot (0x1610 + i) (2)
/-- R578. -/
def Reg.CAL_ID_FAILS (i : Nat) : Nat := slot (0x1610 + i) (3)
/-- R578. -/
def Reg.CAL_ID_LAST_TS (i : Nat) : Nat := slot (0x1610 + i) (4)
/-- R578. -/
def Reg.CAL_ID_LAST_CC (i : Nat) : Nat := slot (0x1610 + i) (5)
/-- R578. -/
def Reg.CAL_ID_TEMP (i : Nat) : Nat := slot (0x1610 + i) (6)
/-- R579. -/
def Reg.HLT_CTL : Nat := slot (0x1500) (0)
/-- R579. -/
def Reg.HLT_VOLT_CFG : Nat := slot (0x1500) (1)
/-- R579. -/
def Reg.HLT_EQ_CFG : Nat := slot (0x1500) (2)
/-- R579. -/
def Reg.HLT_DRAM_CFG : Nat := slot (0x1500) (3)
/-- R579. -/
def Reg.HLT_TRIM_CFG : Nat := slot (0x1500) (4)
/-- R579. -/
def Reg.HLT_TEMP_WARN : Nat := slot (0x1500) (5)
/-- R579. -/
def Reg.HLT_AGE : Nat := slot (0x1500) (6)
/-- R579. -/
def Reg.HLT_VOLT_ADJ : Nat := slot (0x1500) (7)
/-- R579. -/
def Reg.HLT_LIMIT_STS : Nat := slot (0x1500) (8)
/-- R579. -/
def Reg.HLT_JRN_HEAD : Nat := slot (0x1500) (9)
/-- R579. -/
def Reg.HLT_JRN_Q : Nat := slot (0x1500) (10)
/-- R579. -/
def Reg.HLT_TEMP (e : Nat) : Nat := slot (0x1501) (e)
/-- R579. -/
def Reg.HLT_REPLICA (e : Nat) : Nat := slot (0x1502) (e)
/-- R579. -/
def Reg.HLT_LANE (e : Nat) : Nat := slot (0x1503) (e)
/-- R579. -/
def Reg.HLT_JRN_REC (e : Nat) : Nat := slot (0x1504) (e)
/-- R203. -/
def Reg.SEQ_MICRO (i u e : Nat) : Nat := slot (0x4280 + 24 * i + u) (e)
/-- R203. -/
def Reg.SEQ_NANO (i u e : Nat) : Nat := slot (0x4290 + 24 * i + u) (e)

end Sys2Proof.Machine
end

