-- ==== Sys2Proof/Machine/Sparse.lean ====
section
/-! DEFINITION. Sparse storage: a list of key and value pairs in one canonical form, with keys
strictly rising and no value equal to what an unlisted key reads as. The dictionary, the device
memory and the other large stores of the device are held so. -/

namespace Sys2Proof.Machine

/-- The value at key `a`; an unlisted key reads as `d a`. -/
def Sparse.get {α : Type} (d : Nat → α) : List (Nat × α) → Nat → α
  | [], a => d a
  | (k, v) :: r, a => if a = k then v else Sparse.get d r a

/-- Removes every entry of key `a`. -/
def Sparse.erase {α : Type} (m : List (Nat × α)) (a : Nat) : List (Nat × α) :=
  m.filter fun e => !(e.1 == a)

/-- Places an entry before the first larger key. -/
def Sparse.place {α : Type} (a : Nat) (x : α) : List (Nat × α) → List (Nat × α)
  | [] => [(a, x)]
  | (k, v) :: r => if a < k then (a, x) :: (k, v) :: r else (k, v) :: Sparse.place a x r

/-- Writes `x` at key `a`; writing what an unlisted key reads as removes the entry. -/
def Sparse.put {α : Type} [DecidableEq α] (d : Nat → α) (m : List (Nat × α)) (a : Nat) (x : α) :
    List (Nat × α) :=
  if x = d a then Sparse.erase m a else Sparse.place a x (Sparse.erase m a)

/-- The canonical form: keys strictly rising, no entry equal to the default of its key. -/
def Sparse.wf {α : Type} [DecidableEq α] (d : Nat → α) : List (Nat × α) → Bool
  | [] => true
  | [(k, v)] => decide (v ≠ d k)
  | (k, v) :: (k', v') :: r => decide (v ≠ d k) && decide (k < k') && Sparse.wf d ((k', v') :: r)

/-- Keeps the entries whose key satisfies `p`: everything else returns to its default. -/
def Sparse.restrict {α : Type} (p : Nat → Bool) (m : List (Nat × α)) : List (Nat × α) :=
  m.filter fun e => p e.1

end Sys2Proof.Machine
end

