-- ==== Sys2Proof/Machine/State.lean ====
section
/-! DEFINITION. The state of the device, its faults and refusals, and the state after cold reset. -/

namespace Sys2Proof.Machine

/-- Why a command stops the model. -/
inductive Fault
  /-- Raised by any command whose outcome rule R`rule` calls undefined (R609 and the rules that say
  so themselves). The device does something the spec does not give; stopping is safe. -/
  | undefinedOutcome (rule : Nat)
  deriving DecidableEq, Repr

/-- Why the model declines a command. -/
inductive Refusal
  /-- A command whose meaning is not written yet. Safe: nothing is proved of it. -/
  | notModelled (mnemonic : String)
  deriving DecidableEq, Repr

/-- The device. -/
structure State where
  /-- The dictionary: slots that differ from their default, by slot number (R10, R505). -/
  regs : List (Nat × BitVec 64)
  /-- GDDR7 and the SRAM ring area, by device address (R380). -/
  mem : List Host.Cell
  /-- Bytes of GDDR7 whose latest read failed in every retry, and what it returned (R394). -/
  misread : List Host.Cell
  /-- Device time: COARSE * 4096 + FRAC, 60 bits (R2). -/
  time : Nat
  clk : Clk
  ccs : Ccs
  mgt : Mgt
  lanes : Vector LaneGroup 4
  /-- Eye scan points in progress (R40): J-lane, or 48 + F-lane, and DWELL. -/
  eyes : List (Nat × Nat)
  cnd : Vector CndChan 4
  spx : Vector SpxRes 8
  canopy : Vector CanopyChan 4
  spg : Vector SpgChan 4
  scn : Scn
  lnt : Vector LntCore 32
  /-- Tasks held by each pool, in TSEQ order. -/
  pools : Vector (List LntTask) 8
  tims : Vector TimInput 64
  /-- The stamp FIFO that the stream writers served last, 2 * input + stream (R334). -/
  timServed : Nat
  sups : Vector SupUnit 20
  mon : Mon
  ddr : Ddr
  writers : Vector Writer 4
  trig : Vector TrigChan 4
  seqs : Vector Seq 5
  /-- The provisional store (R162), oldest first. -/
  prov : List Provisional
  /-- The pulses on each TRIG_OUT, oldest first, as their starts and ends in device time (R167). -/
  pulses : Vector (List (Nat × Nat)) 4
  /-- Live state of the enabled queues, by queue number (R406). -/
  queues : List (Nat × QueueLive)
  dma : Vector DmaChan 128
  feeds : Vector Feed 16
  pwr : Pwr
  boot : Boot
  hlt : Hlt
  drv : Drv
  ep : Vector EpFn 4
  /-- PCIe requests that wait for GDDR7, oldest first (R383). -/
  heldReqs : List HeldRequest
  fab : Fab
  /-- The instruction in the JTAG port's register (R600): 0 BYPASS, 1 IDCODE, 2 SAMPLE/PRELOAD,
  3 EXTEST. -/
  jtag : Fin 4
  /-- Messages that have left the device, oldest first. -/
  out : List OutMsg
  /-- The model's own counter that selects fresh free values. -/
  fresh : Nat
  /-- Commands waiting, first in, first out. -/
  pending : List Instr
  deriving DecidableEq, Repr

/-- The active conditioning settings right after cold reset: the defaults of their shadows (R98).
(DESIGN CHOICE, log entry 4.) -/
def CndActive.reset : CndActive where
  ftw := 0
  pow := 0
  bank := 0
  ofsE := 0
  ofsO := 0
  gain := 0x800000
  taps := List.replicate 16 0 ++ [0x400000] ++ List.replicate 15 0

/-- The active scan-out settings right after cold reset: the defaults of their shadows (R272).
(DESIGN CHOICE, log entry 4.) -/
def ScnActive.reset : ScnActive where
  bg := 0
  plot := 0x86FEFF000000
  dens := 0x3FF00000
  ovlAddr := 0
  ovlCfg := 0xF00
  ovlRect := 0x86FEFF000000
  traces := List.replicate 8 (0, 0)

/-- The scan-out right after reset, off. -/
def Scn.off : Scn :=
  { (default : Scn) with act := ScnActive.reset, wait := Vector.replicate 8 none, copy := List.replicate 8 [] }

/-- The device right after cold reset (R15, R549): every entry at its default, memories and queues
empty, every block off. (DESIGN CHOICE, log entry 4.) (PRESUMED, log entry 45.) -/
def State.reset : State where
  regs := []
  mem := []
  misread := []
  time := 0
  clk := default
  ccs := default
  mgt := default
  lanes := Vector.replicate 4 default
  eyes := []
  cnd := Vector.replicate 4 { (default : CndChan) with act := CndActive.reset }
  spx := Vector.replicate 8 default
  canopy := Vector.replicate 4 default
  spg := Vector.replicate 4 default
  scn := Scn.off
  lnt := Vector.replicate 32 default
  pools := Vector.replicate 8 []
  tims := Vector.replicate 64 default
  timServed := 127
  sups := Vector.replicate 20 default
  mon := default
  ddr := default
  writers := Vector.replicate 4 default
  trig := Vector.replicate 4 default
  seqs := Vector.replicate 5 default
  prov := []
  pulses := Vector.replicate 4 []
  queues := []
  dma := Vector.replicate 128 default
  feeds := Vector.replicate 16 default
  pwr := default
  boot := default
  hlt := { il := [(0, 0x800000), (0, 0x800000)] }
  drv := default
  ep := Vector.replicate 4 default
  heldReqs := []
  fab := default
  jtag := 1
  out := []
  fresh := 0
  pending := []

end Sys2Proof.Machine
end

