-- ==== Sys2Proof/Machine/Ops.lean ====
section
/-! DEFINITION. The named operations every block shares: reading and writing dictionary slots and
their fields, counters, device time and stamps, cycle coordinates, device memory, access flags,
queues and the raising of events. -/

namespace Sys2Proof.Machine

/-! ### Dictionary slots (R505) -/

/-- The content of a slot. -/
def State.rd (s : State) (k : Nat) : BitVec 64 := Sparse.get regDefault s.regs k

/-- Sets the content of a slot. -/
def State.wr (s : State) (k : Nat) (v : BitVec 64) : State :=
  { s with regs := Sparse.put regDefault s.regs k v }

/-- Field [hi:lo] of a slot. -/
def State.fld (s : State) (k hi lo : Nat) : Nat := getF (s.rd k) hi lo

/-- Bit `b` of a slot. -/
def State.bit (s : State) (k b : Nat) : Bool := bitAt (s.rd k) b

/-- Sets field [hi:lo] of a slot. -/
def State.setFld (s : State) (k hi lo x : Nat) : State := s.wr k (setF (s.rd k) hi lo x)

/-- Sets bit `b` of a slot. -/
def State.putBit (s : State) (k b : Nat) (x : Bool) : State := s.wr k (setBit (s.rd k) b x)

/-- Sets the whole content of a slot to a number. -/
def State.wrN (s : State) (k n : Nat) : State := s.wr k (BitVec.ofNat 64 n)

/-- The content of a slot as a number. -/
def State.rdN (s : State) (k : Nat) : Nat := (s.rd k).toNat

/-- Sets a signed entry of `w` bits (R10: I24, I48), held in its low `w` bits. -/
def State.wrI (s : State) (k w : Nat) (i : Int) : State := s.wrN k (ofSigned w i)

/-- A signed entry of `w` bits. -/
def State.rdI (s : State) (k w : Nat) : Int := toSigned w (s.rdN k)

/-- Advances a counter that saturates at `w` bits (R12). -/
def State.bumpSat (s : State) (k w : Nat) (n : Nat := 1) : State :=
  s.wrN k (satAdd w (s.rdN k) n)

/-- Advances a counter that wraps at `w` bits (R12). -/
def State.bump (s : State) (k w : Nat) (n : Nat := 1) : State :=
  s.wrN k ((s.rdN k + n) % 2 ^ w)

/-- Sends a message out of the device. (DESIGN CHOICE, log entry 1.) -/
def State.send (s : State) (m : OutMsg) : State := { s with out := s.out ++ [m] }

/-! ### Device time (R2, R3) -/

/-- One SYS tick in FRAC units (R2). -/
def tick : Nat := 4096

/-- Device time wraps at 60 bits (R2). -/
def timeMod : Nat := 2 ^ 60

/-- A delay of `n` nanoseconds in FRAC units: one SYS tick is 0.4 ns (R20). -/
def nsec (n : Nat) : Nat := n * 10240

/-- A delay of `n` microseconds in FRAC units. -/
def usec (n : Nat) : Nat := n * 10240000

/-- A delay of `n` milliseconds in FRAC units. -/
def msec (n : Nat) : Nat := n * 10240000000

/-- The difference of two times as a signed number (R3). -/
def timeDiff (a b : Nat) : Int :=
  let d := (a + timeMod - b % timeMod) % timeMod
  if d < timeMod / 2 then (d : Int) else (d : Int) - timeMod

/-- `a` is later than `b` (R3). -/
def later (a b : Nat) : Bool := decide (0 < timeDiff a b)

/-- `a` is `b` or later (R3). -/
def atOrAfter (a b : Nat) : Bool := decide (0 ≤ timeDiff a b)

/-- A time moved by a signed number of FRAC units. -/
def timeAdd (a : Nat) (d : Int) : Nat := (((a : Int) + d) % (timeMod : Int)).toNat

/-- The time of the `j`-th sample after one at `t`, as a stamp holds it (R52, R75). -/
def Pace.after (p : Pace) (t j : Nat) : Nat := timeAdd t ((p.frac + j * p.num) / max 1 p.den : Nat)

/-- How many samples after one the first lies whose time is at least `d` past it. -/
def Pace.index (p : Pace) (d : Nat) : Nat := (d * p.den - p.frac + p.num - 1) / max 1 p.num

/-- The pace as the `j`-th sample after has it. -/
def Pace.at' (p : Pace) (j : Nat) : Pace := { p with frac := (p.frac + j * p.num) % max 1 p.den }

/-- The first output sample at or after a time among the runs on record, newest first: its number,
its stamp and its validity. `newer` is the first sample of the run that follows. -/
def sampleAtOrAfter (t : Nat) : List OutRun → Option (Nat × Stamp × Bool) → Option (Nat × Stamp × Bool)
  | [], newer => newer
  | r :: rest, newer =>
    if atOrAfter r.ts.t t then sampleAtOrAfter t rest (some (r.q, r.ts, r.valid))
    else
      let j := r.pace.index (timeDiff t r.ts.t).toNat
      if j < r.n then some (r.q + j, { r.ts with t := r.pace.after r.ts.t j }, r.valid) else newer

/-- The stamp of sample `n` of runs on one grid each, newest first; beyond the newest one's last sample, that of
its grid. -/
def stampOf (n : Nat) (rs : List OutRun) : Option Stamp :=
  (rs.find? fun r => decide (r.q ≤ n)).map fun r => { r.ts with t := r.pace.after r.ts.t (n - r.q) }

/-- Runs, newest first, with one more sample, number `q`. -/
def extendRuns (q : Nat) (ts : Stamp) (valid : Bool) (pace : Pace) : List OutRun → List OutRun
  | [] => [⟨q, ts, 1, valid, pace⟩]
  | r :: rest =>
    if q = r.q + r.n ∧ { r.ts with t := r.pace.after r.ts.t r.n } = ts ∧ r.pace.at' r.n = pace ∧ r.valid = valid then
      { r with n := r.n + 1 } :: rest
    else ⟨q, ts, 1, valid, pace⟩ :: r :: rest

/-- A span of device time has passed since `t`. -/
def State.passed (s : State) (t d : Nat) : Bool := decide ((d : Int) ≤ timeDiff s.time t)

/-- `d` FRAC units have passed since the device's own count of time since power-up stood at `t`; a step of device time
does not move that count (R478). -/
def State.elapsed (s : State) (t d : Nat) : Bool := decide (t + d ≤ s.clk.up)

/-- A warm reset quiesces the device: condition units, record writers, the TIMU, feeds and the spectrogram writers take
no more input (R550). -/
def State.quiesces (s : State) : Bool := s.boot.phase == 1

/-- The count that has been noted lies at least `d` back, or none has been noted. -/
def State.sinceNote (s : State) (t : Option Nat) (d : Nat) : Bool :=
  match t with
  | some t => s.elapsed t d
  | none => true

/-- A limit of `d` from `t` on has passed, and the clock in which it expired has too: what completes in that clock
counts as completed (R60, R443, R461, R553). -/
def State.overdue (s : State) (t d : Nat) : Bool := s.elapsed t (d + 4096)

/-- The device time at a place within the present tick. -/
def State.tickPlace (s : State) (sub : Nat) : Nat := timeAdd s.time sub

/-- The TS64 word of a stamp (R2). -/
def Stamp.word (x : Stamp) : BitVec 64 :=
  BitVec.ofNat 64 (b2n x.fab * 2 ^ 63 + b2n x.deg * 2 ^ 62 + b2n x.est * 2 ^ 61 + x.t % timeMod)

/-- The stamp that a TS64 word spells. -/
def Stamp.ofWord (v : BitVec 64) : Stamp :=
  { t := v.toNat % timeMod, fab := bitAt v 63, deg := bitAt v 62, est := bitAt v 61 }

/-- The state of ADPLL `k` (R491). -/
def State.pllState (s : State) (k : Nat) : Nat := s.fld (Reg.CLK_PLL_STS k) 2 0

/-- ADPLL `k` is in a locked state: LOCKED, SLEWING or HOLDOVER (R491). -/
def State.pllLocked (s : State) (k : Nat) : Bool := decide (2 ≤ s.pllState k ∧ s.pllState k ≤ 4)

/-- SYS, FFT, FRONT and DSP are all locked (R21). -/
def State.coreLocked (s : State) : Bool :=
  s.pllLocked 0 && s.pllLocked 1 && s.pllLocked 2 && s.pllLocked 3

/-- A time as a stamp taken now: TS_FAB from the fabric time state, TS_DEG while SYS runs from its
bypass clock (R2, R495, R501). (DESIGN CHOICE, log entry 7.) -/
def State.stampAt (s : State) (t : Nat) (est : Bool := false) : Stamp :=
  { t := t % timeMod, fab := s.bit Reg.FAB_STS 6, deg := !s.pllLocked 0, est := est }

/-- Device time now as a stamp. -/
def State.now (s : State) : Stamp := s.stampAt s.time

/-- The first FRONT edge at or after a time: FRONT edges are every second SYS tick (R20, R490). -/
def frontEdge (t : Nat) : Nat := (t + 8191) / 8192 * 8192 % timeMod

/-! ### Cycle coordinates (R4, R5, R19, R346) -/

/-- The tracker is locked: TRACK or HOLDOVER (R344). -/
def State.ccLocked (s : State) : Bool :=
  s.fld Reg.CCS_STS 2 0 == 3 || s.fld Reg.CCS_STS 2 0 == 4

/-- "No coordinate" (R5). -/
def noCc : BitVec 64 := 0xFFFFFFFFFFFFFFFF

/-- The coordinate word of a cycle and fraction (R4). -/
def ccWord (cycle frac : Nat) : BitVec 64 :=
  BitVec.ofNat 64 (cycle % 2 ^ 48 * 65536 + frac % 65536)

/-- The coordinate a cycle record gives a time: fraction floor((t - T(m)) * 65536 / p) of the cycle
that holds it (R346). A time past the record's cycle belongs to a predicted later cycle of the same
period. -/
def CycleRec.coord (c : CycleRec) (d16 : Nat) : BitVec 64 :=
  if c.period = 0 then ccWord c.m 0
  else ccWord (c.m + d16 / c.period) (d16 % c.period * 65536 / c.period)

/-- The difference in 2^-16 FRAC unit between a time and a cycle start, modulo 2^76. -/
def diff16 (t start16 : Nat) : Int :=
  let n := 2 ^ 76
  let d := (t * 65536 + n - start16 % n) % n
  if d < n / 2 then (d : Int) else (d : Int) - n

/-- The record of the cycle that holds a time: the newest one that starts at or before it. -/
def cycleOf (cs : List CycleRec) (t : Nat) : Option CycleRec :=
  cs.find? fun c => decide (0 ≤ diff16 t c.start)

/-- The CC64 that the device attaches to a time (R19, R346): the value of R5 while no tracker is
locked, for a time more than 2^22 ticks old, or for a time at which the tracker was not locked. -/
def State.ccAt (s : State) (t : Nat) : BitVec 64 :=
  if s.ccLocked && decide (timeDiff s.time t ≤ (2 ^ 22 * 4096 : Int)) then
    match cycleOf s.ccs.cycles t with
    | some c => c.coord (diff16 t c.start).toNat
    | none => noCc
  else noCc

/-! ### Device memory (R380-R382) -/

/-- What a byte of memory that nothing has written reads as: see the assumption log, entry 3.
(DESIGN CHOICE, log entry 3.) -/
def memDefault (_ : Nat) : BitVec 8 := 0

/-- The SRAM ring area of R380. -/
def inSramRing (a : Nat) : Bool := decide (0xF00002000000 ≤ a ∧ a < 0xF00002580000)

/-- The Lantern windows of R380. -/
def inLantern (a : Nat) : Bool := decide (0xF00000000000 ≤ a ∧ a < 0xF00002000000)

/-- A byte of a Lantern window that no bit of a memory word occupies (R305). -/
def lanternPad (a : Nat) : Bool :=
  inLantern a && (if a % 0x100000 < 0x40000 then decide (6 ≤ a % 8) else a % 4 == 3)

/-- A range lies in the slots of one core's window (R305): the rest of the window is reserved. -/
def lanternOk (a n : Nat) : Bool :=
  inLantern a && decide (a % 0x100000 + n ≤ 0xC0000)

/-- Installed bytes of GDDR7, by DENSITY (R378). (DEDUCED, log entry 39.) -/
def State.memCapacity (s : State) : Nat := 2 ^ 34 * (s.fld Reg.MEM_CFG 1 0 + 2)

/-- Where the training pattern area begins, the value that MEM_SIZE reports (R381). (DEDUCED, log entry 39.) -/
def State.memEnd (s : State) : Nat := s.memCapacity - 2 ^ 20

/-- A range meets the training pattern area (R380, R381). -/
def State.inPattern (s : State) (a n : Nat) : Bool :=
  decide (0 < n) && decide (a < s.memCapacity) && decide (s.memEnd < a + n)

/-- A range of device addresses that exists: GDDR7 up to its capacity, the Lantern windows or the SRAM ring area
(R380, R381). -/
def State.memOk (s : State) (a n : Nat) : Bool :=
  decide (a + n ≤ s.memCapacity) || lanternOk a n ||
    (inSramRing a && decide (a + n ≤ 0xF00002580000))

/-- A range meets the area of the reset journal, whose content is private to the device (R550).
(DESIGN CHOICE, log entry 50.) -/
def State.inJournalArea (s : State) (a n : Nat) : Bool :=
  let base := s.fld Reg.MGT_JRN_AREA 47 20 * 2 ^ 20
  decide (0 < n) && decide (a < base + 2 ^ s.fld Reg.MGT_JRN_AREA 5 0) && decide (base < a + n)

/-- A range that software may write: neither the training pattern area (R381) nor the reset journal's (R550), and in a
Lantern window whole slots, P only while its core is OFF (R305). -/
def State.memWriteOk (s : State) (a n : Nat) : Bool :=
  s.memOk a n && !s.inPattern a n && !s.inJournalArea a n &&
    (!inLantern a ||
      (if a % 0x100000 < 0x40000 then
        a % 8 == 0 && n % (if a % 0x100000 + n ≤ 0x40000 then 8 else 4) == 0 &&
          s.fld (Reg.LNT_STS ((a - 0xF00000000000) / 0x100000)) 2 0 == 0
      else a % 4 == 0 && n % 4 == 0))

/-- The memory behind a device address serves requests: GDDR7 in state READY, or on-chip memory (R383,
R385, R388, R396). -/
def State.serves (s : State) (a : Nat) : Bool :=
  decide (2 ^ 44 ≤ a) || s.fld Reg.MEM_STS 2 0 == 4

/-- Reads one byte of device memory: what the training pattern area holds is the controller's own (R381), and a byte whose
latest read failed in every retry reads as that read returned it (R394). (DEDUCED, log entry 39.)
(DESIGN CHOICE, log entry 3.) -/
def State.rdByte (s : State) (a : Nat) : BitVec 8 :=
  let held := Sparse.get memDefault s.mem a
  if 2 ^ 44 ≤ a then held
  else if s.inPattern a 1 then Config.patternByte s.ddr.pattern a
  else ((s.misread.find? fun e => e.1 == a).map (·.2)).getD held

/-- Writes one byte of device memory; bytes that hold no bit of a Lantern word ignore it (R305). -/
def State.wrByte (s : State) (a : Nat) (b : BitVec 8) : State :=
  if lanternPad a then s
  else { s with mem := Sparse.put memDefault s.mem a b, misread := Sparse.erase s.misread a }

/-- Writes consecutive bytes. -/
def State.wrBytes (s : State) (a : Nat) : List (BitVec 8) → State
  | [] => s
  | b :: r => State.wrBytes (s.wrByte a b) (a + 1) r

/-- Reads `n` consecutive bytes. -/
def State.rdBytes (s : State) (a : Nat) : Nat → List (BitVec 8)
  | 0 => []
  | n + 1 => s.rdByte a :: State.rdBytes s (a + 1) n

/-- A little-endian number of `n` bytes in device memory. -/
def State.loadN (s : State) (a n : Nat) : Nat := ofLe (s.rdBytes a n)

/-! ### PCIe ports (R430, R437) -/

/-- ROLE of a port: 0 off, 1 root port, 2 endpoint (R430). -/
def State.pciRole (s : State) (n : Nat) : Nat := s.fld (Reg.PCI_PORT_CFG n) 1 0

/-- The port is one of the at most two endpoints, counted in port order (R430). -/
def State.isEndpoint (s : State) (n : Nat) : Bool :=
  s.pciRole n == 2 && decide (((List.range n).filter fun m => s.pciRole m == 2).length < 2)

/-- The endpoint function of a port. -/
def State.epFn (s : State) (n : Nat) : EpFn := if h : n < 4 then s.ep[n] else default

/-- Replaces the endpoint function of a port. -/
def State.setEp (s : State) (n : Nat) (f : EpFn) : State :=
  if h : n < 4 then { s with ep := s.ep.set n f } else s

/-- A port can issue requests: its link is up and, on an endpoint, Bus Master Enable is 1 and no FLR is in
progress (R437). -/
def State.portIssues (s : State) (n : Nat) : Bool :=
  s.bit (Reg.PCI_PORT_STS n) 0 &&
    (s.pciRole n == 1 || (s.isEndpoint n && (s.epFn n).busMaster && !(s.epFn n).flr))

/-! ### Queues (R406-R413) -/

/-- A queue's live state, or none while it is disabled. -/
def State.queue (s : State) (q : Nat) : Option QueueLive :=
  (s.queues.find? fun e => e.1 == q).map (·.2)

/-- Replaces a queue's live state. -/
def State.setQueue (s : State) (q : Nat) (x : QueueLive) : State :=
  { s with queues := Sparse.place q x (Sparse.erase s.queues q) }

/-- The bytes of one entry (R407). -/
def QueueLive.entrySize (x : QueueLive) : Nat := 32 * 2 ^ x.esize

/-- Occupancy, TAIL - HEAD modulo 2^32 (R408). -/
def QueueLive.occupancy (x : QueueLive) : Nat := (x.tail + 2 ^ 32 - x.head) % 2 ^ 32

/-- The device address of the entry of position `p` (R408). -/
def QueueLive.entryAddr (x : QueueLive) (p : Nat) : Nat := x.base + p % x.depth * x.entrySize

/-- The device address of the tag of position `p` (R408). -/
def QueueLive.tagAddr (x : QueueLive) (p : Nat) : Nat := x.tagBase + 8 * (p % x.depth)

/-- The tag word of an item (R408). -/
def tagWord (len kind pos : Nat) : Nat :=
  len % 2 ^ 24 + kind % 16 * 2 ^ 24 + pos % 2 ^ 32 * 2 ^ 32

/-- The notify write of R413, to a device address or to a port's space (R418). (DEDUCED, log entry 17.) -/
def State.notifyQueue (s : State) (x : QueueLive) : State :=
  let tgt := x.notifyAddr / 2 ^ 61 % 8
  let a := x.notifyAddr % 2 ^ 61
  let d := leBytes 4 x.notifyData
  if x.notifyEn then
    if tgt = 0 then s.wrBytes a d
    else if s.portIssues (tgt - 1) then s.send (.pcieWrite (tgt - 1) a d)
    else s
  else s

/-- Does the queue refuse an item of `n` bytes (R409)? Items accepted and not yet written fill entries too. -/
def QueueLive.refuses (x : QueueLive) (n : Nat) : Bool :=
  decide (x.depth ≤ x.occupancy + x.staged.length + x.reserved) || decide (x.entrySize < n)

/-- The record of a refusal (R411). -/
def QueueLive.refuse (x : QueueLive) (ts : BitVec 64) : QueueLive :=
  let x := { x with refused := satAdd 32 x.refused 1 }
  if x.gapOpen then x else { x with gapOpen := true, gapFirst := ts, gapResume := 0 }

/-- The close of an open interval by an accepted item (R411). -/
def QueueLive.accept (x : QueueLive) (ts : BitVec 64) : QueueLive :=
  if x.gapOpen then { x with gapOpen := false, gapResume := ts } else x

/-- TAIL goes past an item that is written (R409). -/
def QueueLive.advance (x : QueueLive) : QueueLive := { x with tail := (x.tail + 1) % 2 ^ 32 }

/-- The memory of a queue's ring, its tags and its notify target serves requests. -/
def State.queueServed (s : State) (x : QueueLive) : Bool :=
  s.serves x.base && s.serves x.tagBase &&
    (!x.notifyEn || x.notifyAddr / 2 ^ 61 % 8 != 0 || s.serves (x.notifyAddr % 2 ^ 61))

/-- An accepted item is written, then its tag, and TAIL goes past it (R409). The ring, the tag array and the notify
target were found to exist when the queue was enabled. -/
def State.enqueueTaken (s : State) (q : Nat) (x : QueueLive) (k : QueueItem) : State :=
  let s := s.wrBytes (x.entryAddr x.tail) k.bytes
  let s := s.wrBytes (x.tagAddr x.tail) (leBytes 8 (tagWord k.bytes.length k.kind x.tail))
  let s := s.setQueue q x.advance
  if x.occupancy = 0 then s.notifyQueue x else s

/-- A queue takes an item: it is written at once, or waits while its memory serves nothing (R383, R387, R391). -/
def State.enqueueStage (s : State) (q : Nat) (x : QueueLive) (k : QueueItem) : State :=
  if s.queueServed x && x.staged.isEmpty then s.enqueueTaken q x k
  else s.setQueue q { x with staged := x.staged ++ [k] }

/-- The oldest waiting item of a queue is written. -/
def State.publishNext (q : Nat) (s : State) (k : QueueItem) : State :=
  match s.queue q with
  | some x => s.enqueueTaken q { x with staged := x.staged.drop 1 } k
  | none => s

/-- The waiting items of a queue are written, oldest first. -/
def State.publishQueue (s : State) (q : Nat) : State :=
  match s.queue q with
  | some x => x.staged.foldl (State.publishNext q) s
  | none => s

/-- Memory serves again: items that waited for it are written (R391). -/
def State.publishStaged (s : State) : State :=
  s.queues.foldl (fun s e => if s.queueServed e.2 then s.publishQueue e.1 else s) s

/-- A device producer offers an item (R409-R411, R413). The answer says whether it entered. An item
offered to a disabled or software-filled queue is not enqueued. -/
def State.enqueue (s : State) (q kind : Nat) (item : List (BitVec 8)) (ts : BitVec 64) :
    State × Bool :=
  match s.queue q with
  | none => (s, false)
  | some x =>
    if x.prodSw then (s, false)
    else if x.refuses item.length then (s.setQueue q (x.refuse ts), false)
    else (s.enqueueStage q (x.accept ts) ⟨kind, item⟩, true)

/-! ### Raising events (R527-R531) -/

/-- The table entry of a vector; the reset value is masked (PCIe MSI-X). -/
def EpFn.vector (f : EpFn) (v : Nat) : MsixVec :=
  match f.table.find? fun e => e.1 == v with
  | some e => e.2
  | none => { addr := 0, data := 0, masked := true }

/-- Sends the MSI-X message of a vector, or sets its pending bit while the function has MSI-X
disabled, the vector is masked or the port issues no request (R437, R529). -/
def State.sendMsix (s : State) (port v : Nat) : State :=
  let f := s.epFn port
  if s.portIssues port && f.msixEnable && !f.msixMask && !(f.vector v).masked then s.send (.msix port v)
  else s.setEp port { f with pba := f.pba ||| 2 ^ v }

/-- The MSI-X part of a raise (R529): the state after it. -/
def State.raiseMsix (s : State) (n : Nat) : State :=
  let rt := s.rd (Reg.MGT_EVT_ROUTE (n / 256) (n % 256))
  let k := Reg.MGT_EVT_PEND (n / 64)
  if s.bit k (n % 64) then s.bump Reg.MGT_EVT_COALESCED 64
  else (s.putBit k (n % 64) true).sendMsix (getF rt 2 1) (getF rt 12 3)

/-- The bytes of an event record (R527). -/
def EventRec.bytes (e : EventRec) : List (BitVec 8) :=
  leBytes 8 e.ts.word.toNat ++ leBytes 8 e.cc.toNat ++ leBytes 2 e.event ++ leBytes 2 e.count ++
    leBytes 4 e.param ++ leBytes 8 e.order

/-- Merges a raise into a session's notify buffer (R524, R527). (DEDUCED, log entry 17.) -/
def mergeNotify (e : EventRec) : List EventRec → List EventRec
  | [] => [e]
  | x :: r =>
    if x.event = e.event then { x with count := satAdd 16 x.count 1, param := e.param } :: r
    else x :: mergeNotify e r

/-- The session's part of a raise (R524). -/
def Session.notify (x : Session) (e : EventRec) : Session :=
  if x.subs.testBit e.event then { x with buf := mergeNotify e x.buf } else x

/-- Some session is subscribed to the event (R524). -/
def State.subscribed (s : State) (n : Nat) : Bool :=
  s.mgt.sessions.any fun x => x.subs.testBit n

/-- An event record takes the next ORDER and is delivered by every enabled route, or is counted as unrouted (R527-R530).
(DEDUCED, log entry 17.) -/
def State.deliver (s : State) (e : EventRec) : State :=
  let n := e.event
  let rt := s.rd (Reg.MGT_EVT_ROUTE (n / 256) (n % 256))
  let e := { e with order := s.rdN Reg.MGT_EVT_SERIAL }
  let s := s.bump Reg.MGT_EVT_SERIAL 64
  let msix := bitAt rt 0
  let viaEp := msix && s.isEndpoint (getF rt 2 1)
  let s := if viaEp then s.raiseMsix n else s
  let s := if bitAt rt 13 then (s.enqueue (getF rt 29 14) 8 e.bytes e.ts.word).1 else s
  let s := { s with mgt := { s.mgt with sessions := s.mgt.sessions.map fun x => x.notify e } }
  if (msix && !viaEp) || (!msix && !bitAt rt 13 && !s.subscribed n) then
    s.bump Reg.MGT_EVT_UNROUTED 64
  else s

/-- The SYS clock ends: its raises are delivered in ascending order of event number (R527). -/
def State.deliverRaised (s : State) : State :=
  s.mgt.raised.foldl State.deliver { s with mgt := { s.mgt with raised := [] } }

/-- Places a raise behind those of its clock whose event numbers are not greater (R527). -/
def insertRaise (e : EventRec) : List EventRec → List EventRec
  | [] => [e]
  | x :: r => if e.event < x.event then e :: x :: r else x :: insertRaise e r

/-- Raises event `n` with a stamp and a parameter; it is delivered when the present SYS clock ends (R527).
(DEDUCED, log entry 17.) -/
def State.raiseTs (s : State) (n : Nat) (ts : Stamp) (param : Nat) : State :=
  let e : EventRec := { ts := ts, cc := s.ccAt ts.t, event := n, count := 1, param := param % 2 ^ 32, order := 0 }
  { s with mgt := { s.mgt with raised := insertRaise e s.mgt.raised } }

/-- Raises an event that carries the device time at which it is raised. (DEDUCED, log entry 17.) -/
def State.raise (s : State) (n : Nat) (param : Nat := 0) : State := s.raiseTs n s.now param

/-- Sets an EVT bit and raises event `n` when it goes from 0 to 1. -/
def State.latchRaise (s : State) (k b n : Nat) (param : Nat := 0) : State :=
  if s.bit k b then s else (s.putBit k b true).raise n param

/-! ### Access flags (R514) -/

/-- The flags of R514 by bit number. -/
inductive AccFlag
  | ignored | conflict | narrow | noEntry | denied
  deriving DecidableEq, Repr

/-- The bit of a flag in MGT_ACC_STS (R534). -/
def AccFlag.bit : AccFlag → Nat
  | .ignored => 0 | .conflict => 1 | .narrow => 2 | .noEntry => 3 | .denied => 4

/-- Sets an access flag of requester `r` for slot `k` (R514). (DEDUCED, log entry 8.) -/
def State.flag (s : State) (r k : Nat) (f : AccFlag) : State :=
  let was := s.bit (Reg.MGT_ACC_STS r) f.bit
  let s := s.putBit (Reg.MGT_ACC_STS r) f.bit true
  let s := s.wrN (Reg.MGT_ACC_LAST r) (k % 2 ^ 24 + f.bit * 2 ^ 24)
  let s := s.wr (Reg.MGT_ACC_LAST_TS r) s.now.word
  let s := { s with mgt := { s.mgt with flagged := some (s.mgt.flagged.getD f.bit) } }
  if was then s else s.raise 0 (r % 8 + f.bit * 8 + k % 2 ^ 24 * 256)

/-- LINK_UP of the management Ethernet port changes (R525): auto-negotiation has ended where it is used, and a loss is
counted. -/
def State.ethLink (s : State) (up : Bool) : State :=
  if up = s.bit Reg.MGT_ETH_STS 0 then s
  else
    let an := up && s.bit Reg.MGT_ETH_CFG 0 && s.bit Reg.MGT_ETH_CFG 1
    let s := (s.putBit Reg.MGT_ETH_STS 0 up).putBit Reg.MGT_ETH_STS 1 an
    let s := if up then s else s.bumpSat Reg.MGT_ETH_DOWNS 32
    s.raise 20 (b2n up)

/-! ### Blocks that a parity fault stopped (R513) -/

/-- A parity fault stopped the block of this ENABLE: it stays stopped until ENABLE is written 0 and
then 1. -/
def State.parityStopped (s : State) (k : Nat) : Bool := s.mgt.stopped.contains k

/-- ENABLE := 0 is written. (DEDUCED, log entry 14.) -/
def State.parityFree (s : State) (k : Nat) : State :=
  { s with mgt := { s.mgt with stopped := s.mgt.stopped.filter fun x => !(x == k) } }

/-- ENABLE of a block as software reads it: a stopped block keeps the value written. (DEDUCED, log entry 14.) -/
def State.enableShown (s : State) (k : Nat) : Bool := s.bit k 0 || s.parityStopped k

/-- A fresh number for a free value. (DESIGN CHOICE, log entry 1.) -/
def State.draw (s : State) : Nat × State := (s.fresh, { s with fresh := s.fresh + 1 })

/-! ### What a sequencer is told (R187, R193, R199) -/

/-- Posts fault source `n` to sequencer `q` when its bit in FAULT_EN is 1 (R193). -/
def State.postFault (s : State) (n q : Nat) : State :=
  if s.bit (Reg.SEQ_CFG q) (21 + n) then s.putBit (Reg.SEQ_FAULT q) n true else s

/-- Posts a fault source to several sequencers. -/
def State.postFaults (s : State) (n : Nat) (qs : List Nat) : State :=
  qs.foldl (fun s q => s.postFault n q) s

/-- SYS, FFT or FRONT begins to run from its bypass clock: CLOCK is posted (R193). -/
def State.postClock (s : State) (k : Nat) : State :=
  if k ≤ 2 then s.postFaults 2 (List.range 5) else s

/-- RUNNING (R202). -/
def State.seqRunning (s : State) (q : Nat) : Bool := s.bit (Reg.SEQ_STS q) 0

/-- A sequencer is clocked: the device is in RUN (R199). -/
def State.seqClocked (s : State) : Bool := decide (s.fld Reg.PWR_STS 2 0 = 0)

/-- What the edge has changed in SEQ_SIGNAL so far (R184). -/
def State.signalAt (s : State) (q edge : Nat) : SignalEdge :=
  let x : Option SignalEdge := if h : q < 5 then s.seqs[q].signal else none
  match x with
  | some x => if x.edge = edge then x else ⟨edge, s.fld (Reg.SEQ_SIGNAL q) 3 0, 0⟩
  | none => ⟨edge, s.fld (Reg.SEQ_SIGNAL q) 3 0, 0⟩

/-- SEQ_SIGNAL bits of a sequencer are cleared, then set, at an edge: a bit that anything sets at the edge ends
set (R184, R192, R353). -/
def State.signalBits (s : State) (q clr set' edge : Nat) : State :=
  if h : q < 5 then
    let x := s.signalAt q edge
    let own := s.fld (Reg.SEQ_SIGNAL q) 3 0
    let seqs := s.seqs.set q { s.seqs[q] with signal := some { x with set := x.set ||| set' } }
    ({ s with seqs := seqs } : State).setFld (Reg.SEQ_SIGNAL q) 3 0
      ((own &&& (15 ^^^ clr)) ||| (own &&& x.set) ||| set')
  else s

/-- Adds to a counter whose automatic source is `src` (R187). -/
def State.autoCount (s : State) (q src n : Nat) : State :=
  (List.range 4).foldl (fun s i =>
    if s.fld (Reg.SEQ_CFG q) (11 + 2 * i) (10 + 2 * i) = src then s.bump (Reg.SEQ_CNT q i) 48 n else s) s

/-- The tracker has counted tester cycles: running sequencers add them (R187, CNT_SRC 3). -/
def State.seqCycles (s : State) (n : Nat) : State :=
  (List.range 5).foldl (fun s q => if s.seqRunning q && s.seqClocked then s.autoCount q 3 n else s) s

end Sys2Proof.Machine
end

