-- ==== Sys2Proof/Machine/ClockBase.lean ====
section
/-! DEFINITION. The bypass clock (R493, R495): its source and frequency. -/

namespace Sys2Proof.Machine

/-- REF_IN serves as bypass source: it is present, and BYP_SRC is 0 (R493). -/
def State.bypassRef (s : State) : Bool := s.bit Reg.CLK_STS 0 && !s.bit Reg.CLK_CTL 6

/-- Frequency of the bypass source in kHz: CLK_REF_FREQ, or the backup oscillator's nominal 400 MHz. -/
def State.bypassKhz (s : State) : Nat :=
  if s.bypassRef then max 1 (s.rdN Reg.CLK_REF_FREQ) else 400000

/-- The period of the undivided bypass clock, as on SYS, FFT, FRONT and DSP, in FRAC units, as
numerator and denominator: 2.5 GHz / f_byp ticks (R495). -/
def State.bypassPeriod (s : State) : Nat × Nat := (2500000 * 4096, s.bypassKhz)

/-! ### Loop states (R491, R492, R498) -/

/-- LOCK_LEVEL of R498: 0 unlocked, 1 holdover, 2 locked. -/
def State.lockLevel (s : State) : Nat :=
  let sel := (List.range 6).filter fun k => s.bit Reg.CLK_CTL k
  if sel.any fun k => decide (s.pllState k ≤ 1) then 0
  else if sel.any fun k => s.pllState k == 4 then 1
  else 2

/-- Brings LOCK_LEVEL and the LOCK_DET pin up to date. -/
def State.lockShow (s : State) : State :=
  let n := s.lockLevel
  if s.fld Reg.CLK_STS 2 1 = n then s
  else (s.setFld Reg.CLK_STS 2 1 n).send (.pin "LOCK_DET" 0 n)

/-- Enters a loop state; a phase condition met before is met no more. -/
def State.pllSet (s : State) (k st : Nat) : State :=
  let met := if h : k < 6 then s.clk.phaseMet.set k false else s.clk.phaseMet
  let s := s.setFld (Reg.CLK_PLL_STS k) 2 0 st
  ({ s with clk := { s.clk with phaseMet := met } } : State).lockShow

/-- Enters BYPASS from a locked state (R193, R493, R494, R504). -/
def State.pllBypass (s : State) (k : Nat) : State :=
  let s := s.wr (Reg.CLK_PLL_UNLOCK_TS k) s.now.word
  let s := ((s.pllSet k 1).putBit (Reg.CLK_PLL_STS k) 4 (!s.bypassRef)).postClock k
  s.raise (64 + k)

/-- SYS begins to run from its bypass clock, where no edge is stamped: CLOCK_HOLD is 1 on every input, which
keeps the time (R336). -/
def State.clockHold (s : State) : State :=
  let s := { s with tims := s.tims.map fun x => { x with clockStop := s.now.word } }
  (List.range 64).foldl (fun s i => s.putBit (Reg.TIM_STS i) 3 true) s

/-- SYS no longer runs from its bypass clock (R336). -/
def State.clockGo (s : State) : State :=
  (List.range 64).foldl (fun s i => s.putBit (Reg.TIM_STS i) 3 false) s

/-- Starts a loop from OFF (R193, R336, R491). -/
def State.pllStart (s : State) (k : Nat) : State :=
  if s.pllState k = 0 then
    let s := ((s.pllSet k 1).putBit (Reg.CLK_PLL_STS k) 4 (!s.bypassRef)).postClock k
    if k = 0 then s.clockHold else s
  else s

/-- The period of FRONT in FRAC units: two SYS ticks, or that of its bypass clock (R488, R493). -/
def State.frontClock (s : State) : Nat :=
  if s.pllLocked 2 then 8192 else s.bypassPeriod.1 / max 1 s.bypassPeriod.2

/-- The latest edge of FRONT's bypass clock at or before a time, and the one after it: while SYS too runs from
bypass, device time itself moves from edge to edge (R495); else edges lie on the multiples of the period.
(DESIGN CHOICE, log entry 7.) -/
def State.bypassEdges (s : State) (t : Nat) : Nat × Nat :=
  if !s.pllLocked 0 then (t, t)
  else
    let p := s.bypassPeriod
    let k := ((t + 1) * p.2 - 1) / max 1 p.1
    (k * p.1 / max 1 p.2, (k + 1) * p.1 / max 1 p.2)

/-- The latest FRONT edge at or before a time (R495, R501). -/
def State.frontOf (s : State) (t : Nat) : Nat :=
  if s.pllLocked 2 then
    let u := timeAdd t (-(s.clk.frontOfs : Int))
    timeAdd (u / 8192 * 8192) s.clk.frontOfs
  else (s.bypassEdges t).1

/-- The first FRONT edge at or after a time (R495, R501). -/
def State.edgeFrom (s : State) (t : Nat) : Nat :=
  if s.pllLocked 2 then timeAdd (frontEdge (timeAdd t (-(s.clk.frontOfs : Int)))) s.clk.frontOfs
  else
    let e := s.bypassEdges t
    (if e.1 = t then t else e.2) % timeMod

/-- The latest FRONT edge at or before now. -/
def State.frontNow (s : State) : Nat := s.frontOf s.time

/-- The latest SYS edge at or before now: device time stands on one (R490, R495). -/
def State.sysNow (s : State) : Nat := s.time

/-- The length of the SYS clock cycle that ends at the present edge, in FRAC units (R495). -/
def State.lastTick (s : State) : Nat :=
  if s.pllLocked 0 then 4096
  else
    let khz := if s.pllState 0 = 1 then s.bypassKhz else 400000
    let den := max 1 s.clk.remDen * khz
    (2500000 * 4096 * max 1 s.clk.remDen - s.clk.remNum * khz + den - 1) / den

/-- Two frequencies differ by 200 ppm or less (R492). -/
def near200 (a b : Nat) : Bool := decide (((a : Int) - b).natAbs * 1000000 ≤ 200 * b)

/-- A new target for a loop (R492, R493, R500): a locked loop slews or relocks through the bypass
clock; in BYPASS the target is replaced. -/
def State.pllTarget (s : State) (k hz : Nat) : State :=
  let old := s.rdN (Reg.CLK_PLL_FREQ k)
  let s := s.wrN (Reg.CLK_PLL_FREQ k) hz
  if s.pllLocked k && old != hz then
    if near200 hz old then (if s.pllState k = 4 then s else s.pllSet k 3) else s.pllBypass k
  else s

/-! ### Steering (R492, R500, R502) -/

/-- The SYS steering target in 0.1 ppb: the fabric's while it is enabled, else CLK_OFFSET, limited to
200 ppm. -/
def State.steerTarget (s : State) : Int :=
  clampI (-2000000) 2000000
    (if s.bit Reg.FAB_CTL 0 then s.clk.fabTarget else s.rdI Reg.CLK_OFFSET 24)

/-- The offset applied to SYS now, in 0.1 ppb: while a slew runs, a value between where it began and its target, which the
spec does not state (R492, R502). (DEDUCED, log entry 18.) -/
def State.offsetNow (s : State) : Int :=
  let t := s.steerTarget
  let was := s.rdI Reg.CLK_OFFSET_NOW 24
  if s.pllState 0 = 3 then clampI (min was t) (max was t) (Config.slewAt s.clk.up) else was

/-- The nominal frequency of SYS, FFT, FRONT and DSP in Hz (R488). -/
def nominalHz : Nat → Nat
  | 0 => 2500000000
  | 1 => 2000000000
  | 2 => 1250000000
  | _ => 1500000000

/-- A frequency with an offset in 0.1 ppb, to the nearest Hz. -/
def steeredHz (hz : Nat) (ofs : Int) : Nat := (rneDiv (hz * (10000000000 + ofs)) 10000000000).toNat

/-- A new steering target: FFT, FRONT and DSP follow SYS (R488). A locked SYS slews toward it, one in
HOLDOVER holds its frequency word, one in BYPASS acquires at it. (DEDUCED, log entry 18.) -/
def State.clkSteer (s : State) : State :=
  let t := s.steerTarget
  let s := (List.range 4).foldl (fun s k =>
    if s.pllState k = 0 then s else s.wrN (Reg.CLK_PLL_FREQ k) (steeredHz (nominalHz k) t)) s
  if s.pllState 0 = 2 ∨ s.pllState 0 = 3 then
    s.pllSet 0 (if t = s.rdI Reg.CLK_OFFSET_NOW 24 then 2 else 3)
  else s

/-! ### Old times (R3) -/

/-- An eighth of the range of device time. -/
def eighth : Nat := timeMod / 8

/-- A time on record, kept within an eighth of the range of device time before now, so that it stays in the
past (R3). -/
def agedTime (now t : Nat) : Nat := if (eighth : Int) < timeDiff now t then timeAdd now (-(eighth : Int)) else t

/-- A run of samples without those older than an eighth of the range of device time. -/
def OutRun.aged (now : Nat) (r : OutRun) : Option OutRun :=
  if (eighth : Int) < timeDiff now r.ts.t then
    let j := r.pace.index (timeDiff now r.ts.t - eighth).toNat
    if r.n ≤ j then none
    else some { r with
      q := r.q + j, ts := { r.ts with t := r.pace.after r.ts.t j }, n := r.n - j, pace := r.pace.at' j }
  else some r

/-- A condition unit's times on record, brought into the window of `agedTime`. -/
def TrigUnit.aged (now : Nat) (x : TrigUnit) : TrigUnit :=
  { x with
    vers := x.vers.map fun v => { v with fromT := agedTime now v.fromT },
    evalFrom := agedTime now x.evalFrom,
    arms := x.arms.map fun a => { a with t := agedTime now a.t },
    holdUntil := x.holdUntil.map (agedTime now) }

/-- A channel's times on record, brought into the window of `agedTime`. -/
def TrigChan.aged (now : Nat) (x : TrigChan) : TrigChan :=
  { x with
    units := x.units.map (TrigUnit.aged now), restAt := x.restAt.map (agedTime now),
    restTo := x.restTo.map (agedTime now), runs := x.runs.filterMap (OutRun.aged now),
    evaluated := x.evaluated.map (agedTime now), done := x.done.map (agedTime now) }

/-- A discard interval overlaps the span of a capture (R29). -/
def Capture.meets (k : Capture) (x : Nat × Option Nat) : Bool :=
  match k.units.head?, k.units.getLast? with
  | some a, some b => atOrAfter b.ts.t x.1 && x.2.all fun t => later t a.ts.t
  | _, _ => false

/-- A discard interval lies within an eighth of the range of device time before now. -/
def recentLoss (now : Nat) (x : Nat × Option Nat) : Bool :=
  x.2.all fun t => decide (timeDiff now t ≤ (eighth : Int))

/-- A record writer's times on record without those older than an eighth of the range of device time; an open
capture keeps word of a discard interval that goes (R29). -/
def Writer.aged (now : Nat) (w : Writer) : Writer :=
  let gone := w.lost.filter fun x => !recentLoss now x
  { w with
    runs := w.runs.filterMap (OutRun.aged now),
    lost := w.lost.filter (recentLoss now),
    caps := w.caps.map fun k => { k with lostSeen := k.lostSeen || gone.any k.meets } }

/-- A lane group's LEMC grid from a later time on record: so many whole ticks on (R53). -/
def LaneGroup.aged (now : Nat) (x : LaneGroup) : LaneGroup :=
  if (eighth : Int) < timeDiff now x.grid then
    let n := (timeDiff now x.grid / 4096).toNat
    { x with grid := timeAdd x.grid (n * 4096 : Nat), gridRem := (x.gridRem + n * x.gridP.2) % max 1 x.gridP.1 }
  else x

/-- Device time has entered another eighth of its range: times on record stay in the past (R3). -/
def State.ageTimes (s : State) : State :=
  { s with trig := s.trig.map (TrigChan.aged s.time), writers := s.writers.map (Writer.aged s.time),
           lanes := s.lanes.map (LaneGroup.aged s.time),
           pulses := s.pulses.map fun l => l.filter fun p => later p.2 s.time }

/-! ### Time passes (R495, R502) -/

/-- FRAC units pass: device time moves once SYS has locked since cold reset (R490), the management
island's own count always, and loops in BYPASS count their time there. -/
def State.pass (s : State) (d : Nat) : State :=
  let s := (List.range 6).foldl (fun s k =>
    if h : k < 6 then
      if s.pllState k = 1 then
        let n := s.clk.bypassRem[k] + d
        let c := { s.clk with bypassRem := s.clk.bypassRem.set k (n % 10240) }
        ({ s with clk := c } : State).bump (Reg.CLK_PLL_BYPASS_NS k) 64 (n / 10240)
      else s
    else s) s
  let was := s.time
  let s := { s with
    time := if s.clk.everLocked then (s.time + d) % timeMod else s.time
    clk := { s.clk with up := s.clk.up + d } }
  if was / eighth = s.time / eighth then s else s.ageTimes

/-- One cycle of the clock that device time runs on: a SYS tick while SYS is locked, else a cycle of the
bypass clock, on the backup oscillator while SYS is OFF, in exact rational arithmetic (R495, R501).
(DESIGN CHOICE, log entry 2.) (DEDUCED, log entry 18.) -/
def State.tickClock (s : State) : State :=
  if s.pllLocked 0 then s.pass 4096
  else
    let khz := if s.pllState 0 = 1 then s.bypassKhz else 400000
    let den := max 1 s.clk.remDen
    let num := s.clk.remNum * khz + 2500000 * 4096 * den
    let g := Nat.gcd num (den * khz)
    let n := num / g
    let m := den * khz / g
    ({ s with clk := { s.clk with remNum := n % m, remDen := m } } : State).pass (n / m)

end Sys2Proof.Machine
end

