-- ==== Sys2Proof/Machine/Levels.lean ====
section
/-! DEFINITION. Levels in dB: LM16 values of powers and the comparison of powers with LM16 thresholds
(R9, R118, R143), in exact integer arithmetic. A power is a quotient num / den. -/

namespace Sys2Proof.Machine

/-- num / den is at least 10 ^ (e / k), for an integer e and a positive k: both sides raised to the
power k. -/
def powerAtLeast (num den : Nat) (e : Int) (k : Nat) : Bool :=
  if 0 ≤ e then decide (den ^ k * 10 ^ e.toNat ≤ num ^ k)
  else decide (den ^ k ≤ num ^ k * 10 ^ (-e).toNat)

/-- The rounded LM16 of a power is at least `n` (R118, ties upward): 128 * (L + 384) is at least
n - 1/2. -/
def lmAtLeast (num den : Nat) (n : Int) : Bool :=
  powerAtLeast num den (2 * n - 1 - 98304) 2560

/-- Searches the largest value below `r + 2 ^ k` that `lmAtLeast` admits, bit by bit. -/
def lmSearch (num den : Nat) : (k : Nat) → (r : Int) → Int
  | 0, r => r
  | k + 1, r => if lmAtLeast num den (r + 2 ^ k) then lmSearch num den k (r + 2 ^ k)
    else lmSearch num den k r

/-- The rounded LM16 of a power, plus an offset, within the format: the value of R118 before the
device's own error. The search begins at -32,768, from where no LM_OFS reaches above 0. -/
def lmExact (num den : Nat) (ofs : Int) : Int :=
  clampI 0 65535 (lmSearch num den 17 (-32768) + ofs)

/-- The device's LM16 value of a power (R118): at most 1 from the rounded one, and exactly 0 for a
power of 0. (DESIGN CHOICE, log entry 24.) -/
def lm16 (num den : Nat) (ofs : Int := 0) : Nat :=
  if num = 0 then 0
  else (clampI 0 65535 (lmExact num den ofs + (Config.lmNudge num den % 3 : Int) - 1)).toNat

/-- num / den lies within a factor of 10 ^ 0.0004, 0.004 dB, of P(v) (R143). -/
def levelIsNear (num den v : Nat) : Bool :=
  powerAtLeast (num ^ 125) (den ^ 125) (((v : Int) - 49152) * 125 - 64) 1280 &&
    !powerAtLeast (num ^ 125) (den ^ 125) (((v : Int) - 49152) * 125 + 64) 1280

/-- num / den ≥ P(v) as the device tests it (R143): exact, but free within 0.004 dB of the threshold.
Powers a whole LM16 step away are settled first. (DESIGN CHOICE, log entry 24.) -/
def levelReached (num den v : Nat) : Bool :=
  if powerAtLeast num den ((v : Int) + 1 - 49152) 1280 then true
  else if !powerAtLeast num den ((v : Int) - 1 - 49152) 1280 then false
  else if levelIsNear num den v then Config.levelNear num den v
  else powerAtLeast num den ((v : Int) - 49152) 1280

end Sys2Proof.Machine
end

