-- ==== Sys2Proof/Machine/Wake.lean ====
section
/-! DEFINITION. The power state and what wakes the device (R556, R557, R560). -/

namespace Sys2Proof.Machine

/-- STATE of the power ladder (R556). -/
def State.power (s : State) : Nat := s.fld Reg.PWR_STS 2 0

/-- STAGE of the boot (R555): 0 ROM, 1 READ, 2 VERIFY, 3 SCRIPT, 4 LOCKED, 7 FAIL. -/
def State.stage (s : State) : Nat := s.fld Reg.MGT_BOOT_STS 2 0

/-- A descent or climb is in progress (R564). -/
def State.moving (s : State) : Bool := s.bit Reg.PWR_STS 3

/-- Begins a movement from the present state (R557): entering a state begins with its step 1, leaving
one with its last step. -/
def State.moveTo (s : State) (target : Nat) : State :=
  let st := s.power
  if target = st then s
  else
    let down := decide (st < target)
    let last := match st with
      | 1 => 4
      | 2 => 7
      | 3 => 3
      | 4 => 2
      | _ => 1
    let p := { s.pwr with
      target := target, down := down, into := if down then st + 1 else st,
      step := if down then 1 else last, go := none, since := s.clk.up }
    ({ s with pwr := p } : State).putBit Reg.PWR_STS 3 true

/-! ### Rails (R559, R588, R589) -/

/-- Drives the PS_EN outputs; a power-good input counts only while its enable is asserted. -/
def State.setRails (s : State) (en : Nat) : State :=
  let p := { s.pwr with en := en, pg := s.pwr.pg &&& en, pgWait := s.pwr.pgWait &&& en }
  ({ s with pwr := p } : State).send (.pin "PS_EN" 0 en)

/-- Asserts rails and waits for their power-good inputs. -/
def State.railsUp (s : State) (mask : Nat) : State :=
  let was := s.pwr.en
  let s := s.setRails (was ||| mask)
  let wait := mask &&& (7 - (s.pwr.pg &&& 7))
  { s with pwr := { s.pwr with pgWait := s.pwr.pgWait ||| wait, pgSince := s.clk.up } }

/-- A power-good input that is high counts from 20 µs after its enable; at power-up PS_EN1 and PS_EN2 follow PS_PG0 (R559,
R588). -/
def State.pgSample (s : State) : State :=
  let now := s.pwr.pgWait &&& s.pwr.pgHigh
  if now ≠ 0 ∧ s.elapsed s.pwr.pgSince (usec 20) then
    let s := { s with pwr := { s.pwr with pg := s.pwr.pg ||| now, pgWait := s.pwr.pgWait &&& (7 - now) } }
    if s.pwr.en = 1 ∧ s.pwr.pg.testBit 0 ∧ !s.moving then s.railsUp 6 else s
  else s

/-! ### Climbing and waking -/

/-- What begins with a step on the way up. -/
def State.undoBegins (s : State) : State :=
  let s := { s with pwr := { s.pwr with since := s.clk.up } }
  match s.pwr.into, s.pwr.step with
  | 4, 2 => s.railsUp 1
  | 4, 1 => s.railsUp 6
  | 3, 3 => s.railsUp 4
  | 2, 7 => (List.range 6).foldl State.pllStart s
  | _, _ => s

/-- WAKE_TARGET of R564. -/
def State.wakeTarget (s : State) : Nat := s.fld Reg.PWR_CTL 5 4

/-- A wake cause enabled by bit `b` of PWR_WAKE_EN, which wakes from states `hi` to `lo`, takes effect: in a descent, or
at rest in one of these states (R557, R560). (DEDUCED, log entry 53.) -/
def State.wakes (s : State) (b hi lo : Nat) : Bool :=
  let down := s.moving && s.pwr.down
  let at' := if down then s.pwr.into else s.power
  s.bit Reg.PWR_WAKE_EN b && decide (hi ≤ at' ∧ at' ≤ lo) && !s.pwr.woken && (down || !s.moving)

/-- A wake cause takes effect with a WAKE_TARGET outside 0 to 2 (R564, R609). -/
def State.wakeUndefined (s : State) (b hi lo : Nat) : Bool := s.wakes b hi lo && s.wakeTarget == 3

/-- What a wake cause does, with its code (R557, R560): the descent ends at the next state reached; a resting device
climbs. (DEDUCED, log entries 51 and 53.) -/
def State.wakeBy (s : State) (b code hi lo : Nat) : State :=
  let down := s.moving && s.pwr.down
  if s.wakes b hi lo then
    let s := (s.setFld Reg.PWR_STS 6 4 code).raise 5 code
    let s := { s with pwr := { s.pwr with woken := true } }
    if down then s
    else if s.wakeTarget < s.power then (s.moveTo s.wakeTarget).undoBegins
    else { s with pwr := { s.pwr with woken := false } }
  else s

end Sys2Proof.Machine
end

