-- ==== Sys2Proof/Machine/CalBase.lean ====
section
/-! DEFINITION. What every block shares with the calibration supervisor and the health monitor: the
health journal (R577), calibration runs (R566, R568) and the DRAM adjustment (R574). -/

namespace Sys2Proof.Machine

/-! ### The health journal (R576, R577) -/

/-- Records the journal keeps. -/
def journalSize : Nat := 2944

/-- The age in months (R573). -/
def State.ageMonths (s : State) : Nat := s.fld Reg.HLT_AGE 55 40

/-- Writes a journal record. -/
def State.journal (s : State) (kind target old new : Nat) : State :=
  let n := s.rdN Reg.HLT_JRN_HEAD
  let r : HltRec :=
    { n := n, ts := s.now.word, kind := kind, target := target % 256,
      months := s.ageMonths % 65536, old := old % 2 ^ 32, new := new % 2 ^ 32 }
  let s := { s with hlt := { s.hlt with journal := (r :: s.hlt.journal).take journalSize } }
  s.bump Reg.HLT_JRN_HEAD 32

/-- A record of a kind for which R577 does not say what its old and new values are. (DEDUCED, log entry 55.) -/
def State.journalFree (s : State) (kind target : Nat) : State :=
  let f := s.draw
  f.2.journal kind target (Config.journalValue f.1 false).toNat (Config.journalValue f.1 true).toNat

/-- The bytes of a record. -/
def HltRec.bytes (r : HltRec) : List (BitVec 8) :=
  let head := leBytes 8 r.ts.toNat ++ [BitVec.ofNat 8 r.kind, BitVec.ofNat 8 r.target] ++
    leBytes 2 r.months ++ leBytes 4 r.old ++ leBytes 4 r.new ++ leBytes 4 r.n
  head ++ leBytes 4 (crc32 head) ++ List.replicate 4 0

/-- Bytes 8e to 8e + 7 of the record HLT_JRN_Q (R579). Records of earlier power cycles are what MRAM
holds. -/
def State.journalRead (s : State) (e : Nat) : BitVec 64 :=
  let q := s.rdN Reg.HLT_JRN_Q
  let head := s.rdN Reg.HLT_JRN_HEAD
  match s.hlt.journal.find? fun r => r.n == q with
  | some r => BitVec.ofNat 64 (ofLe ((r.bytes.drop (8 * e)).take 8))
  | none =>
    if q < head ∧ journalSize < head - q then BitVec.allOnes 64
    else Config.mramJournal q e

/-! ### Calibration runs (R566-R568) -/

/-- Calibration IDs. -/
def calIds : Nat := 86

/-- The sensor of a calibration (R566). -/
def calSensor (id : Nat) : Nat :=
  if id < 64 then 24 + id / 8
  else if id < 66 then 2 * (id - 64)
  else if id < 82 then 16 + (id - 66) / 2
  else 20 + (id - 82)

/-- The present reading of a sensor, in 0.1 degrees. -/
def State.sensor (s : State) (n : Nat) : Int := s.rdI (Reg.HLT_TEMP n) 24

/-- A run is in progress. -/
def State.calRunning (s : State) (id : Nat) : Bool := s.hlt.runs.any fun r => r.id == id

/-- A calibration is due. -/
def State.calDue (s : State) (id : Nat) : Bool := s.hlt.due.any fun d => d.1 == id

/-- STATE of an ID (R578): 0 IDLE, 1 DUE, 2 RUNNING, 3 WAITING. -/
def State.setCalState (s : State) (id x : Nat) : State := s.setFld (Reg.CAL_ID_STS id) 1 0 x

/-- Brings CAL_STS up to date (R578). -/
def State.calShow (s : State) : State :=
  let any (b : Nat) : Nat := b2n ((List.range calIds).any fun id => s.bit (Reg.CAL_ID_STS id) b)
  s.wrN Reg.CAL_STS (s.hlt.runs.length + s.hlt.due.length * 2 ^ 7 + any 2 * 2 ^ 14 + any 3 * 2 ^ 15)

/-- A run begins (R568). -/
def State.calBegin (s : State) (id : Nat) : State :=
  if s.calRunning id then s
  else
    let r : CalRun :=
      { id := id, temp := s.sensor (calSensor id), since := s.clk.up,
        blocks := s.rdN (Reg.CND_IL_EST_BLOCKS (2 * (id - 64))) }
    let s := { s with hlt := { s.hlt with runs := s.hlt.runs ++ [r] } }
    (s.setCalState id 2).calShow

/-- A run leaves the list of runs: the calibration is due still, or idle. -/
def State.calLeaves (s : State) (id : Nat) : State :=
  let s := { s with hlt := { s.hlt with runs := s.hlt.runs.filter fun r => r.id != id } }
  (s.setCalState id (b2n (s.calDue id))).calShow

/-- A run holds a converter: SAR converter `a`, or integrating converter `a - 16` (R568). -/
def State.calHolds (s : State) (a : Nat) : Bool := s.calRunning (66 + a)

/-! ### The DRAM adjustment (R574) -/

/-- Notes an adjustment: its journal record, and HLT_ADJUST with the record's number. -/
def State.adjusted (s : State) (kind target old new : Nat) : State :=
  (s.journal kind target old new).raise 15 (s.rdN Reg.HLT_JRN_HEAD)

/-- An adjustment of a kind, 0 voltage, 1 equaliser, 2 DRAM, 3 trim, is at its limit: it has just `reached` it, or it
would pass it and no limit of its kind is on record. (DEDUCED, log entry 54.) -/
def State.atLimit (s : State) (kind target : Nat) (reached : Bool) : State :=
  if !reached && s.bit Reg.HLT_LIMIT_STS kind then s
  else ((s.putBit Reg.HLT_LIMIT_STS kind true).journalFree 7 target).raise 16 kind

/-- The monitor makes adjustments of a kind: ENABLE, ADJ_EN and the kind's own bit are 1. -/
def State.adjusts (s : State) (kind : Nat) : Bool :=
  s.bit Reg.HLT_CTL 0 && s.bit Reg.HLT_CTL 1 && s.bit Reg.HLT_CTL (2 + kind)

/-- Some byte lane has |DRIFT| at or above DRIFT_LIM: MEM_BGT_CFG.PERIOD halves. (DEDUCED, log entry 54.) -/
def State.dramAdjust (s : State) : State :=
  let far := (List.range 16).find? fun d => (List.range 4).any fun l =>
    decide (s.fld Reg.HLT_DRAM_CFG 7 0 ≤ (toSigned 8 (s.fld (Reg.MEM_LANE d l) 47 40)).natAbs)
  match far with
  | none => s
  | some d =>
    if s.adjusts 2 && decide (s.power ≤ 1) && s.sinceNote s.hlt.dramAt (msec 3600000) then
      let old := s.fld Reg.MEM_BGT_CFG 15 0
      let least := s.fld Reg.HLT_DRAM_CFG 31 16
      let new := max least (old / 2)
      let s := if old ≤ least then s
        else
          let s := { s with hlt := { s.hlt with dramAt := some s.clk.up } }
          (s.setFld Reg.MEM_BGT_CFG 15 0 new).adjusted 3 d old new
      if new = least then s.atLimit 2 d (decide (least < old)) else s
    else s

end Sys2Proof.Machine
end

