-- ==== Sys2Proof/Machine/Sram.lean ====
section
/-! DEFINITION. The partitions of the on-chip SRAM, and what its errors leave in its entries (R397, R399, R400, R404). -/

namespace Sys2Proof.Machine

/-- A partition of the SRAM (R397): its first segment, how many it has, and the data and check bits of one granule, or
none where a granule is one memory word of a Lantern core (R276). -/
structure SramPart where
  first : Nat
  count : Nat
  granule : Option (Nat × Nat)
  deriving DecidableEq, Repr

/-- The five partitions (R397). -/
def sramPart : Nat → SramPart
  | 0 => ⟨0, 48, some (24, 6)⟩
  | 1 => ⟨48, 32, some (64, 8)⟩
  | 2 => ⟨80, 18, none⟩
  | 3 => ⟨98, 16, some (64, 8)⟩
  | _ => ⟨114, 14, some (64, 8)⟩

/-- The bytes of a partition: segments of 1 MiB. -/
def sramBytes (p : Nat) : Nat := (sramPart p).count * 2 ^ 20

/-- The partition that a segment belongs to (R397). -/
def sramOf (seg : Nat) : Option Nat :=
  (List.range 5).find? fun p => decide ((sramPart p).first ≤ seg ∧ seg < (sramPart p).first + (sramPart p).count)

/-- Segments kept in retention in BANKED (R401). -/
def sramRetained (seg : Nat) : Bool := decide (112 ≤ seg ∧ seg < 128)

/-- Corrected errors of a partition (R399). -/
def State.sramCorrected (s : State) (p n : Nat) : State := s.bump (Reg.SRM_CORR p) 64 n

/-- A double-bit error at a byte offset of a partition (R397, R400). -/
def State.sramDouble (s : State) (p off : Nat) : State :=
  if sramBytes p ≤ off then s else
  let s := (s.bumpSat (Reg.SRM_UNCORR p) 32).wrN Reg.SRM_ERR_ADDR (off % 2 ^ 27 + p * 2 ^ 60)
  ((s.wr Reg.SRM_ERR_TS s.now.word).raise 742).journalFree 10 p

end Sys2Proof.Machine
end

