-- ==== Sys2Proof/Machine/Memory.lean ====
section
/-! DEFINITION. The GDDR7 controller (R378-R396, R402, R403, R405). -/

namespace Sys2Proof.Machine

/-! ### State and capacity (R378-R382, R402) -/

/-- STATE of the controller (R403): 0 OFF, 1 LOCK, 2 INIT, 3 TRAIN, 4 READY, 5 SELF_REFRESH, 6 FAULT,
7 RATE_CHANGE. -/
def State.memState (s : State) : Nat := s.fld Reg.MEM_STS 2 0

/-- Sets STATE. -/
def State.setMemState (s : State) (x : Nat) : State := s.setFld Reg.MEM_STS 2 0 x

/-- A request that waited for GDDR7 is served. -/
def State.serveHeld (s : State) (k : HeldRequest) : State :=
  if k.write then s.wrBytes k.addr k.data else s.send (.pcieCompletion k.port k.tag 0 (s.rdBytes k.addr k.len))

/-- Requests that waited for GDDR7 are served in the order in which they came (R383, R391). -/
def State.heldServe (s : State) : State := s.heldReqs.foldl State.serveHeld { s with heldReqs := [] }

/-- Enters READY (R405): what masters wait with goes ahead (R383, R387). -/
def State.memReady (s : State) : State := ((s.setMemState 4).raise 736).publishStaged.heldServe

/-- The device of an address (R382). -/
def ddrDevice (a : Nat) : Nat := natBits a 11 8

/-- The bank of an address (R382). -/
def ddrBank (a : Nat) : Nat := natBits a 18 15

/-- Where a byte of GDDR7 lies (R382): device, bank, row and column byte within the page. -/
structure DdrPlace where
  dev : Nat
  bank : Nat
  row : Nat
  col : Nat
  deriving DecidableEq, Repr

/-- The place of an address: the column byte joins its 256-byte chunk and the byte within it (R382). -/
def ddrPlace (a : Nat) : DdrPlace :=
  { dev := ddrDevice a, bank := ddrBank a, row := natBits a 35 19, col := natBits a 14 12 * 256 + natBits a 7 0 }

/-- The address of a place, the inverse of the map (R382). -/
def DdrPlace.addr (p : DdrPlace) : Nat :=
  p.row * 2 ^ 19 + p.bank * 2 ^ 15 + p.col / 256 * 2 ^ 12 + p.dev * 2 ^ 8 + p.col % 256

/-- Rows of a bank, by DENSITY (R382). -/
def State.ddrRows (s : State) : Nat := 2 ^ 15 * (s.fld Reg.MEM_CFG 1 0 + 2)

/-- The address of the `i`-th byte of a segment: a bank visit stays in one page of one device (R382, R390). -/
def MemSeg.byteAt (g : MemSeg) (i : Nat) : Nat :=
  let p := ddrPlace g.addr
  DdrPlace.addr { p with col := p.col + i }

/-- The addresses that a segment covers. -/
def MemSeg.bytes (g : MemSeg) : List Nat := (List.range g.len).map g.byteAt

/-- The frequency of the DRAM ADPLL at a rate code, in Hz: the data rate divided by 16 (R379). -/
def dramHz (sel : Nat) : Nat := sel * 125000000

/-- A rate code in range (R403). -/
def rateOk (sel : Nat) : Bool := decide (8 ≤ sel ∧ sel ≤ 16)

/-! ### Choosing settings (R384, R385) -/

/-- The longest run of set bits among `n` from bit `i` on: its first bit and its length, the first of
equals. `cur` is the length of the run that ends before bit `i`. (DEDUCED, log entry 39.) -/
def longestRun (bits : Nat) : (n i cur : Nat) → (best : Nat × Nat) → Nat × Nat
  | 0, _, _, best => best
  | n + 1, i, cur, best =>
    if bits.testBit i then
      let c := cur + 1
      longestRun bits n (i + 1) c (if best.2 < c then (i + 1 - c, c) else best)
    else longestRun bits n (i + 1) 0 best

/-- The run of set bits that holds bit `i`: how many lie below it, and above it. -/
def runBelow (bits : Nat) : (i : Nat) → Nat
  | 0 => 0
  | i + 1 => if bits.testBit i then 1 + runBelow bits i else 0
def runAbove (bits : Nat) : (fuel i : Nat) → Nat
  | 0, _ => 0
  | fuel + 1, i => if bits.testBit (i + 1) then 1 + runAbove bits fuel (i + 1) else 0

/-- What a sweep chooses for a lane: delay, VREF, W and the length of the VREF run. -/
structure LanePick where
  dly : Nat
  vref : Nat
  w : Nat
  run : Nat
  deriving DecidableEq, Repr

/-- The settings of a lane from its sweep: one map of 128 passing delay steps per VREF level. -/
def pickLane (levels : List Nat) : LanePick :=
  let runs := levels.map fun m => longestRun m 128 0 0 (0, 0)
  let best := (runs.zipIdx.foldl (fun (b : (Nat × Nat) × Nat) x =>
    if b.1.2 < x.1.2 then x else b) ((0, 0), 0))
  let dly := best.1.1 + (best.1.2 - 1) / 2
  let col := (levels.zipIdx.map fun x => if x.1.testBit dly then 2 ^ x.2 else 0).sum
  let lo := best.2 - runBelow col best.2
  let hi := best.2 + runAbove col 64 best.2
  { dly := dly, vref := (lo + hi) / 2, w := best.1.2,
    run := if best.1.2 = 0 then 0 else hi + 1 - lo }

/-- A lane fails (R385). -/
def LanePick.fails (x : LanePick) : Bool := decide (x.w < 16) || decide (x.run < 8)

/-- The outcome of training: maps of 64 VREF levels for each of the 64 byte lanes, reading and writing, the devices
that verification finds in error, and the step that overran its time (0 for none), on the devices of `bad`.
(DESIGN CHOICE, log entry 20.) -/
structure Sweep where
  rd : List (List Nat)
  wr : List (List Nat)
  bad : Nat
  late : Nat

/-- The first failure of a training: step, device and lane (R385). -/
def Sweep.failure (x : Sweep) (from' : Nat) : Option (Nat × Nat × Nat) :=
  let lane := fun (m : List (List Nat)) => (List.range 64).find? fun i => (pickLane (m.getD i [])).fails
  if x.late ≠ 0 then some (x.late, (lowestBit x.bad 16 0).getD 0, 0)
  else if from' ≤ 4 ∧ (lane x.rd).isSome then
    let i := (lane x.rd).getD 0
    some (4, i / 4, i % 4)
  else if from' ≤ 5 ∧ (lane x.wr).isSome then
    let i := (lane x.wr).getD 0
    some (5, i / 4, i % 4)
  else match lowestBit x.bad 16 0 with
    | some d => some (6, d, 0)
    | none => none

/-- MEM_LANE of a lane after training. DRIFT counts from start-up training. -/
def State.setLaneWord (s : State) (i : Nat) (r w : LanePick) (start : Bool) : State :=
  let k := Reg.MEM_LANE (i / 4) (i % 4)
  let s := (s.setFld k 6 0 r.dly).setFld k 12 7 r.vref
  let s := (s.setFld k 19 13 w.dly).setFld k 25 20 w.vref
  let s := (s.setFld k 32 26 r.w).setFld k 39 33 w.w
  if start then s.setFld k 47 40 0 else s

/-- Every device has been trained: TRAINED, and none has FAILED (R402). -/
def State.devicesTrained (s : State) : State :=
  (List.range 16).foldl (fun s d => (s.putBit (Reg.MEM_DEV_STS d) 0 true).putBit (Reg.MEM_DEV_STS d) 1 false) s

/-- The settings of every lane after training. -/
def State.setLanes (s : State) (x : Sweep) (start : Bool) : State :=
  (List.range 64).foldl (fun s i =>
    s.setLaneWord i (pickLane (x.rd.getD i [])) (pickLane (x.wr.getD i [])) start) s

/-- The controller has written the training pattern area anew (R381). (DEDUCED, log entry 39.) -/
def State.memPattern (s : State) : State :=
  { s.draw.2 with ddr := { s.ddr with pattern := s.draw.1 } }

/-- A held rate request is dropped with the sweep that it waited for. -/
def State.rateDrop (s : State) : State :=
  ({ s with ddr := { s.ddr with held := none } } : State).putBit Reg.MEM_STS 13 false

/-- Training fails (R385, R388): the next start-up trains in full. -/
def State.memFail (s : State) (step' dev lane : Nat) : State :=
  let s := ({ s with ddr := { s.ddr with kept := false, again := none } } : State).rateDrop
  let s := (s.setMemState 6).setFld Reg.MEM_STS 6 3 dev
  let s := (s.setFld Reg.MEM_STS 8 7 lane).setFld Reg.MEM_STS 11 9 step'
  (s.putBit (Reg.MEM_DEV_STS dev) 1 true).raise 737

/-- Begins a training of a kind. -/
def State.memTrain (s : State) (kind st : Nat) : State :=
  ({ s with ddr := { s.ddr with kind := kind } } : State).setMemState st

/-- A rate change begins (R388). Movements found at the old rate and not yet applied are discarded, and their
devices are due to be probed again. -/
def State.rateStart (s : State) (sel : Nat) : State :=
  let s := { s with ddr := { s.ddr with
    rate := sel, held := none, kind := 2, moves := [],
    probes := s.ddr.probes.filter fun p => !s.ddr.moves.any fun m => m.dev == p.1 } }
  ((s.setMemState 7).putBit Reg.MEM_STS 13 false).pllTarget 4 (dramHz sel)

/-- A sweep has ended: a held rate request goes ahead (R388). -/
def State.rateHeld (s : State) : State :=
  match s.ddr.held with
  | some r => s.rateStart r
  | none => s

/-- Training ends (R383, R385, R396): after a warm reset only verification runs, and a failure of it leads to training
in full. -/
def State.memTrained (s : State) (x : Sweep) : State :=
  let kind := s.ddr.kind
  match x.failure (if kind = 3 then 6 else 4) with
  | some (st, d, l) =>
    if kind = 3 then s.memTrain 1 3
    else s.memFail st d l
  | none =>
    let s := if kind = 3 then s else s.setLanes x (kind == 0)
    let s := ({ s with ddr := { s.ddr with kept := false, trained := true } } : State).devicesTrained.memPattern
    let s := (s.wr Reg.MEM_TRAIN_TS s.now.word).memReady
    s.rateHeld

/-! ### Clocks and power (R396) -/

/-- Every device enters self-refresh; a training or rate change that it interrupts goes on afterwards.
(DEDUCED, log entry 39.) -/
def State.memRest (s : State) : State :=
  let st := s.memState
  if st = 4 then ({ s with ddr := { s.ddr with again := none } } : State).setMemState 5
  else if st = 2 ∨ st = 3 ∨ st = 7 then ({ s with ddr := { s.ddr with again := some st } } : State).setMemState 5
  else s

/-- The power state lets GDDR7 leave self-refresh: RUN and IDLE, once DOZE step 7 has been undone, and in BANKED step 1
(R396, R558). -/
def State.memAwake (s : State) : Bool :=
  decide (s.power < 2) || (s.moving && !s.pwr.down && s.pwr.into == 2 && decide (s.pwr.step ≤ 6)) ||
    (s.moving && s.pwr.down && s.pwr.into == 3 && s.pwr.step == 1)

/-- Self-refresh ends once the controller is enabled, the DRAM ADPLL is locked and the power state allows it: what it
interrupted goes on, or the controller is READY (R396). -/
def State.memResume (s : State) : State :=
  if s.memState = 5 ∧ s.bit Reg.MEM_CTL 0 ∧ s.pllLocked 4 ∧ s.memAwake then
    match s.ddr.again with
    | some st => ({ s with ddr := { s.ddr with again := none } } : State).setMemState st
    | none => s.memReady.rateHeld
  else s

/-- The DRAM ADPLL has locked (R383, R396): after a warm reset verification follows, else the devices' initialization. -/
def State.memLocked (s : State) : State :=
  if s.memState = 1 then s.setMemState (if s.ddr.kind = 3 then 3 else 2) else s.memResume

/-- Step 3 of start-up training begins, at the latest 300 µs after ENABLE (R383). (DEDUCED, log entry 39.) -/
def State.memPoll (s : State) : State :=
  if s.memState = 2 ∧ s.elapsed s.ddr.since (usec 300) then s.setMemState 3 else s

/-- Entry to EMBER or STOWED and cold reset (R396): contents are lost. -/
def State.memLose (s : State) : State :=
  let s := { s with mem := Sparse.restrict (fun a => decide (2 ^ 44 ≤ a)) s.mem, misread := [],
                    ddr := { (default : Ddr) with sramUsed := s.ddr.sramUsed } }
  let s := (s.putBit Reg.MEM_CTL 0 false).wrN Reg.MEM_STS 0
  (List.range 16).foldl (fun s d => s.wrN (Reg.MEM_DEV_STS d) 0) s

/-- The probes that have held their devices long enough end, and a rate request held meanwhile goes ahead
(R386, R388). -/
def State.probesEnd (s : State) : State :=
  let left := s.ddr.probing.filter fun p => decide (s.clk.up < p.2)
  if s.ddr.probing.isEmpty || !left.isEmpty then { s with ddr := { s.ddr with probing := left } }
  else
    let s := ({ s with ddr := { s.ddr with probing := left } } : State).putBit Reg.MEM_STS 12 false
    if s.memState = 4 then s.rateHeld else s

/-- A probe holds a device. -/
def State.probed (s : State) (d : Nat) : Bool := s.ddr.probing.any fun p => p.1 == d && decide (s.clk.up < p.2)

/-! ### Refresh, errors and drift (R386, R392-R395) -/

/-- Refreshes a bank has postponed. -/
def State.debt (s : State) (k : Nat) : Nat := Sparse.get (fun _ => 0) s.ddr.debt k

/-- Sets them. -/
def State.setDebt (s : State) (k n : Nat) : State :=
  { s with ddr := { s.ddr with debt := Sparse.put (fun _ => 0) s.ddr.debt k n } }

/-- A movement is applied to a lane (R386). (DEDUCED, log entry 39.) -/
def State.applyMove (s : State) (m : LaneMove) : State :=
  let k := Reg.MEM_LANE m.dev m.lane
  let big := fun (x : Int) => decide (2 ≤ x.natAbs)
  let rd := if big m.rd then m.rd else 0
  let wr := if big m.wr then m.wr else 0
  let s := s.setFld k 6 0 (ofSigned 7 (s.fld k 6 0 + rd))
  let s := s.setFld k 19 13 (ofSigned 7 (s.fld k 19 13 + wr))
  (s.setFld k 47 40 (ofSigned 8 (toSigned 8 (s.fld k 47 40) + rd + wr))).raise 739

/-- A bank of a device is refreshed: new delays of the device take effect (R386). -/
def State.refreshBank (s : State) (d b : Nat) : State :=
  let ms := s.ddr.moves.filter fun m => m.dev == d
  let s := { s with ddr := { s.ddr with
    moves := s.ddr.moves.filter fun m => m.dev != d,
    refreshed := (d, b) :: s.ddr.refreshed.filter fun x => x.1 != d } }
  if ms.isEmpty then s else (ms.foldl State.applyMove s).dramAdjust

/-- An uncorrectable access (R394, R395). -/
def State.memUncorr (s : State) (d a : Nat) : State :=
  let s := (s.bumpSat (Reg.MEM_DEV_UNCORR d) 32).wrN Reg.MEM_ERR_ADDR a
  ((s.wr Reg.MEM_ERR_TS s.now.word).latchRaise Reg.MEM_STS 14 738).journalFree 10 d

/-- What an access meets (R394, R395): EDC retries, all of them failed, and an on-die ECC report, 1
corrected, 2 uncorrected. -/
structure MemAccess where
  retries : Nat
  fails : Bool
  ecc : Nat

/-- The errors of an access are counted and reported. -/
def State.memErrors (s : State) (d a : Nat) (write : Bool) (x : MemAccess) : State :=
  let s := s.bump (Reg.MEM_DEV_EDC_RETRY d) 64 (if x.fails then 3 else min 3 x.retries)
  let s := if x.fails then s.memUncorr d a else s
  if write then s
  else match x.ecc with
    | 1 => s.bump (Reg.MEM_DEV_ODECC_CORR d) 64
    | 2 => s.memUncorr d a
    | _ => s

/-! ### The scheduler (R390) -/

/-- A segment joins its device's queue, behind those that came no later. -/
def insertSeg (x : QueuedSeg) : List QueuedSeg → List QueuedSeg
  | [] => [x]
  | y :: r => if x.cameAt < y.cameAt then x :: y :: r else y :: insertSeg x r

/-- The segments queued for a device. -/
def State.ddrQueue (s : State) (d : Nat) : List QueuedSeg := if h : d < 16 then s.ddr.queues[d] else []

/-- Replaces them. -/
def State.setDdrQueue (s : State) (d : Nat) (q : List QueuedSeg) : State :=
  if h : d < 16 then { s with ddr := { s.ddr with queues := s.ddr.queues.set d q } } else s

/-- Segments that masters bring join the queues of their banks, each with the time it has waited already (R389, R390);
patrol reads and training probes are the controller's own. (DEDUCED, log entry 39.) -/
def State.memArrive (s : State) (segs : List MemSeg) : State :=
  segs.foldl (fun s g =>
    if g.master = .patrol ∨ g.master = .trainingProbe then s
    else
      let d := ddrDevice g.addr
      s.setDdrQueue d (insertSeg ⟨g, s.clk.up - g.waited * 10240⟩ (s.ddrQueue d))) s

/-- A queued segment as the scheduler sees it now, with its wait in nanoseconds. -/
def QueuedSeg.seen (x : QueuedSeg) (up : Nat) : MemSeg := { x.seg with waited := (up - x.cameAt) / 10240 }

/-- The segments that wait for a device, oldest first. -/
def State.waiting (s : State) (d : Nat) : List MemSeg := (s.ddrQueue d).map fun x => x.seen s.clk.up

/-- Removes the oldest queued segment that looks like `g`. -/
def State.takeSeg (s : State) (d : Nat) (g : MemSeg) : State :=
  let q := s.ddrQueue d
  s.setDdrQueue d (q.eraseIdx (q.findIdx fun x => x.seen s.clk.up == g))

/-- The bank that rotation reaches first after the latest one, among those that satisfy a test. -/
def nextBank (last : Nat) (p : Nat → Bool) : Option Nat :=
  ((List.range 16).map fun i => (last + 1 + i) % 16).find? p

/-- The oldest segment of a class in the bank that rotation reaches first. -/
def pickSeg (last cls : Nat) (q : List MemSeg) : Option MemSeg :=
  let of' := q.filter fun g => g.master.cls == cls
  match nextBank last fun b => of'.any fun g => ddrBank g.addr == b with
  | some b => of'.find? fun g => ddrBank g.addr == b
  | none => none

/-- What the scheduler starts (R390). -/
inductive Visit
  | forced (bank : Nat)
  | refresh (bank : Nat)
  | segment (g : MemSeg)
  | idle

/-- The choice for a device from the segments queued for it, oldest first. (DEDUCED, log entry 39.) -/
def State.chooseVisit (s : State) (d : Nat) (q : List MemSeg) : Visit :=
  let last := if h : d < 16 then s.ddr.rot[d] else 0
  let wait := s.fld Reg.MEM_BULK_WAIT 15 0
  let starved := (q.any fun g => g.master.cls == 0) && q.any fun g => g.master.cls == 1 && decide (wait ≤ g.waited)
  match nextBank last fun b => decide (4 ≤ s.debt (d * 16 + b)) with
  | some b => .forced b
  | none =>
    match (if starved then pickSeg last 1 q else none) with
    | some g => .segment g
    | none =>
      match pickSeg last 0 q with
      | some g => .segment g
      | none =>
        match pickSeg last 1 q with
        | some g => .segment g
        | none =>
          match nextBank last fun b =>
              decide (0 < s.debt (d * 16 + b)) && !q.any fun g => ddrBank g.addr == b with
          | some b => .refresh b
          | none =>
            match pickSeg last 2 q with
            | some g => .segment g
            | none => .idle

/-- What an access leaves of earlier failed reads: one that fails reads as it returned the data, any other ends that
(R394). -/
def State.readBack (s : State) (g : MemSeg) (fails : Bool) (left : List (BitVec 8)) : State :=
  let bs := g.bytes
  let kept := s.misread.filter fun e => !bs.contains e.1
  { s with misread := if fails then (bs.zip left).foldl (fun m e => Sparse.place e.1 e.2 m) kept else kept }

/-- A bank visit of a segment (R389-R394). `left` is what an access that failed in every retry left: the bytes that a
write leaves in the device, or the data as last read. -/
def State.visit (s : State) (d : Nat) (g : MemSeg) (x : MemAccess) (left : List (BitVec 8)) : State :=
  let rot := if h : d < 16 then s.ddr.rot.set d (ddrBank g.addr) else s.ddr.rot
  let s := { s with ddr := { s.ddr with rot := rot, refreshed := s.ddr.refreshed.filter fun r => r.1 != d } }
  let s := if g.master.cls = 0 then
      let s := if s.rdN Reg.MEM_RT_GAP_MAX < g.waited then
          s.wrN Reg.MEM_RT_GAP_MAX (min (2 ^ 32 - 1) g.waited) else s
      if 32000 < g.waited then s.raise 741 else s
    else s
  let s := s.memErrors d g.addr g.write x
  if x.fails && g.write then (g.bytes.zip left).foldl (fun s e => s.wrByte e.1 e.2) s
  else s.readBack g x.fails left

/-- The next segment that the background patrol reads (R395). -/
def State.patrolSeg (s : State) : MemSeg := ⟨.patrol, s.ddr.patrol, 256, false, 0⟩

/-- The patrol has read its segment; patrol reads cover all of GDDR7 (R395). -/
def State.patrolRead (s : State) (x : MemAccess) : State :=
  let g := s.patrolSeg
  let next := if g.addr + 256 < s.memCapacity then g.addr + 256 else 0
  let s := { s with ddr := { s.ddr with patrol := next } }
  s.visit (ddrDevice g.addr) g x []

/-- A training probe as a segment: in the training pattern area, on the bank that the device has just
refreshed (R381, R386). -/
def State.probeSeg (s : State) (d b : Nat) : MemSeg :=
  ⟨.trainingProbe, s.memEnd + b * 2 ^ 15 + d * 2 ^ 8, 256, true, 0⟩

/-- The scheduler starts the given segment of a device before those that are queued for it (R390). -/
def State.picks (s : State) (d : Nat) (g : MemSeg) : Bool :=
  match s.chooseVisit d (s.waiting d ++ [g]) with
  | .segment x => x == g
  | _ => false

/-! ### The commands -/

/-- ENABLE := 1 (R383). -/
def execMemEnable (s : State) : Host.Outcome State Fault Refusal :=
  if s.parityStopped Reg.MEM_CTL then .next s
  else
    if s.fld Reg.MEM_CFG 1 0 = 3 ∨ !rateOk (s.fld Reg.MEM_CFG 6 2) then .fault (.undefinedOutcome 609)
    else .next (
      let s := s.putBit Reg.MEM_CTL 0 true
      match s.memState with
      | 0 =>
        let s := (s.memTrain (if s.ddr.kept then 3 else 0) 1).wrN Reg.MEM_SIZE s.memEnd
        let s := { s with ddr := { s.ddr with since := s.clk.up } }
        let s := (s.pllTarget 4 (dramHz (s.fld Reg.MEM_CFG 6 2))).pllStart 4
        if s.pllLocked 4 then s.memLocked else s
      | _ => s.memResume)

/-- ENABLE := 0 (R403): the devices enter self-refresh, also from a retraining or a rate change. Start-up training, and
FAULT, end in OFF (R385). -/
def execMemDisable (s : State) : Host.Outcome State Fault Refusal :=
  let s := s.parityFree Reg.MEM_CTL
  .next (
    let s := s.putBit Reg.MEM_CTL 0 false
    match s.memState with
    | 0 => s
    | 4 => s.memRest
    | 5 => s
    | 7 => s.memRest
    | 3 => if s.ddr.kind = 1 then s.memRest else s.rateDrop.setMemState 0
    | _ => s.rateDrop.setMemState 0)

/-- Training ends (R383-R385, R387), or step 1 overruns its time in LOCK. -/
def execMemReady (rd wr : List (List Nat)) (bad : BitVec 16) (late : Fin 8) (s : State) :
    Host.Outcome State Fault Refusal :=
  .next (
    let x : Sweep := ⟨rd, wr, bad.toNat, late⟩
    if s.memState = 1 then (if late = 1 then s.memFail 1 ((lowestBit x.bad 16 0).getD 0) 0 else s)
    else if (s.memState = 2 ∨ s.memState = 3) ∧ s.pllLocked 4 then s.memTrained x
    else s)

/-- RETRAIN := 1 (R387). -/
def execRetrain (s : State) : Host.Outcome State Fault Refusal :=
  .next (if s.memState = 4 then s.memTrain 1 3 else s)

/-- GO := 1 in MEM_RATE_REQ (R388): held while training, a rate change or a probe gathers data, and in
self-refresh. (DEDUCED, log entry 39.) -/
def execMemRateReq (sel : Fin 32) (s : State) : Host.Outcome State Fault Refusal :=
  if !rateOk sel then .fault (.undefinedOutcome 609)
  else .next (
    let s := (s.setFld Reg.MEM_RATE_REQ 4 0 sel).probesEnd
    match s.memState with
    | 4 =>
      if s.ddr.probing.isEmpty then s.rateStart sel
      else ({ s with ddr := { s.ddr with held := some sel.val } } : State).putBit Reg.MEM_STS 13 true
    | 0 => s
    | 6 => s
    | _ =>
      ({ s with ddr := { s.ddr with held := some sel.val } } : State).putBit Reg.MEM_STS 13 true)

/-- The retraining at the new rate ends (R388). -/
def execMemRateDone (rd wr : List (List Nat)) (bad : BitVec 16) (late : Fin 8) (s : State) :
    Host.Outcome State Fault Refusal :=
  .next (
    if s.memState = 7 ∧ s.pllLocked 4 then
      let x : Sweep := ⟨rd, wr, bad.toNat, late⟩
      match x.failure 4 with
      | some (st, d, l) => s.memFail st d l
      | none =>
        let s := (s.setLanes x false).devicesTrained.memPattern
        let s := s.wr Reg.MEM_TRAIN_TS s.now.word
        ((s.setFld Reg.MEM_CFG 6 2 s.ddr.rate).memReady.raise 740).rateHeld
    else s)

/-- How long a probe holds its device, in FRAC units: 200 ns (R386). -/
def probeSpan : Nat := 200 * 10240

/-- A probe of a device at a temperature in 0.1 degrees, and the movements of its lanes (R386). It runs in the
background class, right after a per-bank refresh of the device and only where the scheduler has nothing else
for it (R389, R390). (DEDUCED, log entry 39.) -/
def execBgtProbe (d : Fin 16) (temp : Int) (found : ProbeFind) (s : State) : Host.Outcome State Fault Refusal :=
  .next (
    let s := s.probesEnd.memArrive found.segs
    let last := s.ddr.probes.find? fun p => p.1 == d.val
    let due : Bool := match last with
      | none => true
      | some (_, t, c) =>
        s.elapsed t (msec (s.fld Reg.MEM_BGT_CFG 15 0)) ||
          decide (s.fld Reg.MEM_BGT_CFG 23 16 < (temp - c).natAbs)
    match s.ddr.refreshed.find? fun r => r.1 == d.val with
    | none => s
    | some (_, b) =>
      if s.memState = 4 ∧ s.bit Reg.MEM_CTL 2 ∧ due = true ∧ s.probed d = false ∧
          s.picks d (s.probeSeg d b) = true then
        let moved := found.moves.filterMap fun m =>
          if 2 ≤ m.2.1.natAbs ∨ 2 ≤ m.2.2.natAbs then
            some { dev := d.val, lane := m.1.val, rd := m.2.1, wr := m.2.2 : LaneMove }
          else none
        let s := (s.visit d (s.probeSeg d b) ⟨found.retries, found.fails, 0⟩ []).memPattern
        let x := { s.ddr with
          probes := (d.val, s.clk.up, temp) :: s.ddr.probes.filter fun p => p.1 != d.val,
          moves := s.ddr.moves ++ moved,
          probing := (d.val, s.clk.up + probeSpan) :: s.ddr.probing.filter fun p => p.1 != d.val }
        let s := ({ s with ddr := x } : State).putBit Reg.MEM_STS 12 true
        (s.setFld (Reg.MEM_DEV_STS d) 9 2 (ofSigned 8 (floorDiv temp 10))).dramAdjust
      else s)

/-- The temperature that a device reports, in 0.1 degrees (R392, R402). -/
def State.reportTemp (s : State) (d : Nat) (temp : Int) : State :=
  s.setFld (Reg.MEM_DEV_STS d) 9 2 (ofSigned 8 (floorDiv temp 10))

/-- A refresh falls due on a bank (R392, R393). While the bank has a visit in progress, and while a probe holds the
device, it waits for the precharge; it may be postponed while the bank has segments queued; at its limit it goes
first, and late. (DEDUCED, log entry 39.) -/
def execRefresh (d b : Fin 16) (x : RefreshFind) (s : State) : Host.Outcome State Fault Refusal :=
  .next (
    let s := s.probesEnd
    let k := d.val * 16 + b.val
    if s.memState ≠ 4 then s
    else
    let s := s.reportTemp d x.temp
    if x.busy || s.probed d then s.setDebt k (s.debt k + 1)
    else if 4 ≤ s.debt k then (s.bumpSat Reg.MEM_REF_LATE 32).refreshBank d b
    else if (s.waiting d).any fun g => ddrBank g.addr == b.val then s.setDebt k (s.debt k + 1)
    else s.refreshBank d b)

/-- Device `d` can start a bank visit (R390): the segments that masters have brought since, for any device, and what
the access meets. A probe holds its device (R386). Training probes and patrol reads start by their own commands. -/
def execBankVisit (d : Fin 16) (segs : List MemSeg) (retries : Fin 4) (fails : Bool) (ecc : Fin 3)
    (left : List (BitVec 8)) (s : State) : Host.Outcome State Fault Refusal :=
  .next (
    let s := s.probesEnd.memArrive segs
    if s.memState ≠ 4 ∨ s.probed d = true then s
    else match s.chooseVisit d (s.waiting d) with
      | .forced b =>
        let k := d.val * 16 + b
        ((s.setDebt k (s.debt k - 1)).bumpSat Reg.MEM_REF_LATE 32).refreshBank d b
      | .refresh b =>
        let k := d.val * 16 + b
        (s.setDebt k (s.debt k - 1)).refreshBank d b
      | .segment g => (s.takeSeg d g).visit d g ⟨retries, fails, ecc⟩ left
      | .idle => s)

/-- A patrol read of the next 256 bytes, in the background class: it takes place where the scheduler has
nothing else for its device (R389, R390, R395). -/
def execPatrolRead (x : PatrolFind) (s : State) : Host.Outcome State Fault Refusal :=
  .next (
    let s := s.probesEnd.memArrive x.segs
    let d := ddrDevice s.ddr.patrol
    if s.memState = 4 ∧ s.bit Reg.MEM_CTL 3 ∧ s.probed d = false ∧ s.picks d s.patrolSeg = true then
      s.patrolRead ⟨x.retries, x.fails, x.ecc⟩
    else s)

end Sys2Proof.Machine
end

