-- ==== Sys2Proof/Machine/DriveBase.lean ====
section
/-! DEFINITION. Record rings as their consumers see them, and the drive engine: stripe sets, blocks, the
cairn journal, members and durability (R205-R207, R442-R455). -/

namespace Sys2Proof.Machine

/-! ### Record rings (R205-R208) -/

/-- The record writer of a channel. -/
def State.writer (s : State) (c : Nat) : Writer := if h : c < 4 then s.writers[c] else default

/-- Replaces the record writer of a channel. -/
def State.setWriter (s : State) (c : Nat) (w : Writer) : State :=
  if h : c < 4 then { s with writers := s.writers.set c w } else s

/-- TYPE of R208. -/
def State.recType (s : State) (c : Nat) : Nat := s.fld (Reg.ACQ_CFG c) 1 0

/-- S of R205. -/
def State.ringSize (s : State) (c : Nat) : Nat := 2 ^ s.fld (Reg.ACQ_RING c) 5 0

/-- BASE of R205. -/
def State.ringBase (s : State) (c : Nat) : Nat := s.fld (Reg.ACQ_RING c) 47 12 * 4096

/-- Rounds up to a multiple of 64. -/
def up64 (n : Nat) : Nat := (n + 63) / 64 * 64

/-! ### The carried stream (R446, R447) -/

/-- A part of a ring as blocks carry it: its ring offset and length, the bytes it becomes, whether a record
begins with it, and the units of a packed record. -/
structure Seg where
  ring : Nat
  len : Nat
  out : Nat
  head : Bool
  units : Option Nat

/-- Carried bytes of a record: packed, its units take 4 bytes each (R446). -/
def RecSpan.out (x : RecSpan) (pack : Bool) : Nat :=
  if pack && x.packs then 64 + up64 (4 * x.units) + (x.len - 64 - up64 (6 * x.units)) else x.len

/-- The published ring from offset `r` on, as segments. -/
def carry (pack : Bool) : List RecSpan → (r pub : Nat) → List Seg
  | [], r, pub => if r < pub then [⟨r, pub - r, pub - r, false, none⟩] else []
  | x :: xs, r, pub =>
    if x.start < r then carry pack xs r pub
    else if pub ≤ x.start then
      if r < pub then [⟨r, pub - r, pub - r, false, none⟩] else []
    else
      let raw := if r < x.start then [⟨r, x.start - r, x.start - r, false, none⟩] else []
      let e :=
        if x.len = 0 then
          match xs with
          | y :: _ => min pub y.start
          | [] => pub
        else min pub (x.start + x.len)
      let packed := pack && x.packs
      let seg : Seg := ⟨x.start, e - x.start, if packed then x.out true else e - x.start, true,
        if packed then some x.units else none⟩
      raw ++ seg :: carry pack xs e pub

/-- The ring offset that carried byte `j` of a segment stands for. -/
def Seg.ringAt (g : Seg) (j : Nat) : Nat :=
  match g.units with
  | none => g.ring + j
  | some n =>
    if j < 64 then g.ring + j
    else if j < 64 + 4 * n then g.ring + 64 + 6 * ((j - 64) / 4)
    else if j < 64 + up64 (4 * n) then g.ring + 64 + 6 * n
    else g.ring + g.len - (g.out - j)

/-- The take position after `n` more carried bytes, and its ring offset. -/
def takeAfter (pub : Nat) : List Seg → (j n : Nat) → (Nat × Nat) × Nat
  | [], _, _ => ((pub, 0), pub)
  | g :: gs, j, n =>
    if j + n < g.out then
      (if g.units.isNone then (g.ring + j + n, 0) else (g.ring, j + n), g.ringAt (j + n))
    else takeAfter pub gs 0 (n - (g.out - j))

/-- Where the first record begins among the carried bytes, counted from `at'`. -/
def firstHead : List Seg → (j at' : Nat) → Option Nat
  | [], _, _ => none
  | g :: gs, j, at' => if g.head && j == 0 then some at' else firstHead gs 0 (at' + (g.out - j))

/-- One part of a C48 unit at 16 bits (R446). -/
def pack16 (v : Nat) : Nat := ofSigned 16 (clampI (-32768) 32767 (rneDiv (toSigned 24 v) 256))

/-- Carried byte `j` of a segment, read through `rd` from the ring. -/
def Seg.byte (g : Seg) (rd : Nat → BitVec 8) (j : Nat) : BitVec 8 :=
  match g.units with
  | none => rd (g.ring + j)
  | some n =>
    if 0x30 ≤ j ∧ j < 0x38 then (leBytes 8 g.out).getD (j - 0x30) 0
    else if j < 64 then rd (g.ring + j)
    else if j < 64 + 4 * n then
      let u := g.ring + 64 + 6 * ((j - 64) / 4)
      let v := ofLe ((List.range 6).map fun i => rd (u + i))
      (leBytes 4 (pack16 (v / 2 ^ 24) + pack16 (v % 2 ^ 24) * 65536)).getD ((j - 64) % 4) 0
    else if j < 64 + up64 (4 * n) then 0
    else rd (g.ringAt j)

/-- Carried bytes from a place on. -/
def segByte (rd : Nat → BitVec 8) : List Seg → (j i : Nat) → BitVec 8
  | [], _, _ => 0
  | g :: gs, j, i => if j + i < g.out then g.byte rd (j + i) else segByte rd gs 0 (i - (g.out - j))

/-! ### Sets and members (R444, R445) -/

/-- A stripe set beyond its entries. -/
def State.dset (s : State) (x : Nat) : DrvSet := if h : x < 4 then s.drv.sets[x] else default

/-- Replaces it. -/
def State.setDset (s : State) (x : Nat) (d : DrvSet) : State :=
  if h : x < 4 then { s with drv := { s.drv with sets := s.drv.sets.set x d } } else s

/-- STATE of a set (R457): 0 OFF, 1 INIT, 2 RUN, 3 STOPPING, 4 IDLE. -/
def State.dState (s : State) (x : Nat) : Nat := s.fld (Reg.DRV_SET_STS x) 2 0

/-- HEALTH of a set: 0 OPTIMAL, 1 DEGRADED, 2 REBUILDING, 3 FAILED. -/
def State.dHealth (s : State) (x : Nat) : Nat := s.fld (Reg.DRV_SET_STS x) 4 3

/-- Members, and whether a parity block closes a stripe. -/
def State.dN (s : State) (x : Nat) : Nat := s.fld (Reg.DRV_SET_CFG x) 4 0
def State.dParity (s : State) (x : Nat) : Bool := s.bit (Reg.DRV_SET_CFG x) 5

/-- d of a set: data blocks in a stripe. -/
def State.dData (s : State) (x : Nat) : Nat := max 1 (s.dN x - b2n (s.dParity x))

/-- The stripe position of a stripe (R445). -/
def State.stripePos (s : State) (x st : Nat) : Nat :=
  if s.bit (Reg.DRV_SET_CFG x) 6 then st % max 1 (s.dset x).k else st

/-- The member that holds data block `j` of a stripe, and the one that holds its parity. -/
def State.dataMember (s : State) (x st j : Nat) : Nat :=
  let n := max 1 (s.dN x)
  if s.dParity x then (s.stripePos x st % n + 1 + j) % n else j
def State.parityMember (s : State) (x st : Nat) : Nat := s.stripePos x st % max 1 (s.dN x)

/-- STATE of a member (R457): 0 ABSENT, 1 INIT, 2 ACTIVE, 3 MISSING, 4 FAILED, 5 REBUILDING. -/
def State.mState (s : State) (x m : Nat) : Nat := s.fld (Reg.DRV_MEMBER_STS x m) 2 0

/-- The port and function of a member. -/
def State.mPort (s : State) (x m : Nat) : Nat := s.fld (Reg.DRV_MEMBER_STS x m) 6 5
def State.mFn (s : State) (x m : Nat) : Nat := s.fld (Reg.DRV_MEMBER_STS x m) 11 7

/-- A member beyond its entry. -/
def State.member (s : State) (x m : Nat) : DrvMember :=
  if h : m < 16 then (s.dset x).members[m] else default

/-- Replaces it. -/
def State.setMember (s : State) (x m : Nat) (v : DrvMember) : State :=
  if h : m < 16 then
    let d := s.dset x
    s.setDset x { d with members := d.members.set m v }
  else s

/-- A member's STATE changes (R458). -/
def State.memberTo (s : State) (x m st : Nat) : State :=
  if s.mState x m = st then s else (s.setFld (Reg.DRV_MEMBER_STS x m) 2 0 st).raise (916 + x)

/-- The set and member that a controller serves. -/
def State.memberOf (s : State) (port fn : Nat) : Option (Nat × Nat) :=
  ((List.range 4).flatMap fun x => (List.range (s.dN x)).map fun m => (x, m)).find? fun e =>
    (s.mState e.1 e.2 == 1 || s.mState e.1 e.2 == 2 || s.mState e.1 e.2 == 5) &&
      s.mPort e.1 e.2 == port && s.mFn e.1 e.2 == fn

/-- A member takes Writes of a stripe (R453, R454). -/
def State.takesStripe (s : State) (x m st : Nat) : Bool :=
  s.mState x m == 2 || (s.mState x m == 5 && decide ((s.dset x).firstAll ≤ st))

/-! ### Controllers and commands (R442, R443) -/

/-- The controller of a function. -/
def State.ctrl (s : State) (port fn : Nat) : Option Ctrl :=
  s.drv.ctrls.find? fun c => c.port == port && c.fn == fn

/-- Replaces a controller. -/
def State.setCtrl (s : State) (c : Ctrl) : State :=
  { s with drv := { s.drv with
    ctrls := c :: s.drv.ctrls.filter fun d => !(d.port == c.port && d.fn == c.fn) } }

/-- Removes a controller. -/
def State.dropCtrl (s : State) (port fn : Nat) : State :=
  { s with drv := { s.drv with ctrls := s.drv.ctrls.filter fun d => !(d.port == port && d.fn == fn) } }

/-- The queue pair of a command (R442): 0 admin, 1 the I/O pair for writes, 2 the one for reads. -/
def NvmeOp.queue : NvmeOp → Nat
  | .write | .flush => 1
  | .read => 2
  | _ => 0

/-- A queue of the controller has room: the admin queue has 32 entries, an I/O queue `depth`, of which a queue uses all but
one. (PRESUMED, log entry 42.) -/
def Ctrl.room (c : Ctrl) (q : Nat) : Bool :=
  let size := if q = 0 then 32 else c.depth
  decide ((c.cmds.filter fun k => k.sent && k.op.queue == q).length < max 1 (size - 1))

/-- A command may go to the controller now: one of its initialisation, or any once it is ready. -/
def Ctrl.takes (c : Ctrl) (k : DrvCmd) : Bool :=
  match k.what with
  | .init _ => true
  | _ => c.phase == 4

/-- The oldest command that waits for a queue goes to the controller, where there is room (R442). -/
def State.drvNext (s : State) (port fn q : Nat) : State :=
  match s.ctrl port fn with
  | none => s
  | some c =>
    match c.cmds.find? fun k => !k.sent && k.op.queue == q with
    | none => s
    | some k =>
      if c.takes k && c.room q then
        let cmds := c.cmds.map fun e => if e.cookie = k.cookie then { e with sent := true, sentAt := s.clk.up } else e
        (s.setCtrl { c with cmds := cmds }).send (.nvme port fn k.op k.lba k.cookie)
      else s

/-- A command joins those of its controller, and goes to it as soon as it can (R442). -/
def State.drvSend (s : State) (port fn : Nat) (op : NvmeOp) (what : DrvWhat) (lba : Nat) : State :=
  match s.ctrl port fn with
  | none => s
  | some c =>
    let n := s.drv.cookie
    let cmd : DrvCmd :=
      { cookie := n, op := op, what := what, lba := lba, sentAt := s.clk.up, tries := 0, sent := false }
    let s := s.setCtrl { c with cmds := c.cmds ++ [cmd] }
    let s := { s with drv := { s.drv with cookie := n + 1 } }
    s.drvNext port fn op.queue

/-- The step of a controller's initialisation, in order (R442). -/
def initOp : Nat → NvmeOp
  | 0 => .identifyCtrl | 1 => .identifyNs | 2 => .setQueues | 3 => .createCq | 4 => .createSq
  | 5 => .createCq | 6 => .createSq | _ => .read

/-- A controller is usable (R442). -/
def Ctrl.usable (c : Ctrl) : Bool := c.phase == 4 && c.mdtsOk && c.formatOk

/-! ### Labels (R444) -/

/-- The 64 bytes of a label. -/
def DrvLabel.bytes (x : DrvLabel) : List (BitVec 8) :=
  let head := [0x43, 0x46, 0x53, 0x4C] ++ [(1 : BitVec 8)] ++ leBytes 1 x.index ++ leBytes 1 x.n ++
    leBytes 1 x.flags ++ leBytes 8 x.setId ++ leBytes 8 x.gen ++ leBytes 8 x.next ++ leBytes 8 x.degFrom ++
    leBytes 8 x.stripes
  head ++ leBytes 4 (crc32 head) ++ List.replicate 12 0

/-- The label that bytes hold, if it is valid. -/
def DrvLabel.ofBytes (bs : List (BitVec 8)) : Option DrvLabel :=
  let num := fun o n => ofLe ((bs.drop o).take n)
  if 64 ≤ bs.length ∧ bs.take 4 = [0x43, 0x46, 0x53, 0x4C] ∧ num 4 1 = 1 ∧
      num 0x30 4 = crc32 (bs.take 0x30) then
    some { index := num 5 1, n := num 6 1, flags := num 7 1, setId := num 8 8, gen := num 0x10 8,
           next := num 0x18 8, degFrom := num 0x20 8, stripes := num 0x28 8 }
  else none

/-- The label of a member as the set stands. -/
def State.labelOf (s : State) (x m : Nat) : DrvLabel :=
  { index := m, n := s.dN x, flags := b2n (s.dParity x) + 2 * b2n (s.bit (Reg.DRV_SET_CFG x) 6),
    setId := s.rdN (Reg.DRV_SET_ID x), gen := s.rdN (Reg.DRV_SET_GEN x),
    next := s.rdN (Reg.DRV_SET_NEXT_BLOCK x), degFrom := s.rdN (Reg.DRV_SET_DEG_FROM x),
    stripes := (s.dset x).k }

/-- A label goes to one member. -/
def State.sendLabel (s : State) (x m : Nat) : State :=
  let p := s.mPort x m
  let f := s.mFn x m
  (s.send (.nvmeLabel p f (s.labelOf x m).bytes)).drvSend p f .write (.label x) 0

/-- Labels go to every present member (R444). -/
def State.sendLabels (s : State) (x : Nat) : State :=
  (List.range (s.dN x)).foldl (fun s m =>
    let st := s.mState x m
    if st = 1 ∨ st = 2 ∨ st = 5 then s.sendLabel x m else s) s

/-- Labels are written again, with GEN one more. -/
def State.relabel (s : State) (x : Nat) : State := (s.bump (Reg.DRV_SET_GEN x) 64).sendLabels x

/-- HEALTH follows from the members (R453, R454). -/
def State.drvHealth (s : State) (x : Nat) : State :=
  let ms := (List.range (s.dN x)).map (s.mState x)
  let gone := (ms.filter fun st => st != 2).length
  let h := if b2n (s.dParity x) < gone then 3
    else if gone = 0 then 0 else if ms.contains 5 then 2 else 1
  if s.dHealth x = h then s
  else ((s.setFld (Reg.DRV_SET_STS x) 4 3 h).raise (912 + x)).relabel x

/-- DRV_SET_DEG_FROM of a set. -/
def State.setDegFrom (s : State) (x : Nat) (v : Option Nat) : State :=
  let s := s.setDset x { s.dset x with degFrom := v }
  s.wrN (Reg.DRV_SET_DEG_FROM x) (match v with
    | some st => s.stripePos x st
    | none => 2 ^ 64 - 1)

/-! ### Blocks (R445-R448) -/

/-- The payload of a block. -/
def drvPayload : Nat := 1048512

/-- The published bytes of a channel that the set has not taken, as segments. -/
def State.untaken (s : State) (x c : Nat) (pos : Nat × Nat) : List Seg :=
  carry (s.bit (Reg.DRV_SET_CFG x) 7) (s.writer c).spans pos.1 (s.rdN (Reg.ACQ_PUB c))

/-- How many carried bytes they are. -/
def State.untakenLen (s : State) (x c : Nat) : Nat :=
  if h : c < 4 then
    let pos := (s.dset x).pos[c]
    ((s.untaken x c pos).map (·.out)).sum - pos.2
  else 0

/-- Journal entries in use, shown. -/
def State.showJournal (s : State) : State := s.wrN Reg.DRV_JOURNAL_USED s.drv.journal.length

/-- WAITING or FULL begins (R445, R448, R458). -/
def State.drvStall (s : State) (x b : Nat) : State :=
  (s.putBit (Reg.DRV_SET_STS x) b true).latchRaise (Reg.DRV_SET_STS x) 10 (920 + x)

/-- The set can take a block now; else it shows why it waits (R445, R448, R453). -/
def State.canTake (s : State) (x : Nat) : State × Bool :=
  let st := s.rdN (Reg.DRV_SET_NEXT_BLOCK x) / s.dData x
  if s.dHealth x = 3 then (s, false)
  else if !s.bit (Reg.DRV_SET_CFG x) 6 && decide ((s.dset x).k ≤ st) then (s.drvStall x 5, false)
  else if 524288 ≤ s.drv.journal.length then (s.drvStall x 6, false)
  else (s.putBit (Reg.DRV_SET_STS x) 6 false, s.serves (s.fld Reg.DRV_AREA 47 20 * 2 ^ 20))

/-- The eight Writes of a block, or of a stripe's parity, to their member. -/
def State.sendStrips (s : State) (x m st : Nat) (what : Nat → DrvWhat) : State :=
  if s.takesStripe x m st then
    (List.range 8).foldl (fun s i =>
      s.drvSend (s.mPort x m) (s.mFn x m) .write (what i) (256 + 256 * s.stripePos x st + 32 * i)) s
  else s

/-- A block is accepted: its journal entry is made and its strips are sent (R445, R448). (DEDUCED, log entry 43.) -/
def State.acceptBlock (s : State) (k : DrvBlock) : State :=
  let x := k.set
  let d := s.dData x
  let st := k.b / d
  let s := { s with drv := { s.drv with journal := s.drv.journal ++ [k] } }
  let s := (s.wrN (Reg.DRV_SET_NEXT_BLOCK x) (k.b + 1)).showJournal
  let s := s.sendStrips x (s.dataMember x st (k.b % d)) st (fun i => .data x k.b i)
  if s.dParity x ∧ k.b % d + 1 = d then s.sendStrips x (s.parityMember x st) st (fun i => .parity x st i)
  else s

/-- Forms a block of a channel from `n` carried bytes (R446). -/
def State.formBlock (s : State) (x c n : Nat) : State :=
  if h : c < 4 then
    let d := s.dset x
    let pos := d.pos[c]
    let segs := s.untaken x c pos
    let pub := s.rdN (Reg.ACQ_PUB c)
    let first := match segs with
      | g :: _ => g.ringAt pos.2
      | [] => pub
    let e := takeAfter pub segs pos.2 n
    let head := match firstHead segs pos.2 0 with
      | some o => if o < n then o else 0xFFFFFFFF
      | none => 0xFFFFFFFF
    let s := s.setDset x { d with
      pos := d.pos.set c e.1
      marks := d.marks.set c (d.marks[c].filter fun k => decide (e.1.1 < k.1)) }
    s.acceptBlock
      { set := x, b := s.rdN (Reg.DRV_SET_NEXT_BLOCK x), ch := c, pad := false,
        part := decide (n < drvPayload), pos := pos, next := e.1, ringFirst := first, ringEnd := e.2,
        payLen := n, firstRec := head, ts := (s.stampAt s.time true).word }
  else s

/-- Forms a channel's full blocks while the set can take them. -/
def State.formFull (x c : Nat) : (fuel : Nat) → State → State
  | 0, s => s
  | fuel + 1, s =>
    if s.untakenLen x c < drvPayload then s
    else
      let r := s.canTake x
      if r.2 then State.formFull x c fuel (r.1.formBlock x c drvPayload) else r.1

/-- The channels whose records a set stores, in order. -/
def State.dChannels (s : State) (x : Nat) : List Nat :=
  (List.range 4).filter fun c => s.bit (Reg.DRV_SET_CFG x) (8 + c)

/-- A publication that the set has not taken wholly is dated (R446). (DEDUCED, log entry 43.) -/
def State.markPub (s : State) (x c : Nat) : State :=
  if h : c < 4 then
    let d := s.dset x
    let pub := s.rdN (Reg.ACQ_PUB c)
    let seen := ((d.marks[c].getLast?).map (·.1)).getD d.pos[c].1
    if seen < pub then s.setDset x { d with marks := d.marks.set c (d.marks[c] ++ [(pub, s.clk.up)]) } else s
  else s

/-- The set takes what is published and fills blocks (R446). -/
def State.drvTake (s : State) (x : Nat) : State :=
  if s.dState x = 2 then
    (s.dChannels x).foldl (fun s c =>
      let s := s.markPub x c
      State.formFull x c (s.untakenLen x c / drvPayload) s) s
  else s

/-- A channel has published: the sets that store it look (R446). -/
def State.drvPublished (s : State) (c : Nat) : State :=
  (List.range 4).foldl (fun s x => if s.bit (Reg.DRV_SET_CFG x) (8 + c) then s.drvTake x else s) s

/-- The header of a block (R447). -/
def State.blockHeader (s : State) (k : DrvBlock) : List (BitVec 8) :=
  [0x43, 0x46, 0x53, 0x42] ++
    leBytes 4 (k.set + k.ch * 4 + b2n (s.bit (Reg.DRV_SET_CFG k.set) 7) * 16 + b2n k.pad * 32 +
      b2n k.part * 64) ++
    leBytes 8 k.b ++ leBytes 8 k.ringFirst ++ leBytes 8 k.ringEnd ++ leBytes 4 k.payLen ++
    leBytes 4 k.firstRec ++ leBytes 8 k.ts.toNat ++ leBytes 8 (s.rdN (Reg.DRV_SET_ID k.set)) ++ leBytes 8 0

/-- Byte `i` of a block (R446, R447). -/
def State.blockByte (s : State) (k : DrvBlock) (i : Nat) : BitVec 8 :=
  if i < 64 then (s.blockHeader k).getD i 0
  else if i - 64 < k.payLen then
    let rd := fun o => s.rdByte (s.ringBase k.ch + o % s.ringSize k.ch)
    segByte rd (s.untaken k.set k.ch k.pos) k.pos.2 (i - 64)
  else 0

/-! ### Durability (R449, R450) -/

/-- The eight strips of a stripe are durable on a member. -/
def State.stripsSafe (s : State) (x m st : Nat) : Bool :=
  let safe := (s.member x m).safe
  (List.range 8).all fun i => safe.contains (st, i)

/-- The strips of a stripe have been written to a member, or the member takes none. -/
def State.stripsWritten (s : State) (x m st : Nat) : Bool :=
  let v := s.member x m
  !s.takesStripe x m st || (List.range 8).all fun i => v.safe.contains (st, i) || v.done.contains (st, i)

/-- A block is durable (R449). -/
def State.blockDurable (s : State) (k : DrvBlock) : Bool :=
  let x := k.set
  let d := s.dData x
  let st := k.b / d
  let own := s.dataMember x st (k.b % d)
  if s.dParity x then
    let par := s.parityMember x st
    decide ((st + 1) * d ≤ s.rdN (Reg.DRV_SET_NEXT_BLOCK x)) &&
      ((List.range (s.dN x)).all fun m => s.stripsWritten x m st) &&
      ([own, par].all fun m => !s.takesStripe x m st || s.stripsSafe x m st) &&
      ([own, par].any fun m => s.takesStripe x m st)
  else s.stripsSafe x own st

/-- Durable blocks leave the journal; DRV_SET_DURABLE and each ACQ_REL advance (R450). A FAILED set keeps its entries
(R453). -/
def State.settle (s : State) (x : Nat) : State :=
  let (out, kept) := s.drv.journal.partition fun k => k.set == x && s.dHealth x != 3 && s.blockDurable k
  let s := ({ s with drv := { s.drv with journal := kept } } : State).showJournal
  let mine := kept.filter fun k => k.set == x
  let low := mine.foldl (fun n k => min n k.b) (s.rdN (Reg.DRV_SET_NEXT_BLOCK x))
  let d := s.dset x
  let freed := d.freed ++ (out.filter fun k => !k.pad).map fun k => (k.b, k.ch, k.ringEnd)
  let (below, above) := freed.partition fun e => decide (e.1 < low)
  let stripe := low / s.dData x
  let prune := fun (v : DrvMember) =>
    { v with safe := v.safe.filter fun e => decide (stripe ≤ e.1) }
  let s := s.setDset x { d with freed := above, members := d.members.map prune }
  let s := s.wrN (Reg.DRV_SET_DURABLE x) low
  below.foldl (fun s e =>
    if s.rdN (Reg.ACQ_REL e.2.1) < e.2.2 then s.wrN (Reg.ACQ_REL e.2.1) e.2.2 else s) s

/-- The four words of a block's journal entry (R448): DURABLE_MASK has the members that hold durable strips of it. -/
def State.cairnEntry (s : State) (k : DrvBlock) : List (BitVec 64) :=
  let x := k.set
  let st := k.b / s.dData x
  let holders := s.dataMember x st (k.b % s.dData x) :: if s.dParity x then [s.parityMember x st] else []
  let mask := ((List.range 16).filter fun m => holders.contains m && s.stripsSafe x m st).foldl (fun n m => n + 2 ^ m) 0
  [BitVec.ofNat 64 k.b, BitVec.ofNat 64 k.ringFirst, BitVec.ofNat 64 k.ringEnd,
    BitVec.ofNat 64 (x + k.ch * 4 + b2n k.part * 16 + mask * 32 + s.stripePos x st % 2 ^ 32 * 2 ^ 32)]

/-! ### Rebuild (R454) -/

/-- DRV_REBUILD_RATE lets the next strip begin: 131,072 bytes take at least as long as at that many MB/s (R454). -/
def State.rebuildPaced (s : State) (x : Nat) (r : Rebuild) : Bool :=
  let rate := s.fld (Reg.DRV_REBUILD_RATE x) 31 0
  decide (0 < rate) && (match r.began with
    | some t => s.elapsed t (usec 131072 / rate)
    | none => true)

/-- Goes on with a rebuild: the reads of the next strip, or its end. (DEDUCED, log entry 43.) -/
def State.rebuildGo (s : State) (x : Nat) : State :=
  let d := s.dset x
  match d.rebuild with
  | none => s
  | some r =>
    if 0 < r.left then s
    else if r.upto ≤ r.next then
      let s := s.setDset x { d with rebuild := none, owes := none }
      ((s.setDegFrom x none).memberTo x r.m 2).drvHealth x
    else if s.rdN (Reg.DRV_SET_NEXT_BLOCK x) / s.dData x ≤ r.next then s
    else
      let others := (List.range (s.dN x)).filter fun m => m != r.m
      if (others.all fun m => s.mState x m == 2) && s.rebuildPaced x r then
        let s := s.setDset x { d with rebuild := some { r with left := others.length, began := some s.clk.up } }
        others.foldl (fun s m =>
          s.drvSend (s.mPort x m) (s.mFn x m) .read (.rebuildRead x r.next r.strip)
            (256 + 256 * s.stripePos x r.next + 32 * r.strip)) s
      else s

/-- A read of a rebuild has completed: the last one lets the missing strip be written. -/
def State.rebuildRead (s : State) (x st strip : Nat) : State :=
  let d := s.dset x
  match d.rebuild with
  | none => s
  | some r =>
    let s := s.setDset x { d with rebuild := some { r with left := if r.left = 1 then r.left else r.left - 1 } }
    if r.left = 1 then
      s.drvSend (s.mPort x r.m) (s.mFn x r.m) .write (.rebuildWrite x st strip)
        (256 + 256 * s.stripePos x st + 32 * strip)
    else s

/-- The missing strip has been written: the next one follows. -/
def State.rebuildWritten (s : State) (x : Nat) : State :=
  let d := s.dset x
  match d.rebuild with
  | none => s
  | some r =>
    let last := r.strip == 7
    let r := { r with left := 0, strip := if last then 0 else r.strip + 1,
                      next := if last then r.next + 1 else r.next }
    let s := s.setDset x { d with rebuild := some r }
    let s := if last then s.bump (Reg.DRV_SET_REBUILT x) 64 else s
    s.rebuildGo x

/-! ### Members leave and return (R453, R454) -/

/-- The lowest stripe not durable on a member (R453). -/
def State.lowestLost (s : State) (x m : Nat) : Nat :=
  let d := s.dData x
  let top := s.rdN (Reg.DRV_SET_NEXT_BLOCK x) / d
  let low := (s.drv.journal.filter fun k => k.set == x).foldl (fun n k => min n (k.b / d)) top
  ((List.range (top - low)).map fun i => low + i).find? (fun st => !s.stripsSafe x m st) |>.getD top

/-- A controller's function belongs to the engine (R441). -/
def State.setEngine (s : State) (port fn : Nat) (on : Bool) : State :=
  s.putBit (Reg.PCI_RP_FN_STS port fn) 18 on

/-- The set lets its members go: each becomes ABSENT, and its controller keeps no command of the set. -/
def State.releaseMembers (s : State) (x : Nat) : State :=
  (List.range 16).foldl (fun s m =>
    let st := s.mState x m
    if st = 0 then s
    else
      let s := if st = 3 ∨ st = 4 then s else
        let s := s.setEngine (s.mPort x m) (s.mFn x m) false
        match s.ctrl (s.mPort x m) (s.mFn x m) with
        | some c => s.setCtrl { c with cmds := c.cmds.filter fun k => match k.what with
            | .init _ => true
            | _ => false }
        | none => s
      s.memberTo x m 0) s

/-- A member becomes MISSING (3) or FAILED (4) with a cause; its outstanding commands are void (R443,
R453). A set in INIT lets its members go and waits for its controllers again. (DEDUCED, log entry 43.) -/
def State.memberLost (s : State) (x m st cause : Nat) : State :=
  if s.dState x = 1 then s.releaseMembers x
  else
  let s := if s.dParity x ∧ s.mState x m = 2 ∧ (s.dset x).degFrom.isNone then
      s.setDegFrom x (some (s.lowestLost x m)) else s
  let s := match s.ctrl (s.mPort x m) (s.mFn x m) with
    | some c => s.setCtrl { c with cmds := [] }
    | none => s
  let s := s.setMember x m { s.member x m with done := [] }
  let d := s.dset x
  let s := match d.rebuild with
    | some r => if r.m = m then s.setDset x { d with rebuild := none }
        else s.setDset x { d with rebuild := some { r with left := 0 } }
    | none => s
  let s := ((s.setFld (Reg.DRV_MEMBER_STS x m) 4 3 cause).memberTo x m st).drvHealth x
  s.settle x

/-- The journal's strips that lie on a member are written again (R452, R454). -/
def State.resendJournal (s : State) (x m : Nat) : State :=
  let d := s.dData x
  let ks := s.drv.journal.filter fun k => k.set == x
  let s := s.setMember x m { done := [], safe := [] }
  let s := ks.foldl (fun s k =>
    if s.dataMember x (k.b / d) (k.b % d) = m then
      s.sendStrips x m (k.b / d) (fun i => .data x k.b i) else s) s
  if s.dParity x then
    ((ks.map fun k => k.b / d).eraseDups).foldl (fun s st =>
      if s.parityMember x st = m ∧ (st + 1) * d ≤ s.rdN (Reg.DRV_SET_NEXT_BLOCK x) then
        s.sendStrips x m st (fun i => .parity x st i) else s) s
  else s

/-- A function becomes a member: its entry, its cache setting, its mark (R441, R442). -/
def State.memberTake (s : State) (x m port fn st : Nat) : State :=
  let k := Reg.DRV_MEMBER_STS x m
  let s := ((s.setFld k 6 5 port).setFld k 11 7 fn).setFld k 4 3 0
  let s := (s.setEngine port fn true).memberTo x m st
  s.drvSend port fn .setCache .cache 0

/-- A member is REBUILDING from a stripe on, up to the first one that is written to all members (R454). -/
def State.startRebuild (s : State) (x m from' : Nat) : State :=
  let d := s.dset x
  let dd := s.dData x
  let upto := (s.rdN (Reg.DRV_SET_NEXT_BLOCK x) + dd - 1) / dd
  let from' := if s.bit (Reg.DRV_SET_CFG x) 6 then max from' (upto - d.k) else from'
  let s := (s.memberTo x m 5).setDset x { d with
    firstAll := upto
    owes := some (m, from')
    rebuild := some { m := m, next := from', strip := 0, upto := upto, left := 0, began := none } }
  s.wrN (Reg.DRV_SET_REBUILT x) 0

/-- A member rejoins (R454). -/
def State.rejoin (s : State) (x m port fn : Nat) (blank : Bool) : State :=
  let d := s.dset x
  if s.dState x = 3 then s.setDset x { d with rejoin := d.rejoin ++ [(m, port, fn, blank)] }
  else if s.dParity x then
    let s := s.memberTake x m port fn 5
    let s := if blank then s.sendLabel x m else s
    ((s.startRebuild x m (if blank then 0 else d.degFrom.getD 0)).drvHealth x).rebuildGo x
  else
    let s := s.memberTake x m port fn 2
    ((s.resendJournal x m).drvHealth x).drvTake x

/-! ### Starting a set (R444-R446) -/

/-- The set is OFF: its members are no longer the engine's. -/
def State.setOff (s : State) (x : Nat) : State :=
  let s := s.releaseMembers x
  (s.setDset x { s.dset x with rebuild := none, stop := 0, offAfter := false }).setFld (Reg.DRV_SET_STS x) 2 0 0

/-- The set is refused with a cause (R444, R457). -/
def State.refuseSet (s : State) (x cause : Nat) : State :=
  (s.setOff x).setFld (Reg.DRV_SET_STS x) 9 7 cause

/-- The port and function that DRV_MEMBER names. -/
def State.named (s : State) (x m : Nat) : Nat × Nat :=
  (s.fld (Reg.DRV_MEMBER x m) 1 0, s.fld (Reg.DRV_MEMBER x m) 6 2)

/-- The controllers that a set names, in member order. -/
def State.namedCtrls (s : State) (x : Nat) : List (Option Ctrl) :=
  (List.range (s.dN x)).map fun m => s.ctrl (s.named x m).1 (s.named x m).2

/-- K of R445. -/
def State.stripesOf (s : State) (x : Nat) (cs : List Ctrl) : Nat :=
  let k := (cs.map fun c => (c.nsze - 256) / 256).foldl min (2 ^ 64)
  let lim := s.rdN (Reg.DRV_SET_STRIPES x)
  if lim = 0 then k else min k lim

/-- The set begins to run on all members but those in `lost`; it takes its channels from ACQ_REL, or from where its
journal ends (R446, R452). The stripes that a stale member lacks are rebuilt (R454). -/
def State.runSet (s : State) (x : Nat) (lost : List Nat) (stale : Option (Nat × Nat)) : State :=
  let ks := s.drv.journal.filter fun k => k.set == x
  let pos := fun (c : Nat) => match (ks.filter fun k => k.ch == c && !k.pad).getLast? with
    | some k => k.next
    | none => (s.rdN (Reg.ACQ_REL c), 0)
  let d := { s.dset x with pos := Vector.ofFn fun c : Fin 4 => pos c.val, marks := Vector.replicate 4 [],
                           stop := 0 }
  let s := (s.setDset x d).setFld (Reg.DRV_SET_STS x) 2 0 2
  let s := (List.range (s.dN x)).foldl (fun s m =>
    if lost.contains m then (s.setFld (Reg.DRV_MEMBER_STS x m) 4 3 1).memberTo x m 3 else s.memberTo x m 2) s
  let s := match lost with
    | m :: _ => if (s.dset x).degFrom.isNone then s.setDegFrom x (some (s.lowestLost x m)) else s
    | [] => s
  let s := match stale with
    | some (m, st) => s.startRebuild x m st
    | none => s
  let s := if ks.isEmpty then s else (List.range (s.dN x)).foldl (fun s m => s.resendJournal x m) s
  (((s.drvHealth x).settle x).drvTake x).rebuildGo x

/-- New labels: a fresh SET_ID and GEN 0 (R444). RUN follows when they are written. -/
def State.newSet (s : State) (x : Nat) (cs : List Ctrl) : State :=
  let r := s.draw
  let s := r.2.setDset x { (default : DrvSet) with k := s.stripesOf x cs, init := true }
  let s := (s.wr (Reg.DRV_SET_ID x) (Config.freshSetId r.1)).wrN (Reg.DRV_SET_GEN x) 0
  let s := (s.wrN (Reg.DRV_SET_NEXT_BLOCK x) 0).wrN (Reg.DRV_SET_DURABLE x) 0
  let s := { s with drv := { s.drv with journal := s.drv.journal.filter fun k => k.set != x } }
  ((s.showJournal.setDegFrom x none).setFld (Reg.DRV_SET_STS x) 4 3 0).sendLabels x

/-- The set resumes at the labels' newest generation (R444, R452). A member whose label is of an older generation has not
been written since DEG_FROM: it is rebuilt from there, and so is one whose rebuild had not ended (R455).
(DEDUCED, log entry 43.) -/
def State.oldSet (s : State) (x : Nat) (cs : List Ctrl) (ls : List DrvLabel) (lost : List Nat) : State :=
  let top := ls.foldl (fun (b : DrvLabel) l => if b.gen < l.gen then l else b) (ls.headD default)
  let ks := s.drv.journal.filter fun k => k.set == x
  let next := ks.foldl (fun n k => max n (k.b + 1)) top.next
  let deg := if top.degFrom = 2 ^ 64 - 1 then none else some top.degFrom
  let owes := (s.dset x).owes
  let stale := if s.dParity x ∧ lost.isEmpty then
      match ls.find? fun l => decide (l.gen < top.gen), deg with
      | some l, some st => some (l.index, st)
      | none, some _ => owes
      | _, none => none
    else none
  let s := s.setDset x { (default : DrvSet) with k := s.stripesOf x cs, owes := owes }
  let s := (s.wrN (Reg.DRV_SET_ID x) top.setId).wrN (Reg.DRV_SET_GEN x) top.gen
  let s := (s.wrN (Reg.DRV_SET_NEXT_BLOCK x) next).wrN (Reg.DRV_SET_DURABLE x) next
  let s := s.setDegFrom x deg
  (s.setFld (Reg.DRV_SET_STS x) 4 3 0).runSet x lost stale

/-- The members without a valid label of the set: with one SET_ID and N, each with its own INDEX (R444). -/
def labelsLost (n : Nat) (cs : List (Option Ctrl)) : List Nat :=
  let ls := cs.map fun c => c.bind (·.label)
  let id := (ls.filterMap id).head?.map (·.setId)
  (ls.zipIdx.filter fun e => match e.1 with
    | some l => !(l.index == e.2 && l.n == n && some l.setId == id)
    | none => true).map (·.2)

/-- A set in INIT looks whether its members are ready (R442, R444). With PARITY = 1, a set whose journal awaits its
replay also resumes without one member (R452). (DEDUCED, log entry 43.) -/
def State.initSet (s : State) (x : Nat) : State :=
  if s.dState x ≠ 1 then s
  else
    let cs := s.namedCtrls x
    let waits := ((List.range (s.dN x)).zip cs).any fun e => match e.2 with
      | none =>
        let sts := Reg.PCI_PORT_STS (s.named x e.1).1
        !(s.bit sts 0 && s.bit sts 9)
      | some c => c.phase != 4
    let absent := cs.any (·.isNone)
    let ready := cs.filterMap id
    let off := s.bit (Reg.DRV_SET_CFG x) 12
    let init := (s.dset x).init
    if ready.any fun c => c.phase == 4 && (!c.usable || (off && !c.vwcOff)) then s.refuseSet x 2
    else if waits then s
    else if init ∧ absent then s.refuseSet x 2
    else
      let lost := if init then [] else labelsLost (s.dN x) cs
      let spare := b2n (s.dParity x && s.drv.journal.any fun k => k.set == x)
      if spare < lost.length then s.refuseSet x 1
      else
        let s := (List.range (s.dN x)).foldl (fun s m =>
          if s.mState x m = 1 ∨ lost.contains m then s
          else s.memberTake x m (s.named x m).1 (s.named x m).2 1) s
        let here := (cs.zipIdx.filterMap fun e => if lost.contains e.2 then none else e.1)
        if init then s.newSet x ready else s.oldSet x here (here.filterMap (·.label)) lost

/-! ### Controllers become ready (R443, R452, R454) -/

/-- A ready controller that no set holds is looked at by every set: by its label, or as a replacement. -/
def State.ctrlOffer (s : State) (c : Ctrl) : State :=
  (List.range 4).foldl (fun s x =>
    let st := s.dState x
    if st = 1 then s.initSet x
    else if st = 0 ∨ (s.memberOf c.port c.fn).isSome ∨ !c.usable then s
    else
      let out := (List.range (s.dN x)).filter fun m => s.mState x m == 3 || s.mState x m == 4
      let off := s.bit (Reg.DRV_SET_CFG x) 12 && !c.vwcOff
      match c.label with
      | some l =>
        if l.setId = s.rdN (Reg.DRV_SET_ID x) ∧ out.contains l.index ∧ !off then
          s.rejoin x l.index c.port c.fn false
        else s
      | none =>
        match out.find? fun m => s.mPort x m == c.port with
        | some m =>
          if s.bit (Reg.DRV_SET_CTL x) 3 ∧ (s.dset x).k ≤ (c.nsze - 256) / 256 ∧ !off then
            s.rejoin x m c.port c.fn true
          else s
        | none => s) s

/-- A controller has been initialised: its outstanding commands are issued again (R443). -/
def State.ctrlReady (s : State) (port fn : Nat) : State :=
  match s.ctrl port fn with
  | none => s
  | some c =>
    let c := { c with phase := 4, cmds := c.cmds.map fun k => { k with sent := false } }
    let s := s.setCtrl c
    let s := c.cmds.foldl (fun s k => s.drvNext port fn k.op.queue) s
    s.ctrlOffer c

/-- Starts a controller's initialisation (R442, R443). -/
def State.ctrlStart (s : State) (port fn : Nat) : State :=
  let old := s.ctrl port fn
  let c : Ctrl := { port := port, fn := fn, phase := 2, mdtsOk := false, vwcOff := false, formatOk := false,
                    nsze := 0, depth := 2, label := none, cmds := (old.map (·.cmds)).getD [],
                    timeoutAt := old.bind (·.timeoutAt) }
  (s.setCtrl c).send (.nvmeEnable port fn true)

/-- The engine no longer has a controller: sets that begin look again. -/
def State.ctrlAway (s : State) (port fn : Nat) : State :=
  (List.range 4).foldl (fun s x => s.initSet x) (s.dropCtrl port fn)

/-- A controller is gone: its member becomes MISSING (R440, R453). -/
def State.ctrlGone (s : State) (port fn : Nat) : State :=
  let s := match s.memberOf port fn with
    | some (x, m) => s.memberLost x m 3 1
    | none => s
  s.ctrlAway port fn

/-! ### Stopping a set (R451) -/

/-- No label of the set is outstanding. -/
def State.labelsDone (s : State) (x : Nat) : Bool :=
  s.drv.ctrls.all fun c => c.cmds.all fun k => k.what != .label x

/-- The set has stopped: members that rejoined meanwhile are taken. -/
def State.setIdle (s : State) (x : Nat) : State :=
  let d := s.dset x
  let late := d.rejoin
  let s := s.setDset x { d with stop := 0, rejoin := [] }
  if d.offAfter then s.setOff x
  else late.foldl (fun s e => s.rejoin x e.1 e.2.1 e.2.2.1 e.2.2.2) (s.setFld (Reg.DRV_SET_STS x) 2 0 4)

/-- Bytes that the stop still has to take from a channel. -/
def State.restOf (s : State) (x c : Nat) : Nat := if h : c < 4 then (s.dset x).rest[c] else 0

/-- Forms what blocks the stop of a channel needs. -/
def State.formRest (x c : Nat) : (fuel : Nat) → State → State
  | 0, s => s
  | fuel + 1, s =>
    let n := s.restOf x c
    if n = 0 then s
    else
      let r := s.canTake x
      if r.2 then
        let m := min n drvPayload
        let s := r.1.formBlock x c m
        let d := s.dset x
        State.formRest x c fuel
          (s.setDset x { d with rest := Vector.ofFn fun i : Fin 4 => d.rest[i] - (if i.val = c then m else 0) })
      else r.1

/-- Fills the open stripe with PAD blocks. -/
def State.padStripe (x : Nat) : (fuel : Nat) → State → State
  | 0, s => s
  | fuel + 1, s =>
    let b := s.rdN (Reg.DRV_SET_NEXT_BLOCK x)
    if b % s.dData x = 0 then s
    else
      let r := s.canTake x
      if r.2 then
        State.padStripe x fuel (r.1.acceptBlock
          { set := x, b := b, ch := 0, pad := true, part := false, pos := (0, 0), next := (0, 0),
            ringFirst := 0, ringEnd := 0, payLen := 0, firstRec := 0xFFFFFFFF,
            ts := (s.stampAt s.time true).word })
      else r.1

/-- Every byte of the stop has been taken. -/
def State.restTaken (s : State) (x : Nat) : Bool := (s.dChannels x).all fun c => s.restOf x c == 0

/-- Forms the last blocks and fills the open stripe, as far as the journal has room (R448, R451). -/
def State.stopFill (s : State) (x : Nat) : State :=
  let s := (s.dChannels x).foldl (fun s c => State.formRest x c (s.restOf x c / drvPayload + 1) s) s
  if s.restTaken x then State.padStripe x 16 s else s

/-- A stop goes on: when every block is durable the labels are written, then the set is IDLE. A FULL set stops without
the bytes that it cannot take. (DEDUCED, log entry 43.) -/
def State.stopGo (s : State) (x : Nat) : State :=
  if s.dState x ≠ 3 then s
  else
    let s := if (s.dset x).stop = 1 then s.stopFill x else s
    let taken := s.bit (Reg.DRV_SET_STS x) 5 ||
      (s.restTaken x && s.rdN (Reg.DRV_SET_NEXT_BLOCK x) % s.dData x == 0)
    let drained := s.drv.journal.all fun k => k.set != x
    let s := if (s.dset x).stop = 1 ∧ taken ∧ drained then (s.setDset x { s.dset x with stop := 2 }).relabel x
      else s
    if (s.dset x).stop = 2 ∧ s.labelsDone x then s.setIdle x else s

/-- A set in RUN stops (R451). (DEDUCED, log entry 43.) -/
def State.drvStop (s : State) (x : Nat) : State :=
  if s.dState x = 2 then
    let rest := Vector.ofFn fun c : Fin 4 =>
      if s.bit (Reg.DRV_SET_CFG x) (8 + c) then s.untakenLen x c else 0
    let s := (s.setDset x { s.dset x with stop := 1, rest := rest }).setFld (Reg.DRV_SET_STS x) 2 0 3
    ((s.stopFill x).settle x).stopGo x
  else s

/-- What follows any progress of a set. -/
def State.drvProgress (s : State) (x : Nat) : State :=
  (((s.settle x).drvTake x).rebuildGo x).stopGo x

/-- Every set that ENABLE asks for begins again as with INIT = 0 (R455). -/
def State.drvResume (s : State) : State :=
  (List.range 4).foldl (fun s x =>
    if s.bit (Reg.DRV_SET_CTL x) 0 ∧ (s.dState x = 4 ∨ s.dState x = 0) then
      ((s.setDset x { s.dset x with init := false }).setFld (Reg.DRV_SET_STS x) 2 0 1).initSet x
    else s) s

end Sys2Proof.Machine
end

