-- ==== Sys2Proof/Machine/Records.lean ====
section
/-! DEFINITION. Elastic buffers and record writers (R16-R32, R205-R227). What a record holds is
settled as units enter the elastic buffer; what GDDR7 holds follows as the writer moves units out
of it. -/

namespace Sys2Proof.Machine

/-! ### Pairs, periods and sequencer faults -/

/-- Channel `c` is the unused one of a pair that runs in paired mode (R17). -/
def State.pairedOff (s : State) (c : Nat) : Bool :=
  c % 2 == 1 && s.bit (Reg.LNK_GRP_CTL (c - 1)) 3

/-- Channel `c` is the active one of a pair that runs in paired mode (R17). -/
def State.pairedOn (s : State) (c : Nat) : Bool :=
  c % 2 == 0 && s.bit (Reg.LNK_GRP_CTL c) 3

/-- The output period of a channel in FRAC units, as numerator and denominator (R93). -/
def State.outPeriod (s : State) (c : Nat) : Nat × Nat :=
  (s.fld (Reg.CND_OUT_PERIOD c) 36 0 * 4096, max 1 (s.fld (Reg.CND_OUT_PERIOD c) 63 37))

/-- The sequencers that source `n` of channel `c` concerns (R193): SQc, unless R177 idles it, and
SQG while its TRIG_CH names the channel. -/
def State.faultTargets (s : State) (c : Nat) : List Nat :=
  (if s.pairedOff c then [] else [c]) ++ (if s.fld (Reg.SEQ_CFG 4) 19 18 = c then [4] else [])

/-! ### The writer's settings -/

/-- TYPE of R208. -/
def RecSettings.type (x : RecSettings) : Nat := getF x.cfg 1 0

/-- S of R205. -/
def RecSettings.size (x : RecSettings) : Nat := 2 ^ getF x.ring 5 0

/-- BASE of R205. -/
def RecSettings.base (x : RecSettings) : Nat := getF x.ring 47 12 * 4096

/-- R of R212. -/
def RecSettings.noteRoom (x : RecSettings) : Nat := up64 (32 * x.noteMax)

/-- The settings of a channel's writer as they stand. -/
def State.recSettings (s : State) (c : Nat) : RecSettings :=
  { cfg := s.rd (Reg.ACQ_CFG c), ring := s.rd (Reg.ACQ_RING c), noteMax := s.fld (Reg.ACQ_NOTE_MAX c) 15 0 }

/-- The writer is enabled: ENABLE or RUNNING (R225). -/
def State.writerOn (s : State) (c : Nat) : Bool :=
  (s.bit (Reg.ACQ_CTL c) 0 || s.bit (Reg.ACQ_STS c) 0) && !s.pairedOff c

/-! ### Spans (R210-R213) -/

/-- An accepted unit has no cause against it (R208). -/
def RecUnit.accepted (u : RecUnit) : Bool := u.cause == 0

/-- The bytes that the units of a list take in the ring. -/
def unitBytes (us : List RecUnit) : Nat :=
  us.foldl (fun n u => n + if u.accepted then u.bytes.length else 0) 0

/-- A capture that neither has closed nor waits for its T_stop. -/
def Capture.isOpen (c : Capture) : Bool := c.ending == 0 && c.stopEnd == 0

/-- The trigger unit is known from `u` on (R210): units too old for ACQ_PRE_LEN leave the span. -/
def Capture.fixTrigger (c : Capture) (n : Int) : Capture :=
  let units :=
    if c.cont || c.spilled then c.units
    else c.units.filter fun x => decide (n - c.pre ≤ (x.n : Int))
  { c with ut := some n, units := units }

/-- The last unit under END 1, once the trigger unit is known (R211). -/
def Capture.postEnd (c : Capture) : Option Int :=
  if c.post = 0 then none else c.ut.map fun k => k + c.post - 1

/-- The unit passes the clamp point (R212). -/
def Capture.clampedBy (c : Capture) (u : RecUnit) : Bool :=
  u.accepted && !c.spilled &&
    decide (c.settings.size < 64 + up64 (unitBytes c.units + u.bytes.length) + c.settings.noteRoom)

/-- Closes with END `e`; unit `n` follows the last one. -/
def Capture.close (c : Capture) (e n : Nat) : Capture := { c with ending := e, stop := n }

/-- Takes a unit into the span and closes it there when END 1 says so (R211). -/
def Capture.take (c : Capture) (u : RecUnit) : Capture :=
  let c := { c with units := c.units ++ [u] }
  if c.postEnd = some (u.n : Int) then c.close 1 (u.n + 1) else c

/-- Offers the next unit to an open or stopping capture. The answer says whether the span took it;
when it did not, the capture has closed (R211, R212) and the unit belongs to what follows.
(DESIGN CHOICE, log entry 71.) -/
def Capture.offer (c : Capture) (u : RecUnit) : Capture × Bool :=
  if (c.tStop.map fun t => atOrAfter u.ts.t t) = some true then (c.close c.stopEnd u.n, false)
  else
    let c := if c.ut.isNone && atOrAfter u.ts.t c.trig.ts.t then c.fixTrigger u.n else c
    if (c.postEnd.map fun e => decide (e < (u.n : Int))) = some true then (c.close 1 u.n, false)
    else if c.clampedBy u then
      if bitAt c.settings.cfg 9 then ({ c with spilled := true, spillAt := u.n }.take u, true)
      else (c.close 4 u.n, false)
    else (c.take u, true)

/-- Offers a unit to the captures in order, the oldest first, and says whether one took it. -/
def offerAll (u : RecUnit) : List Capture → List Capture × Bool
  | [] => ([], false)
  | k :: rest =>
    let x := if k.ending = 0 then k.offer u else (k, false)
    if x.2 then (x.1 :: rest, true)
    else
      let y := offerAll u rest
      (x.1 :: y.1, y.2)

/-- The captures of a list that have closed with END 1 or END 4. -/
def closedFull (ks : List Capture) : Nat := (ks.filter fun k => k.ending == 1 || k.ending == 4).length

/-- Drops the oldest units until one is accepted, at most `pre` accepted ones remain and their bytes fit in `room`
(R209). -/
def pruneHistory (pre : Nat) (room : Int) : List RecUnit → List RecUnit
  | [] => []
  | u :: r =>
    let n := ((u :: r).filter (·.accepted)).length
    if !u.accepted ∨ pre < n ∨ room < (up64 (unitBytes (u :: r)) : Int) then pruneHistory pre room r
    else u :: r

/-! ### Annotations and headers (R214-R217) -/

/-- One annotation: span index, kind (1 TAG, 2 GAP), code, units, TS_A and TS_B. -/
structure Note where
  unit : Nat
  kind : Nat
  code : Nat
  count : Nat
  a : BitVec 64
  b : BitVec 64
  deriving DecidableEq, Repr, Inhabited

/-- The bytes of an annotation (R216). -/
def Note.bytes (n : Note) : List (BitVec 8) :=
  leBytes 8 (n.kind % 16 + n.code % 4096 * 16 + n.count % 2 ^ 48 * 65536) ++
    leBytes 8 (n.unit % 2 ^ 48) ++ leBytes 8 n.a.toNat ++ leBytes 8 n.b.toNat

/-- The GAP annotations of a span from index `i` on, with the run in progress (R217). -/
def gapNotes (after : Stamp) : (us : List RecUnit) → (i : Nat) → (run : Option Note) → List Note
  | [], _, none => []
  | [], _, some g => [{ g with b := after.word }]
  | u :: r, i, none =>
    if u.accepted then gapNotes after r (i + 1) none
    else gapNotes after r (i + 1)
      (some { unit := i, kind := 2, code := u.cause, count := 1, a := u.ts.word, b := 0 })
  | u :: r, i, some g =>
    if u.accepted then { g with b := u.ts.word } :: gapNotes after r (i + 1) none
    else gapNotes after r (i + 1) (some { g with code := g.code ||| u.cause, count := g.count + 1 })

/-- The span index of a tag: the first unit at or after it (R216). -/
def tagIndex (t : Stamp) (us : List RecUnit) : Nat :=
  us.findIdx fun u => atOrAfter u.ts.t t.t

/-- Inserts an annotation after every one of its index or a lower one. -/
def insertNote (n : Note) : List Note → List Note
  | [] => [n]
  | m :: r => if m.unit ≤ n.unit then m :: insertNote n r else n :: m :: r

/-- Merges a gap into the last GAP annotation kept (R216). -/
def mergeGap (g : Note) : List Note → List Note
  | [] => []
  | m :: r =>
    if r.any fun x => x.kind == 2 then m :: mergeGap g r
    else if m.kind = 2 then { m with b := g.b, code := m.code ||| g.code, count := m.count + g.count } :: r
    else m :: r

/-- Keeps at most `max` annotations (R216) and counts what was dropped or merged. -/
def limitNotes (max : Nat) : (todo kept : List Note) → (lost : Nat) → List Note × Nat
  | [], kept, lost => (kept, lost)
  | n :: r, kept, lost =>
    if kept.length < max then limitNotes max r (kept ++ [n]) lost
    else if n.kind = 2 then limitNotes max r (mergeGap n kept) (lost + 1)
    else limitNotes max r kept (lost + 1)

/-- The annotations of a closed capture and the number lost; `after` is the stamp of the unit after its last. -/
def Capture.notes (c : Capture) (after : Stamp) : List Note × Nat :=
  let gaps := gapNotes after c.units 0 none
  let all := c.tags.foldl (fun ns t =>
    insertNote { unit := tagIndex t.2 c.units, kind := 1, code := t.1, count := 0, a := t.2.word,
                 b := 0 } ns) gaps
  limitNotes c.settings.noteMax all [] 0

/-- The stamp of the unit after a record's last unit: its own, or before it has come that which the grid gives it
(R216, R217). (DEDUCED, log entry 64.) -/
def Writer.afterStamp (w : Writer) (k : Capture) : Stamp := (stampOf k.stop w.runs).getD default

/-- A discard interval overlaps the span (R29). -/
def Writer.spanLost (w : Writer) (k : Capture) : Bool := k.lostSeen || w.lost.any k.meets

/-- GAP of R215 and R29. -/
def Writer.gapped (w : Writer) (k : Capture) : Bool := (k.units.any fun u => !u.accepted) || w.spanLost k

/-- COND of R214, from the INFO of R158. -/
def condOfInfo (info : Nat) : Nat :=
  natBits info 12 0 + natBits info 17 15 * 2 ^ 13

/-- The units of the span that lie before the trigger unit (R210). -/
def Capture.before (c : Capture) : Nat :=
  match c.ut with
  | none => c.units.length
  | some k => (c.units.filter fun u => decide ((u.n : Int) < k)).length

/-- The part of INFO that the writer's settings give (R215). -/
def Capture.infoStatic (k : Capture) (c : Nat) : Nat :=
  let ty := k.settings.type
  ty + (if ty = 1 then getF k.settings.cfg 3 2 * 4 else 0) + c * 16 + b2n k.spilled * 64 +
    b2n k.cont * 2 ^ 14 + (if ty = 2 then getF k.settings.cfg 8 4 * 2 ^ 19 else 0)

/-- INFO of a closed capture (R215); a CONT record, which ignores ACQ_PRE_LEN, has no PRE_SHORT.
(DEDUCED, log entry 64.) -/
def Capture.infoClosed (k : Capture) (c : Nat) (gap lost : Bool) : Nat :=
  k.infoStatic c + b2n k.spilled * 2 ^ 7 + b2n gap * 2 ^ 8 + b2n (k.ending == 4) * 2 ^ 9 +
    b2n (k.units.any fun u => u.deg || u.ts.deg) * 2 ^ 10 + b2n (k.units.any (·.subst)) * 2 ^ 11 +
    b2n (k.units.any (·.stale)) * 2 ^ 12 + b2n (!k.cont && decide (k.before < k.pre)) * 2 ^ 13 +
    b2n lost * 2 ^ 15 + k.ending * 2 ^ 16

/-- FIRST_TS: the first unit's, or a free value for an empty span. (DEDUCED, log entry 29.) -/
def Capture.firstTs (k : Capture) (free : Nat) : BitVec 64 :=
  match k.units with
  | u :: _ => u.ts.word
  | [] => Config.emptySpanTs free

/-- DEAD of R219, from the unit after the previous record's last unit. -/
def Writer.deadWord (w : Writer) (k : Capture) (first : BitVec 64) : Nat :=
  if k.cont then 0
  else if k.first then 0xFFFFFFFF
  else match stampOf w.lastStop w.runs with
    | none => 0xFFFFFFFE
    | some t => min 0xFFFFFFFE ((timeDiff (Stamp.ofWord first).t t.t).toNat / 4096)

/-- The 64 bytes of a header (R214). -/
def headerBytes (k : Capture) (info units notes length dead : Nat) (first : BitVec 64) :
    List (BitVec 8) :=
  [0x43, 0x46, 0x52, 0x44] ++ leBytes 4 info ++ leBytes 8 k.seq ++
    leBytes 8 k.trig.ts.word.toNat ++ leBytes 8 k.trig.cc.toNat ++ leBytes 8 first.toNat ++
    leBytes 8 (units % 2 ^ 48 + notes % 65536 * 2 ^ 48) ++ leBytes 8 length ++
    leBytes 4 (condOfInfo k.trig.info) ++ leBytes 4 dead

/-- Zeros that pad `n` bytes to a multiple of 64. -/
def pad64 (n : Nat) : List (BitVec 8) := List.replicate (up64 n - n) 0

/-- The length of a closed record (R214). -/
def Capture.length (k : Capture) (notes : Nat) : Nat :=
  64 + up64 (unitBytes k.units) + up64 (32 * notes) + if k.spilled then 64 else 0

/-! ### The ring (R205-R207, R213) -/

/-- Writes bytes at a ring offset. -/
def State.wrRing (s : State) (base size off : Nat) : List (BitVec 8) → State
  | [] => s
  | b :: r => State.wrRing (s.wrByte (base + off % size) b) base size (off + 1) r

/-- Writes bytes at an offset of a record ring. -/
def State.ringWr (s : State) (x : RecSettings) (off : Nat) (bs : List (BitVec 8)) : State :=
  s.wrRing x.base x.size off bs

/-- The bytes of the accepted units of a list. -/
def unitsBody (us : List RecUnit) : List (BitVec 8) := (us.filter (·.accepted)).flatMap (·.bytes)

/-- Bytes of the span that have left the elastic buffer. -/
def Capture.drainedBytes (k : Capture) (drained : Nat) : Nat :=
  unitBytes (k.units.filter fun u => decide (u.n < drained))

/-- A unit is not in the elastic buffer. -/
def Writer.unitDrained (w : Writer) (u : RecUnit) : Bool :=
  !u.accepted || !(w.eb.any fun i => i.unit == some u.n)

/-- Every written unit of the span has left the elastic buffer. -/
def Writer.spanDrained (w : Writer) (k : Capture) : Bool := k.units.all w.unitDrained

/-- The ring offset of the oldest capture's record. -/
def State.headStart (s : State) (c : Nat) (k : Capture) : Nat :=
  k.opened.getD (s.rdN (Reg.ACQ_PUB c))

/-- There is released space below a ring offset (R206). -/
def State.ringHas (s : State) (c : Nat) (x : RecSettings) (off : Nat) : Bool :=
  decide (off ≤ s.rdN (Reg.ACQ_REL c) + x.size)

/-- ACQ_EB_LEVEL and ACQ_EB_PEAK (R30). (DEDUCED, log entry 30.) -/
def State.ebLevel (s : State) (c : Nat) : State :=
  let n := ((s.writer c).eb.map (·.size)).sum
  let s := s.wrN (Reg.ACQ_EB_LEVEL c) n
  if s.rdN (Reg.ACQ_EB_PEAK c) < n then s.wrN (Reg.ACQ_EB_PEAK c) n else s

/-- Sets the STS bits that follow from the writer's captures (R226); a writer that becomes disabled drops what its
buffer holds (R28). -/
def State.writerBits (s : State) (c : Nat) (waiting : Bool) : State :=
  let w := s.writer c
  let s := s.putBit (Reg.ACQ_STS c) 1 (w.caps.any (·.isOpen))
  let s := s.putBit (Reg.ACQ_STS c) 2 (w.caps.any fun k => k.ending == 0 && k.spilled)
  let s := s.putBit (Reg.ACQ_STS c) 3 waiting
  if !s.bit (Reg.ACQ_CTL c) 0 && w.caps.isEmpty then
    ((s.putBit (Reg.ACQ_STS c) 0 false).setWriter c { w with eb := [], discarding := false, hist := [] }).ebLevel c
  else s

/-- The writer keeps where a record lies in its ring until the consumer has released all of it (R206). -/
def State.noteSpan (s : State) (c start len units : Nat) (packs : Bool) : State :=
  let w := s.writer c
  let rel := s.rdN (Reg.ACQ_REL c)
  let kept := w.spans.filter fun x => x.start != start && (x.len == 0 || decide (rel < x.start + x.len))
  s.setWriter c { w with spans := kept ++ [{ start := start, len := len, units := units, packs := packs }] }

/-- The units that the opening publication of a spilled record brings (R213). -/
def Capture.opening (k : Capture) : List RecUnit := k.units.filter fun u => decide (u.n < k.spillAt)

/-- The opening header of a spilled record and the publication of every unit before the clamp point (R213). -/
def State.openSpill (s : State) (c : Nat) (k : Capture) (rest : List Capture) : State :=
  let start := s.rdN (Reg.ACQ_PUB c)
  let w := s.writer c
  let first := k.firstTs s.fresh
  let h := headerBytes k (k.infoStatic c) (2 ^ 48 - 1) 0xFFFF (2 ^ 64 - 1) (w.deadWord k first) first
  let body := unitsBody k.opening
  let s := s.ringWr k.settings start (h ++ body)
  let s := s.setWriter c { w with caps := { k with opened := some start } :: rest }
  let s := s.noteSpan c start 0 0 false
  s.wrN (Reg.ACQ_PUB c) ((start + 64 + body.length) % 2 ^ 64)

/-- Publication of an open spilled record up to the latest 1 MiB boundary (R213). -/
def State.stepSpill (s : State) (c : Nat) (k : Capture) (start : Nat) : State :=
  let b := (start + 64 + k.drainedBytes (s.writer c).drained) / 2 ^ 20 * 2 ^ 20
  if s.rdN (Reg.ACQ_PUB c) < b then s.wrN (Reg.ACQ_PUB c) (b % 2 ^ 64) else s

/-- What publication leaves in the counters and raises (R216, R225-R227). -/
def State.publishMarks (s : State) (c : Nat) (k : Capture) (gap : Bool) (lost : Nat) : State :=
  let s := s.wr (Reg.ACQ_LAST_TS c) k.trig.ts.word
  let s := s.bumpSat (Reg.ACQ_NOTES_LOST c) 32 lost
  let s := if 0 < lost then s.latchRaise (Reg.ACQ_STS c) 6 (332 + c) else s
  let s := if gap then s.latchRaise (Reg.ACQ_STS c) 4 (324 + c) else s
  let s := if k.ending = 4 then s.latchRaise (Reg.ACQ_STS c) 5 (328 + c) else s
  if s.bit (Reg.ACQ_CTL c) 1 then s.raise (320 + c) else s

/-- Publishes the oldest capture, closed and drained, whose bytes fit in released space (R207, R213,
R214). -/
def State.publish (s : State) (c : Nat) (k : Capture) (rest : List Capture) (ns : List Note)
    (lost : Nat) : State :=
  let w := s.writer c
  let start := s.headStart c k
  let n := unitBytes k.units
  let len := k.length ns.length
  let first := k.firstTs s.fresh
  let gap := w.gapped k
  let h := headerBytes k (k.infoClosed c gap (decide (0 < lost))) k.units.length ns.length len
    (w.deadWord k first) first
  let notes := ns.flatMap (·.bytes)
  let tail := pad64 n ++ notes ++ pad64 notes.length ++ if k.spilled then h else []
  let s := { s with fresh := s.fresh + 1 }
  let s := if k.spilled then s else s.ringWr k.settings start h
  let s := s.ringWr k.settings (start + 64) (unitsBody k.units ++ tail)
  let s := s.setWriter c { w with caps := rest, lastStop := k.stop }
  let written := (k.units.filter (·.accepted)).length
  let s := s.noteSpan c start len written (!k.spilled && k.settings.type == 0)
  let s := s.wrN (Reg.ACQ_PUB c) ((start + len) % 2 ^ 64)
  s.publishMarks c k gap lost

/-- A record that END 1 closed within a gap waits for the unit that bounds the gap, while one can come (R216).
(DEDUCED, log entry 64.) -/
def State.awaitsNext (s : State) (c : Nat) (k : Capture) : Bool :=
  k.ending == 1 && (s.writer c).count == k.stop && (k.units.getLast?.map (·.accepted)) == some false &&
    s.bit (Reg.ACQ_CTL c) 0 && s.bit (Reg.CND_STS c) 0 && s.fld Reg.PWR_STS 2 0 == 0

/-- The writer's duties after any change: publication in order, spilling and the status bits.
`fuel` bounds the captures served. -/
def State.recService (c : Nat) : (fuel : Nat) → State → State
  | 0, s => s.writerBits c false
  | fuel + 1, s =>
    match (s.writer c).caps with
    | [] => s.writerBits c false
    | k :: rest =>
      let w := s.writer c
      if k.spilled ∧ k.opened = none then
        let room := s.ringHas c k.settings (s.headStart c k + 64 + unitBytes k.opening)
        if (k.opening.all fun u => w.unitDrained u) ∧ room then State.recService c fuel (s.openSpill c k rest)
        else s.writerBits c !room
      else if k.ending ≠ 0 ∧ w.spanDrained k ∧ !s.awaitsNext c k then
        let ns := k.notes (w.afterStamp k)
        if s.ringHas c k.settings (s.headStart c k + k.length ns.1.length) then
          State.recService c fuel (s.publish c k rest ns.1 ns.2)
        else s.writerBits c true
      else
        let s := match k.opened with
          | some start => s.stepSpill c k start
          | none => s
        s.writerBits c (s.bit (Reg.ACQ_STS c) 3)

/-- The writer's duties, for every capture it holds, while its memory serves requests. -/
def State.serveWriter (s : State) (c : Nat) : State :=
  if s.serves (s.ringBase c) then (State.recService c (2 * (s.writer c).caps.length + 2) s).drvPublished c
  else s.writerBits c (s.bit (Reg.ACQ_STS c) 3)

/-! ### Captures open (R189, R210, R218) -/

/-- The number of the trigger unit of a time, when it does not lie after the latest unit (R210). -/
def Writer.locate (w : Writer) (t : Nat) : Option Int := (sampleAtOrAfter t w.runs none).map fun x => (x.1 : Int)

/-- A capture whose END 1 unit has passed at open closes at once on it (R211). -/
def Capture.closePassed (k : Capture) (count : Nat) : Capture :=
  match k.postEnd with
  | none => k
  | some e =>
    if e < (count : Int) then
      ({ k with units := k.units.filter fun u => decide ((u.n : Int) ≤ e) } : Capture).close 1 (e + 1).toNat
    else k

/-- History that a capture leaves when it opens: none, or what follows its last unit where that has passed
(R209, R211). -/
def Capture.leaves (k : Capture) (hist : List RecUnit) : List RecUnit :=
  if k.ending = 0 then [] else (hist.filter fun u => decide (k.stop ≤ u.n)).dropWhile fun u => !u.accepted

/-- Opens a capture behind those the writer holds (R189, R210, R218). -/
def State.openCapture (s : State) (c : Nat) (trig : Trig) (cont : Bool) : State :=
  let w := s.writer c
  let pre := s.fld (Reg.ACQ_PRE_LEN c) 47 0
  let ut := w.locate trig.ts.t
  let units := match ut with
    | none => w.hist
    | some k => w.hist.filter fun u => decide (k - pre ≤ (u.n : Int))
  let k : Capture :=
    { settings := s.recSettings c, trig := trig, seq := s.rdN (Reg.ACQ_SEQ_NEXT c), pre := pre,
      post := s.fld (Reg.ACQ_POST_LEN c) 47 0, cont := cont, ut := ut, units := if cont then w.hist else units,
      tags := [], stopEnd := 0, stopAt := 0, tStop := none, ending := 0, stop := 0, spilled := false, spillAt := 0,
      opened := none, first := w.fresh, lostSeen := false }
  let k := k.closePassed w.count
  let s := s.setWriter c { w with hist := k.leaves w.hist, caps := w.caps ++ [k], fresh := false }
  (s.bump (Reg.ACQ_SEQ_NEXT c) 64).serveWriter c

/-- A START while a capture is open is counted (R189) and held for the FRONT clock at `t`, in which that capture
may yet close (R223). (DEDUCED, log entry 64.) -/
def State.startIgnored (s : State) (c q : Nat) (trig : Trig) (t : Nat) : State :=
  let full := s.rdN (Reg.SEQ_CAP_IGNORED q) == 0xFFFFFFFF
  let h : HeldStart := { trig := trig, clock := s.frontOf t, seq := q, counted := !full }
  (s.setWriter c { s.writer c with held := some h }).bumpSat (Reg.SEQ_CAP_IGNORED q) 32

/-- A capture closes under END 1 or END 4: a START of the same FRONT clock, or of one that is still to come, opens the
next (R223). -/
def State.heldOpens (s : State) (c : Nat) : State :=
  let w := s.writer c
  match w.held with
  | some h =>
    if atOrAfter h.clock s.frontNow ∧ w.caps.all (fun k => !k.isOpen) ∧ s.bit (Reg.ACQ_CTL c) 0 then
      let s := s.setWriter c { w with held := none }
      let n := s.rdN (Reg.SEQ_CAP_IGNORED h.seq)
      let s := if h.counted then s.wrN (Reg.SEQ_CAP_IGNORED h.seq) (n - 1) else s
      s.openCapture c h.trig false
    else s
  | none => s

/-! ### Units arrive (R28, R208, R209) -/

/-- The ring offset at which the record after those the writer holds will begin. -/
def State.nextStart (s : State) (c : Nat) : Nat :=
  let w := s.writer c
  match w.caps with
  | [] => s.rdN (Reg.ACQ_PUB c)
  | k :: _ => s.headStart c k + (w.caps.map fun k => k.length (k.notes (w.afterStamp k)).1.length).sum

/-- A unit joins history (R209). -/
def State.keepUnit (s : State) (c : Nat) (u : RecUnit) : State :=
  let w := s.writer c
  let x := s.recSettings c
  let space : Int := s.rdN (Reg.ACQ_REL c) + x.size - (s.nextStart c + 64 + x.noteRoom)
  s.setWriter c { w with hist := pruneHistory (s.fld (Reg.ACQ_PRE_LEN c) 47 0) space (w.hist ++ [u]) }

/-- A unit takes its number and its place on the writer's grid. -/
def State.countUnit (s : State) (c : Nat) (u : RecUnit) (pace : Pace) : State :=
  let w := s.writer c
  s.setWriter c { w with count := u.n + 1, runs := extendRuns u.n u.ts true pace w.runs }

/-- A unit is offered to the writer's captures: the answer says whether one took it, and whether one closed under
END 1 or END 4. -/
def State.offerUnit (s : State) (c : Nat) (u : RecUnit) : State × Bool × Bool :=
  let was := (s.writer c).caps
  let x := offerAll u was
  let s := s.setWriter c { s.writer c with caps := x.1 }
  let ended (ks : List Capture) : Nat := (ks.filter fun k => k.ending == 4).length
  let s := s.bumpSat (Reg.ACQ_CLAMPED c) 32 (ended x.1 - ended was)
  let spilled (ks : List Capture) : Nat := (ks.filter (·.spilled)).length
  (if spilled was < spilled x.1 then s.raise (336 + c) else s, x.2, decide (closedFull was < closedFull x.1))

/-- A unit is formed at the elastic buffer's input: it joins a span or history. `pace` is the spacing of units from
it on. A capture that a held START opens behind a closed one takes the units after that one's last. -/
def State.unitArrives (s : State) (c : Nat) (u : RecUnit) (pace : Pace) : State :=
  let x := s.offerUnit c u
  let opens (s : State) : State := if x.2.2 then s.heldOpens c else s
  if x.2.1 then opens (x.1.countUnit c u pace)
  else
    let y := (opens x.1).offerUnit c u
    let s := y.1.countUnit c u pace
    if y.2.1 then s else s.keepUnit c u

/-- Bytes in the elastic buffer. -/
def Writer.level (w : Writer) : Nat := (w.eb.map (·.size)).sum

/-- A quarter of the elastic buffer (R28). -/
def State.ebQuarter (s : State) (c : Nat) : Nat := if s.pairedOn c then 2 ^ 21 else 2 ^ 20

/-- A discard interval begins with an item of a time (R28, R29). -/
def State.ebDiscard (s : State) (c : Nat) (ts : Stamp) (word : Bool) : State :=
  let w := s.writer c
  let s := s.setWriter c { w with discarding := true, wordLost := word, lost := (ts.t, none) :: w.lost }
  let s := s.bumpSat (Reg.ACQ_EB_DISCARDS c) 32
  let s := s.wr (Reg.ACQ_EB_GAP_FIRST c) ts.word
  let s := s.wr (Reg.ACQ_EB_GAP_RESUME c) 0
  s.postFaults 1 (s.faultTargets c)

/-- The elastic buffer's answer to an arriving conditioning output word (R28, R29): whether it enters. An interval
that a spectrum began has the first discarded sample of a word as its bound. (DEDUCED, log entry 30.) -/
def State.ebWord (s : State) (c size : Nat) (ts : Stamp) : State × Bool :=
  let w := s.writer c
  let q := s.ebQuarter c
  if w.discarding then
    if w.level ≤ 3 * q ∧ w.level + size ≤ 4 * q then
      let lost := match w.lost with
        | x :: r => (x.1, some ts.t) :: r
        | [] => []
      let s := s.setWriter c { w with discarding := false, lost := lost }
      (s.wr (Reg.ACQ_EB_GAP_RESUME c) ts.word, true)
    else if w.wordLost then (s, false)
    else
      let s := s.setWriter c { w with wordLost := true, lost := (ts.t, none) :: w.lost.drop 1 }
      (s.wr (Reg.ACQ_EB_GAP_FIRST c) ts.word, false)
  else if w.level + size ≤ 4 * q then (s, true)
  else (s.ebDiscard c ts true, false)

/-- The elastic buffer's answer to a spectrum: one that does not fit begins a discard interval, and none ends it
(R28). (DEDUCED, log entry 30.) -/
def State.ebSpectrum (s : State) (c size : Nat) (ts : Stamp) : State × Bool :=
  let w := s.writer c
  if w.discarding then (s, false)
  else if w.level + size ≤ 4 * s.ebQuarter c then (s, true)
  else (s.ebDiscard c ts false, false)

/-- Puts an item into the elastic buffer, with the number of the unit that it completes where that is accepted.
(DEDUCED, log entry 30.) -/
def State.ebPush (s : State) (c size : Nat) (unit : Option Nat) : State :=
  let w := s.writer c
  s.setWriter c { w with eb := w.eb ++ [{ size := size, unit := unit }] }

/-- The cause bits of a unit: INPUT when invalid, DISCARD when the buffer refused it, POWER in
IDLE (R216, R223). -/
def causeBits (valid entered power : Bool) : Nat :=
  b2n (!valid) + b2n (!entered) * 2 + b2n power * 4

/-- The device is in IDLE or a lower power state (R557). -/
def State.idleOrLower (s : State) : Bool := decide (1 ≤ s.fld Reg.PWR_STS 2 0)

/-- An IQ sample as 6 bytes (R208). -/
def iqBytes (i q : Int) : List (BitVec 8) := leBytes 6 (ofSigned 24 q + ofSigned 24 i * 2 ^ 24)

/-- A unit with a cause enters the elastic buffer with `size` bytes of its own, and joins a span or history. -/
def State.formUnit (s : State) (c size : Nat) (entered : Bool) (u : RecUnit) (pace : Pace) : State :=
  let s := if entered then s.ebPush c size (if u.accepted then some u.n else none) else s
  s.unitArrives c u pace

/-- One sample of a word becomes an IQ unit. -/
def State.iqUnit (c : Nat) (entered : Bool) (s : State) (x : OutSample) : State :=
  let cause := causeBits x.valid entered s.idleOrLower
  s.formUnit c 6 entered
    { n := (s.writer c).count, ts := x.ts, cause := cause, bytes := if cause = 0 then iqBytes x.i x.qv else [],
      deg := x.deg, subst := x.subst, stale := x.stale } x.pace

/-- The aggregate of a MINMAX interval with one more sample (R208). -/
def MinMax.add (m : MinMax) (cause : Nat) (x : OutSample) : MinMax :=
  { m with next := x.q + 1, iMin := min m.iMin x.i, iMax := max m.iMax x.i, qMin := min m.qMin x.qv,
           qMax := max m.qMax x.qv, cause := m.cause ||| cause, deg := m.deg || x.deg,
           subst := m.subst || x.subst, stale := m.stale || x.stale }

/-- A MINMAX interval that begins with a sample; it is whole when the sample is its first. -/
def MinMax.begin (whole : Bool) (cause : Nat) (x : OutSample) : MinMax :=
  { next := x.q + 1, whole := whole, iMin := x.i, iMax := x.i, qMin := x.qv, qMax := x.qv, cause := cause,
    deg := x.deg, subst := x.subst, stale := x.stale }

/-- The bytes of a MINMAX unit (R208). -/
def MinMax.bytes (m : MinMax) : List (BitVec 8) :=
  leBytes 4 (ofSigned 32 m.iMin) ++ leBytes 4 (ofSigned 32 m.iMax) ++
    leBytes 4 (ofSigned 32 m.qMin) ++ leBytes 4 (ofSigned 32 m.qMax)

/-- One sample of a word enters its MINMAX interval, which its last sample completes; a restart of the output
numbering drops the interval that it cuts short (R208). -/
def State.minMaxSample (c : Nat) (entered : Bool) (s : State) (x : OutSample) : State :=
  let len := 2 ^ s.fld (Reg.ACQ_CFG c) 8 4
  let w := s.writer c
  let cause := causeBits x.valid entered s.idleOrLower
  let at' := x.q % len
  let m := match w.agg with
    | some m => if m.next = x.q ∧ at' ≠ 0 then m.add cause x else MinMax.begin (at' == 0) cause x
    | none => MinMax.begin (at' == 0) cause x
  if at' + 1 = len then
    let s := s.setWriter c { w with agg := none }
    if m.whole then
      s.formUnit c 0 entered
        { n := w.count, ts := x.ts, cause := m.cause, bytes := if m.cause = 0 then m.bytes else [],
          deg := m.deg, subst := m.subst, stale := m.stale } { x.pace with num := x.pace.num * len }
    else s
  else s.setWriter c { w with agg := some m }

/-- T_stop is the first output sample to leave at or after the first edge of the STOP or SPLIT (R211); `now` is the
FRONT clock in which a word that begins at `t` leaves. -/
def Writer.fixStop (w : Writer) (now t : Nat) : Writer :=
  { w with caps := w.caps.map fun k =>
      if k.ending = 0 ∧ k.stopEnd ≠ 0 ∧ k.tStop = none ∧ atOrAfter now k.stopAt then { k with tStop := some t }
      else k }

/-- One conditioning output word enters the elastic buffer and forms units (R28, R208). -/
def State.recWord (s : State) (c : Nat) (xs : List OutSample) : State :=
  match xs with
  | [] => s
  | x :: _ =>
    if s.writerOn c ∧ !s.quiesces then
      let s := s.setWriter c ((s.writer c).fixStop s.frontNow x.ts.t)
      let size := 6 * xs.length
      let r := s.ebWord c size x.ts
      let s := r.1
      let s :=
        if s.recType c = 0 then xs.foldl (State.iqUnit c r.2) s
        else
          let s := if r.2 then s.ebPush c size none else s
          if s.recType c = 2 then xs.foldl (State.minMaxSample c r.2) s else s
      (s.ebLevel c).serveWriter c
    else s

/-- A spectrum that the writer's TYPE takes enters the elastic buffer (R28, R208); `pace` is the spacing of spectra
from it on. -/
def State.recSpectrum (s : State) (c res : Nat) (ts : Stamp) (pace : Pace) (block : List (BitVec 8))
    (invalid deg subst stale : Bool) : State :=
  if s.writerOn c ∧ !s.quiesces ∧ s.recType c = 1 ∧ s.fld (Reg.ACQ_CFG c) 3 3 = res then
    let r := s.ebSpectrum c block.length ts
    let s := r.1
    let cause := causeBits (!invalid) r.2 s.idleOrLower
    let s := s.formUnit c block.length r.2
      { n := (s.writer c).count, ts := ts, cause := cause, bytes := if cause = 0 then block else [], deg := deg,
        subst := subst, stale := stale } pace
    (s.ebLevel c).serveWriter c
  else s

/-! ### Captures close (R189, R190, R211) -/

/-- The trigger logic of a channel. -/
def State.tch (s : State) (c : Nat) : TrigChan := if h : c < 4 then s.trig[c] else default

/-- Replaces the trigger logic of a channel. -/
def State.setTch (s : State) (c : Nat) (x : TrigChan) : State :=
  if h : c < 4 then { s with trig := s.trig.set c x } else s

/-- The capture of the channel is open (R189). -/
def State.captureOpen (s : State) (c : Nat) : Bool := (s.writer c).caps.any (·.isOpen)

/-- The first sample that left in a FRONT clock whose word has already left (R211). -/
def State.leftIn (s : State) (c at' : Nat) : Option Nat :=
  (s.tch c).last.bind fun l => if l.clock = s.frontOf at' then some l.first else none

/-- The open capture closes with END `e` before the sample of time `t`, and hands back the units from there on
(R211). -/
def Writer.cutAt (w : Writer) (e t : Nat) : Writer :=
  let back := (w.caps.filter (·.isOpen)).flatMap fun k => k.units.filter fun u => atOrAfter u.ts.t t
  let n := (back.head?.map (·.n)).getD w.count
  let again := (back.filter fun u => u.accepted && decide (u.n < w.drained)).map fun u => { size := 0, unit := some u.n }
  { w with
    caps := w.caps.map fun k =>
      if k.isOpen then ({ k with units := k.units.filter fun u => later t u.ts.t } : Capture).close e n else k
    hist := if e = 3 then back else back.dropWhile fun u => !u.accepted
    eb := again ++ w.eb
    drained := min n w.drained }

/-- Stops the open capture at FRONT edge `at'` with END `e` (R211); at once when the channel sends no samples, or its
word of that clock has left. (DEDUCED, log entry 64.) -/
def State.stopCapture (s : State) (c e at' : Nat) : State :=
  let w := s.writer c
  let flows := s.bit (Reg.CND_STS c) 0
  let caps := w.caps.map fun k =>
    if k.isOpen then (if flows then { k with stopEnd := e, stopAt := at' } else k.close e w.count) else k
  let w' := match s.leftIn c at' with
    | some t => if flows then w.cutAt e t else { w with caps := caps }
    | none => { w with caps := caps }
  (s.setWriter c w').serveWriter c

/-- Closes every capture that has not closed on the latest unit: with END `e`, or that of a STOP or SPLIT which
came before (R211, R224). (DEDUCED, log entry 64.) -/
def State.closeCaptures (s : State) (c e : Nat) : State :=
  let w := s.writer c
  let caps := w.caps.map fun k =>
    if k.ending = 0 then k.close (if k.stopEnd = 0 then e else k.stopEnd) w.count else k
  (s.setWriter c { w with caps := caps }).serveWriter c

/-- Places a tag in the open capture (R190). -/
def State.placeTag (s : State) (c imm : Nat) (ts : Stamp) : State :=
  let w := s.writer c
  s.setWriter c { w with caps := w.caps.map fun k =>
    if k.isOpen then { k with tags := k.tags ++ [(imm % 4096, ts)] } else k }

/-! ### The writer moves a unit (R209, R213, R26) -/

/-- The bytes of the oldest capture's span before unit `n`. -/
def Capture.offsetOf (k : Capture) (n : Nat) : Nat :=
  unitBytes (k.units.filter fun u => decide (u.n < n))

/-- Takes the item at the buffer's front away. -/
def State.ebPop (s : State) (c n : Nat) : State :=
  let w := s.writer c
  s.setWriter c { w with eb := w.eb.drop 1, drained := n + 1 }

/-- Unit `n` leaves the buffer as history, which stands in unpublished space where its record would begin (R209).
(DESIGN CHOICE, log entry 68.) -/
def State.moveHistory (s : State) (c n : Nat) : State :=
  let us := (s.writer c).hist.filter fun u => decide (u.n ≤ n)
  ((s.ringWr (s.recSettings c) (s.nextStart c + 64) (unitsBody us)).ebPop c n).writerBits c false

/-- Moves unit `n` at the front of the buffer: into the oldest capture's record when it belongs
there and released space holds it, into history otherwise; the writer waits only while a capture is
open (R209). -/
def State.moveUnit (s : State) (c n : Nat) : State :=
  match (s.writer c).caps with
  | [] => s.moveHistory c n
  | k :: rest =>
    match k.units.find? fun u => u.n == n with
    | some u =>
      let off := s.headStart c k + 64 + k.offsetOf n
      if s.ringHas c k.settings (off + u.bytes.length) then
        ((s.ringWr k.settings off u.bytes).ebPop c n).writerBits c false
      else s.writerBits c true
    | none =>
      if rest.any fun k => k.units.any fun u => u.n == n then s.writerBits c true
      else s.moveHistory c n

/-- The writer takes the next accepted unit out of the elastic buffer, and drops what lies before it (R28, R209). -/
def State.writeUnit (s : State) (c : Nat) : State :=
  let w := s.writer c
  let eb := w.eb.dropWhile fun i => i.unit.isNone
  let s := s.setWriter c { w with eb := eb }
  let s := match eb.head?.bind (·.unit) with
    | none => s
    | some n => s.moveUnit c n
  (s.ebLevel c).serveWriter c

/-! ### Enabling and losing power (R220, R224, R225) -/

/-- The writer starts (R225): a disabled one from an empty buffer; the next record is the first after it (R219). -/
def State.startWriter (s : State) (c : Nat) : State :=
  let w := s.writer c
  let w' : Writer := if s.bit (Reg.ACQ_STS c) 0 then { w with hist := [], fresh := true, agg := none }
    else { (default : Writer) with fresh := true, spans := w.spans, caps := w.caps, lastStop := w.lastStop }
  (s.putBit (Reg.ACQ_STS c) 0 true).setWriter c w'

/-- ENABLE := 1 (R225); in AC1 or AC3 of a pair the writer does nothing (R220). -/
def State.enableWriter (s : State) (c : Nat) : State :=
  let s := s.putBit (Reg.ACQ_CTL c) 0 true
  if s.pairedOff c then s else s.startWriter c

/-- ENABLE := 0 (R211, R225): an open capture closes with END 5. -/
def State.disableWriter (s : State) (c : Nat) : State :=
  if s.bit (Reg.ACQ_CTL c) 0 then (s.putBit (Reg.ACQ_CTL c) 0 false).closeCaptures c 5
  else s

/-- Entry to DOZE or a lower state (R224): every writer closes with END 6, what its buffer holds
reaches the ring, and history is discarded. -/
def State.powerCloseWriter (s : State) (c : Nat) : State :=
  if s.writerOn c then
    let s := s.closeCaptures c 6
    let w := s.writer c
    let s := s.setWriter c { w with eb := [], drained := w.count, hist := [], agg := none, fresh := true }
    (s.ebLevel c).serveWriter c
  else s

end Sys2Proof.Machine
end

