-- ==== Sys2Proof/Machine/TrigUnits.lean ====
section
/-! DEFINITION. Condition units (R137-R151, R164-R166): their active values, arming, evaluation, and
the decisions they leave pending for issue. -/

namespace Sys2Proof.Machine

/-! ### Channel and unit state -/

/-- A unit of a channel. -/
def TrigChan.unit (x : TrigChan) (u : Nat) : TrigUnit := if h : u < 8 then x.units[u] else default

/-- Replaces a unit of a channel. -/
def TrigChan.setUnit (x : TrigChan) (u : Nat) (v : TrigUnit) : TrigChan :=
  if h : u < 8 then { x with units := x.units.set u v } else x

/-- A unit of the device. -/
def State.tunit (s : State) (c u : Nat) : TrigUnit := (s.tch c).unit u

/-- Replaces a unit of the device. -/
def State.setTunit (s : State) (c u : Nat) (v : TrigUnit) : State :=
  s.setTch c ((s.tch c).setUnit u v)

/-- TYPE of a unit (R137). -/
def State.unitType (s : State) (c u : Nat) : Nat := s.fld (Reg.TRG_UNIT_CFG c u) 3 0

/-- The values in force for a cause at time `t` among those that have passed (R164). (DEDUCED, log entry 27.) -/
def TrigUnit.verAt (x : TrigUnit) (t : Nat) : UnitVer :=
  (x.vers.find? fun v => atOrAfter t v.fromT).getD default

/-- The values in force for a cause of unit `u` at time `t` (R164): from a pending hand-over's time on, those that
it brings. (DEDUCED, log entry 27.) -/
def State.verFor (s : State) (c u t : Nat) : UnitVer :=
  let x := s.tch c
  match x.handAt with
  | some th => if atOrAfter t th then x.handVers.getD u default else (x.unit u).verAt t
  | none => (x.unit u).verAt t

/-- The bits of TRG_UNIT_PARAM and TRG_UNIT_SPAN that a unit of a type uses; the others are reserved (R170). -/
def unitBits (ty : Nat) : Nat × Nat :=
  match ty with
  | 1 => (0xFFFFFFFFFFFF, 0)
  | 2 => (0x1FFFFFFFFF, 0)
  | 3 => (0x3FFF, 0)
  | 4 => (0xFFFFFFFF, 0xFFFFFFFFFF)
  | 5 => (7, 0)
  | 6 => (7, 0)
  | 7 => (0xFFFF, 0xFFFFFFFFFFFFFFFF)
  | 9 => (0xFFF, 0)
  | _ => (0, 0)

/-- TRG_UNIT_PARAM and TRG_UNIT_SPAN of a unit without their reserved bits (R14, R170). -/
def State.unitShadow (s : State) (c u : Nat) : BitVec 64 × BitVec 64 :=
  let m := unitBits (s.unitType c u)
  (s.rd (Reg.TRG_UNIT_PARAM c u) &&& BitVec.ofNat 64 m.1, s.rd (Reg.TRG_UNIT_SPAN c u) &&& BitVec.ofNat 64 m.2)

/-- ARMED at time `t` (R142). (DEDUCED, log entry 27.) -/
def TrigUnit.armedAt (x : TrigUnit) (t : Nat) : Bool :=
  ((x.arms.find? fun a => atOrAfter t a.t).map (·.armed)).getD false

/-- The group that feeds a channel is in RUN (R60, R138): STATE 7 of LNK_GRP_STATE. -/
def State.groupRun (s : State) (c : Nat) : Bool := s.fld (Reg.LNK_GRP_STATE c) 3 0 == 7

/-- Some of SYS, FFT and FRONT runs from its bypass clock (R155). -/
def State.coreDegraded (s : State) : Bool :=
  !(s.pllLocked 0 && s.pllLocked 1 && s.pllLocked 2)

/-! ### Arming (R142) -/

/-- Inserts an arm change behind those later than it. -/
def insertArm (a : ArmRec) : List ArmRec → List ArmRec
  | [] => [a]
  | b :: r => if later b.t a.t then b :: insertArm a r else a :: b :: r

/-- One change of ARMED of unit `u` of channel `c` from time `t` on. A change by a waypoint or a
sequencer in the FRONT clock of a software write gives way to it. -/
def State.armUnit (s : State) (c u : Nat) (on : Bool) (t : Nat) (software : Bool) : State :=
  let x := s.tunit c u
  let beaten := !software && x.arms.any fun a => a.software && s.frontOf a.t == s.frontOf t
  if beaten then s
  else
    let s := s.putBit (Reg.TRG_UNIT_CTL c u) 1 on
    s.setTunit c u { x with arms := insertArm { t := t, armed := on, software := software } x.arms }

/-- Arms or disarms the units of a mask. -/
def State.armMask (s : State) (c mask : Nat) (on : Bool) (t : Nat) : State :=
  (List.range 8).foldl (fun s u => if mask.testBit u then s.armUnit c u on t false else s) s

/-- The entries of the units are reset (R554): ARMED is 0 from here on. -/
def State.armsReset (s : State) : State :=
  (List.range 32).foldl (fun s n =>
    s.setTunit (n / 8) (n % 8) { s.tunit (n / 8) (n % 8) with arms := [] }) s

/-! ### Hand-overs (R164, R165) -/

/-- The shadows of a unit as values that hold from time `t` on. -/
def State.shadowVer (s : State) (c u t gen : Nat) : UnitVer :=
  let x := s.unitShadow c u
  { fromT := t, gen := gen, param := x.1, span := x.2, holdoff := s.fld (Reg.TRG_UNIT_HOLDOFF c u) 31 0 }

/-- The shadows of a unit as a commit taken now hands them over: a shadow write in the commit's own FRONT clock
belongs to the next hand-over (R96, R164). -/
def State.committedVer (s : State) (c u t gen : Nat) : UnitVer :=
  match (s.tunit c u).prior with
  | some (clock, v) =>
    if clock = s.frontNow then { v with fromT := t, gen := gen } else s.shadowVer c u t gen
  | none => s.shadowVer c u t gen

/-- A shadow of a unit is about to be written: what the shadows hold at the start of the FRONT clock is kept
(R96). -/
def State.notePrior (s : State) (c u : Nat) (v : UnitVer) : State :=
  let x := s.tunit c u
  if (x.prior.map (·.1)) = some s.frontNow then s
  else s.setTunit c u { x with prior := some (s.frontNow, v) }

/-- The hand-over of a channel at T_h (R164): its units take the values that its commit found. -/
def State.trgHandover (s : State) (c th : Nat) : State :=
  let x := s.tch c
  let s := s.wrN (Reg.TRG_SHADOW_GEN c) ((s.rdN (Reg.TRG_SHADOW_GEN c) + 1) % 2 ^ 32)
  let s := (List.range 8).foldl (fun s u =>
    let y := s.tunit c u
    s.setTunit c u { y with vers := x.handVers.getD u default :: y.vers }) s
  let s := s.setTch c { s.tch c with handAt := none, handVers := [] }
  let s := s.putBit (Reg.TRG_CH_STS c) 0 false
  s.raiseTs (260 + c) (s.stampAt th) 0

/-- A pending hand-over whose time has come takes effect. -/
def State.trgPass (s : State) (c : Nat) : State :=
  match (s.tch c).handAt with
  | some th => if atOrAfter s.time th then s.trgHandover c th else s
  | none => s

/-- Records the cause time of an evaluation. -/
def State.trgEvaluated (s : State) (c t : Nat) : State :=
  let x := s.tch c
  let e := match x.evaluated with
    | some e => if later e t then e else t
    | none => t
  s.setTch c { x with evaluated := some e }

/-- A request for a hand-over at `th` (R164, R96): COMMIT and COMMIT_TIMED leave one hand-over, at
the earlier time, but a new COMMIT_TIMED replaces a pending timed one. It brings the shadows as they stood when
this FRONT clock began, since the clock of the commit is the hand-over clock; it is late when a cause at or after its time has been
evaluated before. -/
def State.trgRequest (s : State) (c th : Nat) (timed : Bool) : State :=
  let s := s.trgPass c
  let x := s.tch c
  let h := match x.handAt with
    | some p => if timed && later p s.time then th else if later p th then th else p
    | none => th
  let gen := (s.rdN (Reg.TRG_SHADOW_GEN c) + 1) % 2 ^ 32
  let late := (x.evaluated.map fun t => atOrAfter t h).getD false
  let vers := (List.range 8).map fun u => s.committedVer c u h gen
  let s := (s.setTch c { x with handAt := some h, handVers := vers }).putBit (Reg.TRG_CH_STS c) 0 true
  let s := if late then s.latchRaise (Reg.TRG_CH_STS c) 5 (264 + c) else s
  s.trgPass c

/-! ### Decisions -/

/-- Condition units are not clocked: in IDLE and lower states, and from the end of step 1 of a descent to IDLE on
(R166, R558). -/
def State.trgGated (s : State) : Bool :=
  s.idleOrLower || (s.moving && s.pwr.down && s.pwr.into == 1 && decide (2 ≤ s.pwr.step))

/-- A time falls inside the latest stretch in which the units were not clocked (R166). -/
def TrigChan.rested (x : TrigChan) (t : Nat) : Bool :=
  (x.restAt.any fun a => atOrAfter t a) && x.restTo.all fun b => later b t

/-- A unit evaluates a cause at `t`: enabled, clocked now and then, not idle in a pair, and at or after its
enable (R165, R166, R17). -/
def State.unitLive (s : State) (c u t : Nat) : Bool :=
  s.bit (Reg.TRG_UNIT_CTL c u) 0 && !s.pairedOff c && !s.trgGated && !s.quiesces &&
    atOrAfter t (s.tunit c u).evalFrom && !(s.tch c).rested t

/-- The latency of a decision in FRAC units (R153). -/
def State.latency (s : State) (c : Nat) (fd : Option Nat) : Nat :=
  match fd with
  | none => s.rdN (Reg.TRG_LAT_TD c) * 4096
  | some 0 => s.rdN (Reg.TRG_LAT_FD_A c) * 4096
  | some _ => s.rdN (Reg.TRG_LAT_FD_B c) * 4096

/-- Leaves a decision pending for issue (R153, R155). -/
def State.pendDecision (s : State) (c : Nat) (d : Decision) : State :=
  let due := if s.coreDegraded then d.ready else timeAdd d.ts.t (s.latency c d.fd)
  let x := s.tch c
  s.setTch c { x with pend := x.pend ++ [{ d with due := due, degraded := s.coreDegraded }] }

/-- STATE of a unit (R140): 0 UNKNOWN, 1 CLEAR, 2 MET. -/
def State.unitState (s : State) (c u : Nat) : Nat := s.fld (Reg.TRG_UNIT_STS c u) 1 0

/-- Sets STATE of a unit. -/
def State.setUnitState (s : State) (c u x : Nat) : State := s.setFld (Reg.TRG_UNIT_STS c u) 1 0 x

/-- EDGE selects the evaluation that takes STATE from `was` to `now` (R139, R140). -/
def edgeSelects (edge was now : Nat) : Bool :=
  match edge with
  | 0 => was == 1 && now == 2
  | 1 => was == 2 && now == 1
  | 2 => (was == 1 && now == 2) || (was == 2 && now == 1)
  | _ => was != 0 && now == 2

/-- An evaluation of a unit of types 1 to 5 found STATE `now` on the cause `d`. -/
def State.unitVerdict (s : State) (c u now : Nat) (d : Decision) : State :=
  let was := s.unitState c u
  let s := (s.setUnitState c u now).trgEvaluated c d.cause.t
  if edgeSelects (s.fld (Reg.TRG_UNIT_CFG c u) 6 5) was now then
    let v := s.verFor c u d.cause.t
    s.pendDecision c { d with holdoff := v.holdoff, gen := v.gen }
  else s

/-! ### Time-domain units (R143, R144) -/

/-- A decision whose cause is an output sample. -/
def State.sampleDecision (s : State) (u : Nat) (x : OutSample) (value : Nat) : Decision :=
  { unit := u, cause := x.ts, ts := x.ts, sample := some x.q, fd := none, outside := false,
    value := value, ready := s.time, due := 0, degraded := false, invalid := false, holdoff := 0, gen := 0 }

/-- The power of a sample in units of 2 ^ -46 (R143). -/
def OutSample.power (x : OutSample) : Nat := (x.i * x.i + x.qv * x.qv).toNat

/-- A high, low or middling test of a power against LEVEL and HYST (R143): (high, low). -/
def levelTest (p : BitVec 64) (num den : Nat) : Bool × Bool :=
  let lvl := getF p 15 0
  let hys := getF p 31 16
  (levelReached num den lvl, !levelReached num den (lvl - hys))

/-- LEVEL meets a valid sample (R143). -/
def State.levelSample (s : State) (c u : Nat) (x : OutSample) : State :=
  let v := s.tunit c u
  let p := (s.verFor c u x.ts.t).param
  let r := levelTest p x.power (2 ^ 46)
  let run := getF p 47 32 + 1
  let hi := if r.1 then v.runHigh + 1 else 0
  let lo := if r.2 then v.runLow + 1 else 0
  let now := if run ≤ hi then 2 else if run ≤ lo then 1 else s.unitState c u
  let s := s.setTunit c u { v with runHigh := hi, runLow := lo }
  s.unitVerdict c u now (s.sampleDecision u x (lm16 x.power (2 ^ 46)))

/-- The most powers that an average takes (R144). -/
def windowMax : Nat := 2 ^ 16

/-- POWER_EDGE meets a valid sample (R144): the mean is over the latest samples, whenever AVG_LOG2 came into
force. -/
def State.powerSample (s : State) (c u : Nat) (x : OutSample) : State :=
  let v := s.tunit c u
  let p := (s.verFor c u x.ts.t).param
  let n := 2 ^ getF p 36 32
  let win := (x.power :: v.window).take windowMax
  let s := s.setTunit c u { v with window := win }
  if win.length < n then s
  else
    let sum := (win.take n).sum
    let r := levelTest p sum (n * 2 ^ 46)
    let now := if r.1 then 2 else if r.2 then 1 else s.unitState c u
    s.unitVerdict c u now (s.sampleDecision u x (lm16 sum (n * 2 ^ 46)))

/-- A unit meets an invalid sample, spectrum or vector (R139). (DEDUCED, log entry 27.) -/
def State.unitUnknown (s : State) (c u : Nat) : State :=
  let v := s.tunit c u
  (s.setUnitState c u 0).setTunit c u { v with runHigh := 0, runLow := 0, window := [] }

/-- One unit meets one output sample. -/
def State.tdUnit (c : Nat) (x : OutSample) (s : State) (u : Nat) : State :=
  let ty := s.unitType c u
  if (ty = 1 ∨ ty = 2) ∧ s.unitLive c u x.ts.t then
    if !x.valid then s.unitUnknown c u
    else if ty = 1 then s.levelSample c u x
    else s.powerSample c u x
  else s

/-! ### Outside causes (R138) -/

/-- The unattached form of an outside cause (R138). -/
def WaitCause.unattached (k : WaitCause) : Decision :=
  { unit := k.unit, cause := k.cause, ts := k.cause, sample := none, fd := none, outside := true,
    value := k.value, ready := k.ready, due := 0, degraded := false, invalid := true, holdoff := k.holdoff,
    gen := k.gen }

/-- The attached form of an outside cause: its cause sample is number `q` and carries `ts` (R138). -/
def WaitCause.attached (k : WaitCause) (ts : Stamp) (q : Nat) : Decision :=
  { k.unattached with ts := ts, sample := some q, invalid := false }

/-- An outside cause of a live unit meets the channel's output samples (R138). -/
def State.outsideCause (s : State) (c u : Nat) (cause : Stamp) (value ready : Nat) : State :=
  if s.unitLive c u cause.t then
    let s := (s.trgPass c).trgEvaluated c cause.t
    let v := s.verFor c u cause.t
    let k : WaitCause := ⟨u, cause, value, ready, v.holdoff, v.gen⟩
    let x := s.tch c
    if !s.bit (Reg.CND_CTL c) 0 || !s.groupRun c then s.pendDecision c k.unattached
    else
      match sampleAtOrAfter cause.t x.runs none with
      | some (q, ts, valid) => s.pendDecision c (if valid then k.attached ts q else k.unattached)
      | none => s.setTch c { x with waiting := x.waiting ++ [k] }
  else s

/-- Waiting causes take their sample, or are unattached when it is invalid (R138). -/
def State.attachWaiting (s : State) (c : Nat) (x : OutSample) : State :=
  let w := (s.tch c).waiting
  let due := w.filter fun k => atOrAfter x.ts.t k.cause.t
  let s := s.setTch c { s.tch c with waiting := w.filter fun k => !atOrAfter x.ts.t k.cause.t }
  due.foldl (fun s k => s.pendDecision c (if x.valid then k.attached x.ts x.q else k.unattached)) s

/-- The channel stops sending samples: waiting causes are unattached (R138). -/
def State.flushWaiting (s : State) (c : Nat) : State :=
  let w := (s.tch c).waiting
  let s := s.setTch c { s.tch c with waiting := [] }
  w.foldl (fun s k => s.pendDecision c k.unattached) s

/-- The samples that follow have a new frame origin (R104, R189). -/
def State.newOrigin (s : State) (c : Nat) : State :=
  let x := s.tch c
  s.setTch c { x with last := x.last.map fun l => { l with old := true } }

/-- Enters a sample in the channel's runs; samples of one word leave in one FRONT clock (R76). -/
def TrigChan.noteSample (x : TrigChan) (clock : Nat) (old : Bool) (o : OutSample) : TrigChan :=
  let first := match x.last with
    | some l => if l.clock = clock then l.first else o.ts.t
    | none => o.ts.t
  { x with runs := extendRuns o.q o.ts o.valid o.pace x.runs, last := some ⟨o.ts, clock, first, old⟩ }

/-- The units of a channel meet one output sample (R137-R144). -/
def State.trigSample (c : Nat) (old : Bool) (s : State) (x : OutSample) : State :=
  let s := s.trgPass c
  let s := s.setTch c ((s.tch c).noteSample s.frontNow old x)
  let s := (List.range 8).foldl (State.tdUnit c x) s
  s.attachWaiting c x

/-- Runs a cause on every unit of a type, on every channel. -/
def State.forUnits (s : State) (ty : Nat) (f : Nat → Nat → State → State) : State :=
  (List.range 4).foldl (fun s c => (List.range 8).foldl (fun s u =>
    if s.unitType c u = ty then f c u s else s) s) s

/-- An EXT_TRIG edge, captured now, reaches every EXTERNAL unit that selects it (R145). -/
def State.externalEdge (s : State) (p : Nat) (rising : Bool) : State :=
  let dly := s.rdI (Reg.TRG_EXT_DLY p) 24
  let cause := s.stampAt (timeAdd s.time (-dly))
  s.forUnits 6 fun c u s =>
    let v := s.verFor c u cause.t
    let e := s.fld (Reg.TRG_UNIT_CFG c u) 6 5
    if getF v.param 2 0 = p ∧ (e = 2 ∨ e = b2n (!rising)) then
      s.outsideCause c u cause (p + b2n rising * 8) s.time
    else s

/-- TIMU VALUE of a delay (R159); that of a B stamp before its A stamp is free. -/
def delayValue (d : Int) : Nat :=
  if d < 0 then (Config.negativeDelay d.natAbs).toNat else min d.toNat 0xFFFFFFFE

/-- A B stamp meets the pending A stamp of a TIMU unit (R146). The settings are those in force for the B stamp,
also where a hand-over lies between the two. (DESIGN CHOICE, log entry 63.) -/
def State.timuB (s : State) (c u : Nat) (b : Stamp) : State :=
  let x := s.tunit c u
  match x.aPend with
  | none => s
  | some a =>
    let v := s.verFor c u b.t
    let d := timeDiff b.t a.t
    let lo : Int := getF v.span 31 0
    let hi := getF v.span 63 32
    let s := s.setTunit c u { x with aPend := none }
    match getF v.param 15 14 with
    | 1 => if lo ≤ d ∧ d ≤ hi then s.outsideCause c u b (delayValue d) s.time else s
    | 2 =>
      if (hi : Int) < d then s.outsideCause c u { a with t := timeAdd a.t hi } 0xFFFFFFFF s.time
      else if d < lo then s.outsideCause c u b (delayValue d) s.time
      else s
    | _ => s

/-- The window of a pending A stamp of a PATTERN 2 unit by which no B stamp came ends with a decision (R146). -/
def State.timuEnd (s : State) (c u : Nat) (a : Stamp) (hi : Nat) : State :=
  (s.setTunit c u { s.tunit c u with aPend := none }).outsideCause c u { a with t := timeAdd a.t hi } 0xFFFFFFFF s.time

/-- An A stamp at `t` finds a pending one whose PATTERN 2 window has ended (R146). -/
def State.timuPast (s : State) (c u t : Nat) : State :=
  match (s.tunit c u).aPend with
  | some a =>
    let v := s.verFor c u a.t
    let hi := getF v.span 63 32
    if getF v.param 15 14 = 2 ∧ later t (timeAdd a.t hi) then s.timuEnd c u a hi else s
  | none => s

/-- An A stamp of a TIMU unit (R146). -/
def State.timuA (s : State) (c u : Nat) (a : Stamp) : State :=
  let v := s.verFor c u a.t
  let s := s.timuPast c u a.t
  let s := s.setTunit c u { s.tunit c u with aPend := some a }
  if getF v.param 15 14 = 0 then s.outsideCause c u a (getF v.param 5 0) s.time else s

/-- A stamp of input `ti` reaches the TIMU units that select it (R146). -/
def State.timuStamp (s : State) (ti : Nat) (falling : Bool) (t : Stamp) : State :=
  s.forUnits 7 fun c u s =>
    if s.unitLive c u t.t then
      let p := (s.verFor c u t.t).param
      let s := if getF p 12 7 = ti ∧ bitAt p 13 = falling then s.timuB c u t else s
      if getF p 5 0 = ti ∧ bitAt p 6 = falling then s.timuA c u t else s
    else s

/-- The time within which a stamp reaches the units, in FRAC units (R146). -/
def stampReach : Nat := 307200

/-- The window of a PATTERN 2 unit has ended without a B stamp (R146): a B stamp inside it would have arrived by
30 ns after its end. WMAX is that in force for the A stamp. (DESIGN CHOICE, log entry 63.) -/
def State.timuExpiry (s : State) (c u : Nat) : State :=
  match (s.tunit c u).aPend with
  | none => s
  | some a =>
    let v := s.verFor c u a.t
    let hi := getF v.span 63 32
    if s.unitType c u = 7 ∧ getF v.param 15 14 = 2 ∧
        atOrAfter s.time (timeAdd (timeAdd a.t hi) stampReach) then s.timuEnd c u a hi
    else s

/-- A waypoint fires the WAYPOINT units of a channel that a mask names (R147). -/
def State.waypointUnits (s : State) (c mask index : Nat) (t : Stamp) : State :=
  (List.range 8).foldl (fun s u =>
    if mask.testBit u ∧ s.unitType c u = 8 then s.outsideCause c u t (index % 4096) s.time else s) s

/-- A FIRE reaches every FABRIC unit with its TRIG_ID (R161, R159). -/
def State.fireUnits (s : State) (id seq : Nat) (prov : Bool) (fireAt : Stamp) : State :=
  s.forUnits 9 fun c u s =>
    if getF (s.verFor c u fireAt.t).param 11 0 = id then
      s.outsideCause c u fireAt (id % 4096 + seq % 65536 * 4096 + b2n prov * 2 ^ 28)
        (timeAdd s.time 16384)
    else s

/-! ### The provisional store (R162) -/

/-- Sets HELD to the number of entries. -/
def State.provHeld (s : State) : State := s.setFld Reg.TRG_PROV_STS 6 0 s.prov.length

/-- A discard sets DISCARD_SEEN (R162). -/
def State.provDiscard (s : State) (counter : Nat) : State :=
  ((s.bump counter 64).provHeld).latchRaise Reg.TRG_PROV_STS 7 268

/-- An entry's window has ended before now (R162): its last tick is the 160th after acceptance. -/
def State.provOver (s : State) (p : Provisional) : Bool :=
  decide ((160 * 4096 : Int) < timeDiff s.time p.at')

/-- The held entry that a CONFIRM or CANCEL names, inside its window. (DEDUCED, log entry 27.) -/
def State.provMatch (s : State) (id seq : Nat) : Option Provisional :=
  s.prov.find? fun p => p.id == id && p.seq == seq && !s.provOver p

/-- The store without an entry. -/
def State.provDrop (s : State) (id seq : Nat) : State :=
  { s with prov := s.prov.filter fun p => !(p.id == id && p.seq == seq) }

/-- Windows that have ended discard their entries (R162). -/
def State.provExpire (s : State) : State :=
  let gone := s.prov.filter s.provOver
  let s := { s with prov := s.prov.filter fun p => !s.provOver p }
  gone.foldl (fun s _ => s.provDiscard Reg.TRG_PROV_EXPIRED) s

/-- A PROVISIONAL is accepted into the store or refused (R162); entries whose windows have ended are no longer
held. -/
def State.provArrive (s : State) (id seq : Nat) (fireAt : Stamp) : State :=
  let s := s.provExpire
  if 64 ≤ s.prov.length ∨ s.prov.any (fun p => p.id == id && p.seq == seq) then
    s.provDiscard Reg.TRG_PROV_REFUSED
  else
    ({ s with prov := s.prov ++ [⟨id, seq, fireAt, s.time⟩] } : State).provHeld

/-- A CONFIRM meets the store (R162). -/
def State.provConfirm (s : State) (id seq : Nat) : State :=
  match s.provMatch id seq with
  | some p =>
    (((s.provDrop id seq).bump Reg.TRG_PROV_CONFIRMED 64).provHeld).fireUnits id seq true p.fireAt
  | none => s.bump Reg.TRG_PROV_UNMATCHED 64

/-- A CANCEL meets the store (R162). -/
def State.provCancel (s : State) (id seq : Nat) : State :=
  match s.provMatch id seq with
  | some _ => (s.provDrop id seq).provDiscard Reg.TRG_PROV_CANCELLED
  | none => s.bump Reg.TRG_PROV_UNMATCHED 64

end Sys2Proof.Machine
end

