-- ==== Sys2Proof/Machine/FabLink.lean ====
section
/-! DEFINITION. Fabric ports as senders, end-to-end streams and Ridgeline messages (R459-R465,
R473, R479-R482). -/

namespace Sys2Proof.Machine

/-! ### Ports -/

/-- A fabric port beyond its entries. -/
def State.fport (s : State) (p : Nat) : FabPort := if h : p < 8 then s.fab.ports[p] else default

/-- Replaces a fabric port. -/
def State.setFport (s : State) (p : Nat) (x : FabPort) : State :=
  if h : p < 8 then { s with fab := { s.fab with ports := s.fab.ports.set p x } } else s

/-- STATE of a port (R461): 0 DOWN, 1 TRAIN, 2 ALIGN, 3 INIT, 4 UP, 5 TEST, 6 FAULT. -/
def State.fpState (s : State) (p : Nat) : Nat := s.fld (Reg.FAB_PORT_STS p) 2 0

/-- The port is in UP. -/
def State.fpUp (s : State) (p : Nat) : Bool := s.fpState p == 4

/-- The port belongs to the broadcast tree (R471). -/
def State.treePort (s : State) (p : Nat) : Bool :=
  s.fpUp p && (s.bit (Reg.FAB_PORT_STS p) 6 || s.bit (Reg.FAB_PORT_STS p) 7)

/-- The device's own address, 0x3FF before it has one (R465). -/
def State.ownAddr (s : State) : Nat :=
  if s.bit Reg.FAB_ADDR 10 then s.fld Reg.FAB_ADDR 9 0 else 0x3FF

/-- TYPE of a packet (R466). -/
def FabBody.type : FabBody → Nat
  | .hello .. => 0 | .time .. => 1 | .addrReq .. => 2 | .addrGrant .. => 3 | .lsr .. => 4
  | .e2eAck .. => 5 | .rap .. => 6 | .ridge .. => 7 | .reserved t => t

/-- The virtual channel of a packet (R466). -/
def FabBody.vc : FabBody → Nat
  | .ridge .. => 1 | .rap .. => 2 | .e2eAck v => v | _ => 0

/-- LEN of a packet (R465): 40 for a Ridgeline message (R479), a RAP message's own length. -/
def FabBody.len : FabBody → Nat
  | .ridge .. => 40
  | .rap bs => bs.length
  | b => Config.fabricLen b.type % 2049

/-- Credits a packet needs (R464). -/
def FabPkt.creditsNeeded (k : FabPkt) : Nat := (16 + k.body.len + 63) / 64

/-- Frames a packet takes, at 120 bytes of packet data each (R459). -/
def FabPkt.frames (k : FabPkt) : Nat := (16 + k.body.len + 119) / 120

/-- Credits held for a virtual channel. -/
def FabPort.credits (x : FabPort) : Nat → Nat
  | 0 => x.credits0 | 1 => x.credits1 | _ => x.credits2

/-- Adds returned credits. -/
def FabPort.addCredits (x : FabPort) (vc n : Nat) : FabPort :=
  match vc with
  | 0 => { x with credits0 := x.credits0 + n }
  | 1 => { x with credits1 := x.credits1 + n }
  | _ => { x with credits2 := x.credits2 + n }

/-- Takes credits for a packet. -/
def FabPort.spend (x : FabPort) (vc n : Nat) : FabPort :=
  match vc with
  | 0 => { x with credits0 := x.credits0 - n }
  | 1 => { x with credits1 := x.credits1 - n }
  | _ => { x with credits2 := x.credits2 - n }

/-- Frames in the replay buffer. -/
def FabPort.replayFrames (x : FabPort) : Nat := (x.replay.map (·.frames)).sum

/-- The port can start a packet (R462, R464). -/
def FabPort.canSend (x : FabPort) (k : FabPkt) : Bool :=
  decide (k.creditsNeeded ≤ x.credits k.body.vc) && decide (x.replayFrames + k.frames ≤ 2048)

/-- The first link accepts a Ridgeline message of the device's own: SENT_AT is that time, and AGE counts from there, also
in the copies that wait at other ports (R479). -/
def State.stampSent (s : State) (k : FabPkt) : State × FabPkt :=
  match k.body with
  | .ridge kind id seq rlSeq srcFab fireAt _ _ =>
    if k.src = s.ownAddr ∧ s.fab.unsent.contains rlSeq then
      let k := { k with body := .ridge kind id seq rlSeq srcFab fireAt s.time 0 }
      let own := fun (w : FabPkt × Nat) =>
        match w.1.body with
        | .ridge _ _ _ n _ _ _ _ => if w.1.src = k.src ∧ n = rlSeq then (k, s.clk.up) else w
        | _ => w
      let ports : Vector FabPort 8 := s.fab.ports.map fun (x : FabPort) => { x with wait := x.wait.map own }
      ({ s with fab := { s.fab with unsent := s.fab.unsent.filter fun n => n != rlSeq, ports := ports } }, k)
    else (s, k)
  | _ => (s, k)

/-- The stamps of a TIME packet as it leaves: it carries the previous one's send stamp and the latest arrival stamp, and
its own send stamp is noted (R475). -/
def State.timeStamped (s : State) (p : Nat) (k : FabPkt) : State × FabPkt :=
  let x := s.fport p
  match k.body with
  | .time .. =>
    (s.setFport p { x with timeSent := s.time, timePrev := x.timeSent },
      { k with body := .time x.timeSent (x.timeArrived.getD 0) })
  | _ => (s, k)

/-- A packet is accepted by the link: its frames enter the replay buffer and leave (R462).
(DEDUCED, log entry 44.) -/
def State.linkAccept (s : State) (p : Nat) (k : FabPkt) : State :=
  let (s, k) := s.stampSent k
  let (s, k) := s.timeStamped p k
  let x := s.fport p
  let x' := { x.spend k.body.vc k.creditsNeeded with
              txSeq := (x.txSeq + k.frames) % 4096,
              replay := x.replay ++ [{ seq := x.txSeq, frames := k.frames, tries := 1, pkt := k,
                                       at' := s.clk.up }] }
  (s.setFport p x').send (.fabric p x.txSeq k)

/-- A Ridgeline message that has waited: its AGE grows by the wait (R480). -/
def FabPkt.aged (k : FabPkt) (d : Nat) : FabPkt :=
  match k.body with
  | .ridge kind id seq rlSeq srcFab fireAt sentAt age =>
    { k with body := .ridge kind id seq rlSeq srcFab fireAt sentAt ((age + d) % 2 ^ 32) }
  | _ => k

/-- The order in which virtual channels are served (R464). -/
def vcRank : Nat → Nat
  | 1 => 0 | 0 => 1 | _ => 2

/-- The waiting packet that goes next: the first sendable one of the best-ranked channel. -/
def FabPort.nextWait (x : FabPort) : Option (FabPkt × Nat) :=
  ((List.range 3).filterMap fun r =>
    (x.wait.find? fun k => vcRank k.1.body.vc == r).bind fun k =>
      if x.canSend k.1 then some k else none).head?

/-- Sends waiting packets while credits and space last. -/
def State.drainWait (p : Nat) : (fuel : Nat) → State → State
  | 0, s => s
  | fuel + 1, s =>
    let x := s.fport p
    match x.nextWait with
    | none => s
    | some k =>
      let s := s.setFport p { x with wait := x.wait.erase k, fullSince := none }
      State.drainWait p fuel (s.linkAccept p (k.1.aged (s.clk.up - k.2)))

/-- Hands a packet to a port in UP; without credits or replay space it waits, and only behind packets of its own virtual
channel (R464, R26). (DEDUCED, log entry 44.) -/
def State.portSend (s : State) (p : Nat) (k : FabPkt) : State :=
  let x := s.fport p
  if (x.wait.all fun w => w.1.body.vc != k.body.vc) && x.canSend k then s.linkAccept p k
  else
    let full := if x.replayFrames + k.frames ≤ 2048 then x.fullSince else some (x.fullSince.getD s.clk.up)
    s.setFport p { x with wait := x.wait ++ [(k, s.clk.up)], fullSince := full }

/-- A packet of the device's own with no acknowledgement. -/
def State.ownPkt (s : State) (dst : Nat) (bcast : Bool) (b : FabBody) : FabPkt :=
  { dst := dst, src := s.ownAddr, ttl := 31, seq := 0, bcast := bcast, ack := none, body := b }

/-! ### Routes (R472) -/

/-- The routing entry of an address. -/
def State.routeEntry (s : State) (a : Nat) : Nat :=
  s.fld (Reg.FAB_ROUTE (a / 4)) (16 * (a % 4) + 15) (16 * (a % 4))

/-- The port toward an address: the primary while it is UP, else ALT. -/
def State.routePort (s : State) (a : Nat) : Option Nat :=
  let e := s.routeEntry a
  if e.testBit 3 && s.fpUp (e % 8) then some (e % 8)
  else if e.testBit 7 && s.fpUp (e / 16 % 8) then some (e / 16 % 8)
  else none

/-- The parent port (R467). -/
def State.parentPort (s : State) : Option Nat :=
  (List.range 8).find? fun p => s.fpUp p && s.bit (Reg.FAB_PORT_STS p) 6

/-- Sends a packet on every child port. -/
def State.childSend (s : State) (k : FabPkt) : State :=
  (List.range 8).foldl (fun s p =>
    if s.fpUp p && s.bit (Reg.FAB_PORT_STS p) 7 then s.portSend p k else s) s

/-- Some port leads toward a packet's destination (R474). -/
def State.hasRoute (s : State) (k : FabPkt) : Bool :=
  match k.body with
  | .addrReq .. => s.parentPort.isSome
  | .addrGrant .. => (s.routePort k.dst).isSome ||
      (List.range 8).any fun p => s.fpUp p && s.bit (Reg.FAB_PORT_STS p) 7
  | _ => (s.routePort k.dst).isSome

/-- Sends a packet toward its destination, or drops it for want of a route: end-to-end packets stay
in their store and are sent again (R473). A request for an address goes to the parent; a grant to a
device that no route reaches yet goes down the tree. -/
def State.routeSend (s : State) (k : FabPkt) : State :=
  match k.body with
  | .addrReq .. =>
    match s.parentPort with
    | some p => s.portSend p k
    | none => s
  | .addrGrant .. =>
    match s.routePort k.dst with
    | some p => s.portSend p k
    | none => s.childSend k
  | _ =>
    match s.routePort k.dst with
    | some p => s.portSend p k
    | none => s

/-! ### End-to-end streams (R473) -/

/-- The member-table address of a UID, while it is present (R485). -/
def State.addrOfUid (s : State) (uid : Nat) : Option Nat :=
  (s.fab.lsrs.find? fun l => l.uid == uid).map (·.addr)

/-- The UID of a member address. -/
def State.uidOfAddr (s : State) (a : Nat) : Option Nat :=
  (s.fab.lsrs.find? fun l => l.addr == a).map (·.uid)

/-- The acknowledgement owed to a source and the streams with it settled. -/
def takeAck (uid vc : Nat) (rx : List E2eRx) : Option Nat × List E2eRx :=
  match rx.find? fun r => r.uid == uid && r.vc == vc && r.owes with
  | some r => (some ((r.next + 65535) % 65536),
      rx.map fun x => if x.uid = uid ∧ x.vc = vc then { x with owes := false } else x)
  | none => (none, rx)

/-- The stream to a destination, begun when there is none. -/
def findTx (uid vc : Nat) (tx : List E2eTx) : E2eTx :=
  (tx.find? fun x => x.uid == uid && x.vc == vc).getD
    { uid := uid, vc := vc, next := 0, unacked := [], waiting := [] }

/-- Replaces the stream to a destination. -/
def putTx (x : E2eTx) (tx : List E2eTx) : List E2eTx :=
  x :: tx.filter fun y => !(y.uid == x.uid && y.vc == x.vc)

/-- The retransmit store of 2 MiB has room for a packet (R473). -/
def State.storeTakes (s : State) (k : FabPkt) : Bool :=
  let held := (s.fab.tx.map fun t => (t.unacked.map fun e => 16 + e.pkt.body.len).sum).sum
  decide (held + 16 + k.body.len ≤ 2 ^ 21)

/-- A packet enters the store; its destination may already be without a route (R473, R474). -/
def State.storeItem (s : State) (k : FabPkt) : E2eItem :=
  { pkt := k, sentAt := s.clk.up, lostAt := if s.hasRoute k then none else some s.clk.up }

/-- Numbers and sends one end-to-end packet; beyond 64 unacknowledged ones, and while the store is full, it waits (R473).
(DEDUCED, log entry 46.) -/
def State.e2eSend (s : State) (uid dst : Nat) (b : FabBody) : State :=
  let x := findTx uid b.vc s.fab.tx
  let k := s.ownPkt dst false b
  if 64 ≤ x.unacked.length ∨ !x.waiting.isEmpty ∨ !s.storeTakes k then
    { s with fab := { s.fab with tx := putTx { x with waiting := x.waiting ++ [k] } s.fab.tx } }
  else
    let a := takeAck uid b.vc s.fab.rx
    let k := { k with seq := x.next, ack := a.1 }
    let x := { x with next := (x.next + 1) % 65536,
                      unacked := x.unacked ++ [s.storeItem k] }
    let s := { s with fab := { s.fab with tx := putTx x s.fab.tx, rx := a.2 } }
    s.routeSend k

/-! ### Ridgeline (R479-R482) -/

/-- FIRE_AT as the receiver takes it (R481), for a message that arrives at `arrival` with `age`. -/
def State.ridgeFireAt (s : State) (fireAt : BitVec 64) (sentAt age arrival : Nat) (srcFab : Bool) :
    Stamp :=
  let f := Stamp.ofWord fireAt
  if srcFab && s.bit Reg.FAB_STS 6 then f
  else
    { t := timeAdd arrival (timeDiff f.t sentAt - age), fab := false,
      deg := !s.pllLocked 0 || f.deg, est := true }

/-- A Ridgeline trigger message takes effect on the device (R161-R163). -/
def State.ridgeTake (s : State) (kind id seq : Nat) (at' : Stamp) : State :=
  match kind with
  | 0 => s.fireUnits id seq false at'
  | 1 => s.provArrive id seq at'
  | 2 => s.provConfirm id seq
  | _ => s.provCancel id seq

/-- Replaces the record of a sender. -/
def putRl (x : RlRx) (rl : List RlRx) : List RlRx := x :: rl.filter fun y => !(y.src == x.src)

/-- Sends a Ridgeline message on every tree port, and receives it (R161, R479, R480); a copy of it that comes back has been
taken already (R482). -/
def State.ridgeSend (s : State) (kind id seq : Nat) (fireAt : BitVec 64) : State :=
  let s := s.bump Reg.FAB_RL_SEQ 16
  let srcFab := s.bit Reg.FAB_STS 6
  let f := if 2 ≤ kind then 0 else fireAt
  let n := s.rdN Reg.FAB_RL_SEQ
  let b : FabBody := .ridge kind id seq n srcFab f s.time 0
  let own : RlRx := { src := s.ownAddr, next := (n + 1) % 65536, held := [], skipped := [] }
  let unsent := if (List.range 8).any s.treePort then n :: s.fab.unsent.filter fun m => m != n else s.fab.unsent
  let s : State := { s with fab := { s.fab with rl := putRl own s.fab.rl, unsent := unsent } }
  let s := (List.range 8).foldl (fun s p =>
    if s.treePort p then s.portSend p (s.ownPkt 0x3FF true b) else s) s
  s.ridgeTake kind id seq (s.ridgeFireAt f s.time 0 s.time srcFab)

/-- Applies a Ridgeline packet whose turn has come. -/
def State.ridgeApply (s : State) (k : FabPkt) (fire : Stamp) : State :=
  match k.body with
  | .ridge kind id seq .. => s.ridgeTake kind id seq fire
  | _ => s

/-- Signed distance of two sequence numbers modulo 2^16, with a window of 2^15 (R482). -/
def seqDiff16 (a b : Nat) : Int :=
  let d := (a + 65536 - b % 65536) % 65536
  if d < 32768 then (d : Int) else (d : Int) - 65536

/-- Takes the held messages that now stand next in order (R482). -/
def State.ridgeDrain (src : Nat) : (fuel : Nat) → State → State
  | 0, s => s
  | fuel + 1, s =>
    match s.fab.rl.find? fun x => x.src == src with
    | none => s
    | some x =>
      match x.held.find? fun h => h.seq == x.next with
      | none => s
      | some h =>
        let x' := { x with next := (x.next + 1) % 65536, held := x.held.filter fun y => y.seq != x.next }
        let s := { s with fab := { s.fab with rl := putRl x' s.fab.rl } }
        State.ridgeDrain src fuel (s.ridgeApply h.pkt h.fire)

/-- A Ridgeline message of a sender meets the order it is taken in (R482): taken, discarded as one
already taken or as one skipped, or held behind a gap. -/
def State.ridgeOrder (s : State) (k : FabPkt) (rlSeq : Nat) (fire : Stamp) : State :=
  let put := fun (x : RlRx) => ({ s with fab := { s.fab with rl := putRl x s.fab.rl } } : State)
  match s.fab.rl.find? fun x => x.src == k.src with
  | none =>
    (put { src := k.src, next := (rlSeq + 1) % 65536, held := [], skipped := [] }).ridgeApply k fire
  | some x =>
    let d := seqDiff16 rlSeq x.next
    if d < 0 ∧ x.skipped.contains rlSeq then put { x with skipped := x.skipped.filter fun n => n != rlSeq }
    else if d < 0 ∨ x.held.any (fun h => h.seq == rlSeq) then s.bumpSat Reg.FAB_RL_DUP 32
    else if d = 0 then
      State.ridgeDrain k.src (x.held.length + 1)
        ((put { x with next := (x.next + 1) % 65536 }).ridgeApply k fire)
    else put { x with held := x.held ++ [{ seq := rlSeq, pkt := k, fire := fire, since := s.clk.up }] }

/-- The time that a frame takes on the lanes at each RATE (R459), in FRAC units. -/
def frameTime : Nat → Nat
  | 0 => 52429
  | 1 => 104858
  | _ => 209715

/-- A Ridgeline packet arrives on a port: its AGE grows by the link's delay, it is forwarded on the other tree ports 6 ns
after its frame has been checked, and its message is taken in order (R480, R482). `arrival` is its arrival stamp, which
the frame's first symbol has. (DEDUCED, log entry 46.) -/
def State.ridgeArrive (s : State) (p arrival : Nat) (k : FabPkt) : State :=
  match k.body with
  | .ridge kind id seq rlSeq srcFab fireAt sentAt age =>
    let age := (age + s.fld (Reg.FAB_PORT_DELAY p) 31 0) % 2 ^ 32
    let stay := frameTime (s.fld (Reg.FAB_PORT_STS p) 4 3) + nsec 6
    let onward : FabBody := .ridge kind id seq rlSeq srcFab fireAt sentAt ((age + stay) % 2 ^ 32)
    let fire := s.ridgeFireAt fireAt sentAt age arrival srcFab
    let s :=
      if k.ttl ≤ 1 then s.bumpSat Reg.FAB_TTL_DROP 32
      else (List.range 8).foldl (fun s q =>
        if q ≠ p ∧ s.treePort q then s.portSend q { k with ttl := k.ttl - 1, body := onward } else s) s
    s.ridgeOrder k rlSeq fire
  | _ => s

/-- FAB_RL_HOLD passes before a gap of a sender fills (R482): the numbers up to the first held message are skipped. -/
def State.ridgeSkip (s : State) (src : Nat) : State :=
  match s.fab.rl.find? fun x => x.src == src with
  | none => s
  | some x =>
    match x.held with
    | [] => s
    | oldest :: _ =>
      if !s.elapsed oldest.since (usec (s.fld Reg.FAB_RL_HOLD 31 0)) then s
      else
        let first := x.held.foldl (fun m h => if seqDiff16 h.seq x.next < seqDiff16 m x.next then h.seq else m)
          oldest.seq
        let gap := (List.range (seqDiff16 first x.next).toNat).map fun i => (x.next + i) % 65536
        let old := x.skipped.filter fun n => decide (seqDiff16 n first < 0)
        let s := { s with fab := { s.fab with
          rl := putRl { x with next := first, skipped := old ++ gap } s.fab.rl } }
        let s := (s.bumpSat Reg.FAB_RL_GAPS 32).latchRaise Reg.FAB_STS 9 975
        State.ridgeDrain src (x.held.length + 1) s

end Sys2Proof.Machine
end

