-- ==== Sys2Proof/Machine/Regions.lean ====
section
/-! DEFINITION. The regions of memory that the device's own writers hold, and what software may write
(R205, R303, R406, R418, R435, R442, R550). -/

namespace Sys2Proof.Machine

/-- The length of a snapshot of a window. -/
def snapLength (w : BitVec 64) : Nat :=
  64 + (getF w 23 12 + 1 - getF w 11 0) * up64 (4 * (getF w 43 34 + 1 - getF w 33 24))

/-- A rectangle: X0, Y0, W and H (R272). -/
def rect (v : BitVec 64) : Nat × Nat × Nat × Nat :=
  (getF v 11 0, getF v 23 12, getF v 35 24 + 1, getF v 47 36 + 1)

/-- Two regions share a byte. -/
def meets (a n b m : Nat) : Bool := decide (a < b + m ∧ b < a + n)

/-- The regions that running writers hold, each with its owner's number: record rings 0 to 3,
spectrogram rings 4 to 7, trace buffers 8 to 15, snapshots 16 to 19, queue rings from 32, TIMU rings from
2^20, and the drive engine's area 2^31. (DEDUCED, log entry 29.) -/
def State.regionsHeld (s : State) : List (Nat × Nat × Nat) :=
  ((List.range 4).filterMap fun c =>
    if s.writerOn c then some (c, s.ringBase c, s.ringSize c) else none) ++
  ((List.range 4).filterMap fun c =>
    if s.bit (Reg.SPG_STS c) 0 then
      some (4 + c, s.fld (Reg.SPG_RING c) 47 6 * 64,
        2 ^ s.fld (Reg.SPG_RING c) 4 0 * (64 * (s.fld (Reg.SPG_RING c) 63 48 + 1)))
    else none) ++
  ((s.scn.act.traces.zipIdx).filterMap fun t =>
    if s.bit Reg.SCN_STS 0 && bitAt t.1.1 0 then some (8 + t.2, getF t.1.2 47 6 * 64, 8192) else none) ++
  (s.canopy.toList.zipIdx.filterMap fun x =>
    x.1.snap.map fun k => (16 + x.2, k.addr, snapLength k.win)) ++
  (s.queues.flatMap fun q =>
    [(32 + q.1, q.2.base, q.2.depth * q.2.entrySize), (32 + q.1, q.2.tagBase, q.2.depth * 8)]) ++
  ((List.range 128).filterMap fun n =>
    let i := n / 2
    let e := n % 2
    if s.bit (Reg.TIM_CTL i) 0 && s.bit (Reg.TIM_CTL i) (1 + e) && !s.bit (Reg.TIM_S_CFG i e) 3 then
      some (2 ^ 20 + n, s.fld (Reg.TIM_S_RING i e) 47 12 * 4096, 2 ^ s.fld (Reg.TIM_S_RING i e) 5 0)
    else none) ++
  (if (List.range 4).any fun x => s.dState x != 0 then
    [(2 ^ 31, s.fld Reg.DRV_AREA 47 20 * 2 ^ 20, 2 ^ s.fld Reg.DRV_AREA 5 0)] else [])

/-- The bytes from an overlay surface's first to its last pixel (R262). -/
def ovlLength (a : ScnActive) : Nat :=
  let r := rect a.ovlRect
  let turned := getF a.ovlCfg 2 1 % 2 = 1
  let w := if turned then r.2.2.2 else r.2.2.1
  let h := if turned then r.2.2.1 else r.2.2.2
  (h - 1) * 64 * getF a.ovlCfg 19 4 + 4 * w

/-- The overlay surface that the running scan-out fetches (R262), numbered 2^32. -/
def State.surfaceShown (s : State) : List (Nat × Nat × Nat) :=
  let a := s.scn.act
  if s.bit Reg.SCN_STS 0 && bitAt a.ovlCfg 0 then [(2 ^ 32, getF a.ovlAddr 47 6 * 64, ovlLength a)] else []

/-- A region overlaps one that another writer uses, or the overlay surface shown (R262). (DEDUCED, log entry 29.) -/
def State.overlaps (s : State) (owner a n : Nat) : Bool :=
  (s.regionsHeld ++ s.surfaceShown).any fun r => r.1 != owner && meets a n r.2.1 r.2.2

/-- An enabled queue's context lies in the range (R406). -/
def State.contextHit (s : State) (a n : Nat) : Bool :=
  s.queues.any fun q => meets a n (s.fld Reg.QDM_CTX_BASE 47 12 * 4096 + 64 * q.1) 64

/-- A region of GDDR7 is installed memory, and no other writer of the device uses a part of it: no owner's region,
no queue context and not the reset journal. (DEDUCED, log entry 29.) -/
def State.regionFree (s : State) (owner a n : Nat) : Bool :=
  decide (a + n ≤ s.memEnd) && !s.overlaps owner a n && !s.contextHit a n && !s.inJournalArea a n

/-- The rule that gives no outcome to a record writer with these settings, 0 where none does: its ring (R205), its
TYPE (R226) and MM_LOG2 of a MINMAX writer (R609). -/
def State.writerUndefined (s : State) (c : Nat) : Nat :=
  let n := s.fld (Reg.ACQ_RING c) 5 0
  let m := s.fld (Reg.ACQ_CFG c) 8 4
  if n < 16 ∨ 36 < n ∨ !s.regionFree c (s.ringBase c) (s.ringSize c) then 205
  else if s.recType c = 3 then 226
  else if s.recType c = 2 ∧ (m < 1 ∨ 24 < m) then 609
  else 0

/-- A writer of the device uses a part of the range. Rings of queues that software fills are software's own.
(DEDUCED, log entry 29.) -/
def State.deviceWrites (s : State) (a n : Nat) : Bool :=
  s.regionsHeld.any fun r => meets a n r.2.1 r.2.2 &&
    !(decide (32 ≤ r.1 ∧ r.1 < 2 ^ 20) && (s.queue (r.1 - 32)).any (·.prodSw))

/-- Software may write the range, and no writer of the device uses it. -/
def State.softWriteOk (s : State) (a n : Nat) : Bool :=
  s.memWriteOk a n && !s.contextHit a n && !s.deviceWrites a n

/-- The rule that calls a write of another range undefined. -/
def State.softWriteRule (s : State) (a n : Nat) : Nat :=
  if s.inPattern a n then 381
  else if s.inJournalArea a n then 550
  else if s.contextHit a n then 406
  else if s.deviceWrites a n then 435
  else 305

end Sys2Proof.Machine
end

