-- ==== Sys2Proof/Machine/Chain.lean ====
section
/-! DEFINITION. Rates, delays and latencies of a channel (R50, R72, R73, R93, R152), and the parts of
its state. -/

namespace Sys2Proof.Machine

/-- A lane group. -/
def State.lane (s : State) (g : Nat) : LaneGroup := if h : g < 4 then s.lanes[g] else default

/-- Replaces a lane group. -/
def State.setLane (s : State) (g : Nat) (x : LaneGroup) : State :=
  if h : g < 4 then { s with lanes := s.lanes.set g x } else s

/-- A conditioning chain. -/
def State.cndCh (s : State) (c : Nat) : CndChan := if h : c < 4 then s.cnd[c] else default

/-- Replaces a conditioning chain. -/
def State.setCnd (s : State) (c : Nat) (x : CndChan) : State :=
  if h : c < 4 then { s with cnd := s.cnd.set c x } else s

/-- A resolution. -/
def State.res (s : State) (r : Nat) : SpxRes := if h : r < 8 then s.spx[r] else default

/-- Replaces a resolution. -/
def State.setRes (s : State) (r : Nat) (x : SpxRes) : State :=
  if h : r < 8 then { s with spx := s.spx.set r x } else s

/-- NUM / DEN of a lane group in SYS ticks (R50). -/
def State.samplePeriod (s : State) (g : Nat) : Nat × Nat :=
  (s.rdN (Reg.LNK_TS_NUM g), max 1 (s.rdN (Reg.LNK_TS_DEN g)))

/-- M = 2: complex input (R47). -/
def State.complexIn (s : State) (c : Nat) : Bool := s.bit (Reg.LNK_JESD_PARAMS c) 4

/-- MODE of a lane group (R62): 0 and 1 JESD, 2 raw. -/
def State.laneMode (s : State) (g : Nat) : Nat := s.fld (Reg.LNK_GRP_CTL g) 2 1

/-- The chain-input period p in SYS ticks (R72). -/
def State.chainPeriod (s : State) (c : Nat) : Nat × Nat :=
  let p := s.samplePeriod c
  if s.pairedOn c then (p.1, 2 * p.2) else p

/-- D of R100. -/
def State.chainD (s : State) (c : Nat) : Nat := s.fld (Reg.CND_CHAIN c) 3 0

/-- Real input: M = 1 or paired mode (R73). -/
def State.realIn (s : State) (c : Nat) : Bool := !s.complexIn c || s.pairedOn c

/-- D_eff of R73. -/
def State.dEff (s : State) (c : Nat) : Nat :=
  if s.realIn c then max (s.chainD c) 1 else s.chainD c

/-- The output period p * 2 ^ D_eff in SYS ticks (R93). -/
def State.exactPeriod (s : State) (c : Nat) : Nat × Nat :=
  let p := s.chainPeriod c
  (p.1 * 2 ^ s.dEff c, p.2)

/-- Lowest terms. -/
def lowest (p : Nat × Nat) : Nat × Nat :=
  let g := max 1 (Nat.gcd p.1 p.2)
  (p.1 / g, p.2 / g)

/-- Half-band stage `st`, from 1 on, is minimum-phase (R100). -/
def State.minPhase (s : State) (c st : Nat) : Bool := s.bit (Reg.CND_CHAIN c) (st + 3)

/-- Interleave correction is present (R72, R98). -/
def State.ilOn (s : State) (c : Nat) : Bool := s.pairedOn c && s.bit (Reg.CND_CTL c) 10

/-- EQ_REF of R100. -/
def State.eqRef (s : State) (c : Nat) : Nat := s.fld (Reg.CND_CHAIN c) 21 16

/-- D_ref of R93 in eighths of a chain-input sample: 11.375 is 91 eighths. -/
def State.refDelay8 (s : State) (c : Nat) : Nat :=
  let il := if s.ilOn c then 32 * 8 else 0
  let hb := ((List.range (s.dEff c)).map fun k =>
    (if s.minPhase c (k + 1) then 91 else 33 * 8) * 2 ^ k).sum
  let eq := if s.bit (Reg.CND_CTL c) 5 then s.eqRef c * 2 ^ s.dEff c * 8 else 0
  il + hb + eq

/-- CND_GROUP_DELAY of R93. -/
def State.groupDelay (s : State) (c : Nat) : Int :=
  let p := s.chainPeriod c
  rneDiv ((s.refDelay8 c * p.1 * 512 : Nat) : Int) p.2

/-- Writes what the device computes from a channel's settings (R73, R93, R101). -/
def State.chainFigures (s : State) (c : Nat) : State :=
  let p := lowest (s.exactPeriod c)
  let s := s.wrN (Reg.CND_OUT_PERIOD c) (p.1 % 2 ^ 37 + p.2 % 2 ^ 27 * 2 ^ 37)
  let s := s.wrI (Reg.CND_GROUP_DELAY c) 48 (s.groupDelay c)
  let s := s.setFld (Reg.CND_STS c) 5 2 (s.dEff c)
  s.putBit (Reg.CND_STS c) 7 (s.ilOn c)

/-- f_out exceeds the limit of R73, whose outcome is undefined. -/
def State.rateUndefined (s : State) (c : Nat) : Bool :=
  let p := s.exactPeriod c
  if s.pairedOn c then decide (8 * p.1 < p.2) else decide (4 * p.1 < p.2)

/-! ### Latencies (R120, R152) -/

/-- N of a resolution. -/
def State.spxN (s : State) (r : Nat) : Nat := 2 ^ s.fld (Reg.SPX_RES_CFG r) 4 0

/-- Quotient rounded up. -/
def ceilDiv (n d : Nat) : Nat := (n + d - 1) / d

/-- L_spx of R120 for N and an output period. -/
def latencyOf (n : Nat) (p : Nat × Nat) : Nat :=
  128 + n / 2 + ceilDiv (5 * n * p.2 - 16 * n * p.1) (20 * p.2)

/-- L_spx of a resolution. (DESIGN CHOICE, log entry 7.) -/
def State.spxLatency (s : State) (r : Nat) : Nat := latencyOf (s.spxN r) (s.exactPeriod (r / 2))

/-- The smallest base + step * k, for k from 0, that is at least n (R152). -/
def stepUp (base step : Nat) (n : Int) : Nat :=
  if n ≤ (base : Int) then base else base + step * ceilDiv (n - base).toNat step

/-- Λ of a channel in FRAC units. -/
def State.intakeLag (s : State) (c : Nat) : Int :=
  let g := s.lane c
  if g.released then timeDiff g.relAt g.t0 else 0

/-- Writes the latencies of R152, in SYS ticks, and the marks of those that are extended (R172): 40 ns is 100
ticks, 480 ns 1,200, 4 ns 10.
(DESIGN CHOICE, log entry 7.) -/
def State.latencies (s : State) (c : Nat) : State :=
  let lag := s.intakeLag c
  let td : Nat := if (s.lane c).released then stepUp 409600 40960 (lag + 54 * 4096) else 409600
  let fd (r : Nat) : Nat :=
    stepUp 4915200 40960 (lag + 110 * 4096 + (s.spxLatency r : Int) * 5120)
  let s' := s.wrN (Reg.TRG_LAT_TD c) (td / 4096)
  let s' := s'.wrI (Reg.TRG_INTAKE_LAG c) 48 lag
  let s' := s'.wrN (Reg.TRG_LAT_FD_A c) (fd (2 * c) / 4096)
  let s' := s'.wrN (Reg.TRG_LAT_FD_B c) (fd (2 * c + 1) / 4096)
  let s' := s'.putBit (Reg.TRG_CH_STS c) 1 (decide (409600 < td))
  let s' := s'.putBit (Reg.TRG_CH_STS c) 2 (decide (4915200 < fd (2 * c)))
  s'.putBit (Reg.TRG_CH_STS c) 3 (decide (4915200 < fd (2 * c + 1)))

/-! ### Marks on a channel's data (R89, R570) -/

/-- STALE and SUBST of the interleave calibration of a channel while the correction is in use. -/
def State.ilMark (s : State) (c b : Nat) : Bool :=
  s.bit (Reg.CND_STS c) 7 && s.bit (Reg.CAL_ID_STS (64 + c / 2)) b

/-- Output samples of the channel are calibration-substituted. -/
def State.substNow (s : State) (c : Nat) : Bool := s.bit (Reg.CND_STS c) 6 || s.ilMark c 3

/-- Output samples of the channel carry CAL_STALE. -/
def State.staleNow (s : State) (c : Nat) : Bool := s.ilMark c 2

end Sys2Proof.Machine
end

