-- ==== Sys2Proof/Machine/Acquire.lean ====
section
/-! DEFINITION. The record writers' commands and the EXT_TRIG pins (R145, R205-R211, R225). -/

namespace Sys2Proof.Machine

/-- ENABLE := 1 on a record writer (R225). A ring outside memory or in another writer's, the reserved TYPE, and a
MM_LOG2 out of range leave the outcome undefined (R205, R226, R609); in AC1 or AC3 of a pair nothing starts
(R220). -/
def execAcqEnable (c : Fin 4) (s : State) : Host.Outcome State Fault Refusal :=
  if s.parityStopped (Reg.ACQ_CTL c) then .next s
  else if s.bit (Reg.ACQ_CTL c) 0 then .next s
  else if !s.pairedOff c && s.writerUndefined c ≠ 0 then .fault (.undefinedOutcome (s.writerUndefined c))
  else .next (s.enableWriter c)

/-- ENABLE := 0 on a record writer (R211). -/
def execAcqDisable (c : Fin 4) (s : State) : Host.Outcome State Fault Refusal :=
  let s := s.parityFree (Reg.ACQ_CTL c)
  .next (s.disableWriter c)

/-- The writer takes the next accepted unit out of the elastic buffer (R209); while GDDR7 does not
serve it waits (R26). -/
def execRecordUnitWrite (c : Fin 4) (s : State) : Host.Outcome State Fault Refusal :=
  .next (if s.serves (s.ringBase c) then s.writeUnit c else s)

/-- A write of ACQ_REL (R206): backward, beyond ACQ_PUB or off a multiple of 64 leaves the outcome
undefined; with REL_BY = 1 it is ignored; in AC1 or AC3 of a pair it has no effect (R220). -/
def execAcqRelWrite (who : Fin 8) (c : Fin 4) (v : BitVec 64) (s : State) :
    Host.Outcome State Fault Refusal :=
  let n := v.toNat
  if s.pairedOff c then .next s
  else if s.bit (Reg.ACQ_CFG c) 10 then .next (s.flag who (Reg.ACQ_REL c) .ignored)
  else if n < s.rdN (Reg.ACQ_REL c) ∨ s.rdN (Reg.ACQ_PUB c) < n ∨ n % 64 ≠ 0 then
    .fault (.undefinedOutcome 206)
  else .next ((s.wr (Reg.ACQ_REL c) v).serveWriter c)

/-- An edge on EXT_TRIGp (R145, R560), captured at the SYS tick at which it is brought: device time stands at a
tick. In DOZE and lower states SYS does not sample the pin.
(DEDUCED, log entry 53.) -/
def execExtTrigEdge (p : Fin 8) (rising : Bool) (s : State) : Host.Outcome State Fault Refusal :=
  if s.wakeUndefined 3 1 3 then .fault (.undefinedOutcome 609)
  else .next (
    let s := s.putBit Reg.TRG_EXT_LEVEL p rising
    let s := if s.power ≤ 1 then s.externalEdge p rising else s
    s.wakeBy 3 4 1 3)

end Sys2Proof.Machine
end

