-- ==== Sys2Proof/Machine/Window.lean ====
section
/-! DEFINITION. The access windows of the protection set-up (R543-R548). -/

namespace Sys2Proof.Machine

/-- PROT_LOCK (R544). -/
def State.locked (s : State) : Bool := s.bit Reg.PROT_LOCK 0

/-- The entries of the protection set-up (R398, R456, R544, R555). -/
def inProtection (k : Nat) : Bool :=
  k / 65536 == 0x12 || (findRow k).any fun r =>
    ["SRM_PART", "PCI_PORT_CFG", "PCI_EP_ID", "PCI_EP_BAR2", "MGT_JRN_AREA"].contains r.name

/-- A valid PROT_DICT range that holds an index. -/
def State.dictRange (s : State) (w i : Nat) : Bool :=
  let v := s.rd (Reg.PROT_DICT w)
  bitAt v 63 && decide (getF v 15 0 ≤ i ∧ i ≤ getF v 31 16)

/-- The dictionary ranges let a requester reach an index (R545). -/
def State.dictAllows (s : State) (who i : Nat) (write : Bool) : Bool :=
  let ws := (List.range 32).filter fun w => s.dictRange w i
  who == 6 || ws.isEmpty || ws.any fun w => s.bit (Reg.PROT_DICT w) ((if write then 40 else 32) + who)

/-- The class of a fabric peer (R547). -/
def State.peerClass (s : State) (uid : Nat) : Nat :=
  match (List.range 32).find? fun w =>
      s.bit (Reg.PROT_PEER_ID w) 63 && s.fld (Reg.PROT_PEER_ID w) 55 0 == uid with
  | some w => s.fld (Reg.PROT_PEER_ID w) 58 56
  | none => s.fld Reg.PROT_PEER_DEF 2 0

/-- A fabric peer's windows let it reach an index (R547). -/
def State.peerAllows (s : State) (uid i : Nat) (write : Bool) : Bool :=
  let c := s.peerClass uid
  decide (c < 7) && (List.range 8).any fun w =>
    let v := s.rd (Reg.PROT_PEER_WIN c w)
    bitAt v 63 && decide (getF v 15 0 ≤ i ∧ i ≤ getF v 31 16) && bitAt v (if write then 33 else 32)

/-- A port's valid window of a LOG2 outside its range (R609) or that lies off its own size (R546). -/
def State.epWinBad (s : State) (n : Nat) : Bool :=
  (List.range 16).any fun w =>
    let v := s.rd (Reg.PROT_EP_WIN n w)
    bitAt v 63 && (decide (getF v 5 0 < 12 ∨ 48 < getF v 5 0) || getF v 47 12 * 4096 % 2 ^ getF v 5 0 != 0)

/-- A BAR2 access lies wholly inside one window of its port that carries the right (R546). -/
def State.epAllows (s : State) (n a len : Nat) (write : Bool) : Bool :=
  (List.range 16).any fun w =>
    let v := s.rd (Reg.PROT_EP_WIN n w)
    let base := getF v 47 12 * 4096
    bitAt v 63 && decide (base ≤ a ∧ a + len ≤ base + 2 ^ getF v 5 0) && bitAt v (if write then 7 else 6)

end Sys2Proof.Machine
end

