-- ==== Sys2Proof/Machine/Pcie.lean ====
section
/-! DEFINITION. PCIe ports: endpoints and their BARs, root ports and enumeration (R430-R441). -/

namespace Sys2Proof.Machine

/-! ### Links (R430, R440) -/

/-- LINK_UP of a port (R456). -/
def State.linkUp (s : State) (n : Nat) : Bool := s.bit (Reg.PCI_PORT_STS n) 0

/-- The port has a role it can play (R430). -/
def State.portRuns (s : State) (n : Nat) : Bool := s.pciRole n == 1 || s.isEndpoint n

/-- CAUSE of a port that would be a third endpoint (R430). -/
def State.roleCause (s : State) (n : Nat) : State :=
  if s.pciRole n = 2 ∧ !s.isEndpoint n then s.setFld (Reg.PCI_PORT_STS n) 8 7 1 else s

/-- An enumeration of a port runs, or no longer. -/
def State.setEnum (s : State) (n : Nat) (on : Bool) : State :=
  let e := s.drv.enum
  let bit := e / 2 ^ n % 2
  { s with drv := { s.drv with enum := e - bit * 2 ^ n + b2n on * 2 ^ n } }

/-- The functions listed on a port. -/
def State.fnCount (s : State) (n : Nat) : Nat := s.rdN (Reg.PCI_RP_FN_COUNT n)

/-- A listed function is no longer there: its controller's member becomes MISSING (R440, R453). -/
def State.fnGone (s : State) (n f : Nat) : State :=
  (s.putBit (Reg.PCI_RP_FN_STS n f) 16 false).ctrlGone n f

/-- A port no longer answers the reads that wait for GDDR7. -/
def State.readsDropped (s : State) (n : Nat) : State :=
  { s with heldReqs := s.heldReqs.filter fun k => k.write || k.port != n }

/-- A port's link goes down; an enumeration that runs ends with it (R440, R458). (DEDUCED, log entry 41.) -/
def State.linkDown (s : State) (n : Nat) : State :=
  if s.linkUp n then
    let s := (s.readsDropped n).putBit (Reg.PCI_PORT_STS n) 0 false |>.bumpSat (Reg.PCI_LINK_DOWNS n) 32
    let s := s.raise (896 + n)
    if s.pciRole n = 1 then
      let s := if s.drv.enum.testBit n then (s.setEnum n false).raise (900 + n) else s
      (List.range (s.fnCount n)).foldl (fun s f => s.fnGone n f) s
    else s
  else s

/-! ### Enumeration (R438) -/

/-- What lies above a place of the hierarchy: the bus there, the next bus after all that it holds in reserve, the
hot-plug port whose window and buses it shares, and the last bus that it may use. -/
structure Above where
  bus : Nat
  keep : Nat
  slot : Option Nat
  last : Nat

/-- A device as enumeration meets it: its place in the list, its bus, the bus below it, and what lies above it. -/
structure Found where
  i : Nat
  dev : PciDev
  bus : Nat
  sub : Nat
  above : Above

/-- Buses are assigned depth first: each bridge takes the next one, and a hot-plug port four (R438). `stack` holds what
lies above, deepest first. -/
def assignBuses : List PciDev → (i next : Nat) → (stack : List Above) → List Found
  | [], _, _, _ => []
  | d :: ds, i, next, stack =>
    let out := stack.length - (d.depth + 1)
    let next := (stack.take out).foldl (fun n e => max n e.keep) next
    let stack := stack.drop out
    let up := stack.head?.getD ⟨0, 0, none, 0⟩
    let here : Found := ⟨i, d, up.bus, next, up⟩
    if d.bridge then
      let below : Above :=
        if d.hot then ⟨next, next + 4, some i, min up.last (next + 3)⟩ else ⟨next, next + 1, up.slot, up.last⟩
      here :: assignBuses ds (i + 1) (next + 1) (below :: stack)
    else here :: assignBuses ds (i + 1) next stack

/-- Inserts a request for space before the first smaller one. -/
def insertBar (x : Nat × Nat) : List (Nat × Nat) → List (Nat × Nat)
  | [] => [x]
  | y :: r => if y.1 < x.1 then x :: y :: r else y :: insertBar x r

/-- Places requests, largest first and so naturally aligned, from an address on: owner, address and log2 size of each
that fits. A request is a log2 size and its owner. (DEDUCED, log entry 41.) -/
def placeBars (last : Nat) : List (Nat × Nat) → (at' : Nat) → List (Nat × Nat × Nat)
  | [], _ => []
  | x :: r, at' =>
    if at' + 2 ^ x.1 ≤ last then (x.2, at', x.1) :: placeBars last r (at' + 2 ^ x.1) else placeBars last r at'

/-- The requests of a window: the BARs of the functions in it and the windows of its hot-plug ports (R438). -/
def requestsIn (hp : Nat) (slot : Option Nat) (fs : List Found) : List (Nat × Nat) :=
  let mine := fs.filter fun e => e.above.slot == slot
  (mine.flatMap fun e =>
    if e.dev.bridge then (if e.dev.hot then [(hp, e.i)] else []) else e.dev.bars.map fun b => (b, e.i)).foldr
      insertBar []

/-- Every placed request of a hierarchy in a window of `room` bytes at `base`; a hot-plug port's own window lies where
its request was placed. -/
def layoutBars (hp base room : Nat) (fs : List Found) : List (Nat × Nat × Nat) :=
  (fs.filter fun e => e.dev.bridge && e.dev.hot).foldl (fun out h =>
    match out.find? fun e => e.1 == h.i with
    | some (_, at', _) => out ++ placeBars (at' + 2 ^ hp) (requestsIn hp (some h.i) fs) at'
    | none => out) (placeBars (base + room) (requestsIn hp none fs) base)

/-- What an enumeration finds below a bus: bus, function, whether it fits and its BARs as placed; and the slots. -/
structure Survey where
  fns : List (Nat × PciDev × Bool × List (Nat × Nat))
  slots : List PciSlot

/-- Enumerates what lies on and below a bus that may use buses up to `last` and the window at `base` (R438): up to three
levels of switches, each of two bridges. (DEDUCED, log entry 41.) -/
def State.surveyFns (s : State) (n first last depth base room : Nat) (devs : List PciDev) : Survey :=
  let hp := s.fld (Reg.PCI_RP_HP n) 5 0
  let all := assignBuses devs 0 (first + 1) [⟨first, first + 1, none, last⟩]
  let at' := layoutBars hp base room all
  let fns := all.filter fun e => !e.dev.bridge
  let hot := all.filter fun e => e.dev.bridge && e.dev.hot
  { fns := fns.map fun e =>
      let mine := (at'.filter fun p => p.1 == e.i).map (·.2)
      (e.bus, e.dev, decide (mine.length = e.dev.bars.length ∧ e.bus ≤ e.above.last ∧ depth + e.dev.depth ≤ 6), mine)
    slots := hot.map fun e =>
      let mine := (at'.find? fun p => p.1 == e.i).map (·.2.1)
      { port := n, bus := e.sub, depth := depth + e.dev.depth + 1, base := mine.getD 0,
        room := if mine.isSome then 2 ^ hp else 0 } }

/-- The window or the hot-plug share of a root port lies outside the ranges that the entries state (R456, R609). -/
def State.rpUndefined (s : State) (n : Nat) : Bool :=
  let l := s.fld (Reg.PCI_RP_MEM n) 5 0
  let hp := s.fld (Reg.PCI_RP_HP n) 5 0
  decide (l < 24 ∨ 48 < l ∨ hp < 20 ∨ 40 < hp) || s.fld (Reg.PCI_RP_MEM n) 62 24 * 2 ^ 24 % 2 ^ l != 0

/-- Lists a function at an index. -/
def State.listFn (s : State) (n f bus : Nat) (d : PciDev) (fits : Bool) : State :=
  let s := s.wrN (Reg.PCI_RP_FN n f) (d.vendor % 2 ^ 16 + d.device % 2 ^ 16 * 2 ^ 16 + d.cls % 2 ^ 24 * 2 ^ 32)
  s.wrN (Reg.PCI_RP_FN_STS n f)
    (bus % 256 * 256 + d.dev % 32 * 8 + d.fn % 8 + 2 ^ 16 + b2n (!fits) * 2 ^ 17)

/-- The class code of an NVMe controller. (PRESUMED, log entry 42.) -/
def nvmeClass : Nat := 0x010802

/-- Starts the controllers among listed functions. -/
def State.startFns (s : State) (n : Nat) (fs : List (Nat × PciDev × Bool)) : State :=
  fs.foldl (fun s e =>
    if e.2.1.cls = nvmeClass ∧ e.2.2 = true then s.ctrlStart n e.1 else s) s

/-- The BARs placed for a listed function, or none where it does not fit. -/
def State.listBars (s : State) (n f : Nat) (fits : Bool) (at' : List (Nat × Nat)) : State :=
  let rest := s.drv.bars.filter fun b => !(b.port == n && b.f == f)
  let mine := if fits then at'.map fun p => ({ port := n, f := f, base := p.1, log2 := p.2 } : PciBar) else []
  { s with drv := { s.drv with bars := rest ++ mine } }

/-- An enumeration of a port ends with what it found (R438). -/
def State.enumEnd (s : State) (n : Nat) (devs : List PciDev) : State :=
  let base := s.fld (Reg.PCI_RP_MEM n) 62 24 * 2 ^ 24
  let found : Survey := s.surveyFns n (64 * n + 1) (64 * n + 63) 0 base (2 ^ s.fld (Reg.PCI_RP_MEM n) 5 0) devs
  let listed : List ((Nat × PciDev × Bool × List (Nat × Nat)) × Nat) := (found.fns.take 32).zipIdx
  let s := (List.range 32).foldl (fun s f =>
    (s.wrN (Reg.PCI_RP_FN n f) 0).wrN (Reg.PCI_RP_FN_STS n f) 0) s
  let s := { s with drv := { s.drv with
    bars := s.drv.bars.filter fun b => b.port != n
    slots := (s.drv.slots.filter fun (x : PciSlot) => x.port != n) ++ found.slots } }
  let s := listed.foldl (fun s e =>
    (s.listFn n e.2 e.1.1 e.1.2.1 e.1.2.2.1).listBars n e.2 e.1.2.2.1 e.1.2.2.2) s
  let s := s.wrN (Reg.PCI_RP_FN_COUNT n) listed.length
  let s := (s.putBit (Reg.PCI_PORT_STS n) 9 true).putBit (Reg.PCI_PORT_STS n) 10
    (decide (32 < found.fns.length))
  let s := (s.setEnum n false).raise (900 + n)
  let s := s.startFns n (listed.map fun e => (e.2, e.1.2.1, e.1.2.2.1))
  (List.range 4).foldl (fun s x => s.initSet x) s

/-- The bus, device and function of an index. -/
def State.fnBdf (s : State) (n f : Nat) : Nat := s.fld (Reg.PCI_RP_FN_STS n f) 15 0

/-- One function of a subtree is listed where it stood, or behind the others (R438, R440). -/
def State.relist (n : Nat) (s : State) (e : Nat × PciDev × Bool × List (Nat × Nat)) : State :=
  let bdf := e.1 % 256 * 256 + e.2.1.dev % 32 * 8 + e.2.1.fn % 8
  let f := ((List.range (s.fnCount n)).find? fun f => s.fnBdf n f == bdf).getD (s.fnCount n)
  if 32 ≤ f then s.putBit (Reg.PCI_PORT_STS n) 10 true
  else
    let s := s.wrN (Reg.PCI_RP_FN_COUNT n) (max (f + 1) (s.fnCount n))
    ((s.listFn n f e.1 e.2.1 e.2.2.1).listBars n f e.2.2.1 e.2.2.2).startFns n [(f, e.2.1, e.2.2.1)]

/-- The subtree below a slot is enumerated again, within the buses and the window that its port holds (R440). -/
def State.slotEnum (s : State) (n : Nat) (x : PciSlot) (devs : List PciDev) : State :=
  let inside := fun (b : Nat) => decide (x.bus ≤ b ∧ b < x.bus + 4)
  let s := (List.range (s.fnCount n)).foldl (fun s f =>
    if inside (s.fnBdf n f / 256) && s.bit (Reg.PCI_RP_FN_STS n f) 16 then (s.listBars n f false []).fnGone n f
    else s) s
  let found := s.surveyFns n x.bus (x.bus + 3) x.depth x.base x.room devs
  let s := { s with drv := { s.drv with
    slots := (s.drv.slots.filter fun y => !(y.port == n && inside y.bus && y.bus != x.bus)) ++ found.slots } }
  let s := (found.fns.foldl (State.relist n) s).raise (900 + n)
  (List.range 4).foldl (fun s x => s.initSet x) s

/-- A write through a root port meets a BAR of a function that the drive engine owns (R441). -/
def State.ownedBar (s : State) (n a len : Nat) : Bool :=
  s.drv.bars.any fun b => b.port == n && s.bit (Reg.PCI_RP_FN_STS n b.f) 18 && meets a len b.base (2 ^ b.log2)

/-! ### Endpoint functions (R432, R433, R437, R529) -/

/-- Sends the messages of pending vectors that may now go. -/
def State.flushMsix (s : State) (n : Nat) : State :=
  let f := s.epFn n
  if s.portIssues n && f.msixEnable && !f.msixMask then
    (List.range 1024).foldl (fun s v =>
      let f := s.epFn n
      if f.pba.testBit v && !(f.vector v).masked then
        (s.setEp n { f with pba := f.pba - 2 ^ v }).send (.msix n v)
      else s) s
  else s

/-- Dwords of the MSI-X, PCI Express and AER capabilities whose bits R431 and R433 give, in the layout of the PCI Express
specification: 1,024 vectors, table and pending bits in BAR4; a payload of at most 512 bytes and FLR; ECRC.
(DEDUCED, log entry 41.) -/
def State.epCapability (s : State) (n r : Nat) : Option Nat :=
  let f := s.epFn n
  let given := BitVec.ofNat 64 (Config.epConfig n r).toNat
  let held := BitVec.ofNat 64 (((f.config.find? fun e => e.1 == r).map (·.2)).getD given.toNat)
  if r = Config.msixDword then
    some (setBit (setBit (setF (setF given 7 0 0x11) 26 16 1023) 30 f.msixMask) 31 f.msixEnable).toNat
  else if r = Config.msixDword + 1 then some 0x8004
  else if r = Config.msixDword + 2 then some 0xC004
  else if r = Config.pcieDword then some (setF given 7 0 0x10).toNat
  else if r = Config.pcieDword + 1 then some (setBit (setF given 2 0 2) 28 true).toNat
  else if r = Config.pcieDword + 2 then some (setBit held 15 false).toNat
  else if r = Config.aerDword then some (setF given 15 0 1).toNat
  else if r = Config.aerDword + 6 then some (setBit (setBit held 5 true) 7 true).toNat
  else none

/-- A dword of an endpoint's configuration space: the IDs, the class code, three 64-bit memory BARs of which BAR2 alone is
prefetchable, the capabilities, and what else was written (R431, R433). (DEDUCED, log entry 41.) -/
def State.epConfig (s : State) (n r : Nat) : Nat :=
  let f := s.epFn n
  let held := fun (r : Nat) => (f.config.find? fun e => e.1 == r).map (·.2)
  let bar := fun (r log2 kind : Nat) =>
    let lo := r - r % 2
    let a := (held lo).getD 0 + (held (lo + 1)).getD 0 * 2 ^ 32
    (a / 2 ^ log2 * 2 ^ log2 + kind) / 2 ^ (32 * (r % 2)) % 2 ^ 32
  match r with
  | 0 => s.fld (Reg.PCI_EP_ID n) 31 0
  | 2 => 0x11800000
  | 4 | 5 => bar r 27 4
  | 6 | 7 => bar r (s.fld (Reg.PCI_EP_BAR2 n) 5 0) 12
  | 8 | 9 => bar r 16 4
  | 11 => s.fld (Reg.PCI_EP_ID n) 63 32
  | _ => (s.epCapability n r).getD ((held r).getD (Config.epConfig n r).toNat)

/-- A Function Level Reset of an endpoint begins (R437). -/
def State.flrStart (s : State) (n : Nat) : State := (s.setEp n { s.epFn n with flr := true }).readsDropped n

/-- A configuration write: Command, the MSI-X control bits, Initiate FLR, and any other dword as it is written
(R431, R437). -/
def State.epConfigWrite (s : State) (n r v : Nat) : State :=
  let f := s.epFn n
  let f := { f with config := (r, v) :: f.config.filter fun e => e.1 != r }
  let f := if r = 1 then { f with memSpace := v.testBit 1, busMaster := v.testBit 2 } else f
  if r = 1 then (s.setEp n f).flushMsix n
  else if r = Config.msixDword then
    (s.setEp n { f with msixEnable := v.testBit 31, msixMask := v.testBit 30 }).flushMsix n
  else if r = Config.pcieDword + 2 ∧ v.testBit 15 then (s.setEp n f).flrStart n
  else s.setEp n f

/-- The function answers memory requests: link up, Memory Space enabled, no FLR. -/
def State.epServes (s : State) (n : Nat) : Bool :=
  let f := s.epFn n
  s.isEndpoint n && s.linkUp n && f.enabled && f.memSpace && !f.flr

/-- Enables an endpoint port once PROT_LOCK is set and PERST# is deasserted (R432, R543). -/
def State.epEnable (s : State) (n : Nat) : State :=
  let f := s.epFn n
  if s.isEndpoint n && s.locked && f.out then s.setEp n { f with enabled := true } else s

/-! ### The commands -/

/-- A port's link comes up at a rate and width, within the port's limits; 64 GT/s is always in Flit mode (R431, R440). A
reserved ROLE or MAX_RATE gives no outcome (R609). (DEDUCED, log entry 41.) -/
def execPciLinkUp (n : Fin 4) (rate : Fin 6) (width : Fin 4) (flit : Bool) (s : State) :
    Host.Outcome State Fault Refusal :=
  let top := s.fld (Reg.PCI_PORT_CFG n) 4 2
  if s.pciRole n = 3 ∨ (s.portRuns n ∧ 5 < top) then .fault (.undefinedOutcome 609)
  else .next (
    if s.portRuns n ∧ ¬s.linkUp n ∧ s.power ≤ 1 then
      let k := Reg.PCI_PORT_STS n
      let r := min rate.val top
      let s := (s.putBit k 0 true).setFld k 3 1 r
      let s := (s.setFld k 5 4 (min width.val (s.fld (Reg.PCI_PORT_CFG n) 6 5))).putBit k 6 (flit || r == 5)
      let s := s.raise (896 + n)
      if s.pciRole n = 1 then ((s.putBit k 9 false).putBit k 10 false).setEnum n true else s
    else s)

/-- A port's link goes down (R440, R453). -/
def execPciLinkDown (n : Fin 4) (s : State) : Host.Outcome State Fault Refusal := .next (s.linkDown n)

/-- An enumeration ends: `devs` is what lies below the port, depth first (R438). A window outside its stated range, when
there is anything to place, gives no outcome (R609). -/
def execPciEnum (n : Fin 4) (devs : List PciDev) (s : State) : Host.Outcome State Fault Refusal :=
  if s.linkUp n ∧ s.drv.enum.testBit n ∧ devs ≠ [] ∧ s.rpUndefined n then .fault (.undefinedOutcome 609)
  else .next (if s.linkUp n ∧ s.drv.enum.testBit n then s.enumEnd n devs else s)

/-- A switch downstream port reports a change: `bus` is the bus below it, `devs` what lies there now. While an enumeration
of the port runs, that one finds it (R440). (DEDUCED, log entry 41.) -/
def execSlotChange (n : Fin 4) (bus : Fin 256) (devs : List PciDev) (s : State) :
    Host.Outcome State Fault Refusal :=
  .next (
    if s.linkUp n ∧ s.pciRole n = 1 then
      if s.drv.enum.testBit n then s.raise (896 + n)
      else match s.drv.slots.find? fun x => x.port == n.val && x.bus == bus.val with
        | some x => (s.raise (896 + n)).slotEnum n x devs
        | none => s
    else s)

/-- PERST# deasserts on an endpoint port (R543, R560). -/
def execPerst (n : Fin 4) (s : State) : Host.Outcome State Fault Refusal :=
  if s.isEndpoint n ∧ s.wakeUndefined 6 2 3 then .fault (.undefinedOutcome 609)
  else .next (
    let s := if s.isEndpoint n then s.wakeBy 6 6 2 3 else s
    (s.setEp n { s.epFn n with out := true }).epEnable n)

/-- The device releases PERSTn_N of a root port, 100 ms after its rails are stable (R599). (DEDUCED, log entry 41.) -/
def execPerstRelease (n : Fin 4) (s : State) : Host.Outcome State Fault Refusal :=
  .next (if s.pciRole n = 1 ∧ s.pwr.pg = 7 ∧ s.elapsed s.pwr.pgSince (msec 100) then s.send (.pin "PERST" n 1) else s)

/-- A configuration request to an endpoint port (R432, R433). -/
def execConfigRequest (n : Fin 4) (tag : Fin 16384) (write : Bool) (reg : Fin 1024) (v : BitVec 32) (s : State) :
    Host.Outcome State Fault Refusal :=
  .next (
    if s.isEndpoint n && s.linkUp n then
      if !(s.epFn n).enabled || (s.epFn n).flr then s.send (.pcieCompletion n tag 2 [])
      else if write then (s.epConfigWrite n reg v.toNat).send (.pcieCompletion n tag 0 [])
      else s.send (.pcieCompletion n tag 0 (leBytes 4 (s.epConfig n reg)))
    else s)

/-- A Function Level Reset begins (R437). -/
def execFlrStart (n : Fin 4) (s : State) : Host.Outcome State Fault Refusal :=
  .next (if s.isEndpoint n && s.linkUp n && (s.epFn n).enabled then s.flrStart n else s)

/-- A Function Level Reset completes (R437). -/
def execPciFlr (n : Fin 4) (s : State) : Host.Outcome State Fault Refusal :=
  .next (
    let f := s.epFn n
    if f.flr then
      (s.setEp n { (default : EpFn) with enabled := f.enabled, out := f.out }).raise (904 + n)
    else s)

/-- A request of a port waits: GDDR7 serves nothing, or an earlier one of the port waits already (R383, R387). -/
def State.portWaits (s : State) (n a : Nat) : Bool := !s.serves a || s.heldReqs.any fun k => k.port == n

/-- A request to device memory is served, or waits (R383, R387, R435, R439). -/
def State.memRequest (s : State) (k : HeldRequest) : State :=
  if s.portWaits k.port k.addr then { s with heldReqs := s.heldReqs ++ [k] } else s.serveHeld k

/-- A BAR2 read or write of `len` bytes (R435, R546). A size outside 20 to 36 gives no outcome (R609). -/
def execBar2Access (n : Fin 4) (tag : Fin 16384) (write : Bool) (off len : Nat) (data : List (BitVec 8))
    (s : State) : Host.Outcome State Fault Refusal :=
  let size := 2 ^ s.fld (Reg.PCI_EP_BAR2 n) 5 0
  let a := s.fld (Reg.PCI_EP_BAR2 n) 47 20 * 2 ^ 20 + off
  let count := if write then data.length else len
  let l := s.fld (Reg.PCI_EP_BAR2 n) 5 0
  if s.epServes n && decide (l < 20 ∨ 36 < l) then .fault (.undefinedOutcome 609)
  else if !(s.epServes n) || decide (size < off + count) then .next s
  else if s.epWinBad n then .fault (.undefinedOutcome 546)
  else
    let ok := s.memOk a count && s.epAllows n a count write
    if !ok then
      let s := s.bumpSat (Reg.PCI_EP_BAD_ACC n) 32
      .next (if write then s else s.send (.pcieCompletion n tag 1 []))
    else if write && !s.softWriteOk a count then .fault (.undefinedOutcome (s.softWriteRule a count))
    else .next (s.memRequest ⟨n, tag, write, a, count, data⟩)

/-- GO := 1 in PCI_RP_CFG_ACC (R441): DONE and UR clear until the access completes. (DEDUCED, log entry 41.) -/
def execCfgAccGo (n : Fin 4) (v : BitVec 64) (s : State) : Host.Outcome State Fault Refusal :=
  let bdf := getF v 15 0
  let write := bitAt v 28
  let owned := (List.range (s.fnCount n)).any fun f =>
    s.bit (Reg.PCI_RP_FN_STS n f) 18 && s.fnBdf n f == bdf
  if write && owned then .fault (.undefinedOutcome 441)
  else .next (
    let s := s.wr (Reg.PCI_RP_CFG_ACC n) (setF v 31 29 0)
    if s.pciRole n = 1 then
      let s := { s with drv := { s.drv with acc := s.drv.acc ||| 2 ^ n.val } }
      s.send (.pcieConfig n bdf (getF v 27 16) write (getF v 63 32))
    else s)

/-- The configuration access completes (R441). -/
def execCfgAccDone (n : Fin 4) (ur : Bool) (data : BitVec 32) (s : State) : Host.Outcome State Fault Refusal :=
  .next (
    if s.drv.acc.testBit n then
      let k := Reg.PCI_RP_CFG_ACC n
      let s := { s with drv := { s.drv with acc := s.drv.acc - 2 ^ n.val } }
      let s := (s.putBit k 30 true).putBit k 31 ur
      if s.bit k 28 then s else s.setFld k 63 32 data.toNat
    else s)

/-- A request from below a root port (R439). Reads of the stream aperture are STREAM_APERTURE_READ. -/
def execDownstreamRequest (n : Fin 4) (tag : Fin 16384) (write : Bool) (addr : BitVec 64) (len : Nat)
    (data : List (BitVec 8)) (s : State) : Host.Outcome State Fault Refusal :=
  let a := addr.toNat
  let count := if write then data.length else len
  let ur : State := if write then s else s.send (.pcieCompletion n tag 1 [])
  if s.pciRole n ≠ 1 ∨ ¬s.linkUp n then .next s
  else if a + count ≤ 2 ^ 48 then
    if !s.memOk a count then .next ur
    else if write && !(s.memWriteOk a count && !s.contextHit a count) then
      .fault (.undefinedOutcome (s.softWriteRule a count))
    else .next (s.memRequest ⟨n, tag, write, a, count, data⟩)
  else if 2 ^ 63 ≤ a ∧ a < 2 ^ 63 + 2 ^ 60 ∧ ¬write then .next s
  else if 2 ^ 63 + 2 ^ 60 ≤ a ∧ a + count ≤ 2 ^ 63 + 2 ^ 60 + 65536 ∧ write then .next s
  else .next ur

/-- An error detected on a port (R458). -/
def execPcieLinkError (n : Fin 4) (fatal : Bool) (s : State) : Host.Outcome State Fault Refusal :=
  .next (
    if fatal then (s.bumpSat (Reg.PCI_ERR_UNCORR n) 32).raise (908 + n)
    else s.bumpSat (Reg.PCI_ERR_CORR n) 32)

end Sys2Proof.Machine
end

