-- ==== Sys2Proof/Machine/Drives.lean ====
section
/-! DEFINITION. The commands of the drive engine (R442-R455). -/

namespace Sys2Proof.Machine

/-- Released ring space lets the set's writers go on (R209, R450). -/
def State.afterDrive (s : State) (x : Nat) : State :=
  let s := s.drvProgress x
  (s.dChannels x).foldl (fun s c => s.serveWriter c) s

/-- A strip has been written to a member: durable at once without a volatile cache (R449). -/
def State.stripDone (s : State) (x m st strip : Nat) : State :=
  let v := s.member x m
  if s.bit (Reg.DRV_SET_CFG x) 12 then s.setMember x m { v with safe := (st, strip) :: v.safe }
  else s.setMember x m { v with done := (st, strip) :: v.done }

/-- A step of a controller's initialisation has completed (R442). -/
def State.initDone (s : State) (c : Ctrl) (step' : Nat) (ok : Bool) (data : NvmeData) : State :=
  let c := match data with
    | .ctrl mdts vwc mqes => { c with
        mdtsOk := mdts == 0 || decide (131072 ≤ mdts), vwcOff := vwc, depth := min (mqes + 1) 256 }
    | .ns active nsze lba meta' => { c with formatOk := active && lba == 4096 && meta' == 0, nsze := nsze }
    | .label bs => { c with label := DrvLabel.ofBytes bs }
    | _ => c
  let c := if ok then c else { c with formatOk := false }
  let s := s.setCtrl c
  if ok && decide (step' < 7) then
    s.drvSend c.port c.fn (initOp (step' + 1)) (.init (step' + 1)) 0
  else s.ctrlReady c.port c.fn

/-- A label's Write has completed: RUN follows in INIT, IDLE at a stop (R444, R451). -/
def State.labelDone (s : State) (x : Nat) : State :=
  if s.dState x = 1 ∧ s.labelsDone x then s.runSet x [] none else s.stopGo x

/-- A command of a controller has succeeded. -/
def State.cmdDone (s : State) (c : Ctrl) (k : DrvCmd) (data : NvmeData) : State :=
  let who := s.memberOf c.port c.fn
  match k.what, who with
  | .init n, _ => s.initDone c n true data
  | .label x, _ => s.labelDone x
  | .data x b strip, some (_, m) => (s.stripDone x m (b / s.dData x) strip).afterDrive x
  | .parity x st strip, some (_, m) => (s.stripDone x m st strip).afterDrive x
  | .flush x covers, some (_, m) =>
    let v := s.member x m
    (s.setMember x m { done := v.done.filter fun e => !covers.contains e, safe := covers ++ v.safe }).afterDrive x
  | .smart, some (x, m) =>
    match data with
    | .smart w u t =>
      let r := Reg.DRV_MEMBER_STS x m
      let s := ((s.setFld r 19 12 w).setFld r 27 20 u).setFld r 43 28 t
      if w % 256 = 0 then s else s.raise (924 + x)
    | _ => s
  | .rebuildRead x st strip, _ => s.rebuildRead x st strip
  | .rebuildWrite x _ _, _ => s.rebuildWritten x
  | _, _ => s

/-- The member of a controller becomes FAILED (R443). -/
def State.ctrlFailed (s : State) (port fn cause : Nat) : State :=
  let s := s.bumpSat Reg.DRV_CMD_ERR 32
  match s.memberOf port fn with
  | some (x, m) => ((s.memberLost x m 4 cause).afterDrive x).ctrlAway port fn
  | none => s.ctrlAway port fn

/-- A command of a controller has completed with an error: a Write is issued once more; a controller whose reset fails
loses its member (R443), and a member whose cache cannot be turned off is refused (R449). (DEDUCED, log entry 43.) -/
def State.cmdFailed (s : State) (c : Ctrl) (k : DrvCmd) (data : NvmeData) : State :=
  if k.op = .write then
    if k.tries = 0 then
      let s := match s.ctrl c.port c.fn with
        | some c => s.setCtrl { c with cmds := c.cmds ++ [{ k with tries := 1, sent := false }] }
        | none => s
      s.drvNext c.port c.fn k.op.queue
    else s.ctrlFailed c.port c.fn 3
  else match k.what with
    | .init n => if (s.memberOf c.port c.fn).isSome then s.ctrlFailed c.port c.fn 3 else s.initDone c n false data
    | .cache =>
      match s.memberOf c.port c.fn with
      | some (x, m) =>
        if !s.bit (Reg.DRV_SET_CFG x) 12 then s
        else if s.dState x = 1 then s.refuseSet x 2
        else (((s.memberLost x m 4 3).setFld (Reg.DRV_SET_STS x) 9 7 2).afterDrive x).ctrlAway c.port c.fn
      | none => s
    | .rebuildRead x _ _ =>
      let d := s.dset x
      (s.setDset x { d with rebuild := d.rebuild.map fun r => { r with left := 0 } }).rebuildGo x
    | _ => s

/-- An NVMe completion arrives for a command (R443, R449, R450). -/
def execNvmeCompletion (port : Fin 4) (fn : Fin 32) (cookie : Nat) (ok : Bool) (data : NvmeData) (s : State) :
    Host.Outcome State Fault Refusal :=
  .next (
    match s.ctrl port fn with
    | none => s
    | some c =>
      match c.cmds.find? fun k => k.cookie == cookie with
      | none => s
      | some k =>
        if c.phase < 3 then s
        else
          let c := { c with cmds := c.cmds.filter fun e => e.cookie != cookie }
          let s := (s.setCtrl c).drvNext port fn k.op.queue
          if ok then s.cmdDone c k data else s.cmdFailed c k data)

/-- A command exceeds DRV_CMD_TIMEOUT (R443). (DESIGN CHOICE, log entry 6.) -/
def execNvmeTimeout (port : Fin 4) (fn : Fin 32) (cookie : Nat) (s : State) :
    Host.Outcome State Fault Refusal :=
  .next (
    match s.ctrl port fn with
    | none => s
    | some c =>
      match c.cmds.find? fun k => k.cookie == cookie with
      | none => s
      | some k =>
        if c.phase < 3 ∨ !k.sent ∨ ¬s.overdue k.sentAt (msec (s.fld Reg.DRV_CMD_TIMEOUT 31 0)) then s
        else
          let again : Bool := match c.timeoutAt with
            | some t => !s.elapsed t (msec 10000)
            | none => false
          if again then s.ctrlFailed port fn 2
          else
            let io := c.cmds.filter fun e => match e.what with
              | .init _ => false
              | _ => true
            (s.setCtrl { c with phase := 1, cmds := io, timeoutAt := some s.clk.up }).send
              (.nvmeEnable port fn false))

/-- CSTS.RDY of a controller changes (R442, R443). -/
def execControllerReadyChange (port : Fin 4) (fn : Fin 32) (ready : Bool) (s : State) :
    Host.Outcome State Fault Refusal :=
  .next (
    match s.ctrl port fn with
    | none => s
    | some c =>
      if c.phase = 1 ∧ ready = false then s.ctrlStart port fn
      else if c.phase = 2 ∧ ready = true then
        (s.setCtrl { c with phase := 3 }).drvSend port fn (initOp 0) (.init 0) 0
      else s)

/-- CSTS.RDY does not reach 0, or 1 again, within CAP.TO (R443). -/
def execCapToExpiry (port : Fin 4) (fn : Fin 32) (s : State) : Host.Outcome State Fault Refusal :=
  .next (
    match s.ctrl port fn with
    | none => s
    | some c => if c.phase = 1 ∨ c.phase = 2 then s.ctrlFailed port fn 2 else s)

/-- A member's controller reports CSTS.CFS = 1 (R453); CAUSE is ERROR. (DEDUCED, log entry 43.) -/
def execControllerFatal (port : Fin 4) (fn : Fin 32) (s : State) : Host.Outcome State Fault Refusal :=
  .next (
    match s.memberOf port fn with
    | some (x, m) =>
      ((s.memberLost x m 3 3).afterDrive x).ctrlAway port fn
    | none => s.ctrlAway port fn)

/-- Every 60 s the engine reads each member's SMART log page (R442). -/
def execSmartPoll (s : State) : Host.Outcome State Fault Refusal :=
  .next (
    if s.sinceNote s.drv.smartAt (msec 60000) then
      let s := { s with drv := { s.drv with smartAt := some s.clk.up } }
      (List.range 4).foldl (fun s x => (List.range (s.dN x)).foldl (fun s m =>
        if s.mState x m = 2 ∨ s.mState x m = 5 then s.drvSend (s.mPort x m) (s.mFn x m) .smart .smart 0
        else s) s) s
    else s)

/-- FLUSH_US have passed since the oldest untaken byte of a channel was published (R446). -/
def execBlockFlushTimeout (x c : Fin 4) (s : State) : Host.Outcome State Fault Refusal :=
  .next (
    match (s.dset x).marks[c].head? with
    | some (_, t) =>
      let n := s.untakenLen x c
      if s.dState x = 2 ∧ 0 < n ∧ s.elapsed t (usec (s.fld (Reg.DRV_SET_FLUSH x) 15 0)) then
        let r := s.canTake x
        if r.2 then (r.1.formBlock x c (min n drvPayload)).drvProgress x else r.1
      else s
    | none => s)

/-- Every DFLUSH_US a Flush goes to each member with Writes outstanding (R449). -/
def execDriveFlushTimer (x : Fin 4) (s : State) : Host.Outcome State Fault Refusal :=
  .next (
    if s.bit (Reg.DRV_SET_CFG x) 12 ∨
        ¬s.sinceNote (s.dset x).flushAt (usec (s.fld (Reg.DRV_SET_FLUSH x) 31 16)) then s
    else
      let s := s.setDset x { s.dset x with flushAt := some s.clk.up }
      (List.range (s.dN x)).foldl (fun s m =>
        let v := s.member x m
        if (s.mState x m = 2 ∨ s.mState x m = 5) ∧ v.done ≠ [] then
          s.drvSend (s.mPort x m) (s.mFn x m) .flush (.flush x v.done) 0
        else s) s)

/-- What makes enabling a set undefined (R442, R446, R457): the rule, or 0. -/
def State.setUndefined (s : State) (x : Nat) : Nat :=
  let others := (List.range 4).filter fun y => y != x && s.dState y != 0
  if s.dN x < 2 ∨ 16 < s.dN x then 609
  else if (s.dChannels x).any fun c =>
      !s.bit (Reg.ACQ_CFG c) 10 || others.any fun y => (s.dChannels y).contains c then 446
  else if s.overlaps (2 ^ 31) (s.fld Reg.DRV_AREA 47 20 * 2 ^ 20) (2 ^ s.fld Reg.DRV_AREA 5 0) then 442
  else 0

/-- DRV_AREA lies in GDDR7 and is large enough (R442, R457). -/
def State.areaOk (s : State) : Bool :=
  let l := s.fld Reg.DRV_AREA 5 0
  decide (26 ≤ l ∧ l ≤ 36) && decide (s.fld Reg.DRV_AREA 47 20 * 2 ^ 20 + 2 ^ l ≤ s.memEnd)

/-- A write of a set's ENABLE, with INIT as the same write gives it (R444). -/
def execDrvSetEnable (x : Fin 4) (on init : Bool) (s : State) : Host.Outcome State Fault Refusal :=
  if on && s.parityStopped (Reg.DRV_SET_CTL x) then .next s
  else
    let s := if on then s else s.parityFree (Reg.DRV_SET_CTL x)
    if on && s.dState x == 0 && s.setUndefined x ≠ 0 then .fault (.undefinedOutcome (s.setUndefined x))
    else .next (
      let s := (s.putBit (Reg.DRV_SET_CTL x) 0 on).putBit (Reg.DRV_SET_CTL x) 2 init
      if on then
        if s.dState x = 0 then
          let k := Reg.DRV_SET_STS x
          let s := ((s.setFld k 9 7 0).putBit k 5 false).putBit k 6 false
          let s := s.setDset x { s.dset x with init := init }
          if !s.areaOk then s.setFld k 9 7 3 else (s.setFld k 2 0 1).initSet x
        else s
      else match s.dState x with
        | 2 => (s.setDset x { s.dset x with offAfter := true }).drvStop x
        | 3 => s.setDset x { s.dset x with offAfter := true }
        | _ => s.setOff x)

/-- The engine goes on where time lets it: blocks that waited, a stop, a rebuild (R446, R451, R454). -/
def State.drvPoll (s : State) : State :=
  (List.range 4).foldl (fun s x => if 2 ≤ s.dState x then s.afterDrive x else s) s

/-- STOP := 1 (R451). -/
def execDrvStop (x : Fin 4) (s : State) : Host.Outcome State Fault Refusal := .next (s.drvStop x)

/-- A drive reads a strip through the stream aperture: data block `place` of a stripe, or the parity block
where `place` is d (R447). -/
def execStreamApertureRead (n : Fin 4) (tag : Fin 16384) (x : Fin 4) (st : Nat) (place : Fin 16) (strip : Fin 8)
    (off len : Nat) (s : State) : Host.Outcome State Fault Refusal :=
  .next (
    let d := s.dData x
    let at' := strip.val * 131072 + off
    let blocks := (List.range d).map fun j =>
      s.drv.journal.find? fun k => k.set == x.val && k.b == st * d + j
    let bytes := fun (k : DrvBlock) => (List.range len).map fun i => s.blockByte k (at' + i)
    let ur := s.send (.pcieCompletion n tag 1 [])
    if s.pciRole n ≠ 1 ∨ ¬s.linkUp n then s
    else if 131072 < off + len then ur
    else if place.val < d then
      match blocks.getD place.val none with
      | some k => s.send (.pcieCompletion n tag 0 (bytes k))
      | none => ur
    else if s.dParity x ∧ place.val = d ∧ blocks.all (·.isSome) then
      let xs := (blocks.filterMap id).map bytes
      let x0 := List.replicate len (0 : BitVec 8)
      s.send (.pcieCompletion n tag 0 (xs.foldl (fun acc y => List.zipWith (· ^^^ ·) acc y) x0))
    else ur)

end Sys2Proof.Machine
end

