-- ==== Sys2Proof/Machine/Queues.lean ====
section
/-! DEFINITION. Queues, device feeds and DMA (R406-R429). -/

namespace Sys2Proof.Machine

/-! ### Queue contexts (R406, R407) -/

/-- Where the context of queue `q` lies. -/
def State.ctxAddr (s : State) (q : Nat) : Nat := s.fld Reg.QDM_CTX_BASE 47 12 * 4096 + 64 * q

/-- A positive power of two from 2 to 65,536. -/
def isDepth (n : Nat) : Bool := (List.range 16).any fun k => n == 2 ^ (k + 1)

/-- The live state a context spells (R407). -/
def State.readContext (s : State) (q : Nat) : QueueLive :=
  let a := s.ctxAddr q
  let cfg := s.loadN (a + 0x14) 4
  let first := BitVec.ofNat 64 (s.loadN (a + 0x30) 8)
  let resume := BitVec.ofNat 64 (s.loadN (a + 0x38) 8)
  { base := s.loadN a 8, tagBase := s.loadN (a + 8) 8, depth := s.loadN (a + 0x10) 4,
    esize := cfg % 16, prodSw := cfg.testBit 4, consPool := cfg.testBit 5,
    notifyEn := cfg.testBit 6, head := s.loadN (a + 0x18) 4, tail := s.loadN (a + 0x1C) 4,
    notifyAddr := s.loadN (a + 0x20) 8, notifyData := s.loadN (a + 0x28) 4,
    refused := s.loadN (a + 0x2C) 4, gapFirst := first, gapResume := resume,
    gapOpen := first != 0 && resume == 0, reserved := 0, staged := [] }

/-- A ring or a tag array of queue `q` lies in installed GDDR7 or in the SRAM ring area, and no other writer uses a part
of it: no owner's region, no queue context, `q`'s own among them, and not the reset journal (R407). -/
def State.ringOk (s : State) (q a n : Nat) : Bool :=
  (decide (a + n ≤ s.memEnd) || (inSramRing a && decide (a + n ≤ 0xF00002580000))) && !s.overlaps (32 + q) a n &&
    !s.contextHit a n && !meets a n (s.ctxAddr q) 64 && !s.inJournalArea a n

/-- The context is one whose outcome R407 and R609 define: depth, entry size, reserved bits, ring,
tags and notify target. -/
def State.contextOk (s : State) (q : Nat) : Bool :=
  let x := s.readContext q
  let tgt := x.notifyAddr / 2 ^ 61
  isDepth x.depth && decide (x.esize ≤ 9) && decide (s.loadN (s.ctxAddr q + 0x14) 4 < 128) &&
    decide (x.base < 2 ^ 48) && decide (x.tagBase < 2 ^ 48) && x.base % x.entrySize == 0 &&
    x.tagBase % 8 == 0 && s.ringOk q x.base (x.depth * x.entrySize) && s.ringOk q x.tagBase (8 * x.depth) &&
    !meets x.base (x.depth * x.entrySize) x.tagBase (8 * x.depth) && decide (x.occupancy ≤ x.depth) &&
    (!x.notifyEn || (decide (tgt ≤ 4) && (tgt != 0 || s.memWriteOk (x.notifyAddr % 2 ^ 61) 4)))

/-- Writes the live HEAD, TAIL and counters back into the context (R406). -/
def State.writeBack (s : State) (q : Nat) (x : QueueLive) : State :=
  let a := s.ctxAddr q
  ((s.wrBytes (a + 0x18) (leBytes 4 x.head ++ leBytes 4 x.tail)).wrBytes (a + 0x2C)
    (leBytes 4 x.refused ++ leBytes 8 x.gapFirst.toNat ++ leBytes 8 x.gapResume.toNat))

/-- QDM_Q_STS and QDM_Q_ENABLED after a command that named queue `q` (R425). -/
def State.queueStatus (s : State) (q : Nat) : State :=
  (s.wrN Reg.QDM_Q_STS (b2n (s.queue q).isSome * 2)).wrN Reg.QDM_Q_ENABLED s.queues.length

/-- Starts a queue from its context. -/
def State.enableQueue (s : State) (q : Nat) : State :=
  let s := if (s.queue q).isSome then s else s.setQueue q (s.readContext q)
  s.queueStatus q

/-- Stops a queue, after what it has accepted is written, and writes its live state back. -/
def State.disableQueue (s : State) (q : Nat) : State :=
  let s := s.publishQueue q
  let s := match s.queue q with
    | some x => { s.writeBack q x with queues := Sparse.erase s.queues q }
    | none => s
  s.queueStatus q

/-- Writes a queue's live state back without stopping it. -/
def State.syncQueue (s : State) (q : Nat) : State :=
  let s := match s.queue q with
    | some x => s.writeBack q x
    | none => s
  s.queueStatus q

/-! ### Doorbells (R410, R412, R416) -/

/-- A doorbell that is ignored is counted. -/
def State.dbIgnored (s : State) : State := s.bumpSat Reg.QDM_DB_IGNORED 32

/-- A TAIL doorbell moves TAIL backward or past HEAD + DEPTH (R410). (DEDUCED, log entry 40.) -/
def State.tailBad (s : State) (q v : Nat) : Bool :=
  match s.queue q with
  | some x => x.prodSw && decide (x.depth < (v + 2 ^ 32 - x.head) % 2 ^ 32 ∨
      (v + 2 ^ 32 - x.head) % 2 ^ 32 < x.occupancy)
  | none => false

/-- A TAIL doorbell (R410, R413). -/
def State.tailDoorbell (s : State) (q v : Nat) : State :=
  match s.queue q with
  | some x =>
    if x.prodSw then
      let s := s.setQueue q { x with tail := v }
      if x.occupancy = 0 ∧ v ≠ x.tail then s.notifyQueue x else s
    else s.dbIgnored
  | none => s.dbIgnored

/-- A HEAD doorbell moves HEAD backward or past TAIL (R412). (DEDUCED, log entry 40.) -/
def State.headBad (s : State) (q v : Nat) : Bool :=
  match s.queue q with
  | some x => !x.consPool && decide (x.occupancy < (v + 2 ^ 32 - x.head) % 2 ^ 32)
  | none => false

/-- Sets HEAD and notifies when the queue is not empty (R413). -/
def State.setHead (s : State) (q : Nat) (x : QueueLive) (v : Nat) : State :=
  let s := s.setQueue q { x with head := v }
  if v ≠ x.tail then s.notifyQueue x else s

/-- A HEAD doorbell (R412). -/
def State.headDoorbell (s : State) (q v : Nat) : State :=
  match s.queue q with
  | some x => if x.consPool then s.dbIgnored else s.setHead q x v
  | none => s.dbIgnored

/-! ### Device feeds (R414, R415) -/

/-- A feed beyond its entry. -/
def State.feed (s : State) (f : Nat) : Feed := if h : f < 16 then s.feeds[f] else default

/-- Replaces a feed. -/
def State.setFeed (s : State) (f : Nat) (x : Feed) : State :=
  if h : f < 16 then { s with feeds := s.feeds.set f x } else s

/-- A field of a feed's entry. -/
def State.feedFld (s : State) (f hi lo : Nat) : Nat := s.fld (Reg.QDM_FEED f) hi lo

/-- Offers one item to the feeds of a kind, channel and resolution that are enabled: every DECIM-th
enters the queue (R414). -/
def State.feedItem (s : State) (kind c res tagKind : Nat) (item : List (BitVec 8)) (ts : BitVec 64) :
    State :=
  (List.range 16).foldl (fun s f =>
    if s.bit (Reg.QDM_FEED f) 0 ∧ s.feedFld f 5 4 = kind ∧ s.feedFld f 2 1 = c ∧
        s.feedFld f 3 3 = res ∧ !s.quiesces then
      let x := s.feed f
      if x.skipped < s.feedFld f 37 22 then s.setFeed f { x with skipped := x.skipped + 1 }
      else ((s.setFeed f { x with skipped := 0 }).enqueue (s.feedFld f 21 6) tagKind item ts).1
    else s) s

/-- The bytes of an IQ block (R415). -/
def State.iqBlock (s : State) (c log2 : Nat) (xs : List OutSample) : List (BitVec 8) :=
  match xs with
  | [] => []
  | x :: _ =>
    let body := xs.flatMap fun y => if y.valid then iqBytes y.i y.qv else iqBytes 0 0
    let pad := List.replicate ((32 - body.length % 32) % 32) 0
    leBytes 8 x.ts.word.toNat ++ leBytes 8 (s.ccAt x.ts.t).toNat ++ leBytes 8 (x.q / 2 ^ log2) ++
      leBytes 4 (c + b2n (xs.any fun y => !y.valid) * 4 + b2n (xs.any (·.deg)) * 8 + log2 * 16) ++
      leBytes 4 0 ++ body ++ pad

/-- One output sample reaches the IQ feeds of its channel (R415). A block begins at a multiple of its
length. (DEDUCED, log entry 40.) -/
def State.feedSample (c : Nat) (s : State) (x : OutSample) : State :=
  (List.range 16).foldl (fun s f =>
    if s.bit (Reg.QDM_FEED f) 0 ∧ s.feedFld f 5 4 = 3 ∧ s.feedFld f 2 1 = c ∧ !s.quiesces then
      let n := 2 ^ s.feedFld f 41 38
      let w := s.feed f
      let buf := if x.q % n = 0 then [x] else if w.buf.isEmpty then [] else w.buf ++ [x]
      if buf.length = n then
        let s := s.setFeed f { w with buf := [] }
        (s.enqueue (s.feedFld f 21 6) 3 (s.iqBlock c (s.feedFld f 41 38) buf)
          ((buf.head?.map (·.ts.word)).getD 0)).1
      else s.setFeed f { w with buf := buf }
    else s) s

/-! ### DMA channels (R418-R423) -/

/-- A DMA channel beyond its entries. -/
def State.dmaChan (s : State) (ch : Nat) : DmaChan := if h : ch < 128 then s.dma[ch] else default

/-- Replaces a DMA channel. -/
def State.setDma (s : State) (ch : Nat) (x : DmaChan) : State :=
  if h : ch < 128 then { s with dma := s.dma.set ch x } else s

/-- STATE of a channel (R428): 0 OFF, 1 IDLE, 2 RUN, 3 DRAINING, 4 PAUSED. -/
def State.dmaState (s : State) (ch : Nat) : Nat := s.fld (Reg.QDM_CH_STS ch) 2 0

/-- Sets STATE of a channel. -/
def State.setDmaState (s : State) (ch x : Nat) : State := s.setFld (Reg.QDM_CH_STS ch) 2 0 x

/-- The shadow chain is one a hand-over may take: COUNT 1 or more (R427). -/
def State.chainOk (s : State) (ch : Nat) : Bool := decide (0 < s.fld (Reg.QDM_CH_NEXT_COUNT ch) 31 0)

/-- The hand-over of the shadow chain (R421). -/
def State.dmaHandover (s : State) (ch : Nat) : State :=
  let s := s.wrN (Reg.QDM_CH_BASE ch) (s.fld (Reg.QDM_CH_NEXT_BASE ch) 47 5 * 32)
  let s := s.wrN (Reg.QDM_CH_COUNT ch) (s.fld (Reg.QDM_CH_NEXT_COUNT ch) 31 0)
  let s := s.wrN (Reg.QDM_CH_CUR ch) 0
  let s := s.wrN (Reg.QDM_CH_OFFSET ch) 0
  let s := s.bump (Reg.QDM_CH_SHADOW_GEN ch) 32
  s.putBit (Reg.QDM_CH_STS ch) 3 false

/-- A start doorbell on channel `ch` would hand over a chain of no descriptors. -/
def State.dmaStartBad (s : State) (ch : Nat) : Bool := s.dmaState ch == 1 && !s.chainOk ch

/-- A start doorbell (R421). An OFF channel does nothing with it. -/
def State.dmaStart (s : State) (ch : Nat) : State :=
  match s.dmaState ch with
  | 0 => s
  | 1 => (s.dmaHandover ch).setDmaState ch 2
  | _ => s.putBit (Reg.QDM_CH_STS ch) 3 true

/-- The address of the channel's current descriptor. -/
def State.descAddr (s : State) (ch : Nat) : Nat :=
  s.rdN (Reg.QDM_CH_BASE ch) + 32 * s.rdN (Reg.QDM_CH_CUR ch)

/-- A descriptor of R418. -/
structure Desc where
  src : Nat
  dst : Nat
  len : Nat
  srcTgt : Nat
  dstTgt : Nat
  rest : Nat
  deriving DecidableEq, Repr

/-- The channel's current descriptor. -/
def State.desc (s : State) (ch : Nat) : Desc :=
  let a := s.descAddr ch
  let ctl := s.loadN (a + 0x14) 4
  { src := s.loadN a 8, dst := s.loadN (a + 8) 8, len := s.loadN (a + 0x10) 4, srcTgt := ctl % 8,
    dstTgt := ctl / 8 % 8, rest := ctl / 64 }

/-- The channel's current descriptor exists and its outcome is one that R418 defines. (DEDUCED, log entry 40.) -/
def State.descOk (s : State) (ch : Nat) : Bool :=
  let d := s.desc ch
  s.memOk (s.descAddr ch) 32 && decide (0 < d.len) && d.rest == 0 && decide (d.srcTgt ≤ 5) &&
    decide (d.dstTgt ≤ 4) && (d.srcTgt != 0 || s.memOk d.src d.len) &&
    (d.dstTgt != 0 || s.softWriteOk d.dst d.len)

/-- The rule that gives the channel's current descriptor no outcome, 0 where none does (R418, R441). -/
def State.descUndefined (s : State) (ch : Nat) : Nat :=
  let d := s.desc ch
  if !s.descOk ch then 418
  else if d.dstTgt ≠ 0 ∧ s.ownedBar (d.dstTgt - 1) d.dst d.len then 441
  else 0

/-- `n` source bytes of a descriptor from OFFSET on: device memory, what a PCIe port delivered, or
the fill pattern. -/
def State.descData (s : State) (d : Desc) (ofs n : Nat) (delivered : List (BitVec 8)) :
    List (BitVec 8) :=
  match d.srcTgt with
  | 0 => s.rdBytes (d.src + ofs) n
  | 5 => (List.range n).map fun i => BitVec.ofNat 8 (d.src / 2 ^ (8 * ((ofs + i) % 8)))
  | _ => delivered.take n

/-- Writes destination bytes of a descriptor at OFFSET (R417, R418). -/
def State.descWrite (s : State) (ch : Nat) (d : Desc) (ofs : Nat) (bs : List (BitVec 8)) : State :=
  let s := if d.dstTgt = 0 then s.wrBytes (d.dst + ofs) bs
    else s.send (.pcieWrite (d.dstTgt - 1) (d.dst + ofs) bs)
  s.bump (Reg.QDM_CH_BYTES ch) 64 bs.length

/-- Bytes that a port delivered suffice for `n` bytes of the descriptor. -/
def Desc.delivers (d : Desc) (n : Nat) (data : List (BitVec 8)) : Bool :=
  d.srcTgt == 0 || d.srcTgt == 5 || data.length == n

/-- A descriptor names a port that issues no request: it is bad with CAUSE 5 (R437). -/
def State.descDead (s : State) (d : Desc) : Bool :=
  let dead := fun (t : Nat) => decide (1 ≤ t ∧ t ≤ 4) && !s.portIssues (t - 1)
  dead d.srcTgt || dead d.dstTgt

/-- The WB word (R418). -/
def State.wbWord (s : State) (bad : Bool) (cause : Nat) : Nat :=
  1 + b2n bad * 2 + cause % 8 * 4 + s.time / 4096 % 2 ^ 48 * 65536

/-- Discards the chains and enters OFF (R422). -/
def State.dmaOff (s : State) (ch : Nat) : State :=
  let s := s.wrN (Reg.QDM_CH_BASE ch) 0
  let s := s.wrN (Reg.QDM_CH_COUNT ch) 0
  let s := s.wrN (Reg.QDM_CH_CUR ch) 0
  let s := s.wrN (Reg.QDM_CH_OFFSET ch) 0
  let s := s.wr (Reg.QDM_CH_NEXT_BASE ch) 0
  let s := s.wr (Reg.QDM_CH_NEXT_COUNT ch) 0
  let s := s.putBit (Reg.QDM_CH_STS ch) 3 false
  (s.setDma ch { s.dmaChan ch with offPending := false, devPaused := false }).setDmaState ch 0

/-- A channel leaves OFF: IDLE, or PAUSED while PAUSE is 1 (R422, R428). -/
def State.dmaOn (s : State) (ch : Nat) : State := s.setDmaState ch (if s.bit (Reg.QDM_CH_CTL ch) 1 then 4 else 1)

/-- ENABLE := 0 has come into force; a channel enabled again meanwhile leaves OFF again (R422, R428). -/
def State.dmaDisabled (s : State) (ch : Nat) : State :=
  let s := s.dmaOff ch
  if s.bit (Reg.QDM_CH_CTL ch) 0 then s.dmaOn ch else s

/-- New reads stop (R422): RUN becomes DRAINING, and an IDLE channel is paused where it stands. -/
def State.dmaPause (s : State) (ch : Nat) : State :=
  match s.dmaState ch with
  | 1 => s.setDmaState ch 4
  | 2 => s.setDmaState ch 3
  | _ => s

/-- Something holds the channel paused: PAUSE, the device itself in IDLE and DOZE, or a warm reset (R422, R424, R550). -/
def State.dmaHolds (s : State) (ch : Nat) : Bool :=
  s.bit (Reg.QDM_CH_CTL ch) 1 || (s.dmaChan ch).devPaused || s.quiesces

/-- The end of a pause (R422, R423): the channel continues, or hands over a chain that waited. -/
def State.dmaResume (s : State) (ch : Nat) : State :=
  if s.dmaState ch = 4 then
    if s.rdN (Reg.QDM_CH_CUR ch) < s.rdN (Reg.QDM_CH_COUNT ch) then s.setDmaState ch 2
    else if s.bit (Reg.QDM_CH_STS ch) 3 then (s.dmaHandover ch).setDmaState ch 2
    else s.setDmaState ch 1
  else s

/-- Resuming would hand over a chain of no descriptors. -/
def State.resumeBad (s : State) (ch : Nat) : Bool :=
  s.dmaState ch == 4 && s.bit (Reg.QDM_CH_STS ch) 3 && !s.chainOk ch &&
    decide (s.rdN (Reg.QDM_CH_COUNT ch) ≤ s.rdN (Reg.QDM_CH_CUR ch))

/-- The chain's last WB is complete (R421, R423). A channel that is pausing is then PAUSED, at the new chain's first
descriptor where one waited. -/
def State.chainEnd (s : State) (ch : Nat) : State :=
  let s := s.wr (Reg.QDM_CH_LAST_TS ch) s.now.word
  let s := s.raise (768 + ch)
  let next := s.bit (Reg.QDM_CH_STS ch) 3
  if s.dmaState ch = 3 then
    if (s.dmaChan ch).offPending then s.dmaDisabled ch
    else if next && !s.dmaHolds ch then (s.dmaHandover ch).setDmaState ch 2
    else if next then (s.dmaHandover ch).setDmaState ch 4
    else s.setDmaState ch (if s.dmaHolds ch then 4 else 1)
  else if next then s.dmaHandover ch
  else s.setDmaState ch 1

/-- Writes the current descriptor's WB and goes past it (R419, R420). -/
def State.descDone (s : State) (ch : Nat) (bad : Bool) (cause : Nat) : State :=
  let s := s.wrBytes (s.descAddr ch + 0x18) (leBytes 8 (s.wbWord bad cause))
  let s := s.wrN (Reg.QDM_CH_OFFSET ch) 0
  let s := s.bump (Reg.QDM_CH_CUR ch) 32
  let s := if bad then ((s.bumpSat (Reg.QDM_CH_BAD ch) 32).putBit (Reg.QDM_CH_STS ch) 5 true) else s
  if s.rdN (Reg.QDM_CH_COUNT ch) ≤ s.rdN (Reg.QDM_CH_CUR ch) then s.chainEnd ch else s

/-- The channel has a descriptor in transfer: RUN or DRAINING inside its chain, in memories that serve
requests, above DOZE (R424). -/
def State.dmaMoves (s : State) (ch : Nat) : Bool :=
  let d := s.desc ch
  (s.dmaState ch == 2 || s.dmaState ch == 3) && !decide (2 ≤ s.power) && s.serves (s.descAddr ch) &&
    (d.srcTgt != 0 || s.serves d.src) && (d.dstTgt != 0 || s.serves d.dst) &&
    decide (s.rdN (Reg.QDM_CH_CUR ch) < s.rdN (Reg.QDM_CH_COUNT ch))

/-- The completion of the current descriptor would hand over a chain of no descriptors. -/
def State.lastHandoverBad (s : State) (ch : Nat) : Bool :=
  (s.dmaState ch == 2 || (s.dmaState ch == 3 && !(s.dmaChan ch).offPending)) && s.bit (Reg.QDM_CH_STS ch) 3 &&
    !s.chainOk ch &&
    decide (s.rdN (Reg.QDM_CH_COUNT ch) ≤ s.rdN (Reg.QDM_CH_CUR ch) + 1)

/-- The rule that gives no outcome to a doorbell word, 0 where none does: TAIL (R410), HEAD (R412), a channel that
does not exist or a chain of no descriptors (R427, R609). -/
def State.doorbellUndefined (s : State) (w : BitVec 64) : Nat :=
  let q := getF w 47 32
  match getF w 49 48 with
  | 0 => if s.tailBad q (getF w 31 0) then 410 else 0
  | 1 => if s.headBad q (getF w 31 0) then 412 else 0
  | 2 => if 128 ≤ q ∨ s.dmaStartBad q then 609 else 0
  | _ => 0

/-- A doorbell word takes effect (R416). -/
def State.doorbell (s : State) (w : BitVec 64) : State :=
  let q := getF w 47 32
  match getF w 49 48 with
  | 0 => s.tailDoorbell q (getF w 31 0)
  | 1 => s.headDoorbell q (getF w 31 0)
  | 2 => s.dmaStart q
  | _ => s.dbIgnored

/-! ### The commands -/

/-- QUEUE_ENABLE (R406): a context that R407 leaves undefined stops the model. -/
def execQueueEnable (q : Fin 65536) (s : State) : Host.Outcome State Fault Refusal :=
  if (s.queue q).isSome || s.contextOk q then .next (s.enableQueue q)
  else .fault (.undefinedOutcome 407)

/-- QUEUE_DISABLE (R406). -/
def execQueueDisable (q : Fin 65536) (s : State) : Host.Outcome State Fault Refusal :=
  .next (s.disableQueue q)

/-- QUEUE_SYNC (R406). -/
def execQueueSync (q : Fin 65536) (s : State) : Host.Outcome State Fault Refusal :=
  .next (s.syncQueue q)

/-- TAIL_DOORBELL (R410, R416). -/
def execTailDoorbell (q : Fin 65536) (v : BitVec 32) (s : State) :
    Host.Outcome State Fault Refusal :=
  if s.tailBad q v.toNat then .fault (.undefinedOutcome 410)
  else .next (s.tailDoorbell q v.toNat)

/-- HEAD_DOORBELL (R412, R416). -/
def execHeadDoorbell (q : Fin 65536) (v : BitVec 32) (s : State) :
    Host.Outcome State Fault Refusal :=
  if s.headBad q v.toNat then .fault (.undefinedOutcome 412)
  else .next (s.headDoorbell q v.toNat)

/-- DMA_START_DOORBELL (R421). -/
def execDmaStartDoorbell (ch : Fin 128) (s : State) : Host.Outcome State Fault Refusal :=
  if s.dmaStartBad ch then .fault (.undefinedOutcome 609) else .next (s.dmaStart ch)

/-- DMA_DESCRIPTOR_COMPLETE (R419): the current descriptor's bytes are written and its WB follows; one that
names a port that issues no request is bad instead (R437).
`data` is what a source port delivered. -/
def execDmaDescriptorComplete (ch : Fin 128) (data : List (BitVec 8)) (s : State) :
    Host.Outcome State Fault Refusal :=
  let d := s.desc ch
  let ofs := s.rdN (Reg.QDM_CH_OFFSET ch)
  if s.dmaMoves ch then
    if s.descUndefined ch ≠ 0 then .fault (.undefinedOutcome (s.descUndefined ch))
    else if s.lastHandoverBad ch then .fault (.undefinedOutcome 609)
    else if s.descDead d then .next (s.descDone ch true 5)
    else if d.delivers (d.len - ofs) data then
      .next ((s.descWrite ch d ofs (s.descData d ofs (d.len - ofs) data)).descDone ch false 0)
    else .next s
  else .next s

/-- DMA_TRANSFER_ERROR (R420): `n` bytes were written before the error. -/
def execDmaTransferError (ch : Fin 128) (cause : Fin 8) (n : Nat) (data : List (BitVec 8))
    (s : State) : Host.Outcome State Fault Refusal :=
  let d := s.desc ch
  let ofs := s.rdN (Reg.QDM_CH_OFFSET ch)
  if s.dmaMoves ch && decide (1 ≤ cause.val ∧ cause.val ≤ 5) then
    if s.descUndefined ch ≠ 0 then .fault (.undefinedOutcome (s.descUndefined ch))
    else if s.lastHandoverBad ch then .fault (.undefinedOutcome 609)
    else if decide (n ≤ d.len - ofs) && d.delivers n data then
      .next ((s.descWrite ch d ofs (s.descData d ofs n data)).descDone ch true cause)
    else .next s
  else .next s

/-- DMA_ENABLE (R422, R428): an OFF channel becomes IDLE, or PAUSED while PAUSE is 1, and FAULT is cleared. -/
def execDmaEnable (ch : Fin 128) (s : State) : Host.Outcome State Fault Refusal :=
  let s := (s.putBit (Reg.QDM_CH_CTL ch) 0 true).putBit (Reg.QDM_CH_STS ch) 4 false
  .next (if s.dmaState ch = 0 then s.dmaOn ch else s)

/-- DMA_DISABLE (R422). -/
def execDmaDisable (ch : Fin 128) (s : State) : Host.Outcome State Fault Refusal :=
  let s := s.putBit (Reg.QDM_CH_CTL ch) 0 false
  .next (
    if s.dmaState ch = 2 ∨ s.dmaState ch = 3 then
      (s.dmaPause ch).setDma ch { s.dmaChan ch with offPending := true }
    else if s.dmaState ch = 0 then s
    else s.dmaOff ch)

/-- DMA_PAUSE (R422). -/
def execDmaPause (ch : Fin 128) (s : State) : Host.Outcome State Fault Refusal :=
  .next ((s.putBit (Reg.QDM_CH_CTL ch) 1 true).dmaPause ch)

/-- DMA_DRAIN_END (R422): reads in flight have written `n` more bytes of the current descriptor; a channel that nothing
holds any more continues. -/
def execDmaDrainEnd (ch : Fin 128) (n : Nat) (data : List (BitVec 8)) (s : State) :
    Host.Outcome State Fault Refusal :=
  let d := s.desc ch
  let ofs := s.rdN (Reg.QDM_CH_OFFSET ch)
  if s.dmaState ch = 3 then
    if s.dmaMoves ch && s.descUndefined ch != 0 then .fault (.undefinedOutcome (s.descUndefined ch))
    else
      let s :=
        if s.dmaMoves ch && decide (n < d.len - ofs) && d.delivers n data then
          (s.descWrite ch d ofs (s.descData d ofs n data)).wrN (Reg.QDM_CH_OFFSET ch) (ofs + n)
        else s
      let done := s.setDmaState ch 4
      if (s.dmaChan ch).offPending then .next (s.dmaDisabled ch)
      else if s.dmaHolds ch then .next done
      else if done.resumeBad ch then .fault (.undefinedOutcome 609)
      else .next (done.dmaResume ch)
  else .next s

/-- DMA_RESUME (R422): a channel that the device itself holds stays PAUSED (R424). -/
def execDmaResume (ch : Fin 128) (s : State) : Host.Outcome State Fault Refusal :=
  let s := s.putBit (Reg.QDM_CH_CTL ch) 1 false
  if s.dmaHolds ch then .next s
  else if s.resumeBad ch then .fault (.undefinedOutcome 609)
  else .next (s.dmaResume ch)

/-- A write into the MSI-X table of an endpoint, as the PCI Express specification defines it: whole dwords (R436). -/
def State.msixWrite (s : State) (n ofs : Nat) (data : List (BitVec 8)) : State :=
  if (data.length = 4 ∨ data.length = 8) ∧ ofs % data.length = 0 then
    let f := s.epFn n
    let v := ofs / 16
    let e := f.vector v
    let old := leBytes 8 e.addr ++ leBytes 4 e.data ++ leBytes 4 (b2n e.masked)
    let new := old.take (ofs % 16) ++ data ++ old.drop (ofs % 16 + data.length)
    let e := { addr := ofLe (new.take 8), data := ofLe ((new.drop 8).take 4),
               masked := (ofLe (new.drop 12)).testBit 0 : MsixVec }
    (s.setEp n { f with table := (v, e) :: f.table.filter fun x => x.1 != v }).flushMsix n
  else s

/-- A BAR4 write (R416, R436): an aligned one of 8 bytes below 0x8000 is a doorbell, any other there is discarded and
counted; the MSI-X table follows; the pending array is read only. -/
def execBar4Write (n : Fin 4) (off : Fin 65536) (data : List (BitVec 8)) (s : State) :
    Host.Outcome State Fault Refusal :=
  if !(s.epServes n) then .next s
  else if off.val < 0x8000 then
    if off.val % 8 = 0 ∧ data.length = 8 then
      let w := BitVec.ofNat 64 (ofLe data)
      if s.doorbellUndefined w ≠ 0 then .fault (.undefinedOutcome (s.doorbellUndefined w)) else .next (s.doorbell w)
    else .next (s.bumpSat (Reg.PCI_EP_BAD_ACC n) 32)
  else .next (if off.val < 0xC000 then s.msixWrite n (off.val - 0x8000) data else s)

end Sys2Proof.Machine
end

