-- ==== Sys2Proof/Machine/CycleBase.lean ====
section
/-! DEFINITION. Times from cycle coordinates (R346), and spans of device time counted in SYS ticks of
the present clock. -/

namespace Sys2Proof.Machine

/-- A number of SYS ticks in FRAC units: bypass ticks while SYS runs from its bypass clock (R372). -/
def State.ticks (s : State) (n : Nat) : Nat :=
  if s.pllLocked 0 then n * 4096
  else
    let p := s.bypassPeriod
    n * p.1 / p.2

/-- The SYS clock cycle that holds a time, by the edge at which it begins (R495): now's, for a time not past. -/
def State.tickOf (s : State) (t : Nat) : Nat :=
  let d := (timeDiff s.time t).toNat
  timeAdd s.time (-(s.ticks ((d + s.lastTick - 1) / max 1 s.lastTick) : Int))

/-- The first SYS edge at or after a time (R362, R495). -/
def State.sysFrom (s : State) (t : Nat) : Nat :=
  let d := timeDiff t s.time
  let n := (d.natAbs + (if 0 < d then s.lastTick - 1 else 0)) / max 1 s.lastTick
  timeAdd s.time (if 0 < d then (s.ticks n : Int) else -(s.ticks n : Int))

/-- The SYS clock cycle as a fraction of FRAC units (R495). -/
def State.sysPeriod (s : State) : Nat × Nat := if s.pllLocked 0 then (4096, 1) else s.bypassPeriod

/-- The difference of two times in 2^-16 FRAC unit, modulo 2^76. -/
def diff76 (a b : Nat) : Int :=
  let n := 2 ^ 76
  let d := (a + n - b % n) % n
  if d < n / 2 then (d : Int) else (d : Int) - n

/-- A time in 2^-16 FRAC unit moved by a signed amount. -/
def add76 (a : Nat) (d : Int) : Nat := (((a : Int) + d) % (2 ^ 76 : Int)).toNat

/-- The distance from cycle `b` to cycle `a` in the order of CC64 values (R6). -/
def cycDelta (a b : Nat) : Int :=
  let n := 2 ^ 48
  let d := (a + n - b % n) % n
  if d < n / 2 then (d : Int) else (d : Int) - n

/-- How far T(m + frac / 65,536) lies past the start of the newest cycle, in 2^-16 FRAC unit (R346): of a cycle the
tracker has placed or predicts. -/
def State.coordOffset (s : State) (m frac : Nat) : Option Int :=
  match s.ccs.cycles with
  | [] => none
  | c :: _ =>
    let d := cycDelta m c.m
    if 0 ≤ d then some (d * c.period + frac * c.period / 65536)
    else match s.ccs.cycles.find? fun x => cycDelta m x.m == 0 with
      | some x => some (diff76 x.start c.start + frac * x.period / 65536)
      | none =>
        -- A cycle before the oldest one kept: its period is that one's.
        s.ccs.cycles.getLast?.map fun x =>
          diff76 x.start c.start + cycDelta m x.m * x.period + frac * x.period / 65536

/-- T(m + frac / 65,536) in 2^-16 FRAC unit. -/
def State.coordTime (s : State) (m frac : Nat) : Option Nat :=
  match s.ccs.cycles with
  | [] => none
  | c :: _ => (s.coordOffset m frac).map fun d => add76 c.start d

/-- Device time has reached T(m + frac / 65,536) as a TS64, in the order of R6, or comes within `lead` of it. -/
def State.coordReached (s : State) (m frac lead : Nat) : Bool :=
  match s.ccs.cycles with
  | [] => false
  | c :: _ => (s.coordOffset m frac).any fun d => decide (d < diff16 s.time c.start + (lead + 1) * 65536)

/-- A time in 2^-16 FRAC unit as device time. -/
def time16 (x : Nat) : Nat := x / 65536 % timeMod

/-- The first cycle that begins at or after a time. -/
def State.cycleFrom (s : State) (t : Nat) : Option Nat :=
  match s.ccs.cycles with
  | [] => none
  | c :: r =>
    if 0 < diff16 t c.start then
      some ((c.m + ((diff16 t c.start).toNat + c.period - 1) / max 1 c.period) % 2 ^ 48)
    else
      let later := (c :: r).filter fun x => decide (diff16 t x.start ≤ 0)
      (later.getLast?).map (·.m)

/-- The cycle whose point EXPECT lies nearest a time, a tie going to the lower one, with the distance
in 2^-16 FRAC unit (R331). -/
def State.nearestCycle (s : State) (t expect : Nat) : Option (Nat × Int) :=
  match cycleOf s.ccs.cycles t with
  | none => none
  | some c =>
    let m := if c.period = 0 then c.m else c.m + (diff16 t c.start).toNat / c.period
    let cand := [(m + 2 ^ 48 - 1) % 2 ^ 48, m % 2 ^ 48, (m + 1) % 2 ^ 48].filterMap fun n =>
      (s.coordTime n expect).map fun x => (n, diff16 t x)
    cand.foldl (fun best x =>
      match best with
      | none => some x
      | some b => if x.2.natAbs < b.2.natAbs then some x else some b) none

end Sys2Proof.Machine
end

