-- ==== Sys2Proof/Machine/Supply.lean ====
section
/-! DEFINITION. Supply converters and window monitors (R359-R377). Units 0 to 15 are the SAR groups,
16 to 19 the integrating converters. -/

namespace Sys2Proof.Machine

/-! ### Units and their entries (R373-R375) -/

/-- A unit beyond its entries. -/
def State.supu (s : State) (u : Nat) : SupUnit := if h : u < 20 then s.sups[u] else default

/-- Replaces a unit. -/
def State.setSup (s : State) (u : Nat) (x : SupUnit) : State :=
  if h : u < 20 then { s with sups := s.sups.set u x } else s

/-- The entries of a unit. -/
def supCtl (u : Nat) : Nat := if u < 16 then Reg.SUP_G_CTL u else Reg.SUP_IC_CTL (u - 16)
def supCfg (u : Nat) : Nat := if u < 16 then Reg.SUP_G_CFG u else Reg.SUP_IC_CFG (u - 16)
def supSts (u : Nat) : Nat := if u < 16 then Reg.SUP_G_STS u else Reg.SUP_IC_STS (u - 16)
def supDelay (u : Nat) : Nat := if u < 16 then Reg.SUP_G_DELAY u else Reg.SUP_IC_DELAY (u - 16)
def supTimer (u : Nat) : Nat := if u < 16 then Reg.SUP_G_TIMER u else Reg.SUP_IC_TIMER (u - 16)
def supPw (u : Nat) : Nat := if u < 16 then Reg.SUP_G_PW u else Reg.SUP_IC_PW (u - 16)
def supOverrun (u : Nat) : Nat := if u < 16 then Reg.SUP_G_OVERRUN u else Reg.SUP_IC_OVERRUN (u - 16)

/-- SRC, PW_INPUT and PW_POL of a unit. -/
def State.supSrc (s : State) (u : Nat) : Nat :=
  if u < 16 then s.fld (supCfg u) 6 5 else s.fld (supCfg u) 11 10
def State.supPwInput (s : State) (u : Nat) : Nat :=
  if u < 16 then s.fld (supCfg u) 12 7 else s.fld (supCfg u) 17 12
def State.supPwPol (s : State) (u : Nat) : Bool :=
  if u < 16 then s.bit (supCfg u) 13 else s.bit (supCfg u) 18

/-- STATE of a unit (R374): 0 OFF, 1 IDLE, 2 WAIT, 3 CONVERT. -/
def State.supState (s : State) (u : Nat) : Nat := s.fld (supSts u) 1 0

/-- Sets STATE. -/
def State.setSupState (s : State) (u x : Nat) : State := s.setFld (supSts u) 1 0 x

/-- A sequence entry. -/
def State.supEntry (s : State) (g e : Nat) : BitVec 64 := s.rd (Reg.SUP_SEQ g e)

/-- The steps of a group's sequence, as lists of entry numbers. -/
def State.supSteps (s : State) (g : Nat) : List (List Nat) :=
  (List.range (s.fld (supCfg g) 4 0 + 1)).foldl (fun steps e =>
    match steps.reverse with
    | last :: front =>
      if bitAt (s.supEntry g e) 6 then (front.reverse ++ [last ++ [e]]) else steps ++ [[e]]
    | [] => [[e]]) []

/-- CONV of an entry. -/
def State.supConv (s : State) (g e : Nat) : Nat := getF (s.supEntry g e) 3 0

/-- The converters of a group's sequence. -/
def State.supConvs (s : State) (g : Nat) : List Nat :=
  (List.range (s.fld (supCfg g) 4 0 + 1)).map (s.supConv g)

/-- A calibration run holds a converter of the unit (R568). -/
def State.supCal (s : State) (u : Nat) : Bool :=
  if u < 16 then (s.supConvs u).any s.calHolds else s.calHolds u

/-! ### Triggers (R362-R365) -/

/-- A trigger starts a sequence or window that goes no earlier than `least`; the second answer says
that it slipped. (DEDUCED, log entry 38.) -/
def State.supGoAt (s : State) (u t least : Nat) : Nat × Bool :=
  let go := s.sysFrom (timeAdd t (s.ticks (s.fld (supDelay u) 23 0)))
  if later least go then (least, true) else (go, false)

/-- SYS runs, and with it converters and monitors; DOZE and lower states stop it (R372, R490). -/
def State.supRuns (s : State) : Bool := s.pllState 0 != 0

/-- A trigger whose time falls in the SYS tick of another counts as that one (R362). -/
def State.supSame (s : State) (u t : Nat) : Bool :=
  (s.supu u).ticks.any fun a => decide (2 * (timeDiff a (s.tickOf t)).natAbs < s.lastTick)

/-- A trigger with its trigger time (R362, R364). One whose go time has passed slips (R363). A unit that runs
continuously takes none (R365), nor does one that DOZE stops (R372). -/
def State.supTrigger (s : State) (u : Nat) (t : Stamp) : State :=
  let st := s.supState u
  if st = 0 ∨ s.supSrc u = 3 ∨ !s.supRuns ∨ s.supSame u t.t then s
  else
    let x := s.supu u
    let x := { x with ticks := s.tickOf t.t :: x.ticks.filter fun a => decide (timeDiff s.time a ≤ (usec 1000 : Int)) }
    let s := s.setSup u x
    if st = 1 ∧ !s.supCal u then
      let (go, slipped) := s.supGoAt u t.t s.time
      let s := (s.setSup u { x with trig := t, go := go }).setSupState u 2
      if slipped then s.putBit (supSts u) 3 true else s
    else if x.pend.isNone then
      (s.setSup u { x with pend := some t }).putBit (supSts u) 2 true
    else
      (s.bumpSat (supOverrun u) 32).latchRaise (supSts u) 4 (if u < 16 then 688 + u else 708 + (u - 16))

/-- The running sequence or window has ended at a time: a pending trigger starts the next (R364). -/
def State.supEnd (s : State) (u at' : Nat) : State :=
  let x := s.supu u
  match x.pend with
  | some t =>
    let (go, slipped) := s.supGoAt u t.t at'
    let s := s.setSup u { x with trig := t, pend := none, go := go, start := none, ending := none }
    let s := (s.putBit (supSts u) 2 false).setSupState u 2
    if slipped then s.putBit (supSts u) 3 true else s
  | none => (s.setSup u { x with start := none, ending := none }).setSupState u 1

/-- A continuous unit begins at a time (R365), once no calibration run holds it (R568). -/
def State.supContinue (s : State) (u at' : Nat) : State :=
  if s.supCal u then s.setSupState u 1
  else (s.setSup u { s.supu u with trig := s.stampAt at', go := at', start := none, ending := none }).setSupState u 2

/-- A calibration run has let go of a unit's converters: what waited for it goes ahead (R364, R568). -/
def State.supFreed (s : State) (u : Nat) : State :=
  if s.supState u = 1 ∧ !s.supCal u then
    if s.supSrc u = 3 then s.supContinue u s.time
    else if (s.supu u).pend.isSome then s.supEnd u s.time
    else s
  else s

/-- A window is abandoned with a cause (R367). -/
def State.supAbandon (s : State) (u cause : Nat) : State :=
  let s := (s.putBit (supSts u) 5 true).setFld (supSts u) 7 6 cause
  s.raise (712 + (u - 16))

/-- What follows an abandoned window. -/
def State.supAfter (s : State) (u : Nat) : State :=
  if s.supSrc u = 3 then s.supContinue u s.time else s.supEnd u s.time

/-- What is running stops, and triggers are dropped (R372). -/
def State.supStop (s : State) (u : Nat) : State :=
  let st := s.supState u
  let s := if st = 3 then
      if u < 16 then s.putBit (supSts u) 5 true else s.supAbandon u 3
    else s
  let x := s.supu u
  let s := s.setSup u { x with
    pend := none, pulse := none, ticks := [], steps := [], start := none, ending := none }
  s.putBit (supSts u) 2 false

/-- The tracker leaves lock: CYCLES windows are abandoned (R367). -/
def State.supNoLock (s : State) : State :=
  (List.range 4).foldl (fun s i =>
    let u := 16 + i
    if s.supState u = 3 ∧ s.fld (supCfg u) 7 6 = 1 then (s.supAbandon u 2).supAfter u else s) s

/-- A stamped edge of a TI input reaches the pulse triggers (R363): the time of the closing stamp is
the trigger time. -/
def State.supStamp (s : State) (ti : Nat) (falling : Bool) (t : Stamp) : State :=
  (List.range 20).foldl (fun s u =>
    if s.supState u ≠ 0 ∧ s.supSrc u = 2 ∧ s.supPwInput u = ti then
      let x := s.supu u
      if falling = s.supPwPol u then s.setSup u { x with pulse := some t.t }
      else match x.pulse with
        | none => s
        | some t0 =>
          let s := s.setSup u { x with pulse := none }
          let d := timeDiff t.t t0
          let pw := s.rd (supPw u)
          if (getF pw 31 0 * 4096 : Int) ≤ d ∧ d ≤ (getF pw 63 32 * 4096 : Int) then s.supTrigger u t
          else s
    else s) s

/-- A TI input's streams are stamped for a pulse trigger (R363). -/
def State.supWatches (s : State) (ti : Nat) : Bool :=
  (List.range 20).any fun u => s.supState u != 0 && s.supSrc u == 2 && s.supPwInput u == ti

/-! ### Sequences (R360, R361, R366) -/

/-- The rule that gives no outcome to a unit's configuration, 0 where none does: two entries of one step name one
converter, or a converter of another enabled group (R360); WINDOW 3 (R367); a value reserved or out of range
(R609). -/
def State.supUndefined (s : State) (u : Nat) : Nat :=
  if s.supSrc u = 1 ∧ s.fld (supTimer u) 31 0 < 7500 then 609
  else if u < 16 then
    if (s.supSteps u).any (fun st => !(st.map (s.supConv u)).Nodup) ||
      (List.range 16).any (fun g =>
        g != u && s.supState g != 0 && (s.supConvs g).any fun c => (s.supConvs u).contains c) then 360
    else 0
  else if s.fld (supCfg u) 7 6 = 3 then 367
  else if s.fld (supCfg u) 9 8 = 3 ∨ s.rdN (Reg.SUP_IC_LEN (u - 16)) = 0 then 609
  else 0

/-- The SAR code of a voltage in microvolts (R359). (DEDUCED, log entry 38.) -/
def sarCode (uv : Int) : Nat := (clampI 0 4095 (floorDiv uv 500)).toNat

/-- The integrating code of a mean voltage in nanovolts (R359). (DEDUCED, log entry 38.) -/
def icCode (nv : Int) : Nat := (clampI 0 (2 ^ 24 - 1) (floorDiv (nv * 2 ^ 24) 2048000000)).toNat

/-- The supply input that an entry's converter takes (R359). -/
def State.supInput (s : State) (g e : Nat) : Nat := 4 * s.supConv g e + getF (s.supEntry g e) 5 4

/-- The codes of a step's entries, from the voltages at the supply inputs in microvolts; none where an entry's
input is not among them. -/
def State.stepCodes (s : State) (g : Nat) (volts : List (Fin 64 × Int)) (es : List Nat) :
    Option (List (Nat × Nat)) :=
  es.mapM fun e => (volts.find? fun v => v.1.val == s.supInput g e).map fun v => (e, sarCode v.2)

/-- The entries of the next step. -/
def State.nextStep (s : State) (g : Nat) : List Nat :=
  let steps := s.supSteps g
  steps.getD ((s.supu g).k % max 1 steps.length) []

/-- A SAR converter of a running group is powered (R361): from 2 µs before each of its conversions, for its start-up,
to the end of that conversion; one that converts again within two steps so stays powered. -/
def State.sarPowered (s : State) (c : Nat) : Bool :=
  (List.range 16).any fun g =>
    let x := s.supu g
    let steps := s.supSteps g
    s.supState g == 3 && (List.range 7).any fun i =>
      let j := x.k + i - 3
      let at' := timeAdd x.next (((j : Int) - x.k) * s.ticks 2500)
      decide (3 ≤ x.k + i) && (s.supSrc g == 3 || decide (j < steps.length)) &&
        ((steps.getD (j % max 1 steps.length) []).any fun e => s.supConv g e == c) &&
        atOrAfter s.time (timeAdd at' (-(s.ticks 5000 : Int))) && later (timeAdd at' (s.ticks 2500)) s.time

/-- A converter is powered: an integrating one while it is enabled (R361, R367). -/
def State.converterPowered (s : State) (u : Nat) : Bool :=
  if u < 16 then s.sarPowered u else s.supRuns && s.supState u != 0

/-- The next step of a running group samples (R361), with its entries' codes. A sequence keeps the number that it
took at its beginning (R366). -/
def State.sampleStep (s : State) (g : Nat) (codes : List (Nat × Nat)) : State :=
  let x := s.supu g
  let n := (s.supSteps g).length
  let i := x.k % max 1 n
  let first := decide (i = 0)
  let next := first && decide (0 < x.k)
  let s := if next then s.bump (Reg.SUP_G_STARTED g) 32 else s
  let seq := if next then s.rdN (Reg.SUP_G_STARTED g) else x.seq
  let zero := if first then s.stampAt x.next true else x.zero
  let rec' : SupStep := {
    step := i, last := decide (i + 1 = n), seq := seq, zero := zero,
    ends := timeAdd x.next (s.ticks 2500), degraded := !s.pllLocked 0, codes := codes }
  s.setSup g { x with
    k := x.k + 1, next := timeAdd x.next (s.ticks 2500), seq := seq, zero := zero, steps := x.steps ++ [rec'] }

/-- A step is due: steps remain and its time has come. -/
def State.stepDue (s : State) (g : Nat) : Bool :=
  let x := s.supu g
  s.supRuns && s.supState g == 3 && (s.supSrc g == 3 || decide (x.k < (s.supSteps g).length)) && atOrAfter s.time x.next

/-- Results of a step (R366). -/
def State.writeResults (s : State) (g : Nat) (x : SupStep) : State :=
  x.codes.foldl (fun s e =>
    s.wrN (Reg.SUP_RESULT g e.1)
      (e.2 + x.step * 2 ^ 12 + b2n x.degraded * 2 ^ 17 + x.seq % 256 * 2 ^ 24)) s

/-- The end of a sequence (R366). -/
def State.sequenceEnd (s : State) (g : Nat) (x : SupStep) : State :=
  let s := s.wr (Reg.SUP_G_TS g) x.zero.word
  let s := s.wr (Reg.SUP_G_CC g) (s.ccAt x.zero.t)
  let s := s.wrN (Reg.SUP_G_DONE_SEQ g) x.seq
  let s := if s.bit (supCtl g) 2 then s.raise (672 + g) else s
  if s.supSrc g = 3 then s else s.supEnd g x.ends

/-! ### Windows (R367, R368) -/

/-- WINDOW of an integrating converter, and whether it runs between LINE_SYNC edges. -/
def State.icWindow (s : State) (u : Nat) : Nat := s.fld (supCfg u) 7 6
def State.icLine (s : State) (u : Nat) : Bool := s.icWindow u == 0 && s.fld (supCfg u) 9 8 == 0

/-- The end of a window that begins at a time (R367): none while a LINE_SYNC edge decides. -/
def State.windowEnd (s : State) (u m t : Nat) : Option Nat :=
  let len := s.rdN (Reg.SUP_IC_LEN (u - 16))
  match s.icWindow u with
  | 0 =>
    match s.fld (supCfg u) 9 8 with
    | 0 => none
    | 1 => some (timeAdd t (s.ticks 50000000))
    | _ => some (timeAdd t (s.ticks 41666667))
  | 1 => (s.coordTime (m + len) 0).map time16
  | _ => some (timeAdd t (s.ticks len))

/-- The start of cycle `m` as the loop places it now, and whether it has begun (R346). -/
def State.cycleStart (s : State) (m : Nat) : Option (Stamp × Bool) :=
  (s.coordTime m 0).map fun t => (s.stampAt (time16 t), s.ccs.cycles.head?.any fun c => decide (0 ≤ cycDelta c.m m))

/-- The window of cycles from `m` on begins (R367). -/
def State.cyclesFrom (s : State) (u m : Nat) : State :=
  let x := s.supu u
  let (t, begun) := (s.cycleStart m).getD (s.stampAt x.go, false)
  (s.setSup u { x with start := some t, ending := s.windowEnd u m t.t, cyc := m, begun := begun }).setSupState u 3

/-- A window's start: that of a CYCLES window follows the loop's estimate until its first cycle has begun (R346,
R367). -/
def State.windowStart (s : State) (u : Nat) : Option Stamp :=
  let x := s.supu u
  if s.icWindow u = 1 ∧ x.start.isSome ∧ !x.begun then ((s.cycleStart x.cyc).map (·.1)).or x.start else x.start

/-- A cycle has begun: CYCLES windows whose first it is begin with it (R346, R367). -/
def State.supCycles (s : State) : State :=
  (List.range 4).foldl (fun s i =>
    let x := s.supu (16 + i)
    if s.supState (16 + i) = 3 ∧ s.icWindow (16 + i) = 1 ∧ x.start.isSome ∧ !x.begun then
      match s.cycleStart x.cyc with
      | some (t, true) => s.setSup (16 + i) { x with start := some t, begun := true }
      | _ => s
    else s) s

/-- When the window ends: a CYCLES window by the loop's present estimate (R346, R367). -/
def State.windowEnding (s : State) (u : Nat) : Option Nat :=
  let x := s.supu u
  if s.icWindow u = 1 ∧ x.ending.isSome then s.windowEnd u x.cyc 0 else x.ending

/-- A window begins at T_go (R367). -/
def State.windowGo (s : State) (u : Nat) : State :=
  let x := s.supu u
  let s := s.setSupState u 3
  if s.icLine u then s.setSup u { x with start := none, ending := none, since := x.go }
  else if s.icWindow u = 1 then
    if !s.ccLocked then (s.supAbandon u 2).supAfter u
    else match s.cycleFrom x.go with
      | some m => s.cyclesFrom u m
      | none => (s.supAbandon u 2).supAfter u
  else s.setSup u { x with start := some (s.stampAt x.go), ending := s.windowEnd u 0 x.go }

/-- A window has ended and is written (R368). -/
def State.windowDone (s : State) (u : Nat) (t0 : Stamp) (t1 : Nat) (nv : Int) : State :=
  let i := u - 16
  let s := s.bump (Reg.SUP_IC_GEN i) 32
  let s := s.wrN (Reg.SUP_IC_RESULT i) (icCode nv + s.rdN (Reg.SUP_IC_GEN i) % 256 * 2 ^ 24)
  let s := s.wr (Reg.SUP_IC_START_TS i) t0.word
  let s := s.wr (Reg.SUP_IC_END_TS i) (s.stampAt t1).word
  let s := s.wr (Reg.SUP_IC_START_CC i) (s.ccAt t0.t)
  let s := if s.bit (supCtl u) 2 then s.raise (704 + i) else s
  if s.supSrc u = 3 then
    let m := ((s.supu u).cyc + s.rdN (Reg.SUP_IC_LEN i)) % 2 ^ 48
    let s := s.supContinue u t1
    if s.supState u ≠ 2 then s
    else if s.icLine u then
      (s.setSup u { s.supu u with start := some (s.stampAt t1), since := t1 }).setSupState u 3
    else if s.icWindow u = 1 then s.cyclesFrom u m
    else s
  else s.supEnd u t1

/-! ### Window monitors (R369-R371) -/

/-- Microseconds of a monitor tick, and monitor ticks of a period. -/
def State.monTick (s : State) : Nat := s.fld Reg.CMP_MON_TICK 15 0
def State.monPeriod (s : State) : Nat := s.fld Reg.CMP_MON_TICK 31 16 + 1

/-- The time of monitor tick `n`, in microseconds of device time (R369). (DEDUCED, log entry 38.) -/
def State.monTime (s : State) (base n : Nat) : Nat := timeAdd base (usec (s.monTick * n))

/-- A monitor is enabled. -/
def State.monOn (s : State) (w : Nat) : Bool := s.bit (Reg.CMP_MON_CTL w) 0

/-- ENABLE of a monitor has been written (R369, R370). -/
def State.monEnable (s : State) (w : Nat) (was : Bool) : State :=
  if s.monOn w then
    if was then s
    else
      let s := s.setFld (Reg.CMP_MON_STS w) 1 0 0
      if s.mon.base.isNone then
        { s with mon := { base := some s.time, ticks := 0, periods := 0, watch := 0, tickAt := s.time } }
      else s
  else
    let m := { s.mon with watch := s.mon.watch - (s.mon.watch &&& 2 ^ w) }
    let m := if (List.range 16).any s.monOn then m else { m with base := none }
    { s with mon := m }

/-- What a comparator of a monitor does while it is powered: output above, and UNDET (R314). -/
structure MonComp where
  above : Bool
  undet : Bool
  deriving DecidableEq, Repr

/-- A comparator is powered with a first level: it is above from `hi` on, below under `lo`, and undetermined, with
its output forced to below, between (R314). Levels are in microvolts. -/
def MonComp.start (lo hi v : Int) : MonComp := ⟨decide (hi ≤ v), decide (lo ≤ v ∧ v < hi)⟩

/-- The next level that its input takes. -/
def MonComp.step (lo hi : Int) (c : MonComp) (v : Int) : MonComp :=
  if hi ≤ v then ⟨true, false⟩ else if v < lo then ⟨false, false⟩ else c

/-- The comparator's states in the watch, first the one it brings out of settling. -/
def monRun (lo hi : Int) (settle watch : List Int) : List MonComp :=
  let begin' := match settle with
    | [] => MonComp.start lo hi (watch.headD 0)
    | v :: r => r.foldl (MonComp.step lo hi) (MonComp.start lo hi v)
  watch.foldl (fun cs v => cs ++ [MonComp.step lo hi (cs.getLast?.getD begin') v]) [begin']

/-- The result of a sample (R369) from the levels of its input during settling and watch, in microvolts: HIGH,
LOW and UNDET. One comparator stands at LO less half of HYST, the other at HI plus half of HYST, each with
hysteresis HYST. -/
def State.monResult (s : State) (w : Nat) (settle watch : List Int) : Bool × Bool × Bool :=
  let thr := s.rd (Reg.CMP_MON_THR w)
  let lo : Int := getF thr 11 0
  let hi : Int := getF thr 23 12
  let hyst : Int := getF thr 28 24
  let high := monRun (500 * hi) (500 * (hi + hyst)) settle watch
  let low := monRun (500 * (lo - hyst)) (500 * lo) settle watch
  let undet := fun (cs : List MonComp) => (cs.getLast?.map (·.undet)).getD false
  (high.any fun c => !c.undet && c.above, low.any fun c => !c.undet && !c.above, undet high || undet low)

/-- A VIOL bit is set, and its event raised when it was 0 (R371). -/
def State.monViolate (s : State) (w bit' : Nat) : State :=
  let k := Reg.CMP_MON_STS w
  let s := s.wr (Reg.CMP_MON_LAST_TS w) (s.stampAt s.mon.tickAt).word
  if s.bit k bit' then s
  else
    let s := s.putBit k bit' true
    if s.bit (Reg.CMP_MON_CTL w) 1 then s.raise (624 + w) else s

/-- The sample of a watch (R369-R371): what the two comparators did in it. -/
def State.monSample (s : State) (w : Nat) (high low undet : Bool) : State :=
  let k := Reg.CMP_MON_STS w
  let m := { s.mon with watch := s.mon.watch - (s.mon.watch &&& 2 ^ w) }
  let s := { s with mon := m }
  if !high && !low && undet then
    if s.fld k 1 0 = 0 then s else s.bumpSat (Reg.CMP_MON_UNDET_COUNT w) 32
  else
    let s := if s.fld k 1 0 = 0 then s.raise (640 + w) else s
    let s := s.setFld k 1 0 (if high then 3 else if low then 2 else 1)
    if high then (s.bumpSat (Reg.CMP_MON_HIGH_COUNT w) 32).monViolate w 3
    else if low then (s.bumpSat (Reg.CMP_MON_LOW_COUNT w) 32).monViolate w 2
    else s

/-- A monitor period begins (R371). -/
def State.monPeriodStart (s : State) : State :=
  let s := { s with mon := { s.mon with periods := s.mon.periods + 1 } }
  (List.range 16).foldl (fun s w =>
    if s.monOn w then
      let k := Reg.CMP_MON_STS w
      ((s.setFld k 5 4 (s.fld k 3 2)).setFld k 3 2 0)
    else s) s

/-! ### Power (R372) -/

/-- Entry to DOZE or a lower state. -/
def State.supSleep (s : State) : State :=
  let s := (List.range 20).foldl (fun s u =>
    if s.supState u = 0 then s else (s.supStop u).setSupState u 1) s
  { s with mon := { s.mon with watch := 0 } }

/-- The monitor ticks, or periods, of a span that have begun by now (R369, R371). -/
def State.monBegun (s : State) (base span : Nat) : Nat := (timeDiff s.time base).toNat / max 1 (usec span) + 1

/-- Exit from DOZE: continuous units begin again, timers go on, monitors restart at UNDET with the next tick of the
grid that the first monitor enable began (R369, R371). (DEDUCED, log entry 38.) -/
def State.supWakeUp (s : State) : State :=
  let s := (List.range 20).foldl (fun s u =>
    if s.supState u = 0 then s
    else if s.supSrc u = 3 then s.supContinue u s.time
    else s.setSup u { s.supu u with timerAt := timeAdd s.time (s.ticks (s.fld (supTimer u) 31 0)) }) s
  let s := match s.mon.base with
    | some b =>
      { s with mon := { s.mon with
        ticks := s.monBegun b s.monTick, periods := s.monBegun b (s.monTick * s.monPeriod) } }
    | none => s
  (List.range 16).foldl (fun s w => s.setFld (Reg.CMP_MON_STS w) 1 0 0) s

/-- A time still to come, counted in SYS ticks of the period `was`, in ticks of the present clock (R372). -/
def State.reTick (s : State) (was : Nat × Nat) (t : Nat) : Nat :=
  let p := s.sysPeriod
  if later t s.time then timeAdd s.time (timeDiff t s.time * (p.1 * was.2) / max 1 (p.2 * was.1)) else t

/-- SYS changes to another clock than one of period `was`: what counts in ticks goes on at the new rate (R372).
(DEDUCED, log entry 38.) -/
def State.supRate (s : State) (was : Nat × Nat) : State :=
  if s.sysPeriod.1 * was.2 = s.sysPeriod.2 * was.1 then s
  else
    let f := s.reTick was
    { s with sups := s.sups.map fun x => { x with
        go := f x.go, timerAt := f x.timerAt, next := f x.next, ending := x.ending.map f
        steps := x.steps.map fun y => { y with ends := f y.ends } } }

/-- The converters' and monitors' times move with a step of device time (R478). -/
def State.supMove (s : State) (f : Nat → Nat) : State :=
  { s with
    sups := s.sups.map fun x => { x with
      pend := x.pend.map fun t => { t with t := f t.t }
      ticks := x.ticks.map f, go := f x.go, timerAt := f x.timerAt, pulse := x.pulse.map f
      next := f x.next, steps := x.steps.map fun y => { y with ends := f y.ends }
      ending := x.ending.map f, since := f x.since }
    mon := { s.mon with base := s.mon.base.map f, tickAt := f s.mon.tickAt } }

/-- What entry to BANKED or a lower state takes: ENABLE is 0 everywhere. -/
def State.supLose (s : State) : State :=
  let s := (List.range 20).foldl (fun s u =>
    ((s.setSup u default).setSupState u 0).putBit (supCtl u) 0 false) s
  let s := (List.range 16).foldl (fun s w => s.putBit (Reg.CMP_MON_CTL w) 0 false) s
  { s with mon := default }

/-! ### The commands -/

/-- A write of a unit's ENABLE (R365, R372). -/
def execSupEnable (u : Fin 20) (on : Bool) (s : State) : Host.Outcome State Fault Refusal :=
  if on && s.parityStopped (supCtl u) then .next s
  else
    let s := if on then s else s.parityFree (supCtl u)
    if on ∧ s.supState u = 0 then
      if s.supUndefined u ≠ 0 then .fault (.undefinedOutcome (s.supUndefined u))
      else .next (
        let s := (s.putBit (supCtl u) 0 true).setSupState u 1
        let s := s.setSup u { (default : SupUnit) with
          timerAt := timeAdd s.time (s.ticks (s.fld (supTimer u) 31 0)) }
        if s.supSrc u = 3 ∧ s.supRuns then s.supContinue u s.time else s)
    else if on then .next s
    else .next (
      if s.supState u = 0 then s
      else ((s.supStop u).putBit (supCtl u) 0 false).setSupState u 0)

/-- TRIGGER := 1 (R362). -/
def execSupTrigger (u : Fin 20) (s : State) : Host.Outcome State Fault Refusal :=
  .next (s.supTrigger u s.now)

/-- The timer of SRC = 1 expires (R362). -/
def execSupTimer (u : Fin 20) (s : State) : Host.Outcome State Fault Refusal :=
  .next (
    let x := s.supu u
    if s.supRuns ∧ s.supState u ≠ 0 ∧ s.supSrc u = 1 ∧ atOrAfter s.time x.timerAt then
      let s := s.setSup u { x with
        timerAt := timeAdd x.timerAt (s.ticks (s.fld (supTimer u) 31 0)) }
      s.supTrigger u (s.stampAt x.timerAt)
    else s)

/-- T_go (R361, R366, R367). (DESIGN CHOICE, log entry 6.) -/
def execSupGo (u : Fin 20) (s : State) : Host.Outcome State Fault Refusal :=
  .next (
    let x := s.supu u
    if s.supRuns ∧ s.supState u = 2 ∧ atOrAfter s.time x.go then
      if u.val < 16 then
        let s := s.bump (Reg.SUP_G_STARTED u) 32
        let s := s.wr (Reg.SUP_G_TRIG_TS u) x.trig.word
        (s.setSup u { x with
          k := 0, steps := [], seq := s.rdN (Reg.SUP_G_STARTED u), next := timeAdd x.go (s.ticks 5000) }).setSupState u 3
      else s.windowGo u
    else s)

/-- A step samples (R361): the voltages at the supply inputs, in microvolts, less their converters' sense
returns. -/
def execSarStep (g : Fin 16) (volts : List (Fin 64 × Int)) (s : State) : Host.Outcome State Fault Refusal :=
  .next (
    match s.stepCodes g volts (s.nextStep g) with
    | some codes => if s.stepDue g then s.sampleStep g codes else s
    | none => s)

/-- The conversions of the oldest sampled step end (R361, R366). -/
def execSarConversionEnd (g : Fin 16) (s : State) : Host.Outcome State Fault Refusal :=
  .next (
    let x := s.supu g
    match x.steps with
    | st :: r =>
      if s.supState g = 3 ∧ atOrAfter s.time st.ends then
        let s := (s.setSup g { x with steps := r }).writeResults g st
        if st.last then s.sequenceEnd g st else s
      else s
    | [] => s)

/-- A LINE_SYNC rising edge starts or ends LINE windows (R367). -/
def execLineSyncEdge (s : State) : Host.Outcome State Fault Refusal :=
  .next ((List.range 4).foldl (fun s i =>
    let u := 16 + i
    let x := s.supu u
    if s.supState u = 3 ∧ s.icLine u ∧ x.ending.isNone ∧ atOrAfter s.time x.since then
      match x.start with
      | none => s.setSup u { x with start := some s.now, since := s.time }
      | some _ => s.setSup u { x with ending := some s.time }
    else s) s)

/-- A window ends with the mean of the supply input it watches (R367, R368). -/
def execIcWindowEnd (i : Fin 4) (m : WindowMean) (s : State) : Host.Outcome State Fault Refusal :=
  .next (
    let u := 16 + i.val
    match s.windowStart u, s.windowEnding u with
    | some t0, some t1 =>
      if s.supState u = 3 ∧ atOrAfter s.time t1 ∧ s.fld (supCfg u) 5 0 = m.input.val then s.windowDone u t0 t1 m.nv
      else s
    | _, _ => s)

/-- No LINE_SYNC edge within 100 ms (R367). -/
def execIcNosync (i : Fin 4) (s : State) : Host.Outcome State Fault Refusal :=
  .next (
    let u := 16 + i.val
    let x := s.supu u
    if s.supState u = 3 ∧ s.icLine u ∧ x.ending.isNone ∧ s.passed x.since (msec 100) then
      (s.supAbandon u 1).supAfter u
    else s)

/-- A monitor tick powers the enabled monitors (R369), once the period that holds it has begun. -/
def execMonTick (s : State) : Host.Outcome State Fault Refusal :=
  if s.mon.base.isSome ∧ s.monTick < 2 then .fault (.undefinedOutcome 609)
  else .next (
    match s.mon.base with
    | none => s
    | some b =>
      let t := s.monTime b s.mon.ticks
      if atOrAfter s.time t ∧ s.mon.ticks < s.mon.periods * s.monPeriod ∧ s.supRuns then
        let w := ((List.range 16).filter s.monOn).foldl (fun m i => m + 2 ^ i) 0
        { s with mon := { s.mon with ticks := s.mon.ticks + 1, watch := w, tickAt := t } }
      else s)

/-- The watch of monitor `w` ends, 1 microsecond after its tick (R369): the levels that supply input `si` took
during settling and watch, in microvolts, in order. -/
def execMonSample (w : Fin 16) (si : Fin 64) (settle watch : List Int) (s : State) :
    Host.Outcome State Fault Refusal :=
  .next (
    if s.mon.watch.testBit w ∧ s.monOn w ∧ s.passed s.mon.tickAt (usec 1) ∧
        s.fld (Reg.CMP_MON_CFG w) 5 0 = si.val then
      let r := s.monResult w settle watch
      s.monSample w r.1 r.2.1 r.2.2
    else s)

/-- A monitor period begins (R371). -/
def execMonPeriodStart (s : State) : Host.Outcome State Fault Refusal :=
  .next (
    match s.mon.base with
    | none => s
    | some b =>
      if atOrAfter s.time (s.monTime b (s.mon.periods * s.monPeriod)) ∧ s.supRuns then
        s.monPeriodStart
      else s)

/-- A write of CMP_MON_THR (R370). -/
def execMonThrWrite (w : Fin 16) (v : BitVec 32) (s : State) : Host.Outcome State Fault Refusal :=
  .next ((s.wrN (Reg.CMP_MON_THR w) (v.toNat % 2 ^ 29)).setFld (Reg.CMP_MON_STS w) 1 0 0)

end Sys2Proof.Machine
end

