-- ==== Sys2Proof/Machine/Cycle.lean ====
section
/-! DEFINITION. The cycle tracker and the waypoint scheduler (R343-R358). -/

namespace Sys2Proof.Machine

/-! ### The tracker (R343-R349) -/

/-- STATE of the tracker (R344): 0 OFF, 1 SEEK, 2 WAIT_ORIGIN, 3 TRACK, 4 HOLDOVER. -/
def State.ccsState (s : State) : Nat := s.fld Reg.CCS_STS 2 0

/-- Sets STATE and LOCKED. -/
def State.setCcsState (s : State) (x : Nat) : State :=
  (s.setFld Reg.CCS_STS 2 0 x).putBit Reg.CCS_STS 6 (x == 3 || x == 4)

/-- CYC periods of a tester cycle (R343). -/
def State.cycDiv (s : State) : Nat := s.fld Reg.CCS_CFG 7 0 + 1

/-- The tracker leaves lock or starts again: its cycle count is lost. -/
def State.ccsForget (s : State) : State :=
  let c := { s.ccs with seen := false, two := false, good := 0, div := 0, cycles := [] }
  { s with ccs := c }

/-- An entry to SEEK with a cause (R349). -/
def State.ccsSeek (s : State) (cause : Nat) : State :=
  let locked := s.ccLocked
  let s := ((s.setCcsState 1).setFld Reg.CCS_STS 5 3 cause).ccsForget
  if locked then (s.putBit Reg.CCS_STS 8 true).raise 97 |>.supNoLock else s

/-- A mark fault in TRACK (R347). -/
def State.ccsFault (s : State) (cause : Nat) : State :=
  if s.fld Reg.CCS_HOLD_MAX 23 0 = 0 then s.ccsSeek cause
  else
    let s := (s.setCcsState 4).wr Reg.CCS_HOLD_TS s.now.word
    let c := { s.ccs with good := 0, heldAt := s.clk.up }
    ({ s with ccs := c } : State).putBit Reg.CCS_STS 7 true

/-- The cycles on record at a time, in 2^-16 FRAC unit: those that begin within 2^22 ticks of it, and the one before
them (R346). -/
def cyclesKept (now : Nat) : List CycleRec → List CycleRec
  | [] => []
  | x :: r => if (2 ^ 22 * 4096 * 65536 : Int) < diff76 now x.start then [x] else x :: cyclesKept now r

/-- The newest cycle's period follows the prediction of the next cycle's start (R346), and cycles too
old for any coordinate are dropped. -/
def State.ccsPredict (s : State) : State :=
  let c := s.ccs
  let next := add76 c.edge ((s.cycDiv - c.div) * c.per : Nat)
  let cs := match c.cycles with
    | x :: r => { x with period := (diff76 next x.start).toNat } :: r
    | [] => []
  { s with ccs := { c with cycles := cyclesKept (s.time * 65536) cs } }

/-- `k` CYC periods end at the edge now held: cycles begin at every DIV-th (R345), and sequencer
counters count them (R187). -/
def State.ccsAdvance (s : State) (k : Nat) : State :=
  let c := s.ccs
  let d := s.cycDiv
  let n := (c.div + k) / d
  let div := (c.div + k) % d
  let start := add76 c.edge (-(div * c.per : Nat))
  let cs := match c.cycles with
    | x :: r =>
      if n = 0 then x :: r
      else
        let p := (diff76 start x.start).toNat
        { m := (x.m + n) % 2 ^ 48, start := start, period := d * c.per } ::
          { x with period := if n = 1 then p else x.period } :: r
    | [] => []
  (({ s with ccs := { c with div := div, cycles := cs } } : State).seqCycles n).ccsPredict.supCycles

/-- The loop takes an edge: its phase error, CCS_JITTER and CCS_PERIOD (R346). (DEDUCED, log entry 37.) -/
def State.ccsLoop (s : State) (t16 : Nat) : State × Int :=
  let c := s.ccs
  let bw := s.fld Reg.CCS_CFG 9 8
  let pred := add76 c.edge c.per
  let err := diff76 t16 pred
  let errs := (err :: c.errs).take 1024
  let per := ((c.per : Int) + Config.loopPeriod bw err).toNat
  let c := { c with edge := add76 pred (Config.loopPhase bw err), per := per, errs := errs }
  let sq := (errs.map fun e => e * e).sum.toNat / max 1 errs.length
  let s := { s with ccs := c }
  let s := s.setFld Reg.CCS_JITTER 15 0 (isqrtAux sq 40 0 / 4096)
  (s.wrN Reg.CCS_PERIOD (s.cycDiv * per), err)

/-- Is an error within one `n`-th of a cycle? -/
def State.withinCycle (s : State) (err : Int) (n : Nat) : Bool :=
  decide (err.natAbs * n ≤ s.cycDiv * s.ccs.per)

/-- VEC0 sampled high after the origin (R345). -/
def State.ccsVec0 (s : State) (t : Nat) : State :=
  let s := (s.wr Reg.CCS_VEC0_LAST (s.ccAt t)).bumpSat Reg.CCS_VEC0_COUNT 32
  if s.bit Reg.CCS_CTL 2 then s.raise 99 else s

/-- An edge in SEEK (R344). -/
def State.seekEdge (s : State) (t16 : Nat) : State :=
  let c := s.ccs
  let s := if s.fld Reg.CCS_STS 5 3 = 1 then s.setFld Reg.CCS_STS 5 3 0 else s
  if !c.seen then { s with ccs := { c with seen := true, edge := t16, errs := [] } }
  else if !c.two then
    { s with ccs := { c with two := true, edge := t16, per := (diff76 t16 c.edge).toNat } }
  else
    let (s, err) := s.ccsLoop t16
    let good := if s.withinCycle err 256 then c.good + 1 else 0
    let s := { s with ccs := { s.ccs with good := good } }
    if 1024 * s.cycDiv ≤ good then s.setCcsState 2 else s

/-- An edge in WAIT_ORIGIN (R345). -/
def State.originEdge (s : State) (t t16 : Nat) (vec0 : Bool) : State :=
  let s := (s.ccsLoop t16).1
  if !vec0 then s
  else
    let rec' : CycleRec := {
      m := s.fld Reg.CCS_ORIGIN 47 0, start := s.ccs.edge, period := s.cycDiv * s.ccs.per }
    let s := { s with ccs := { s.ccs with div := 0, cycles := [rec'] } }
    let s := (s.setCcsState 3).bump Reg.CCS_LOCK_COUNT 32
    let ts := s.stampAt t
    ((s.wr Reg.CCS_ORIGIN_TS ts.word).raiseTs 98 ts 0).raise 96

/-- An edge in TRACK (R346, R347): a mark fault that leaves the tracker locked still takes VEC0 (R345). -/
def State.trackEdge (s : State) (t t16 : Nat) (vec0 : Bool) : State :=
  let err := diff76 t16 (add76 s.ccs.edge s.ccs.per)
  let s := if s.withinCycle err 8 then (s.ccsLoop t16).1.ccsAdvance 1 else s.ccsFault 2
  if vec0 && s.ccLocked then s.ccsVec0 t else s

/-- In HOLDOVER the coordinate runs on at the last tracked period (R347): the cycles that have begun since the
latest edge on record count, as edges arrive, CCS_CYC_DLY after the time they are referred to (R343).
(DEDUCED, log entry 37.) -/
def State.holdAdvance (s : State) : State :=
  let c := s.ccs
  let seen := timeAdd s.time (-(s.rdI Reg.CCS_CYC_DLY 24))
  let k := (diff76 (seen * 65536) c.edge / (max 1 c.per : Nat)).toNat
  if k = 0 then s else ({ s with ccs := { c with edge := add76 c.edge (k * c.per : Nat) } } : State).ccsAdvance k

/-- An edge in HOLDOVER (R348): the cycle count runs on at the last tracked period. (DEDUCED, log entry 37.) -/
def State.holdEdge (s : State) (t t16 : Nat) (vec0 : Bool) : State :=
  let c := s.ccs
  let k := (max 0 (rneDiv (diff76 t16 c.edge) (max 1 c.per))).toNat
  let at' := add76 c.edge (k * c.per : Nat)
  if s.withinCycle (diff76 t16 at') 8 then
    let s := ({ s with ccs := { c with edge := at', good := c.good + 1 } } : State).ccsAdvance k
    let s := if vec0 then s.ccsVec0 t else s
    if 16 ≤ s.ccs.good then (s.setCcsState 3).raise 100 else s
  else s.holdAdvance.ccsSeek 2

/-- SYS begins to run from its bypass clock (R349). -/
def State.ccsClock (s : State) : State := if s.ccsState = 0 then s else s.ccsSeek 4

/-- Entry to DOZE or a lower state (R349). -/
def State.ccsPower (s : State) : State := if s.ccsState = 0 then s else s.ccsSeek 5

/-! ### The waypoint table (R350-R352) -/

/-- Word `w` of the entry of position `n`. -/
def State.wpWord (s : State) (n w : Nat) : BitVec 64 :=
  let slot' := n % 4096
  s.rd (Reg.CCS_WP_TABLE (slot' / 128) (2 * (slot' % 128) + w))

/-- HEAD, TAIL and the number of pending entries. -/
def State.wpHead (s : State) : Nat := s.rdN Reg.CCS_WP_HEAD
def State.wpPending (s : State) : Nat := (s.rdN Reg.CCS_WP_TAIL + 2 ^ 32 - s.wpHead) % 2 ^ 32

/-- HEAD and PENDING after entries have retired. -/
def State.setWpHead (s : State) (n : Nat) : State :=
  let s := s.wrN Reg.CCS_WP_HEAD (n % 2 ^ 32)
  s.setFld Reg.CCS_WP_STS 13 1 s.wpPending

/-- The target of a position (R346): none for a CC64 key while the tracker is unlocked. (DEDUCED, log entry 37.) -/
def State.wpTarget (s : State) (n : Nat) : Option Nat :=
  let key := (s.wpWord n 0).toNat
  if s.bit Reg.CCS_WP_CFG 0 then some (key % timeMod)
  else if s.ccLocked then (s.coordTime (key / 65536) (key % 65536)).map time16
  else none

/-- Device time has reached the target of a position, in the order of its key's kind (R3, R6), or comes within `lead`
of it. -/
def State.wpReached (s : State) (n t lead : Nat) : Bool :=
  let key := (s.wpWord n 0).toNat
  if s.bit Reg.CCS_WP_CFG 0 then atOrAfter s.time (timeAdd t (-lead))
  else s.coordReached (key / 65536) (key % 65536) lead

/-- Word 1 names a reserved action, or a sequencer or converter out of range (R353, R609). -/
def wpReserved (w : BitVec 64) : Bool :=
  match getF w 3 0 with
  | 3 => decide (4 < getF w 10 8)
  | 5 => bitAt w 8 && decide (3 < getF w 12 9)
  | a => decide (8 ≤ a)

/-- The bits of word 1 that its action leaves in use (R14, R353). -/
def wpBits (w : BitVec 64) : BitVec 64 :=
  BitVec.ofNat 64 (match getF w 3 0 with
    | 0 => 0x1F
    | 1 => 0x3FFFF1F
    | 2 => 0x3FF1F
    | 3 => 0x7FF1F
    | 4 => 0x3FFF1F
    | 5 => 0x1F1F
    | 6 => 0xFFFFFFFFFFFF1F
    | 7 => 0xFFF1F
    | _ => 0xFFFFFFFFFFFFFF1F)

/-- The entry at HEAD retires. -/
def State.wpRetire (s : State) : State :=
  let n := s.wpHead
  let c := { s.ccs with sentAhead := s.ccs.sentAhead.filter (· != n) }
  ({ s with ccs := c } : State).setWpHead (n + 1)

/-- A late entry is counted (R352). -/
def State.wpLate (s : State) : State :=
  (s.bumpSat Reg.CCS_WP_LATE 32).latchRaise Reg.CCS_WP_STS 15 101

/-- The scheduler works: it is enabled and clocked (R356). -/
def State.wpRuns (s : State) : Bool := s.bit Reg.CCS_WP_STS 0 && decide (s.power < 2)

/-- WAITING: an entry with a CC64 key is at HEAD and the tracker is unlocked (R351). -/
def State.wpWaiting (s : State) : Bool :=
  s.wpRuns && s.wpPending != 0 && !s.bit Reg.CCS_WP_CFG 0 && !s.ccLocked

/-- Entries that have fired in the present tick, after one more (R351). -/
def State.wpCount (s : State) : State :=
  let tick' := s.time / 4096
  let c := s.ccs
  let c := if c.firedTick = tick' then { c with firedCount := c.firedCount + 1 }
    else { c with firedTick := tick', firedCount := 1 }
  { s with ccs := c }

/-- Eight entries have fired in the present tick (R351). -/
def State.wpFull (s : State) : Bool :=
  s.ccs.firedTick == s.time / 4096 && decide (8 ≤ s.ccs.firedCount)

/-- What an action is given: its entry's slot and word 1, its firing time and its LATE mark. -/
structure WpFire where
  slot : Nat
  w : BitVec 64
  ts : Stamp
  late : Bool

/-- The entry at HEAD reaches its target and acts (R351, R352): only when its ACT is the command's.
(DEDUCED, log entry 37.) -/
def State.wpRun (s : State) (act : Nat) (eff : WpFire → State → State) :
    Host.Outcome State Fault Refusal :=
  let n := s.wpHead
  let w := s.wpWord n 1
  if !s.wpRuns || s.wpPending == 0 then .next s
  else match s.wpTarget n with
    | none => .next s
    | some t =>
      if !s.wpReached n t 0 || s.wpFull then .next s
      else if wpReserved w then .fault (.undefinedOutcome 353)
      else if getF w 3 0 ≠ act then .next s
      else
        let edge := s.sysNow
        let late := decide ((s.lastTick : Int) ≤ timeDiff edge t)
        .next (
          let s := if late then s.wpLate else s
          if late && bitAt w 4 then (s.bumpSat Reg.CCS_WP_SKIPPED 32).wpRetire
          else
            let ts := s.stampAt (if late then edge else t) true
            let s := (s.wpCount.bump Reg.CCS_WP_FIRED 64).wr Reg.CCS_WP_LAST_TS ts.word
            (eff { slot := n % 4096, w := w, ts := ts, late := late } s).wpRetire)

/-! ### Actions (R353-R355) -/

/-- ARM_CLR, then ARM_SET. -/
def State.wpArm (s : State) (f : WpFire) : State :=
  let c := getF f.w 9 8
  (s.armMask c (getF f.w 25 18) false f.ts.t).armMask c (getF f.w 17 10) true f.ts.t

/-- SIG_CLR and SIG_SET at this SYS edge: a bit set in this tick stays set. -/
def State.wpSignal (s : State) (f : WpFire) : State :=
  s.signalBits (getF f.w 10 8) (getF f.w 18 15) (getF f.w 14 11) s.sysNow

/-- TAG. -/
def State.wpTag (s : State) (f : WpFire) : State :=
  let c := getF f.w 9 8
  if s.captureOpen c then s.placeTag c (getF f.w 21 10) f.ts
  else s.bumpSat Reg.CCS_WP_REFUSED 32

/-- CONVERT (R362, R372). -/
def State.wpConvert (s : State) (f : WpFire) : State :=
  let u := if bitAt f.w 8 then 16 + getF f.w 12 9 else getF f.w 12 9
  if s.supState u = 0 then s.bumpSat Reg.CCS_WP_REFUSED 32 else s.supTrigger u f.ts

/-- TASK (R354). -/
def State.wpTask (s : State) (f : WpFire) : State :=
  let item := leBytes 8 f.ts.word.toNat ++ leBytes 8 (s.ccAt f.ts.t).toNat ++
    leBytes 4 (f.slot + b2n f.late * 4096) ++ leBytes 4 (getF f.w 55 24) ++
    leBytes 8 (s.rdN Reg.CCS_WP_FIRED)
  let r := s.enqueue (getF f.w 23 8) 6 item f.ts.word
  if r.2 then r.1
  else (r.1.bumpSat Reg.CCS_WP_REFUSED 32).latchRaise Reg.CCS_WP_STS 16 102

/-- The message of a FABRIC entry of position `n` (R355). -/
def State.wpFabric (s : State) (n t : Nat) : State :=
  if s.ccs.sentAhead.contains n then s
  else
    let s := s.wrN Reg.CCS_FAB_SEQ ((s.rdN Reg.CCS_FAB_SEQ + 1) % 65536)
    let s := { s with ccs := { s.ccs with sentAhead := s.ccs.sentAhead ++ [n] } }
    s.ridgeSend 0 (getF (s.wpWord n 1) 19 8) (s.rdN Reg.CCS_FAB_SEQ) (s.stampAt t true).word

/-- What entry to a state below DOZE takes (R356). -/
def State.wpLose (s : State) : State :=
  let inTable := fun k => decide (Reg.CCS_WP_TABLE 0 0 ≤ k ∧ k ≤ Reg.CCS_WP_TABLE 31 255)
  let s := { s with regs := Sparse.restrict (fun k => !inTable k) s.regs }
  (s.putBit Reg.CCS_WP_CTL 0 false).putBit Reg.CCS_WP_STS 0 false

/-! ### The commands -/

/-- A write of the tracker's ENABLE (R344). -/
def execCcsEnable (on : Bool) (s : State) : Host.Outcome State Fault Refusal :=
  if on && s.parityStopped Reg.CCS_CTL then .next s
  else
    let s := if on then s else s.parityFree Reg.CCS_CTL
    if on ∧ s.ccsState = 0 then
      if s.fld Reg.CCS_CFG 9 8 = 3 then .fault (.undefinedOutcome 609)
      else .next ((s.putBit Reg.CCS_CTL 0 true).ccsSeek (if s.pllLocked 0 then 1 else 4))
    else if on then .next s
    else .next (
      let locked := s.ccLocked
      let s := ((s.putBit Reg.CCS_CTL 0 false).setCcsState 0).ccsForget
      if locked then s.supNoLock else s)

/-- REORIGIN := 1 (R344). -/
def execReorigin (s : State) : Host.Outcome State Fault Refusal :=
  .next (
    if s.ccLocked then
      let s := s.setCcsState 2
      ({ s with ccs := { s.ccs with cycles := [] } } : State).supNoLock
    else s)

/-- A CYC rising edge `sub` FRAC units into the present tick, with VEC0 as sampled (R343-R348). -/
def execCycEdge (sub : Fin 4096) (vec0 : Bool) (s : State) : Host.Outcome State Fault Refusal :=
  .next (
    let t := timeAdd (s.tickPlace sub) (-(s.rdI Reg.CCS_CYC_DLY 24))
    let t16 := t * 65536
    let s := { s with ccs := { s.ccs with cameAt := s.clk.up } }
    if !s.pllLocked 0 ∨ 2 ≤ s.power then s
    else match s.ccsState with
      | 1 => s.seekEdge t16
      | 2 => s.originEdge t t16 vec0
      | 3 => s.trackEdge t t16 vec0
      | 4 => s.holdEdge t t16 vec0
      | _ => s)

/-- Four predicted CYC periods in 2^-16 FRAC unit (R347): in SEEK, before two edges give a period, those of the
slowest CYC. (DEDUCED, log entry 37.) -/
def State.cycSpan (s : State) : Nat :=
  if s.ccsState = 1 ∧ !s.ccs.two then usec 4 * 65536 else 4 * s.ccs.per

/-- No CYC edge within 4 predicted periods (R344, R347). In HOLDOVER the cycle count comes up to date. -/
def execCycMissing (s : State) : Host.Outcome State Fault Refusal :=
  .next (
    let c := s.ccs
    if !s.pllLocked 0 ∨ 2 ≤ s.power then s
    else if s.cycSpan ≤ (s.clk.up - c.cameAt) * 65536 then
      match s.ccsState with
      | 1 =>
        ({ s with ccs := { c with seen := false, two := false, good := 0 } } : State).setFld Reg.CCS_STS 5 3 1
      | 3 => s.ccsFault 1
      | 4 => s.holdAdvance
      | _ => s
    else s)

/-- CCS_HOLD_MAX cycles have passed in HOLDOVER (R348). -/
def execHoldExpired (s : State) : Host.Outcome State Fault Refusal :=
  .next (
    let limit := s.fld Reg.CCS_HOLD_MAX 23 0 * (s.cycDiv * s.ccs.per)
    if s.ccsState = 4 ∧ limit ≤ (s.clk.up - s.ccs.heldAt) * 65536 then s.holdAdvance.ccsSeek 3
    else s)

/-- A write of the scheduler's ENABLE (R357). -/
def execWpEnable (on : Bool) (s : State) : Host.Outcome State Fault Refusal :=
  if on && s.parityStopped Reg.CCS_WP_CTL then .next s
  else
    let s := if on then s else s.parityFree Reg.CCS_WP_CTL
    .next (
      (s.putBit Reg.CCS_WP_CTL 0 on).putBit Reg.CCS_WP_STS 0 on)

/-- A write of CCS_WP_TAIL (R350). -/
def execWpTailWrite (v : BitVec 32) (s : State) : Host.Outcome State Fault Refusal :=
  let n := (v.toNat + 2 ^ 32 - s.wpHead) % 2 ^ 32
  if n < s.wpPending ∨ 4096 < n then .fault (.undefinedOutcome 350)
  else .next (
    let s := s.wrN Reg.CCS_WP_TAIL v.toNat
    s.setFld Reg.CCS_WP_STS 13 1 s.wpPending)

/-- CANCEL := 1 (R350). -/
def execWpCancel (s : State) : Host.Outcome State Fault Refusal :=
  .next (
    let s := s.bumpSat Reg.CCS_WP_CANCELLED 32 s.wpPending
    let s := { s with ccs := { s.ccs with sentAhead := [] } }
    s.setWpHead (s.rdN Reg.CCS_WP_TAIL))

/-- NONE. -/
def execWpNone (s : State) : Host.Outcome State Fault Refusal := s.wpRun 0 fun _ s => s

/-- ARM. -/
def execWpArm (s : State) : Host.Outcome State Fault Refusal := s.wpRun 1 fun f s => s.wpArm f

/-- TRIGGER (R147). -/
def execWpTrigger (s : State) : Host.Outcome State Fault Refusal :=
  s.wpRun 2 fun f s => s.waypointUnits (getF f.w 9 8) (getF f.w 17 10) f.slot f.ts

/-- SIGNAL. -/
def execWpSignal (s : State) : Host.Outcome State Fault Refusal := s.wpRun 3 fun f s => s.wpSignal f

/-- TAG. -/
def execWpTag (s : State) : Host.Outcome State Fault Refusal := s.wpRun 4 fun f s => s.wpTag f

/-- CONVERT. -/
def execWpConvert (s : State) : Host.Outcome State Fault Refusal :=
  s.wpRun 5 fun f s => s.wpConvert f

/-- TASK. -/
def execWpTask (s : State) : Host.Outcome State Fault Refusal := s.wpRun 6 fun f s => s.wpTask f

/-- FABRIC: a message not yet sent leaves at once, with the target as its FIRE_AT (R355). -/
def execWpFabric (s : State) : Host.Outcome State Fault Refusal :=
  s.wpRun 7 fun f s => s.wpFabric s.wpHead ((s.wpTarget s.wpHead).getD f.ts.t)

/-- The FABRIC entry `j` places after HEAD comes within FAB_ADV ticks of its target (R355). -/
def execFabricLookaheadSend (j : Fin 64) (s : State) : Host.Outcome State Fault Refusal :=
  let n := (s.wpHead + j) % 2 ^ 32
  let w := s.wpWord n 1
  if !s.wpRuns ∨ s.wpPending ≤ j.val ∨ getF w 3 0 ≠ 7 then .next s
  else if wpReserved w then .fault (.undefinedOutcome 353)
  else .next (
    match s.wpTarget n with
    | some t =>
      if s.wpReached n t (s.fld Reg.CCS_WP_CFG 16 1 * 4096) then s.wpFabric n t
      else s
    | none => s)

end Sys2Proof.Machine
end

