-- ==== Sys2Proof/Machine/Canopy.lean ====
section
/-! DEFINITION. Canopy density (R228-R243, R248-R252): what a spectrum adds to a store, regions,
clearing, decay passes and snapshots. -/

namespace Sys2Proof.Machine

/-! ### State and settings -/

/-- The Canopy store of a channel. -/
def State.can (s : State) (c : Nat) : CanopyChan := if h : c < 4 then s.canopy[c] else default

/-- Replaces the Canopy store of a channel. -/
def State.setCan (s : State) (c : Nat) (x : CanopyChan) : State :=
  if h : c < 4 then { s with canopy := s.canopy.set c x } else s

/-- The number of the counted resolution (R228). -/
def State.canRes (s : State) (c : Nat) : Nat := 2 * c + s.fld (Reg.CAN_CFG c) 0 0

/-- DECAY_SRC of R236. -/
def State.decaySrc (s : State) (c : Nat) : Nat := s.fld (Reg.CAN_CFG c) 4 3

/-- RUNNING of a resolution. -/
def State.resRunning (s : State) (r : Nat) : Bool := s.bit (Reg.SPX_RES_STS r) 0

/-- DRAINING of a resolution. -/
def State.resDraining (s : State) (r : Nat) : Bool := s.bit (Reg.SPX_RES_STS r) 2

/-- H of a resolution (R107). -/
def State.spxHop (s : State) (r : Nat) : Nat := (s.fld (Reg.SPX_RES_CFG r) 20 5 + 1) * 16

/-- BIN_LO of R123. -/
def SpxVer.binLo (v : SpxVer) : Nat := getF v.range 19 0

/-- B of R123. -/
def SpxVer.bins (v : SpxVer) : Nat := min (getF v.range 39 20 + 1) (2 ^ v.log2n - v.binLo)

/-- C of R123. -/
def SpxVer.columns (v : SpxVer) : Nat := getF v.col 11 0 + 1

/-- C_can of R229. -/
def SpxVer.canColumns (v : SpxVer) : Nat := min v.columns v.bins

/-- The shadows of a resolution as an active copy (R130). -/
def State.spxShadow (s : State) (r gen : Nat) : SpxVer where
  gen := gen
  win := s.rd (Reg.SPX_RES_WIN r)
  ofs := s.rdI (Reg.SPX_LM_OFS r) 24
  col := s.rd (Reg.SPX_COL_CFG r)
  range := s.rd (Reg.SPX_BIN_RANGE r)
  log2n := s.fld (Reg.SPX_RES_CFG r) 4 0
  hop := s.spxHop r

/-- The values that a resolution's consumers go by: the active copy, or before a hand-over has given it one the
shadows that the first will take. (DESIGN CHOICE, log entry 65.) -/
def State.verOf (s : State) (r : Nat) : SpxVer :=
  if s.resRunning r && !(s.res r).enabling then (s.res r).ver else s.spxShadow r 0

/-- Those of the counted resolution (R229, R232). -/
def State.canVer (s : State) (c : Nat) : SpxVer := s.verOf (s.canRes c)

/-- The update rate of R232 is within 64 * 10 ^ 9 per second. -/
def State.canRateOk (s : State) (c : Nat) (v : SpxVer) : Bool :=
  let p := s.exactPeriod c
  decide (5 * p.2 * v.bins ≤ 128 * p.1 * v.hop)

/-- Canopy stops (R232, R249). -/
def State.canStop (s : State) (c cause : Nat) : State :=
  ((s.putBit (Reg.CAN_STS c) 0 false).setFld (Reg.CAN_STS c) 7 6 cause).raise (352 + c)

/-- Checks the rate of the counted resolution while Canopy runs (R232). -/
def State.canCheck (s : State) (c : Nat) (v : SpxVer) : State :=
  let s := s.wrN (Reg.CAN_USE c) v.canColumns
  if s.bit (Reg.CAN_STS c) 0 && !s.canRateOk c v then s.canStop c 1 else s

/-! ### Maintenance: decay and snapshots (R236, R237, R242) -/

/-- A count after one decay step (R236). -/
def decayed (count decay : Nat) : Nat := count * decay / 65536

/-- A cell's count. -/
def CanopyChan.cell (x : CanopyChan) (k : Nat) : Nat := Sparse.get (fun _ => 0) x.cells k

/-- Sets a cell's count. -/
def CanopyChan.setCell (x : CanopyChan) (k n : Nat) : CanopyChan :=
  { x with cells := Sparse.put (fun _ => 0) x.cells k n }

/-- The cell lies in a window (R242, R250). -/
def inWindow (w : BitVec 64) (k : Nat) : Bool :=
  decide (getF w 11 0 ≤ k / 1024 ∧ k / 1024 ≤ getF w 23 12 ∧ getF w 33 24 ≤ k % 1024 ∧
    k % 1024 ≤ getF w 43 34)

/-- The decay step of the pass in progress overtakes an update of a cell, where the device chose so.
(DESIGN CHOICE, log entry 26.) -/
def CanopyChan.stepBefore (x : CanopyChan) (free k : Nat) : CanopyChan :=
  match x.pass with
  | some (d, done) =>
    if !done.contains k && Config.cellReached free k then
      { x.setCell k (decayed (x.cell k) d) with pass := some (d, k :: done) }
    else x
  | none => x

/-- The snapshot in progress has read a cell before an update of it, where the device chose so.
(DESIGN CHOICE, log entry 26.) -/
def CanopyChan.readBefore (x : CanopyChan) (free k : Nat) : CanopyChan :=
  match x.snap with
  | some p =>
    if p.begun && inWindow p.win k && !(p.read.any fun e => e.1 == k) && Config.cellReached free k then
      { x with snap := some { p with read := (k, x.cell k) :: p.read } }
    else x
  | none => x

/-- A waiting snapshot begins (R242, R243). -/
def State.snapBegin (s : State) (c : Nat) : State :=
  let x := s.can c
  match x.snap with
  | some p =>
    if p.begun ∨ x.pass.isSome then s
    else s.setCan c { x with snap := some { p with
      begun := true, ts := s.rd (Reg.CAN_LAST_TS c), counted := s.rdN (Reg.CAN_COUNTED c),
      held := s.bit (Reg.CAN_CTL c) 3 } }
  | none => s

/-- Decay events waiting (R251). -/
def State.decayWaiting (s : State) (c : Nat) : Nat := s.fld (Reg.CAN_STS c) 5 3

/-- Starts the next waiting pass when neither a pass nor a snapshot runs and HOLD is 0, else a waiting snapshot
(R237). (DESIGN CHOICE, log entry 26.) -/
def State.maintain (s : State) (c : Nat) : State :=
  let x := s.can c
  let snapping := (x.snap.map (·.begun)).getD false
  if x.pass.isNone && !snapping && !s.bit (Reg.CAN_CTL c) 3 && decide (0 < s.decayWaiting c) then
    (s.setFld (Reg.CAN_STS c) 5 3 (s.decayWaiting c - 1)).setCan c { x with pass := some (x.decay, []) }
  else s.snapBegin c

/-- A decay event (R237, R249): it waits, or is missed when four wait already. -/
def State.decayEvent (s : State) (c : Nat) : State :=
  if !s.bit (Reg.CAN_CTL c) 0 || s.pairedOff c || s.bit (Reg.CAN_CTL c) 3 || s.idleOrLower then s
  else
    let x := s.can c
    let busy := x.pass.isSome || (x.snap.map (·.begun)).getD false
    if busy && decide (4 ≤ s.decayWaiting c) then
      (s.bumpSat (Reg.CAN_DECAY_MISSED c) 32).latchRaise (Reg.CAN_STS c) 9 (364 + c)
    else (s.setFld (Reg.CAN_STS c) 5 3 (s.decayWaiting c + 1)).maintain c

/-- The store that the display shows has changed (R268). -/
def State.shownChanged (s : State) (c : Nat) : State :=
  if bitAt s.scn.act.dens 0 && getF s.scn.act.dens 2 1 == c then
    { s with scn := { s.scn with changed := true } }
  else s

/-- The end of a decay pass (R236, R237): every cell not yet stepped takes its step. -/
def State.decayEnd (s : State) (c : Nat) : State :=
  let x := s.can c
  match x.pass with
  | some (d, done) =>
    let step (y : CanopyChan) (e : Nat × Nat) : CanopyChan :=
      if done.contains e.1 then y else y.setCell e.1 (decayed e.2 d)
    let s := s.setCan c { x.cells.foldl step x with pass := none }
    let s := s.shownChanged c
    (s.bump (Reg.CAN_DECAYS c) 64).maintain c
  | none => s

/-- A clear takes effect with the clear spectrum (R235, R249). -/
def State.canClear (s : State) (c : Nat) (ts : Stamp) : State :=
  let f := s.draw
  let s := f.2
  let x := s.can c
  let x := x.cells.foldl (fun y e => y.readBefore f.1 e.1) x
  let snap := x.snap.map fun p => if p.begun then { p with cleared := true } else p
  let s := s.setCan c { x with cells := [], satSeen := false, clear := false, pass := none, snap := snap }
  let s := (s.wrN (Reg.CAN_COUNTED c) 0).wrN (Reg.CAN_DECAYS c) 0
  ((s.wr (Reg.CAN_CLEAR_TS c) ts.word).setFld (Reg.CAN_STS c) 5 3 0).snapBegin c

/-! ### Snapshots in memory (R243) -/

/-- The count a snapshot shows for a cell. -/
def CanopyChan.snapCell (x : CanopyChan) (p : Snap) (k : Nat) : Nat :=
  match p.read.find? fun e => e.1 == k with
  | some e => e.2
  | none => x.cell k

/-- One column of a snapshot. -/
def CanopyChan.snapColumn (x : CanopyChan) (p : Snap) (col : Nat) : List (BitVec 8) :=
  let lo := getF p.win 33 24
  let rows := getF p.win 43 34 + 1 - lo
  let body := (List.range rows).flatMap fun i => leBytes 4 (x.snapCell p (col * 1024 + lo + i))
  body ++ List.replicate (up64 body.length - body.length) 0

/-- The bytes of a snapshot. -/
def State.snapBytes (s : State) (c : Nat) (p : Snap) : List (BitVec 8) :=
  let x := s.can c
  let lo := getF p.win 11 0
  let cfg := s.rd (Reg.CAN_CFG c)
  [0x43, 0x46, 0x44, 0x4E] ++
    leBytes 4 (c + getF cfg 0 0 * 4 + b2n p.held * 8 + b2n p.cleared * 16) ++
    leBytes 8 p.win.toNat ++ leBytes 8 p.ts.toNat ++ leBytes 8 (s.rdN (Reg.CAN_LAST_TS c)) ++
    leBytes 8 p.counted ++ leBytes 8 (s.rdN (Reg.CAN_COUNTED c)) ++
    leBytes 4 (getF cfg 20 5 + getF cfg 26 21 * 65536) ++ leBytes 4 (s.rdN (Reg.CAN_USE c)) ++
    leBytes 8 (s.rdN (Reg.CAN_DECAYS c)) ++
    (List.range (getF p.win 23 12 + 1 - lo)).flatMap fun i => x.snapColumn p (lo + i)

/-- A snapshot that the spec gives no outcome for (R242): it leaves memory, or meets another
writer's region. -/
def State.snapUndefined (s : State) (c : Nat) : Bool :=
  let a := s.fld (Reg.CAN_SNAP_ADDR c) 47 6 * 64
  let n := snapLength (s.rd (Reg.CAN_SNAP_WIN c))
  !s.regionFree (16 + c) a n

/-! ### What a spectrum adds (R229-R231) -/

/-- The column of bin `j` of the range (R124, R229). -/
def binColumn (b c j : Nat) : Nat := if c ≤ b then ((j + 1) * c - 1) / b else j

/-- Where a bin goes: its cell, or below, or above the rows. -/
inductive BinPlace
  | cell (k : Nat)
  | low
  | high
  deriving DecidableEq, Repr

/-- The place of a level `v` at a column (R229). -/
def binPlace (cfg : BitVec 64) (col v : Nat) : BinPlace :=
  let base := getF cfg 20 5
  let step := getF cfg 26 21 + 1
  let clip := bitAt cfg 1
  if v < base then (if clip then .cell (col * 1024) else .low)
  else
    let row := (v - base) / step
    if 1023 < row then (if clip then .cell (col * 1024 + 1023) else .high) else .cell (col * 1024 + row)

/-- Adds one to the tally of a cell. -/
def tally (k : Nat) : List (Nat × Nat) → List (Nat × Nat)
  | [] => [(k, 1)]
  | (a, n) :: r => if a = k then (a, n + 1) :: r else if k < a then (k, 1) :: (a, n) :: r
    else (a, n) :: tally k r

/-- A cell that a spectrum updated: its count before and after, and the updates. -/
structure CellHit where
  k : Nat
  before : Nat
  after : Nat
  n : Nat
  deriving DecidableEq, Repr, Inhabited

/-- Applies one cell's updates. -/
def CanopyChan.hit (free : Nat) (r : CanopyChan × List CellHit) (e : Nat × Nat) :
    CanopyChan × List CellHit :=
  let x := (r.1.stepBefore free e.1).readBefore free e.1
  let was := x.cell e.1
  let now := min 0xFFFFFF (was + e.2)
  (x.setCell e.1 now, r.2 ++ [⟨e.1, was, now, e.2⟩])

/-! ### Regions (R238, R239) -/

/-- The better of two hits under an order; the earlier cell wins ties. -/
def pickHit (better : CellHit → CellHit → Bool) : List CellHit → Option CellHit
  | [] => none
  | h :: r =>
    match pickHit better r with
    | none => some h
    | some g => if better g h then some g else some h

/-- The decisive cell of a test (R239). -/
def decisive (mode : Nat) (hs : List CellHit) : Option CellHit :=
  match mode with
  | 0 => pickHit (fun g h => decide (h.after < g.after)) hs
  | 1 => pickHit (fun g h => decide (g.before < h.before)) hs
  | _ => hs.head?

/-- A region's test and value for one spectrum's hits, in order of cell (R238, R239). -/
def regionTest (cols : Nat) (reg thr : BitVec 64) (hits : List CellHit) : Bool × Nat :=
  let mode := getF reg 45 44
  let t := getF thr 23 0
  let empty := getF reg 23 12 < getF reg 11 0 ∨ getF reg 43 34 < getF reg 33 24 ∨ cols ≤ getF reg 11 0
  let hs := if empty then [] else hits.filter fun h => inWindow reg h.k
  let n := (hs.map (·.n)).sum
  let holds := !decide empty && match mode with
    | 0 => hs.any fun h => decide (t ≤ h.after)
    | 1 => hs.any fun h => decide (h.before < t)
    | _ => decide (t ≤ n)
  let at' := match (if holds then decisive mode hs else none) with
    | some h => h.k / 1024 + h.k % 1024 * 4096
    | none => 0x3FFFFF
  (holds, at' + min n 1023 * 2 ^ 22)

/-- The decision of a frequency-domain unit. -/
def State.fdDecision (s : State) (u res : Nat) (ts : Stamp) (value : Nat) : Decision :=
  { unit := u, cause := ts, ts := ts, sample := none, fd := some res, outside := false,
    value := value, ready := s.time, due := 0, degraded := false, invalid := false, holdoff := 0, gen := 0 }

/-- One DENSITY unit meets a counted spectrum, or one that is not counted (R139, R151, R240). -/
def State.densityUnit (c res : Nat) (ts : Stamp) (counted : Option (Nat × List CellHit)) (s : State)
    (u : Nat) : State :=
  if s.unitType c u = 5 ∧ s.unitLive c u ts.t then
    match counted with
    | none => s.unitUnknown c u
    | some (cols, hits) =>
      let r := getF (s.verFor c u ts.t).param 2 0
      let reg := (s.can c).regions.getD r (0, 0)
      let v := regionTest cols reg.1 reg.2 hits
      s.unitVerdict c u (if v.1 then 2 else 1) (s.fdDecision u res ts v.2)
  else s

/-- All DENSITY units of the channel. -/
def State.densityUnits (s : State) (c res : Nat) (ts : Stamp) (counted : Option (Nat × List CellHit)) :
    State :=
  (List.range 8).foldl (State.densityUnit c res ts counted) s

/-- The shadows of R248. -/
def State.canShadow (s : State) (c : Nat) : List (BitVec 64 × BitVec 64) :=
  (List.range 8).map fun r => (s.rd (Reg.CAN_REGION c r), s.rd (Reg.CAN_REGION_THR c r))

/-- The hand-over spectrum of a pending commit (R248). -/
def State.canHandover (s : State) (c : Nat) : State :=
  if s.bit (Reg.CAN_STS c) 1 then
    let s := s.setCan c { s.can c with decay := s.fld (Reg.CAN_DECAY c) 15 0, regions := s.canShadow c }
    ((s.putBit (Reg.CAN_STS c) 1 false).bump (Reg.CAN_SHADOW_GEN c) 32).raise (356 + c)
  else s

/-- The cells that the bins of a spectrum meet, and the bins outside the rows. -/
def placeBins (cfg : BitVec 64) (b cols : Nat) (levels : List Nat) : List (Nat × Nat) × Nat × Nat :=
  levels.zipIdx.foldl (fun r e =>
    match binPlace cfg (binColumn b cols e.2) e.1 with
    | .cell k => (tally k r.1, r.2)
    | .low => (r.1, r.2.1 + 1, r.2.2)
    | .high => (r.1, r.2.1, r.2.2 + 1)) ([], 0, 0)

/-- Counts one spectrum and evaluates the regions (R229-R231, R240). (DEDUCED, log entry 25.) -/
def State.canCount (s : State) (c : Nat) (v : SpxVer) (ts : Stamp) (deg : Bool) (levels : List Nat) :
    State :=
  let s := if (s.can c).clear then s.canClear c ts else s
  let s := s.canHandover c
  let f := s.draw
  let s := f.2
  let cols := v.canColumns
  let p := placeBins (s.rd (Reg.CAN_CFG c)) v.bins cols (levels.take v.bins)
  let r := p.1.foldl (CanopyChan.hit f.1) (s.can c, [])
  let s := s.setCan c r.1
  let s := (s.bump (Reg.CAN_OUT_LOW c) 64 p.2.1).bump (Reg.CAN_OUT_HIGH c) 64 p.2.2
  let s := (s.bump (Reg.CAN_COUNTED c) 64).wr (Reg.CAN_LAST_TS c) ts.word
  let s := if deg then s.putBit (Reg.CAN_STS c) 10 true else s
  let s := s.shownChanged c
  let s :=
    if r.2.any (fun h => h.after == 0xFFFFFF) && !(s.can c).satSeen then
      (s.setCan c { s.can c with satSeen := true }).latchRaise (Reg.CAN_STS c) 8 (368 + c)
    else s
  s.densityUnits c (s.fld (Reg.CAN_CFG c) 0 0) ts (some (cols, r.2))

/-- Canopy counts the spectra that reach it: it runs, and the counted resolution is not draining (R249). -/
def State.canCounts (s : State) (c : Nat) : Bool := s.bit (Reg.CAN_STS c) 0 && !s.resDraining (s.canRes c)

/-- A spectrum of resolution `res` of a channel reaches Canopy (R228-R241, R249). That of a hand-over frame clears the
store with KEEP = 0, counted or not. -/
def State.canSpectrum (s : State) (c res : Nat) (v : SpxVer) (ts : Stamp)
    (invalid deg handover : Bool) (levels : List Nat) : State :=
  if s.fld (Reg.CAN_CFG c) 0 0 = res then
    let s :=
      if handover && !s.resDraining (s.canRes c) then
        let s := if s.bit (Reg.CAN_CTL c) 0 && !s.bit (Reg.CAN_CFG c) 2 then s.canClear c ts else s
        s.canCheck c v
      else s
    if !s.canCounts c then s.densityUnits c res ts none
    else if invalid then (s.bump (Reg.CAN_INVALID c) 64).densityUnits c res ts none
    else if s.bit (Reg.CAN_CTL c) 3 then (s.bump (Reg.CAN_HELD c) 64).densityUnits c res ts none
    else s.canCount c v ts deg levels
  else s

/-- A frame's spectrum would be counted, and a region of reserved MODE evaluated with it (R238). -/
def State.canUndefined (s : State) (c res : Nat) (f : SpxFrame) : Bool :=
  let regions := if s.bit (Reg.CAN_STS c) 1 then s.canShadow c else (s.can c).regions
  s.fld (Reg.CAN_CFG c) 0 0 == res && s.canCounts c && !s.bit (Reg.CAN_CTL c) 3 && f.xs.all (·.valid) &&
    (!f.handover || s.canRateOk c f.ver) && regions.any fun r => getF r.1 45 44 == 3

/-! ### Commands -/

/-- ENABLE := 0 on Canopy. -/
def State.canDisable (s : State) (c : Nat) : State :=
  (s.putBit (Reg.CAN_CTL c) 0 false).putBit (Reg.CAN_STS c) 0 false

/-- ENABLE := 1 on Canopy (R232, R235, R249, R251). -/
def State.canEnable (s : State) (c : Nat) : State :=
  let stopped := s.bit (Reg.CAN_CTL c) 0 && !s.bit (Reg.CAN_STS c) 0
  let s := (s.putBit (Reg.CAN_CTL c) 0 true).setFld (Reg.CAN_STS c) 7 6 0
  if s.pairedOff c then s.canStop c 2
  else
    let s := s.setCan c { s.can c with clear := true, since := s.clk.up }
    if stopped then s
    else
      let s := s.putBit (Reg.CAN_STS c) 0 true
      s.canCheck c (s.canVer c)

/-- CAN_ENABLE (R235). The reserved DECAY_SRC, and a CAN_DECAY_PERIOD that is out of range where it counts, leave the
outcome undefined (R236, R609). -/
def execCanEnable (c : Fin 4) (s : State) : Host.Outcome State Fault Refusal :=
  if s.parityStopped (Reg.CAN_CTL c) then .next s
  else
    let p := s.rdN (Reg.CAN_DECAY_PERIOD c)
    if s.decaySrc c = 3 then .fault (.undefinedOutcome 236)
    else if s.decaySrc c = 2 ∧ (p < 200 ∨ 1000000 < p) then .fault (.undefinedOutcome 609)
    else .next (s.canEnable c)

/-- CAN_CLEAR (R235). -/
def execCanClear (c : Fin 4) (s : State) : Host.Outcome State Fault Refusal :=
  .next (s.setCan c { s.can c with clear := true })

/-- A write of HOLD (R241): a snapshot that was held is so only while HOLD stays 1; waiting decay events go on after it
(R237). -/
def State.canHold (s : State) (c : Nat) (on : Bool) : State :=
  let x := s.can c
  let snap := if on then x.snap else x.snap.map fun p => { p with held := false }
  let s := s.setCan c { x with snap := snap }
  let s := s.putBit (Reg.CAN_CTL c) 3 on
  if on || s.idleOrLower then s else s.maintain c

/-- CAN_HOLD (R241). -/
def execCanHold (c : Fin 4) (on : Bool) (s : State) : Host.Outcome State Fault Refusal :=
  .next (s.canHold c on)

/-- CAN_COMMIT (R248). -/
def execCanCommit (c : Fin 4) (s : State) : Host.Outcome State Fault Refusal :=
  .next (s.putBit (Reg.CAN_STS c) 1 true)

/-- SNAP := 1 by requester `r` (R242). -/
def State.canSnap (s : State) (r c : Nat) : State :=
  if s.bit (Reg.CAN_STS c) 2 then s.flag r (Reg.CAN_CTL c) .ignored
  else
    let p : Snap :=
      ⟨false, s.fld (Reg.CAN_SNAP_ADDR c) 47 6 * 64, s.rd (Reg.CAN_SNAP_WIN c), 0, 0, false, false, []⟩
    ((s.putBit (Reg.CAN_STS c) 2 true).setCan c { s.can c with snap := some p }).snapBegin c

/-- SNAP (R242). -/
def execCanSnap (r : Fin 8) (c : Fin 4) (s : State) : Host.Outcome State Fault Refusal :=
  if !s.bit (Reg.CAN_STS c) 2 && s.snapUndefined c then .fault (.undefinedOutcome 242)
  else .next (s.canSnap r c)

/-- CAN_SNAP_DONE (R242): the snapshot's last byte is written. In IDLE and lower states the copy stands (R249). -/
def execCanSnapDone (c : Fin 4) (s : State) : Host.Outcome State Fault Refusal :=
  match (s.can c).snap with
  | some p =>
    if p.begun && s.serves p.addr && !s.idleOrLower then
      let s := s.wrBytes p.addr (s.snapBytes c p)
      let s := (s.setCan c { s.can c with snap := none }).putBit (Reg.CAN_STS c) 2 false
      .next ((s.raise (360 + c)).maintain c)
    else .next s
  | none => .next s

/-- DECAY_TIMER (R236): CAN_DECAY_PERIOD µs have passed. -/
def execDecayTimer (c : Fin 4) (s : State) : Host.Outcome State Fault Refusal :=
  let x := s.can c
  let d := usec (s.rdN (Reg.CAN_DECAY_PERIOD c))
  if s.decaySrc c = 2 ∧ s.bit (Reg.CAN_CTL c) 0 ∧ !s.pairedOff c ∧ s.elapsed x.since d then
    .next ((s.setCan c { x with since := x.since + d }).decayEvent c)
  else .next s

/-- DECAY_PASS_END (R237). In IDLE and lower states the pass stands (R249). -/
def execDecayPassEnd (c : Fin 4) (s : State) : Host.Outcome State Fault Refusal :=
  .next (if s.idleOrLower then s else s.decayEnd c)

end Sys2Proof.Machine
end

