-- ==== Sys2Proof/Machine/Vectors.lean ====
section
/-! DEFINITION. What column vectors feed: the spectrogram ring (R244-R247), the display traces (R260)
and MASK units (R148). -/

namespace Sys2Proof.Machine

/-! ### Spectrogram writer (R244-R247) -/

/-- The spectrogram writer of a channel. -/
def State.spgCh (s : State) (c : Nat) : SpgChan := if h : c < 4 then s.spg[c] else default

/-- Replaces the spectrogram writer of a channel. -/
def State.setSpg (s : State) (c : Nat) (x : SpgChan) : State :=
  if h : c < 4 then { s with spg := s.spg.set c x } else s

/-- 10 ^ (b / 1280) in units of 2 ^ -128, by squaring the 1280th root of 10. -/
def rootPow : (fuel : Nat) → (b base acc : Nat) → Nat
  | 0, _, _, acc => acc
  | n + 1, b, base, acc =>
    let acc := if b % 2 = 1 then acc * base / 2 ^ 128 else acc
    rootPow n (b / 2) (base * base / 2 ^ 128) acc

/-- P(v) of R143 in units of 2 ^ -128 * 10 ^ -39. -/
def levelPower (v : Nat) : Nat :=
  let e := v + 768
  10 ^ (e / 1280) * rootPow 11 (e % 1280) 340895049945467474162398302628145861082 (2 ^ 128)

/-- Combines a valid vector with the group's columns (R244). -/
def combine (how : Nat) (n : Nat) (old new : List Nat) : List Nat :=
  match how with
  | 1 => if n = 0 then new else List.zipWith max old new
  | 2 => if n = 0 then new else List.zipWith min old new
  | 3 => if n = 0 then new.map levelPower else List.zipWith (fun a b => a + levelPower b) old new
  | _ => new

/-- COMBINE of R251. -/
def State.spgCombine (s : State) (c : Nat) : Nat := s.fld (Reg.SPG_CFG c) 3 1

/-- The bytes of one slot (R246). -/
def State.spgSlot (s : State) (c : Nat) : Nat := 64 * (s.fld (Reg.SPG_RING c) 63 48 + 1)

/-- The values of a line (R244). -/
def State.lineValues (s : State) (c : Nat) (x : SpgChan) : List Nat :=
  if x.valid = 0 then List.replicate x.width 0
  else if s.spgCombine c = 3 then x.cols.map fun p => lm16 p (x.valid * 2 ^ 128 * 10 ^ 39)
  else x.cols

/-- Completes the group in progress as a line (R244, R245). -/
def State.spgLine (s : State) (c : Nat) (short : Bool) : State :=
  let x := s.spgCh c
  let fit := min x.width ((s.spgSlot c - 64) / 2)
  let trunc := decide (fit < x.width)
  let body := ((s.lineValues c x).take fit).flatMap (leBytes 2)
  let info := fit + s.fld (Reg.SPG_CFG c) 0 0 * 2 ^ 13 + c * 2 ^ 14 + s.spgCombine c * 2 ^ 16 +
    b2n (x.valid == 0) * 2 ^ 19 + b2n x.deg * 2 ^ 20 + b2n short * 2 ^ 21 + b2n trunc * 2 ^ 22 +
    b2n x.handover * 2 ^ 23 + x.gen % 256 * 2 ^ 24
  let head := leBytes 8 x.last.word.toNat ++ leBytes 8 (s.ccAt x.last.t).toNat ++
    leBytes 8 x.first.word.toNat ++ leBytes 4 info ++ leBytes 4 x.valid
  let tail := leBytes 4 0 ++ leBytes 8 0 ++ body ++
    List.replicate (up64 body.length - body.length) 0
  s.setSpg c { x with
    n := 0, valid := 0, deg := false, cols := [],
    lines := x.lines ++ [(head ++ tail, x.last.word, trunc)] }

/-- A column vector reaches the spectrogram writer (R244). -/
def State.spgVector (s : State) (c res : Nat) (v : ColVec) : State :=
  if s.bit (Reg.SPG_STS c) 0 ∧ s.fld (Reg.SPG_CFG c) 0 0 = res ∧ !s.pairedOff c ∧ !s.quiesces then
    let x := s.spgCh c
    let s := if v.handover && decide (0 < x.n) then s.spgLine c true else s
    let x := s.spgCh c
    let x := if x.n = 0 then { x with first := v.ts, handover := v.handover, gen := v.gen } else x
    let cols := if v.invalid then x.cols else combine (s.spgCombine c) x.valid x.cols v.cols
    let x := { x with n := x.n + 1, valid := x.valid + b2n (!v.invalid), last := v.ts,
                      deg := x.deg || v.deg, width := v.cols.length, cols := cols }
    let s := s.setSpg c x
    if s.fld (Reg.SPG_CFG c) 19 4 + 1 ≤ x.n then s.spgLine c false else s
  else s

/-- A spectrogram setting that the spec gives no outcome for (R244, R246). -/
def State.spgUndefined (s : State) (c : Nat) : Bool :=
  let a := s.fld (Reg.SPG_RING c) 47 6 * 64
  let n := 2 ^ s.fld (Reg.SPG_RING c) 4 0 * s.spgSlot c
  decide (4 ≤ s.spgCombine c) || decide (24 < s.fld (Reg.SPG_RING c) 4 0) ||
    !s.regionFree (4 + c) a n

/-- ENABLE := 0 on the spectrogram writer. -/
def State.spgDisable (s : State) (c : Nat) : State :=
  let s := s.setSpg c { s.spgCh c with n := 0, valid := 0, deg := false, cols := [] }
  (s.putBit (Reg.SPG_CTL c) 0 false).putBit (Reg.SPG_STS c) 0 false

/-- The spectrogram writer starts: groups count from here (R244); lines completed before are still to be written.
(DESIGN CHOICE, log entry 65.) -/
def State.startSpg (s : State) (c : Nat) : State :=
  let x := s.spgCh c
  (s.setSpg c { (default : SpgChan) with lines := x.lines, dropped := x.dropped, gapTs := x.gapTs }).putBit
    (Reg.SPG_STS c) 0 true

/-- ENABLE := 1 on the spectrogram writer (R244); in AC1 or AC3 of a pair it does nothing (R249). -/
def State.spgEnable (s : State) (c : Nat) : State :=
  let fresh := !s.bit (Reg.SPG_CTL c) 0
  let s := s.putBit (Reg.SPG_CTL c) 0 true
  if fresh && !s.pairedOff c then s.startSpg c else s

/-- SPG_ENABLE (R244). -/
def execSpgEnable (c : Fin 4) (s : State) : Host.Outcome State Fault Refusal :=
  if s.parityStopped (Reg.SPG_CTL c) then .next s
  else
    if !s.bit (Reg.SPG_CTL c) 0 && !s.pairedOff c && s.spgUndefined c then .fault (.undefinedOutcome 246)
    else .next (s.spgEnable c)

/-- A completed line is discarded (R247). -/
def State.spgDiscard (s : State) (c : Nat) (ts : BitVec 64) : State :=
  let x := s.spgCh c
  let gap := if x.dropped = 0 then ts else x.gapTs
  let s := s.setSpg c { x with dropped := satAdd 32 x.dropped 1, gapTs := gap }
  (s.bump (Reg.SPG_DROPPED c) 64).latchRaise (Reg.SPG_STS c) 1 (372 + c)

/-- A completed line is written to its slot (R246). Its 24 bytes of TS, CC and FIRST_TS and the 8 of
INFO and VECTORS stand before DROPPED. -/
def State.spgWrite (s : State) (c : Nat) (line : List (BitVec 8)) (ts : BitVec 64) (trunc : Bool) :
    State :=
  let x := s.spgCh c
  let n := s.rdN (Reg.SPG_HEAD c)
  let a := s.fld (Reg.SPG_RING c) 47 6 * 64 + n % 2 ^ s.fld (Reg.SPG_RING c) 4 0 * s.spgSlot c
  let rest := line.take 32 ++ leBytes 4 x.dropped ++ (line.drop 32).take 4 ++ leBytes 8 x.gapTs.toNat ++
    line.drop 36
  let s := s.wrBytes a (leBytes 8 (2 ^ 64 - 1))
  let s := s.wrBytes (a + 8) rest
  let s := s.wrBytes a (leBytes 8 n)
  let s := s.setSpg c { x with dropped := 0, gapTs := 0 }
  let s := (s.bump (Reg.SPG_HEAD c) 64).wr (Reg.SPG_LAST_TS c) ts
  if trunc then s.latchRaise (Reg.SPG_STS c) 2 (376 + c) else s

/-- Entry to DOZE (R249): the group in progress becomes a short line, and what waits is written. -/
def State.spgRest (s : State) (c : Nat) : State :=
  let s := if s.bit (Reg.SPG_STS c) 0 ∧ 0 < (s.spgCh c).n then s.spgLine c true else s
  if s.serves (s.fld (Reg.SPG_RING c) 47 6 * 64) then
    let ls := (s.spgCh c).lines
    let s := s.setSpg c { s.spgCh c with lines := [] }
    ls.foldl (fun s l => s.spgWrite c l.1 l.2.1 l.2.2) s
  else s

/-- SPG_LINE_WRITE (R246, R247): `stalled` says that the writer's GDDR7 access ran out. -/
def execSpgLineWrite (c : Fin 4) (stalled : Bool) (s : State) : Host.Outcome State Fault Refusal :=
  let x := s.spgCh c
  match x.lines with
  | (l, ts, trunc) :: rest =>
    if !stalled && !s.serves (s.fld (Reg.SPG_RING c) 47 6 * 64) then .next s
    else
      let s := s.setSpg c { x with lines := rest }
      .next (if stalled then s.spgDiscard c ts else s.spgWrite c l ts trunc)
  | [] => .next s

/-! ### Display traces (R260) -/

/-- The values of a trace buffer. -/
def State.traceBuf (s : State) (base n : Nat) : List Nat :=
  (List.range n).map fun i => s.loadN (base + 2 * i) 2

/-- The values of a valid column vector update the buffer of trace `t` (R260). -/
def State.traceUpdate (s : State) (t : Nat) (vals : List Nat) : State :=
  let e := s.scn.act.traces.getD t (0, 0)
  let base := getF e.2 47 6 * 64
  let old := s.traceBuf base vals.length
  let new :=
    if s.scn.reset.testBit t then vals
    else match getF e.1 5 4 with
      | 1 => List.zipWith max old vals
      | 2 => List.zipWith min old vals
      | _ => vals
  let s := s.wrBytes base (new.flatMap (leBytes 2))
  let reset := if s.scn.reset.testBit t then s.scn.reset - 2 ^ t else s.scn.reset
  { s with scn := { s.scn with reset := reset } }

/-- A trace takes the vectors of a channel and resolution. -/
def traceTakes (cfg : BitVec 64) (c res : Nat) : Bool :=
  bitAt cfg 0 && getF cfg 2 1 == c && getF cfg 3 3 == res

/-- A vector reaches trace `t`: it waits while the copy runs, the newest alone (R260). -/
def State.traceTake (s : State) (t : Nat) (vals : List Nat) : State :=
  let s := { s with scn := { s.scn with changed := true } }
  if s.scn.copying then
    if h : t < 8 then { s with scn := { s.scn with wait := s.scn.wait.set t (some vals) } } else s
  else s.traceUpdate t vals

/-- A column vector reaches the traces that take it. (DEDUCED, log entry 31.) -/
def State.traceVector (s : State) (c res : Nat) (v : ColVec) : State :=
  if s.bit Reg.SCN_STS 0 && !v.invalid then
    s.scn.act.traces.zipIdx.foldl (fun s e =>
      if traceTakes e.1.1 c res then s.traceTake e.2 v.cols else s) s
  else s

/-- The copy of the trace buffers ends: what waited is applied (R260). -/
def State.copyEnds (s : State) : State :=
  let w := s.scn.wait.toList
  let s := { s with scn := { s.scn with copying := false, wait := Vector.replicate 8 none } }
  w.zipIdx.foldl (fun s e =>
    match e.1 with
    | some vals => s.traceUpdate e.2 vals
    | none => s) s

/-- A trace of reserved MODE would take a vector (R260). -/
def State.traceUndefined (s : State) (c res : Nat) : Bool :=
  s.bit Reg.SCN_STS 0 && s.scn.act.traces.any fun e => traceTakes e.1 c res && getF e.1 5 4 == 3

/-! ### MASK units (R148, R159) -/

/-- LOWER and UPPER of a column in a mask table. -/
def State.maskPair (s : State) (c table col : Nat) : Nat × Nat :=
  let v := s.rd (Reg.TRG_MASK (0x20 * c + 8 * table + col / 512) (col % 512 / 2))
  if col % 2 = 0 then (getF v 15 0, getF v 31 16) else (getF v 47 32, getF v 63 48)

/-- The excess of a value over its limits. -/
def maskExcess (v : Nat) (p : Nat × Nat) : Int := max ((v : Int) - p.2) ((p.1 : Int) - v)

/-- The worst column: its excess, its value and its number; ties go to the lowest. -/
def State.worstColumn (s : State) (c table : Nat) (cols : List Nat) : Int × Nat × Nat :=
  cols.zipIdx.foldl (fun w e =>
    let x := maskExcess e.1 (s.maskPair c table e.2)
    if w.1 < x then (x, e.1, e.2) else w) (-70000, 0, 0)

/-- One MASK unit meets a column vector. -/
def State.maskUnit (c res : Nat) (v : ColVec) (s : State) (u : Nat) : State :=
  if s.unitType c u = 3 ∧ s.fld (Reg.TRG_UNIT_CFG c u) 4 4 = res ∧ s.unitLive c u v.ts.t then
    if v.invalid then s.unitUnknown c u
    else
      let p := (s.verFor c u v.ts.t).param
      let table := getF p 1 0
      let bad := (v.cols.zipIdx.filter fun e => decide (0 < maskExcess e.1 (s.maskPair c table e.2))).length
      let w := s.worstColumn c table v.cols
      s.unitVerdict c u (if getF p 13 2 + 1 ≤ bad then 2 else 1)
        (s.fdDecision u res v.ts (w.2.1 + w.2.2 * 65536))
  else s

/-- The MASK units of a channel meet a column vector. -/
def State.maskUnits (s : State) (c res : Nat) (v : ColVec) : State :=
  (List.range 8).foldl (State.maskUnit c res v) s

end Sys2Proof.Machine
end

