-- ==== Sys2Proof/Machine/Wave.lean ====
section
/-! DEFINITION. Sines, cosines, windows and the transform in exact and fixed-point integer
arithmetic (R81, R112, R115). Fixed-point values carry 96 fraction bits, so each rounding to 23 bits
is that of the exact value. -/

namespace Sys2Proof.Machine

/-- One in the fixed point of this file. -/
def fixOne : Int := 2 ^ 96

/-- Half of pi in fixed point. -/
def fixHalfPi : Int := 124451306656115542615260972311

/-- Product in fixed point. -/
def fixMul (a b : Int) : Int := a * b / fixOne

/-- Tail of a power series: term * (1 + m1 * (1 + m2 * ...)) with term `k` formed from the last by
`next`. -/
def fixSeries (next : Nat → Int → Int) : (fuel k : Nat) → (term sum : Int) → Int
  | 0, _, _, sum => sum
  | fuel + 1, k, term, sum =>
    let t := next k term
    fixSeries next fuel (k + 1) t (sum + t)

/-- cos (pi/2 * n / d) for 0 ≤ n ≤ d. -/
def fixCosQ (n d : Nat) : Int :=
  let x := fixHalfPi * n / (d : Int)
  let x2 := fixMul x x
  fixSeries (fun k t => -(fixMul t x2 / (((2 * k + 1) * (2 * k + 2) : Nat) : Int))) 20 0 fixOne fixOne

/-- sin (pi/2 * n / d) for 0 ≤ n ≤ d. -/
def fixSinQ (n d : Nat) : Int :=
  let x := fixHalfPi * n / (d : Int)
  let x2 := fixMul x x
  fixSeries (fun k t => -(fixMul t x2 / (((2 * k + 2) * (2 * k + 3) : Nat) : Int))) 20 0 x x

/-- cos (2 pi n / d); exact at the four quarter turns. -/
def fixCos (n d : Nat) : Int :=
  let m := 4 * (n % d)
  let q := m / d
  let r := m % d
  match q with
  | 0 => if r = 0 then fixOne else fixCosQ r d
  | 1 => if r = 0 then 0 else -fixSinQ r d
  | 2 => if r = 0 then -fixOne else -fixCosQ r d
  | _ => if r = 0 then 0 else fixSinQ r d

/-- sin (2 pi n / d): the cosine three quarters of a turn further on. -/
def fixSin (n d : Nat) : Int := fixCos (4 * n + 3 * d) (4 * d)

/-- A fixed-point value at LSB 2 ^ -23, ties to even. -/
def fixTo23 (x : Int) : Int := rneDiv x (2 ^ 73)

/-- Cosine of n / d turn at LSB 2 ^ -23, ties to even (R81, R115). (DEDUCED, log entry 23.) -/
def cos23 (n d : Nat) : Int := fixTo23 (fixCos n d)

/-- Sine of n / d turn at LSB 2 ^ -23, ties to even (R81, R115). (DEDUCED, log entry 23.) -/
def sin23 (n d : Nat) : Int := fixTo23 (fixSin n d)

/-! ### Windows (R112, R113) -/

/-- A window value at LSB 2 ^ -23, ties upward, within 0 to 1 (R112). (DEDUCED, log entry 23.) -/
def quantWin (x : Int) : Nat := (clampI 0 0x800000 (rnuDiv x (2 ^ 73))).toNat

/-- a0 - a1 cos x + a2 cos 2x - a3 cos 3x + a4 cos 4x, the coefficients in units of 10 ^ -9. -/
def cosineSum (a : List Int) (n len : Nat) : Int :=
  let t := a.zipIdx.map fun p =>
    (if p.2 % 2 = 0 then p.1 else -p.1) * fixCos (p.2 * n) len
  t.sum / 1000000000

/-- I0 of a number whose squared half is `z` in fixed point. -/
def fixBessel (z : Int) : Int :=
  fixSeries (fun k t => fixMul t z / (((k + 1) * (k + 1) : Nat) : Int)) 220 0 fixOne fixOne

/-- The Kaiser window of R112: the quotient of two values of I0. (DEDUCED, log entry 23.) -/
def kaiser (param n len : Nat) : Int :=
  let sq (k : Int) (d : Int) : Int :=
    fixOne * ((param * param : Nat) : Int) * k / (4 * 2 ^ 20 * d)
  let u : Int := 2 * (n : Int) - len
  let l : Int := (len : Int) * len
  fixBessel (sq (l - u * u) l) * fixOne / fixBessel (sq 1 1)

/-- exp (-num / den) for a positive denominator; 0 where it lies below every rounding step. -/
def fixExpNeg (num den : Nat) : Int :=
  if 20 * den ≤ num then 0
  else
    let y := fixOne * num / (den : Int)
    let e := fixSeries (fun k t => fixMul t y / ((k + 1 : Nat) : Int)) 120 0 fixOne fixOne
    fixOne * fixOne / e

/-- The Gaussian window of R112, with sigma = param / 65536. (DEDUCED, log entry 23.) -/
def gaussian (param n len : Nat) : Int :=
  let u := (2 * (n : Int) - len).natAbs
  fixExpNeg (u * u * 2 ^ 32) (2 * len * len * param * param)

/-- A point of the user table at position n of len (R113), before quantisation in units of
2 ^ -23 / len. -/
def userPoint (table : Nat → Nat) (n len : Nat) : Nat :=
  if len ≤ 65536 then table (n * (65536 / len))
  else
    let a := n * 65536 / len
    let f := n * 65536 % len
    let lo : Int := table a
    let hi : Int := table ((a + 1) % 65536)
    (rnuDiv (lo * len + f * (hi - lo)) len).toNat

/-- The window w[n] of R112 and R113 at LSB 2 ^ -23. (DEDUCED, log entry 23.) -/
def windowAt (table : Nat → Nat) (win param len n : Nat) : Nat :=
  match win with
  | 0 => 0x800000
  | 1 => quantWin (cosineSum [500000000, 500000000] n len)
  | 2 => quantWin (cosineSum [358750000, 488290000, 141280000, 11680000] n len)
  | 3 => quantWin (cosineSum [215578950, 416631580, 277263158, 83578947, 6947368] n len)
  | 4 => quantWin (kaiser param n len)
  | 5 => quantWin (gaussian param n len)
  | _ => userPoint table n len

/-- The quantised window. -/
def window (table : Nat → Nat) (win param len : Nat) : List Nat :=
  (List.range len).map (windowAt table win param len)

/-! ### The transform (R115) -/

/-- A complex number at LSB 2 ^ -23. -/
abbrev Cplx := Int × Int

/-- The largest magnitude of any part. -/
def peakPart (z : List Cplx) : Nat := z.foldl (fun m x => max m (max x.1.natAbs x.2.natAbs)) 0

/-- The left shift of R115: as many steps as keep every part below 0.25, at most 31. -/
def upShift (m : Nat) : (fuel l : Nat) → Nat
  | 0, l => l
  | fuel + 1, l => if m * 2 ^ (l + 1) < 2 ^ 21 then upShift m fuel (l + 1) else l

/-- rnd((a - c) * tw(t)) of R115 for N = len. (DEDUCED, log entry 23.) -/
def twiddle (len : Nat) (d : Cplx) (t : Nat) : Cplx :=
  let c := cos23 t len
  let s := sin23 t len
  (rneDiv (d.1 * c + d.2 * s) (2 ^ 23), rneDiv (d.2 * c - d.1 * s) (2 ^ 23))

/-- The butterflies of one stage on one block: its sums and its turned differences. -/
def butterflies (len step : Nat) (b : List Cplx) : List (List Cplx) :=
  let h := b.length / 2
  let a := b.take h
  let c := b.drop h
  let sums := List.zipWith (fun x y => (x.1 + y.1, x.2 + y.2)) a c
  let diffs := List.zipWith (fun (x y : Cplx) => (x.1 - y.1, x.2 - y.2)) a c
  [sums, diffs.zipIdx.map fun p => twiddle len p.1 (p.2 * step)]

/-- The stages of R115 on a list of blocks; the answer is the blocks and the count r of halvings. -/
def fftStages (len : Nat) : (stages : Nat) → (step : Nat) → List (List Cplx) → (r : Nat) →
    List (List Cplx) × Nat
  | 0, _, bs, r => (bs, r)
  | n + 1, step, bs, r =>
    let big := decide (2 ^ 21 ≤ peakPart bs.flatten)
    let half : List Cplx → List Cplx := fun b => b.map fun x => (rneDiv x.1 2, rneDiv x.2 2)
    let bs := if big then bs.map half else bs
    fftStages len n (2 * step) (bs.flatMap (butterflies len step)) (if big then r + 1 else r)

/-- The low `w` bits of a number in reverse order. -/
def bitRev : (w n : Nat) → Nat
  | 0, _ => 0
  | w + 1, n => n % 2 * 2 ^ w + bitRev w (n / 2)

/-- The spectrum of R115: the mantissas of transform bins 0 to N - 1, and EXP. -/
def spectrum (log2n : Nat) (win : List Nat) (xs : List Cplx) : List Cplx × Int :=
  let z := List.zipWith (fun (w : Nat) (x : Cplx) =>
    (rneDiv (x.1 * w) (2 ^ 23), rneDiv (x.2 * w) (2 ^ 23))) win xs
  let l := upShift (peakPart z) 31 0
  let z := z.map fun x => (x.1 * 2 ^ l, x.2 * 2 ^ l)
  let f := fftStages (2 ^ log2n) log2n 1 [z] 0
  let out := f.1.flatten.toArray
  ((List.range (2 ^ log2n)).map fun k => out.getD (bitRev log2n k) (0, 0), (f.2 : Int) - l)

end Sys2Proof.Machine
end

