-- ==== Sys2Proof/Machine/Spectral.lean ====
section
/-! DEFINITION. The spectral engine (R103-R136): the pool, frames, hand-overs, and what a spectrum
gives when it leaves its pipeline. -/

namespace Sys2Proof.Machine

/-! ### The pool (R107-R111, R132) -/

/-- P and the buffer blocks of a resolution (R108). -/
def State.spxNeed (s : State) (r : Nat) : Nat × Nat :=
  let p := s.exactPeriod (r / 2)
  let n := s.spxN r
  let pipes := ceilDiv (5 * n * p.2) (16 * s.spxHop r * p.1)
  (pipes, ceilDiv (6 * n * (1 + pipes)) 65536)

/-- Pipelines and blocks that a resolution holds. -/
def State.spxHeld (s : State) (r : Nat) : Nat × Nat :=
  (s.fld (Reg.SPX_ALLOC r) 5 0, s.fld (Reg.SPX_ALLOC r) 15 6)

/-- Free pipelines and blocks. -/
def State.spxFree (s : State) : Nat × Nat := (s.fld Reg.SPX_POOL 5 0, s.fld Reg.SPX_POOL 15 6)

/-- Gives a resolution a holding in place of its present one. -/
def State.spxHold (s : State) (r : Nat) (x : Nat × Nat) : State :=
  let h := s.spxHeld r
  let f := s.spxFree
  let s := (s.setFld Reg.SPX_POOL 5 0 (f.1 + h.1 - x.1)).setFld Reg.SPX_POOL 15 6 (f.2 + h.2 - x.2)
  s.wrN (Reg.SPX_ALLOC r) (x.1 + x.2 * 64)

/-- USER_BUSY (R113): a resolution is enabled while RUNNING is 1 (R133). -/
def State.userBusy (s : State) : Bool :=
  (List.range 8).any fun r => s.resRunning r &&
    (s.fld (Reg.SPX_RES_WIN r) 2 0 == 6 || getF (s.res r).ver.win 2 0 == 6)

/-- Brings USER_BUSY up to date. -/
def State.spxBusy (s : State) : State := s.putBit Reg.SPX_POOL 16 s.userBusy

/-- The first check of R109 that fails, as its CAUSE, or 0. -/
def State.spxCause (s : State) (r : Nat) : Nat :=
  let n := s.fld (Reg.SPX_RES_CFG r) 4 0
  let h := s.spxHop r
  let p := s.exactPeriod (r / 2)
  let need := s.spxNeed r
  let free := s.spxFree
  if n < 6 ∨ 20 < n ∨ (17 ≤ n ∧ p.1 < 2 * p.2) then 1
  else if h < max 16 (2 ^ n / 64) ∨ 2 ^ n < h then 2
  else if s.pairedOff (r / 2) then 3
  else if free.1 < need.1 then 4
  else if free.2 < need.2 then 5
  else 0

/-- The number of the next output sample of the present grid that leaves conditioning (R104, R106). -/
def State.cndNext (s : State) (c : Nat) : Nat :=
  let x := s.cndCh c
  match ((x.words.drop x.oldWords).flatMap (·.outs)).head? with
  | some o => o.q
  | none => x.q

/-- A resolution stops or is refused with a CAUSE (R109, R110). Frames that it has begun or that wait to be
emitted are discarded, and not counted as skipped. (DESIGN CHOICE, log entry 62.) -/
def State.spxStop (s : State) (r cause : Nat) : State :=
  let s := s.spxHold r (0, 0)
  let s := s.setRes r { s.res r with begun := [], ready := [], enabling := false, again := false }
  let s := (s.putBit (Reg.SPX_RES_STS r) 0 false).putBit (Reg.SPX_RES_STS r) 2 false
  ((s.setFld (Reg.SPX_RES_STS r) 6 3 cause).spxBusy).raise (212 + r)

/-- Starts a resolution (R106, R109). -/
def State.spxStart (s : State) (r : Nat) : State :=
  let s := s.spxHold r (s.spxNeed r)
  let s := (s.putBit (Reg.SPX_RES_STS r) 0 true).wrN (Reg.SPX_LATENCY r) (s.spxLatency r)
  let x := s.res r
  let s := s.setRes r { x with
    enabling := true, again := false, nextK := ceilDiv (s.cndNext (r / 2)) (s.spxHop r), begun := [],
    ready := [], skipped := 0, skipRun := false, carry := false, lastBegin := none, busy := [],
    group := default }
  let s := (s.latencies (r / 2)).spxBusy
  if s.canRes (r / 2) = r then s.canCheck (r / 2) (s.spxShadow r 0) else s

/-- ENABLE := 1 on a resolution (R109, R111). -/
def State.spxEnable (s : State) (r : Nat) : State :=
  let s := (s.putBit (Reg.SPX_RES_CTL r) 0 true).setFld (Reg.SPX_RES_STS r) 6 3 0
  if s.resDraining r then (s.setRes r { s.res r with again := true }).spxBusy
  else if s.resRunning r then s.spxBusy
  else if s.spxCause r = 0 then s.spxStart r
  else s.spxStop r (s.spxCause r)

/-- ENABLE := 0 on a resolution (R111): frames that have not ended are not computed, and not counted as
skipped. (DESIGN CHOICE, log entry 62.) -/
def State.spxDisable (s : State) (r : Nat) : State :=
  let s := s.putBit (Reg.SPX_RES_CTL r) 0 false
  if s.resRunning r then
    ((s.setRes r { s.res r with begun := [], again := false }).putBit (Reg.SPX_RES_STS r) 2 true).spxBusy
  else s.spxBusy

/-- The drain ends (R111). -/
def State.spxDrained (s : State) (r : Nat) : State :=
  let again := (s.res r).again
  let s := s.spxHold r (0, 0)
  let s := ((s.putBit (Reg.SPX_RES_STS r) 0 false).putBit (Reg.SPX_RES_STS r) 2 false).spxBusy
  if again then s.spxEnable r else s

/-! ### Hand-overs (R114, R130) -/

/-- The user window table (R113, R132). -/
def State.userTable (s : State) (i : Nat) : Nat :=
  let v := s.rd (Reg.SPX_USER_WIN (i / 512) (i % 512 / 2))
  if i % 2 = 0 then getF v 23 0 else getF v 55 32

/-- The quantised window of an active copy. -/
def State.verWindow (s : State) (v : SpxVer) : List Nat :=
  window s.userTable (getF v.win 2 0) (getF v.win 31 16) (2 ^ v.log2n)

/-- Σ w and Σ w². -/
def windowSums (w : List Nat) : Nat × Nat := (w.sum, (w.map fun x => x * x).sum)

/-- The level reference G of R118 in units of 2 ^ -46. -/
def SpxVer.reference (v : SpxVer) (w : Nat × Nat) : Nat :=
  if bitAt v.win 3 then 2 ^ v.log2n * w.2 else w.1 * w.1

/-- Writes SPX_WIN_CG and SPX_WIN_ENBW (R114). -/
def State.windowFigures (s : State) (r : Nat) (v : SpxVer) : State :=
  let w := windowSums (s.verWindow v)
  if w.1 = 0 then (s.wrN (Reg.SPX_WIN_CG r) 0).wrN (Reg.SPX_WIN_ENBW r) 0
  else
    let n := 2 ^ v.log2n
    let e := (rneDiv ((n * w.2 * 65536 : Nat) : Int) (w.1 * w.1)).toNat
    (s.wrN (Reg.SPX_WIN_CG r) (rneDiv (w.1 : Int) n).toNat).wrN (Reg.SPX_WIN_ENBW r) (min e 0xFFFFFFFF)

/-- A hand-over at the frame whose first sample carries `ts` (R130). That of ENABLE := 1 too ends every pending
commit, a timed one for later as well. (DESIGN CHOICE, log entry 62.) -/
def State.spxHandover (s : State) (r : Nat) (ts : Stamp) : State :=
  let gen := (s.rdN (Reg.SPX_SHADOW_GEN r) + 1) % 2 ^ 32
  let v := s.spxShadow r gen
  let s := (s.wrN (Reg.SPX_SHADOW_GEN r) gen).wr (Reg.SPX_HANDOVER_TS r) ts.word
  let x := s.res r
  let s := s.setRes r { x with ver := v, now := false, timed := none, kept := false, enabling := false, pos := 0 }
  let s := (s.putBit (Reg.SPX_RES_STS r) 1 false).windowFigures r v
  s.spxBusy.raise (220 + r)

/-- A pending commit or enable makes the frame that begins at `ts` a hand-over frame (R130). -/
def SpxRes.handsOver (x : SpxRes) (ts : Stamp) : Bool :=
  x.enabling || x.now || (x.timed.map fun t => atOrAfter ts.t t).getD false

/-- An active copy with settings that the spec gives no outcome for (R112, R113, R123, R125). -/
def State.verUndefined (s : State) (v : SpxVer) : Bool :=
  let w := getF v.win 2 0
  w == 7 || (w == 5 && getF v.win 31 16 == 0) || decide (2 ^ v.log2n ≤ v.binLo) ||
    decide (5 ≤ getF v.col 14 12) || decide (16 < getF v.col 20 16) ||
    decide (v.ofs < -32768 ∨ 32767 < v.ofs) ||
    (w == 6 && s.regs.any fun e => decide (Reg.SPX_USER_WIN 0 0 ≤ e.1 ∧ e.1 ≤ Reg.SPX_USER_WIN 127 255) &&
      decide (0x800000 < getF e.2 23 0 ∨ 0x800000 < getF e.2 55 32))

/-- The commit bits of a resolution (R130, R131): COMMIT. -/
def State.spxCommit (s : State) (r : Nat) : State :=
  (s.setRes r { s.res r with now := true }).putBit (Reg.SPX_RES_STS r) 1 true

/-- COMMIT_TIMED (R130): late when a frame at or after SPX_COMMIT_AT has begun. -/
def State.spxCommitTimed (s : State) (r : Nat) : State :=
  let x := s.res r
  let at' := s.rdN (Reg.SPX_COMMIT_AT r) % timeMod
  let late := (x.lastBegin.map fun t => atOrAfter t at').getD false
  let s := s.putBit (Reg.SPX_RES_STS r) 1 true
  if late then (s.setRes r { x with now := true }).latchRaise (Reg.SPX_RES_STS r) 7 (228 + r)
  else s.setRes r { x with timed := some at', kept := false }

/-! ### Column vectors (R124-R126) -/

/-- The bins of a column, from the start of the range, as first and count (R124). -/
def columnBins (b c i : Nat) : Nat × Nat :=
  if c ≤ b then (i * b / c, (i + 1) * b / c - i * b / c) else (i * b / c, 1)

/-- One spectrum's bins in the range: their powers over G * 4 ^ 31, their levels, and G * 4 ^ 31. -/
structure Bins where
  power : List Nat
  level : List Nat
  den : Nat
  ofs : Int
  deriving DecidableEq, Repr, Inhabited

/-- A column's value (R125) for detectors 0 to 3. -/
def Bins.column (x : Bins) (det b c i : Nat) : Nat :=
  let r := columnBins b c i
  let vs := (x.level.drop r.1).take r.2
  match det with
  | 0 => vs.foldl max 0
  | 1 => vs.foldl min 65535
  | 2 => x.level.getD (if c ≤ b then (2 * i + 1) * b / (2 * c) else r.1) 0
  | _ =>
    if c ≤ b then lm16 ((x.power.drop r.1).take r.2).sum (x.den * r.2) x.ofs else x.level.getD r.1 0

/-- The columns' sums of powers. -/
def Bins.columnSums (x : Bins) (b c : Nat) : List Nat :=
  (List.range c).map fun i => let r := columnBins b c i; ((x.power.drop r.1).take r.2).sum

/-- The values of an RMS group's columns (R125, R126). (DEDUCED, log entry 25.) -/
def RmsGroup.columns (g : RmsGroup) (den : Nat) (ofs : Int) (b c : Nat) : List Nat :=
  if g.n = 0 then List.replicate c 0
  else g.sums.zipIdx.map fun e => lm16 e.1 (den * (columnBins b c e.2).2 * g.n) ofs

/-- DET is RMS (R125). (DEDUCED, log entry 25.) -/
def SpxVer.rms (v : SpxVer) : Bool := getF v.col 14 12 == 4

/-- M of R125. -/
def SpxVer.groupLen (v : SpxVer) : Nat := 2 ^ getF v.col 20 16

/-- The bytes of a block (R119): its header and its bins. -/
def blockBytes (ts cc : BitVec 64) (k info count skip : Nat) (bins : List (BitVec 8)) :
    List (BitVec 8) :=
  leBytes 8 ts.toNat ++ leBytes 8 cc.toNat ++ leBytes 4 k ++ leBytes 4 info ++ leBytes 4 count ++
    leBytes 4 (min skip 65535) ++ bins ++ List.replicate ((32 - bins.length % 32) % 32) 0

/-- INFO of R119. -/
def blockInfo (first r format : Nat) (exp : Int) (invalid deg : Bool) : Nat :=
  first % 2 ^ 20 + r * 2 ^ 20 + format * 2 ^ 23 + ofSigned 6 exp * 2 ^ 24 + b2n invalid * 2 ^ 30 +
    b2n deg * 2 ^ 31

/-- COUNT of R119. -/
def blockCount (n : Nat) (handover : Bool) (gen : Nat) : Nat :=
  n % 2 ^ 21 + b2n handover * 2 ^ 21 + gen % 1024 * 2 ^ 22

/-- The item of a column vector (R414). -/
def State.vectorItem (s : State) (r : Nat) (v : ColVec) : List (BitVec 8) :=
  blockBytes v.ts.word (s.ccAt v.ts.t) v.k
    (blockInfo 0xFFFFF r 1 (toSigned 6 v.exp) v.invalid v.deg)
    (blockCount v.cols.length v.handover v.gen) v.skip (v.cols.flatMap (leBytes 2))

/-- The mapper emits a column vector of resolution `r` (R126). (DEDUCED, log entry 25.) -/
def State.emitVector (s : State) (r : Nat) (v : ColVec) : State :=
  let c := r / 2
  let res := r % 2
  let s := s.maskUnits c res v
  let s := s.spgVector c res v
  let s := s.traceVector c res v
  s.feedItem 2 c res 2 (s.vectorItem r v) v.ts.word

/-- The vector of an RMS group that ends with frame `f`. -/
def SpxFrame.groupVector (f : SpxFrame) (g : RmsGroup) (den : Nat) (exp skip : Nat) : ColVec where
  ts := f.last
  cols := g.columns den f.ver.ofs f.ver.bins f.ver.columns
  invalid := g.bad
  deg := g.deg
  handover := decide (f.pos < f.ver.groupLen)
  gen := f.ver.gen
  k := f.k
  exp := exp
  skip := skip

/-- The group of the frame's hand-over: a group in progress is dropped at a hand-over (R126). -/
def SpxFrame.group (f : SpxFrame) (g : RmsGroup) : RmsGroup :=
  if f.pos % f.ver.groupLen = 0 then default else g

/-- The powers' unit for a frame: G * 4 ^ 31. -/
def State.frameDen (s : State) (f : SpxFrame) : Nat :=
  f.ver.reference (windowSums (s.verWindow f.ver)) * 4 ^ 31

/-- A skipped frame passes the mapper (R126). -/
def State.skipMapped (s : State) (r : Nat) (f : SpxFrame) : State :=
  if f.ver.rms then
    let g := f.group (s.res r).group
    let g := { g with bad := true }
    let s := s.setRes r { s.res r with group := g }
    if (f.pos + 1) % f.ver.groupLen = 0 then s.emitVector r (f.groupVector g (s.frameDen f) 0 0) else s
  else s

/-- A computed frame passes the mapper (R124-R126). -/
def State.frameMapped (s : State) (r : Nat) (f : SpxFrame) (x : Bins) (exp : Int) (invalid deg : Bool) :
    State :=
  let b := f.ver.bins
  let c := f.ver.columns
  if f.ver.rms then
    let g := f.group (s.res r).group
    let sums := x.columnSums b c
    let sums := if g.sums.isEmpty then sums else List.zipWith (· + ·) g.sums sums
    let g := { g with sums := sums, n := g.n + 1, bad := g.bad || invalid, deg := g.deg || deg }
    let s := s.setRes r { s.res r with group := g }
    if (f.pos + 1) % f.ver.groupLen = 0 then
      s.emitVector r (f.groupVector g x.den (ofSigned 6 exp) f.skipped)
    else s
  else
    s.emitVector r { ts := f.last, cols := (List.range c).map (x.column (getF f.ver.col 14 12) b c),
                     invalid := invalid, deg := deg, handover := f.handover, gen := f.ver.gen, k := f.k,
                     exp := ofSigned 6 exp, skip := f.skipped }

/-! ### Frames (R105, R106, R128-R130) -/

/-- Counts a skipped frame; the first of a run raises SPX_SKIP with its time (R128). -/
def State.countSkip (s : State) (r : Nat) (ts : Stamp) : State :=
  let x := s.res r
  let s := (s.bump (Reg.SPX_SKIP_COUNT r) 64).setRes r
    { x with skipped := satAdd 16 x.skipped 1, skipRun := true }
  if x.skipRun then s else (s.putBit (Reg.SPX_RES_STS r) 8 true).raiseTs (236 + r) ts 0

/-- The last sample time of a frame that ends early (R52, R105). -/
def SpxFrame.end' (f : SpxFrame) : Stamp :=
  { f.first with t := f.pace.after f.first.t (2 ^ f.ver.log2n - 1) }

/-- The pipeline of frame `k`, and when the reading of a frame begins and ends: N / 4 clocks of FFT, at its
bypass clock or locked (R108, R128). -/
def State.readTimes (s : State) (r : Nat) (f : SpxFrame) : Nat × Nat × Nat :=
  let p := if s.pllLocked 1 then (5120, 1) else s.bypassPeriod
  let span := 2 ^ f.ver.log2n / 4 * p.1 / p.2
  let late := timeAdd f.last.t (-(span : Int))
  let start := if later late f.first.t then late else f.first.t
  (f.k % max 1 (s.spxHeld r).1, start, timeAdd start span)

/-- FFT falls to its bypass clock: what a reading in progress still has to read goes on at that clock (R128). -/
def State.spxFall (s : State) : State :=
  let p := s.bypassPeriod
  (List.range 8).foldl (fun s r =>
    let x := s.res r
    let left := (x.ready.filter fun f => !f.skip).map fun f => s.readTimes r f
    let on := (left.filter fun t => later t.2.2 s.time).map fun t =>
      (t.1, timeAdd s.time ((timeDiff t.2.2 s.time).toNat * p.1 / (5120 * p.2) : Nat))
    s.setRes r { x with busy := on ++ x.busy }) s

/-- A clock of the engine falls to bypass: spectra being computed are degraded (R128). -/
def State.spxDegrade (s : State) : State :=
  (List.range 8).foldl (fun s r =>
    let x := s.res r
    s.setRes r { x with ready := x.ready.map fun f => { f with deg := true } }) s

/-- FFT has locked again: what busy pipelines still have to read goes on at its locked clock, so that skipping
ends within P frames (R128). -/
def State.spxRelock (s : State) : State :=
  let p := s.bypassPeriod
  (List.range 8).foldl (fun s r =>
    let x := s.res r
    s.setRes r { x with busy := (x.busy.filter fun b => later b.2 s.time).map fun b =>
      (b.1, timeAdd s.time ((timeDiff b.2 s.time).toNat * 5120 * p.2 / p.1 : Nat)) }) s

/-- A frame whose pipeline is still busy when its reading is due (R128). -/
def State.pipeBusy (s : State) (r : Nat) (f : SpxFrame) : Bool :=
  let t := s.readTimes r f
  (s.res r).busy.any fun b => b.1 == t.1 && later b.2 t.2.1

/-- Notes the reading of a frame at the bypass clock. -/
def State.notePipe (s : State) (r : Nat) (f : SpxFrame) : State :=
  let t := s.readTimes r f
  let x := s.res r
  let keep := x.busy.filter fun b => b.1 != t.1 && later b.2 s.time
  s.setRes r { x with busy := if s.pllLocked 1 then keep else (t.1, t.2.2) :: keep }

/-- A frame is skipped: it is counted, and the mapper meets it in its turn (R106, R126). -/
def State.frameSkipped (r : Nat) (s : State) (f : SpxFrame) : State :=
  let s := s.countSkip r f.last
  let x := s.res r
  let f := { f with skip := true, xs := [] }
  let s := s.setRes r { x with carry := x.carry || f.handover }
  if x.ready.isEmpty then s.skipMapped r f
  else s.setRes r { s.res r with ready := x.ready ++ [f] }

/-- The grid restarts: frames begun and not ended are dropped, and a timed commit that is pending is kept
(R106, R130). -/
def State.gridRestart (s : State) (r : Nat) : State :=
  let x := s.res r
  let s := s.setRes r { x with begun := [], nextK := 0, lastBegin := none, kept := x.timed.isSome }
  if s.resRunning r && !s.resDraining r then
    x.begun.foldl (fun s f => State.frameSkipped r s { f with last := f.end' }) s
  else s

/-- A frame has ended: its newest sample has left conditioning (R105, R128). -/
def State.frameEnded (r : Nat) (s : State) (f : SpxFrame) : State :=
  if f.skip || s.pipeBusy r f then State.frameSkipped r s f
  else
    let s := s.notePipe r f
    let x := s.res r
    s.setRes r { x with
      skipped := 0, skipRun := false, carry := false,
      ready := x.ready ++ [{ f with
        skipped := x.skipped, handover := f.handover || x.carry, deg := s.coreDegraded }] }

/-- A frame begins at sample kH (R105, R106, R130). -/
def State.frameBegins (s : State) (r : Nat) (x : OutSample) : State :=
  let y := s.res r
  let k := x.q / s.spxHop r
  let late := k == 0 && y.kept && (y.timed.map fun t => later x.ts.t t).getD false
  let s := if late then s.latchRaise (Reg.SPX_RES_STS r) 7 (228 + r) else s
  let ho := y.handsOver x.ts
  let s := if ho then s.spxHandover r x.ts else s
  let y := s.res r
  s.setRes r { y with
    nextK := k + 1, pos := y.pos + 1, lastBegin := some x.ts.t,
    begun := y.begun ++ [⟨k, y.ver, ho, false, y.pos, x.ts, x.ts, x.pace, false, 0, []⟩] }

/-- A frame takes a sample. -/
def SpxFrame.take (idle : Bool) (x : OutSample) (f : SpxFrame) : SpxFrame :=
  { f with xs := x :: f.xs, last := x.ts, skip := f.skip || idle }

/-- The frame holds all its samples. -/
def SpxFrame.full (f : SpxFrame) : Bool := decide (2 ^ f.ver.log2n ≤ f.xs.length)

/-- A resolution meets one output sample; the power state now says whether it is from the time in IDLE (R129).
(DESIGN CHOICE, log entry 62.) -/
def State.resSample (x : OutSample) (s : State) (r : Nat) : State :=
  if s.resRunning r && !s.resDraining r then
    let h := s.spxHop r
    let s := if x.q % h = 0 ∧ (s.res r).nextK ≤ x.q / h then s.frameBegins r x else s
    let y := s.res r
    let fs := y.begun.map (SpxFrame.take s.idleOrLower x)
    let s := s.setRes r { y with begun := fs.filter fun f => !f.full }
    (fs.filter (·.full)).foldl (State.frameEnded r) s
  else s

/-- Both resolutions of a channel meet one output sample (R104). -/
def State.spxSample (c : Nat) (s : State) (x : OutSample) : State :=
  let s := if x.q = 0 then
      (s.wr (Reg.SPX_ORIGIN_TS (2 * c)) x.ts.word).wr (Reg.SPX_ORIGIN_TS (2 * c + 1)) x.ts.word
    else s
  [2 * c, 2 * c + 1].foldl (State.resSample x) s

/-- The grid of both resolutions restarts at a new frame origin (R104, R106). -/
def State.spxRestart (s : State) (c : Nat) : State := (s.gridRestart (2 * c)).gridRestart (2 * c + 1)

/-- The new need of a running resolution at a conditioning enable (R110). -/
def State.resRate (s : State) (r : Nat) : State :=
  if s.resRunning r then
    let need := s.spxNeed r
    let held := s.spxHeld r
    let free := s.spxFree
    if need.1 ≤ held.1 + free.1 ∧ need.2 ≤ held.2 + free.2 then
      let s := (s.spxHold r need).wrN (Reg.SPX_LATENCY r) (s.spxLatency r)
      if s.canRes (r / 2) = r then s.canCheck (r / 2) (s.canVer (r / 2)) else s
    else s.spxStop r 6
  else s

/-- R110 for both resolutions of a channel. -/
def State.spxRate (s : State) (c : Nat) : State :=
  ((s.resRate (2 * c)).resRate (2 * c + 1)).latencies c

/-- The release of a pair in paired mode stops the odd channel's resolutions and Canopy (R110, R249). -/
def State.pairStops (s : State) (c : Nat) : State :=
  let stop (s : State) (r : Nat) : State := if s.resRunning r then s.spxStop r 3 else s
  let s := stop (stop s (2 * c)) (2 * c + 1)
  if s.bit (Reg.CAN_STS c) 0 then s.canStop c 2 else s

/-! ### A spectrum leaves its pipeline (R117-R120, R127) -/

/-- The bins of the range from a transform (R117, R118, R123). -/
def SpxVer.binsOf (v : SpxVer) (ref : Nat) (m : List Cplx) (exp : Int) : List Cplx × Bins :=
  let n := 2 ^ v.log2n
  let emitted := m.drop (n / 2) ++ m.take (n / 2)
  let zs := (emitted.drop v.binLo).take v.bins
  let power := zs.map fun z => (z.1 * z.1 + z.2 * z.2).toNat * 4 ^ (exp + 31).toNat
  let den := ref * 4 ^ 31
  (zs, { power := power, level := power.map fun p => lm16 p den v.ofs, den := den, ofs := v.ofs })

/-- A C48 in its 64-bit container (R8). -/
def c48Bytes (z : Cplx) : List (BitVec 8) := leBytes 8 (ofSigned 24 z.1 * 2 ^ 24 + ofSigned 24 z.2)

/-- The bins of a block in a format (R119). -/
def formatBins (format : Nat) (zs : List Cplx) (x : Bins) : List (BitVec 8) :=
  if format = 0 then zs.flatMap c48Bytes else x.level.flatMap (leBytes 2)

/-- One BAND_POWER unit meets a spectrum (R150). -/
def State.bandUnit (c res : Nat) (ts : Stamp) (invalid : Bool) (lo : Nat) (x : Bins) (s : State)
    (u : Nat) : State :=
  if s.unitType c u = 4 ∧ s.fld (Reg.TRG_UNIT_CFG c u) 4 4 = res ∧ s.unitLive c u ts.t then
    if invalid then s.unitUnknown c u
    else
      let v := s.verFor c u ts.t
      let a := max (getF v.span 19 0) lo
      let band := (x.power.drop (a - lo)).take (getF v.span 39 20 + 1 - a)
      if band.isEmpty then s.unitUnknown c u
      else
        let p := lm16 band.sum x.den x.ofs
        let lvl := getF v.param 15 0
        let now := if lvl ≤ p then 2
          else if (p : Int) < (lvl : Int) - getF v.param 31 16 then 1 else s.unitState c u
        s.unitVerdict c u now (s.fdDecision u res ts p)
  else s

/-- The spectrum of a frame goes to its consumers; WIN 6 takes the user table as it stands now (R113).
(DESIGN CHOICE, log entry 62.) -/
def State.emitFrame (s : State) (r : Nat) (f : SpxFrame) : State :=
  let c := r / 2
  let res := r % 2
  let xs := f.xs.reverse
  let w := s.verWindow f.ver
  let t := spectrum f.ver.log2n w (xs.map fun x => if x.valid then (x.i, x.qv) else (0, 0))
  let b := f.ver.binsOf (f.ver.reference (windowSums w)) t.1 t.2
  let invalid := xs.any fun x => !x.valid
  let deg := f.deg || s.coreDegraded
  let s := (s.bump (Reg.SPX_SPEC_COUNT r) 64).wr (Reg.SPX_LAST_TS r) f.last.word
  let s := if invalid then s.bump (Reg.SPX_INVALID_COUNT r) 64 else s
  let block (format : Nat) : List (BitVec 8) :=
    blockBytes f.last.word (s.ccAt f.last.t) f.k (blockInfo f.ver.binLo r format t.2 invalid deg)
      (blockCount b.2.level.length f.handover f.ver.gen) f.skipped (formatBins format b.1 b.2)
  let s := s.trgPass c
  let s := (List.range 8).foldl (State.bandUnit c res f.last invalid f.ver.binLo b.2) s
  let s := s.frameMapped r f b.2 t.2 invalid deg
  let s := s.canSpectrum c res f.ver f.last invalid deg f.handover b.2.level
  let pace := (f.xs.head?.map (·.pace)).getD f.pace
  let s := s.recSpectrum c res f.last { pace with num := pace.num * f.ver.hop } (block (s.fld (Reg.ACQ_CFG c) 2 2)) invalid deg
    (xs.any (·.subst)) (xs.any (·.stale))
  let s := s.feedItem 0 c res 1 (block 0) f.last.word
  s.feedItem 1 c res 1 (block 1) f.last.word

/-- Skipped frames at the head of the ready frames pass the mapper. (DEDUCED, log entry 25.) -/
def State.passSkips (r : Nat) : (fuel : Nat) → State → State
  | 0, s => s
  | n + 1, s =>
    match (s.res r).ready with
    | f :: rest =>
      if f.skip then
        State.passSkips r n ((s.setRes r { s.res r with ready := rest }).skipMapped r f)
      else s
    | [] => s

/-- SPECTRUM_EMIT (R120): the oldest frame that has ended leaves its pipeline, while the engine is clocked
(R129). -/
def execSpectrumEmit (r : Fin 8) (s : State) : Host.Outcome State Fault Refusal :=
  match (s.res r).ready with
  | f :: rest =>
    if 1 ≤ s.power then .next s
    else if s.canUndefined (r / 2) (r % 2) f then .fault (.undefinedOutcome 238)
    else if s.traceUndefined (r / 2) (r % 2) then .fault (.undefinedOutcome 260)
    else
      let s := (s.setRes r { s.res r with ready := rest }).emitFrame r f
      .next (State.passSkips r rest.length s)
  | [] => .next s

/-! ### Commands -/

/-- SPX_ENABLE (R109). -/
def execSpxEnable (r : Fin 8) (s : State) : Host.Outcome State Fault Refusal :=
  if s.parityStopped (Reg.SPX_RES_CTL r) then .next s
  else
    .next (s.spxEnable r)

/-- SPX_DISABLE (R111). -/
def execSpxDisable (r : Fin 8) (s : State) : Host.Outcome State Fault Refusal :=
  let s := s.parityFree (Reg.SPX_RES_CTL r)
  .next (s.spxDisable r)

/-- SPX_DRAIN_END (R111): the last spectrum has left. -/
def execSpxDrainEnd (r : Fin 8) (s : State) : Host.Outcome State Fault Refusal :=
  .next (if s.resDraining r && (s.res r).ready.isEmpty then s.spxDrained r else s)

/-- SPX_COMMIT (R130). -/
def execSpxCommit (r : Fin 8) (s : State) : Host.Outcome State Fault Refusal := .next (s.spxCommit r)

/-- SPX_COMMIT_TIMED (R130). -/
def execSpxCommitTimed (r : Fin 8) (s : State) : Host.Outcome State Fault Refusal :=
  .next (s.spxCommitTimed r)

end Sys2Proof.Machine
end

