-- ==== Sys2Proof/Machine/Cond.lean ====
section
/-! DEFINITION. Conditioning (R72-R102): the arithmetic of each stage, hand-overs, and what an output
word gives its consumers. -/

namespace Sys2Proof.Machine

/-! ### Format conversion (R77, R78) -/

/-- N of R77. -/
def State.sampleBits (s : State) (g : Nat) : Nat :=
  if s.laneMode g = 2 then 16 else s.fld (Reg.LNK_JESD_PARAMS g) 19 16 + 1

/-- CS of R77. -/
def State.controlBits (s : State) (g : Nat) : Nat :=
  if s.laneMode g = 2 then 0 else s.fld (Reg.LNK_JESD_PARAMS g) 21 20

/-- A 16-bit container as a 24-bit value (R77). -/
def State.convert (s : State) (c container : Nat) : Int :=
  let n := s.sampleBits c
  let v := container / 2 ^ (16 - n) % 2 ^ n
  (if s.bit (Reg.CND_CTL c) 11 then (v : Int) - 2 ^ (n - 1) else toSigned n v) * 2 ^ (24 - n)

/-- The over-range mark of a container (R78). -/
def State.overRange (s : State) (c container : Nat) : Bool :=
  s.bit (Reg.CND_CTL c) 12 && decide (1 ≤ s.controlBits c) && container.testBit (15 - s.sampleBits c)

/-- Counts a sample with its over-range mark set (R78). With M = 2 the containers of I and Q each count, and the
mark of an invalid sample counts too. (DESIGN CHOICE, log entry 61.) -/
def State.noteOver (s : State) (c container : Nat) : State :=
  if s.overRange c container then
    (s.bumpSat (Reg.CND_OVR_CNT c) 32).latchRaise (Reg.CND_EVT c) 15 (204 + c)
  else s

/-! ### Arithmetic of the stages (R91, R92) -/

/-- What passing one sample through the chain has saturated: how many stage outputs, at which
stages. -/
structure SatNote where
  n : Nat
  at' : Nat
  deriving DecidableEq, Repr, Inhabited

/-- Notes a saturated stage output. -/
def SatNote.add (x : SatNote) (stage : Nat) (hit : Bool) : SatNote :=
  if hit then { n := x.n + 1, at' := x.at' ||| 2 ^ stage } else x

/-- A stage's rounded result within the format, and whether it saturated (R91). -/
def saturate (valid : Bool) (i q : Int) : ChainSample × Bool :=
  ({ i := sat24 i, q := sat24 q, valid := valid }, sat24 i != i || sat24 q != q)

/-- The mixer (R81): the phase word of 48 bits, its top 20 bits in use. -/
def mix (theta : Nat) (x : ChainSample) : ChainSample × Bool :=
  let t := theta % 2 ^ 48 / 2 ^ 28
  let c := cos23 t (2 ^ 20)
  let s := sin23 t (2 ^ 20)
  saturate x.valid (rneDiv (x.i * c + x.q * s) (2 ^ 23)) (rneDiv (x.q * c - x.i * s) (2 ^ 23))

/-- The number of taps of a half-band filter (R84). -/
def halfBandTaps (minph : Bool) : Nat := if minph then 52 else 67

/-- A coefficient that is not 0. -/
def nonZero (x : Int) : Int := if x = 0 then 1 else x

/-- The coefficients of the fixed filters (R84): the linear-phase one is symmetric about tap 33, and beside that
tap every second one is 0, so that 35 of 67 are not; the minimum-phase one has 52, none of them 0. The
coefficients themselves are free. (DESIGN CHOICE, log entry 22.) -/
def halfBandTap (minph : Bool) (k : Nat) : Int :=
  if minph then nonZero (Config.halfBandTap true k)
  else
    let d := if k ≤ 33 then 33 - k else k - 33
    if d = 0 ∨ d % 2 = 1 then nonZero (Config.halfBandTap false d) else 0

/-- The weighted sum of a history, newest first. -/
def firSum (tap : Nat → Int) (xs : List Int) : Int := (xs.zipIdx.map fun e => tap e.2 * e.1).sum

/-- One input of a half-band stage (R83, R84): every second input gives an output. (DESIGN CHOICE, log entry 22.) -/
def HalfBand.step (st : HalfBand) (minph : Bool) (gain : Int) (x : ChainSample) :
    HalfBand × Option (ChainSample × Bool) :=
  let n := halfBandTaps minph
  let h := (x :: st.hist).take n
  let next : HalfBand := { hist := h, odd := !st.odd }
  if st.odd then
    let tap := halfBandTap minph
    let i := rneDiv (gain * firSum tap (h.map (·.i))) (2 ^ Config.halfBandScale)
    let q := rneDiv (gain * firSum tap (h.map (·.q))) (2 ^ Config.halfBandScale)
    (next, some (saturate (h.length == n && h.all (·.valid)) i q))
  else (next, none)

/-- Half-band stages from number `st` on (R72, R83): stage 1 of real input has gain 2. -/
def runStages (minph : Nat → Bool) (real : Bool) : (st : Nat) → List HalfBand → ChainSample → SatNote →
    List HalfBand × Option ChainSample × SatNote
  | _, [], x, n => ([], some x, n)
  | st, h :: rest, x, n =>
    let r := h.step (minph st) (if real && st == 1 then 2 else 1) x
    match r.2 with
    | none => (r.1 :: rest, none, n)
    | some (y, hit) =>
      let t := runStages minph real (st + 1) rest y (n.add (st + 1) hit)
      (r.1 :: t.1, t.2)

/-- A tap of an equaliser bank as a complex number (R8, R87). -/
def State.eqTap (s : State) (c bank k : Nat) : Cplx :=
  let v := s.rd (if bank = 0 then Reg.CND_EQ_TAP0 c k else Reg.CND_EQ_TAP1 c k)
  (toSigned 24 (getF v 47 24), toSigned 24 (getF v 23 0))

/-- The key of a bank (R89). -/
def State.eqKey (s : State) (c bank : Nat) : BitVec 64 :=
  s.rd (if bank = 0 then Reg.CND_EQ_KEY0 c else Reg.CND_EQ_KEY1 c)

/-- The active bank's key differs from the active FTW or from D_eff (R89). -/
def State.keyDiffers (s : State) (c : Nat) : Bool :=
  let a := (s.cndCh c).act
  let k := s.eqKey c a.bank
  getF k 47 0 != ofSigned 48 a.ftw || getF k 51 48 != s.dEff c

/-- Brings EQ_MISMATCH up to date (R89); a change raises CND_EQ_MISMATCH (R102). The entries of the unused
channel of a pair have no effect (R98). -/
def State.eqJudge (s : State) (c : Nat) : State :=
  let m := s.bit (Reg.CND_CTL c) 5 && !s.pairedOff c && s.keyDiffers c
  if s.bit (Reg.CND_STS c) 6 = m then s else (s.putBit (Reg.CND_STS c) 6 m).raise (200 + c)

/-- One output of the equaliser (R87, R89). -/
def State.equalise (s : State) (c : Nat) (h : List ChainSample) : ChainSample × Bool :=
  let valid := h.length == 64 && h.all (·.valid)
  if s.bit (Reg.CND_STS c) 6 && s.bit (Reg.CND_CTL c) 7 then
    let x := h.getD (s.eqRef c) default
    ({ x with valid := valid }, false)
  else
    let bank := (s.cndCh c).act.bank
    let g : Int := 2 ^ s.fld (Reg.CND_CTL c) 9 8
    let prod (e : ChainSample × Nat) : Cplx :=
      let t := s.eqTap c bank e.2
      (e.1.i * t.1 - e.1.q * t.2, e.1.i * t.2 + e.1.q * t.1)
    let ps := h.zipIdx.map prod
    saturate valid (rneDiv (g * (ps.map (·.1)).sum) (2 ^ 23)) (rneDiv (g * (ps.map (·.2)).sum) (2 ^ 23))

/-! ### Hand-overs (R95-R97) -/

/-- The shadows of a channel. -/
def State.cndShadow (s : State) (c : Nat) : CndActive where
  ftw := s.rdI (Reg.CND_NCO_FTW c) 48
  pow := s.fld (Reg.CND_NCO_POW c) 15 0
  bank := s.fld (Reg.CND_CTL c) 6 6
  ofsE := s.rdI (Reg.CND_IL_OFS_E c) 24
  ofsO := s.rdI (Reg.CND_IL_OFS_O c) 24
  gain := s.fld (Reg.CND_IL_GAIN c) 23 0
  taps := (List.range 32).map fun k => s.rdI (Reg.CND_IL_TAP c k) 24

/-- The active values of a hand-over: that of ENABLE takes OFS_O and GAIN of AC0 and AC2 from the
calibration store while AUTO = 1 (R571). -/
def State.cndTake (s : State) (c : Nat) (enabling : Bool) : CndActive :=
  let a := s.cndShadow c
  if enabling && c % 2 == 0 && s.bit (Reg.CAL_ID_CTL (64 + c / 2)) 0 then
    let v := s.hlt.il.getD (c / 2) (0, 0x800000)
    { a with ofsO := v.1, gain := v.2 }
  else a

/-- A hand-over takes effect (R95, R102); that of ENABLE leaves the values it took from the calibration store in
CND_IL_OFS_O and CND_IL_GAIN (R566, R571). (DEDUCED, log entry 21.) (DEDUCED, log entry 54.) -/
def State.cndHandover (s : State) (c : Nat) (ts : Stamp) : State :=
  let x := s.cndCh c
  let a := s.cndTake c x.enabling
  let s := if x.enabling then (s.wrI (Reg.CND_IL_OFS_O c) 24 a.ofsO).setFld (Reg.CND_IL_GAIN c) 23 0 a.gain else s
  let s := s.setCnd c { x with act := a, now := false, timed := none, enabling := false, due := none }
  let s := (s.bump (Reg.CND_SHADOW_GEN c) 32).wr (Reg.CND_HANDOVER_TS c) ts.word
  (((s.putBit (Reg.CND_STS c) 8 false).raise (192 + c)).eqJudge c)

/-- The channel counts samples: its group, or its pair's even group, is in RUN. -/
def State.cndFed (s : State) (c : Nat) : Bool := s.groupRun c

/-- An untimed hand-over pending while no samples come waits for the next FRONT clock (R97). -/
def State.cndIdleDue (s : State) (c : Nat) : State :=
  let x := s.cndCh c
  if s.bit (Reg.CND_STS c) 0 && !s.cndFed c && (x.now || x.enabling) && x.due.isNone then
    s.setCnd c { x with due := some (s.edgeFrom (timeAdd s.time 1)) }
  else s

/-- A hand-over's FRONT clock has come: that after an untimed request, or the first at or after CND_COMMIT_AT
(R97). -/
def CndChan.idleHit (x : CndChan) (now : Nat) : Bool :=
  (x.due.any fun t => atOrAfter now t) || x.timed.any fun t => atOrAfter now t

/-- A FRONT clock in which no samples come (R97): a hand-over that is due takes effect. -/
def State.cndIdlePass (s : State) (c : Nat) : State :=
  if s.bit (Reg.CND_STS c) 0 && !s.cndFed c && (s.cndCh c).idleHit s.frontNow then
    s.cndHandover c (s.stampAt s.frontNow true)
  else s

/-- A pending hand-over's h is the sample with time `t` (R95). -/
def CndChan.handsOver (x : CndChan) (t : Nat) : Bool :=
  x.now || x.enabling || (x.timed.map fun a => atOrAfter t a).getD false

/-- COMMIT := 1 (R95-R97); without effect on the unused channel of a pair (R98). (DEDUCED, log entry 21.) -/
def State.cndCommit (s : State) (c : Nat) : State :=
  if s.pairedOff c then s
  else ((s.setCnd c { s.cndCh c with now := true }).putBit (Reg.CND_STS c) 8 true).cndIdleDue c

/-- The point of a timed commit has passed: a sample, or while none come a FRONT clock, at or after it (R95, R97). -/
def State.cndPassed (s : State) (c at' : Nat) : Bool :=
  if s.cndFed c then ((s.cndCh c).lastT.map fun t => atOrAfter t at').getD false
  else s.bit (Reg.CND_STS c) 0 && atOrAfter s.frontNow at'

/-- COMMIT_TIMED := 1 (R95-R97). Without effect on the unused channel of a pair (R98). -/
def State.cndCommitTimed (s : State) (c : Nat) : State :=
  let x := s.cndCh c
  let at' := s.rdN (Reg.CND_COMMIT_AT c) % timeMod
  let late := s.cndPassed c at'
  if s.pairedOff c then s
  else
    let s := s.putBit (Reg.CND_STS c) 8 true
    if late then
      ((s.setCnd c { x with now := true }).cndIdleDue c).latchRaise (Reg.CND_EVT c) 16 (208 + c)
    else s.setCnd c { x with timed := some at' }

/-! ### One chain-input sample (R72-R76, R94) -/

/-- An output of the chain enters the equaliser, if any, and the output word (R75, R87). -/
def State.chainOut (s : State) (c : Nat) (ts : Stamp) (pace : Pace) (y : ChainSample) (w : CndWord) : State × CndWord :=
  let x := s.cndCh c
  let h := (y :: x.eq).take 64
  let r := if s.bit (Reg.CND_CTL c) 5 then s.equalise c h else (y, false)
  let o : OutSample :=
    { q := x.q, ts := ts, pace := pace, i := r.1.i, qv := r.1.q, valid := r.1.valid,
      deg := ts.deg || s.coreDegraded, subst := s.substNow c, stale := s.staleNow c }
  let n := (SatNote.mk w.sats w.satAt).add 14 r.2
  (s.setCnd c { x with eq := h, q := x.q + 1 }, { outs := w.outs ++ [o], sats := n.n, satAt := n.at' })

/-- A pending hand-over takes effect at the sample with this stamp, if that is its h (R95). While the group is
not in RUN no sample position is a hand-over's (R97). -/
def State.cndMeets (s : State) (c : Nat) (ts : Stamp) : State :=
  if s.cndFed c && (s.cndCh c).handsOver ts.t then s.cndHandover c ts else s

/-- One chain-input sample with index `k` since the latest release passes the mixer and the half-band
stages (R81-R84); while the group is not in RUN no sample has arrived and φ holds (R82); an invalid one is 0 whole
(R94). (DEDUCED, log entry 21.) (DESIGN CHOICE, log entry 61.) -/
def State.chainSample (s : State) (c k : Nat) (ts : Stamp) (v : ChainSample) (w : CndWord) :
    State × CndWord :=
  let s := s.cndMeets c ts
  let x := s.cndCh c
  let v := if v.valid then v else ⟨0, 0, false⟩
  let phi := if s.bit (Reg.CND_CTL c) 4 then (x.act.ftw * k % 2 ^ 48).toNat else x.phase
  let m := if s.bit (Reg.CND_CTL c) 3 then (v, false) else mix (phi + x.act.pow * 2 ^ 32) v
  let n := (SatNote.mk w.sats w.satAt).add 1 m.2
  let r := runStages (s.minPhase c) (s.realIn c) 1 x.stages m.1 n
  let phase := if s.cndFed c then (((x.phase : Int) + x.act.ftw) % 2 ^ 48).toNat else x.phase
  let s := s.setCnd c { x with phase := phase, lastT := some ts.t, stages := r.1 }
  let w := { w with sats := r.2.2.n, satAt := r.2.2.at' }
  let p := s.chainPeriod c
  let pace : Pace :=
    { frac := k * p.1 * 4096 % max 1 p.2, num := p.1 * 4096 * 2 ^ x.stages.length, den := p.2 }
  match r.2.1 with
  | none => (s, w)
  | some y => s.chainOut c ts pace y w

/-! ### Interleave correction (R79, R80) -/

/-- (x - OFS) * g, rounded and within the format (R91). -/
def ilScale (ofs : Int) (g : Nat) (x : Int) : Int := rneDiv ((x - ofs) * g) (2 ^ 23)

/-- The pairs of an estimate block (R80). -/
def ilBlockLen : Nat := 2 ^ 24

/-- A pair enters the estimate block. -/
def IlBlock.add (b : IlBlock) (e o : ChainSample) : IlBlock where
  n := b.n + 1
  bad := b.bad || !e.valid || !o.valid
  sumE := b.sumE + e.i
  sumO := b.sumO + o.i
  sqE := b.sqE + (e.i * e.i).toNat
  sqO := b.sqO + (o.i * o.i).toNat

/-- An even sample passes interleave correction, if present (R79): its offset is taken when it enters, and it
leaves 16 samples later. (DEDUCED, log entry 21.) -/
def State.ilEven (s : State) (c : Nat) (e : ChainSample) (w : CndWord) : State × ChainSample × CndWord :=
  if s.ilOn c then
    let x := s.cndCh c
    let r := saturate e.valid (e.i - x.act.ofsE) 0
    let h := (r.1 :: x.ilE).take 17
    let n := (SatNote.mk w.sats w.satAt).add 0 r.2
    (s.setCnd c { x with ilE := h }, h.getD 16 default, { w with sats := n.n, satAt := n.at' })
  else (s, e, w)

/-- An odd sample passes interleave correction, if present (R79, R80): its offset and gain are those in force
when it enters, so that samples from before a hand-over keep theirs. (DESIGN CHOICE, log entry 61.) `e` is
the even sample of the same pair as corrected. -/
def State.ilOdd (s : State) (c : Nat) (e o : ChainSample) (w : CndWord) : State × ChainSample × CndWord :=
  if s.ilOn c then
    let x := s.cndCh c
    let r := saturate o.valid (ilScale x.act.ofsO x.act.gain o.i) 0
    let h := (r.1 :: x.ilO).take 32
    let sum := rneDiv (firSum (fun k => x.act.taps.getD k 0) (h.map (·.i))) (2 ^ 22)
    let y := saturate (h.length == 32 && h.all (·.valid)) sum 0
    let b := x.il.add e y.1
    let full := decide (ilBlockLen ≤ b.n)
    let n := ((SatNote.mk w.sats w.satAt).add 0 r.2).add 0 y.2
    (s.setCnd c { x with
      ilO := h, il := if full then default else b, ilDone := if full && !b.bad then some b else x.ilDone },
      y.1, { w with sats := n.n, satAt := n.at' })
  else (s, o, w)

/-- The intake time of chain-input sample `k` of a channel after the latest release (R52, R58). -/
def State.intakeTime (s : State) (c k : Nat) : Stamp :=
  let p := s.chainPeriod c
  s.stampAt (timeAdd (s.lane c).t0 ((k * p.1 * 4096 / p.2 : Nat) : Int)) true

/-! ### Words (R37, R76) -/

/-- A container as a chain-input sample with Q = 0; an invalid one counts as 0 (R77, R94). -/
def State.realSample (s : State) (c : Nat) (e : Nat × Bool) : ChainSample :=
  if e.2 then ⟨s.convert c e.1, 0, true⟩ else ⟨0, 0, false⟩

/-- The samples of a normal-mode word: containers of M = 1, or I and Q alternating (R77). -/
def State.wordSamples (s : State) (c : Nat) : List (Nat × Bool) → List ChainSample
  | a :: b :: r =>
    if s.complexIn c then ⟨s.convert c a.1, s.convert c b.1, a.2 && b.2⟩ :: s.wordSamples c r
    else s.realSample c a :: s.realSample c b :: s.wordSamples c r
  | [a] => [s.realSample c a]
  | [] => []

/-- Passes the samples of a normal-mode word through the chain. -/
def State.chainWord (c : Nat) : List ChainSample → (k : Nat) → State × CndWord → State × CndWord
  | [], _, r => r
  | v :: rest, k, r =>
    State.chainWord c rest (k + 1) (r.1.chainSample c k (r.1.intakeTime c k) v r.2)

/-- Passes the sample pairs of a paired word through interleave correction and the chain; a hand-over at either
sample of a pair comes before its correction (R95). -/
def State.pairWord (c : Nat) : List (ChainSample × ChainSample) → (k : Nat) → State × CndWord →
    State × CndWord
  | [], _, r => r
  | p :: rest, k, r =>
    let t := r.1.intakeTime c k
    let a := (r.1.cndMeets c t).ilEven c p.1 r.2
    let r := a.1.chainSample c k t a.2.1 a.2.2
    let t := r.1.intakeTime c (k + 1)
    let b := (r.1.cndMeets c t).ilOdd c a.2.1 p.2 r.2
    State.pairWord c rest (k + 2) (b.1.chainSample c (k + 1) t b.2.1 b.2.2)

/-- Takes up to 16 containers out of a group's buffer; in IDLE they are invalid (R70). A group that has left
RUN brings invalid ones in their place (R31, R69). -/
def State.takeWord (s : State) (g : Nat) : State × List (Nat × Bool) :=
  let x := s.lane g
  if s.groupRun g then
    (s.setLane g { x with buf := x.buf.drop 16 },
      (x.buf.take 16).map fun e => (e.1, e.2 && !s.idleOrLower))
  else (s.setLane g { x with buf := [] }, List.replicate 16 (0, false))

/-- Advances the sample count of a group. -/
def State.advance (s : State) (g n : Nat) : State := s.setLane g { s.lane g with n := (s.lane g).n + n }

/-- A word of a normal-mode group reaches its channel. -/
def State.laneWord (s : State) (c : Nat) : State :=
  let t := s.takeWord c
  let m := if s.complexIn c then t.2.length / 2 else t.2.length
  let k := (s.lane c).n
  let s := t.1.advance c m
  if s.bit (Reg.CND_STS c) 0 then
    let s := t.2.foldl (fun s e => s.noteOver c e.1) s
    let r := State.chainWord c (s.wordSamples c t.2) k (s, ⟨[], 0, 0⟩)
    r.1.setCnd c { r.1.cndCh c with words := (r.1.cndCh c).words ++ [r.2] }
  else s

/-- A word of a pair reaches its channel (R16, R58). -/
def State.pairedWord (s : State) (c : Nat) : State :=
  let t := s.takeWord c
  let u := t.1.takeWord (c + 1)
  let k := (s.lane c).n
  let s := (u.1.advance c t.2.length).advance (c + 1) u.2.length
  if s.bit (Reg.CND_STS c) 0 then
    let s := (t.2 ++ u.2).foldl (fun s e => s.noteOver c e.1) s
    let xs := List.zip (t.2.map (s.realSample c)) (u.2.map (s.realSample c))
    let r := State.pairWord c xs (2 * k) (s, ⟨[], 0, 0⟩)
    r.1.setCnd c { r.1.cndCh c with words := (r.1.cndCh c).words ++ [r.2] }
  else s

/-- A full word waits in a group's buffer. -/
def State.wordReady (s : State) (g : Nat) : Bool := decide (16 ≤ (s.lane g).buf.length)

/-- The channel of a group, or of a pair, that has left RUN goes on with invalid samples on the grid of the
latest release (R31, R217), while FRONT runs. (DEDUCED, log entry 21.) -/
def State.lostFeed (s : State) (g : Nat) : Bool :=
  !s.groupRun g && (s.lane g).released && s.bit (Reg.CND_STS g) 0 && decide (s.power ≤ 1)

/-- LANE_WORD (R31, R37): group `g`, the even one of a pair, delivers a word. -/
def execLaneWord (g : Fin 4) (s : State) : Host.Outcome State Fault Refusal :=
  .next (if s.pairedOff g then s
    else if s.groupRun g then
      if s.pairedOn g then
        if s.wordReady g && s.wordReady (g + 1) then s.pairedWord g else s
      else if s.wordReady g then s.laneWord g else s
    else if s.lostFeed g then if s.pairedOn g then s.pairedWord g else s.laneWord g
    else s)

/-! ### What leaves conditioning (R76, R92) -/

/-- Saturations of a word are counted (R92, R102). -/
def State.noteSats (s : State) (c : Nat) (w : CndWord) : State :=
  let was := s.fld (Reg.CND_EVT c) 14 0
  let s := if w.sats = 0 then s else s.bumpSat (Reg.CND_SAT_CNT c) 32 w.sats
  let s := s.setFld (Reg.CND_EVT c) 14 0 (was ||| w.satAt)
  (List.range 15).foldl (fun s b =>
    if w.satAt.testBit b && !was.testBit b then s.raise (196 + c) else s) s

/-- One output sample goes to the condition units, the IQ feeds and the spectral engine. A sample from before
the latest release (`old`) belongs to a frame grid that has ended (R106). -/
def State.outSample (c : Nat) (old : Bool) (s : State) (x : OutSample) : State :=
  let s := State.feedSample c (State.trigSample c old s x) x
  if old then s else State.spxSample c s x

/-- A word leaves conditioning (R76). -/
def State.wordLeaves (s : State) (c : Nat) (old : Bool) (w : CndWord) : State :=
  let s := s.noteSats c w
  let s := w.outs.foldl (State.outSample c old) s
  let s := match w.outs.getLast? with
    | some x => s.putBit (Reg.CND_STS c) 1 x.valid
    | none => s
  s.recWord c w.outs

/-- A hand-over of this channel's resolutions took settings that the spec gives no outcome for. -/
def State.spxUndefined (s t : State) (c : Nat) : Bool :=
  [2 * c, 2 * c + 1].any fun r =>
    s.rdN (Reg.SPX_SHADOW_GEN r) != t.rdN (Reg.SPX_SHADOW_GEN r) && t.verUndefined (t.res r).ver

/-- CONDITIONING_OUTPUT (R76): the oldest word in the chain leaves it. -/
def execConditioningOutput (c : Fin 4) (s : State) : Host.Outcome State Fault Refusal :=
  match (s.cndCh c).words with
  | w :: rest =>
    let x := s.cndCh c
    let t := (s.setCnd c { x with words := rest, oldWords := x.oldWords - 1 }).wordLeaves c
      (decide (0 < x.oldWords)) w
    if s.spxUndefined t c then .fault (.undefinedOutcome 112)
    else if s.traceUndefined c 0 || s.traceUndefined c 1 then .fault (.undefinedOutcome 260)
    else .next t
  | [] => .next s

/-! ### Commands -/

/-- The chain right after ENABLE := 1. -/
def State.freshChain (s : State) (c : Nat) : CndChan :=
  { (default : CndChan) with
    act := (s.cndCh c).act, enabling := true, stages := List.replicate (s.dEff c) default }

/-- A channel's conditioning begins to run (R95, R104, R106, R110). -/
def State.cndStart (s : State) (c : Nat) : State :=
  let x := s.cndCh c
  let s := s.setCnd c { s.freshChain c with now := x.now, timed := x.timed }
  let s := (((s.putBit (Reg.CND_STS c) 0 true).chainFigures c).spxRestart c).newOrigin c
  ((s.spxRate c).cndIdleDue c).eqJudge c

/-- ENABLE := 1 on a channel's conditioning. (DEDUCED, log entry 21.) -/
def State.cndEnable (s : State) (c : Nat) : State :=
  if s.bit (Reg.CND_CTL c) 0 then s
  else
    let s := s.putBit (Reg.CND_CTL c) 0 true
    if s.pairedOff c then s else s.cndStart c

/-- The settings of a channel give its chain no outcome (R73, R609). -/
def State.chainUndefined (s : State) (c : Nat) : Bool := s.rateUndefined c || decide (12 < s.chainD c)

/-- CND_ENABLE (R99). -/
def execCndEnable (c : Fin 4) (s : State) : Host.Outcome State Fault Refusal :=
  if s.parityStopped (Reg.CND_CTL c) then .next s
  else
    if !s.bit (Reg.CND_CTL c) 0 && !s.pairedOff c && s.chainUndefined c then
      .fault (.undefinedOutcome 73)
    else .next (s.cndEnable c)

/-- A channel's conditioning stops: nothing it holds leaves it, and no correction is in use (R99, R101, R138,
R211). (DEDUCED, log entry 21.) -/
def State.cndStop (s : State) (c : Nat) : State :=
  if s.bit (Reg.CND_STS c) 0 then
    let s := s.setCnd c { s.cndCh c with words := [], oldWords := 0, enabling := false }
    let s := (s.putBit (Reg.CND_STS c) 0 false).putBit (Reg.CND_STS c) 1 false
    let s := (s.putBit (Reg.CND_STS c) 7 false).flushWaiting c
    if (s.writer c).caps.isEmpty then s else s.closeCaptures c 5
  else s

/-- ENABLE := 0 on a channel's conditioning. -/
def State.cndDisable (s : State) (c : Nat) : State := (s.putBit (Reg.CND_CTL c) 0 false).cndStop c

/-- CND_DISABLE (R99). -/
def execCndDisable (c : Fin 4) (s : State) : Host.Outcome State Fault Refusal :=
  let s := s.parityFree (Reg.CND_CTL c)
  .next (s.cndDisable c)

/-- CND_COMMIT (R95). -/
def execCndCommit (c : Fin 4) (s : State) : Host.Outcome State Fault Refusal := .next (s.cndCommit c)

/-- CND_COMMIT_TIMED (R95). -/
def execCndCommitTimed (c : Fin 4) (s : State) : Host.Outcome State Fault Refusal :=
  .next (s.cndCommitTimed c)

/-- CND_COMMIT_AT_REACHED (R97): a FRONT clock at or after a pending CND_COMMIT_AT. -/
def execCndCommitAtReached (c : Fin 4) (s : State) : Host.Outcome State Fault Refusal := .next (s.cndIdlePass c)

/-- Rounded square root of a quotient in units of 2 ^ -23. -/
def rootRatio (n d : Nat) : Nat :=
  if d = 0 then 0
  else
    let v := n * 2 ^ 48 / d
    (isqrtAux v 40 0 + 1) / 2

/-- IL_ESTIMATE (R80): a block of pairs has ended without an invalid sample. -/
def execIlEstimate (c : Fin 4) (s : State) : Host.Outcome State Fault Refusal :=
  let x := s.cndCh c
  match x.ilDone with
  | some b =>
    let s := s.setCnd c { x with ilDone := none }
    let s := s.wrI (Reg.CND_IL_EST_OFS c) 24 (sat24 (rneDiv (b.sumO - b.sumE) b.n))
    let f := s.draw
    let gain := if b.sqE = 0 then (Config.ilGain f.1).toNat else min (rootRatio b.sqO b.sqE) 0xFFFFFFFF
    let s := f.2.wrN (Reg.CND_IL_EST_GAIN c) gain
    let s := s.wrN (Reg.CND_IL_EST_SKEW c) (Config.ilSkew f.1).toNat
    .next (s.bump (Reg.CND_IL_EST_BLOCKS c) 32)
  | none => .next s

end Sys2Proof.Machine
end

