-- ==== Sys2Proof/Machine/Lanes.lean ====
section
/-! DEFINITION. Lane intake (R35-R71): group states, alignment and release, the data that arrives, and
what serves the digitiser: presence, identity, SPI, I²C and eye scans. -/

namespace Sys2Proof.Machine

/-! ### Lanes in use -/

/-- L of R47. -/
def State.laneCount (s : State) (g : Nat) : Nat := s.fld (Reg.LNK_JESD_PARAMS g) 3 0 + 1

/-- The J-lane that carries logical lane `l` (R36). -/
def State.jLane (s : State) (g l : Nat) : Nat :=
  12 * g + s.fld (Reg.LNK_LANE_MAP g) (4 * l + 3) (4 * l)

/-- The J-lanes in use. -/
def State.lanesUsed (s : State) (g : Nat) : List Nat := (List.range (s.laneCount g)).map (s.jLane g)

/-- STATE of a group (R60): 0 OFF, 1 WAIT_PRESENT, 2 POWER, 3 CDR, 4 ADAPT, 5 SYNC, 6 ALIGN, 7 RUN,
8 TEST, 9 FAULT. -/
def State.laneState (s : State) (g : Nat) : Nat := s.fld (Reg.LNK_GRP_STATE g) 3 0

/-- The group's timer has reached a span. -/
def State.laneTimeout (s : State) (g d : Nat) : Bool := s.elapsed (s.lane g).since d

/-- The timeout of the group's state has passed: a condition that completes in the clock in which it expires still counts
as completed (R60). -/
def State.laneExpired (s : State) (g d : Nat) : Bool := s.overdue (s.lane g).since d

/-- The groups that act with `g`: both of a pair (R57, R59). -/
def State.partners (s : State) (g : Nat) : List Nat :=
  if s.pairedOn g then [g, g + 1] else if s.pairedOff g then [g - 1, g] else [g]

/-- The group that leads a pair. -/
def State.leader (s : State) (g : Nat) : Nat := if s.pairedOff g then g - 1 else g

/-- Sets bits of the status of the lanes in use. -/
def State.laneBits (s : State) (g b : Nat) (on : Bool) : State :=
  (s.lanesUsed g).foldl (fun s j => s.putBit (Reg.LNK_LANE_STS j) b on) s

/-- Every lane in use has a bit of its status. -/
def State.allLanes (s : State) (g b : Nat) : Bool := (s.lanesUsed g).all fun j => s.bit (Reg.LNK_LANE_STS j) b

/-- Some lane in use has FREQ_OFS_FAULT (R39). -/
def State.freqBad (s : State) (g : Nat) : Bool :=
  (s.lanesUsed g).any fun j => s.bit (Reg.LNK_LANE_STS j) 10

/-- The lane loops back (R42). -/
def State.loops (s : State) (j : Nat) : Bool := s.fld (Reg.LNK_LANE_CTL j) 3 2 == 1

/-- All logical lanes loop back. -/
def State.allLoop (s : State) (g : Nat) : Bool := (s.lanesUsed g).all s.loops

/-! ### Group states (R60, R69, R71) -/

/-- What leaving RUN means for the channel that the group feeds (R31, R71, R97, R138, R193). -/
def State.leaveRun (s : State) (g : Nat) : State :=
  let s := (s.putBit (Reg.LNK_GRP_STATE g) 21 false).raise (132 + g)
  if s.pairedOff g then s
  else
    let s := s.postFaults 0 (s.faultTargets g)
    (s.flushWaiting g).cndIdleDue g

/-- SYNCBg is driven low or high (R48). -/
def State.driveSync (s : State) (g : Nat) (low : Bool) : State :=
  if (s.lane g).syncLow = low then s
  else (s.setLane g { s.lane g with syncLow := low }).send (.pin "SYNCB" g (b2n !low))

/-- Enters a group state. SYNCBg is high in every state but SYNC. (DESIGN CHOICE, log entry 59.) -/
def State.enterLane (s : State) (g st : Nat) : State :=
  let was := s.laneState g
  let s := s.setFld (Reg.LNK_GRP_STATE g) 3 0 st
  let s := s.setLane g { s.lane g with since := s.clk.up, capture := none }
  let s := if st = 5 then s else s.driveSync g false
  if was = 7 ∧ st ≠ 7 then s.leaveRun g else s

/-- What a group's lanes hold is gone. -/
def State.lanesEmpty (s : State) (g : Nat) : State :=
  s.setLane g { s.lane g with buf := [], part := [], scr := [], raw := [] }

/-- Powers the lanes of a group down. -/
def State.lanesDown (s : State) (g : Nat) : State :=
  let s := (List.range 12).foldl (fun s p => s.wr (Reg.LNK_LANE_STS (12 * g + p)) 0) s
  (s.setFld (Reg.LNK_GRP_STATE g) 19 8 0).lanesEmpty g

/-- The group goes OFF with its lanes down (R60). -/
def State.laneOff (s : State) (g : Nat) : State := (s.enterLane g 0).lanesDown g

/-- Enters POWER. -/
def State.lanePower (s : State) (g : Nat) : State := s.enterLane g 2

/-- Enters CDR with fresh lane status: looped lanes read locked and adapted (R42), and FREQ_OFS_FAULT stays while its
cause stands (R45). -/
def State.laneCdr (s : State) (g : Nat) : State :=
  let off := (s.lanesUsed g).filter fun j => s.bit (Reg.LNK_LANE_STS j) 10
  let s := (s.lanesDown g).enterLane g 3
  let s := off.foldl (fun s j => s.putBit (Reg.LNK_LANE_STS j) 10 true) s
  (s.lanesUsed g).foldl (fun s j =>
    if s.loops j then (s.putBit (Reg.LNK_LANE_STS j) 0 true).putBit (Reg.LNK_LANE_STS j) 1 true else s) s

/-- Enters WAIT_PRESENT, or POWER at once where presence is not awaited or stands (R60). (DEDUCED, log entry 19.) -/
def State.laneStart (s : State) (g : Nat) : State :=
  if s.bit (Reg.LNK_GRP_CTL g) 4 && !s.bit (Reg.LNK_GRP_STATE g) 20 then s.enterLane g 1
  else s.lanePower g

/-- The group enters FAULT with a cause (R60, R63, R71). -/
def State.faultGroup (s : State) (g cause : Nat) : State :=
  let s := (s.setFld (Reg.LNK_GRP_STATE g) 7 4 cause).enterLane g 9
  s.raise (144 + g)

/-- A fault of a group: its partner faults with cause PARTNER (R59). Presence lost goes on to
WAIT_PRESENT at once (R69). -/
def State.laneFault (s : State) (g cause : Nat) : State :=
  let s := (s.partners g).foldl (fun s h =>
    if h = g then s.faultGroup g cause
    else if s.laneState h = 0 ∨ s.laneState h = 9 then s else s.faultGroup h 10) s
  if cause = 8 then (s.enterLane g 1).lanesDown g else s

/-- A parity stop of a group (R60): OFF without passing FAULT; the partner stops with PARTNER. -/
def State.laneParity (s : State) (g : Nat) : State :=
  (s.partners g).foldl (fun s h =>
    (s.setFld (Reg.LNK_GRP_STATE h) 7 4 (if h = g then 12 else 10)).laneOff h) s

/-- The group was stopped by parity and waits for ENABLE 0 and then 1 (R60, R513). -/
def State.parityHeld (s : State) (g : Nat) : Bool :=
  (s.partners g).any fun h => s.mgt.stopped.contains (Reg.LNK_GRP_CTL h)

/-- ENABLE := 1 (R57, R60, R63): the even group's bit starts both of a pair; CAUSE reads 0 again. A group that parity
holds stays in OFF, and in DOZE and below the lanes are down, so that the group starts on exit (R70). -/
def State.groupEnable (s : State) (g : Nat) : State :=
  let s := s.putBit (Reg.LNK_GRP_CTL g) 0 true
  if s.pairedOff g then s
  else
    let s := (s.partners g).foldl (fun s h => s.setFld (Reg.LNK_GRP_STATE h) 7 4 0) s
    if s.parityHeld g || decide (2 ≤ s.power) then s
    else
      (s.partners g).foldl (fun s h =>
        if s.laneState h = 0 then (s.setLane h { s.lane h with lastEdge := none }).laneStart h else s) s

/-- ENABLE := 0 (R57, R60). -/
def State.groupDisable (s : State) (g : Nat) : State :=
  let s := s.putBit (Reg.LNK_GRP_CTL g) 0 false
  if s.pairedOff g then s
  else
    let held := s.mgt.stopped.filter fun k =>
      !((s.partners g).any fun h => k == Reg.LNK_GRP_CTL h)
    let s := { s with mgt := { s.mgt with stopped := held } }
    (s.partners g).foldl State.laneOff s

/-! ### Settings without an outcome (R36, R44, R47, R50, R62) -/

/-- The link parameters keep the relations of R47, in the group's mode. -/
def State.jesdOk (s : State) (g : Nat) : Bool :=
  let v := s.rd (Reg.LNK_JESD_PARAMS g)
  let l := getF v 3 0 + 1
  let m := getF v 4 4 + 1
  let f := getF v 10 5 + 1
  let sm := getF v 15 11 + 1
  let n := getF v 19 16 + 1
  let k := getF v 26 22 + 1
  let e := getF v 30 27 + 1
  decide (l ≤ 12 ∧ 8 ≤ n ∧ n + getF v 21 20 ≤ 16 ∧ f * l = m * sm * 2) &&
    match s.laneMode g with
    | 0 => decide (256 * e % f = 0)
    | _ => decide (20 ≤ f * k ∧ f * k ≤ 1024 ∧ f * k % 4 = 0)

/-- A number of R50 and the smallest period. -/
def State.periodOk (s : State) (g : Nat) : Bool :=
  let n := s.rdN (Reg.LNK_TS_NUM g)
  let d := s.rdN (Reg.LNK_TS_DEN g)
  decide (1 ≤ n ∧ n ≤ 2 ^ 24 ∧ 1 ≤ d ∧ d ≤ 2 ^ 24) &&
    decide (d ≤ n * if s.complexIn g then 4 else 8)

/-- The lane rate lies in the range of the group's mode (R35), in kb/s. -/
def State.laneRateOk (s : State) (g : Nat) : Bool :=
  let v := s.rdN (Reg.LNK_LANE_RATE g)
  decide (8000000 ≤ v ∧ v ≤ if s.laneMode g = 1 then 16000000 else 32500000)

/-- The rule under which enabling a group with its settings has no outcome, or 0. -/
def State.groupBad (s : State) (g : Nat) : Nat :=
  let bad (j : Nat) : Bool :=
    decide (2 ≤ s.fld (Reg.LNK_LANE_CTL j) 3 2 ∨ 6 ≤ s.fld (Reg.LNK_LANE_CTL j) 6 4 ∨
      18 < s.fld (Reg.LNK_LANE_CTL j) 12 8)
  if s.laneMode g = 3 then 62
  else if !s.laneRateOk g then 35
  else if 12 < s.laneCount g ∨ (s.laneMode g ≠ 2 ∧ !s.jesdOk g) then 47
  else if !decide (s.lanesUsed g).Nodup || (s.lanesUsed g).any fun j => decide (12 * g + 12 ≤ j) then 36
  else if (s.lanesUsed g).any bad then 44
  else if !s.periodOk g then 50
  else 0

/-- The two groups of a pair hold what R57 asks of them; where they do not, R609 leaves the outcome undefined.
(DESIGN CHOICE, log entry 59.) -/
def State.pairOk (s : State) (g : Nat) : Bool :=
  !s.complexIn g && s.laneMode (g + 1) == s.laneMode g &&
    s.rd (Reg.LNK_JESD_PARAMS (g + 1)) == s.rd (Reg.LNK_JESD_PARAMS g) &&
    s.rd (Reg.LNK_LANE_RATE (g + 1)) == s.rd (Reg.LNK_LANE_RATE g) &&
    s.samplePeriod (g + 1) == s.samplePeriod g

/-- The rule under which enabling a group, or a pair, has no outcome, or 0. -/
def State.groupUndefined (s : State) (g : Nat) : Nat :=
  if s.groupBad g ≠ 0 then s.groupBad g
  else if s.pairedOn g then
    if s.groupBad (g + 1) ≠ 0 then s.groupBad (g + 1)
    else if s.pairOk g then 0 else 57
  else 0

/-- LNK_GROUP_ENABLE (R60). -/
def execLnkGroupEnable (g : Fin 4) (s : State) : Host.Outcome State Fault Refusal :=
  if !s.pairedOff g && s.groupUndefined g ≠ 0 then .fault (.undefinedOutcome (s.groupUndefined g))
  else .next (s.groupEnable g)

/-- LNK_GROUP_DISABLE (R60). -/
def execLnkGroupDisable (g : Fin 4) (s : State) : Host.Outcome State Fault Refusal :=
  .next (s.groupDisable g)

/-- PAIRED of an even group has changed (R17, R57): the even group's ENABLE, which is 0, controls both, and the
odd channel is unused (R220), its elastic buffer draining what it holds; or the odd group's and the odd
channel's own ENABLE count again. Its resolutions stop at the pair's release (R110). (DESIGN CHOICE, log entry 59.) -/
def execPairChange (g : Nat) (s : State) : Host.Outcome State Fault Refusal :=
  let o := g + 1
  if s.pairedOn g then
    let s := if s.laneState o = 0 then s else s.laneOff o
    .next (s.cndStop o)
  else
    let runs := s.bit (Reg.LNK_GRP_CTL o) 0 && !s.parityHeld o
    let chain := s.bit (Reg.CND_CTL o) 0 && !s.bit (Reg.CND_STS o) 0 && !s.parityStopped (Reg.CND_CTL o)
    let spg := s.bit (Reg.SPG_CTL o) 0 && !s.bit (Reg.SPG_STS o) 0 && !s.parityStopped (Reg.SPG_CTL o)
    let writer := s.bit (Reg.ACQ_CTL o) 0 && !s.bit (Reg.ACQ_STS o) 0 && !s.parityStopped (Reg.ACQ_CTL o)
    if runs && s.groupBad o ≠ 0 then .fault (.undefinedOutcome (s.groupBad o))
    else if chain && s.chainUndefined o then .fault (.undefinedOutcome 73)
    else if spg && s.spgUndefined o then .fault (.undefinedOutcome 246)
    else if writer && s.writerUndefined o ≠ 0 then .fault (.undefinedOutcome (s.writerUndefined o))
    else
      let s := if runs then s.groupEnable o else s
      let s := if writer then s.startWriter o else s
      let s := if spg then s.startSpg o else s
      .next (if chain then s.cndStart o else s)

/-! ### Bring-up (R60) -/

/-- A partner that faulted with this group restarts with it, once its 1 ms have passed and with
RELINK = 1 (R59, R60). (DEDUCED, log entry 19.) -/
def State.partnerRestart (s : State) (g : Nat) : State :=
  (s.partners g).foldl (fun s h =>
    if h ≠ g ∧ s.laneState h = 9 ∧ s.laneTimeout h (msec 1) ∧ s.bit (Reg.LNK_GRP_CTL (s.leader g)) 5 then
      s.laneCdr h else s) s

/-- POWER_DONE: the fixed 20 µs of POWER have passed. -/
def execPowerDone (g : Fin 4) (s : State) : Host.Outcome State Fault Refusal :=
  .next (if s.laneState g = 2 ∧ s.laneTimeout g (usec 20) then (s.laneCdr g).partnerRestart g else s)

/-- CDR_LOCK of the named logical lanes that are in their frequency range (R39). -/
def State.lanesLock (s : State) (g lanes : Nat) : State :=
  (s.lanesUsed g).zipIdx.foldl (fun s e =>
    if lanes.testBit e.2 && !s.bit (Reg.LNK_LANE_STS e.1) 10 then s.putBit (Reg.LNK_LANE_STS e.1) 0 true else s) s

/-- CDR_LOCK (R39, R45): the recovered clocks of the named logical lanes lock; a lane outside its frequency range does
not report it. With all lanes in use locked the group enters ADAPT. -/
def execCdrLock (x : LaneSet) (s : State) : Host.Outcome State Fault Refusal :=
  let g := x.group.val
  if s.laneState g = 3 then
    let s := s.lanesLock g x.lanes.toNat
    .next (if s.allLanes g 0 then s.enterLane g 4 else s)
  else .next s

/-- CDR_TIMEOUT (R39): FREQ_OFFSET where a lane in use has FREQ_OFS_FAULT. (DESIGN CHOICE, log entry 6.) -/
def execCdrTimeout (g : Fin 4) (s : State) : Host.Outcome State Fault Refusal :=
  .next (if s.laneState g = 3 ∧ s.laneExpired g (usec 100) then
    s.laneFault g (if s.freqBad g then 9 else 1) else s)

/-- The boost a lane ends with (R38): its target stands by the steps of the ageing monitor above what it
found (R574). -/
def State.boostOf (s : State) (j want : Nat) : Nat :=
  let top := s.fld (Reg.LNK_LANE_CTL j) 12 8
  if s.bit (Reg.LNK_LANE_CTL j) 13 then top else min (want + s.fld (Reg.HLT_LANE j) 18 15) top

/-- The DFE taps of one lane, unless ADAPT_FREEZE holds them (R38, R43, R44). -/
def State.dfeLane (s : State) (j : Nat) (dfe : List Int) : State :=
  let byte (t : Nat) : Nat := ofSigned 8 (dfe.getD t 0)
  if s.bit (Reg.LNK_LANE_CTL j) 7 then s
  else
    let s := s.wrN (Reg.LNK_DFE_LO j) (ofLe ((List.range 8).map fun t => BitVec.ofNat 8 (byte t)))
    s.wrN (Reg.LNK_DFE_HI j) (ofLe ((List.range 4).map fun t => BitVec.ofNat 8 (byte (8 + t))))

/-- One lane's adaptation (R38, R42): its DFE, and its CTLE boost when it converges; after that the DFE alone goes on.
A looped lane bypasses both. -/
def State.adaptLane (s : State) (j : Nat) (boost : Option Nat) (dfe : List Int) : State :=
  if s.loops j then s
  else
    let t := s.dfeLane j dfe
    match boost with
    | some b =>
      if s.bit (Reg.LNK_LANE_STS j) 1 then t
      else (t.setFld (Reg.LNK_LANE_STS j) 9 5 (t.boostOf j b)).putBit (Reg.LNK_LANE_STS j) 1 true
    | none => t

/-- Some lane of the group has PRBS_SEL other than 0 (R41). -/
def State.prbsOn (s : State) (g : Nat) : Bool :=
  (List.range 12).any fun p => s.fld (Reg.LNK_LANE_CTL (12 * g + p)) 6 4 != 0

/-- Enters SYNC (R42, R48): the loopback generator begins on the grid of the latest SYSREF edge captured
since the group was enabled, or of this tick; in 8b/10b mode SYNCBg goes low. -/
def State.laneSync (s : State) (g : Nat) : State :=
  let s := s.enterLane g 5
  let from' := (s.lane g).lastEdge.getD s.sysNow
  let ofs := s.fld (Reg.LNK_SYSREF_OFS (s.leader g)) 11 0
  let s := s.setLane g { s.lane g with
    loopN := 0, genAt := timeAdd from' ((ofs * 4096 : Nat) : Int), part := [], scr := [] }
  s.driveSync g (s.laneMode g == 1)

/-- ADAPT has ended on all lanes (R41, R60): TEST with a PRBS selected, else SYNC, which raw mode
skips. -/
def State.adaptLeaves (s : State) (g : Nat) : State :=
  if s.prbsOn g then s.enterLane g 8
  else if s.laneMode g = 2 then s.enterLane g 6
  else s.laneSync g

/-- ADAPT_DONE (R38, R45): logical lanes have converged, each with its boost, none where a lane has not, and its DFE
taps. With ADAPT_DONE on all lanes in use a group in ADAPT goes on; after ADAPT_RESTART the group stays in its state
(R60, R62). -/
def execAdaptDone (g : Fin 4) (boost : List (Option Nat)) (dfe : List (List Int)) (s : State) :
    Host.Outcome State Fault Refusal :=
  let st := s.laneState g
  if 4 ≤ st ∧ st ≤ 7 then
    let t := (s.lanesUsed g).zipIdx.foldl (fun s e =>
      s.adaptLane e.1 (boost.getD e.2 none) (dfe.getD e.2 [])) s
    .next (if st = 4 ∧ t.allLanes g 1 = true then t.adaptLeaves g else t)
  else .next s

/-- ADAPT_TIMEOUT. -/
def execAdaptTimeout (g : Fin 4) (s : State) : Host.Outcome State Fault Refusal :=
  .next (if s.laneState g = 4 ∧ s.laneExpired g (msec 5) then s.laneFault g 2 else s)

/-- ADAPT_RESTART (R62): acts only in SYNC, ALIGN or RUN, on lanes that do not loop back (R42). -/
def execAdaptRestart (g : Fin 4) (s : State) : Host.Outcome State Fault Refusal :=
  .next (if 5 ≤ s.laneState g ∧ s.laneState g ≤ 7 then
    (s.lanesUsed g).foldl (fun s j => if s.loops j then s else s.putBit (Reg.LNK_LANE_STS j) 1 false) s
  else s)

/-- The ILAS of logical lane `l` agrees with the group (R48). The ILAS of JESD204B carries no E: the values received hold
E_M1 of the group there, and [44:0] are compared whole. (DESIGN CHOICE, log entry 59.) -/
def State.ilasOk (s : State) (g l : Nat) (x : Nat × Nat × Nat × Nat) : Bool :=
  decide (x.1 % 2 ^ 45 = s.rdN (Reg.LNK_JESD_PARAMS g) % 2 ^ 45 ∧ x.2.1 = l ∧ x.2.2.1 = 1 ∧ x.2.2.2 = 1)

/-- Every lane's ILAS agrees; looped lanes send what agrees (R42, R48). -/
def State.ilasAll (s : State) (g : Nat) (xs : List (Nat × Nat × Nat × Nat)) : Bool :=
  (List.range (s.laneCount g)).all fun l =>
    s.loops (s.jLane g l) || s.ilasOk g l (xs.getD l (0, 0, 0, 0))

/-- Logical lanes in use gain SYNC_LOCK and EMB_LOCK; LANES_UP shows those with both (R45, R63). -/
def State.lanesUp (s : State) (g sync emb : Nat) : State :=
  (s.lanesUsed g).zipIdx.foldl (fun s e =>
    let k := Reg.LNK_LANE_STS e.1
    let s := if sync.testBit e.2 then s.putBit k 2 true else s
    let s := if emb.testBit e.2 then s.putBit k 3 true else s
    s.putBit (Reg.LNK_GRP_STATE g) (8 + e.2) (s.bit k 2 && s.bit k 3)) s

/-- EMB_LOCK (R45, R48, R60): logical lanes gain sync and multiblock lock. Once all have both, the ILAS of 8b/10b mode is
checked and the group enters ALIGN. -/
def execEmbLock (g : Fin 4) (x : SyncFind) (s : State) : Host.Outcome State Fault Refusal :=
  if s.laneState g = 5 then
    let s := s.lanesUp g x.sync.toNat x.emb.toNat
    if !(s.allLanes g 2 && s.allLanes g 3) then .next s
    else if s.laneMode g = 1 then
      let seen := if s.loops (s.jLane g 0) then s.rdN (Reg.LNK_JESD_PARAMS g)
        else (x.ilas.getD 0 (0, 0, 0, 0)).1
      let s := (s.driveSync g false).wrN (Reg.LNK_ILAS_SEEN g) (seen % 2 ^ 45)
      let s := s.setLane g { s.lane g with loopN := 0, part := [] }
      if s.ilasAll g x.ilas then .next (s.enterLane g 6)
      else if s.bit (Reg.LNK_GRP_CTL g) 6 then .next (s.laneFault g 5)
      else .next ((s.raise (148 + g)).enterLane g 6)
    else .next ((s.setLane g { s.lane g with part := [] }).enterLane g 6)
  else .next s

/-- SYNC_TIMEOUT. -/
def execSyncTimeout (g : Fin 4) (s : State) : Host.Outcome State Fault Refusal :=
  .next (if s.laneState g = 5 ∧ s.laneExpired g (msec 1) then s.laneFault g 3 else s)

/-- SYSREF_MISSING: none in raw mode. -/
def execSysrefMissing (g : Fin 4) (s : State) : Host.Outcome State Fault Refusal :=
  .next (if s.laneState g = 6 ∧ s.laneMode g ≠ 2 ∧ s.laneExpired g (msec 100) then s.laneFault g 4 else s)

/-- FAULT_RELINK (R59, R60): after 1 ms a group, or a pair, restarts at CDR. The RELINK of a pair is that of
the group that leads it. (DESIGN CHOICE, log entry 59.) -/
def execFaultRelink (g : Fin 4) (s : State) : Host.Outcome State Fault Refusal :=
  let ready := (s.partners g).all fun h => s.laneState h == 9 && s.laneTimeout h (msec 1)
  .next (if ready && s.bit (Reg.LNK_GRP_CTL (s.leader g)) 5 then (s.partners g).foldl State.laneCdr s else s)

/-- The logical lanes in use, among those that `lost` names, that do not loop back (R42) and hold what the group's link
rests on: CDR_LOCK in raw mode, else SYNC_LOCK or EMB_LOCK (R49, R55). -/
def State.lostLanes (s : State) (g lost : Nat) : List Nat :=
  (List.range (s.laneCount g)).filter fun l =>
    let k := Reg.LNK_LANE_STS (s.jLane g l)
    lost.testBit l && !s.loops (s.jLane g l) &&
      (if s.laneMode g = 2 then s.bit k 0 else s.bit k 2 || s.bit k 3)

/-- A logical lane loses EMB_LOCK, with SYNC_LOCK where that is lost, and with CDR_LOCK where the recovered
clock is lost (R45, R63). -/
def State.loseLane (g what : Nat) (s : State) (l : Nat) : State :=
  let k := Reg.LNK_LANE_STS (s.jLane g l)
  let s := (s.putBit k 3 false).putBit (Reg.LNK_GRP_STATE g) (8 + l) false
  let s := if 1 ≤ what then s.putBit k 2 false else s
  if 2 ≤ what then s.putBit k 0 false else s

/-- LINK_LOST (R49, R55, R70): a group in SYNC, ALIGN or RUN whose logical lanes lose lock, and a raw group from
ADAPT on whose lanes lose CDR lock, faults; with cause CLOCK while SYS runs from its bypass clock.
(DEDUCED, log entry 19.) -/
def execLinkLost (x : LockLoss) (s : State) : Host.Outcome State Fault Refusal :=
  let g := x.group.val
  let ls := s.lostLanes g x.lanes.toNat
  let st := s.laneState g
  let held := if s.laneMode g = 2 then x.what.val = 2 ∧ 4 ≤ st ∧ st ≤ 8 else 5 ≤ st ∧ st ≤ 7
  .next (if held ∧ ls ≠ [] then
    (ls.foldl (State.loseLane g x.what) s).laneFault g (if s.pllLocked 0 then 7 else 11)
  else s)

/-- The frequency offset of a J-lane in use leaves ±200 ppm, or returns within it (R39, R45). Outside that range the lane
does not report CDR_LOCK. -/
def State.laneOffset (s : State) (j : Nat) (on : Bool) : State :=
  let g := j / 12
  let st := s.laneState g
  if !(s.lanesUsed g).contains j ∨ s.loops j ∨ st < 3 then s
  else
    let s := s.putBit (Reg.LNK_LANE_STS j) 10 on
    if !on then s
    else
      let s := s.putBit (Reg.LNK_LANE_STS j) 0 false
      if 4 ≤ st ∧ st ≤ 7 then s.laneFault g 9 else s

/-! ### Alignment (R51-R54, R56) -/

/-- P of R51 in SYS ticks. -/
def State.lemcPeriod (s : State) (g : Nat) : Nat × Nat :=
  let v := s.rd (Reg.LNK_JESD_PARAMS g)
  let p := s.samplePeriod g
  let sm := getF v 15 11 + 1
  if s.laneMode g = 0 then (256 * (getF v 30 27 + 1) * sm * p.1, (getF v 10 5 + 1) * p.2)
  else ((getF v 26 22 + 1) * sm * p.1, p.2)

/-- The grid error of an edge `d` ticks after a time that lies `r` behind a grid point, as numerator over the period's
denominator: an edge halfway is measured against the later point (R53). -/
def gridError (d r : Nat) (p : Nat × Nat) : Int :=
  let n : Int := d * p.2 + r
  n - rnuDiv n p.1 * p.1

/-- A SYSREF edge is checked against the grid of the latest release (R53, R70). Each group of a pair checks
with its own SYSREF_WINDOW; SYSREF_REALIGN is that of the group that leads. (DESIGN CHOICE, log entry 59.) -/
def State.sysrefCheck (s : State) (edge g : Nat) : State :=
  let p := (s.lane g).gridP
  if p.1 = 0 then s
  else
    let d := (edge + timeMod - (s.lane g).grid) % timeMod / 4096
    let e := gridError d (s.lane g).gridRem p
    let s := s.wrI (Reg.LNK_SYSREF_ERR g) 24 (rneDiv e p.2)
    if s.fld (Reg.LNK_GRP_CTL g) 11 8 * p.2 < e.natAbs then
      let s := s.raise (148 + g)
      if s.bit (Reg.LNK_GRP_CTL (s.leader g)) 7 ∧ s.laneState g = 7 then
        let s := s.enterLane g 6
        s.setLane g { s.lane g with capture := some edge, buf := [] }
      else s
    else s

/-- A SYSREF edge meets one group (R42, R51, R53, R70). (DEDUCED, log entry 19.) The release of a pair starts from an edge
captured while both groups are in ALIGN. (DESIGN CHOICE, log entry 59.) -/
def State.sysrefGroup (edge : Nat) (s : State) (g : Nat) : State :=
  let s := s.wr (Reg.LNK_SYSREF_LAST g) (s.stampAt edge).word
  let st := s.laneState g
  let s := if st = 0 then s else s.setLane g { s.lane g with lastEdge := some edge }
  if s.laneMode g = 2 then s
  else if st = 6 then
    let x := s.lane g
    let all := (s.partners g).all fun h => s.laneState h == 6
    if x.capture.isNone && all then s.setLane g { x with capture := some edge } else s
  else if st = 7 ∨ (st = 5 ∧ (s.lane g).released) then s.sysrefCheck edge g
  else s

/-- SYSREF_EDGE (R51, R53, R499). -/
def execSysrefEdge (s : State) : Host.Outcome State Fault Refusal :=
  if s.pllLocked 0 then .next ((List.range 4).foldl (State.sysrefGroup s.sysNow) s)
  else .next (if s.pllState 0 = 1 then s.bumpSat Reg.CLK_SYSREF_SKIPPED 32 else s)

/-- B_0 in FRAC units (R51). -/
def State.boundary (s : State) (g c : Nat) : Nat :=
  timeAdd c ((s.fld (Reg.LNK_SYSREF_OFS (s.leader g)) 11 0 * 4096 : Nat) : Int)

/-- The release point of a group whose edge or RAW_GO tick is `c` (R51, R56). -/
def State.releasePoint (s : State) (g c : Nat) : Nat :=
  if s.laneMode g = 2 then c
  else s.edgeFrom (timeAdd (s.boundary g c) ((s.fld (Reg.LNK_RELEASE_OFS (s.leader g)) 11 0 * 4096 : Nat) : Int))

/-- The arrival of a looped lane after the boundary `b` (R42): 16 ticks, and the offset of the generator's
grid from the LEMC grid, in whole ticks. (DEDUCED, log entry 19.) -/
def State.loopArrival (s : State) (g b : Nat) : Int :=
  let p := s.lemcPeriod (s.leader g)
  let d := timeDiff (s.lane g).genAt b / 4096
  16 + floorDiv (d * p.2 % p.1) p.2

/-- The arrivals of a group's logical lanes: those brought, and for looped lanes the generator's. -/
def State.laneArrivals (s : State) (g b : Nat) (xs : List (Option Int)) : List (Option Int) :=
  (List.range (s.laneCount g)).map fun l =>
    if s.loops (s.jLane g l) && s.laneMode g != 2 then some (s.loopArrival g b) else xs.getD l none

/-- Writes LNK_ARRIVAL of a group's lanes. -/
def State.arrivals (s : State) (g : Nat) (xs : List (Option Int)) : State :=
  (s.lanesUsed g).zipIdx.foldl (fun s e =>
    match xs.getD e.2 none with
    | some a => s.wrI (Reg.LNK_ARRIVAL e.1) 24 a
    | none => s) s

/-- The boundary of every lane has arrived by the release point (R51); `room` is the time from the boundary to
that point in ticks. -/
def State.arrived (s : State) (g : Nat) (room : Int) (xs : List (Option Int)) : Bool :=
  s.laneMode g == 2 || (List.range (s.laneCount g)).all fun l =>
    match xs.getD l none with
    | some a => decide (a ≤ room)
    | none => false

/-- The channel that a group feeds starts a new frame origin: supports that reach back before the
release are invalid (R94, R104). Where D_eff has changed, the chain has as many stages as it now says
(R73), and the key is judged against it (R89). -/
def State.cndRelease (s : State) (c : Nat) : State :=
  let x := s.cndCh c
  let old (h : List ChainSample) : List ChainSample := h.map fun _ => ⟨0, 0, false⟩
  let stages := if x.stages.length = s.dEff c then x.stages.map fun h => { h with hist := old h.hist }
    else List.replicate (s.dEff c) default
  let s := s.setCnd c { x with
    q := 0, oldWords := x.words.length, lastT := none, eq := old x.eq, ilE := old x.ilE, ilO := old x.ilO, il := default,
    stages := if s.bit (Reg.CND_STS c) 0 then stages else x.stages }
  let s := if s.bit (Reg.CND_STS c) 0 then (s.chainFigures c).eqJudge c else s
  ((s.spxRestart c).newOrigin c).latencies c

/-- One group is released (R51, R52, R56, R71). (DEDUCED, log entry 19.) -/
def State.releaseGroup (s : State) (g c : Nat) : State :=
  let at' := s.releasePoint g c
  let adj := s.rdI (Reg.LNK_LAT_ADJ (s.leader g)) 24
  let t0 := timeAdd (if s.laneMode g = 2 then c else s.boundary g c) adj
  let s := s.enterLane g 7
  let s := s.setLane g { s.lane g with
    t0 := t0, relAt := at', grid := c, gridRem := 0, released := true, n := 0,
    gridP := if s.laneMode g = 2 then (0, 1) else s.lemcPeriod (s.leader g) }
  let s := s.wr (Reg.LNK_ANCHOR g) (s.stampAt t0 true).word
  let s := (s.putBit (Reg.LNK_GRP_STATE g) 21 true).bump (Reg.LNK_RUN_COUNT g) 32
  s.raise (128 + g)

/-- RELEASE (R51): the release point of a group, or of a pair through its even group. `here` and
`there` hold the arrivals of the logical lanes of the group and of its partner, none for a boundary
that has not arrived. A release that takes a running channel above its output rate has no outcome (R73). -/
def execLnkRelease (g : Fin 4) (here there : List (Option Int)) (s : State) :
    Host.Outcome State Fault Refusal :=
  let gs := s.partners g
  match (s.lane g).capture with
  | some c =>
    if !s.pairedOff g && (gs.all fun h => s.laneState h == 6) && atOrAfter s.time (s.releasePoint g c) then
      let b := s.boundary g c
      let room := timeDiff (s.releasePoint g c) b / 4096
      let xs := s.laneArrivals g b here
      let ys := s.laneArrivals (g + 1) b there
      let s := s.arrivals g xs
      let s := if s.pairedOn g then s.arrivals (g + 1) ys else s
      if !s.arrived g room xs then .next (s.laneFault g 6)
      else if s.pairedOn g && !s.arrived (g + 1) room ys then .next (s.laneFault (g + 1) 6)
      else if s.bit (Reg.CND_STS g) 0 && s.rateUndefined g then .fault (.undefinedOutcome 73)
      else
        let s := gs.foldl (fun s h => s.releaseGroup h c) s
        let s := s.cndRelease g
        .next (if s.pairedOn g then s.pairStops (g + 1) else s)
    else .next s
  | none => .next s

/-- RAW_GO (R56): a raw group in ALIGN releases at the next FRONT edge. A pair whose odd group has not
reached ALIGN yet keeps that edge and releases at it once both are there. (DESIGN CHOICE, log entry 59.) -/
def execRawGo (g : Fin 4) (s : State) : Host.Outcome State Fault Refusal :=
  let edge := s.edgeFrom ((s.time + 1) % timeMod)
  .next (if s.laneMode g = 2 ∧ s.laneState g = 6 ∧ !s.pairedOff g then
    (s.partners g).foldl (fun s h => s.setLane h { s.lane h with capture := some edge }) s else s)

/-! ### Data (R42, R44, R46, R49, R55) -/

/-- M of R47. -/
def State.converters (s : State) (g : Nat) : Nat := if s.complexIn g then 2 else 1

/-- S of R47. -/
def State.perFrame (s : State) (g : Nat) : Nat := s.fld (Reg.LNK_JESD_PARAMS g) 15 11 + 1

/-- F of R47. -/
def State.frameOctets (s : State) (g : Nat) : Nat := s.fld (Reg.LNK_JESD_PARAMS g) 10 5 + 1

/-- Adds to a counter of every lane in use what the list gives its logical lane (R43). -/
def State.countLanes (s : State) (g : Nat) (n : Nat → Nat) (k : Nat → Nat) : State :=
  (s.lanesUsed g).zipIdx.foldl (fun s e => if s.loops e.1 then s else s.bumpSat (k e.1) 32 (n e.2)) s

/-- One octet of a self-synchronous descrambler 1 + x^a + x^b, most significant bit first, from the latest `b`
bits received: the new latest bits and the octet. -/
def descrambleOctet (a b st o : Nat) : Nat × Nat :=
  (List.range 8).foldl (fun (x : Nat × Nat) i =>
    let bit := o / 2 ^ (7 - i) % 2
    let out := (bit + x.1 / 2 ^ (a - 1) + x.1 / 2 ^ (b - 1)) % 2
    ((x.1 * 2 + bit) % 2 ^ b, x.2 * 2 + out)) (st, 0)

/-- The octets of a lane descrambled. -/
def descramble (a b : Nat) : List Nat → Nat → Nat × List Nat
  | [], st => (st, [])
  | o :: r, st =>
    let x := descrambleOctet a b st o
    let y := descramble a b r x.1
    (y.1, x.2 :: y.2)

/-- Descrambles what a lane brings (R35, R46, R47): 64b/66b streams by 1 + x^39 + x^58, 8b/10b streams with
SCR = 1 by 1 + x^14 + x^15. (PRESUMED, log entry 60.) -/
def State.descrambled (s : State) (g st : Nat) (os : List Nat) : Nat × List Nat :=
  if s.laneMode g = 0 then descramble 39 58 os st
  else if s.bit (Reg.LNK_JESD_PARAMS g) 31 then descramble 14 15 os st
  else (st, os)

/-- The octet that the generator of a looped lane sends at a position (R42): sample n of every converter is
n mod 65,536, in the transport order of `frameSamples`. -/
def State.loopOctet (s : State) (g l pos : Nat) : Nat :=
  let f := s.frameOctets g
  let slot := (l * f + pos % f) / 2
  let v := (pos / f * s.perFrame g + slot % s.perFrame g) % 65536
  if (l * f + pos % f) % 2 = 0 then v / 256 else v % 256

/-- 16-bit containers from octets, the most significant octet first; both must be valid. -/
def containers : List (Nat × Bool) → List (Nat × Bool)
  | a :: b :: r => (a.1 * 256 + b.1, a.2 && b.2) :: containers r
  | _ => []

/-- The samples of one frame from each lane's octets of it, in lane order: the transport layer of R46 lays the
samples of converter 0, then those of converter 1, on lanes 0 to L - 1 in turn, whether or not HD lets a
sample span two lanes. I and Q alternate in the result. (PRESUMED, log entry 60.) -/
def State.frameSamples (s : State) (g : Nat) (os : List (List (Nat × Bool))) : List (Nat × Bool) :=
  let xs := containers os.flatten
  if s.complexIn g then
    (List.range (s.perFrame g)).flatMap fun i =>
      [xs.getD i (0, false), xs.getD (s.perFrame g + i) (0, false)]
  else xs

/-- The samples of the whole frames at the front of the lanes' octets, and the octets left. -/
def State.wholeFrames (s : State) (g : Nat) : (fuel : Nat) → List (List (Nat × Bool)) →
    List (Nat × Bool) × List (List (Nat × Bool))
  | 0, os => ([], os)
  | fuel + 1, os =>
    let f := s.frameOctets g
    if os.all fun o => decide (f ≤ o.length) then
      let r := s.wholeFrames g fuel (os.map (·.drop f))
      (s.frameSamples g (os.map (·.take f)) ++ r.1, r.2)
    else ([], os)

/-- The octet that an inverted 8b/10b code group decodes to: its sub-blocks of even weight turn into one another, the
others keep their value. (PRESUMED, log entry 60.) -/
def invertOctet (o : Nat) : Nat :=
  let x := o % 32
  let y := o / 32
  let x' := if [3, 5, 6, 9, 10, 11, 12, 13, 14, 17, 18, 19, 20, 21, 22, 25, 26, 28].contains x then 31 - x else x
  let y' := if y = 1 ∨ y = 2 ∨ y = 5 ∨ y = 6 then 7 - y else y
  y' * 32 + x'

/-- What a lane brings past its POLARITY (R44): inverted bits, in 8b/10b mode inverted code groups. -/
def State.polarised (s : State) (g l : Nat) (os : List Nat) : List Nat :=
  if !s.bit (Reg.LNK_LANE_CTL (s.jLane g l)) 1 then os
  else if s.laneMode g = 0 then os.map fun o => 255 - o
  else os.map invertOctet

/-- What logical lane `l` brings, past loopback, POLARITY and descrambling: its octets and its descrambler. POLARITY does
not invert what the loopback generator sends. (DESIGN CHOICE, log entry 59.) -/
def State.laneOctets (s : State) (g l n : Nat) (os : List (BitVec 8)) : Nat × List Nat :=
  let st := (s.lane g).scr.getD l 0
  if s.loops (s.jLane g l) then
    (st, (List.range n).map fun i => s.loopOctet g l ((s.lane g).loopN + i))
  else s.descrambled g st (s.polarised g l (os.map (·.toNat)))

/-- A multiblock or a frame becomes samples; `ok` says whether its check passed on every lane (R49). Frames begin with the
multiblock that began at B_0 (R51). -/
def State.jesdSamples (s : State) (g : Nat) (cells : LaneCells) (ok : Bool) : State × List (Nat × Bool) :=
  let x := s.lane g
  let octets := cells.octets
  let held := if cells.first then [] else x.part
  let n := (octets.getD 0 []).length
  let ls := (List.range (s.laneCount g)).map fun l => s.laneOctets g l n (octets.getD l [])
  let part := ls.zipIdx.map fun e => held.getD e.2 [] ++ e.1.2.map fun o => (o, ok)
  let r := s.wholeFrames g ((part.getD 0 []).length) part
  (s.setLane g { x with part := r.2, scr := ls.map (·.1), loopN := x.loopN + n }, r.1)

/-- Samples enter the lane buffers (R49, R51): in RUN all do; in ALIGN those from the multiblock that began at
B_0 on, of which octets beyond a lane's 512 are lost and their samples invalid.
(DESIGN CHOICE, log entry 59.) -/
def State.lanePush (s : State) (g : Nat) (first : Bool) (xs : List (Nat × Bool)) : State :=
  let x := s.lane g
  let room := 512 * s.perFrame g * s.converters g / s.frameOctets g
  if s.laneState g = 7 then s.setLane g { x with buf := x.buf ++ xs }
  else if s.laneState g = 6 ∧ s.laneMode g ≠ 2 then
    if first then s.setLane g { x with buf := xs.zipIdx.map fun e => (e.1.1, e.1.2 && decide (e.2 < room)) }
    else if x.buf.isEmpty then s
    else
      let m := x.buf.length
      s.setLane g { x with
        buf := x.buf ++ xs.zipIdx.map fun e => (e.1.1, e.1.2 && decide (m + e.2 < room)) }
  else s

/-- A frame in SYNC without code errors on a lane: the lane has code-group lock, and once every lane has it SYNCBg goes
high (R45, R48). (DEDUCED, log entry 19.) -/
def State.codeGroupLock (s : State) (g : Nat) (good : Nat → Bool) : State :=
  if s.laneState g = 5 ∧ s.laneMode g = 1 then
    let s := (s.lanesUsed g).zipIdx.foldl (fun s e =>
      if s.loops e.1 || good e.2 then s.putBit (Reg.LNK_LANE_STS e.1) 2 true else s) s
    if s.allLanes g 2 then s.driveSync g false else s
  else s

/-- The 64-bit word that a lane brings in a raw word cycle (R55): the first bit received lands in bit 63; POLARITY
inverts it (R44). A looped lane's word holds the generator's samples (R42), counted on from cold reset over every disable
and enable. (DESIGN CHOICE, log entry 59.) -/
def State.rawWord (s : State) (g l : Nat) (os : List (BitVec 8)) : Nat :=
  let m := s.converters g
  if s.loops (s.jLane g l) then
    let base := (s.lane g).loopN * 4 * s.laneCount g + 4 * l
    ((List.range 4).map fun j => (base + j) / m % 65536 * 2 ^ (16 * j)).sum
  else
    let w := ofLe (os.take 8).reverse % 2 ^ 64
    if s.bit (Reg.LNK_LANE_CTL (s.jLane g l)) 1 then 2 ^ 64 - 1 - w else w

/-- The word of a lane `ago` word cycles back, with its alignment shifted by BITSLIP: bits of the word before it
come in from the left. (DESIGN CHOICE, log entry 59.) -/
def State.slipped (s : State) (g l ago : Nat) (hist : List (List Nat)) : Option Nat :=
  let b := s.fld (Reg.LNK_LANE_CTL (s.jLane g l)) 19 14
  match hist[ago]?, hist[ago + 1]? with
  | some w, some v => some ((v.getD l 0 * 2 ^ 64 + w.getD l 0) / 2 ^ b % 2 ^ 64)
  | some w, none => if b = 0 then some (w.getD l 0) else none
  | none, _ => none

/-- The samples a raw word cycle delivers, each lane's words shifted by its BITSLIP and delayed by its
WORDSLIP (R44, R55). (DEDUCED, log entry 19.) -/
def State.rawCycle (s : State) (g : Nat) (octets : List (List (BitVec 8))) :
    State × List (Nat × Bool) :=
  let x := s.lane g
  let ls := List.range (s.laneCount g)
  let now := ls.map fun l => s.rawWord g l (octets.getD l [])
  let hist := (now :: x.raw).take 33
  let lane (l : Nat) : List (Nat × Bool) :=
    let w := s.slipped g l (s.fld (Reg.LNK_LANE_CTL (s.jLane g l)) 24 20) hist
    (List.range 4).map fun j => (w.getD 0 / 2 ^ (16 * j) % 65536, w.isSome)
  (s.setLane g { x with raw := hist, loopN := x.loopN + 1 }, ls.flatMap lane)

/-- RAW_SNAP (R43, R56): the present word of every logical lane, before its word delay. `words` holds what each
lane's receiver shows where it has brought too few words for one; where the command does not bring that either it
is a free value. (DESIGN CHOICE, log entry 59.) -/
def execRawSnap (g : Fin 4) (words : List (BitVec 64)) (s : State) : Host.Outcome State Fault Refusal :=
  let (f, s) := s.draw
  .next ((List.range (s.laneCount g)).foldl (fun s l =>
    let shown := (words[l]?.getD (Config.rawWord f l)).toNat
    s.wrN (Reg.LNK_RAW_WORD (s.jLane g l)) ((s.slipped g l 0 (s.lane g).raw).getD shown)) s)

/-- MULTIBLOCK (R49, R55): a multiblock, a frame, or in raw mode a word cycle arrives. `cells` holds what each
logical lane brings before its POLARITY, in raw mode 8 octets, and whether it began at B_0; `code` each
lane's invalid sync headers or code errors; `crc` the lanes with CRC-12 mismatches. -/
def execMultiblock (g : Fin 4) (cells : LaneCells) (code : List Nat) (crc : BitVec 12) (s : State) :
    Host.Outcome State Fault Refusal :=
  let st := s.laneState g
  let on (f : Nat → Bool) : Bool :=
    (List.range (s.laneCount g)).any fun l => !s.loops (s.jLane g l) && f l
  let codeBad := on fun l => code.getD l 0 != 0
  let crcBad := on fun l => crc.toNat.testBit l
  if s.laneMode g = 2 then
    if 4 ≤ st ∧ st ≤ 8 then
      let r := s.rawCycle g cells.octets
      .next (r.1.lanePush g false r.2)
    else .next s
  else if 5 ≤ st ∧ st ≤ 7 then
    let s := s.countLanes g (fun l => code.getD l 0) Reg.LNK_ERR_CODE
    if s.laneMode g = 0 then
      let s := s.countLanes g (fun l => b2n (crc.toNat.testBit l)) Reg.LNK_ERR_CRC
      let r := s.jesdSamples g cells !crcBad
      .next (r.1.lanePush g cells.first r.2)
    else
      let s := s.codeGroupLock g fun l => code.getD l 0 == 0
      let r := s.jesdSamples g cells !codeBad
      .next (r.1.lanePush g cells.first r.2)
  else .next s

/-- PRBS_LOCK (R41, R43, R460): the checker of lane `j` gains or loses lock; `errors` bit errors came since
it was last reported. Lanes 48 to 63 are F-lanes 0 to 15. -/
def execPrbsLock (j : Fin 64) (on : Bool) (errors : Nat) (s : State) : Host.Outcome State Fault Refusal :=
  let l := j.val - 48
  let r : Nat × Nat × Nat :=
    if j.val < 48 then (Reg.LNK_LANE_STS j, Reg.LNK_ERR_PRBS j, Reg.LNK_LANE_CTL j)
    else (Reg.FAB_LANE_STS l, Reg.FAB_ERR_PRBS l, Reg.FAB_LANE_CTL l)
  let s := if s.bit r.1 4 then s.bump r.2.1 64 errors else s
  .next (s.putBit r.1 4 (on && s.fld r.2.2 6 4 != 0))

/-! ### SPI and I²C (R61, R65, R67) -/

/-- The bytes of a group's 64-byte buffer. -/
def State.bufBytes (s : State) (k : Nat → Nat) (n : Nat) : List (BitVec 8) :=
  ((List.range 8).flatMap fun i => leBytes 8 (s.rdN (k i))).take n

/-- Writes bytes over the first ones of a buffer of `n` slots. -/
def State.setBuf (s : State) (k : Nat → Nat) (n : Nat) (bs : List (BitVec 8)) : State :=
  let old := (List.range n).flatMap fun i => leBytes 8 (s.rdN (k i))
  let new := (bs ++ old.drop bs.length).take (8 * n)
  (List.range n).foldl (fun s i => s.wrN (k i) (ofLe ((new.drop (8 * i)).take 8))) s

/-- Bytes that an SPI transfer sends before it receives: none of them in 4-wire mode, where both go on at once,
and those before the turnaround in 3-wire mode (R61). -/
def State.spiTurn (s : State) (g : Nat) : Nat :=
  if s.bit (Reg.LNK_SPI_CFG g) 10 then s.fld (Reg.LNK_SPI_CMD g) 12 7 else 0

/-- Bytes received take the place of bytes sent, from byte `at'` on. -/
def State.spiTake (s : State) (g : Nat) (data : List (BitVec 8)) : State :=
  let n := s.fld (Reg.LNK_SPI_CMD g) 5 0 + 1
  let t := s.spiTurn g
  let sent := s.bufBytes (Reg.LNK_SPI_DATA g) (min t n)
  s.setBuf (Reg.LNK_SPI_DATA g) 8 (sent ++ data.take (n - t))

/-- SPI_GO (R61). A GO while BUSY starts nothing and sets no flag. (DESIGN CHOICE, log entry 59.) A divider
outside 5 to 250 leaves the outcome undefined (R609). -/
def execSpiGo (g : Fin 4) (s : State) : Host.Outcome State Fault Refusal :=
  let v := s.rd (Reg.LNK_SPI_CMD g)
  let c := s.rd (Reg.LNK_SPI_CFG g)
  let n := getF v 5 0 + 1
  if s.bit (Reg.LNK_SPI_STS g) 0 then .next s
  else if getF c 7 0 < 5 ∨ 250 < getF c 7 0 then .fault (.undefinedOutcome 609)
  else
    let s := s.wrN (Reg.LNK_SPI_STS g) 1
    .next (s.send (.spi g (getF v 6 6) (getF c 7 0) (getF c 9 8) n (bitAt c 10)
      (s.bufBytes (Reg.LNK_SPI_DATA g) (if bitAt c 10 then min n (getF v 12 7) else n))))

/-- SPI_DONE (R61): the transfer ends with the bytes received. -/
def execSpiDone (g : Fin 4) (data : List (BitVec 8)) (s : State) : Host.Outcome State Fault Refusal :=
  .next (if s.bit (Reg.LNK_SPI_STS g) 0 then
    ((s.spiTake g data).wrN (Reg.LNK_SPI_STS g) 2).raise (152 + g)
  else s)

/-- I2C_GO (R61). A GO while BUSY starts nothing and sets no flag. (DESIGN CHOICE, log entry 59.) -/
def execI2cGo (g : Fin 4) (s : State) : Host.Outcome State Fault Refusal :=
  let v := s.rd (Reg.LNK_I2C_CMD g)
  let n := getF v 13 8 + 1
  .next (if s.bit (Reg.LNK_I2C_STS g) 0 then s
    else
      let s := s.wrN (Reg.LNK_I2C_STS g) 1
      let data := if bitAt v 7 then [] else s.bufBytes (Reg.LNK_I2C_DATA g) n
      s.send (.i2c g (getF v 6 0) (getF v 21 14) n (if bitAt v 22 then 400 else 100) (bitAt v 7) data))

/-- Bytes that a software I²C read has brought. -/
def State.i2cTake (s : State) (g : Nat) (data : List (BitVec 8)) : State :=
  let v := s.rd (Reg.LNK_I2C_CMD g)
  if bitAt v 7 then s.setBuf (Reg.LNK_I2C_DATA g) 8 (data.take (getF v 13 8 + 1)) else s

/-- I2C_DONE (R61): the transfer ends with the bytes read, or is refused with NACK. DONE reads 1 beside NACK and
0 beside ABORTED. (DESIGN CHOICE, log entry 59.) -/
def execI2cDone (g : Fin 4) (nack : Bool) (data : List (BitVec 8)) (s : State) :
    Host.Outcome State Fault Refusal :=
  .next (if s.bit (Reg.LNK_I2C_STS g) 0 then
    let s := if nack then s else s.i2cTake g data
    (s.wrN (Reg.LNK_I2C_STS g) (2 + b2n nack * 4)).raise (156 + g)
  else s)

/-! ### Presence and identity (R64-R67, R69) -/

/-- PRSNT_EDGE (R64). -/
def execPrsntEdge (g : Fin 4) (low : Bool) (s : State) : Host.Outcome State Fault Refusal :=
  .next (s.setLane g { s.lane g with prsntLow := low, prsntSince := s.clk.up })

/-- Transfers in progress stop at the end of their current byte, with what they have received by then; chip
selects deassert (R67). -/
def State.abortTransfers (s : State) (g : Nat) (spi i2c : List (BitVec 8)) : State :=
  let s := if s.bit (Reg.LNK_SPI_STS g) 0 then
      let s := (s.spiTake g spi).send
        (.pin (if s.bit (Reg.LNK_SPI_CMD g) 6 then "DCSB" else "DCSA") g 1)
      (s.wrN (Reg.LNK_SPI_STS g) 4).raise (152 + g)
    else s
  if s.bit (Reg.LNK_I2C_STS g) 0 then ((s.i2cTake g i2c).wrN (Reg.LNK_I2C_STS g) 8).raise (156 + g) else s

/-- The auto-ID read is aborted (R70). -/
def State.abortId (s : State) (g : Nat) : State :=
  if (s.lane g).idBusy then
    ((s.setLane g { s.lane g with idBusy := false }).putBit (Reg.LNK_GRP_STATE g) 22 false).raise (140 + g)
  else s

/-- A digitiser has arrived (R65). The auto-ID read runs beside a software I²C transfer and LNK_I2C_STS does not
show it. (DESIGN CHOICE, log entry 59.) -/
def State.arrives (s : State) (g : Nat) : State :=
  let s := (s.putBit (Reg.LNK_GRP_STATE g) 20 true).raise (136 + g)
  let s :=
    if s.bit (Reg.LNK_GRP_CTL g) 15 then
      (s.setLane g { s.lane g with idBusy := true }).send (.i2c g 0x50 0 256 400 true [])
    else s
  if s.laneState g = 1 then s.lanePower g else s

/-- A digitiser has left (R67, R69, R70). -/
def State.departs (s : State) (g : Nat) (spi i2c : List (BitVec 8)) : State :=
  let s := (s.putBit (Reg.LNK_GRP_STATE g) 20 false).raise (136 + g)
  let s := (s.abortTransfers g spi i2c).abortId g
  if s.bit (Reg.LNK_GRP_CTL g) 4 ∧ 2 ≤ s.laneState g then s.laneFault g 8 else s

/-- PRESENT_CHANGE (R64): PRSNTg has held low for 20 ms or high for 100 µs. It wakes a device in IDLE
to BANKED (R560). -/
def execPresentChange (c : PresenceChange) (s : State) : Host.Outcome State Fault Refusal :=
  let g := c.group.val
  let x := s.lane g
  let here := s.bit (Reg.LNK_GRP_STATE g) 20
  let comes := x.prsntLow && !here && s.elapsed x.prsntSince (msec 20)
  let goes := !x.prsntLow && here && s.elapsed x.prsntSince (usec 100)
  if (comes ∨ goes) ∧ s.wakeUndefined 4 1 3 then .fault (.undefinedOutcome 609)
  else if comes then .next ((s.arrives g).wakeBy 4 5 1 3)
  else if goes then .next ((s.departs g c.spi c.i2c).wakeBy 4 5 1 3)
  else .next s

/-- MAGIC and CRC of an identity image are correct (R66). -/
def idOk (bs : List (BitVec 8)) : Bool :=
  bs.take 4 == [0x43, 0x46, 0x49, 0x44] && crc32 (bs.take 252) == ofLe ((bs.drop 252).take 4)

/-- ID_READY (R65): the auto-ID read ends with the 256 bytes read. -/
def execIdReady (g : Fin 4) (image : List (BitVec 8)) (s : State) : Host.Outcome State Fault Refusal :=
  if (s.lane g).idBusy then
    let s := s.setLane g { s.lane g with idBusy := false }
    let s := (List.range 32).foldl (fun s i =>
      s.wrN (Reg.LNK_ID_IMAGE g i) (ofLe ((image.drop (8 * i)).take 8))) s
    .next ((s.putBit (Reg.LNK_GRP_STATE g) 22 (image.length == 256 && idOk image)).raise (140 + g))
  else .next s

/-! ### Eye scans (R40, R71, R486) -/

/-- The eye entries of a lane: J-lanes 0 to 47, then fabric lanes from 48 on. -/
def eyeCtl (j : Nat) : Nat := if j < 48 then Reg.LNK_EYE_CTL j else Reg.FAB_EYE_CTL (j - 48)

/-- The result entry of a lane. -/
def eyeResult (j : Nat) : Nat := if j < 48 then Reg.LNK_EYE_RESULT j else Reg.FAB_EYE_RESULT (j - 48)

/-- EYE_SCAN_START (R40, R43): the point begins and the result is cleared. A new START on the lane
replaces the point in progress. -/
def execEyeScanStart (j : Fin 64) (s : State) : Host.Outcome State Fault Refusal :=
  let s := s.wr (eyeResult j) 0
  .next { s with
    eyes := (s.eyes.filter fun e => e.1 != j.val) ++ [(j.val, s.fld (eyeCtl j) 15 13)] }

/-- EYE_DONE (R40): the point ends with the number of disagreeing bits. -/
def execEyeDone (j : Fin 64) (bad : BitVec 32) (s : State) : Host.Outcome State Fault Refusal :=
  match s.eyes.find? fun e => e.1 == j.val with
  | some (_, dwell) =>
    let s := { s with eyes := s.eyes.filter fun e => e.1 != j.val }
    let s := s.wrN (eyeResult j) (bad.toNat + 2 ^ (10 + 2 * dwell) * 2 ^ 32 + 2 ^ 63)
    .next (s.raise (if j.val < 48 then 160 + j.val / 12 else 976 + (j.val - 48) / 2))
  | none => .next s

end Sys2Proof.Machine
end

