-- ==== Sys2Proof/Machine/Timu.lean ====
section
/-! DEFINITION. Comparators and the time-interval measurement unit (R313-R342). -/

namespace Sys2Proof.Machine

/-! ### Inputs and streams -/

/-- An input beyond its entries. -/
def State.tim (s : State) (i : Nat) : TimInput := if h : i < 64 then s.tims[i] else default

/-- Replaces an input. -/
def State.setTim (s : State) (i : Nat) (x : TimInput) : State :=
  if h : i < 64 then { s with tims := s.tims.set i x } else s

/-- Stream 0 or 1 of an input. -/
def TimInput.stream (x : TimInput) (e : Nat) : TimStream := if e = 0 then x.rising else x.falling

/-- Replaces a stream. -/
def TimInput.setStream (x : TimInput) (e : Nat) (y : TimStream) : TimInput :=
  if e = 0 then { x with rising := y } else { x with falling := y }

/-- A stream of an input. -/
def State.tstream (s : State) (i e : Nat) : TimStream := (s.tim i).stream e

/-- Replaces a stream and its LEVEL. -/
def State.setTstream (s : State) (i e : Nat) (y : TimStream) : State :=
  (s.setTim i ((s.tim i).setStream e y)).wrN (Reg.TIM_S_LEVEL i e) y.fifo.length

/-- The input is enabled. -/
def State.timOn (s : State) (i : Nat) : Bool := s.bit (Reg.TIM_CTL i) 0

/-- The stream writes items. -/
def State.timWrites (s : State) (i e : Nat) : Bool := s.timOn i && s.bit (Reg.TIM_CTL i) (1 + e)

/-- MODE of a stream (R326). -/
def State.timMode (s : State) (i e : Nat) : Nat := s.fld (Reg.TIM_S_CFG i e) 2 1

/-- The INTERVAL streams whose start source is stream `e` of input `i` (R327). -/
def State.timFollowers (s : State) (i e : Nat) : List (Nat × Nat) :=
  ((List.range 64).flatMap fun j => [(j, 0), (j, 1)]).filter fun x =>
    s.timWrites x.1 x.2 && s.timMode x.1 x.2 == 1 &&
      s.fld (Reg.TIM_S_CFG x.1 x.2) 12 7 == i && s.fld (Reg.TIM_S_CFG x.1 x.2) 13 13 == e

/-- An enabled TIMU condition unit names the stream (R146, R323). -/
def State.timNamed (s : State) (i e : Nat) : Bool :=
  (List.range 4).any fun c => (List.range 8).any fun u =>
    let p := (s.verFor c u s.time).param
    s.bit (Reg.TRG_UNIT_CTL c u) 0 && s.unitType c u == 7 &&
      ((getF p 5 0 == i && getF p 6 6 == e) ||
        (getF p 12 7 == i && getF p 13 13 == e && getF p 15 14 != 0))

/-- The edges of stream `e` are stamped (R323, R363). -/
def State.timStamps (s : State) (i e : Nat) : Bool :=
  s.timWrites i e || s.timNamed i e || !(s.timFollowers i e).isEmpty || s.supWatches i

/-- Stamping is held: by the bypass clock, IDLE or a lower state, or a warm reset (R336, R337, R550). -/
def State.timHeld (s : State) : Bool := !s.pllLocked 0 || s.idleOrLower || s.quiesces

/-! ### Comparators (R313-R316) -/

/-- WIN from the comparators' bits, or a free value while THR_B lies below THR_A (R316). -/
def State.winOf (s : State) (i : Nat) : Nat × State :=
  let k := Reg.CMP_STS i
  if s.bit k 1 || s.bit k 3 then (3, s)
  else if toSigned 14 (s.fld (Reg.CMP_THR i) 29 16) < toSigned 14 (s.fld (Reg.CMP_THR i) 13 0) then
    (Config.tiWindow s.draw.1 % 4, s.draw.2)
  else (if s.bit k 2 then 2 else if s.bit k 0 then 1 else 0, s)

/-- A SEEN flag of the window and its counter (R316). -/
def State.winSeen (s : State) (i bit' counter : Nat) : State :=
  let s := s.bumpSat counter 32
  let k := Reg.CMP_STS i
  if s.bit k bit' then s
  else
    let s := s.putBit k bit' true
    if s.bit (Reg.CMP_CTL i) 0 then s.raise (608 + i / 8) else s

/-- WIN follows the comparators (R316). -/
def State.winUpdate (s : State) (i : Nat) : State :=
  let was := s.fld (Reg.CMP_STS i) 5 4
  let (w, s) := s.winOf i
  let s := s.setFld (Reg.CMP_STS i) 5 4 w
  if was = 1 ∧ w = 0 then s.winSeen i 6 (Reg.CMP_BELOW_COUNT i)
  else if was = 1 ∧ w = 2 then s.winSeen i 7 (Reg.CMP_ABOVE_COUNT i)
  else s

/-- A comparator's UNDET flag clears (R314). -/
def State.cmpDetermined (s : State) (i b : Nat) : State :=
  (s.putBit (Reg.CMP_STS i) (2 * b + 1) false).raise (616 + i / 8)

/-- A comparator is powered or restarted with its input below (0), inside (1) or above (2) the
hysteresis band (R314). -/
def State.cmpStart (s : State) (i b level : Nat) : State :=
  let k := Reg.CMP_STS i
  if level = 1 then (s.putBit k (2 * b) false).putBit k (2 * b + 1) true
  else
    let s := s.putBit k (2 * b) (decide (level = 2))
    if s.bit k (2 * b + 1) then s.cmpDetermined i b else s

/-- Hysteresis codes are in range (R313). -/
def State.cmpBad (s : State) (i : Nat) : Bool :=
  decide (50 < s.fld (Reg.CMP_HYST i) 5 0) || decide (50 < s.fld (Reg.CMP_HYST i) 13 8)

/-! ### Stamp arithmetic (R318) -/

/-- Point `j` of interpolator `k`'s table, from the slots of TIM_INL. -/
def inlPoint (tab : Nat → BitVec 64) (k j : Nat) : Nat :=
  if j = 0 then 0
  else if 64 ≤ j then 65536
  else getF (tab (16 * k + j / 4)) (16 * (j % 4) + 15) (16 * (j % 4))

/-- The present tick is T_i of the latest installation: its edges use the tables before it (R322). -/
def State.oldInUse (s : State) (i : Nat) : Bool :=
  match (s.tim i).oldTables with
  | some (ti, up, _) => s.time / 4096 == ti && decide (s.clk.up < up + 4096)
  | none => false

/-- The tables that an edge of the present tick uses (R322). -/
def State.inlTables (s : State) (i : Nat) : Nat → BitVec 64 :=
  match (s.tim i).oldTables with
  | some (_, _, old) => fun m => if s.oldInUse i then old.getD m 0 else s.rd (Reg.TIM_INL i m)
  | none => fun m => s.rd (Reg.TIM_INL i m)

/-- u as a fraction limited to 0 to 1, and RANGE (R318). -/
def unitSpan (free : Bool) (c c1 c2 : Int) : Int × Nat × Bool :=
  let d := c2 - c1
  let n := c - c1
  let (n, d) := if d < 0 then (-n, -d) else (n, d)
  if d = 0 then (b2n free, 1, true)
  else if n < 0 then (0, 1, true)
  else if d < n then (1, 1, true)
  else (n, d.toNat, decide (c2 - c1 < 3277 ∨ 4915 < c2 - c1))

/-- The time of an edge in FRAC units and RANGE (R318). (DEDUCED, log entry 36.) -/
def stampTime (tab : Nat → BitVec 64) (k tick' : Nat) (free : Bool) (c c1 c2 dly : Int) : Nat × Bool :=
  let (n, d, range) := unitSpan free c c1 c2
  let j := min 63 (64 * n / (d : Int)).toNat
  let f0 := inlPoint tab k j
  let f1 := inlPoint tab k (j + 1)
  -- g = num / (65536 d)
  let num : Int := (f0 * d : Int) + (64 * n - (j : Int) * d) * ((f1 : Int) - f0)
  (timeAdd (tick' * 4096) (rneDiv (65536 * d - num) (16 * d) - dly), range)

/-! ### Notes and items (R325, R333) -/

/-- Adds a note, or adds to a waiting LOSS or MERGED note. -/
def addNote (n : TimNote) : List TimNote → List TimNote
  | [] => [n]
  | x :: r =>
    if x.kind = n.kind ∧ (n.kind = 1 ∨ n.kind = 2) then
      { x with count := min 0xFFFFFFFF (x.count + n.count) } :: r
    else x :: addNote n r

/-- A note as an entry of the FIFO (R325): word 0 carries TS_EST forced to 1. -/
def TimNote.entry (n : TimNote) : TimEntry :=
  { kind := n.kind, w0 := setBit n.ts 61 true,
    w1 := BitVec.ofNat 64 (n.kind % 16 + n.count % 2 ^ 32 * 16) }

/-- Notes in order of KIND. -/
def notesInOrder (ns : List TimNote) : List TimEntry :=
  ((List.range 16).flatMap fun k => ns.filter fun n => n.kind == k).map TimNote.entry

/-- Adds a note to a stream. -/
def State.timNote (s : State) (i e : Nat) (n : TimNote) : State :=
  let y := s.tstream i e
  s.setTstream i e { y with notes := addNote n y.notes }

/-- An EVT bit of TIM_STS, with its event (R342). -/
def State.timAlert (s : State) (i b : Nat) : State := s.latchRaise (Reg.TIM_STS i) b (480 + 2 * i)

/-- A LOSS note among those written sets LOSS_SEEN (R340). -/
def State.timLossSeen (s : State) (i : Nat) (ns : List TimNote) : State :=
  if ns.any fun n => n.kind == 1 then s.timAlert i 4 else s

/-- Notes join those that wait. -/
def joinNotes (ns waiting : List TimNote) : List TimNote := ns.foldl (fun w n => addNote n w) waiting

/-- A data item enters its stream's FIFO with the notes `ns` that belong to it and a LOSS note that waits, or
is discarded there: its notes then wait for the next item, but a RANGE note goes with it (R325, R333).
(DEDUCED, log entry 36.) -/
def State.timPut (s : State) (i e : Nat) (ns : List TimNote) (w0 w1 : BitVec 64) : State :=
  let y := s.tstream i e
  let own := joinNotes ns (y.notes.filter fun n => n.kind == 1)
  if y.discarding ∨ 4096 < y.fifo.length + own.length + 1 then
    (s.setTstream i e { y with
      discarding := true,
      notes := addNote ⟨1, w0, 1⟩ (joinNotes (ns.filter fun n => n.kind != 8) y.notes) }).bump
        (Reg.TIM_S_LOST i e) 64
  else
    let s := s.setTstream i e { y with
      fifo := y.fifo ++ notesInOrder own ++ [⟨0, w0, w1⟩], notes := y.notes.filter fun n => n.kind != 1 }
    let s := (s.bump (Reg.TIM_S_COUNT i e) 64).wr (Reg.TIM_S_LAST i e) w0
    s.timLossSeen i own

/-- The notes that wait at a stream go with the item that a stamp gives, with a RANGE note where the stamp has
RANGE set (R318, R325). A CAL note waits for the first item that uses the new tables (R322). -/
def State.timOwn (s : State) (i e : Nat) (ts : Stamp) (range : Bool) : List TimNote × State :=
  let y := s.tstream i e
  let stays := fun n : TimNote => s.oldInUse i && n.kind == 7
  ((y.notes.filter fun n => !stays n) ++ (if range then [⟨8, ts.word, 0⟩] else []),
    s.setTstream i e { y with notes := y.notes.filter stays })

/-- A data item of the stamp itself. -/
def State.timData (s : State) (i e : Nat) (ts : Stamp) (range : Bool) (w1 : BitVec 64) : State :=
  let r := s.timOwn i e ts range
  r.2.timPut i e r.1 ts.word w1

/-! ### Modes (R326-R331) -/

/-- N of a gate of length `d` (R330): free where the input was faster than 1.6 GHz. -/
def State.gateCount (s : State) (n : Nat) (d : Int) : Nat × State :=
  if d < 6400 * (n : Int) then (Config.tiCount s.draw.1, s.draw.2) else (n, s)

/-- A gate of a FREQ stream takes a stamped edge (R330). (DEDUCED, log entry 36.) -/
def State.freqEdge (s : State) (i e : Nat) (ts : Stamp) (range : Bool) : State :=
  let y := s.tstream i e
  let open' : Option TimGate := some { opened := ts, n := 0, edge := false }
  match y.gate with
  | none => s.setTstream i e { y with gate := open' }
  | some g =>
    let d := timeDiff ts.t g.opened.t
    if (usec (s.fld (Reg.TIM_S_PARAM i e) 16 0) : Int) ≤ d then
      let (n, s) := s.gateCount g.n d
      (s.setTstream i e { s.tstream i e with gate := open' }).timData i e ts range
        (BitVec.ofNat 64 (d.toNat % 2 ^ 40 + n % 2 ^ 24 * 2 ^ 40))
    else s.setTstream i e { y with gate := some { g with edge := true } }

/-- Word 1 of a CYCLE item (R331). -/
def State.cycleWord (s : State) (t expect : Nat) : BitVec 64 :=
  if !s.ccLocked then noCc
  else match s.nearestCycle t expect with
    | none => noCc
    | some (n, d) =>
      BitVec.ofNat 64 (ofSigned 32 (clampI (-(2 ^ 31)) (2 ^ 31 - 1) (rneDiv d 65536)) +
        n % 2 ^ 32 * 2 ^ 32)

/-- A start that is lost unpaired (R328). -/
def State.timUnpaired (s : State) (i e n : Nat) : State :=
  if n = 0 then s
  else
    let y := s.tstream i e
    (s.setTstream i e { y with replaced := true }).bumpSat (Reg.TIM_S_UNPAIRED i e) 32 n

/-- A start reaches an INTERVAL stream (R327). -/
def State.timStart (s : State) (i e : Nat) (ts : Stamp) : State :=
  let y := s.tstream i e
  s.setTstream i e { y with starts := y.starts ++ [ts] }

/-- A stamped edge as an item of its own stream (R326). A stop takes the notes that wait along with it. -/
def State.timItem (s : State) (i e : Nat) (ts : Stamp) (range : Bool) : State :=
  if !s.timWrites i e then s
  else match s.timMode i e with
    | 0 => s.timData i e ts range (s.ccAt ts.t)
    | 1 =>
      let r := s.timOwn i e ts range
      let y := r.2.tstream i e
      r.2.setTstream i e { y with stops := y.stops ++ [⟨ts, r.1⟩] }
    | 2 => s.freqEdge i e ts range
    | _ => s.timData i e ts range (s.cycleWord ts.t (s.fld (Reg.TIM_S_PARAM i e) 15 0))

/-- The stream writes no more items: it is disabled, and no stop of it waits. Its waiting notes then go to the
FIFO, for the drain, once there is room for them (R325, R333). -/
def State.timFlush (s : State) (i e : Nat) : State :=
  let y := s.tstream i e
  if s.timWrites i e || !y.stops.isEmpty || y.notes.isEmpty || decide (4096 < y.fifo.length + y.notes.length) then s
  else (s.setTstream i e { y with fifo := y.fifo ++ notesInOrder y.notes, notes := [] }).timLossSeen i y.notes

/-- The time of `at'`, seen in stamps of an input: less TIM_DLY (R318). -/
def State.timSeen (s : State) (i : Nat) (at' : Nat) : Nat := timeAdd at' (-(s.rdI (Reg.TIM_DLY i) 24))

/-- Every start up to `t` and one FRAC unit more has arrived: the present tick of the start source's input lies
after it (R329). -/
def State.startsIn (s : State) (i e t : Nat) : Bool :=
  let src := s.fld (Reg.TIM_S_CFG i e) 12 7
  decide (1 < timeDiff (s.timSeen src s.sysNow) t)

/-- The start source of a stream is the stream itself (R327). -/
def State.ownStart (s : State) (i e : Nat) : Bool :=
  s.fld (Reg.TIM_S_CFG i e) 12 7 == i && s.fld (Reg.TIM_S_CFG i e) 13 13 == e

/-- A stop pairs with the latest eligible start (R327-R329). Starts before it that stay unpaired have left the
window, or the start that pairs supersedes them. -/
def State.timPair (s : State) (i e : Nat) : State :=
  let y := s.tstream i e
  match y.stops with
  | [] => s
  | p :: r =>
    let t := p.ts
    let win : Int := s.rdN (Reg.TIM_S_PARAM i e) % 2 ^ 32 * 4096
    let own := s.ownStart i e
    let before := fun a : Stamp => decide (-1 ≤ timeDiff t.t a.t) && !(own && a == t)
    let upTo := y.starts.filter before
    let rest := y.starts.filter fun a => !before a
    let hit := upTo.foldl (fun b a =>
      if timeDiff t.t a.t ≤ win then
        match b with
        | none => some a
        | some c => if later c.t a.t then some c else some a
      else b) (none : Option Stamp)
    let s := s.setTstream i e { y with stops := r, starts := rest }
    let lost := upTo.length - (if hit.isSome then 1 else 0)
    let s := s.timUnpaired i e lost
    let rep := b2n (s.tstream i e).replaced * 2 ^ 50
    let s := s.setTstream i e { s.tstream i e with replaced := false }
    let s := match hit with
      | some a =>
        let d := timeDiff t.t a.t
        let w := if d ≤ 1 then 2 ^ 48 else d.toNat % 2 ^ 48
        s.timPut i e p.notes t.word (BitVec.ofNat 64 (w + rep))
      | none =>
        let s := (s.bumpSat (Reg.TIM_S_ORPHAN i e) 32).timAlert i 7
        s.timPut i e p.notes t.word (BitVec.ofNat 64 (2 ^ 49 + rep))
    s.timFlush i e

/-- Every stop that waits at a stream pairs. -/
def State.timPairAll (i e : Nat) : (fuel : Nat) → State → State
  | 0, s => s
  | fuel + 1, s => State.timPairAll i e fuel (s.timPair i e)

/-! ### Edges (R318-R324) -/

/-- One comparator transition of a stream is counted by its open gate (R330). -/
def State.timTransition (s : State) (i e : Nat) : State :=
  let y := s.tstream i e
  match y.gate with
  | some g => s.setTstream i e { y with gate := some { g with n := g.n + 1 } }
  | none => s

/-- TIM_REF_SPAN (R319). -/
def meanSpan (xs : List Int) : Nat := ofSigned 16 (floorDiv xs.sum (max 1 xs.length))

/-- A stamp reaches its own stream, then the streams whose start source it is (R323, R327). -/
def State.timStamp (s : State) (i e : Nat) (ts : Stamp) (range : Bool) : State :=
  let s := s.timItem i e ts range
  (s.timFollowers i e).foldl (fun s f => s.timStart f.1 f.2 ts) s

/-- When an edge of the present tick came, by the island's count. -/
def State.edgeUp (s : State) (at' : Nat) : Nat := s.clk.up + at' % 4096 - s.time % 4096

/-- A stamped edge of stream `e` (R317-R323): an injected conversion that it meets in its interpolator is abandoned
(R320). -/
def State.timStampEdge (s : State) (i e at' : Nat) (c c1 c2 : Int) : State :=
  let x := s.tim i
  let n := at' / 4096
  let flat := decide (c1 = c2)
  let (t, range) := stampTime (s.inlTables i) x.rot n (Config.tiFlat s.draw.1) c c1 c2
    (s.rdI (Reg.TIM_DLY i) 24)
  let s := if flat then s.draw.2 else s
  let ts : Stamp := { t := t, fab := s.bit Reg.FAB_STS 6, deg := false, est := false }
  let spans := ((c2 - c1) :: x.spans).take 1024
  let s := s.setTim i { x with
    rot := (x.rot + 1) % 4, edgeAt := some (s.edgeUp at'), edgeTs := ts.word, spans := spans,
    inject := if x.inject = some x.rot then none else x.inject,
    oldTables := if s.oldInUse i then x.oldTables else none }
  let s := (s.wrN (Reg.TIM_REF_SPAN i) (meanSpan spans)).bump Reg.TIM_STAMPS 64
  let s := if range then (s.bumpSat (Reg.TIM_RANGE_ERR i) 32).timAlert i 6 else s
  let s := s.timStamp i e ts range
  let s := s.timuStamp i (e == 1) ts
  s.supStamp i (e == 1) ts

/-- An edge of stream `e` (R323, R324): merged, stamped, or neither. (DEDUCED, log entry 36.) -/
def State.timEdge (s : State) (i e at' : Nat) (c c1 c2 : Int) : State :=
  let s := s.timTransition i e
  let x := { s.tim i with signalAt := s.clk.up }
  let s := s.setTim i x
  if !s.timOn i || s.timHeld then s
  else if (match x.edgeAt with
      | some t => decide (s.edgeUp at' < t + 25600)
      | none => false) then
    let s := (s.bumpSat (Reg.TIM_MERGED i) 32).timAlert i 5
    if s.timWrites i e then s.timNote i e ⟨2, x.edgeTs, 1⟩ else s
  else if s.timStamps i e then s.timStampEdge i e at' c c1 c2
  else s

/-- The settings of a writing stream have an outcome that is not defined (R326, R330, R339, R609). -/
def State.timBad (s : State) (i e : Nat) : Bool :=
  s.timWrites i e &&
    ((s.timMode i e == 1 && s.rdN (Reg.TIM_S_PARAM i e) % 2 ^ 32 == 0) ||
      (s.timMode i e == 2 && (s.fld (Reg.TIM_S_PARAM i e) 16 0 == 0 ||
        decide (100000 < s.fld (Reg.TIM_S_PARAM i e) 16 0))) ||
      (!s.bit (Reg.TIM_S_CFG i e) 3 && (decide (s.fld (Reg.TIM_S_RING i e) 5 0 < 12) ||
        decide (32 < s.fld (Reg.TIM_S_RING i e) 5 0))))

/-! ### Table runs (R320-R322) -/

/-- The run's hits per interpolator. -/
def State.inlHits (s : State) : Nat := 2 ^ s.fld Reg.TIM_INL_CFG 4 0

/-- Points of an interpolator's new table, 0 to 63 (R321). -/
def newTable (hits : Nat) (bins : List Nat) : List Nat :=
  (List.range 64).map fun j => (rneDiv (65536 * ((bins.take j).sum : Int)) hits).toNat

/-- The tables pass (R321). -/
def tablePasses (hits limit : Nat) (bins : List Nat) : Bool :=
  ((newTable hits bins).zipIdx.all fun x =>
      decide (((x.1 * 4096 : Int) - 64 * x.2 * 65536).natAbs ≤ limit * 65536)) &&
    (bins.all fun b => decide (hits ≤ 128 * b ∧ 128 * b ≤ 3 * hits))

/-- The slot of points 4m to 4m + 3. -/
def tableSlot (tab : List Nat) (m : Nat) : Nat :=
  (List.range 4).foldl (fun v q => v + tab.getD (4 * m + q) 0 % 65536 * 2 ^ (16 * q)) 0

/-- A table run ends (R322). (DEDUCED, log entry 36.) -/
def State.inlEnd (s : State) (i : Nat) : State :=
  let x := s.tim i
  let hits := s.inlHits
  let s := (s.putBit (Reg.TIM_STS i) 1 false).setTim i { x with
    hist := [], inject := none, tableEnd := some (x.hist.all (tablePasses hits (s.fld Reg.TIM_INL_CFG 27 16))) }
  let tick' := s.time / 4096
  let ts := (s.stampAt (tick' * 4096)).word
  let stale := s.bit (Reg.TIM_STS i) 2
  let note := fun (n : TimNote) (s : State) =>
    [0, 1].foldl (fun s e => if s.timWrites i e then s.timNote i e n else s) s
  let s := if x.hist.all (tablePasses hits (s.fld Reg.TIM_INL_CFG 27 16)) then
      let old := (List.range 64).map fun m => s.rd (Reg.TIM_INL i m)
      let s := s.setTim i { s.tim i with oldTables := some (tick', s.clk.up, old) }
      let s := x.hist.zipIdx.foldl (fun s h =>
        (List.range 16).foldl (fun s m =>
          s.wrN (Reg.TIM_INL i (16 * h.2 + m)) (tableSlot (newTable hits h.1) m)) s) s
      let s := (s.bump (Reg.TIM_CAL_GEN i) 32).wr (Reg.TIM_CAL_TS i) ts
      let s := s.putBit (Reg.TIM_STS i) 2 false
      let s := note ⟨7, ts, s.rdN (Reg.TIM_CAL_GEN i) % 2 ^ 32⟩ s
      if stale then note ⟨9, ts, 0⟩ s else s
    else note ⟨9, ts, 1⟩ (s.putBit (Reg.TIM_STS i) 2 true)
  s.raise (481 + 2 * i)

/-- An injected conversion ends and adds to the histogram of the interpolator that its edge went to; the next
injected edge follows it there, or where no edge of the input has come for 1 µs to the next in rotation (R320,
R321). -/
def State.inlHit (s : State) (i : Nat) (c c1 c2 : Int) : State :=
  let x := s.tim i
  let k := x.inject.getD ((x.rot + 3) % 4)
  let (n, d, _) := unitSpan (Config.tiFlat s.draw.1) c c1 c2
  let s := if c1 = c2 then s.draw.2 else s
  let j := min 63 (64 * n / (d : Int)).toNat
  let bins := x.hist.getD k []
  let bins := if bins.sum < s.inlHits then bins.set j (bins.getD j 0 + 1) else bins
  let rot := if s.elapsed x.signalAt (usec 1) then (x.rot + 1) % 4 else x.rot
  let s := s.setTim i { x with hist := x.hist.set k bins, rot := rot, inject := some ((rot + 3) % 4) }
  if (s.tim i).hist.all fun b => decide (s.inlHits ≤ b.sum) then s.inlEnd i else s

/-- A table run is abandoned (R322, R336). -/
def State.inlAbandon (s : State) (i : Nat) : State :=
  (s.putBit (Reg.TIM_STS i) 1 false).setTim i { s.tim i with hist := [], inject := none, tableEnd := none }

/-! ### Stream writers (R334, R335) -/

/-- The bytes of a FIFO entry. -/
def TimEntry.bytes (x : TimEntry) : List (BitVec 8) :=
  leBytes 8 x.w0.toNat ++ leBytes 8 x.w1.toNat

/-- RUNNING ends once a disabled input has drained (R339). -/
def State.timDrained (s : State) (i : Nat) : State :=
  let x := s.tim i
  if !s.timOn i && [x.rising, x.falling].all fun y => y.fifo.isEmpty && y.batch.isEmpty && y.stops.isEmpty then
    s.putBit (Reg.TIM_STS i) 0 false
  else s

/-- Items that a refused queue item loses: those it holds, and those that a QUEUE note in it reported
(R325, R335). -/
def lostItems (xs : List TimEntry) : Nat :=
  (xs.map fun x => if x.kind = 5 then getF x.w1 35 4 else 1).sum

/-- The queue item gathered so far is sent (R335). -/
def State.timSend (s : State) (i e : Nat) : State :=
  let y := s.tstream i e
  match y.batch with
  | [] => s
  | b :: _ =>
    let s := s.setTstream i e { y with batch := [] }
    let r := s.enqueue (s.fld (Reg.TIM_S_QUEUE i e) 15 0) 5 (y.batch.flatMap TimEntry.bytes) b.w0
    if r.2 then r.1
    else
      let n := lostItems y.batch
      let ref := match y.refused with
        | some (t, m) => some (t, m + n)
        | none => some (b.w0, n)
      (r.1.setTstream i e { s.tstream i e with refused := ref }).bump (Reg.TIM_S_LOST i e) 64
        (y.batch.filter fun x => x.kind != 5).length

/-- One entry joins the queue item being gathered, which is sent when it is full (R335). -/
def State.timJoin (s : State) (i e : Nat) (x : TimEntry) : State :=
  let y := s.tstream i e
  let s := s.setTstream i e { y with
    batch := y.batch ++ [x], batchAt := if y.batch.isEmpty then s.clk.up else y.batchAt }
  if 2 ^ s.fld (Reg.TIM_S_CFG i e) 6 4 ≤ (s.tstream i e).batch.length then s.timSend i e else s

/-- One entry goes to the queue; a QUEUE note goes before what follows it in order of KIND (R325, R335). -/
def State.timGather (s : State) (i e : Nat) (x : TimEntry) : State :=
  let y := s.tstream i e
  match y.refused with
  | some (t, n) =>
    if x.kind = 0 ∨ 5 < x.kind then
      (((s.setTstream i e { y with refused := none }).timAlert i 4).timJoin i e
        (TimNote.entry ⟨5, t, min 0xFFFFFFFF n⟩)).timJoin i e x
    else s.timJoin i e x
  | none => s.timJoin i e x

/-- A stream that writes no more has drained: a QUEUE note that waits is sent, with no item behind it (R325). -/
def State.timTail (s : State) (i e : Nat) : State :=
  let y := s.tstream i e
  match y.refused with
  | some (t, n) =>
    if s.timWrites i e || !y.fifo.isEmpty || !y.stops.isEmpty || !y.notes.isEmpty then s
    else ((s.setTstream i e { y with refused := none }).timAlert i 4).timJoin i e (TimNote.entry ⟨5, t, min 0xFFFFFFFF n⟩)
  | none => s

/-- The ring of a stream has room for an item (R335). -/
def State.timRoom (s : State) (i e : Nat) : Bool :=
  decide (s.rdN (Reg.TIM_S_PUB i e) + 16 ≤
    s.rdN (Reg.TIM_S_REL i e) + 2 ^ s.fld (Reg.TIM_S_RING i e) 5 0)

/-- The stream writer moves one item (R333-R335). -/
def State.timMove (s : State) (i e : Nat) : State :=
  let y := s.tstream i e
  match y.fifo with
  | [] => s
  | x :: r =>
    let toQueue := s.bit (Reg.TIM_S_CFG i e) 3
    if !toQueue && !(s.timRoom i e && s.serves (s.fld (Reg.TIM_S_RING i e) 47 12 * 4096)) then s
    else
      let y := { y with fifo := r, discarding := y.discarding && decide (3072 < r.length) }
      let s := s.setTstream i e y
      let s := if toQueue then s.timGather i e x
        else
          let ring := s.rd (Reg.TIM_S_RING i e)
          let pub := s.rdN (Reg.TIM_S_PUB i e)
          (s.wrRing (getF ring 47 12 * 4096) (2 ^ getF ring 5 0) pub x.bytes).wrN
            (Reg.TIM_S_PUB i e) (pub + 16)
      ((s.timFlush i e).timTail i e).timDrained i

/-- A stream's ring is defined: its size, and GDDR7 that no other writer uses (R205, R335). -/
def State.timRingOk (s : State) (i e : Nat) : Bool :=
  let ring := s.rd (Reg.TIM_S_RING i e)
  s.bit (Reg.TIM_S_CFG i e) 3 ||
    (decide (12 ≤ getF ring 5 0 ∧ getF ring 5 0 ≤ 32) &&
      s.regionFree (2 ^ 20 + 2 * i + e) (getF ring 47 12 * 4096) (2 ^ getF ring 5 0))

/-- A FIFO's oldest item can leave it now. -/
def State.timReady (s : State) (n : Nat) : Bool :=
  let i := n / 2
  let e := n % 2
  !(s.tstream i e).fifo.isEmpty &&
    (s.bit (Reg.TIM_S_CFG i e) 3 || (s.timRoom i e && s.serves (s.fld (Reg.TIM_S_RING i e) 47 12 * 4096)))

/-- The FIFO that the stream writers serve next, in rotation (R334). -/
def State.timTurn (s : State) : Option Nat :=
  ((List.range 128).map fun j => (s.timServed + 1 + j) % 128).find? s.timReady

/-- DOZE entry drains the FIFOs (R337, R558). -/
def State.timDraining (s : State) : Bool := s.moving && s.pwr.down && s.pwr.into == 2 && s.pwr.step == 2

/-- Drains one stream as far as its ring or queue takes it. -/
def State.timDrain (i e : Nat) : (fuel : Nat) → State → State
  | 0, s => s.timSend i e
  | fuel + 1, s =>
    if (s.tstream i e).fifo.isEmpty then s.timSend i e
    else State.timDrain i e fuel (s.timMove i e)

/-- Drains every FIFO (R337, R550). -/
def State.timDrainAll (s : State) : State :=
  (List.range 128).foldl (fun s n =>
    let y := s.tstream (n / 2) (n % 2)
    State.timDrain (n / 2) (n % 2) (y.fifo.length + y.notes.length) s) s

/-! ### Stops of stamping (R336, R337) -/

/-- Stamping stops: the stops that wait pair; open gates, pending starts and table runs are abandoned. -/
def State.timStop (s : State) : State :=
  (List.range 64).foldl (fun s i =>
    let s := if s.bit (Reg.TIM_STS i) 1 then s.inlAbandon i else s
    [0, 1].foldl (fun s e =>
      let s := State.timPairAll i e (s.tstream i e).stops.length s
      let y := s.tstream i e
      (s.setTstream i e { y with gate := none, starts := [] }).timUnpaired i e y.starts.length) s) s

/-- Stamping resumes: every enabled stream keeps a note of the time at which it stopped. -/
def State.timNotes (s : State) (kind : Nat) (at' : TimInput → BitVec 64) : State :=
  (List.range 64).foldl (fun s i => [0, 1].foldl (fun s e =>
    if s.timWrites i e then s.timNote i e ⟨kind, at' (s.tim i), 0⟩ else s) s) s

/-- SYS, having been locked, begins to run from its bypass clock (R336). -/
def State.timBypass (s : State) : State := s.timStop.clockHold

/-- SYS has locked: stamping resumes, with a CLOCK note (R336). -/
def State.timRelock (s : State) : State := s.clockGo.timNotes 3 (·.clockStop)

/-- The interpolators are gated on entry to IDLE (R337). -/
def State.timIdle (s : State) : State :=
  let s := s.timStop
  { s with tims := s.tims.map fun x => { x with idleStop := s.now.word } }

/-- RUN is reached: stamping resumes, with a POWER note (R337). -/
def State.timWake (s : State) : State := s.timNotes 4 (·.idleStop)

/-- What entry to BANKED or a lower state takes (R337): ENABLE is 0 on every input. -/
def State.timLose (s : State) : State :=
  (List.range 64).foldl (fun s i =>
    let s := [0, 1].foldl (fun s e => s.setTstream i e default) s
    (((s.setTim i default).putBit (Reg.TIM_CTL i) 0 false).putBit (Reg.TIM_STS i) 0 false).putBit
      (Reg.TIM_STS i) 1 false) s

/-- The comparators of an input take their state as they are powered: each input lies below (0), in (1) or above
(2) its hysteresis band (R314). -/
def State.cmpPower (s : State) (i a b : Nat) : State :=
  (((s.cmpStart i 0 a).cmpStart i 1 b).winUpdate i).setTim i { s.tim i with started := true }

/-- Every comparator restarts after DOZE, with its input's place in the hysteresis band (R314, R337):
two entries per input, A then B. -/
def State.cmpRestart (s : State) (levels : List (Fin 3)) : State :=
  (List.range 64).foldl (fun s i => s.cmpPower i (levels.getD (2 * i) 0) (levels.getD (2 * i + 1) 0)) s

/-! ### The commands -/

/-- Output `b` (0 A, 1 B) of input `i`'s comparators changes, `sub` FRAC units into the present tick,
with the counts of its interpolator (R314-R324). -/
def execTiEdge (i : Fin 64) (b : Fin 2) (up : Bool) (sub : Fin 4096) (c c1 c2 : Int) (s : State) :
    Host.Outcome State Fault Refusal :=
  let k := Reg.CMP_STS i
  let e := b2n (!up)
  let bb : Nat := b
  if 2 ≤ s.power then .next s
  else if s.cmpBad i then .fault (.undefinedOutcome 313)
  else if s.timBad i e then .fault (.undefinedOutcome 609)
  else .next (
    if s.bit k (2 * bb + 1) then
      ((s.putBit k (2 * bb) up).cmpDetermined i bb).winUpdate i
    else if s.bit k (2 * bb) = up then s
    else
      let s := (s.putBit k (2 * bb) up).winUpdate i
      if s.bit k 8 || s.fld (Reg.TIM_S_CFG i e) 0 0 != bb then s
      else s.timEdge i e (s.tickPlace sub) c c1 c2)

/-- A stop of an INTERVAL stream pairs once every start up to it has arrived (R329). -/
def execIntervalPair (i : Fin 64) (e : Fin 2) (s : State) : Host.Outcome State Fault Refusal :=
  .next (
    match (s.tstream i e).stops with
    | p :: _ => if s.startsIn i e p.ts.t then (s.timPair i e).timDrained i else s
    | [] => s)

/-- The oldest start leaves PAIR_WIN unpaired (R328): no stop can still pair with it. A stop that waits pairs
first. -/
def execPairWindowExpiry (i : Fin 64) (e : Fin 2) (s : State) : Host.Outcome State Fault Refusal :=
  .next (
    let y := s.tstream i e
    match y.starts with
    | a :: r =>
      if y.stops.isEmpty ∧
          (s.rdN (Reg.TIM_S_PARAM i e) % 2 ^ 32 * 4096 : Int) <
            timeDiff (s.timSeen i s.sysNow) a.t then
        (s.setTstream i e { y with starts := r }).timUnpaired i e 1
      else s
    | [] => s)

/-- NOEDGE (R330). -/
def execNoedge (i : Fin 64) (e : Fin 2) (s : State) : Host.Outcome State Fault Refusal :=
  .next (
    let y := s.tstream i e
    match y.gate with
    | some g =>
      if !g.edge ∧ (2 ^ 40 : Int) < timeDiff (s.timSeen i s.sysNow) g.opened.t then
        let s := s.setTstream i e { y with gate := none }
        (s.timNote i e ⟨6, g.opened.word, 0⟩).timAlert i 8
      else s
    | none => s)

/-- STREAM_WRITE: the FIFO whose turn it is gives one item (R334). The writers are gated in IDLE (R337), but
for the drain of a DOZE entry. -/
def execStreamWrite (i : Fin 64) (e : Fin 2) (s : State) : Host.Outcome State Fault Refusal :=
  if (s.idleOrLower && !s.timDraining) ∨ s.timTurn ≠ some (2 * i.val + e.val) then .next s
  else if s.timRingOk i e then .next (({ s with timServed := 2 * i.val + e.val } : State).timMove i e)
  else .fault (.undefinedOutcome 335)

/-- A queue item is sent 1 microsecond after its first item (R335); the writers are gated in IDLE, but for the drain of a
DOZE entry (R337). -/
def execQueueBatchTimeout (i : Fin 64) (e : Fin 2) (s : State) : Host.Outcome State Fault Refusal :=
  .next (
    let y := s.tstream i e
    if s.idleOrLower && !s.timDraining then s
    else if !y.batch.isEmpty ∧ s.elapsed y.batchAt (usec 1) then (s.timSend i e).timDrained i
    else s)

/-- A stream no longer writes: its gate is gone, and its waiting notes drain (R325, R330). -/
def State.timStreamOff (s : State) (i e : Nat) : State :=
  ((s.setTstream i e { s.tstream i e with gate := none }).timFlush i e).timTail i e

/-- A write of S0_EN and S1_EN (R323, R325). -/
def execTimStreams (i : Fin 64) (en : BitVec 2) (s : State) : Host.Outcome State Fault Refusal :=
  let s := (s.putBit (Reg.TIM_CTL i) 1 (en.getLsbD 0)).putBit (Reg.TIM_CTL i) 2 (en.getLsbD 1)
  .next ([0, 1].foldl (fun s e => if en.getLsbD e then s else s.timStreamOff i e) s)

/-- A write of an input's ENABLE (R322, R325, R339). -/
def execTimEnable (i : Fin 64) (on : Bool) (s : State) : Host.Outcome State Fault Refusal :=
  if on && s.parityStopped (Reg.TIM_CTL i) then .next s
  else
    let s := if on then s else s.parityFree (Reg.TIM_CTL i)
    .next (
      if on then
        if s.timOn i then s
        else
          let s := (s.putBit (Reg.TIM_CTL i) 0 true).putBit (Reg.TIM_STS i) 0 true
          s.setTim i { s.tim i with rot := 0, edgeAt := none }
      else if !s.timOn i then s
      else
        let s := (s.inlAbandon i).putBit (Reg.TIM_CTL i) 0 false
        ([0, 1].foldl (fun s e => s.timStreamOff i e) s).timDrained i)

/-- A write of TIM_S_REL (R335). -/
def execTimSRelWrite (i : Fin 64) (e : Fin 2) (v : BitVec 64) (s : State) :
    Host.Outcome State Fault Refusal :=
  let n := v.toNat
  if n % 16 ≠ 0 ∨ n < s.rdN (Reg.TIM_S_REL i e) ∨ s.rdN (Reg.TIM_S_PUB i e) < n then
    .fault (.undefinedOutcome 335)
  else .next (s.wr (Reg.TIM_S_REL i e) v)

/-- A table run starts (R320, R338). -/
def State.inlStart (s : State) (i : Nat) : State :=
  if s.bit (Reg.TIM_STS i) 1 ∨ s.timHeld ∨ !s.timOn i then s
  else ((s.putBit (Reg.TIM_STS i) 1 true).setTim i { s.tim i with
    hist := List.replicate 4 (List.replicate 64 0), tableEnd := none
    inject := some (((s.tim i).rot + 3) % 4) }).calBegin i

/-- INL_LOG2 is out of range (R339, R609). -/
def State.inlBad (s : State) : Bool :=
  decide (s.fld Reg.TIM_INL_CFG 4 0 < 16 ∨ 24 < s.fld Reg.TIM_INL_CFG 4 0)

/-- INL_START := 1 (R320). -/
def execInlStart (i : Fin 64) (s : State) : Host.Outcome State Fault Refusal :=
  if s.inlBad then .fault (.undefinedOutcome 609)
  else .next (s.inlStart i)

/-- An injected edge's conversion ends (R320-R322). -/
def execInjectedEdge (i : Fin 64) (c c1 c2 : Int) (s : State) : Host.Outcome State Fault Refusal :=
  if !s.bit (Reg.TIM_STS i) 1 then .next s
  else if s.inlBad then .fault (.undefinedOutcome 609)
  else .next (s.inlHit i c c1 c2)

/-- A write of CMP_THR, or of CMP_HYST, restarts the comparators (R315). -/
def execCmpThresholdWrite (i : Fin 64) (hyst : Bool) (v : BitVec 32) (s : State) :
    Host.Outcome State Fault Refusal :=
  let s := if hyst then
      (s.setFld (Reg.CMP_HYST i) 5 0 v.toNat).setFld (Reg.CMP_HYST i) 13 8 (v.toNat / 256)
    else (s.setFld (Reg.CMP_THR i) 13 0 v.toNat).setFld (Reg.CMP_THR i) 29 16 (v.toNat / 65536)
  if s.cmpBad i then .fault (.undefinedOutcome 313)
  else .next ((s.putBit (Reg.CMP_STS i) 8 true).setTim i { s.tim i with settleAt := s.clk.up })

/-- A comparator restart ends (R314): SETTLING, 50 ns after the write (R315), or the power-up of an input's
comparators. Each comparator's input lies below (0), in (1) or above (2) its hysteresis band. Comparators that DOZE
holds off restart on its exit (R337). (DEDUCED, log entry 36.) -/
def execSettlingEnd (i : Fin 64) (a b : Fin 3) (s : State) : Host.Outcome State Fault Refusal :=
  .next (
    if s.bit (Reg.CMP_STS i) 8 ∧ s.elapsed (s.tim i).settleAt (nsec 50) then
      let s := s.putBit (Reg.CMP_STS i) 8 false
      if 2 ≤ s.power then s else s.cmpPower i a b
    else if !(s.tim i).started ∧ s.stage ≠ 0 ∧ s.power < 2 then s.cmpPower i a b
    else s)

end Sys2Proof.Machine
end

