-- ==== Sys2Proof/Machine/Fabric.lean ====
section
/-! DEFINITION. The Nolrad fabric: ports, election, addresses, link-state records, routes, end-to-end
delivery and time transfer (R459-R487). -/

namespace Sys2Proof.Machine

/-! ### Election and time state (R467, R468, R476) -/

/-- STATE of the device in the fabric (R468): 0 OFF, 1 ISOLATED, 2 ELECT, 3 ADDR, 4 JOINED. -/
def State.fabState (s : State) : Nat := s.fld Reg.FAB_STS 2 0

/-- TIME_STATE of R476: 0 FREE, 1 ROOT, 2 ACQUIRE, 3 STEP_WAIT, 4 SLEW, 5 LOCKED, 6 HOLDOVER. -/
def State.timeState (s : State) : Nat := s.fld Reg.FAB_STS 5 3

/-- The device's UID and key (R467). -/
def State.ownUid (s : State) : Nat := s.fld Reg.FAB_UID 55 0
def State.ownKey (s : State) : Nat := s.fld Reg.FAB_CFG 7 0 * 2 ^ 56 + s.ownUid

/-- The UID of the root that the device follows. -/
def State.rootUid (s : State) : Nat := s.rdN Reg.FAB_ROOT % 2 ^ 56

/-- The device follows its own key. -/
def State.isRoot (s : State) : Bool := s.rdN Reg.FAB_ROOT == s.ownKey

/-- Enters a time state (R476). -/
def State.setTimeState (s : State) (x : Nat) : State :=
  let was := s.timeState
  if x = was then s
  else
    let f := s.fab
    let f := { f with
      keepFab := x == 2 && was == 6
      thetas := if x = 2 then [] else f.thetas
      calm := 0
      holdSince := if x = 6 then s.clk.up else f.holdSince }
    let s := { s with fab := f }
    let s := s.setFld Reg.FAB_STS 5 3 x
    (s.putBit Reg.FAB_STS 6 (x == 1 || x == 5 || x == 6 || f.keepFab)).raise 972

/-- The time state that the place in the fabric calls for (R476, R484). `lost` says that the parent port has just left UP
or the root has changed. A device that loses its parent in ACQUIRE, STEP_WAIT or SLEW is in HOLDOVER where it still keeps
TS_FAB, else FREE. (DEDUCED, log entry 47.) -/
def State.timeFollow (s : State) (lost : Bool) : State :=
  let joined := s.fabState == 4
  if !s.pllLocked 0 || s.fabState == 0 then s.setTimeState 0
  else if joined && s.isRoot then s.setTimeState 1
  else
    let s := if lost && s.timeState == 5 then s.setTimeState 6 else s
    let parent := s.parentPort.isSome
    match s.timeState with
    | 0 => if joined && parent then s.setTimeState 2 else s
    | 1 => if s.isRoot then s else s.setTimeState 2
    | 5 => s
    | 6 => if parent then s.setTimeState 2 else s
    | _ => if parent then s else s.setTimeState (if s.bit Reg.FAB_STS 6 then 6 else 0)

/-- Enters a state of R468. -/
def State.setFabState (s : State) (x : Nat) : State := s.setFld Reg.FAB_STS 2 0 x

/-- The best offer of the neighbours for a root key (R467): its port and distance. Ranks by distance,
neighbour key and port. -/
def State.bestParent (s : State) (root : Nat) : Option (Nat × Nat) :=
  (List.range 8).foldl (fun best p =>
    match (if s.fpUp p then (s.fport p).nbr else none) with
    | none => best
    | some n =>
      if n.root ≠ root ∨ 31 ≤ n.dist then best
      else match best with
        | none => some (p, n.dist)
        | some (q, d) =>
          let k := ((s.fport q).nbr.map (·.key)).getD 0
          if n.dist < d ∨ (n.dist = d ∧ n.key < k) then some (p, n.dist) else best) none

/-- The lowest root key that a neighbour offers, or the device's own. -/
def State.lowestRoot (s : State) : Nat :=
  (List.range 8).foldl (fun r p =>
    match (if s.fpUp p then (s.fport p).nbr else none) with
    | some n => if n.dist < 31 then min r n.root else r
    | none => r) s.ownKey

/-- Sends again, on the broadcast tree, the Ridgeline messages that a lost port left (R482).
(DEDUCED, log entry 46.) -/
def State.resendRidge (s : State) : State :=
  if s.fabState = 4 ∧ (s.isRoot ∨ s.parentPort.isSome) then
    let ks := s.fab.resend
    let s := { s with fab := { s.fab with resend := [] } }
    ks.foldl (fun s k => (List.range 8).foldl (fun s p =>
      if s.treePort p then s.portSend p (k.1.aged (s.clk.up - k.2)) else s) s) s
  else s

/-- Follows the neighbours' offers: root key, parent port, child ports and what they change (R467,
R468). -/
def State.elect (s : State) (lost : Bool) : State :=
  let was := s.parentPort
  let root := s.lowestRoot
  let best := if root = s.ownKey then none else s.bestParent root
  let s := (List.range 8).foldl (fun s p =>
    let up := s.fpUp p
    let s := s.putBit (Reg.FAB_PORT_STS p) 6 (up && (best.map (·.1) == some p))
    s.putBit (Reg.FAB_PORT_STS p) 7 (up && ((s.fport p).nbr.map (·.namesUs)).getD false)) s
  let dist := match best with
    | some (_, d) => d + 1
    | none => 0
  let changed := s.rdN Reg.FAB_ROOT != root
  let s := s.setFld Reg.FAB_ROOT_DIST 4 0 dist
  let s := if changed then (s.wrN Reg.FAB_ROOT root).raise 968 else s
  let s := if changed || s.parentPort != was then
      { s with fab := { s.fab with
          stableSince := s.clk.up, thetas := if s.parentPort = was then s.fab.thetas else [] } } else s
  let s := if changed && s.fabState == 4 then s.setFabState 2 else s
  (s.timeFollow (lost || changed)).resendRidge

/-! ### Link-state records and the member table (R470, R485) -/

/-- Writes the counters and the entry of a member. -/
def State.showMember (s : State) (a uid hops : Nat) : State :=
  let s := s.wrN (Reg.FAB_MEMBER (a / 256) (a % 256)) (uid % 2 ^ 56 + hops % 32 * 2 ^ 56 + 2 ^ 63)
  s.wrN Reg.FAB_MEMBERS s.fab.lsrs.length

/-- Stores a record; one that changes the links or the members makes routes due, and a new member raises FAB_MEMBER. A device that held the address before is gone. -/
def State.storeLsr (s : State) (l : Lsr) : State :=
  let same := s.fab.lsrs.any fun x => x.addr == l.addr && x.uid == l.uid
  let quiet := s.fab.lsrs.any fun x => x.addr == l.addr && x.uid == l.uid && x.nbrs == l.nbrs
  let f := s.fab
  let grants := f.grants.filter fun g => g.uid != l.uid
  let s := { s with fab := { f with
    lsrs := l :: f.lsrs.filter fun x => x.addr != l.addr
    routeDue := f.routeDue || !quiet
    grants := { uid := l.uid, addr := l.addr, leftAt := none, free := false } :: grants } }
  let s := s.showMember l.addr l.uid (s.fld (Reg.FAB_MEMBER (l.addr / 256) (l.addr % 256)) 60 56)
  if same then s else s.raise 970

/-- A packet for one link alone. -/
def State.linkPkt (s : State) (b : FabBody) : FabPkt := s.ownPkt 0x3FF false b

/-- The device floods its own record (R470). -/
def State.floodOwn (s : State) : State :=
  if s.fabState = 4 then
    let seq := (s.fab.lsrSeq + 1) % 2 ^ 32
    let nbrs := (List.range 8).filterMap fun p =>
      if s.fpUp p then (s.fport p).nbr.map (·.addr) else none
    let s := { s with fab := { s.fab with lsrSeq := seq } }
    let s := s.storeLsr { addr := s.ownAddr, uid := s.ownUid, seq := seq, nbrs := nbrs, heardAt := s.clk.up }
    let k := s.linkPkt (.lsr s.ownAddr s.ownUid seq nbrs)
    (List.range 8).foldl (fun s p => if s.fpUp p then s.portSend p k else s) s
  else s

/-- A member leaves the table; the root keeps its address (R469, R470). -/
def State.dropMember (s : State) (a : Nat) : State :=
  let s := { s with fab := { s.fab with
    lsrs := s.fab.lsrs.filter fun x => x.addr != a
    routeDue := true
    grants := s.fab.grants.map fun (g : Grant) => if g.addr = a then { g with leftAt := some s.clk.up } else g } }
  let s := (s.wrN (Reg.FAB_MEMBER (a / 256) (a % 256)) 0).wrN Reg.FAB_MEMBERS s.fab.lsrs.length
  s.raise 970

/-! ### Routes (R472) -/

/-- The devices at each distance from a first frontier, along the links that records list, without
passing through `own`. (DEDUCED, log entry 46.) -/
def hopMap (ls : List Lsr) (own : Nat) : (fuel d : Nat) → (front : List Nat) → (seen : List (Nat × Nat)) →
    List (Nat × Nat)
  | 0, _, _, seen => seen
  | fuel + 1, d, front, seen =>
    let seen := seen ++ front.map fun a => (a, d)
    let next := (front.flatMap fun a => ((ls.find? fun l => l.addr == a).map (·.nbrs)).getD [])
    let next := (next.filter fun a => a != own && !seen.any fun x => x.1 == a).eraseDups
    if next.isEmpty then seen else hopMap ls own fuel (d + 1) next seen

/-- The ports in UP whose neighbour has an address, with that address and its distances to others. -/
def State.portMaps (s : State) : List (Nat × Nat × List (Nat × Nat)) :=
  (List.range 8).filterMap fun p =>
    match (if s.fpUp p then (s.fport p).nbr else none) with
    | some n => if n.addr = 0x3FF then none
      else some (p, n.addr, hopMap s.fab.lsrs s.ownAddr 31 1 [n.addr] [])
    | none => none

/-- The better of two routes, each hops, neighbour address and port. -/
def betterRoute (x y : Nat × Nat × Nat) : Bool :=
  decide (x.1 < y.1 ∨ (x.1 = y.1 ∧ (x.2.1 < y.2.1 ∨ (x.2.1 = y.2.1 ∧ x.2.2 < y.2.2))))

/-- The best of some routes. -/
def bestRoute (xs : List (Nat × Nat × Nat)) : Option (Nat × Nat × Nat) :=
  xs.foldl (fun b x => match b with
    | none => some x
    | some y => if betterRoute x y then some x else b) none

/-- The routing entry of an address, from what each port reaches. -/
def routeWord (maps : List (Nat × Nat × List (Nat × Nat))) (a : Nat) : Nat :=
  let all := maps.filterMap fun m => (m.2.2.find? fun x => x.1 == a).map fun x => (x.2, m.2.1, m.1)
  match bestRoute all with
  | none => 0
  | some r =>
    let alt := bestRoute (all.filter fun x => x.2.1 != r.2.1)
    r.2.2 + 8 + (match alt with
      | some x => x.2.2 * 16 + 128
      | none => 0) + r.1 % 32 * 256

/-- A packet in the store has a route or has had none since a time (R474). -/
def State.markRoutes (s : State) : State :=
  let mark := fun (x : E2eItem) =>
    { x with lostAt := if s.hasRoute x.pkt then none else some (x.lostAt.getD s.clk.up) }
  { s with fab := { s.fab with tx := s.fab.tx.map fun t => { t with unacked := t.unacked.map mark } } }

/-- Recomputes the routing table (R472). -/
def State.reroute (s : State) : State :=
  let maps := s.portMaps
  let s := { s with
    regs := Sparse.restrict (fun k => decide (k / 256 ≠ 0x6580)) s.regs
    fab := { s.fab with routeDue := false } }
  let s := s.fab.lsrs.foldl (fun s l =>
    let e := if l.addr = s.ownAddr then 8 else routeWord maps l.addr
    let s := s.setFld (Reg.FAB_ROUTE (l.addr / 4)) (16 * (l.addr % 4) + 15) (16 * (l.addr % 4)) e
    s.showMember l.addr l.uid (e / 256)) s
  s.markRoutes.raise 971

/-! ### Ports (R461) -/

/-- Enters a port state. -/
def State.setPort (s : State) (p st : Nat) : State :=
  let s := s.setFld (Reg.FAB_PORT_STS p) 2 0 st
  s.setFport p { s.fport p with since := s.clk.up }

/-- Sets bits of the status of a port's two lanes. -/
def State.fLaneBit (s : State) (p b : Nat) (on : Bool) : State :=
  (s.putBit (Reg.FAB_LANE_STS (2 * p)) b on).putBit (Reg.FAB_LANE_STS (2 * p + 1)) b on

/-- A lane of the port is in loopback or runs a PRBS (R460). -/
def State.portTests (s : State) (p : Nat) : Bool :=
  [2 * p, 2 * p + 1].any fun l =>
    s.fld (Reg.FAB_LANE_CTL l) 3 2 != 0 || s.fld (Reg.FAB_LANE_CTL l) 6 4 != 0

/-- Some port is in UP. -/
def State.anyUp (s : State) : Bool := (List.range 8).any s.fpUp

/-- Ridgeline messages among a port's packets, each with the time up to which its AGE counts. -/
def FabPort.ridges (x : FabPort) : List (FabPkt × Nat) :=
  ((x.replay.map fun r => (r.pkt, r.at')) ++ x.wait).filter fun k => k.1.body.type == 7

/-- Entries of the routing table whose PORT leaves UP switch to ALT (R472). (DEDUCED, log entry 46.) -/
def State.altRoutes (s : State) (p : Nat) : State :=
  s.fab.lsrs.foldl (fun s l =>
    let a := l.addr
    let e := s.routeEntry a
    if e.testBit 3 && e % 8 == p && a != s.ownAddr then
      let e := if e.testBit 7 then e - p + e / 16 % 8 - 128 else e - 8
      s.setFld (Reg.FAB_ROUTE (a / 4)) (16 * (a % 4) + 15) (16 * (a % 4)) e
    else s) s

/-- A port's lanes no longer report lock or an adapted equaliser. -/
def State.portDark (s : State) (p : Nat) : State :=
  (((s.fLaneBit p 0 false).fLaneBit p 1 false).fLaneBit p 2 false).putBit (Reg.FAB_PORT_STS p) 5 false

/-- A port leaves UP for another state (R461, R468, R472, R482, R484). -/
def State.portDrop (s : State) (p st : Nat) : State :=
  let parent := s.bit (Reg.FAB_PORT_STS p) 6
  let ks := (s.fport p).ridges
  let s := (s.setPort p st).portDark p
  let s := s.setFport p { (default : FabPort) with since := s.clk.up }
  let s := (s.wrN (Reg.FAB_PORT_NBR p) 0).bumpSat (Reg.FAB_PORT_DOWNS p) 32
  let s := s.raise (960 + p)
  let s := { s with fab := { s.fab with resend := s.fab.resend ++ ks, routeDue := true } }
  let s := s.altRoutes p
  let s := if s.anyUp then s else s.setFabState (if s.fabState = 0 then 0 else 1)
  (s.elect parent).markRoutes.floodOwn

/-- A port goes DOWN, or to TEST or FAULT, from whatever state it is in. -/
def State.portTo (s : State) (p st : Nat) : State :=
  if s.fpUp p then s.portDrop p st
  else (s.setPort p st).portDark p

/-- A port faults with a cause (R461, R463). -/
def State.portFault (s : State) (p cause : Nat) : State :=
  (s.portTo p 6).setFld (Reg.FAB_PORT_STS p) 9 8 cause

/-- Begins training at a rate. -/
def State.portTrain (s : State) (p rate : Nat) : State :=
  let s := (s.fLaneBit p 0 false).fLaneBit p 1 false
  (s.setPort p 1).setFld (Reg.FAB_PORT_STS p) 4 3 rate

/-- The port may run: its ENABLE and the fabric's are 1. -/
def State.portOn (s : State) (p : Nat) : Bool := s.bit (Reg.FAB_PORT_CTL p) 0 && s.bit Reg.FAB_CTL 0

/-- MAX_RATE of a port, or LOOP, PRBS_SEL or CTLE_MAX of one of its lanes, is reserved or out of range (R44, R460,
R609). -/
def State.portUndefined (s : State) (p : Nat) : Bool :=
  s.fld (Reg.FAB_PORT_CTL p) 2 1 == 3 || [2 * p, 2 * p + 1].any fun l =>
    let k := Reg.FAB_LANE_CTL l
    s.fld k 3 2 == 3 || decide (5 < s.fld k 6 4 ∨ 18 < s.fld k 12 8)

/-- What a write of LOOP or PRBS_SEL does to a port (R460, R461). (DEDUCED, log entry 44.) -/
def State.portRetest (s : State) (p : Nat) : State :=
  if s.portOn p && s.portTests p then (if s.fpState p = 5 then s else s.portTo p 5)
  else if s.fpState p = 5 then s.setPort p 0
  else s

/-- The same as a write's outcome: reserved codes of an enabled port give none (R609). -/
def execPortRetest (p : Nat) (s : State) : Host.Outcome State Fault Refusal :=
  if s.portOn p && s.portUndefined p then .fault (.undefinedOutcome 609) else .next (s.portRetest p)

/-- A signal stands on both lanes of a port in DOWN. -/
def State.portSignal (s : State) (p : Nat) : State :=
  if s.fpState p = 0 ∧ s.portOn p ∧ s.power ≤ 1 then
    if s.portTests p then s.setPort p 5 else s.portTrain p (s.fld (Reg.FAB_PORT_CTL p) 2 1)
  else s

/-! ### End-to-end delivery (R473, R474) -/

/-- Sends waiting packets of a stream while fewer than 64 are unacknowledged and the store has room. -/
def State.txDrain (uid vc : Nat) : (fuel : Nat) → State → State
  | 0, s => s
  | fuel + 1, s =>
    let x := findTx uid vc s.fab.tx
    match x.waiting with
    | [] => s
    | k :: r =>
      if 64 ≤ x.unacked.length ∨ !s.storeTakes k then s
      else
        let k := { k with seq := x.next, ack := (takeAck uid vc s.fab.rx).1 }
        let x := { x with next := (x.next + 1) % 65536, waiting := r,
                          unacked := x.unacked ++ [s.storeItem k] }
        let s := { s with fab := { s.fab with tx := putTx x s.fab.tx,
                                              rx := (takeAck uid vc s.fab.rx).2 } }
        State.txDrain uid vc fuel (s.routeSend k)

/-- Room in the store lets every stream go on. -/
def State.txDrainAll (s : State) : State :=
  s.fab.tx.foldl (fun s x => State.txDrain x.uid x.vc x.waiting.length s) s

/-- An acknowledgement frees packets of a stream up to its number (R473). -/
def State.ackTake (s : State) (uid vc n : Nat) : State :=
  let x := findTx uid vc s.fab.tx
  let left := x.unacked.filter fun e => decide (0 < seqDiff16 e.pkt.seq n)
  if left.length = x.unacked.length then s
  else
    ({ s with fab := { s.fab with tx := putTx { x with unacked := left } s.fab.tx } } : State).txDrainAll

/-- The device that sent an end-to-end packet. -/
def State.srcUid (s : State) (k : FabPkt) : Option Nat :=
  match k.body with
  | .addrReq uid _ => some uid
  | .addrGrant .. => some s.rootUid
  | _ => s.uidOfAddr k.src

/-- A numbered packet meets the order of its stream (R473): the one expected is taken. The answer says
whether it was. (DEDUCED, log entry 46.) -/
def State.e2eTake (s : State) (k : FabPkt) : State × Bool :=
  match s.srcUid k with
  | none => (s, false)
  | some uid =>
    let vc := k.body.vc
    let old := (s.fab.rx.find? fun r => r.uid == uid && r.vc == vc).getD
      { uid := uid, vc := vc, next := 0, owes := false }
    let taken := k.seq == old.next
    let x := { old with next := if taken then (old.next + 1) % 65536 else old.next, owes := true }
    let rx := x :: s.fab.rx.filter fun r => !(r.uid == uid && r.vc == vc)
    let s := { s with fab := { s.fab with rx := rx } }
    (if taken then s else s.bumpSat Reg.FAB_E2E_DUP 32, taken)

/-- The acknowledgement that a packet carries is applied. -/
def State.e2eAcks (s : State) (k : FabPkt) : State :=
  match k.ack, s.srcUid k with
  | some n, some uid => s.ackTake uid k.body.vc n
  | _, _ => s

/-! ### Addresses (R469) -/

/-- An address that no other device holds. -/
def State.addrFree (s : State) (uid a : Nat) : Bool :=
  !(s.fab.grants.any fun g => g.addr == a && g.uid != uid && !g.free) && a != 0x3FF && decide (a < 1024)

/-- The address the root grants a device, if any is free: the one it requests, the one it holds (R471), the one it was
last granted, or the lowest free one (R469). (DEDUCED, log entry 46.) -/
def State.chooseAddr (s : State) (uid : Nat) (want here : Option Nat) : Option Nat :=
  let last := (s.fab.grants.find? fun g => g.uid == uid).map (·.addr)
  match ([want, here, last].filterMap id).find? fun a => s.addrFree uid a with
  | some a => some a
  | none => (List.range 1023).find? fun a => s.addrFree uid a

/-- Records a grant. -/
def State.recordGrant (s : State) (uid a : Nat) : State :=
  { s with fab := { s.fab with
    grants := { uid := uid, addr := a, leftAt := none, free := false } ::
      s.fab.grants.filter fun g => g.uid != uid } }

/-- The device has its address and joins (R468, R469). -/
def State.joined (s : State) (a : Nat) : State :=
  let s := (s.wrN Reg.FAB_ADDR (a + 1024)).putBit Reg.FAB_STS 7 false
  let s := (s.raise 969).setFabState 4
  ((s.timeFollow false).floodOwn).resendRidge

/-- The address that the device asks for. -/
def State.wantAddr (s : State) : Option Nat :=
  if s.bit Reg.FAB_CFG 18 then some (s.fld Reg.FAB_CFG 17 8) else none

/-- Sends ADDR_REQ to the root. (DEDUCED, log entry 46.) -/
def State.requestAddr (s : State) : State :=
  let s := { s with fab := { s.fab with reqAt := s.clk.up } }
  s.e2eSend s.rootUid ((s.addrOfUid s.rootUid).getD 0x3FF) (.addrReq s.ownUid s.wantAddr)

/-- The root takes an ADDR_REQ; its SRC is the address that the device holds (R465, R471). -/
def State.addrReqTake (s : State) (uid src : Nat) (want : Option Nat) : State :=
  match s.chooseAddr uid want (if src = 0x3FF then none else some src) with
  | none => s
  | some a => (s.recordGrant uid a).e2eSend uid a (.addrGrant uid a)

/-! ### Time transfer (R475-R478) -/

/-- A unit's times of device time move with a step. -/
def TrigUnit.moved (f : Nat → Nat) (x : TrigUnit) : TrigUnit :=
  { x with
    vers := x.vers.map fun v => { v with fromT := f v.fromT }
    evalFrom := f x.evalFrom, arms := x.arms.map fun a => { a with t := f a.t }, holdUntil := x.holdUntil.map f
    aPend := x.aPend.map fun a => { a with t := f a.t }, prior := x.prior.map fun p => (f p.1, p.2) }

/-- The trigger logic's times move with a step; the times that decisions carry stand (R478). -/
def TrigChan.moved (f : Nat → Nat) (x : TrigChan) : TrigChan :=
  { x with
    units := x.units.map (TrigUnit.moved f)
    pend := x.pend.map fun d => { d with ready := f d.ready, due := f d.due }
    last := x.last.map fun l => { l with clock := f l.clock }
    evaluated := x.evaluated.map f, done := x.done.map f, restAt := x.restAt.map f, restTo := x.restTo.map f }

/-- A sequencer's times move with a step. -/
def Seq.moved (f : Nat → Nat) (x : Seq) : Seq :=
  { x with
    provisional := x.provisional.map fun p => (p.1, p.2.1, f p.2.2)
    begun := x.begun.map fun b => { b with at' := f b.at' }
    signal := x.signal.map fun e => { e with edge := f e.edge } }

/-- A resolution's times move with a step. -/
def SpxRes.moved (f : Nat → Nat) (x : SpxRes) : SpxRes :=
  { x with lastBegin := x.lastBegin.map f, busy := x.busy.map fun b => (b.1, f b.2) }

/-- What the device measures from a point of device time on moves with a step of it; TS64 values that entries, rings
and keys hold stand (R478). -/
def State.moveRecords (s : State) (f : Nat → Nat) : State :=
  let scn := { s.scn with frameAt := f s.scn.frameAt }
  let pulses : Vector (List (Nat × Nat)) 4 := s.pulses.map fun (ps : List (Nat × Nat)) => ps.map fun p => (f p.1, f p.2)
  let prov : List Provisional := s.prov.map fun (p : Provisional) => { p with at' := f p.at' }
  let cnd : Vector CndChan 4 := s.cnd.map fun (x : CndChan) => { x with due := x.due.map f, lastT := x.lastT.map f }
  let s : State := { s with trig := s.trig.map (TrigChan.moved f), pulses := pulses, prov := prov }
  let s : State := { s with seqs := s.seqs.map (Seq.moved f), cnd := cnd, spx := s.spx.map (SpxRes.moved f), scn := scn }
  s.supMove f

/-- The TIME stamps of a port move with a step; 0 is none. -/
def FabPort.moved (f : Nat → Nat) (x : FabPort) : FabPort :=
  let g := fun (t : Nat) => if t = 0 then 0 else f t
  { x with timeSent := g x.timeSent, timePrev := g x.timePrev, timeArrived := x.timeArrived.map f }

/-- A step of device time by a signed number of FRAC units (R478). (DEDUCED, log entry 47.) -/
def State.moveTime (s : State) (d : Int) : State :=
  let was := s.now.word
  let c := s.ccs
  let move := fun x : Nat => ((((x : Int) + d * 65536) % (2 ^ 76 : Int)).toNat)
  let s := { s with
    time := timeAdd s.time d
    ccs := { c with edge := move c.edge, cycles := c.cycles.map fun (x : CycleRec) => { x with start := move x.start } }
    fab := { s.fab with thetas := [], ports := s.fab.ports.map (FabPort.moved fun t => timeAdd t d) }
    clk := { s.clk with frontOfs := timeAdd s.clk.frontOfs d % 8192 } }
  let s := s.moveRecords fun t => timeAdd t d
  let s := (List.range 4).foldl (fun s g => if s.laneState g = 7 then s.enterLane g 6 else s) s
  (((s.wr Reg.FAB_STEP_TS was).wrI Reg.FAB_STEP_SIZE 48 d).raise 973).setTimeState
    (if s.timeState = 3 ∨ s.timeState = 5 then 2 else s.timeState)

/-- The device is quiet (R478). -/
def State.fabQuiet (s : State) : Bool :=
  (List.range 4).all (fun g => s.laneState g != 7) && (List.range 64).all (fun i => !s.bit (Reg.TIM_CTL i) 0) &&
    !s.bit Reg.CCS_WP_CTL 0

/-- Steps when the device waits to and is quiet (R478). -/
def State.autoStep (s : State) : State :=
  if s.timeState = 3 ∧ s.bit Reg.FAB_TIME_CFG 12 ∧ s.fabQuiet then
    s.moveTime (-(s.rdI Reg.FAB_TIME_OFS 48))
  else s

/-- Steering toward the parent, within 200 ppm (R476). (DEDUCED, log entry 47.) -/
def State.fabSteer (s : State) (θ : Int) : State :=
  let t := clampI (-2000000) 2000000 (Config.fabSteer θ s.clk.fabTarget)
  ({ s with clk := { s.clk with fabTarget := t } } : State).clkSteer

/-- The mean of the latest 64 offsets (R475). (DEDUCED, log entry 47.) -/
def meanTheta (xs : List Int) : Int := rneDiv xs.sum (max 1 xs.length)

/-- An offset measured on the parent port moves the time state (R475, R476). (DEDUCED, log entry 47.) -/
def State.thetaTake (s : State) (θ : Int) : State :=
  let xs := (θ :: s.fab.thetas).take 64
  let calm := if θ.natAbs * 10 ≤ 2048 then s.fab.calm + 1 else 0
  let s := ({ s with fab := { s.fab with thetas := xs, calm := calm } } : State)
  let s := s.wrI Reg.FAB_TIME_OFS 48 (meanTheta xs)
  match s.timeState with
  | 2 =>
    if xs.length < 64 then s
    else
      let m := (meanTheta xs).natAbs
      let s := s.fabSteer θ
      if m ≤ 2048 then s.setTimeState 5
      else if m ≤ usec (s.fld Reg.FAB_TIME_CFG 11 0) then s.setTimeState 4
      else (s.setTimeState 3).autoStep
  | 3 => s.autoStep
  | 4 => if 64 ≤ calm then (s.fabSteer θ).setTimeState 5 else s.fabSteer θ
  | 5 => if 2048 < θ.natAbs then (s.fabSteer θ).setTimeState 4 else s.fabSteer θ
  | _ => s

/-- A TIME packet arrives on a port (R475): its stamps pair with the previous arrival and the latest sending that the
peer had received, which is the one before where the latest would make the round trip negative.
(DEDUCED, log entry 47.) -/
def State.timeTake (s : State) (p prevSend arrival t : Nat) : State :=
  let x := s.fport p
  let s := s.setFport p { x with timeArrived := some t }
  match x.timeArrived with
  | none => s
  | some t2 =>
    if x.timeSent = 0 ∨ arrival = 0 ∨ prevSend = 0 then s
    else
      let there := timeDiff t2 prevSend
      let back := timeDiff arrival x.timeSent
      let back := if there + back < 0 ∧ x.timePrev ≠ 0 then timeDiff arrival x.timePrev else back
      let s := s.wrN (Reg.FAB_PORT_DELAY p) (clampI 0 (2 ^ 32 - 1) (rneDiv (there + back) 2)).toNat
      if s.parentPort = some p then
        s.thetaTake (rneDiv (there - back - s.rdI (Reg.FAB_PORT_ASYM p) 24) 2)
      else s

/-! ### Packets that arrive (R465-R473) -/

/-- A HELLO arrives (R467). -/
def State.helloTake (s : State) (p key addr root dist : Nat) (parent : Bool) : State :=
  let n : Nbr := { key := key, addr := addr, root := root, dist := dist, namesUs := parent }
  let old := (s.fport p).nbr
  let s := (s.setFport p { s.fport p with nbr := some n }).wrN (Reg.FAB_PORT_NBR p) key
  let s := s.elect false
  if old.map (·.addr) = some addr then s else s.floodOwn

/-- An LSR arrives on a port (R470). -/
def State.lsrTake (s : State) (p : Nat) (k : FabPkt) (l : Lsr) : State :=
  let newer : Bool := match s.fab.lsrs.find? fun x => x.addr == l.addr with
    | none => true
    | some x => decide (0 < (l.seq + 2 ^ 32 - x.seq) % 2 ^ 32 ∧ (l.seq + 2 ^ 32 - x.seq) % 2 ^ 32 < 2 ^ 31)
  if newer && l.uid != s.ownUid then
    let s := s.storeLsr l
    if k.ttl ≤ 1 then s.bumpSat Reg.FAB_TTL_DROP 32
    else (List.range 8).foldl (fun s q =>
      if q ≠ p ∧ s.fpUp q then s.portSend q { k with ttl := k.ttl - 1 } else s) s
  else s

/-- A routed packet is for this device. -/
def State.isHere (s : State) (k : FabPkt) : Bool :=
  match k.body with
  | .addrReq .. => s.isRoot && s.fabState == 4
  | .addrGrant uid _ => uid == s.ownUid
  | _ => s.bit Reg.FAB_ADDR 10 && k.dst == s.ownAddr

/-- A routed packet goes on (R465). (DEDUCED, log entry 46.) -/
def State.forward (s : State) (k : FabPkt) : State :=
  if k.ttl ≤ 1 then s.bumpSat Reg.FAB_TTL_DROP 32 else s.routeSend { k with ttl := k.ttl - 1 }

/-- A packet that needs no RAP service arrives on a port, at a place within the present tick. -/
def State.pktArrive (s : State) (p : Nat) (k : FabPkt) (sub : Nat) : State :=
  match k.body with
  | .hello key addr root dist parent => s.helloTake p key addr root dist parent
  | .time prevSend arrival => s.timeTake p prevSend arrival (s.tickPlace sub)
  | .lsr addr uid seq nbrs =>
    s.lsrTake p k { addr := addr, uid := uid, seq := seq, nbrs := nbrs, heardAt := s.clk.up }
  | .ridge .. => s.ridgeArrive p (s.tickPlace sub) k
  | .reserved _ => s.bumpSat Reg.FAB_BAD_PKT 32
  | .rap _ => if s.isHere k then s else s.forward k
  | .e2eAck _ => if s.isHere k then s.e2eAcks k else s.forward k
  | .addrReq uid want =>
    if s.isHere k then
      let (s, taken) := (s.e2eAcks k).e2eTake k
      if taken then s.addrReqTake uid k.src want else s
    else s.forward k
  | .addrGrant _ addr =>
    if s.isHere k then
      let (s, taken) := (s.e2eAcks k).e2eTake k
      if taken && s.fabState == 3 then s.joined addr else s
    else s.forward k

/-! ### Power and clocks (R484) -/

/-- Entry to DOZE or a lower state, or warm reset: every port goes DOWN. (DEDUCED, log entry 46.) -/
def State.fabRest (s : State) : State :=
  let s := (List.range 8).foldl (fun s p => s.portTo p 0) s
  let s := { s with
    regs := Sparse.restrict (fun k => decide (¬(0x6580 ≤ k / 256 ∧ k / 256 < 0x6594))) s.regs
    fab := { s.fab with lsrs := [], rl := [], grants := [], resend := [], unsent := [], routeDue := false } }
  let s := (s.wrN Reg.FAB_MEMBERS 0).wrN Reg.FAB_ADDR 0
  let s := s.setFabState (if s.fabState = 0 then 0 else 1)
  s.setTimeState 0

/-! ### The commands -/

/-- The adapted equaliser of an F-lane (R460). -/
def State.adaptFLane (s : State) (l boost : Nat) (dfe : List Int) : State :=
  let byte (t : Nat) : Nat := ofSigned 8 (dfe.getD t 0)
  let k := Reg.FAB_LANE_CTL l
  let top := s.fld k 12 8
  let s := s.setFld (Reg.FAB_LANE_STS l) 9 5 (if s.bit k 13 then top
    else min (boost + s.fld (Reg.HLT_LANE (48 + l)) 18 15) top)
  if s.bit k 7 then s
  else
    let s := s.wrN (Reg.FAB_DFE_LO l) (ofLe ((List.range 8).map fun t => BitVec.ofNat 8 (byte t)))
    s.wrN (Reg.FAB_DFE_HI l) (ofLe ((List.range 4).map fun t => BitVec.ofNat 8 (byte (8 + t))))

/-- A write of FAB_CTL.ENABLE (R468). -/
def execFabEnable (on : Bool) (s : State) : Host.Outcome State Fault Refusal :=
  if on && s.parityStopped Reg.FAB_CTL then .next s
  else
    let s := if on then s else s.parityFree Reg.FAB_CTL
    .next (
      if on then
        if s.bit Reg.FAB_CTL 0 then s
        else
          let s := { s with clk := { s.clk with fabTarget := s.rdI Reg.CLK_OFFSET_NOW 24 } }
          let s := (((s.putBit Reg.FAB_CTL 0 true).setFabState 1).elect false).clkSteer
          (List.range 8).foldl State.portRetest s
      else
        let s := s.fabRest
        let s := (s.setFabState 0).wrN Reg.FAB_ROOT 0
        ((s.wrN Reg.FAB_ROOT_DIST 0).putBit Reg.FAB_CTL 0 false).clkSteer)

/-- A write of a port's ENABLE (R461). -/
def execFabPortEnable (p : Fin 8) (on : Bool) (s : State) : Host.Outcome State Fault Refusal :=
  if on && s.parityStopped (Reg.FAB_PORT_CTL p) then .next s
  else
    let s := if on then s else s.parityFree (Reg.FAB_PORT_CTL p)
    if on && s.portUndefined p then .fault (.undefinedOutcome 609)
    else .next (
      let s := s.putBit (Reg.FAB_PORT_CTL p) 0 on
      if on then s.portRetest p else s.portTo p 0)

/-- A signal is detected on both lanes (R461); it wakes the device where R560 lets it. -/
def execSignalDetect (p : Fin 8) (s : State) : Host.Outcome State Fault Refusal :=
  if s.wakeUndefined 5 2 3 then .fault (.undefinedOutcome 609)
  else .next ((s.wakeBy 5 6 2 3).portSignal p)

/-- Both lanes have locked and adapted: `boost` and `dfe` are what each lane found (R461). A lane with FREQ_OFS_FAULT
reports no CDR lock (R39, R460). -/
def execPortTrainDone (p : Fin 8) (boost : List Nat) (dfe : List (List Int)) (s : State) :
    Host.Outcome State Fault Refusal :=
  .next (
    if s.fpState p = 1 ∧ ¬s.bit (Reg.FAB_LANE_STS (2 * p)) 10 ∧ ¬s.bit (Reg.FAB_LANE_STS (2 * p + 1)) 10 then
      let s := (List.range 2).foldl (fun s i =>
        s.adaptFLane (2 * p.val + i) (boost.getD i 0) (dfe.getD i [])) s
      ((s.fLaneBit p 0 true).fLaneBit p 1 true).setPort p 2
    else s)

/-- Training exceeds 20 ms (R461). -/
def execPortTrainTimeout (p : Fin 8) (s : State) : Host.Outcome State Fault Refusal :=
  .next (
    if s.fpState p = 1 ∧ s.overdue (s.fport p).since (msec 20) then
      let r := s.fld (Reg.FAB_PORT_STS p) 4 3
      if r < 2 then s.portTrain p (r + 1) else s.portFault p 1
    else s)

/-- Markers lock and the lanes are deskewed (R461). -/
def execPortAlignDone (p : Fin 8) (s : State) : Host.Outcome State Fault Refusal :=
  .next (
    if s.fpState p = 2 then
      ((s.fLaneBit p 2 true).setPort p 3).putBit (Reg.FAB_PORT_STS p) 5 true
    else s)

/-- ALIGN exceeds 1 ms (R461): with MANUAL_ALIGN the port waits. -/
def execPortAlignTimeout (p : Fin 8) (s : State) : Host.Outcome State Fault Refusal :=
  .next (
    if s.fpState p = 2 ∧ s.overdue (s.fport p).since (msec 1) ∧ ¬s.bit (Reg.FAB_PORT_CTL p) 3 then
      s.portFault p 1
    else s)

/-- Parameters and credits are exchanged: the port enters UP (R461, R464, R468). -/
def execPortInitDone (p : Fin 8) (s : State) : Host.Outcome State Fault Refusal :=
  .next (
    if s.fpState p = 3 then
      let x := { (default : FabPort) with credits0 := 128, credits1 := 64, credits2 := 1024 }
      let s := ((s.setFport p x).setPort p 4).raise (960 + p)
      let s := if s.fabState = 1 then
          { s with fab := { s.fab with stableSince := s.clk.up } }.setFabState 2 else s
      s.floodOwn
    else s)

/-- INIT exceeds 100 µs (R461). -/
def execPortInitTimeout (p : Fin 8) (s : State) : Host.Outcome State Fault Refusal :=
  .next (if s.fpState p = 3 ∧ s.overdue (s.fport p).since (usec 100) then s.portFault p 1 else s)

/-- 10 ms of FAULT have passed (R461). -/
def execPortFaultEnd (p : Fin 8) (s : State) : Host.Outcome State Fault Refusal :=
  .next (if s.fpState p = 6 ∧ s.elapsed (s.fport p).since (msec 10) then s.setPort p 0 else s)

/-- A port in UP loses its link (R461). -/
def execPortLinkLost (p : Fin 8) (s : State) : Host.Outcome State Fault Refusal :=
  .next (if s.fpUp p then s.portDrop p 0 else s)

/-- FREQ_OFS_FAULT (R39, R45, R460): the frequency offset of a lane leaves ±200 ppm, or returns within it. Lanes 48 to 63
are F-lanes 0 to 15; an F-lane outside that range has no CDR lock, so a port in UP loses its link.
(DEDUCED, log entry 44.) -/
def execFreqOfsFault (x : OffsetChange) (s : State) : Host.Outcome State Fault Refusal :=
  let j := x.lane.val
  let on := x.leaves
  .next (
    if j < 48 then s.laneOffset j on
    else
      let l := j - 48
      let p := l / 2
      if s.fpState p = 0 ∨ s.fpState p = 6 then s
      else
        let s := s.putBit (Reg.FAB_LANE_STS l) 10 on
        if !on then s
        else
          let s := s.putBit (Reg.FAB_LANE_STS l) 0 false
          if s.fpUp p then s.portDrop p 0 else s)

/-- The replay buffer has been full for 1 ms (R463). -/
def execReplayStall (p : Fin 8) (s : State) : Host.Outcome State Fault Refusal :=
  .next (
    match (s.fport p).fullSince with
    | some t => if s.fpUp p ∧ s.elapsed t (msec 1) then s.portFault p 3 else s
    | none => s)

/-- A port in UP sends a HELLO, every 10 µs (R466, R467). -/
def execHelloSend (p : Fin 8) (s : State) : Host.Outcome State Fault Refusal :=
  .next (
    if s.fpUp p ∧ s.sinceNote (s.fport p).helloAt (usec 10) then
      let s := s.setFport p { s.fport p with helloAt := some s.clk.up }
      s.portSend p (s.linkPkt (.hello s.ownKey s.ownAddr (s.rdN Reg.FAB_ROOT)
        (s.fld Reg.FAB_ROOT_DIST 4 0) (s.bit (Reg.FAB_PORT_STS p) 6)))
    else s)

/-- A packet of a type arrives on a port in UP. -/
def State.arriveIf (s : State) (p : Nat) (k : FabPkt) (ty sub : Nat) : State :=
  if s.fpUp p && k.body.type == ty then s.pktArrive p k sub else s

/-- A HELLO arrives (R467). -/
def execHelloPacket (p : Fin 8) (k : FabPkt) (s : State) : Host.Outcome State Fault Refusal :=
  .next (s.arriveIf p k 0 0)

/-- Root key and parent port have stood for 100 µs (R468). -/
def execElectStable (s : State) : Host.Outcome State Fault Refusal :=
  .next (
    if s.fabState = 2 ∧ s.elapsed s.fab.stableSince (usec 100) then
      if s.isRoot then
        match s.chooseAddr s.ownUid s.wantAddr (if s.bit Reg.FAB_ADDR 10 then some s.ownAddr else none) with
        | some a => (s.recordGrant s.ownUid a).joined a
        | none => s
      else (s.setFabState 3).requestAddr
    else s)

/-- An ADDR_REQ arrives (R469). -/
def execAddrReq (p : Fin 8) (k : FabPkt) (s : State) : Host.Outcome State Fault Refusal :=
  .next (s.arriveIf p k 2 0)

/-- An ADDR_GRANT arrives (R469). -/
def execAddrGrant (p : Fin 8) (k : FabPkt) (s : State) : Host.Outcome State Fault Refusal :=
  .next (s.arriveIf p k 3 0)

/-- 1 ms has passed without an answer (R469): a request that was taken and not granted found no free
address. -/
def execAddrReqResend (s : State) : Host.Outcome State Fault Refusal :=
  .next (
    if s.fabState = 3 ∧ s.elapsed s.fab.reqAt (msec 1) then
      let x := findTx s.rootUid 0 s.fab.tx
      let s := if x.unacked.isEmpty then s.putBit Reg.FAB_STS 7 true else s
      s.requestAddr
    else s)

/-- Departed devices' addresses may go to others after 10 s (R469). -/
def execAddrHoldExpiry (s : State) : Host.Outcome State Fault Refusal :=
  .next (
    let freed := s.fab.grants.map fun (g : Grant) =>
      match g.leftAt with
      | some t => { g with free := g.free || s.elapsed t (msec 10000) }
      | none => g
    { s with fab := { s.fab with grants := freed } })

/-- An LSR arrives (R470). -/
def execLsrPacket (p : Fin 8) (k : FabPkt) (s : State) : Host.Outcome State Fault Refusal :=
  .next (s.arriveIf p k 4 0)

/-- 100 ms have passed: a JOINED device floods its record (R470). -/
def execLsrFloodTimer (s : State) : Host.Outcome State Fault Refusal :=
  .next (
    if s.fabState = 4 ∧ s.sinceNote s.fab.lsrAt (msec 100) then
      ({ s with fab := { s.fab with lsrAt := some s.clk.up } } : State).floodOwn
    else s)

/-- A member whose record is older than 300 ms, or that no path reaches, is removed (R470). -/
def execMemberAgeOut (a : Fin 1024) (s : State) : Host.Outcome State Fault Refusal :=
  .next (
    match s.fab.lsrs.find? fun x => x.addr == a.val with
    | none => s
    | some l =>
      let reached := s.portMaps.any fun m => m.2.2.any fun x => x.1 == a.val
      if l.uid ≠ s.ownUid ∧ (s.elapsed l.heardAt (msec 300) ∨ !reached) then s.dropMember a else s)

/-- The routing table is recomputed after a change (R472). -/
def execFabRoute (s : State) : Host.Outcome State Fault Refusal :=
  .next (if s.fab.routeDue then s.reroute else s)

/-- An E2E_ACK packet arrives (R473). -/
def execE2eAck (p : Fin 8) (k : FabPkt) (s : State) : Host.Outcome State Fault Refusal :=
  .next (s.arriveIf p k 5 0)

/-- An acknowledgement owed to a source goes in a packet of its own (R473). -/
def execE2eAckSend (uid : BitVec 56) (vc : Fin 3) (s : State) : Host.Outcome State Fault Refusal :=
  .next (
    match takeAck uid.toNat vc s.fab.rx, s.addrOfUid uid.toNat with
    | (some n, rx), some a =>
      ({ s with fab := { s.fab with rx := rx } } : State).routeSend
        { s.ownPkt a false (.e2eAck vc) with ack := some n }
    | _, _ => s)

/-- FAB_E2E_RTO has passed without an acknowledgement (R473). -/
def execE2eRto (uid : BitVec 56) (vc : Fin 3) (s : State) : Host.Outcome State Fault Refusal :=
  .next (
    let x := findTx uid.toNat vc s.fab.tx
    match x.unacked with
    | [] => s
    | e :: _ =>
      if s.elapsed e.sentAt (usec (s.fld Reg.FAB_E2E_RTO 31 0)) then
        let items := x.unacked.map fun e =>
          { e with sentAt := s.clk.up,
                   pkt := { e.pkt with src := s.ownAddr, dst := (s.addrOfUid uid.toNat).getD e.pkt.dst } }
        let s := { s with fab := { s.fab with tx := putTx { x with unacked := items } s.fab.tx } }
        (items.foldl (fun s e => s.routeSend e.pkt) s).markRoutes
      else s)

/-- Packets whose destination has had no route for FAB_UNREACH_MS are removed (R474). -/
def execFabUnreach (uid : BitVec 56) (vc : Fin 3) (s : State) : Host.Outcome State Fault Refusal :=
  .next (
    let x := findTx uid.toNat vc s.fab.tx
    let gone := fun (e : E2eItem) => match e.lostAt with
      | some t => s.elapsed t (msec (s.fld Reg.FAB_UNREACH_MS 31 0))
      | none => false
    let n := (x.unacked.filter gone).length
    if n = 0 then s
    else
      let x := { x with unacked := x.unacked.filter fun e => !gone e }
      let s := { s with fab := { s.fab with tx := putTx x s.fab.tx } }
      ((s.bumpSat Reg.FAB_UNREACH 32 n).latchRaise Reg.FAB_STS 8 974).txDrainAll)

/-- A port sends a TIME packet, at a place within the present tick (R475). -/
def execTimeSend (p : Fin 8) (sub : Fin 4096) (s : State) : Host.Outcome State Fault Refusal :=
  .next (
    let x := s.fport p
    if s.fpUp p ∧ s.bit (Reg.FAB_PORT_CTL p) 8 ∧ s.pllLocked 0 ∧ s.sinceNote x.timeAt (4096 * 4096 - 4096) then
      let s := s.setFport p { x with timeAt := some s.clk.up }
      let t := s.portSend p (s.linkPkt (.time 0 0))
      let y := t.fport p
      if y.wait.length = x.wait.length then t.setFport p { y with timeSent := s.tickPlace sub } else t
    else s)

/-- A TIME packet arrives (R475, R476). -/
def execTimePacket (p : Fin 8) (k : FabPkt) (sub : Fin 4096) (s : State) :
    Host.Outcome State Fault Refusal :=
  .next (s.arriveIf p k 1 sub)

/-- STEP := 1 (R478). -/
def execFabStep (s : State) : Host.Outcome State Fault Refusal :=
  .next (s.moveTime (-(s.rdI Reg.FAB_TIME_OFS 48)))

/-- HOLD_MAX passes in HOLDOVER (R476). (DESIGN CHOICE, log entry 6.) -/
def execFabHoldMax (s : State) : Host.Outcome State Fault Refusal :=
  .next (
    if s.timeState = 6 ∧ s.elapsed s.fab.holdSince (msec (s.fld Reg.FAB_TIME_CFG 28 13)) then
      s.setTimeState 0
    else s)

/-- FAB_RL_HOLD passes before a gap fills (R482). -/
def execRlHoldExpiry (src : Fin 1024) (s : State) : Host.Outcome State Fault Refusal :=
  .next (s.ridgeSkip src)

end Sys2Proof.Machine
end

