-- ==== Sys2Proof/Machine/Clocks.lean ====
section
/-! DEFINITION. Clock synthesis: the reference, the six loops, their band memories and steering
(R488-R504). -/

namespace Sys2Proof.Machine

/-! ### Into and out of the bypass clock (R493, R494) -/

/-- What a domain's move to its bypass clock means elsewhere (R336, R349, R396, R476). -/
def State.bypassBegins (s : State) (k : Nat) : State :=
  let s := if k = 0 then (s.timBypass.ccsClock).timeFollow false else s
  if k = 4 then s.memRest else s

/-- A locked loop moves to its bypass clock; SYS takes FFT, FRONT and DSP along (R494). `count` says that
it is a loss of lock. (DEDUCED, log entry 18.) -/
def State.clkFall (s : State) (k : Nat) (count : Bool) : State :=
  let was := s.sysPeriod
  let ks := (if k = 0 then [0, 1, 2, 3] else [k]).filter fun j => s.pllLocked j
  let s := if ks.contains 1 then s.spxFall else s
  let s := if ks.any fun j => decide (j ≤ 2) then s.spxDegrade else s
  let s := ks.foldl (fun s j =>
    let s := s.pllBypass j
    if count then (s.bumpSat (Reg.CLK_PLL_UNLOCKS j) 32).putBit Reg.CLK_STS 4 true else s) s
  (ks.foldl State.bypassBegins s).supRate was

/-- The bypass source of every loop in BYPASS is brought up to date (R493, R496). -/
def State.clkSource (s : State) : State :=
  (List.range 6).foldl (fun s k =>
    if s.pllState k = 1 then s.putBit (Reg.CLK_PLL_STS k) 4 (!s.bypassRef) else s) s

/-! ### Band memories (R497) -/

/-- The first valid entry within 100 ppm of a frequency in kHz. (DEDUCED, log entry 18.) -/
def State.bandHit (s : State) (k khz : Nat) : Option Nat :=
  (List.range 8).find? fun j =>
    let e := s.rd (Reg.CLK_BAND k j)
    let f := getF e 31 0
    bitAt e 63 && decide (((f : Int) - khz).natAbs * 10000 ≤ f)

/-- The least recently used entry: an unused one before any other. -/
def lruEntry (used : List Nat) : Nat :=
  match (List.range 8).find? fun j => !used.contains j with
  | some j => j
  | none => used.headD 0

/-- Marks an entry as used last. -/
def State.bandUse (s : State) (k j : Nat) : State :=
  if h : k < 6 then
    let used := (s.clk.lru[k].filter fun x => x != j) ++ [j]
    { s with clk := { s.clk with lru := s.clk.lru.set k used } }
  else s

/-- A loop's lock meets its band memory (R497). -/
def State.bandLock (s : State) (k : Nat) : State :=
  let khz := (rneDiv (s.rdN (Reg.CLK_PLL_FREQ k)) 1000).toNat
  match s.bandHit k khz with
  | some j => (s.putBit (Reg.CLK_PLL_STS k) 3 true).bandUse k j
  | none =>
    let j := if h : k < 6 then lruEntry s.clk.lru[k] else 0
    let w := if h : k < 6 then s.clk.words[k] else 0
    let s := s.wrN (Reg.CLK_BAND k j) (khz % 2 ^ 32 + w % 2 ^ 24 * 2 ^ 32 + 2 ^ 63)
    (s.putBit (Reg.CLK_PLL_STS k) 3 false).bandUse k j

/-- Clears a loop's band memory. -/
def State.bandClear (s : State) (k : Nat) : State :=
  let s := (List.range 8).foldl (fun s j => s.wrN (Reg.CLK_BAND k j) 0) s
  if h : k < 6 then { s with clk := { s.clk with lru := s.clk.lru.set k [] } } else s

/-! ### Locking (R490, R491) -/

/-- The next epoch boundary is reached (R490): at the first lock after cold reset device time is 0.
(DEDUCED, log entry 18.) -/
def State.toEpoch (s : State) : State :=
  let s := { s with clk := { s.clk with frontOfs := 0 } }
  if s.clk.everLocked then s.pass ((40960 - s.time % 40960) % 40960)
  else { s with time := 0, clk := { s.clk with everLocked := true } }

/-- Loops enter LOCKED from BYPASS (R491, R504). (DEDUCED, log entry 18.) -/
def State.clkEnter (s : State) (ks : List Nat) : State :=
  let was := s.sysPeriod
  let s := (ks.foldl (fun s k => (s.pllSet k 2).putBit (Reg.CLK_PLL_STS k) 4 false) s).supRate was
  let s := if ks.contains 0 then
      ({ s with clk := { s.clk with remNum := 0, remDen := 1 } } : State).wrI Reg.CLK_OFFSET_NOW 24
        s.steerTarget
    else s
  let s := ks.foldl (fun s k =>
    ((s.wr (Reg.CLK_PLL_LOCK_TS k) s.now.word).bandLock k).raise (70 + k)) s
  let s := if ks.contains 1 then s.spxRelock else s
  let s := if ks.contains 0 then (s.timRelock).timeFollow false else s
  if ks.contains 4 then s.memLocked else s

/-- The loop meets the phase condition or is locked. -/
def State.clkReady (s : State) (k : Nat) : Bool :=
  s.pllLocked k || (s.pllState k == 1 && (if h : k < 6 then s.clk.phaseMet[k] else false))

/-- A loop meets the phase condition with a frequency word (R491). (DEDUCED, log entry 18.) -/
def State.clkMeets (s : State) (k : Fin 6) (word : Nat) : State :=
  let c := { s.clk with phaseMet := s.clk.phaseMet.set k true, words := s.clk.words.set k word }
  let s := { s with clk := c }
  if k.val ≤ 3 then
    if (List.range 4).all s.clkReady then
      let ks := (List.range 4).filter fun j => !s.pllLocked j
      (s.toEpoch).clkEnter ks
    else s
  else s.clkEnter [k]

/-! ### The commands -/

/-- The reference monitor finds REF_IN lost (R489, R496, R500): a slew stops where it stands. -/
def execRefLost (s : State) : Host.Outcome State Fault Refusal :=
  .next (
    if s.bit Reg.CLK_STS 0 then
      let was := s.sysPeriod
      let s := ((s.putBit Reg.CLK_STS 0 false).putBit Reg.CLK_STS 3 true).bumpSat Reg.CLK_REF_LOSTS 32
      let s := (s.wrI Reg.CLK_OFFSET_NOW 24 s.offsetNow).raise 76
      let s := [0, 4, 5].foldl (fun s k =>
        if s.pllLocked k then s.pllSet k 4 else if s.pllState k = 1 then s.pllSet k 1 else s) s
      s.clkSource.supRate was
    else s)

/-- REF_IN has been good for 1 ms (R489, R496): `far` names the loops whose output is more than 200 ppm
off. -/
def execRefBack (far : BitVec 6) (s : State) : Host.Outcome State Fault Refusal :=
  .next (
    if s.bit Reg.CLK_STS 0 then s
    else
      let was := s.sysPeriod
      let s := ((s.putBit Reg.CLK_STS 0 true).raise 77).clkSource.supRate was
      [0, 4, 5].foldl (fun s k =>
        if s.pllState k = 4 then
          (if far.toNat.testBit k then s.clkFall k false else s.pllSet k 3)
        else s) s)

/-- A loop meets the phase condition; SYS, FFT, FRONT and DSP leave BYPASS together, at the next epoch
boundary (R490, R491). `word` is its frequency word. -/
def execClkLock (k : Fin 6) (word : BitVec 24) (s : State) : Host.Outcome State Fault Refusal :=
  .next (
    let served := if 1 ≤ k.val ∧ k.val ≤ 3 then s.clkReady 0 else s.bit Reg.CLK_STS 0
    if s.pllState k = 1 ∧ served = true then s.clkMeets k word.toNat else s)

/-- A loop loses lock (R494): one in HOLDOVER makes no comparisons. -/
def execClkUnlock (k : Fin 6) (s : State) : Host.Outcome State Fault Refusal :=
  .next (if s.pllState k = 2 ∨ s.pllState k = 3 then s.clkFall k true else s)

/-- A slew reaches its target (R491, R492). -/
def execSlewDone (k : Fin 6) (s : State) : Host.Outcome State Fault Refusal :=
  .next (
    if s.pllState k = 3 then
      let s := if k.val = 0 then s.wrI Reg.CLK_OFFSET_NOW 24 s.steerTarget else s
      s.pllSet k 2
    else s)

/-- A write of CLK_OFFSET (R492, R500, R502): `stands` is where a running slew stands, in 0.1 ppb. -/
def execClkOffsetWrite (who : Fin 8) (v : BitVec 24) (stands : Int) (s : State) :
    Host.Outcome State Fault Refusal :=
  .next (
    if s.bit Reg.FAB_CTL 0 then s.flag who Reg.CLK_OFFSET .ignored
    else
      let now := s.rdI Reg.CLK_OFFSET_NOW 24
      let s := if s.pllState 0 = 3 then
          s.wrI Reg.CLK_OFFSET_NOW 24 (clampI (min now s.steerTarget) (max now s.steerTarget) stands)
        else s
      (s.wrN Reg.CLK_OFFSET v.toNat).clkSteer)

/-- BAND_CLEAR := 1 (R497). -/
def execBandClear (k : Fin 6) (s : State) : Host.Outcome State Fault Refusal := .next (s.bandClear k)

end Sys2Proof.Machine
end

