-- ==== Sys2Proof/Machine/Display.lean ====
section
/-! DEFINITION. The display scan-out (R253-R274): the eDP link, frames, composition, commits and flips,
genlock and self-refresh. -/

namespace Sys2Proof.Machine

/-- Changes the scan-out's own state. -/
def State.setScn (s : State) (x : Scn) : State := { s with scn := x }

/-! ### Timing (R256) -/

/-- ACTIVE, FP, SYNC and BP of a timing entry, and their total. -/
def timing (v : BitVec 64) : Nat × Nat × Nat × Nat × Nat :=
  let a := getF v 12 0
  let f := getF v 25 16
  let y := getF v 41 32
  let b := getF v 57 48
  (a, f, y, b, a + f + y + b)

/-- Pixels of a line and lines of a frame, in all. -/
def State.lineLen (s : State) : Nat := (timing (s.rd Reg.SCN_H_TIMING)).2.2.2.2

/-- Lines of a frame, in all. -/
def State.frameLines (s : State) : Nat := (timing (s.rd Reg.SCN_V_TIMING)).2.2.2.2

/-- The present pixel clock in Hz. -/
def State.pixHz (s : State) : Nat := max 1 (s.rdN (Reg.CLK_PLL_FREQ 5))

/-- A number of pixel clocks in FRAC units. -/
def State.pixTime (s : State) (n : Nat) : Nat := n * 10240000000000 / s.pixHz

/-! ### Link (R253-R255) -/

/-- Lanes of SCN_CFG (R273). -/
def State.edpLanes (s : State) : Nat :=
  match s.fld Reg.SCN_CFG 2 0 with
  | 1 => 1
  | 3 => 2
  | _ => 4

/-- Lane rate of SCN_CFG in kb/s. -/
def State.edpRate (s : State) : Nat :=
  match s.fld Reg.SCN_CFG 4 3 with
  | 0 => 1620000
  | 1 => 2700000
  | 2 => 5400000
  | _ => 8100000

/-- LINK_BW of R254. -/
def State.linkShort (s : State) : Bool :=
  let bpp := if s.bit Reg.SCN_CFG 5 then 30 else 24
  decide (s.edpLanes * s.edpRate * 8 < s.rdN Reg.SCN_PIXCLK * bpp * 10)

/-- Timing fields, lanes or rate outside what R256 and R273 allow. -/
def State.scnUndefined (s : State) : Bool :=
  let h := timing (s.rd Reg.SCN_H_TIMING)
  let v := timing (s.rd Reg.SCN_V_TIMING)
  let l := s.fld Reg.SCN_CFG 2 0
  let p := s.rdN Reg.SCN_PIXCLK
  decide (h.1 = 0 ∨ 4096 < h.1 ∨ v.1 = 0 ∨ 2160 < v.1 ∨ p < 25000 ∨ 600000 < p) ||
    !(l == 1 || l == 3 || l == 7) ||
    (s.bit Reg.SCN_CFG 7 && decide (s.fld Reg.SCN_CFG 14 9 < 24 ∨ 60 < s.fld Reg.SCN_CFG 14 9))

/-- A refused enable (R254). -/
def State.scnRefuse (s : State) (cause : Nat) : State :=
  ((s.setFld Reg.SCN_STS 9 7 cause).setScn { s.scn with training := false }).raise 389

/-- GL_LOCKED changes (R266). -/
def State.glLocked (s : State) (on : Bool) : State :=
  if s.bit Reg.SCN_STS 3 = on then s else (s.putBit Reg.SCN_STS 3 on).raise 386

/-- Link training begins (R253, R254): `what` 0 full, 1 fast. -/
def State.scnTrain (s : State) (what : Nat) : State :=
  (s.setScn { s.scn with training := true, link := false, sending := false }).send
    (.edp what (s.rdN Reg.SCN_FRAME))

/-- A retrain begins (R255, R269, R274). -/
def State.scnRetrain (s : State) (what : Nat) : State := (s.raise 389).scnTrain what

/-- The pixel clock starts at SCN_PIXCLK, without an adjustment (R256, R266). -/
def State.glReset (s : State) : State :=
  let s := ((s.glLocked false).putBit Reg.SCN_STS 4 false).wrI Reg.SCN_PIX_ADJ 24 0
  s.setScn { s.scn with edgeAt := s.clk.up, good := 0, moved := 0 }

/-- ENABLE := 1 (R254, R256). One written before an ENABLE := 0 has stopped the link lets it run on.
(DESIGN CHOICE, log entry 66.) -/
def State.scnEnable (s : State) : State :=
  let s := (s.putBit Reg.SCN_CTL 0 true).setFld Reg.SCN_STS 9 7 0
  if s.bit Reg.SCN_STS 0 || s.scn.training then s.setScn { s.scn with stopping := false }
  else if s.linkShort then s.scnRefuse 1
  else if !s.scn.hpd then s.scnRefuse 2
  else
    let s := ((s.pllTarget 5 (s.rdN Reg.SCN_PIXCLK * 1000)).pllStart 5).glReset
    (s.send (.edp 2 (s.rdN Reg.SCN_FRAME))).scnTrain 0

/-- The shadows of R264. -/
def State.scnShadow (s : State) : ScnActive where
  bg := s.rd Reg.SCN_BG
  plot := s.rd Reg.SCN_PLOT_RECT
  dens := s.rd Reg.SCN_DENS_CFG
  ovlAddr := s.rd Reg.SCN_OVL_ADDR
  ovlCfg := s.rd Reg.SCN_OVL_CFG
  ovlRect := s.rd Reg.SCN_OVL_RECT
  traces := (List.range 8).map fun t => (s.rd (Reg.SCN_TRACE t), s.rd (Reg.SCN_TRACE_BUF t))

/-- The regions that the device's writers use, but for the traces' own (R261). -/
def State.otherRegions (s : State) : List (Nat × Nat × Nat) :=
  s.regionsHeld.filter fun r => !decide (8 ≤ r.1 ∧ r.1 < 16)

/-- A region of GDDR7 is installed memory outside what other writers of the device use. -/
def State.planeFree (s : State) (others : List (Nat × Nat × Nat)) (a n : Nat) : Bool :=
  decide (a + n ≤ s.memEnd) && !(others.any fun r => meets a n r.2.1 r.2.2) && !s.contextHit a n &&
    !s.inJournalArea a n

/-- The rule that gives no outcome to settings of the scan-out, 0 where none does: a trace buffer (R261) or an overlay
surface (R262) that meets another writer's region or leaves memory, and CSHIFT out of range (R609). -/
def State.planesBad (s : State) (a : ScnActive) : Nat :=
  let bufs := (a.traces.zipIdx.filter fun e => bitAt e.1.1 0).map fun e => (8 + e.2, getF e.1.2 47 6 * 64, 8192)
  let others := s.otherRegions
  if bufs.any fun b => !s.planeFree (others ++ bufs.filter fun x => x.1 != b.1) b.2.1 8192 then 261
  else if bitAt a.ovlCfg 0 && !s.planeFree (others ++ bufs) (getF a.ovlAddr 47 6 * 64) (ovlLength a) then 262
  else if 23 < getF a.dens 8 4 then 609
  else 0

/-- The rule that gives no outcome to a pending commit, 0 where none does. -/
def State.planesUndefined (s : State) : Nat := if s.scn.commit then s.planesBad s.scnShadow else 0

/-- SCN_ENABLE (R254). -/
def execScnEnable (s : State) : Host.Outcome State Fault Refusal :=
  if s.parityStopped Reg.SCN_CTL then .next s
  else
    if s.bit Reg.SCN_STS 0 then .next s.scnEnable
    else if s.scnUndefined then .fault (.undefinedOutcome 256)
    else if s.planesBad s.scn.act ≠ 0 then .fault (.undefinedOutcome (s.planesBad s.scn.act))
    else .next s.scnEnable

/-- ENABLE := 0 (R271): at the end of the current frame, or at once while no frame runs. -/
def State.scnDisable (s : State) : State :=
  let s := s.putBit Reg.SCN_CTL 0 false
  let s := s.setScn { s.scn with training := false }
  if s.scn.timing then s.setScn { s.scn with stopping := true }
  else (s.putBit Reg.SCN_STS 0 false).setScn { s.scn with link := false, sending := false }

/-- SCN_DISABLE (R271). -/
def execScnDisable (s : State) : Host.Outcome State Fault Refusal :=
  let s := s.parityFree Reg.SCN_CTL
  .next s.scnDisable

/-- A pending commit hands over (R264, R265). -/
def State.scnHandover (s : State) : State :=
  if s.scn.commit then
    let s := s.setScn { s.scn with act := s.scnShadow, commit := false, flip := true }
    (s.putBit Reg.SCN_STS 1 false).bump Reg.SCN_SHADOW_GEN 32
  else s

/-- EDP_LINK_TRAINED (R254, R255, R269): training completes or fails; `psr`, `msa` and `e.fast` are the panel's
capabilities as read from its DPCD. The link carries frames from the next frame start. A failure while the scan-out
runs leaves the link down. (DESIGN CHOICE, log entry 66.) -/
def execEdpLinkTrained (e : TrainEnd) (psr msa : Bool) (s : State) : Host.Outcome State Fault Refusal :=
  if s.scn.training then
    let s := s.setScn { s.scn with psrCap := psr, msaCap := msa, fastCap := e.fast, training := false }
    let runs := s.bit Reg.SCN_STS 0
    let lacks := (s.bit Reg.SCN_CFG 7 && !msa) || (s.bit Reg.SCN_CFG 8 && !psr)
    if !runs && lacks then .next (s.scnRefuse 4)
    else if !e.ok then .next (if runs then s else s.scnRefuse 3)
    else
      let stays := s.bit Reg.SCN_STS 2 && !s.scn.psrExit
      let at' := if s.scn.timing || stays then s.scn.edgeAt else s.clk.up
      let x := { s.scn with link := true, timing := !stays, blank := s.scn.blank || !s.scn.timing, edgeAt := at' }
      .next ((s.putBit Reg.SCN_STS 0 true).setScn x)
  else .next s

/-- SCN_COMMIT (R264). -/
def execScnCommit (s : State) : Host.Outcome State Fault Refusal :=
  .next ((s.putBit Reg.SCN_STS 1 true).setScn { s.scn with commit := true })

/-- PSR_ENTER := 1 (R269). -/
def State.psrEnter (s : State) : State :=
  if s.scn.timing && !s.bit Reg.SCN_STS 2 then s.setScn { s.scn with psrEnter := 2 } else s

/-- PSR_ENTER (R269). -/
def execPsrEnter (s : State) : Host.Outcome State Fault Refusal := .next s.psrEnter

/-- PSR_EXIT := 1 (R253, R269). -/
def State.psrExit (s : State) : State :=
  if s.bit Reg.SCN_STS 2 && s.bit Reg.SCN_STS 0 && !s.scn.psrExit then
    (s.setScn { s.scn with psrExit := true, psrEnter := 0 }).scnRetrain (b2n s.scn.fastCap)
  else s

/-- PSR_EXIT (R269). -/
def execPsrExit (s : State) : Host.Outcome State Fault Refusal := .next s.psrExit

/-- TRACE_RESET (R260). -/
def execTraceReset (mask : BitVec 8) (s : State) : Host.Outcome State Fault Refusal :=
  .next (s.setScn { s.scn with reset := s.scn.reset ||| mask.toNat })

/-- Frame timing and the link stop with the panel in self-refresh (R269). -/
def State.psrActive (s : State) : State :=
  let s := s.copyEnds
  let s := s.setScn
    { s.scn with timing := false, link := false, sending := false, psrEnter := 0, extended := false }
  (s.putBit Reg.SCN_STS 2 true).raise 390

/-! ### Composition (R257-R262) -/

/-- A display pixel inside a rectangle, as its place in it. -/
def inRect (v : BitVec 64) (x y : Nat) : Option (Nat × Nat) :=
  let r := rect v
  if r.1 ≤ x ∧ x < r.1 + r.2.2.1 ∧ r.2.1 ≤ y ∧ y < r.2.1 + r.2.2.2 then some (x - r.1, y - r.2.1) else none

/-- The share of `n` things that place `i` of `m` takes, as first and count (R258). -/
def share (n m i : Nat) : Nat × Nat :=
  if m ≤ n then (i * n / m, (i + 1) * n / m - i * n / m) else (i * n / m, 1)

/-- 2 ^ (24 i / 1023) is at most 1 + k (R259). -/
def logReached (k i : Nat) : Bool := decide (2 ^ (24 * i) ≤ (1 + k) ^ 1023)

/-- The largest index that `logReached` admits. -/
def logSearch (k : Nat) : (bits r : Nat) → Nat
  | 0, r => r
  | n + 1, r => if logReached k (r + 2 ^ n) then logSearch k n (r + 2 ^ n) else logSearch k n r

/-- The colour index of a count (R259). -/
def colourIndex (dens : BitVec 64) (k : Nat) : Nat :=
  if bitAt dens 3 then logSearch k 10 0 else min 1023 (k / 2 ^ getF dens 8 4)

/-- An entry of the colour table (R259, R272). -/
def State.colour (s : State) (bank i : Nat) : Nat :=
  let k := if bank = 0 then Reg.SCN_CT0 (i / 512) (i % 512 / 2) else Reg.SCN_CT1 (i / 512) (i % 512 / 2)
  if i % 2 = 0 then s.fld k 29 0 else s.fld k 61 32

/-- The largest count among the cells of a density pixel (R258). -/
def State.densityCount (s : State) (dens : BitVec 64) (w h x y : Nat) : Nat :=
  let c := getF dens 2 1
  let lo := getF dens 19 10
  let cs := share (s.rdN (Reg.CAN_USE c)) w x
  let rs := share (getF dens 29 20 + 1 - lo) h (h - 1 - y)
  ((List.range cs.2).flatMap fun i => (List.range rs.2).map fun j =>
    (s.can c).cell ((cs.1 + i) * 1024 + lo + rs.1 + j)).foldl max 0

/-- The density colour of a display pixel, if it shows (R257-R259); free where R / H is too large, and where ROW_LO
lies above ROW_HI. (DEDUCED, log entry 31.) -/
def State.densityColour (s : State) (free x y : Nat) : Option Nat :=
  let a := s.scn.act
  if bitAt a.dens 0 then
    (inRect a.plot x y).bind fun p =>
      let r := rect a.plot
      let rows := getF a.dens 29 20 + 1 - getF a.dens 19 10
      if rows = 0 ∨ 16 * r.2.2.2 < rows then some (Config.densityPixel free x % 2 ^ 30)
      else
        let k := s.densityCount a.dens r.2.2.1 r.2.2.2 p.1 p.2
        if k = 0 then none else some (s.colour (getF a.dens 9 9) (colourIndex a.dens k))
  else none

/-- The row of a trace's value at a plot column, from the bottom (R261). -/
def traceRow (cfg : BitVec 64) (vals : List Nat) (w h x : Nat) : Nat :=
  let sh := share vals.length w x
  let v := ((vals.drop sh.1).take sh.2).foldl max 0
  min (h - 1) ((v - getF cfg 51 36) / (getF cfg 59 52 + 1))

/-- A trace lights a plot pixel (R261). -/
def traceLit (cfg : BitVec 64) (vals : List Nat) (w h x y : Nat) : Bool :=
  let here := traceRow cfg vals w h x
  let prev := if x = 0 then here else traceRow cfg vals w h (x - 1)
  let yb := h - 1 - y
  !vals.isEmpty && decide (min here prev ≤ yb ∧ yb ≤ max here prev)

/-- The traces over a pixel (R257, R261). -/
def State.tracesOver (s : State) (x y below : Nat) : Nat :=
  let r := rect s.scn.act.plot
  match inRect s.scn.act.plot x y with
  | none => below
  | some p =>
    s.scn.act.traces.zipIdx.foldl (fun c e =>
      if bitAt e.1.1 0 && s.scn.drawn.testBit e.2 &&
          traceLit e.1.1 (s.scn.copy.getD e.2 []) r.2.2.1 r.2.2.2 p.1 p.2 then getF e.1.1 35 6
      else c) below

/-- The source pixel of an overlay pixel (R262). -/
def ovlSource (rot w h x y : Nat) : Nat × Nat :=
  match rot with
  | 0 => (x, y)
  | 1 => (y, w - 1 - x)
  | 2 => (w - 1 - x, h - 1 - y)
  | _ => (h - 1 - y, x)

/-- An 8-bit component at 10 bits. (DEDUCED, log entry 31.) -/
def expand10 (v : Nat) : Nat := v * 4 + v / 64

/-- One component blended (R257). -/
def blend (a ovl below : Nat) : Nat := (2 * (a * expand10 ovl + (255 - a) * below) + 255) / 510

/-- The overlay over a pixel (R257, R262). -/
def State.overlayOver (s : State) (x y below : Nat) : Nat :=
  let a := s.scn.act
  if bitAt a.ovlCfg 0 then
    match inRect a.ovlRect x y with
    | none => below
    | some p =>
      let r := rect a.ovlRect
      let px := if bitAt a.ovlCfg 3 then r.2.2.1 - 1 - p.1 else p.1
      let uv := ovlSource (getF a.ovlCfg 2 1) r.2.2.1 r.2.2.2 px p.2
      let v := s.loadN (getF a.ovlAddr 47 6 * 64 + uv.2 * 64 * getF a.ovlCfg 19 4 + 4 * uv.1) 4
      let al := natBits v 31 24
      blend al (natBits v 23 16) (natBits below 29 20) * 2 ^ 20 +
        blend al (natBits v 15 8) (natBits below 19 10) * 2 ^ 10 + blend al (natBits v 7 0) (natBits below 9 0)
  else below

/-- The output form of a colour (R257): with 8-bit output the two low bits of each component go. -/
def outColour (ten : Bool) (c : Nat) : Nat :=
  if ten then c
  else natBits c 29 22 * 2 ^ 16 + natBits c 19 12 * 2 ^ 8 + natBits c 9 2

/-- A display pixel (R257). -/
def State.pixel (s : State) (free : Nat) (late : Bool) (y x : Nat) : Nat :=
  let c := (s.densityColour free x y).getD (getF s.scn.act.bg 29 0)
  let c := s.tracesOver x y c
  outColour (s.bit Reg.SCN_CFG 5) (if late then c else s.overlayOver x y c)

/-- Counts an underrun (R263). -/
def State.underrun (s : State) (n : Nat) : State :=
  if n = 0 then s else (s.bumpSat Reg.SCN_UNDERRUN 32 n).latchRaise Reg.SCN_STS 10 385

/-- Frame timing runs, and the PIX clock with it (R256, R501). -/
def State.scnClocked (s : State) : Bool := s.scn.timing && decide (s.fld Reg.PWR_STS 2 0 ≤ 1)

/-- Active lines of a frame. -/
def State.scnActive (s : State) : Nat := (timing (s.rd Reg.SCN_V_TIMING)).1

/-- A display column lies in one of the runs of columns, each a first one and a count. -/
def lateAt (late : List (Nat × Nat)) (x : Nat) : Bool := late.any fun r => decide (r.1 ≤ x ∧ x < r.1 + r.2)

/-- Overlay pixels of a line are among the late ones (R263). -/
def State.lateLine (s : State) (n : Nat) (late : List (Nat × Nat)) : Bool :=
  let r := rect s.scn.act.ovlRect
  bitAt s.scn.act.ovlCfg 0 && decide (r.2.1 ≤ n ∧ n < r.2.1 + r.2.2.2) &&
    late.any fun e => decide (0 < e.2) && meets e.1 e.2 r.1 r.2.2.1

/-- LINE_START (R257, R263): active line `n`, the next of the frame, starts; `late` holds the columns whose overlay
pixels have not been fetched. -/
def execLineStart (n : Fin 4096) (late : List (Nat × Nat)) (s : State) : Host.Outcome State Fault Refusal :=
  if s.scnClocked && !s.scn.blank && n.val == s.scn.nextLine && decide (n.val < s.scnActive) then
    let s := s.underrun (b2n (s.lateLine n.val late))
    let f := s.draw
    let s := f.2.setScn { f.2.scn with nextLine := n.val + 1 }
    let px := (List.range (timing (s.rd Reg.SCN_H_TIMING)).1).map fun x => s.pixel f.1 (lateAt late x) n.val x
    .next (if s.scn.sending then s.send (.line (s.rdN Reg.SCN_FRAME) n.val px) else s)
  else .next s

/-! ### Frames and sampling points (R256, R260, R264, R265, R268) -/

/-- The copy of every enabled trace's buffer begins (R260). A copy runs until the sampling point is repeated or the
next frame starts. (DEDUCED, log entry 31.) -/
def State.traceCopy (s : State) : State :=
  let s := s.copyEnds
  let copy := s.scn.act.traces.map fun e =>
    if bitAt e.1 0 then s.traceBuf (getF e.2 47 6 * 64) (s.verOf (2 * getF e.1 2 1 + getF e.1 3 3)).columns else []
  s.setScn { s.scn with copy := copy, copying := true }

/-- Decay events of DECAY_SRC = 1 (R236): one for each frame sent. -/
def State.frameDecay (s : State) : State :=
  (List.range 4).foldl (fun s c => if s.decaySrc c = 1 then s.decayEvent c else s) s

/-- The sampling point of a frame (R260, R264, R268); one that is extended is sent with MSA timing ignored. -/
def State.sample (s : State) : State :=
  let s := if s.scn.sending then s.frameDecay else s
  let still := s.bit Reg.SCN_CFG 7 && !s.bit Reg.SCN_CFG 6 && !s.scn.commit && !s.scn.changed
  let s := s.copyEnds.scnHandover.traceCopy
  let s := if still && s.scn.sending then s.send (.edp 5 (s.rdN Reg.SCN_FRAME)) else s
  s.setScn { s.scn with changed := false, extended := still, blank := true }

/-- SAMPLING_POINT (R264): the last active line of a frame ends. -/
def execSamplingPoint (s : State) : Host.Outcome State Fault Refusal :=
  if s.scnClocked && !s.scn.blank && decide (s.scnActive ≤ s.scn.nextLine) then
    if s.planesUndefined ≠ 0 then .fault (.undefinedOutcome s.planesUndefined) else .next s.sample
  else .next s

/-- The frame period, with the vertical sync and back porch to come, reaches 1 / MIN_HZ (R268).
(DEDUCED, log entry 31.) -/
def State.longFrame (s : State) : Bool :=
  let v := timing (s.rd Reg.SCN_V_TIMING)
  s.passed s.scn.frameAt
    (10240000000000 / max 1 (s.fld Reg.SCN_CFG 14 9) - s.pixTime ((v.2.2.1 + v.2.2.2.1) * s.lineLen))

/-- EXTENDED_LINE_END (R268): an extended front-porch line ends; the sampling point is repeated. -/
def execExtendedLineEnd (s : State) : Host.Outcome State Fault Refusal :=
  if s.scnClocked && s.scn.extended then
    if s.planesUndefined ≠ 0 then .fault (.undefinedOutcome s.planesUndefined)
    else
      let ends := s.scn.commit || s.scn.changed || s.longFrame
      let s := s.copyEnds.scnHandover.traceCopy
      .next (s.setScn { s.scn with changed := false, extended := !ends })
  else .next s

/-- The first frame after self-refresh (R269): commits taken meanwhile hand over, and PSR_ACTIVE is cleared.
(DESIGN CHOICE, log entry 66.) -/
def State.psrLeft (s : State) : State :=
  let s := s.scnHandover.traceCopy
  ((s.putBit Reg.SCN_STS 2 false).setScn { s.scn with psrExit := false }).raise 390

/-- A flip (R265): the new values first apply in the frame that starts at `ts`. -/
def State.scnFlip (s : State) (ts : Stamp) : State :=
  let s := (s.setScn { s.scn with flip := false }).wrN Reg.SCN_FLIP_FRAME (s.rdN Reg.SCN_FRAME)
  ((s.wr Reg.SCN_FLIP_TS ts.word).wr Reg.SCN_FLIP_CC (s.ccAt ts.t)).raiseTs 384 ts 0

/-- A frame starts (R255, R256, R263, R265). `late` names the traces whose copy is late. -/
def State.frameStart (s : State) (late : Nat) : State :=
  let s := s.wrN Reg.SCN_FRAME ((s.rdN Reg.SCN_FRAME + 1) % 2 ^ 48)
  let ts := s.stampAt s.time true
  let s := if s.scn.psrExit then s.psrLeft else s
  let s := s.copyEnds
  let s := if s.scn.flip then s.scnFlip ts else s
  let s := if s.bit Reg.SCN_CTL 12 then s.raiseTs 391 ts 0 else s
  let on := (List.range 8).filter fun t => late.testBit t && bitAt (s.scn.act.traces.getD t (0, 0)).1 0
  let s := s.underrun on.length
  let s := if s.scn.link || !s.bit Reg.SCN_STS 6 then s else s.bumpSat Reg.SCN_FRAMES_LOST 32
  let s := if s.scn.psrEnter = 2 then s.send (.edp 4 (s.rdN Reg.SCN_FRAME)) else s
  s.setScn { s.scn with
    frameAt := s.time, moved := 0, extended := false, blank := false, nextLine := 0, sending := s.scn.link,
    psrEnter := s.scn.psrEnter - 1, drawn := on.foldl (fun d t => d - 2 ^ t) 255 }

/-- FRAME_START (R256): a frame starts; where the scan-out stops or enters self-refresh at the end of
the frame before, it does so. -/
def execFrameStart (late : BitVec 8) (s : State) : Host.Outcome State Fault Refusal :=
  if s.scnClocked && s.scn.blank && !s.scn.extended then
    if s.scn.stopping then
      let s := s.setScn
        { s.scn with timing := false, link := false, sending := false, stopping := false, psrEnter := 0 }
      .next (s.putBit Reg.SCN_STS 0 false)
    else if s.scn.psrEnter = 1 then .next s.psrActive
    else if s.scn.psrExit && s.planesUndefined != 0 then .fault (.undefinedOutcome s.planesUndefined)
    else .next (s.frameStart late.toNat)
  else .next s

/-! ### HPD (R255) -/

/-- IRQ_HPD (R255): the panel's link status is read; `lost` says that it reports lost lock. -/
def execIrqHpd (lost : Bool) (s : State) : Host.Outcome State Fault Refusal :=
  let s := (s.raise 388).send (.edp 3 (s.rdN Reg.SCN_FRAME))
  .next (if lost && s.scn.link then (s.bumpSat Reg.SCN_RETRAINS 32).scnRetrain 0 else s)

/-- HPD_LOST (R255): HPD has been low for more than 2 ms. A retrain in progress ends. -/
def execHpdLost (s : State) : Host.Outcome State Fault Refusal :=
  let s := s.setScn { s.scn with
    hpd := false, link := false, sending := false, training := s.scn.training && !s.bit Reg.SCN_STS 0 }
  .next (if s.bit Reg.SCN_STS 6 then s else (s.putBit Reg.SCN_STS 6 true).raise 388)

/-- HPD_RETURN (R255). -/
def execHpdReturn (s : State) : Host.Outcome State Fault Refusal :=
  let s := s.setScn { s.scn with hpd := true }
  .next (
    if s.bit Reg.SCN_STS 6 then
      let s := (s.putBit Reg.SCN_STS 6 false).raise 388
      if s.bit Reg.SCN_STS 0 && s.scn.timing || s.scn.psrExit then s.scnRetrain 0
      else s
    else s)

/-! ### Genlock (R266, R267) -/

/-- The error of the scan-out's vertical sync against an edge at `t`, in pixel clocks, within half a
frame (R266). -/
def State.glError (s : State) (t : Nat) : Int :=
  let v := timing (s.rd Reg.SCN_V_TIMING)
  let sync := timeAdd s.scn.frameAt (s.pixTime ((v.1 + v.2.1) * s.lineLen))
  let due := timeAdd t (s.pixTime (s.fld Reg.SCN_GL_OFS 23 0))
  let d := rneDiv (timeDiff sync due * s.pixHz) 10240000000000
  let n : Int := max 1 (s.lineLen * s.frameLines)
  (d + n / 2) % n - n / 2

/-- A rising edge of VSYNC_IN steers the pixel clock, by at most 100 ppm within a frame (R266). (DEDUCED, log entry 31.) -/
def State.genlock (s : State) (t : Nat) : State :=
  let e := s.glError t
  let adj := s.rdI Reg.SCN_PIX_ADJ 24
  let want := adj + clampI (-100 - s.scn.moved) (100 - s.scn.moved) (Config.genlockStep e adj)
  let now := clampI (-5000) 5000 want
  let good := if e.natAbs ≤ 1 then s.scn.good + 1 else 0
  let s := (s.wrI Reg.SCN_GL_ERR 24 e).wrI Reg.SCN_PIX_ADJ 24 now
  let s := (s.putBit Reg.SCN_STS 4 (decide (want ≠ now))).putBit Reg.SCN_STS 5 false
  let s := s.setScn { s.scn with good := good, edgeAt := s.clk.up, moved := s.scn.moved + (now - adj) }
  let s := if 16 ≤ good then s.glLocked true else if 8 < e.natAbs then s.glLocked false else s
  s.pllTarget 5 ((s.rdN Reg.SCN_PIXCLK : Int) * (1000000 + now) / 1000).toNat

/-- VSYNC_IN_EDGE (R266, R267): captured on a SYS tick; while no frame timing runs it only shows that edges arrive. -/
def execVsyncInEdge (s : State) : Host.Outcome State Fault Refusal :=
  .next (
    if s.bit Reg.SCN_CFG 6 && s.bit Reg.SCN_STS 0 then
      if s.scn.timing then s.genlock s.sysNow
      else (s.putBit Reg.SCN_STS 5 false).setScn { s.scn with edgeAt := s.clk.up }
    else s)

/-- SCN_VSYNC_LOST (R267): three nominal frame periods have passed without an edge. -/
def execScnVsyncLost (s : State) : Host.Outcome State Fault Refusal :=
  let span := 3 * s.lineLen * s.frameLines * 10240000000 / max 1 (s.rdN Reg.SCN_PIXCLK)
  .next (if s.bit Reg.SCN_CFG 6 && s.scn.timing && !s.bit Reg.SCN_STS 5 && s.elapsed s.scn.edgeAt span then
    (s.putBit Reg.SCN_STS 5 true).raise 387
  else s)

/-! ### Power states (R270) -/

/-- Entry to IDLE begins its second step (R270): with PSR_AUTO = 1 self-refresh is entered as by PSR_ENTER. -/
def State.scnRestBegins (s : State) : State :=
  if s.bit Reg.SCN_STS 0 && s.scn.timing && s.bit Reg.SCN_CFG 8 then
    s.psrEnter.setScn { s.psrEnter.scn with autoPsr := true }
  else s

/-- Self-refresh is being entered for a power state. -/
def State.scnEntering (s : State) : Bool := s.scn.autoPsr && !s.bit Reg.SCN_STS 2 && s.scn.timing

/-- Entry to IDLE ends that step (R270): without self-refresh the link stops. -/
def State.scnPowerDown (s : State) : State :=
  if s.bit Reg.SCN_STS 0 && !s.bit Reg.SCN_STS 2 then
    s.setScn { s.scn with link := false, sending := false, training := false }
  else s

/-- Entry to DOZE (R270, R273): the link and frame timing stop; RUNNING stays 1 while the panel is in self-refresh
alone. -/
def State.scnDoze (s : State) : State :=
  if s.bit Reg.SCN_STS 2 then s.setScn { s.scn with link := false, sending := false, training := false }
  else
    (s.copyEnds.putBit Reg.SCN_STS 0 false).setScn
      { s.scn with timing := false, link := false, sending := false, training := false, stopping := false,
                   psrEnter := 0, extended := false, copying := false, wait := Vector.replicate 8 none }

/-- Exit from DOZE (R270): the device retrains and leaves self-refresh, or trains the link that stopped. -/
def State.scnDozeLeft (s : State) : State :=
  let s := s.setScn { s.scn with autoPsr := false }
  if s.bit Reg.SCN_STS 2 then s.psrExit
  else if s.bit Reg.SCN_CTL 0 && s.scn.hpd then s.scnRetrain 0
  else s

/-- Exit from IDLE (R270): self-refresh entered under PSR_AUTO is left, or a link that stopped is trained again. -/
def State.scnPowerUp (s : State) : State :=
  if s.scn.autoPsr then (s.setScn { s.scn with autoPsr := false }).psrExit
  else if s.bit Reg.SCN_STS 0 && !s.bit Reg.SCN_STS 2 && s.scn.hpd && !s.scn.link && !s.scn.training then
    s.scnRetrain 0
  else s

end Sys2Proof.Machine
end

