-- ==== Sys2Proof/Machine/LanternCore.lean ====
section
/-! DEFINITION. The data path of a Lantern core: registers, memories, the output stage, addressing,
the ALU operations and the order in which writes land (R275-R288). -/

namespace Sys2Proof.Machine

/-! ### Cores and memories -/

/-- A core beyond its entries. -/
def State.core (s : State) (k : Nat) : LntCore := if h : k < 32 then s.lnt[k] else default

/-- Replaces a core. -/
def State.setCore (s : State) (k : Nat) (c : LntCore) : State :=
  if h : k < 32 then { s with lnt := s.lnt.set k c } else s

/-- STATE of a core (R307). -/
def State.lntState (s : State) (k : Nat) : Nat := s.fld (Reg.LNT_STS k) 2 0

/-- Sets STATE of a core. -/
def State.setLntState (s : State) (k x : Nat) : State := s.setFld (Reg.LNT_STS k) 2 0 x

/-- Entry `i` of a register group. -/
def regAt (v : Vector Nat 8) (i : Nat) : Nat := if h : i < 8 then v[i] else 0

/-- A register group with entry `i` replaced. -/
def regPut (v : Vector Nat 8) (i x : Nat) : Vector Nat 8 := if h : i < 8 then v.set i x else v

/-- An accumulator's 56 bits. -/
def LntCore.acc (c : LntCore) (i : Nat) : Nat := if h : i < 4 then c.a[i] else 0

/-- Replaces an accumulator. -/
def LntCore.setAcc (c : LntCore) (i x : Nat) : LntCore :=
  if h : i < 4 then { c with a := c.a.set i (x % 2 ^ 56) } else c

/-- The window of a core (R305, R380). -/
def lntBase (k : Nat) : Nat := 0xF00000000000 + 0x100000 * k

/-- A word of a core's P memory (R305). -/
def State.lntP (s : State) (k a : Nat) : Nat := s.loadN (lntBase k + 8 * (a % 2 ^ 15)) 6

/-- The device address of an X or Y word (R305). -/
def lntDataAddr (k : Nat) (y : Bool) (a : Nat) : Nat :=
  lntBase k + (if y then 0x80000 else 0x40000) + 4 * (a % 2 ^ 16)

/-- A word of a core's X or Y memory. -/
def State.lntLoad (s : State) (k : Nat) (y : Bool) (a : Nat) : Nat := s.loadN (lntDataAddr k y a) 3

/-- Writes a word of a core's X or Y memory. -/
def State.lntStore (s : State) (k : Nat) (y : Bool) (a v : Nat) : State :=
  s.wrBytes (lntDataAddr k y a) (leBytes 3 v)

/-- Writes consecutive words from an address on; what passes 0xFFFF is dropped (R297). -/
def State.lntStores (s : State) (k : Nat) (y : Bool) (a : Nat) : List Nat → State
  | [] => s
  | v :: r => if a < 2 ^ 16 then State.lntStores (s.lntStore k y a v) k y (a + 1) r else s

/-- Consecutive words from an address on. -/
def State.lntLoads (s : State) (k : Nat) (y : Bool) (a : Nat) : Nat → List Nat
  | 0 => []
  | n + 1 => s.lntLoad k y a :: State.lntLoads s k y (a + 1) n

/-! ### Reading and writing registers by control code (R278-R280) -/

/-- The output stage (R280): what passes, and whether the stage limited. (DEDUCED, log entry 33.) -/
def outputStage (sm acc : Nat) : Nat × Bool :=
  let v := toSigned 56 acc
  let num := if sm = 2 then 4 * v else if sm = 1 then v else 2 * v
  -- `num` has LSB 2 ^ -48; -1 and 1 - 2 ^ -23 are its limits.
  if num < -(2 ^ 48) then (0x800000, true)
  else if num > 2 ^ 48 - 2 ^ 25 then (0x7FFFFF, true)
  else (ofSigned 24 (num / 2 ^ 25), false)

/-- SR of a core (R311). -/
def State.lntSr (s : State) (k : Nat) : Nat := s.rdN (Reg.LNT_SR k)

/-- Sign-extends a number of `w` bits to 24 bits. -/
def sext24 (w v : Nat) : Nat := ofSigned 24 (toSigned w v)

/-- What a control code reads (R278). -/
def State.lntRead (s : State) (k code : Nat) : Nat :=
  let c := s.core k
  if code < 8 then regAt c.d code
  else if code < 12 then (outputStage (natBits (s.lntSr k) 10 9) (c.acc (code - 8))).1
  else if code < 16 then c.acc (code - 12) % 2 ^ 24
  else if code < 24 then regAt c.n (code - 16)
  else if code < 32 then regAt c.m (code - 24)
  else if code < 40 then sext24 16 (regAt c.st (code - 32))
  else if code < 48 then
    match code with
    | 40 => s.lntSr k
    | 41 => c.lcnt
    | 42 => c.lend
    | 43 => c.tmr
    | 44 => c.imr
    | 45 => c.ipend
    | 46 => k
    | _ => c.xfers.length
  else if code < 52 then sext24 8 (c.acc (code - 48) / 2 ^ 48)
  else c.acc (code - 52) / 2 ^ 24 % 2 ^ 24

/-- Reading the code passes an accumulator through the output stage. -/
def isStaged (code : Nat) : Bool := decide (8 ≤ code ∧ code < 12)

/-- Reading the code limits in the output stage. -/
def State.lntLimits (s : State) (k code : Nat) : Bool :=
  isStaged code && (outputStage (natBits (s.lntSr k) 10 9) ((s.core k).acc (code - 8))).2

/-- An accumulator with its upper word written, its guard sign-filled and its lower word cleared. -/
def accOfWord (v : Nat) : Nat := ofSigned 56 (toSigned 24 v * 2 ^ 24)

/-- Software's write of SR (R311): the CTL fields LIM, XE, SM and HOLD. (DEDUCED, log entry 33.) -/
def srWrite (old v : Nat) : Nat :=
  let m := 0xF20
  old - (old &&& m) + (v &&& m)

/-- A write to the register of a control code takes place. -/
def State.lntWrite (s : State) (k : Nat) (w : LntWrite) : State :=
  let c := s.core k
  let v := w.val
  let code := w.code
  if code < 8 then s.setCore k { c with d := regPut c.d code (v % 2 ^ 24) }
  else if code < 12 then s.setCore k (c.setAcc (code - 8) (if w.src = .alu then v else accOfWord v))
  else if code < 16 then
    s.setCore k (c.setAcc (code - 12) (c.acc (code - 12) / 2 ^ 24 * 2 ^ 24 + v % 2 ^ 24))
  else if code < 24 then s.setCore k { c with n := regPut c.n (code - 16) (v % 2 ^ 16) }
  else if code < 32 then s.setCore k { c with m := regPut c.m (code - 24) (v % 2 ^ 24) }
  else if code < 40 then s.setCore k { c with st := regPut c.st (code - 32) (v % 2 ^ 16) }
  else if code < 48 then
    match code with
    | 40 => s.wrN (Reg.LNT_SR k) (srWrite (s.lntSr k) v)
    | 41 => s.setCore k { c with lcnt := v % 2 ^ 17 }
    | 42 => s.setCore k { c with lend := v % 2 ^ 15 }
    | 43 => s.setCore k { c with tmr := v % 2 ^ 24 }
    | 44 => s.setCore k { c with imr := v % 16 }
    | 45 => s.setCore k { c with ipend := c.ipend - (c.ipend &&& v) }
    | _ => s
  else if code < 52 then
    s.setCore k (c.setAcc (code - 48) (c.acc (code - 48) % 2 ^ 48 + v % 256 * 2 ^ 48))
  else
    let a := c.acc (code - 52)
    s.setCore k (c.setAcc (code - 52) (a / 2 ^ 48 * 2 ^ 48 + v % 2 ^ 24 * 2 ^ 24 + a % 2 ^ 24))

/-- The register that a control code belongs to: the codes of one accumulator name one register. -/
def lntRegister (code : Nat) : Nat :=
  if (8 ≤ code ∧ code < 16) ∨ (48 ≤ code ∧ code < 56) then 8 + code % 4 else code

/-- Of the writes to one register that land together, the one that stays (R288): the ALU's, else a
Y move's before an X move's; between a load and a write that R288 does not order, a free choice.
(DESIGN CHOICE, log entry 34.) -/
def landingWinner (free : Nat) (ws : List LntWrite) : Option LntWrite :=
  match ws.find? fun w => w.src = .alu with
  | some w => some w
  | none =>
    let load := (ws.find? fun w => w.src = .moveY).or (ws.find? fun w => w.src = .moveX)
    let cands := (ws.filter fun w => w.src = .other) ++ load.toList
    cands[Config.lntTie free % max 1 cands.length]?

/-- Lands a list of writes, at most one to each register (R288). -/
def State.landAll (k : Nat) : (fuel : Nat) → List LntWrite → State → State
  | 0, _, s => s
  | _, [], s => s
  | fuel + 1, w :: r, s =>
    let same := w :: r.filter fun x => lntRegister x.code == lntRegister w.code
    let rest := r.filter fun x => lntRegister x.code != lntRegister w.code
    let (s, win) :=
      if same.length = 1 then (s, some w) else (s.draw.2, landingWinner s.draw.1 same)
    State.landAll k fuel rest (match win with
      | some x => s.lntWrite k x
      | none => s)

/-! ### Addressing (R281) -/

/-- The 16 bits of a number in reverse. -/
def rev16 (n : Nat) : Nat :=
  (List.range 16).foldl (fun r i => 2 * r + n / 2 ^ i % 2) 0

/-- The least power of two, as an exponent, that is at least `l`. -/
def ceilLog2 (l : Nat) : Nat := ((List.range 18).find? fun b => decide (l ≤ 2 ^ b)).getD 17

/-- The step Nk ⊕ s under a modifier. -/
def addrStep (m nk : Nat) (st : Int) : Nat :=
  match natBits m 17 16 with
  | 1 =>
    let l := m % 2 ^ 16 + 1
    let b := nk / 2 ^ ceilLog2 l * 2 ^ ceilLog2 l
    (b + (((nk : Int) - b + st) % (l : Int)).toNat) % 2 ^ 16
  | 2 => rev16 ((rev16 nk + rev16 (ofSigned 16 st)) % 2 ^ 16)
  | _ => ofSigned 16 ((nk : Int) + st)

/-- The update of an address register by its form. -/
def LntCore.addrNext (c : LntCore) (nk upd : Nat) : Nat :=
  let n := regAt c.n nk
  match upd with
  | 0 => n
  | 1 => addrStep (regAt c.m nk) n 1
  | 2 => addrStep (regAt c.m nk) n (-1)
  | _ => addrStep (regAt c.m nk) n (toSigned 16 (regAt c.st nk))

/-- An update whose outcome is undefined: a reserved mode, or Nk outside its modulo buffer. -/
def LntCore.addrBad (c : LntCore) (nk upd : Nat) : Bool :=
  let m := regAt c.m nk
  let l := m % 2 ^ 16 + 1
  upd != 0 && (natBits m 17 16 == 3 ||
    (natBits m 17 16 == 1 && decide (l ≤ regAt c.n nk % 2 ^ ceilLog2 l)))

/-! ### The ALU (R279, R284) -/

/-- What an ALU operation reads: the destination and a second accumulator as 56-bit patterns, the data
sources and their partners as signed fractions, and the shift count. -/
structure AluIn where
  ad : Nat
  ad1 : Nat
  aj : Nat
  s1 : Int
  s2 : Int
  s1p : Int
  s2p : Int
  count : Nat

/-- The destination's value. -/
def AluIn.adv (i : AluIn) : Int := toSigned 56 i.ad

/-- A second accumulator's value. -/
def AluIn.ajv (i : AluIn) : Int := toSigned 56 i.aj

/-- Source 1 in the upper word, with LSB 2 ^ -47. -/
def AluIn.word (i : AluIn) : Int := i.s1 * 2 ^ 24

/-- A product of two data words with LSB 2 ^ -47. -/
def mul47 (a b : Int) : Int := 2 * (a * b)

/-- What an ALU operation answers. -/
structure AluOut where
  /-- The exact result in Ad. -/
  exact : Int
  carry : Bool := false
  /-- A result in Ad+1. -/
  second : Option Int := none
  /-- The result is written: not by CMP and CMPA. -/
  write : Bool := true
  /-- It sets the flags. -/
  flags : Bool := true
  /-- It sets LIM. -/
  lim : Bool := false

/-- An addition to Ad with its carry out of bit 55. -/
def aluAdd (i : AluIn) (b : Int) : AluOut :=
  { exact := i.adv + b, carry := decide (2 ^ 56 ≤ i.ad + ofSigned 56 b) }

/-- A subtraction from Ad with its borrow. -/
def aluSub (i : AluIn) (b : Int) : AluOut :=
  { exact := i.adv - b, carry := decide (i.ad < ofSigned 56 b) }

/-- A result given as a 56-bit pattern. -/
def aluBits (n : Nat) : AluOut := { exact := toSigned 56 n }

/-- A logical operation on the upper word of Ad. -/
def aluUpper (i : AluIn) (f : Nat → Nat) : AluOut :=
  aluBits (i.ad / 2 ^ 48 * 2 ^ 48 + f (i.ad / 2 ^ 24 % 2 ^ 24) % 2 ^ 24 * 2 ^ 24 + i.ad % 2 ^ 24)

/-- The number of bits below bit 55 that equal it (R284). -/
def signCount (n : Nat) : Nat := ((List.range 55).filter fun b => n.testBit b == n.testBit 55).length

/-- The flags C, V, Z, N and GU of a result in SR [4:0] (R284, R311). (DEDUCED, log entry 33.) -/
def aluFlags (o : AluOut) : Nat :=
  let r := ofSigned 56 o.exact
  let g := r / 2 ^ 47
  b2n o.carry + b2n (toSigned 56 r != o.exact) * 2 + b2n (r == 0) * 4 + r / 2 ^ 55 * 8 +
    b2n (g != 0 && g != 511) * 16

/-! ### Parallel words (R282, R283) -/

/-- KIND of a move field. -/
def mvKind (f : Nat) : Nat := natBits f 15 14
def mvNk (f : Nat) : Nat := natBits f 13 11
def mvUpd (f : Nat) : Nat := natBits f 10 9
def mvReg (f : Nat) : Nat := natBits f 8 5
def mvSrc (f : Nat) : Nat := natBits f 12 9

/-- The move goes to or from memory. -/
def mvMem (f : Nat) : Bool := mvKind f == 1 || mvKind f == 2

/-- The control code that the move reads, if any. -/
def mvReads (f : Nat) : Option Nat :=
  match mvKind f with
  | 2 => some (mvReg f)
  | 3 => some (mvSrc f)
  | _ => none

/-- Words of X or Y that an outstanding XFER is still to write (R303). -/
def LntXfer.words (x : LntXfer) : Nat :=
  match x.pack with
  | 0 => (x.count + 2) / 3
  | 3 => (x.count + 7) / 8
  | _ => (x.count + 1) / 2

/-- An outstanding XFER is still to store into this word. -/
def LntCore.xferHits (c : LntCore) (y : Bool) (a : Nat) : Bool :=
  c.xfers.any fun x =>
    !x.out && (x.pack == 3 || x.inY == y) && decide (x.loc ≤ a ∧ a < x.loc + x.words)

/-- The rule that leaves a move field's outcome undefined, if any. -/
def State.moveIssue (s : State) (k : Nat) (y : Bool) (f : Nat) : Option Nat :=
  let c := s.core k
  if f % 32 ≠ 0 ∨ (mvKind f = 3 ∧ natBits f 13 13 ≠ 0) then some 283
  else if mvMem f ∧ c.addrBad (mvNk f) (mvUpd f) then some 281
  else if mvMem f ∧ c.xferHits y (regAt c.n (mvNk f)) then some 303
  else match mvReads f with
    | some r => if isStaged r ∧ natBits (s.lntSr k) 10 9 = 3 then some 280 else none
    | none => none

/-- The writes of a move that land with its own instruction: address updates and copies. -/
def State.moveNow (s : State) (k : Nat) (src : LntSrc) (f : Nat) : List LntWrite :=
  let c := s.core k
  if mvMem f ∧ mvUpd f ≠ 0 then [⟨16 + mvNk f, c.addrNext (mvNk f) (mvUpd f), .other⟩]
  else if mvKind f = 3 then [⟨mvReg f, s.lntRead k (mvSrc f), src⟩]
  else []

/-- The write of a load, which lands with the next instruction (R287). -/
def State.moveLoad (s : State) (k : Nat) (y : Bool) (f : Nat) : List LntWrite :=
  if mvKind f = 1 then
    [⟨mvReg f, s.lntLoad k y (regAt (s.core k).n (mvNk f)), if y then .moveY else .moveX⟩]
  else []

/-- The store of a move, its word read from the registers of `r`. -/
def State.moveStore (s r : State) (k : Nat) (y : Bool) (f : Nat) : State :=
  if mvKind f = 2 then s.lntStore k y (regAt (r.core k).n (mvNk f)) (r.lntRead k (mvReg f)) else s

/-- The move limits in the output stage. -/
def State.moveLimits (s : State) (k f : Nat) : Bool :=
  match mvReads f with
  | some r => s.lntLimits k r
  | none => false

/-- What the ALU of a parallel word reads. -/
def LntCore.aluIn (c : LntCore) (w : Nat) : AluIn :=
  let d := natBits w 39 38
  let c1 := natBits w 37 35
  let c2 := natBits w 34 32
  let r := fun i => toSigned 24 (regAt c.d i)
  { ad := c.acc d, ad1 := c.acc ((d + 1) % 4), aj := c.acc (natBits w 36 35), s1 := r c1,
    s2 := r c2, s1p := r (c1 ^^^ 1), s2p := r (c2 ^^^ 1), count := natBits w 37 32 }

/-- The ALU writes of a parallel word. (DEDUCED, log entry 33.) -/
def aluWrites (d : Nat) (o : AluOut) : List LntWrite :=
  (if o.write then [⟨8 + d, ofSigned 56 o.exact, .alu⟩] else []) ++
    (match o.second with
      | some x => [⟨8 + (d + 1) % 4, ofSigned 56 x, .alu⟩]
      | none => [])

end Sys2Proof.Machine
end

