-- ==== Sys2Proof/Machine/Lantern.lean ====
section
/-! DEFINITION. Lantern: control flow, interrupts, tasks and transfers, and the commands of the cores
(R284-R312). -/

namespace Sys2Proof.Machine

/-! ### Pools and tasks (R296-R302) -/

/-- The tasks a pool holds. -/
def State.held (s : State) (p : Nat) : List LntTask := if h : p < 8 then s.pools[p] else []

/-- Replaces the tasks a pool holds, and LNT_POOL_HELD: dead ones are held no longer (R302). -/
def State.setHeld (s : State) (p : Nat) (ts : List LntTask) : State :=
  let s := if h : p < 8 then { s with pools := s.pools.set p ts } else s
  s.wrN (Reg.LNT_POOL_HELD p) (ts.filter fun t => !t.dead).length

/-- The pools that name core `k`. -/
def State.poolsOf (s : State) (k : Nat) : List Nat :=
  (List.range 8).filter fun p => s.bit (Reg.LNT_POOL_MEMBERS p) k

/-- The pool of core `k`. -/
def State.poolOf (s : State) (k : Nat) : Option Nat := (s.poolsOf k).head?

/-- The pool is enabled. -/
def State.poolOn (s : State) (p : Nat) : Bool := s.bit (Reg.LNT_POOL_CTL p) 0

/-- The task of its pool that core `k` works on. -/
def State.taskOf (s : State) (k : Nat) : Option LntTask :=
  match s.poolOf k with
  | some p => (s.held p).find? fun t => t.core == some k && !t.dead
  | none => none

/-- Changes the task that core `k` works on. -/
def State.mapTask (s : State) (k : Nat) (f : LntTask → LntTask) : State :=
  match s.poolOf k with
  | some p => s.setHeld p ((s.held p).map fun t => if t.core = some k ∧ !t.dead then f t else t)
  | none => s

/-- Returns one reservation of a queue (R302). -/
def State.unreserve (s : State) (q : Nat) : State :=
  match s.queue q with
  | some x => s.setQueue q { x with reserved := x.reserved - 1 }
  | none => s

/-- HEAD of a pool's queue advances past the task that ended first, which becomes the latest one done
(R412, R309). -/
def State.retireOne (s : State) (p : Nat) (t : LntTask) (rest : List LntTask) : State :=
  let s := (s.setHeld p rest).wrN (Reg.LNT_POOL_DONE_SEQ p) t.seq
  let q := s.fld (Reg.LNT_POOL_CFG p) 15 0
  match s.queue q with
  | some x => s.setHead q x ((x.head + 1) % 2 ^ 32)
  | none => s

/-- Dead tasks before which no task is held any more leave the pool (R302, R412). (DEDUCED, log entry 35.) -/
def State.retireDead (p : Nat) : (fuel : Nat) → State → State
  | 0, s => s
  | fuel + 1, s =>
    match s.held p with
    | t :: rest => if t.dead then State.retireDead p fuel (s.retireOne p t rest) else s
    | [] => s

/-- A fault of the task that core `k` works on (R302). -/
def State.taskFault (s : State) (k : Nat) : State :=
  match s.poolOf k, s.taskOf k with
  | some p, some t =>
    let s := t.staged.foldl (fun s e => s.unreserve e.1) s
    if t.retry then
      let s := (s.enqueue (s.fld (Reg.LNT_POOL_CFG p) 31 16) t.kind t.item
        (Stamp.word { s.now with est := true })).1
      let s := (s.bumpSat (Reg.LNT_POOL_DEAD p) 32).wrN (Reg.LNT_POOL_DEAD_SEQ p) t.seq
      State.retireDead p 64 (s.mapTask k fun t => { t with dead := true, staged := [] })
    else s.mapTask k fun t => { t with retry := true, core := none, staged := [] }
  | _, _ => s

/-! ### Halting, waiting and cycles -/

/-- Halts a core (R301, R302): causes 1 DONE to 7 PARITY of R310. -/
def State.lntHalt (s : State) (k cause : Nat) : State :=
  let s := (s.setLntState k 6).setFld (Reg.LNT_STS k) 6 3 cause
  let s := s.setCore k { s.core k with zero := false }
  let s := s.wr (Reg.LNT_FAULT_TS k) s.now.word
  let s := if cause = 1 then s else s.raise (416 + k)
  s.taskFault k

/-- Turns a core off. -/
def State.lntOff (s : State) (k : Nat) : State :=
  (s.setCore k { s.core k with zero := false, waiting := .none }).setLntState k 0

/-- R294 does not forbid acceptance at this boundary: it lies in no branch and in no repeat. -/
def LntCore.boundary (c : LntCore) : Bool := c.slots == 0 && c.rep == 0

/-- SR.HOLD. (DEDUCED, log entry 35.) -/
def State.lntHold (s : State) (k : Nat) : Bool := s.bit (Reg.LNT_SR k) 11

/-- The lowest vector that is pending and enabled. -/
def LntCore.vector (c : LntCore) : Option Nat := (lowestBit (c.ipend &&& c.imr) 4 0).map (· + 1)

/-- An interrupt is to be accepted at this boundary (R294, R304). -/
def State.lntAccepts (s : State) (k : Nat) : Bool :=
  let c := s.core k
  (s.lntState k == 3 || (s.lntState k == 4 && c.waiting == .sync)) && !s.lntHold k && c.boundary &&
    c.vector.isSome

/-- Posts vector `v`, which may end a WAIT (R293, R295). -/
def State.lntPost (s : State) (k v : Nat) : State :=
  let c := s.core k
  let c := { c with ipend := c.ipend ||| 2 ^ (v - 1) }
  if s.lntState k = 4 ∧ c.waiting = .wait ∧ c.vector.isSome then
    (s.setCore k { c with waiting := .none }).setLntState k 3
  else s.setCore k c

/-- `n` DSP cycles pass for a core (R278, R297, R301, R309). TMR stays at 1 until its expiry is commanded. -/
def State.lntCycles (s : State) (k n : Nat) : State :=
  let c := s.core k
  let st := s.lntState k
  let s := s.setCore k { c with
    tmr := if c.tmr = 0 then 0 else max 1 (c.tmr - n),
    spent := if 2 ≤ st ∧ st ≤ 4 then c.spent + n else c.spent }
  if st = 3 ∨ st = 4 ∨ st = 5 then s.bump (Reg.LNT_BUSY k) 64 n else s

/-! ### Control flow (R287-R292) -/

/-- PC. -/
def State.lntPc (s : State) (k : Nat) : Nat := s.rdN (Reg.LNT_PC k)

/-- Sets PC. -/
def State.setLntPc (s : State) (k a : Nat) : State := s.wrN (Reg.LNT_PC k) (a % 2 ^ 15)

/-- SR.LDEP. -/
def State.ldep (s : State) (k : Nat) : Nat := s.fld (Reg.LNT_SR k) 14 12

/-- Pops a return address (R290); none of an empty stack, and a free value where another kind of entry lies on top.
(DEDUCED, log entry 32.) -/
def State.lntPopAddr (s : State) (k : Nat) : Option (Nat × State) :=
  let c := s.core k
  match c.stack with
  | [] => none
  | .addr a :: r => some (a, s.setCore k { c with stack := r })
  | _ :: r => some ((Config.lntPopped s.draw.1 0).toNat, s.draw.2.setCore k { c with stack := r })

/-- Pops SR (R290), in the same way. (DEDUCED, log entry 32.) -/
def State.lntPopSr (s : State) (k : Nat) : Option (Nat × State) :=
  let c := s.core k
  match c.stack with
  | [] => none
  | .sr v :: r => some (v, s.setCore k { c with stack := r })
  | _ :: r => some ((Config.lntPopped s.draw.1 0).toNat, s.draw.2.setCore k { c with stack := r })

/-- Pops the enclosing loop and goes on after the loop's last instruction (R291); its registers take free values
where another kind of entry lies on top. (DEDUCED, log entry 32.) -/
def State.lntPopLoop (s : State) (k : Nat) : State :=
  let c := s.core k
  let goOn (s : State) : State :=
    (s.setFld (Reg.LNT_SR k) 14 12 (s.ldep k - 1)).setLntPc k (s.lntPc k + 1)
  match c.stack with
  | [] => s.lntHalt k 4
  | .loop lend lcnt start :: r =>
    goOn (s.setCore k { c with stack := r, lend := lend, lcnt := lcnt, lstart := start })
  | _ :: r =>
    let free := fun i => (Config.lntPopped s.draw.1 i).toNat
    goOn (s.draw.2.setCore k { c with stack := r, lend := free 0, lcnt := free 1, lstart := free 2 })

/-- The next address in program order, with the loop's wrap-around (R291). -/
def State.lntSeq (s : State) (k : Nat) : State :=
  let c := s.core k
  if 0 < s.ldep k ∧ s.lntPc k = c.lend then
    if c.lcnt = 1 then s.lntPopLoop k
    else (s.setCore k { c with lcnt := c.lcnt - 1 }).setLntPc k c.lstart
  else s.setLntPc k (s.lntPc k + 1)

/-- PC after an instruction: delay slots (R289), repeats (R292), then program order. -/
def State.lntAdvance (s : State) (k : Nat) : State :=
  let c := s.core k
  if 1 < c.slots then (s.setCore k { c with slots := c.slots - 1 }).setLntPc k (s.lntPc k + 1)
  else if c.slots = 1 then
    let s := s.setCore k { c with slots := 0, target := none }
    match c.target with
    | none => s.setLntPc k (s.lntPc k + 1)
    | some (a, none) => s.setLntPc k a
    | some (a, some sr) => (s.setLntPc k a).wrN (Reg.LNT_SR k) sr
  else if 1 < c.rep then s.setCore k { c with rep := c.rep - 1 }
  else if c.rep = 1 then ((s.setCore k { c with rep := 0 }).putBit (Reg.LNT_SR k) 15 false).lntSeq k
  else s.lntSeq k

/-- A core whose ENABLE was written 0 and that works on no task goes OFF at a boundary (R307).
(DEDUCED, log entry 35.) -/
def State.lntBoundary (s : State) (k : Nat) : State :=
  let c := s.core k
  if c.zero ∧ c.boundary ∧ (s.taskOf k).isNone ∧ s.lntState k ≠ 6 then s.lntOff k else s

/-- The end of an instruction's cycle: what was on its way and its own writes land, loads of its own
set out, then flags and LIM (R284, R287, R288). -/
def State.lntLand (s : State) (k : Nat) (now next : List LntWrite := []) (flags : Option Nat := none)
    (lim : Bool := false) : State :=
  let s := s.lntCycles k 1
  let c := s.core k
  let ws := c.late ++ now
  let s := State.landAll k ws.length ws (s.setCore k { c with late := next })
  let s := match flags with
    | some f => s.setFld (Reg.LNT_SR k) 4 0 f
    | none => s
  if lim then s.putBit (Reg.LNT_SR k) 5 true else s

/-- The condition CC holds (R286). -/
def State.lntCond (s : State) (k cc : Nat) : Bool :=
  let sr := s.lntSr k
  let v := sr.testBit 1
  let z := sr.testBit 2
  let n := sr.testBit 3
  let gu := sr.testBit 4
  match cc with
  | 0 => true
  | 1 => z
  | 2 => !z
  | 3 => n
  | 4 => !n
  | 5 => v
  | 6 => !v
  | 7 => gu
  | 8 => !gu
  | 9 => sr.testBit 5
  | 10 => !n && !z
  | 11 => n || z
  | 12 => sr.testBit 6
  | 13 => sr.testBit 7
  | _ => !(s.core k).xfers.isEmpty

/-- Sets the delay slots of a branch and its target (R289). -/
def State.lntBranch (s : State) (k : Nat) (t : Option (Nat × Option Nat)) : State :=
  s.setCore k { s.core k with slots := 2, target := t }

/-! ### Instruction words (R282-R285) -/

/-- CLASS of a word. -/
def lwClass (w : Nat) : Nat := natBits w 47 44

/-- Bits that the format of a control word leaves unused (R285). -/
def ctlUnused (w : Nat) : Nat :=
  match lwClass w with
  | 8 => natBits w 35 15
  | 9 => natBits w 43 40 + natBits w 19 15
  | 10 => natBits w 43 40 + natBits w 19 0
  | 11 => natBits w 43 38 + natBits w 31 24
  | 12 => natBits w 43 38 + natBits w 31 30 + natBits w 23 0
  | 13 => natBits w 43 38 + natBits w 29 16
  | _ =>
    match natBits w 43 40 with
    | 2 => natBits w 33 32 + natBits w 15 0
    | 3 => natBits w 36 0
    | 4 => natBits w 39 24
    | 6 => natBits w 39 5
    | _ => natBits w 39 0

/-- The control code that a control word reads through a register move, if any. -/
def ctlReads (w : Nat) : Option Nat :=
  match lwClass w with
  | 12 => some (natBits w 29 24)
  | 13 => if natBits w 31 31 = 1 then some (natBits w 37 32) else none
  | _ => none

/-- The control code that a control word writes, with the value. (DEDUCED, log entry 33.) -/
def State.ctlWrites (s : State) (k w : Nat) : Option (Nat × Nat) :=
  match lwClass w with
  | 11 => some (natBits w 37 32, natBits w 23 0)
  | 12 => some (natBits w 37 32, s.lntRead k (natBits w 29 24))
  | 13 =>
    if natBits w 31 31 = 0 then
      some (natBits w 37 32, s.lntLoad k (natBits w 30 30 == 1) (natBits w 15 0))
    else none
  | _ => none

/-- The descriptor of an XFER word (R303) and the rest of its words 3 and 4. -/
def State.xferDesc (s : State) (k w : Nat) : LntXfer × Nat :=
  let a := regAt (s.core k).n (natBits w 39 37)
  let ld := fun i => s.lntLoad k false (a + i)
  ({ addr := ld 0 + ld 1 * 2 ^ 24, count := ld 2, loc := natBits (ld 3) 15 0,
     inY := natBits (ld 3) 16 16 == 1, out := natBits (ld 3) 17 17 == 1,
     pack := natBits (ld 3) 19 18 }, natBits (ld 3) 23 20 + ld 4)

/-- An XFER whose outcome R303 leaves undefined. -/
def State.xferBad (s : State) (k w : Nat) : Bool :=
  let (x, rest) := s.xferDesc k w
  rest != 0 || x.count == 0 || decide (2 ^ 16 < x.loc + x.words) ||
    !(if x.out then s.softWriteOk x.addr x.count else s.memOk x.addr x.count)

/-- The rule that leaves a control word's outcome undefined, if any. -/
def State.ctlIssue (s : State) (k w : Nat) : Option Nat :=
  let c := s.core k
  let cl := lwClass w
  let sub := natBits w 39 36
  let isFlow := cl == 8 || cl == 9 || cl == 10
  if cl = 15 ∨ ctlUnused w ≠ 0 ∨ (cl = 8 ∧ 4 < sub) ∨ (cl = 14 ∧ 6 < natBits w 43 40) then some 285
  else if cl = 8 ∧ natBits w 43 40 = 15 then some 286
  else if 0 < c.rep then some 292
  else if isFlow ∧ 0 < c.slots then some 289
  else if cl = 9 ∧ natBits w 14 0 ≤ s.lntPc k + 1 then some 291
  else if (cl = 11 ∨ cl = 12 ∨ cl = 13) ∧ 56 ≤ natBits w 37 32 then some 278
  else if cl = 12 ∧ 56 ≤ natBits w 29 24 then some 278
  else if cl = 13 ∧ c.xferHits (natBits w 30 30 == 1) (natBits w 15 0) then some 303
  else if (match ctlReads w with
      | some r => isStaged r && natBits (s.lntSr k) 10 9 == 3
      | none => false) then some 280
  else if (match s.ctlWrites k w with
      | some (41, v) => v % 2 ^ 17 == 0
      | _ => false) then some 278
  else if cl = 14 ∧ natBits w 43 40 = 2 ∧
      (regAt c.n (natBits w 36 34) % 2 ^ 13 = 0 ∨ 5461 < regAt c.n (natBits w 36 34) % 2 ^ 13) then
    some 298
  else if cl = 14 ∧ natBits w 43 40 = 3 ∧ c.xfers.length < 4 ∧ s.xferBad k w then some 303
  else none

/-- The rule that leaves a parallel word's outcome undefined, if any. -/
def State.parIssue (s : State) (k w : Nat) : Option Nat :=
  let op := natBits w 46 40
  let fx := natBits w 31 16
  let fy := natBits w 15 0
  if 0x20 < op ∨ (0x15 ≤ op ∧ op ≤ 0x17 ∧ 55 < natBits w 37 32) ∨
      (0x0C ≤ op ∧ op ≤ 0x0F ∧ natBits w 38 38 = 1) then some 284
  else if mvMem fx ∧ mvMem fy ∧ mvUpd fx ≠ 0 ∧ mvUpd fy ≠ 0 ∧ mvNk fx = mvNk fy then some 281
  else match s.moveIssue k false fx with
    | some r => some r
    | none => s.moveIssue k true fy

/-- The rule that leaves the outcome of the word at PC undefined, if any. -/
def State.lntIssue (s : State) (k w : Nat) : Option Nat :=
  let c := s.core k
  if 0 < c.slots ∧ 0 < s.ldep k ∧ s.lntPc k = c.lend then some 291
  else if w < 2 ^ 47 then s.parIssue k w else s.ctlIssue k w

/-- The memory words that an instruction reads (R276): its own, the loads of its moves, the word of a direct move,
the item of an ENQ and the descriptor of an XFER. -/
def State.lntWords (s : State) (k w : Nat) : Nat :=
  if w < 2 ^ 47 then 1 + b2n (mvKind (natBits w 31 16) == 1) + b2n (mvKind (natBits w 15 0) == 1)
  else if lwClass w = 13 then 2
  else if lwClass w = 14 ∧ natBits w 43 40 = 2 then 1 + regAt (s.core k).n (natBits w 36 34) % 2 ^ 13
  else if lwClass w = 14 ∧ natBits w 43 40 = 3 then 6
  else 1

/-- Words with a single-bit error are corrected and counted (R276, R399). -/
def State.lntCorrect (s : State) (k n : Nat) : State :=
  if n = 0 then s else (s.bumpSat (Reg.LNT_MEM_CORR k) 32 n).sramCorrected 2 n

/-- A double-bit error in the core's share of the Lantern partition halts it (R276, R397, R400). -/
def State.lntDouble (s : State) (k : Nat) : State :=
  (s.draw.2.sramDouble 2 (k * 589824 + (Config.lanternOffset s.draw.1).toNat % 589824)).lntHalt k 3

/-- The core executes its next instruction (R275, R276, R294, R308): it is in RUN, its clock runs and
no interrupt is to be accepted first. A double-bit error halts the core before the word acts. Nothing happens when the word at PC is
not the command's. -/
def State.lntRun (s : State) (k : Nat) (ecc : LntEcc) (isIt : Nat → Bool) (act : Nat → State → State) :
    Host.Outcome State Fault Refusal :=
  if s.lntState k = 3 ∧ !s.idleOrLower ∧ !s.lntAccepts k then
    let w := s.lntP k (s.lntPc k)
    if ecc.double then
      .next (s.lntDouble k)
    else match s.lntIssue k w with
      | some r => .fault (.undefinedOutcome r)
      | none =>
        if isIt w then
          .next (act w (s.lntCorrect k (min ecc.corrected (s.lntWords k w))))
        else .next s
  else .next s

/-- The effect of a parallel word with its ALU operation (R282-R288). (DESIGN CHOICE, log entry 58.) -/
def State.parallelAct (s : State) (k w : Nat) (f : AluIn → AluOut) : State :=
  let o := f ((s.core k).aluIn w)
  let fx := natBits w 31 16
  let fy := natBits w 15 0
  let now := s.moveNow k .moveX fx ++ s.moveNow k .moveY fy ++ aluWrites (natBits w 39 38) o
  let next := s.moveLoad k false fx ++ s.moveLoad k true fy
  let lim := o.lim || s.moveLimits k fx || s.moveLimits k fy
  let t := (s.moveStore s k false fx).moveStore s k true fy
  ((t.lntLand k now next (if o.flags then some (aluFlags o) else none) lim).lntAdvance k).lntBoundary k

/-- The command of one ALU opcode. -/
def State.parallel (s : State) (k : Nat) (ecc : LntEcc) (op : Nat) (f : AluIn → AluOut) :
    Host.Outcome State Fault Refusal :=
  s.lntRun k ecc (fun w => decide (w < 2 ^ 47) && natBits w 46 40 == op)
    (fun w s => s.parallelAct k w f)

/-- A control word of a CLASS. -/
def isClass (cl : Nat) (w : Nat) : Bool := lwClass w == cl

/-- A BRANCH word of a KIND. -/
def isBranch (kind : Nat) (w : Nat) : Bool := lwClass w == 8 && natBits w 39 36 == kind

/-- A SYS word of an OP. -/
def isSys (op : Nat) (w : Nat) : Bool := lwClass w == 14 && natBits w 43 40 == op

/-- COUNT of a LOOP or REPEAT word (R285). -/
def State.lntCount (s : State) (k w : Nat) : Nat :=
  if natBits w 23 23 = 1 then
    let n := regAt (s.core k).n (natBits w 22 20) % 2 ^ 16
    if n = 0 then 65536 else n
  else natBits w 39 24 + 1

/-- The end of an instruction that goes on in program order. -/
def State.lntDone (s : State) (k : Nat) : State := (s.lntAdvance k).lntBoundary k

/-- A control word that changes registers by control code (R285, R287): codes 16 to 47 and loads land
with the next instruction. (DEDUCED, log entry 33.) -/
def State.ctlMove (s : State) (k w : Nat) : State :=
  let lim := match ctlReads w with
    | some r => s.lntLimits k r
    | none => false
  let s0 := s
  let s := if lwClass w = 13 ∧ natBits w 31 31 = 1 then
      s.lntStore k (natBits w 30 30 == 1) (natBits w 15 0) (s0.lntRead k (natBits w 37 32))
    else s
  match s0.ctlWrites k w with
  | some (code, v) =>
    if lwClass w = 13 then
      (s.lntLand k [] [⟨code, v, if natBits w 30 30 = 1 then .moveY else .moveX⟩] none lim).lntDone k
    else if 16 ≤ code ∧ code < 48 then (s.lntLand k [] [⟨code, v, .other⟩] none lim).lntDone k
    else (s.lntLand k [⟨code, v, .other⟩] [] none lim).lntDone k
  | none => (s.lntLand k [] [] none lim).lntDone k

/-! ### ENQ, XFER and the inbox (R297-R303) -/

/-- Groups of `n` bytes. -/
def chunksOf (n : Nat) : (fuel : Nat) → List (BitVec 8) → List (List (BitVec 8))
  | 0, _ => []
  | _, [] => []
  | fuel + 1, b :: r => (b :: r.take (n - 1)) :: chunksOf n fuel (r.drop (n - 1))

/-- The bytes of one word, or of one X and one Y word, under PACK (R297). -/
def packUnit (pack : Nat) : Nat := if pack = 0 then 3 else if pack = 3 then 8 else 2

/-- Fills the last unit of a copy (R297 gives no value for what is missing). -/
def padTo (u free : Nat) (bs : List (BitVec 8)) : List (BitVec 8) :=
  bs ++ (List.range ((u - bs.length % u) % u)).map (Config.lntPad free)

/-- The X words that bytes give under PACK. (DESIGN CHOICE, log entry 34.) -/
def packX (pack : Nat) (bs : List (BitVec 8)) : List Nat :=
  (chunksOf (packUnit pack) bs.length bs).map fun c =>
    match pack with
    | 2 => ofLe c * 256
    | 3 => ofLe (c.take 3)
    | _ => ofLe c

/-- The Y words that bytes give under PACK 3. -/
def packY (bs : List (BitVec 8)) : List Nat :=
  (chunksOf 8 bs.length bs).map fun c => ofLe ((c.drop 3).take 3)

/-- The bytes that words give on their way out of a core. -/
def unpack (pack : Nat) (xs ys : List Nat) : List (BitVec 8) :=
  match pack with
  | 0 => xs.flatMap (leBytes 3)
  | 1 => xs.flatMap (leBytes 2)
  | 2 => xs.flatMap fun x => leBytes 2 (x / 256)
  | _ => (xs.zip ys).flatMap fun e => leBytes 3 e.1 ++ leBytes 3 e.2 ++ leBytes 2 0

/-- The item an ENQ word names: 3w bytes (R298). (DEDUCED, log entry 35.) -/
def State.enqItem (s : State) (k w : Nat) : List (BitVec 8) :=
  let c := s.core k
  (s.lntLoads k false (regAt c.n (natBits w 39 37))
    (regAt c.n (natBits w 36 34) % 2 ^ 13)).flatMap (leBytes 3)

/-- The bytes a task has staged. -/
def LntTask.stagedBytes (t : LntTask) : Nat := (t.staged.map fun e => e.2.length).sum

/-- ENQ (R298, R299): the answer says whether it took the item. A core in no pool enqueues at once; its queue does
not count a refused ENQ (R411). -/
def State.enq (s : State) (k q : Nat) (item : List (BitVec 8)) : State × Bool :=
  match s.poolOf k with
  | none =>
    if (s.queue q).any fun x => !x.prodSw && !x.refuses item.length then
      s.enqueue q 7 item (Stamp.word { s.now with est := true })
    else (s, false)
  | some _ =>
    match s.queue q, s.taskOf k with
    | some x, some t =>
      if x.prodSw || x.refuses item.length || decide (64 ≤ t.staged.length) ||
          decide (16384 < t.stagedBytes + item.length) then (s, false)
      else
        ((s.setQueue q { x with reserved := x.reserved + 1 }).mapTask k
          fun t => { t with staged := t.staged ++ [(q, item)] }, true)
    | _, _ => (s, false)

/-- Moves the data of an XFER: its first `n` bytes, in whole words where it stops short (R303).
(DEDUCED, log entry 35.) -/
def State.xferMove (s : State) (k : Nat) (x : LntXfer) (n : Nat) : State :=
  if x.out then
    let xs := s.lntLoads k (x.inY && x.pack != 3) x.loc x.words
    let ys := s.lntLoads k true x.loc x.words
    s.wrBytes x.addr ((unpack x.pack xs ys).take (min n x.count))
  else
    let u := packUnit x.pack
    let (s, free) := (s.draw.2, s.draw.1)
    let bs := padTo u free (s.rdBytes x.addr (if n < x.count then n / u * u else x.count))
    let s := s.lntStores k (x.inY && x.pack != 3) x.loc (packX x.pack bs)
    if x.pack = 3 then s.lntStores k true x.loc (packY bs) else s

/-- The words of the inbox header (R297). -/
def inboxHeader (t : LntTask) (taskq : Nat) (trunc : Bool) (free : Nat) : List Nat :=
  let ts := t.ts.toNat
  let first := padTo 32 free (t.item.take 32)
  [t.seq % 2 ^ 24, t.seq / 2 ^ 24 + b2n t.retry * 256 + b2n trunc * 512, taskq, t.item.length,
    natBits ts 23 0, natBits ts 47 24, natBits ts 63 48, 0] ++ packX 1 (first.take 32)

/-- The pool writes the inbox (R297). -/
def State.writeInbox (s : State) (k p : Nat) (t : LntTask) : State :=
  let pack := s.fld (Reg.LNT_POOL_CFG p) 33 32
  let base := s.fld (Reg.LNT_POOL_CFG p) 49 34
  let (s, free) := (s.draw.2, s.draw.1)
  let bs := padTo (packUnit pack) (free + 1) (t.item.drop 32)
  let body := packX pack bs
  let trunc := decide (2 ^ 16 < base + 24 + body.length)
  let head := inboxHeader t (s.fld (Reg.LNT_POOL_CFG p) 15 0) trunc free
  let s := s.lntStores k false base (head ++ body)
  let s := if pack = 3 then s.lntStores k true (base + 24) (packY bs) else s
  s.draw.2

/-- DSP cycles from the dequeue to the last word of the inbox: 64, and one for each X word, with its Y word
(R297). -/
def State.inboxCycles (s : State) (p : Nat) (t : LntTask) : Nat :=
  let u := packUnit (s.fld (Reg.LNT_POOL_CFG p) 33 32)
  64 + min (2 ^ 16 - s.fld (Reg.LNT_POOL_CFG p) 49 34) (24 + (t.item.length - 32 + u - 1) / u)

/-- A core starts at P 0x0000 with SR of R297 and an empty stack. -/
def State.lntStart (s : State) (k : Nat) : State :=
  let c := s.core k
  let s := s.setCore k { c with
    stack := [], late := [], slots := 0, target := none, rep := 0, waiting := .none, spent := 0 }
  ((s.setLntPc k 0).wrN (Reg.LNT_SR k) 0x800).setLntState k 3

/-- A core becomes IDLE, or goes OFF where ENABLE has been written 0 (R299, R307). -/
def State.lntIdle (s : State) (k : Nat) : State :=
  if (s.core k).zero then s.lntOff k else s.setLntState k 1

/-- The lowest-numbered idle member of a pool (R296). -/
def State.idleMember (s : State) (p : Nat) : Option Nat :=
  (List.range 32).find? fun k => s.bit (Reg.LNT_POOL_MEMBERS p) k && s.lntState k == 1

/-- A core takes a task: LOADING counts from here. -/
def State.lntTake (s : State) (k seq : Nat) : State :=
  ((s.setCore k { s.core k with spent := 0 }).setLntState k 2).wrN (Reg.LNT_TASK_SEQ k) seq

/-- The next item of a pool's queue as a task, if one waits (R296, R412). (DEDUCED, log entry 35.) -/
def State.nextItem (s : State) (p : Nat) : Option LntTask :=
  match s.queue (s.fld (Reg.LNT_POOL_CFG p) 15 0) with
  | some x =>
    let n := (s.held p).length
    let pos := (x.head + n) % 2 ^ 32
    let tag := s.loadN (x.tagAddr pos) 8
    if x.consPool ∧ n < x.occupancy ∧ s.queueServed x = true then
      some { seq := s.rdN (Reg.LNT_POOL_NEXT_SEQ p), kind := natBits tag 27 24,
             item := s.rdBytes (x.entryAddr pos) (min (natBits tag 23 0) x.entrySize),
             ts := s.now.word, retry := false, core := none, dead := false, journal := false,
             staged := [] }
    else none
  | none => none

/-- The first held task that waits for a member (R302, R308). -/
def State.retryTask (s : State) (p : Nat) : Option LntTask :=
  (s.held p).find? fun t => t.core.isNone && !t.dead && (!t.journal || s.poolOn p)

/-- A pool gives a core a task (R296, R302). -/
def State.dispatch (s : State) (p k : Nat) : State :=
  match s.retryTask p with
  | some t =>
    let s := s.setHeld p ((s.held p).map fun u =>
      if u.seq = t.seq then { u with core := some k, journal := false } else u)
    (s.bumpSat (Reg.LNT_POOL_RETRIES p) 32).lntTake k t.seq
  | none =>
    if s.poolOn p then
      match s.nextItem p with
      | some t =>
        let s := s.setHeld p (s.held p ++ [{ t with core := some k }])
        (s.bump (Reg.LNT_POOL_NEXT_SEQ p) 32).lntTake k t.seq
      | none => s
    else s

/-- A task commits (R299): its staged items enter their queues in reserved entries. -/
def State.commitTask (s : State) (k p : Nat) (t : LntTask) (rest : List LntTask) : State :=
  let s := t.staged.foldl (fun s e =>
    ((s.unreserve e.1).enqueue e.1 7 e.2 (Stamp.word { s.now with est := true })).1) s
  let s := State.retireDead p 64 (s.retireOne p t rest)
  (s.bump (Reg.LNT_TASKS k) 64).lntIdle k

/-- POOLED of the members of a pool (R310). -/
def State.showPooled (s : State) (p : Nat) : State :=
  (List.range 32).foldl (fun s k =>
    if s.bit (Reg.LNT_POOL_MEMBERS p) k then s.putBit (Reg.LNT_STS k) 7 (s.poolOn p) else s) s

/-- A core is named in two pools (R296). -/
def State.twoPools (s : State) (k : Nat) : Bool := decide (1 < (s.poolsOf k).length)

/-- What entry to BANKED or a lower state and warm reset take from Lantern (R308): core memories and
state are lost, staged items are discarded, and every task held waits in the reset journal. -/
def State.lntLose (s : State) : State :=
  let tasks := fun (ts : List LntTask) => ts.map fun t =>
    { t with core := none, staged := [], journal := true, retry := true }
  let qs := s.queues.map fun e => (e.1, { e.2 with reserved := 0 })
  let s := { s with
    lnt := Vector.replicate 32 default, pools := s.pools.map tasks, queues := qs,
    mem := Sparse.restrict (fun a => !inLantern a) s.mem }
  (List.range 32).foldl (fun s k => s.setLntState k 0) s

/-! ### Program images (R306) -/

/-- One section of a program image: 0 P, 1 X or 2 Y, its first word address and its words. -/
structure LntSection where
  space : Nat
  first : Nat
  words : List Nat
  deriving DecidableEq, Repr

/-- The sections at the start of `bs`, none where they do not follow the layout. -/
def imageSections : (count : Nat) → List (BitVec 8) → Option (List LntSection)
  | 0, _ => some []
  | n + 1, bs =>
    let head := ofLe (bs.take 4)
    let w := ofLe ((bs.drop 4).take 4)
    let size := if head % 4 = 0 then 6 else 3
    let body := (bs.drop 8).take (size * w)
    if head % 4 = 3 ∨ natBits head 15 2 ≠ 0 ∨ body.length ≠ size * w then none
    else match imageSections n (bs.drop (8 + (size * w + 3) / 4 * 4)) with
      | some r => some (⟨head % 4, head / 2 ^ 16, (chunksOf size w body).map ofLe⟩ :: r)
      | none => none

/-- A program image as the layout of R306 gives it: its sections, none where MAGIC, VERSION, COUNT, CRC or a
section does not fit. -/
def programImage (bs : List (BitVec 8)) : Option (List LntSection) :=
  let count := ofLe ((bs.drop 6).take 2)
  if bs.take 4 = [0x43, 0x46, 0x4C, 0x4E] ∧ ofLe ((bs.drop 4).take 2) = 1 ∧ 1 ≤ count ∧ count ≤ 256 ∧
      ofLe ((bs.drop 8).take 4) = crc32 (bs.drop 12) ∧ ofLe ((bs.drop 12).take 4) = 0 then
    imageSections count (bs.drop 16)
  else none

/-- A section stays within its memory (R306). -/
def LntSection.fits (x : LntSection) : Bool :=
  decide (x.first + x.words.length ≤ if x.space = 0 then 2 ^ 15 else 2 ^ 16)

/-- What a writer of core `k`'s window stores for a section (R305, R306). -/
def State.loadSection (s : State) (k : Nat) (x : LntSection) : State :=
  if x.space = 0 then s.wrBytes (lntBase k + 8 * x.first) (x.words.flatMap (leBytes 8))
  else s.lntStores k (x.space == 2) x.first x.words

/-- A parity fault in a pool's configuration halts its members that work on a task (R301). -/
def State.lntParity (s : State) (p : Nat) : State :=
  (List.range 32).foldl (fun s k =>
    if s.bit (Reg.LNT_POOL_MEMBERS p) k ∧ (s.taskOf k).isSome ∧ s.lntState k ≠ 6 then s.lntHalt k 7
    else s) s

/-! ### The ALU instructions (R284) -/

/-- NOP. -/
def execLntNop (k : Fin 32) (ecc : LntEcc) (s : State) : Host.Outcome State Fault Refusal :=
  s.parallel k ecc 0x00 fun i => { exact := i.adv, write := false, flags := false }

/-- ZERO. -/
def execLntZero (k : Fin 32) (ecc : LntEcc) (s : State) : Host.Outcome State Fault Refusal :=
  s.parallel k ecc 0x01 fun _ => { exact := 0 }

/-- COPY. -/
def execLntCopy (k : Fin 32) (ecc : LntEcc) (s : State) : Host.Outcome State Fault Refusal :=
  s.parallel k ecc 0x02 fun i => { exact := i.word }

/-- COPYA. -/
def execLntCopya (k : Fin 32) (ecc : LntEcc) (s : State) : Host.Outcome State Fault Refusal :=
  s.parallel k ecc 0x03 fun i => { exact := i.ajv }

/-- ADD. -/
def execLntAdd (k : Fin 32) (ecc : LntEcc) (s : State) : Host.Outcome State Fault Refusal :=
  s.parallel k ecc 0x04 fun i => aluAdd i i.word

/-- SUB. -/
def execLntSub (k : Fin 32) (ecc : LntEcc) (s : State) : Host.Outcome State Fault Refusal :=
  s.parallel k ecc 0x05 fun i => aluSub i i.word

/-- ADDA. -/
def execLntAdda (k : Fin 32) (ecc : LntEcc) (s : State) : Host.Outcome State Fault Refusal :=
  s.parallel k ecc 0x06 fun i => aluAdd i i.ajv

/-- SUBA. -/
def execLntSuba (k : Fin 32) (ecc : LntEcc) (s : State) : Host.Outcome State Fault Refusal :=
  s.parallel k ecc 0x07 fun i => aluSub i i.ajv

/-- MUL. -/
def execLntMul (k : Fin 32) (ecc : LntEcc) (s : State) : Host.Outcome State Fault Refusal :=
  s.parallel k ecc 0x08 fun i => { exact := mul47 i.s1 i.s2 }

/-- MULN. -/
def execLntMuln (k : Fin 32) (ecc : LntEcc) (s : State) : Host.Outcome State Fault Refusal :=
  s.parallel k ecc 0x09 fun i => { exact := -mul47 i.s1 i.s2 }

/-- MADD. -/
def execLntMadd (k : Fin 32) (ecc : LntEcc) (s : State) : Host.Outcome State Fault Refusal :=
  s.parallel k ecc 0x0A fun i => { exact := i.adv + mul47 i.s1 i.s2 }

/-- MSUB. -/
def execLntMsub (k : Fin 32) (ecc : LntEcc) (s : State) : Host.Outcome State Fault Refusal :=
  s.parallel k ecc 0x0B fun i => { exact := i.adv - mul47 i.s1 i.s2 }

/-- DMUL. -/
def execLntDmul (k : Fin 32) (ecc : LntEcc) (s : State) : Host.Outcome State Fault Refusal :=
  s.parallel k ecc 0x0C fun i => { exact := mul47 i.s1 i.s2, second := some (mul47 i.s1p i.s2p) }

/-- DMADD. -/
def execLntDmadd (k : Fin 32) (ecc : LntEcc) (s : State) : Host.Outcome State Fault Refusal :=
  s.parallel k ecc 0x0D fun i =>
    { exact := i.adv + mul47 i.s1 i.s2, second := some (toSigned 56 i.ad1 + mul47 i.s1p i.s2p) }

/-- DSUMP. -/
def execLntDsump (k : Fin 32) (ecc : LntEcc) (s : State) : Host.Outcome State Fault Refusal :=
  s.parallel k ecc 0x0E fun i => { exact := i.adv + mul47 i.s1 i.s2 + mul47 i.s1p i.s2p }

/-- DDIFP. -/
def execLntDdifp (k : Fin 32) (ecc : LntEcc) (s : State) : Host.Outcome State Fault Refusal :=
  s.parallel k ecc 0x0F fun i => { exact := i.adv + mul47 i.s1 i.s2 - mul47 i.s1p i.s2p }

/-- CROSS. -/
def execLntCross (k : Fin 32) (ecc : LntEcc) (s : State) : Host.Outcome State Fault Refusal :=
  s.parallel k ecc 0x10 fun i => { exact := i.adv + mul47 i.s1 i.s2p + mul47 i.s1p i.s2 }

/-- ABS. -/
def execLntAbs (k : Fin 32) (ecc : LntEcc) (s : State) : Host.Outcome State Fault Refusal :=
  s.parallel k ecc 0x11 fun i => { exact := i.adv.natAbs }

/-- NEG. -/
def execLntNeg (k : Fin 32) (ecc : LntEcc) (s : State) : Host.Outcome State Fault Refusal :=
  s.parallel k ecc 0x12 fun i => { exact := -i.adv }

/-- ROUND. -/
def execLntRound (k : Fin 32) (ecc : LntEcc) (s : State) : Host.Outcome State Fault Refusal :=
  s.parallel k ecc 0x13 fun i => { exact := rneDiv i.adv (2 ^ 24) * 2 ^ 24 }

/-- CLIP. -/
def execLntClip (k : Fin 32) (ecc : LntEcc) (s : State) : Host.Outcome State Fault Refusal :=
  s.parallel k ecc 0x14 fun i =>
    let x := clampI (-(2 ^ 47)) (2 ^ 47 - 1) i.adv
    { exact := x, lim := decide (x ≠ i.adv) }

/-- SHL. -/
def execLntShl (k : Fin 32) (ecc : LntEcc) (s : State) : Host.Outcome State Fault Refusal :=
  s.parallel k ecc 0x15 fun i => { exact := i.adv * 2 ^ i.count }

/-- SHRA. -/
def execLntShra (k : Fin 32) (ecc : LntEcc) (s : State) : Host.Outcome State Fault Refusal :=
  s.parallel k ecc 0x16 fun i => { exact := floorDiv i.adv (2 ^ i.count) }

/-- SHRL. -/
def execLntShrl (k : Fin 32) (ecc : LntEcc) (s : State) : Host.Outcome State Fault Refusal :=
  s.parallel k ecc 0x17 fun i => aluBits (i.ad / 2 ^ i.count)

/-- AND. -/
def execLntAnd (k : Fin 32) (ecc : LntEcc) (s : State) : Host.Outcome State Fault Refusal :=
  s.parallel k ecc 0x18 fun i => aluUpper i fun u => u &&& ofSigned 24 i.s1

/-- OR. -/
def execLntOr (k : Fin 32) (ecc : LntEcc) (s : State) : Host.Outcome State Fault Refusal :=
  s.parallel k ecc 0x19 fun i => aluUpper i fun u => u ||| ofSigned 24 i.s1

/-- XOR. -/
def execLntXor (k : Fin 32) (ecc : LntEcc) (s : State) : Host.Outcome State Fault Refusal :=
  s.parallel k ecc 0x1A fun i => aluUpper i fun u => u ^^^ ofSigned 24 i.s1

/-- NOT. -/
def execLntNot (k : Fin 32) (ecc : LntEcc) (s : State) : Host.Outcome State Fault Refusal :=
  s.parallel k ecc 0x1B fun i => aluUpper i fun u => 2 ^ 24 - 1 - u

/-- CMP. -/
def execLntCmp (k : Fin 32) (ecc : LntEcc) (s : State) : Host.Outcome State Fault Refusal :=
  s.parallel k ecc 0x1C fun i => { aluSub i i.word with write := false }

/-- CMPA. -/
def execLntCmpa (k : Fin 32) (ecc : LntEcc) (s : State) : Host.Outcome State Fault Refusal :=
  s.parallel k ecc 0x1D fun i => { aluSub i i.ajv with write := false }

/-- MAX. -/
def execLntMax (k : Fin 32) (ecc : LntEcc) (s : State) : Host.Outcome State Fault Refusal :=
  s.parallel k ecc 0x1E fun i => { exact := max i.adv i.ajv }

/-- MIN. -/
def execLntMin (k : Fin 32) (ecc : LntEcc) (s : State) : Host.Outcome State Fault Refusal :=
  s.parallel k ecc 0x1F fun i => { exact := min i.adv i.ajv }

/-- NSIGN. -/
def execLntNsign (k : Fin 32) (ecc : LntEcc) (s : State) : Host.Outcome State Fault Refusal :=
  s.parallel k ecc 0x20 fun i => { exact := signCount i.ad * 2 ^ 24 }

/-! ### The control instructions (R285-R304) -/

/-- GOTO. -/
def execLntGoto (k : Fin 32) (ecc : LntEcc) (s : State) : Host.Outcome State Fault Refusal :=
  s.lntRun k ecc (isBranch 0) fun w s =>
    let t := if s.lntCond k (natBits w 43 40) then some (natBits w 14 0, none) else none
    ((s.lntLand k).lntAdvance k).lntBranch k t

/-- CALL: the address pushed is the one that follows the second delay slot (R289). -/
def execLntCall (k : Fin 32) (ecc : LntEcc) (s : State) : Host.Outcome State Fault Refusal :=
  s.lntRun k ecc (isBranch 1) fun w s =>
    if s.lntCond k (natBits w 43 40) then
      if 16 ≤ (s.core k).stack.length then s.lntHalt k 4
      else
        let t := (s.lntLand k).lntAdvance k
        let c := t.core k
        (t.setCore k { c with stack := .addr ((t.lntPc k + 2) % 2 ^ 15) :: c.stack }).lntBranch k
          (some (natBits w 14 0, none))
    else ((s.lntLand k).lntAdvance k).lntBranch k none

/-- RET. -/
def execLntRet (k : Fin 32) (ecc : LntEcc) (s : State) : Host.Outcome State Fault Refusal :=
  s.lntRun k ecc (isBranch 2) fun w s =>
    if s.lntCond k (natBits w 43 40) then
      match s.lntPopAddr k with
      | some (a, s) => ((s.lntLand k).lntAdvance k).lntBranch k (some (a, none))
      | none => s.lntHalt k 4
    else ((s.lntLand k).lntAdvance k).lntBranch k none

/-- IRET pops SR and then the address. -/
def execLntIret (k : Fin 32) (ecc : LntEcc) (s : State) : Host.Outcome State Fault Refusal :=
  s.lntRun k ecc (isBranch 3) fun w s =>
    if s.lntCond k (natBits w 43 40) then
      match s.lntPopSr k with
      | some (v, s) =>
        match s.lntPopAddr k with
        | some (a, s) => ((s.lntLand k).lntAdvance k).lntBranch k (some (a, some v))
        | none => s.lntHalt k 4
      | none => s.lntHalt k 4
    else ((s.lntLand k).lntAdvance k).lntBranch k none

/-- LEAVE. -/
def execLntLeave (k : Fin 32) (ecc : LntEcc) (s : State) : Host.Outcome State Fault Refusal :=
  s.lntRun k ecc (isBranch 4) fun w s =>
    if s.lntCond k (natBits w 43 40) then
      if (s.core k).stack.isEmpty then s.lntHalt k 4
      else ((s.lntLand k).lntPopLoop k).lntBoundary k
    else (s.lntLand k).lntDone k

/-- LOOP. -/
def execLntLoop (k : Fin 32) (ecc : LntEcc) (s : State) : Host.Outcome State Fault Refusal :=
  s.lntRun k ecc (isClass 9) fun w s =>
    if s.ldep k = 4 then s.lntHalt k 5
    else if 16 ≤ (s.core k).stack.length then s.lntHalt k 4
    else
      let n := s.lntCount k w
      let s := s.lntLand k
      let c := s.core k
      let s := s.setCore k { c with
        stack := .loop c.lend c.lcnt c.lstart :: c.stack, lend := natBits w 14 0, lcnt := n,
        lstart := s.lntPc k + 1 }
      ((s.setFld (Reg.LNT_SR k) 14 12 (s.ldep k + 1)).setLntPc k (s.lntPc k + 1)).lntBoundary k

/-- REPEAT. -/
def execLntRepeat (k : Fin 32) (ecc : LntEcc) (s : State) : Host.Outcome State Fault Refusal :=
  s.lntRun k ecc (isClass 10) fun w s =>
    let n := s.lntCount k w
    let s := (s.lntLand k).lntAdvance k
    (s.setCore k { s.core k with rep := n }).putBit (Reg.LNT_SR k) 15 true

/-- LIMM. -/
def execLntLimm (k : Fin 32) (ecc : LntEcc) (s : State) : Host.Outcome State Fault Refusal :=
  s.lntRun k ecc (isClass 11) fun w s => s.ctlMove k w

/-- RMOV. -/
def execLntRmov (k : Fin 32) (ecc : LntEcc) (s : State) : Host.Outcome State Fault Refusal :=
  s.lntRun k ecc (isClass 12) fun w s => s.ctlMove k w

/-- MMOV. -/
def execLntMmov (k : Fin 32) (ecc : LntEcc) (s : State) : Host.Outcome State Fault Refusal :=
  s.lntRun k ecc (isClass 13) fun w s => s.ctlMove k w

/-- WAIT. -/
def execLntWait (k : Fin 32) (ecc : LntEcc) (s : State) : Host.Outcome State Fault Refusal :=
  s.lntRun k ecc (isSys 0) fun _ s =>
    let s := (s.lntLand k).lntAdvance k
    if s.lntState k ≠ 3 ∨ (s.core k).vector.isSome then s.lntBoundary k
    else ((s.setCore k { s.core k with waiting := .wait }).setLntState k 4).lntBoundary k

/-- DONE. -/
def execLntDone (k : Fin 32) (ecc : LntEcc) (s : State) : Host.Outcome State Fault Refusal :=
  s.lntRun k ecc (isSys 1) fun _ s =>
    let s := s.lntLand k
    if (s.poolOf k).isSome then s.setLntState k 5 else s.lntHalt k 1

/-- ENQ. -/
def execLntEnq (k : Fin 32) (ecc : LntEcc) (s : State) : Host.Outcome State Fault Refusal :=
  s.lntRun k ecc (isSys 2) fun w s =>
    let r := s.enq k (natBits w 31 16) (s.enqItem k w)
    let s := if r.2 then r.1 else r.1.bumpSat (Reg.LNT_QF_COUNT k) 32
    ((s.lntLand k).putBit (Reg.LNT_SR k) 6 (!r.2)).lntDone k

/-- XFER. -/
def execLntXfer (k : Fin 32) (ecc : LntEcc) (s : State) : Host.Outcome State Fault Refusal :=
  s.lntRun k ecc (isSys 3) fun w s =>
    let c := s.core k
    let full := decide (4 ≤ c.xfers.length)
    let s := if full then s else s.setCore k { c with xfers := c.xfers ++ [(s.xferDesc k w).1] }
    ((s.lntLand k).putBit (Reg.LNT_SR k) 7 full).lntDone k

/-- EVT. -/
def execLntEvt (k : Fin 32) (ecc : LntEcc) (s : State) : Host.Outcome State Fault Refusal :=
  s.lntRun k ecc (isSys 4) fun w s => ((s.raise (448 + k) (natBits w 23 0)).lntLand k).lntDone k

/-- SYNC: while an XFER is outstanding the core waits at it. -/
def execLntSync (k : Fin 32) (ecc : LntEcc) (s : State) : Host.Outcome State Fault Refusal :=
  s.lntRun k ecc (isSys 5) fun _ s =>
    let s := s.lntLand k
    if (s.core k).xfers.isEmpty then s.lntDone k
    else ((s.setCore k { s.core k with waiting := .sync }).setLntState k 4).lntBoundary k

/-- SIGNAL. -/
def execLntSignal (k : Fin 32) (ecc : LntEcc) (s : State) : Host.Outcome State Fault Refusal :=
  s.lntRun k ecc (isSys 6) fun w s => ((s.lntPost (natBits w 4 0) 3).lntLand k).lntDone k

/-! ### What happens to a core (R293-R303) -/

/-- An interrupt is accepted (R294): three cycles pass before the handler's first instruction. -/
def execLntInterruptAccept (k : Fin 32) (s : State) : Host.Outcome State Fault Refusal :=
  .next (
    if s.lntAccepts k ∧ !s.idleOrLower then
      match (s.core k).vector with
      | none => s
      | some v =>
        if 14 < (s.core k).stack.length then s.lntHalt k 4
        else
          let c := s.core k
          let s := State.landAll k c.late.length c.late (s.setCore k { c with late := [] })
          let s := s.lntCycles k 3
          let c := s.core k
          let s := s.setCore k { c with
            stack := .sr (s.lntSr k) :: .addr (s.lntPc k) :: c.stack,
            ipend := c.ipend - (c.ipend &&& 2 ^ (v - 1)), waiting := .none }
          ((s.putBit (Reg.LNT_SR k) 11 true).setLntPc k (4 * v)).setLntState k 3
    else s)

/-- TMR goes from 1 to 0 (R293). -/
def execLntTmrExpiry (k : Fin 32) (s : State) : Host.Outcome State Fault Refusal :=
  .next (
    if (s.core k).tmr = 1 ∧ s.lntState k ≠ 0 ∧ !s.idleOrLower then
      (s.setCore k { s.core k with tmr := 0 }).lntPost k 1
    else s)

/-- XFER `i` of those outstanding completes, after `n` bytes where an error ends it (R276, R303,
R304). It waits for the memory (R27), and in IDLE and lower states with its core (R308). -/
def execLntXferComplete (k : Fin 32) (i : Fin 4) (o : XferEnd) (n : Nat) (s : State) :
    Host.Outcome State Fault Refusal :=
  .next (
    match (s.core k).xfers[i.val]? with
    | some x =>
      if s.idleOrLower ∨ !s.serves x.addr then s
      else
        let s := s.xferMove k x (if o.err || (x.out && o.ecc.double) then n else x.count)
        let s := if x.out then s.lntCorrect k (min o.ecc.corrected x.words) else s
        let c := s.core k
        let s := s.setCore k { c with xfers := c.xfers.eraseIdx i }
        let s := if o.err then (s.putBit (Reg.LNT_SR k) 8 true).bumpSat (Reg.LNT_XFER_ERR k) 32 else s
        let s := s.lntPost k 2
        let c := s.core k
        if x.out && o.ecc.double then s.lntDouble k
        else if s.lntState k = 4 ∧ c.waiting = .sync ∧ c.xfers = [] then
          ((s.setCore k { c with waiting := .none }).setLntState k 3).lntDone k
        else s
    | none => s)

/-- HOST_IRQ := 1 (R310). -/
def execLntHostIrq (k : Fin 32) (s : State) : Host.Outcome State Fault Refusal := .next (s.lntPost k 4)

/-- ENABLE := 1 of a core (R307). -/
def execLntEnable (k : Fin 32) (s : State) : Host.Outcome State Fault Refusal :=
  if s.twoPools k then .fault (.undefinedOutcome 296)
  else .next (
    let s := (s.putBit (Reg.LNT_CTL k) 0 true).setFld (Reg.LNT_STS k) 6 3 0
    let st := s.lntState k
    if st = 0 ∨ (st = 6 ∧ (s.core k).zero) then
      let s := (s.setCore k default).wrN (Reg.LNT_SR k) 0
      match s.poolOf k with
      | some p => (s.putBit (Reg.LNT_STS k) 7 (s.poolOn p)).setLntState k 1
      | none => (s.putBit (Reg.LNT_STS k) 7 false).lntStart k
    else if st = 6 then s
    else s.setCore k { s.core k with zero := false })

/-- ENABLE := 0 of a core (R307). -/
def execLntDisable (k : Fin 32) (s : State) : Host.Outcome State Fault Refusal :=
  .next (
    let s := s.putBit (Reg.LNT_CTL k) 0 false
    if s.lntState k = 0 then s
    else if s.lntState k = 1 then s.lntOff k
    else (s.setCore k { s.core k with zero := true }).lntBoundary k)

/-- FORCE_HALT := 1: instructions are whole steps, so the current one has ended (R301, R310). -/
def execLntForceHalt (k : Fin 32) (s : State) : Host.Outcome State Fault Refusal :=
  .next (if 2 ≤ s.lntState k ∧ s.lntState k ≤ 5 then s.lntHalt k 2 else s)

/-- A write of a pool's ENABLE (R296, R308); a pool that a parity fault stopped needs ENABLE := 0 first (R513). -/
def execLntPoolEnable (p : Fin 8) (on : Bool) (s : State) : Host.Outcome State Fault Refusal :=
  if on ∧ ((List.range 32).any fun k => s.bit (Reg.LNT_POOL_MEMBERS p) k && s.twoPools k) then
    .fault (.undefinedOutcome 296)
  else if on ∧ s.parityStopped (Reg.LNT_POOL_CTL p) then .next s
  else .next (
    let s := if on then s else s.parityFree (Reg.LNT_POOL_CTL p)
    let s := s.putBit (Reg.LNT_POOL_CTL p) 0 on
    (s.setHeld p (s.held p)).showPooled p)

/-- A pool dispatches a task (R296, R302). -/
def execTaskDispatch (p : Fin 8) (s : State) : Host.Outcome State Fault Refusal :=
  match s.idleMember p with
  | some k =>
    if s.twoPools k then .fault (.undefinedOutcome 296)
    else .next (if s.idleOrLower then s else s.dispatch p k)
  | none => .next s

/-- The inbox copy ends, at one word per DSP cycle (R297). -/
def execInboxDone (k : Fin 32) (s : State) : Host.Outcome State Fault Refusal :=
  .next (
    match s.poolOf k, s.taskOf k with
    | some p, some t =>
      if s.lntState k = 2 ∧ s.inboxCycles p t ≤ (s.core k).spent ∧ !s.idleOrLower then
        (s.writeInbox k p t).lntStart k
      else s
    | _, _ => s)

/-- The task of a core in COMMIT_WAIT commits once it is the first its pool holds (R299). -/
def execTaskCommit (k : Fin 32) (s : State) : Host.Outcome State Fault Refusal :=
  .next (
    match s.poolOf k with
    | some p =>
      match s.held p with
      | t :: rest =>
        if s.lntState k = 5 ∧ t.core = some k.val ∧ !t.dead ∧ !s.idleOrLower then s.commitTask k p t rest
        else s
      | [] => s
    | none => s)

/-- The watchdog expires (R301): the task has spent LNT_TASK_LIMIT * 1,024 DSP cycles.
(DESIGN CHOICE, log entry 6.) -/
def execLntWatchdog (k : Fin 32) (s : State) : Host.Outcome State Fault Refusal :=
  .next (
    let limit := s.rdN (Reg.LNT_TASK_LIMIT k) * 1024
    if (s.lntState k = 3 ∨ s.lntState k = 4) ∧ 0 < limit ∧ limit ≤ (s.core k).spent ∧
        (s.taskOf k).isSome ∧ !s.idleOrLower then
      s.lntHalt k 6
    else s)

end Sys2Proof.Machine
end

