-- ==== Sys2Proof/Machine/Sequencer.lean ====
section
/-! DEFINITION. Acquisition sequencers (R176-R204): the stores, the trigger latch, the actions of a
nanoword, next addresses, safe points and hand-over. -/

namespace Sys2Proof.Machine

/-! ### State and stores -/

/-- A sequencer. -/
def State.seq (s : State) (q : Nat) : Seq := if h : q < 5 then s.seqs[q] else default

/-- Replaces a sequencer. -/
def State.setSeq (s : State) (q : Nat) (x : Seq) : State :=
  if h : q < 5 then { s with seqs := s.seqs.set q x } else s

/-- INHIBIT (R202). -/
def State.seqInhibit (s : State) (q : Nat) : Bool := s.bit (Reg.SEQ_STS q) 4

/-- Sets INHIBIT. -/
def State.setInhibit (s : State) (q : Nat) (x : Bool) : State := s.putBit (Reg.SEQ_STS q) 4 x

/-- A word of a store of the active bank, none where software has written none (R178). -/
def storeWord (m : List (Nat × Nat)) (a : Nat) : Option Nat := (m.find? fun e => e.1 == a).map (·.2)

/-- The slot of microword `a` in the window of R203. -/
def microSlot (q a : Nat) : Nat := Reg.SEQ_MICRO q (a / 256) (a % 256)

/-- The slot of half `h` (0 low, 1 high) of nanoword `a` in the window of R203. -/
def nanoSlot (q a h : Nat) : Nat := Reg.SEQ_NANO q (a / 128) (2 * (a % 128) + h)

/-- The first and last index of a sequencer's window (R203). -/
def inSeqWindow (q k : Nat) : Bool :=
  decide (0x4280 + 24 * q ≤ slotIndex k ∧ slotIndex k < 0x4280 + 24 * q + 24)

/-- Records that software has written a slot of the shadow bank (R178). -/
def State.noteStoreWrite (s : State) (k : Nat) : State :=
  let q := (slotIndex k - 0x4280) / 24
  let j := (slotIndex k - 0x4280) % 24
  let x := s.seq q
  if j < 16 then
    let a := 256 * j + slotSub k
    s.setSeq q { x with shadowMicro := a :: x.shadowMicro.filter fun b => !(b == a) }
  else
    let a := 128 * (j - 16) + slotSub k / 2
    s.setSeq q { x with shadowNano := a :: x.shadowNano.filter fun b => !(b == a) }

/-- The banks of a sequencer swap (R196). -/
def State.swapBanks (s : State) (q : Nat) : State :=
  let x := s.seq q
  let micro := x.shadowMicro.map fun a => (a, s.rdN (microSlot q a))
  let nano := x.shadowNano.map fun a =>
    (a, s.rdN (nanoSlot q a 0) + s.rdN (nanoSlot q a 1) * 2 ^ 64)
  let s := { s with regs := Sparse.restrict (fun k => !inSeqWindow q k) s.regs }
  let s := x.micro.foldl (fun s e => s.wrN (microSlot q e.1) e.2) s
  let s := x.nano.foldl (fun s e =>
    (s.wrN (nanoSlot q e.1 0) (e.2 % 2 ^ 64)).wrN (nanoSlot q e.1 1) (e.2 / 2 ^ 64)) s
  s.setSeq q { x with micro := micro, nano := nano, shadowMicro := x.micro.map (·.1),
                      shadowNano := x.nano.map (·.1) }

/-- A hand-over of microcode (R196) at device time `at'`: a running sequencer continues there. -/
def State.seqHandover (s : State) (q : Nat) (at' : Nat) : State :=
  let s := s.swapBanks q
  let s := s.bump (Reg.SEQ_SHADOW_GEN q) 32
  let s := s.putBit (Reg.SEQ_STS q) 9 (!s.bit (Reg.SEQ_STS q) 9)
  let s := s.putBit (Reg.SEQ_STS q) 8 false
  let s :=
    if s.seqRunning q then
      let s := s.setSeq q { s.seq q with stack := [] }
      let s := (s.setInhibit q false).setFld (Reg.SEQ_STS q) 7 5 0
      let s := s.wrN (Reg.SEQ_PC q) 2
      s.wr (Reg.SEQ_HANDOVER_TS q) (s.stampAt at' true).word
    else s
  s.raiseTs (314 + q) (s.stampAt at') 0

/-- A halt at device time `at'` (R195, R196): cause 1 HALT, 2 DISABLED, 3 FORCED, 4 PARITY, 5 STACK. A pending
commit is taken with it. -/
def State.seqHalt (s : State) (q cause at' : Nat) : State :=
  let s := s.putBit (Reg.SEQ_STS q) 0 false
  let s := s.setFld (Reg.SEQ_STS q) 3 1 cause
  let s := s.setSeq q { s.seq q with stopPosted := false, haltPosted := false, sinceSafe := 0, begun := none }
  let s := s.raiseTs (309 + q) (s.stampAt at') 0
  if s.bit (Reg.SEQ_STS q) 8 then s.seqHandover q at' else s

/-! ### The trigger latch (R185, R186) -/

/-- A trigger's MASK. -/
def Trig.mask (t : Trig) : Nat := t.info % 256

/-- A trigger with another MASK; FIRST follows (R157, R185). -/
def Trig.withMask (t : Trig) (m : Nat) : Trig :=
  { t with info := t.info / 2048 * 2048 + (lowestBit m 8 0).getD 0 * 256 + m % 256 }

/-- SEQ_LATCH follows the latch (R201). -/
def State.latchEntry (s : State) (q : Nat) : State :=
  match (s.seq q).latch with
  | none => s.wrN (Reg.SEQ_LATCH q) 0
  | some t => s.wrN (Reg.SEQ_LATCH q) (t.info % 2048 + 2048)

/-- The entries of the taken trigger (R186). -/
def State.takenEntry (s : State) (q : Nat) : State :=
  match (s.seq q).taken with
  | none => ((s.wr (Reg.SEQ_TAKEN_TS q) 0).wr (Reg.SEQ_TAKEN_CC q) noCc).wrN (Reg.SEQ_TAKEN_INFO q) 0
  | some t => ((s.wr (Reg.SEQ_TAKEN_TS q) t.ts.word).wr (Reg.SEQ_TAKEN_CC q) t.cc).wrN
      (Reg.SEQ_TAKEN_INFO q) t.info

/-- The trigger that an empty latch takes from those presented in one clock (R185). -/
def earliestTrig (ts : List Trig) : Option Trig :=
  ts.foldl (fun m t => match m with
    | none => some t
    | some u => if later u.ts.t t.ts.t then some t else some u) none

/-- The triggers that a channel presents in one clock enter a sequencer's latch (R185), and are counted there
(R187). -/
def State.present (s : State) (q : Nat) (ts : List Trig) : State :=
  let mask := ts.foldl (fun m t => m ||| t.mask) 0
  if s.seqRunning q && s.seqClocked && !s.pairedOff q && !ts.isEmpty then
    let x := s.seq q
    let s := match x.latch, earliestTrig ts with
      | some l, _ =>
        (s.setSeq q { x with latch := some (l.withMask (l.mask ||| mask)) }).bumpSat
          (Reg.SEQ_TRIG_MERGED q) 32
      | none, some e => s.setSeq q { x with latch := some (e.withMask mask) }
      | none, none => s
    (s.autoCount q 1 1).latchEntry q
  else s

/-! ### Microwords and nanowords (R179, R183) -/

/-- A field of a nanoword. -/
def nf (n hi lo : Nat) : Nat := natBits n hi lo

/-- The nanoword of a microword; an unwritten one is all zeros. -/
def Seq.nanoOf (x : Seq) (w : Nat) : Nat := (storeWord x.nano (w % 1024)).getD 0

/-- NAC, CSEL, clocks and IMM of a microword. -/
def uNac (w : Nat) : Nat := natBits w 13 10
def uCsel (w : Nat) : Nat := natBits w 17 14
def uClocks (w : Nat) : Nat := natBits w 19 18 + 1
def uImm (w : Nat) : Nat := natBits w 31 20

/-- The word has a reserved group or its nanoword a reserved bit or code (R178, R183). (DEDUCED, log entry 28.) -/
def reservedWord (w n : Nat) : Bool :=
  decide (13 ≤ uCsel w) || decide (13 ≤ uNac w) || nf n 2 1 == 3 || nf n 7 7 != 0 ||
    nf n 15 10 != 0 || decide (5 ≤ nf n 46 44) || nf n 47 47 != 0 || nf n 63 61 != 0 ||
    nf n 71 71 != 0 || nf n 75 75 != 0 || nf n 127 84 != 0

/-- The channel a nanoword acts on (R176). -/
def targetChannel (q n : Nat) : Nat := if q < 4 then q else nf n 9 8

/-- The taken trigger after any TAKE in the same microword, as the actions of clock 1 see it
(R186). -/
def Seq.takenNow (x : Seq) (n : Nat) : Option Trig := if nf n 2 1 = 1 then x.latch else x.taken

/-! ### Actions (R184, R187-R192) -/

/-- The present TS64 of a channel at a FRONT edge (R189): that of the sample that leaves in this FRONT clock, else
that of the latest one since the latest frame origin, else the edge's device time. -/
def State.presentTs (s : State) (c at' : Nat) : Stamp :=
  match (s.tch c).last with
  | some l => if l.old && l.clock != s.frontOf at' then s.stampAt at' true else l.ts
  | none => s.stampAt at' true

/-- The trigger of a capture: the taken one, or MASK 0 and the present TS64 (R189). -/
def State.captureTrig (s : State) (c at' : Nat) (t : Option Trig) : Trig :=
  match t with
  | some t => t
  | none =>
    let ts := s.presentTs c at'
    { ts := ts, cc := s.ccAt ts.t, info := 0, offs := 0, value := 0, lead := 0 }

/-- ARM_CLR then ARM_SET (R184, R142). -/
def State.actArm (s : State) (q n at' : Nat) : State :=
  if s.pairedOff q then s
  else
    let c := targetChannel q n
    (s.armMask c (nf n 31 24) false at').armMask c (nf n 23 16) true at'

/-- CAP (R189). -/
def State.actCap (s : State) (q n at' : Nat) (t : Option Trig) : State :=
  let c := targetChannel q n
  let cap := nf n 6 5
  if cap = 0 ∨ s.pairedOff q ∨ s.pairedOff c then s
  else if s.captureOpen c then
    match cap with
    | 1 => s.startIgnored c q (s.captureTrig c at' t) at'
    | 2 => s.stopCapture c 2 at'
    | _ => (s.stopCapture c 3 at').openCapture c (s.captureTrig c at' t) true
  else if cap = 2 ∨ !s.bit (Reg.ACQ_CTL c) 0 then s
  else s.openCapture c (s.captureTrig c at' t) false

/-- One counter operation and the automatic addition of that clock (R187). -/
def State.actCounter (q n imm : Nat) (s : State) (i : Nat) : State :=
  match nf n (33 + 2 * i) (32 + 2 * i) with
  | 1 => s.bump (Reg.SEQ_CNT q i) 48
  | 2 => s.wrN (Reg.SEQ_CNT q i) 0
  | 3 => s.wrN (Reg.SEQ_CNT q i) imm
  | _ => s

/-- A timer operation (R183, R188). -/
def timerOp (op imm scale preset : Nat) (t : SeqTimer) : SeqTimer :=
  match op with
  | 1 => { loaded := true, left := imm * 2 ^ scale % 2 ^ 32 }
  | 2 => { loaded := true, left := preset }
  | 3 => { loaded := false, left := 0 }
  | _ => t

/-- The timer operations of a nanoword. -/
def State.actTimers (s : State) (q n imm : Nat) : State :=
  let x := s.seq q
  let cfg := s.rd (Reg.SEQ_CFG q)
  let pre := s.rd (Reg.SEQ_TMR_PRESET q)
  let t0 := timerOp (nf n 41 40) imm (getF cfg 4 0) (getF pre 31 0) x.timer0
  let t1 := timerOp (nf n 43 42) imm (getF cfg 9 5) (getF pre 63 32) x.timer1
  (s.setSeq q { x with timer0 := t0, timer1 := t1 }).wrN (Reg.SEQ_TMR q) (t0.left + t1.left * 2 ^ 32)

/-- FAB_OP (R191). -/
def State.actFab (s : State) (q n at' : Nat) (t : Option Trig) : State :=
  let op := nf n 46 44
  let id := nf n 59 48
  if op = 0 then s
  else
    let base := match t with
      | some t => t.ts
      | none => s.stampAt at' true
    let fireAt := { base with t := timeAdd base.t (s.fld (Reg.SEQ_FAB_LEAD q) 31 0 * 4096) }
    if op ≤ 2 then
      let s := s.bump (Reg.SEQ_FAB_SEQ q) 16
      let seq := s.rdN (Reg.SEQ_FAB_SEQ q)
      let x := s.seq q
      let s := if op = 2 then s.setSeq q { x with provisional := (id, seq, at') :: x.provisional } else s
      s.ridgeSend (op - 1) id seq fireAt.word
    else
      let seq := s.rdN (Reg.SEQ_FAB_SEQ q)
      let x := s.seq q
      let s := s.setSeq q { x with provisional := x.provisional.filter fun p => !(p.1 == id && p.2.1 == seq) }
      s.ridgeSend (op - 1) id seq 0

/-- SIG_CLR in this sequencer, then SIG_SET in the target, at a FRONT edge (R184, R192). -/
def State.actSignals (s : State) (q n edge : Nat) : State :=
  (s.signalBits q (nf n 83 80) 0 edge).signalBits (nf n 74 72) 0 (nf n 79 76) edge

/-- TAG (R190). -/
def State.actTag (s : State) (q n imm at' : Nat) : State :=
  let c := targetChannel q n
  if nf n 4 4 = 0 ∨ s.pairedOff q then s
  else if s.captureOpen c then s.placeTag c imm (s.presentTs c at')
  else s.bumpSat (Reg.SEQ_TAG_DROPPED q) 32

/-- The actions of one nanoword at the edge that begins clock 1, in the order of R184. -/
def State.nanoActions (s : State) (q n imm at' : Nat) : State :=
  let t := (s.seq q).takenNow n
  let s := s.actArm q n at'
  let s := s.actCap q n at' t
  let s := (List.range 4).foldl (State.actCounter q n imm) s
  let s := s.actTimers q n imm
  let s := s.actFab q n at' t
  let s := if nf n 60 60 = 1 then s.dmaStart (nf n 70 64) else s
  let s := s.actSignals q n at'
  let s := s.actTag q n imm at'
  if nf n 3 3 = 1 then s.raiseTs (304 + q) (s.stampAt at') imm else s

/-! ### Condition groups (R182) -/

/-- A timer reads expired in the sample of clock `j` of a microword (R188). -/
def SeqTimer.expired (t : SeqTimer) (j : Nat) : Bool := t.loaded && decide (t.left + 1 ≤ j)

/-- A timer as the sample of clock `j` sees it: in clock 1 as it stood before the microword's own actions (R181). -/
def SeqBegun.timerAt (b : SeqBegun) (x : Seq) (i j : Nat) : SeqTimer :=
  if j ≤ 1 then (if i = 0 then b.timer0 else b.timer1) else if i = 0 then x.timer0 else x.timer1

/-- A counter as the sample of clock `j` sees it: in clock 1 as it stood before the microword's own actions, later
with the additions of source 2 up to then (R181, R187). -/
def State.counterAt (s : State) (q : Nat) (b : SeqBegun) (i j : Nat) : Nat :=
  let v := s.fld (Reg.SEQ_CNT q i) 47 0
  if j ≤ 1 then b.cnt.getD i 0
  else if s.fld (Reg.SEQ_CFG q) (11 + 2 * i) (10 + 2 * i) = 2 then (v + (j - 1)) % 2 ^ 48
  else v

/-- SEQ_SIGNAL as the sample of the clock that begins at an edge sees it: without what that edge changes
(R181, R192). -/
def State.signalSeen (s : State) (q edge : Nat) : Nat :=
  match (s.seq q).signal with
  | some x => if x.edge = edge then x.before else s.fld (Reg.SEQ_SIGNAL q) 3 0
  | none => s.fld (Reg.SEQ_SIGNAL q) 3 0

/-- Four Booleans as g[3:0]. -/
def nibble (b3 b2 b1 b0 : Bool) : Nat := b2n b3 * 8 + b2n b2 * 4 + b2n b1 * 2 + b2n b0

/-- A PROVISIONAL of this sequencer is outstanding at a time (R182): for at most 64 ns. -/
def State.provOutstanding (s : State) (q t : Nat) : Bool :=
  (s.seq q).provisional.any fun p => decide (timeDiff t p.2.2 ≤ (160 * 4096 : Int))

/-- Bit 3 of group 12 as the sample of clock `j` sees it: in clock 1 without what the microword itself sends
(R181). -/
def SeqBegun.provAt (b : SeqBegun) (now : Bool) (j : Nat) : Bool :=
  if j ≤ 1 ∧ nf b.n 46 44 ≠ 0 then b.prov else now

/-- Bit 0 of group 12 as the sample of clock `j` sees it: in clock 1 without the microword's own CAP (R181). -/
def SeqBegun.capAt (b : SeqBegun) (now : Bool) (j : Nat) : Bool :=
  if j ≤ 1 ∧ nf b.n 6 5 ≠ 0 then b.cap else now

/-- The value of a condition group in the last clock of the microword in progress (R181, R182). -/
def State.groupValue (s : State) (q : Nat) (b : SeqBegun) : Nat :=
  let x := s.seq q
  let j := uClocks b.w
  let edge := timeAdd b.at' ((j - 1) * s.frontClock : Nat)
  let c := targetChannel q b.n
  let any := x.latch.isSome
  let mask := (x.latch.map Trig.mask).getD 0
  let e0 := (b.timerAt x 0 j).expired j
  let e1 := (b.timerAt x 1 j).expired j
  let cnt := s.counterAt q b
  match uCsel b.w with
  | 1 => if any then 8 + (lowestBit mask 8 0).getD 0 else 0
  | 2 => mask % 16
  | 3 => mask / 16 % 16
  | 4 => nibble false (e1 && !any) (e0 && !any) any
  | 5 => nibble false false e1 e0
  | 6 => nibble (cnt 3 j == 0) (cnt 2 j == 0) (cnt 1 j == 0) (cnt 0 j == 0)
  | 7 =>
    let r := fun i => decide (s.fld (Reg.SEQ_CMP q i) 47 0 ≤ cnt i j)
    nibble (r 3) (r 2) (r 1) (r 0)
  | 8 => s.fld Reg.TRG_EXT_LEVEL 3 0
  | 9 => s.fld Reg.TRG_EXT_LEVEL 7 4
  | 10 => s.fld (Reg.SEQ_SWFLAG q) 3 0
  | 11 => s.signalSeen q edge
  | 12 => nibble (b.provAt (s.provOutstanding q edge) j) s.ccLocked (s.bit (Reg.CND_STS c) 1)
      (b.capAt (s.bit (Reg.ACQ_STS c) 1) j)
  | _ => 0

/-! ### The next address and the end of a microword (R180, R186, R194) -/

/-- The address that follows pc. -/
def pcNext (pc : Nat) : Nat := (pc + 1) % 4096

/-- The next address of R180, for a return whose popped address is `popped`. -/
def nextAddress (nac pc imm g popped : Nat) : Nat :=
  match nac with
  | 0 => pcNext pc
  | 1 => imm
  | 2 => imm ||| g
  | 3 => if g ≠ 0 then imm else pcNext pc
  | 4 => if g = 0 then imm else pcNext pc
  | 5 => if g = 0 then pc else pcNext pc
  | 6 => if g = 0 then pc else imm ||| g
  | 7 => imm
  | 8 => imm ||| g
  | 9 => popped
  | 10 => popped
  | 11 => imm
  | _ => pc

/-- The stack after a microword (R180). -/
def nextStack (nac pc : Nat) (st : List Nat) : List Nat :=
  match nac with
  | 7 => pcNext pc :: st
  | 8 => pcNext pc :: st
  | 9 => st.drop 1
  | 10 => st.drop 1
  | 11 => []
  | _ => st

/-- The stack would overflow or underflow (R180). -/
def stackBad (nac : Nat) (st : List Nat) : Bool :=
  match nac with
  | 7 => decide (4 ≤ st.length)
  | 8 => decide (4 ≤ st.length)
  | 9 => st.isEmpty
  | 10 => st.isEmpty
  | _ => false

/-- Sets pc, stack and DEPTH. -/
def State.seqGoto (s : State) (q pc : Nat) (st : List Nat) : State :=
  let s := s.setSeq q { s.seq q with stack := st }
  (s.wrN (Reg.SEQ_PC q) pc).setFld (Reg.SEQ_STS q) 7 5 st.length

/-- Time passes by the microword's clocks for its timers, its automatic counters and SEQ_SAFE_MAX. -/
def State.seqClocks (s : State) (q clocks : Nat) : State :=
  let x := s.seq q
  let run := x.sinceSafe + clocks
  let t0 := { x.timer0 with left := x.timer0.left - clocks }
  let t1 := { x.timer1 with left := x.timer1.left - clocks }
  let s := s.setSeq q { x with timer0 := t0, timer1 := t1, sinceSafe := run }
  let s := s.wrN (Reg.SEQ_TMR q) (t0.left + t1.left * 2 ^ 32)
  let s := if s.rdN (Reg.SEQ_SAFE_MAX q) < run then s.wrN (Reg.SEQ_SAFE_MAX q) (min run (2 ^ 32 - 1))
    else s
  s.autoCount q 2 clocks

/-- LATCH acts on the content sampled (R186). -/
def State.latchAct (s : State) (q n : Nat) : State :=
  let x := s.seq q
  match nf n 2 1 with
  | 1 => ((s.setSeq q { x with taken := x.latch, latch := none }).takenEntry q).latchEntry q
  | 2 => (s.setSeq q { x with latch := none }).latchEntry q
  | _ => s

/-- A fault is taken at a safe point (R194). -/
def State.takeFault (s : State) (q at' : Nat) : State :=
  let x := s.seq q
  if 4 ≤ x.stack.length then s.seqHalt q 5 at'
  else
    let pend := s.fld (Reg.SEQ_FAULT q) 3 0
    let s := (s.setInhibit q true).wrN (Reg.SEQ_FAULT q) (pend * 16)
    s.seqGoto q 0x004 (s.rdN (Reg.SEQ_PC q) :: x.stack)

/-- The lowest request that is pending and enabled. -/
def State.nextRequest (s : State) (q : Nat) : Option Nat :=
  let r := s.rd (Reg.SEQ_REQ q)
  lowestBit (getF r 3 0 &&& getF r 7 4) 4 0

/-- Request `n` is taken at a safe point; with a full stack it waits (R194). -/
def State.takeRequest (s : State) (q n : Nat) : State :=
  let x := s.seq q
  if 4 ≤ x.stack.length then s
  else
    let s := (s.setInhibit q true).putBit (Reg.SEQ_REQ q) n false
    s.seqGoto q (0x008 + 4 * n) (s.rdN (Reg.SEQ_PC q) :: x.stack)

/-- A safe point at device time `at'` (R194): the first item that is pending and allowed. (DEDUCED, log entry 28.) -/
def State.safePoint (s : State) (q at' : Nat) : State :=
  let s := s.setSeq q { s.seq q with sinceSafe := 0 }
  if (s.seq q).stopPosted then s.seqHalt q 2 at'
  else if s.bit (Reg.SEQ_STS q) 8 then s.seqHandover q at'
  else if s.seqInhibit q then s
  else if s.fld (Reg.SEQ_FAULT q) 3 0 ≠ 0 then s.takeFault q at'
  else match s.nextRequest q with
    | some n => s.takeRequest q n
    | none => s

/-- The end of a microword at device time `at'`: LATCH, the next address, then a forced halt, HALT or the safe
point (R195). (DESIGN CHOICE, log entry 70.) -/
def State.endWord (s : State) (q w n g at' : Nat) : State :=
  let x := s.seq q
  let pc := s.rdN (Reg.SEQ_PC q)
  let nac := uNac w
  let s := s.latchAct q n
  let s := s.seqGoto q (nextAddress nac pc (uImm w) g (x.stack.head?.getD 0))
    (nextStack nac pc x.stack)
  let s := if nac = 10 ∨ nac = 11 then s.setInhibit q false else s
  if x.haltPosted then s.seqHalt q 3 at'
  else if nac = 12 then s.seqHalt q 1 at'
  else if nf n 0 0 = 1 then s.safePoint q at'
  else s

/-- The microword at pc and its nanoword, unless no word is written there, or one has a reserved code or bit, or
its actions have no outcome: a kick of a DMA chain of no descriptors (R178, R180, R427). (DEDUCED, log entry 28.) -/
def State.seqFetch (s : State) (q : Nat) : Option (Nat × Nat) :=
  match storeWord (s.seq q).micro (s.rdN (Reg.SEQ_PC q)) with
  | none => none
  | some w =>
    let n := (s.seq q).nanoOf w
    if reservedWord w n || (nf n 60 60 == 1 && s.dmaStartBad (nf n 70 64)) then none else some (w, n)

/-- The microword at pc begins at a FRONT edge: its actions take effect (R181). One that gives no outcome does not
begin. -/
def State.seqBegin (s : State) (q edge : Nat) : State :=
  match s.seqFetch q with
  | none => s
  | some (w, n) =>
    let x := s.seq q
    let b : SeqBegun :=
      { w := w, n := n, at' := edge, timer0 := x.timer0, timer1 := x.timer1,
        cnt := (List.range 4).map fun i => s.fld (Reg.SEQ_CNT q i) 47 0,
        prov := s.provOutstanding q edge, cap := s.bit (Reg.ACQ_STS (targetChannel q n)) 1 }
    (s.setSeq q { x with begun := some b }).nanoActions q n (uImm w) edge

/-- The FRONT edge that ends a microword: after its clocks, or the latest one where that has passed. -/
def State.wordEnd (s : State) (b : SeqBegun) : Nat :=
  let e := timeAdd b.at' (uClocks b.w * s.frontClock : Nat)
  if later s.time e then s.frontNow else e

/-- The microword in progress ends: the sample of its last clock, LATCH and the next address (R181, R186); then
the next one begins at the next edge, unless its fetch meets a parity mismatch (R195). -/
def State.runWord (s : State) (q : Nat) (b : SeqBegun) (parity : Bool) : State :=
  let e := s.wordEnd b
  let g := s.groupValue q b
  let s := s.setSeq q { s.seq q with begun := none }
  let s := (s.seqClocks q (uClocks b.w)).endWord q b.w b.n g e
  if !s.seqRunning q then s
  else if parity then s.seqHalt q 4 e
  else s.seqBegin q e

/-- A microword in progress ends, if it is the command's and its stack operation has an outcome (R180). -/
def State.endCommand (s : State) (q nac : Nat) (parity : Bool) (b : SeqBegun) :
    Host.Outcome State Fault Refusal :=
  if uNac b.w ≠ nac then .next s
  else if stackBad nac (s.seq q).stack then .fault (.undefinedOutcome 180)
  else .next (s.runWord q b parity)

/-- The sequencers' clock stops (R199): what a microword in progress has run is kept. -/
def State.seqsHold (s : State) : State :=
  (List.range 5).foldl (fun s q =>
    let x := s.seq q
    s.setSeq q { x with held := x.begun.map fun b => (timeDiff s.frontNow b.at').toNat }) s

/-- The sequencers' clock runs again (R199): the microword in progress goes on from there. -/
def State.seqsGo (s : State) : State :=
  (List.range 5).foldl (fun s q =>
    let x := s.seq q
    let at' := x.held.map fun d => timeAdd (s.edgeFrom s.time) (-(d : Int))
    s.setSeq q { x with held := none, begun := x.begun.map fun b => { b with at' := at'.getD b.at' } }) s

/-- The command of one NAC code: the microword in progress, whose NAC must be the command's, ends, and the next
one begins. One that has not begun begins first; `parity` tells of the first fetch that the command makes.
(DESIGN CHOICE, log entry 58.) -/
def State.seqCommand (s : State) (q nac : Nat) (parity : Bool) : Host.Outcome State Fault Refusal :=
  if s.seqRunning q && s.seqClocked then
    match (s.seq q).begun with
    | some b => s.endCommand q nac parity b
    | none =>
      if parity then .next (s.seqHalt q 4 s.time)
      else match s.seqFetch q with
        | none => .fault (.undefinedOutcome 178)
        | some (w, _) =>
          if uNac w ≠ nac then .next s
          else
            let t := s.seqBegin q (s.edgeFrom s.time)
            match (t.seq q).begun with
            | some b => t.endCommand q nac false b
            | none => .next t
  else .next s

/-! ### The commands -/

/-- CONT. -/
def execSeqCont (q : Fin 5) (parity : Bool) (s : State) : Host.Outcome State Fault Refusal :=
  s.seqCommand q 0 parity

/-- JUMP. -/
def execSeqJump (q : Fin 5) (parity : Bool) (s : State) : Host.Outcome State Fault Refusal :=
  s.seqCommand q 1 parity

/-- MAP. -/
def execSeqMap (q : Fin 5) (parity : Bool) (s : State) : Host.Outcome State Fault Refusal :=
  s.seqCommand q 2 parity

/-- JNZ. -/
def execSeqJnz (q : Fin 5) (parity : Bool) (s : State) : Host.Outcome State Fault Refusal :=
  s.seqCommand q 3 parity

/-- JZ. -/
def execSeqJz (q : Fin 5) (parity : Bool) (s : State) : Host.Outcome State Fault Refusal :=
  s.seqCommand q 4 parity

/-- WAIT. -/
def execSeqWait (q : Fin 5) (parity : Bool) (s : State) : Host.Outcome State Fault Refusal :=
  s.seqCommand q 5 parity

/-- WAITMAP. -/
def execSeqWaitmap (q : Fin 5) (parity : Bool) (s : State) : Host.Outcome State Fault Refusal :=
  s.seqCommand q 6 parity

/-- CALL. -/
def execSeqCall (q : Fin 5) (parity : Bool) (s : State) : Host.Outcome State Fault Refusal :=
  s.seqCommand q 7 parity

/-- CALLMAP. -/
def execSeqCallmap (q : Fin 5) (parity : Bool) (s : State) : Host.Outcome State Fault Refusal :=
  s.seqCommand q 8 parity

/-- RET. -/
def execSeqRet (q : Fin 5) (parity : Bool) (s : State) : Host.Outcome State Fault Refusal :=
  s.seqCommand q 9 parity

/-- RETI. -/
def execSeqReti (q : Fin 5) (parity : Bool) (s : State) : Host.Outcome State Fault Refusal :=
  s.seqCommand q 10 parity

/-- RESTART. -/
def execSeqRestart (q : Fin 5) (parity : Bool) (s : State) : Host.Outcome State Fault Refusal :=
  s.seqCommand q 11 parity

/-- HALT. -/
def execSeqHalt (q : Fin 5) (parity : Bool) (s : State) : Host.Outcome State Fault Refusal :=
  s.seqCommand q 12 parity

/-- FRONT clocks since the microword in progress began. -/
def State.wordClocks (s : State) (q : Nat) : Nat :=
  match (s.seq q).begun with
  | some b => (timeDiff s.time b.at').toNat / max 1 s.frontClock
  | none => 0

/-- A timer whose count has run reads 0 from here on (R188). -/
def SeqTimer.runOut (t : SeqTimer) (clocks : Nat) : SeqTimer :=
  if t.loaded && decide (t.left ≤ clocks) then { t with left := 0 } else t

/-- A timer of a running sequencer reaches expiry (R188): one whose count has not run is left. -/
def execSeqTimerExpiry (q : Fin 5) (t : Fin 2) (s : State) : Host.Outcome State Fault Refusal :=
  let x := s.seq q
  let n := s.wordClocks q
  .next (
    if s.seqRunning q && s.seqClocked then
      let s := if t.val = 0 then s.setSeq q { x with timer0 := x.timer0.runOut n }
        else s.setSeq q { x with timer1 := x.timer1.runOut n }
      s.wrN (Reg.SEQ_TMR q) ((s.seq q).timer0.left + (s.seq q).timer1.left * 2 ^ 32)
    else s)

/-- The start of a stopped sequencer (R198), which keeps the taken trigger. (DESIGN CHOICE, log entry 70.) -/
def State.seqStart (s : State) (q : Nat) : State :=
  let x := s.seq q
  let s := s.setSeq q { x with stack := [], latch := none, timer0 := default, timer1 := default,
                               stopPosted := false, haltPosted := false, sinceSafe := 0, begun := none, signal := none,
                               held := none }
  let s := s.wrN (Reg.SEQ_PC q) 0
  let s := s.wrN (Reg.SEQ_TMR q) 0
  let s := s.wrN (Reg.SEQ_SIGNAL q) 0
  let s := s.setFld (Reg.SEQ_FAULT q) 3 0 0
  let s := s.setFld (Reg.SEQ_REQ q) 3 0 0
  let s := (s.setInhibit q false).setFld (Reg.SEQ_STS q) 7 5 0
  (s.putBit (Reg.SEQ_STS q) 0 true).latchEntry q

/-- TSCALE of both timers lies within 0 to 20 (R201). -/
def State.scalesOk (s : State) (q : Nat) : Bool :=
  decide (s.fld (Reg.SEQ_CFG q) 4 0 ≤ 20 ∧ s.fld (Reg.SEQ_CFG q) 9 5 ≤ 20)

/-- SEQ_ENABLE (R198): starts a sequencer whose ENABLE and RUNNING are both 0; its first microword begins at the
next FRONT edge, unless its fetch meets a parity mismatch (R195). A scale above 20 has no outcome (R201, R609). -/
def execSeqEnable (x : SeqStart) (s : State) : Host.Outcome State Fault Refusal :=
  let q := x.q.val
  let starts := !s.seqRunning q && !s.bit (Reg.SEQ_CTL q) 0
  if starts && !s.scalesOk q then .fault (.undefinedOutcome 609)
  else
    let s := (s.putBit (Reg.SEQ_CTL q) 0 true).setFld (Reg.SEQ_STS q) 3 1 0
    .next (
      if starts then
        let s := s.seqStart q
        if !s.seqClocked then s
        else if x.parity then s.seqHalt q 4 (s.edgeFrom s.time)
        else s.seqBegin q (s.edgeFrom s.time)
      else s)

/-- SEQ_DISABLE (R198): posts a stop. -/
def execSeqDisable (q : Fin 5) (s : State) : Host.Outcome State Fault Refusal :=
  let s := s.putBit (Reg.SEQ_CTL q) 0 false
  .next (if s.seqRunning q then s.setSeq q { s.seq q with stopPosted := true } else s)

/-- FORCE_HALT (R195): the sequencer halts at the end of the current microword. -/
def execForceHalt (q : Fin 5) (s : State) : Host.Outcome State Fault Refusal :=
  .next (if s.seqRunning q then s.setSeq q { s.seq q with haltPosted := true } else s)

/-- SEQ_COMMIT (R196). -/
def execSeqCommit (q : Fin 5) (s : State) : Host.Outcome State Fault Refusal :=
  .next (if s.seqRunning q then s.putBit (Reg.SEQ_STS q) 8 true else s.seqHandover q s.time)

/-- FAULT_POST (R193): the SOFT source. -/
def execFaultPost (q : Fin 5) (s : State) : Host.Outcome State Fault Refusal := .next (s.postFault 3 q)

/-- SEQ_REQ (R193): posts the requests of a mask. -/
def execSeqReq (q : Fin 5) (mask : Fin 16) (s : State) : Host.Outcome State Fault Refusal :=
  .next (s.setFld (Reg.SEQ_REQ q) 3 0 (s.fld (Reg.SEQ_REQ q) 3 0 ||| mask.val))

end Sys2Proof.Machine
end

