-- ==== Sys2Proof/Machine/Reset.lean ====
section
/-! DEFINITION. Resets (R549-R553): what each keeps, quiescing, the reset journal, replay and the
watchdog. -/

namespace Sys2Proof.Machine

/-- Sets STAGE. -/
def State.setStage (s : State) (x : Nat) : State := s.setFld Reg.MGT_BOOT_STS 2 0 x

/-- A warm reset is in progress (R550): the device quiesces, or its blocks are held in reset. -/
def State.inReset (s : State) : Bool := s.boot.phase == 1 || s.boot.phase == 2

/-- Replaces the boot state. -/
def State.setBoot (s : State) (b : Boot) : State := { s with boot := b }

/-! ### What a reset keeps -/

/-- The levels of input pins outlive every reset. -/
def State.pinsOf (s r : State) : State :=
  let lanes := s.lanes.map fun x =>
    { (default : LaneGroup) with prsntLow := x.prsntLow, prsntSince := x.prsntSince }
  { r with lanes := lanes, scn := { r.scn with hpd := s.scn.hpd }, jtag := s.jtag,
           ep := s.ep.map fun x => { (default : EpFn) with out := x.out } }

/-- The device with every block outside the management island at its state after reset, and the slots
that `keep` holds; PROT_LOCK stays, and so endpoint ports stay enabled (R543, R551). -/
def State.island (s : State) (keep : Nat → Bool) : State :=
  let r := s.pinsOf { State.reset with
    regs := Sparse.restrict keep s.regs, time := s.time, clk := s.clk, mgt := s.mgt, hlt := s.hlt,
    pwr := s.pwr, boot := s.boot, out := s.out, fresh := s.fresh, pending := s.pending }
  if r.locked then (List.range 4).foldl (fun s n => (s.roleCause n).epEnable n) r else r

/-- Of a device whose other blocks have been reset: calibration runs have left (R569), and parity marks stand for kept
entries alone (R513). -/
def State.islandOnly (s : State) (keep : Nat → Bool) : State :=
  let s := s.hlt.runs.foldl (fun s r => s.calLeaves r.id) s
  { s with mgt := { s.mgt with faulted := s.mgt.faulted.filter keep, stopped := s.mgt.stopped.filter keep } }

/-- Indices of the management island and the clocks that a warm reset keeps (R551). -/
def islandIndex (i : Nat) : Bool :=
  decide (0x1000 ≤ i ∧ i ≤ 0x20FF) || decide (0x6600 ≤ i ∧ i ≤ 0x66FF)

/-- The slots that a warm reset keeps (R551). -/
def warmKeeps (k : Nat) : Bool :=
  islandIndex (slotIndex k) || inProtection k ||
    (findRow k).any fun r => r.name == "MEM_CFG" || r.name == "MEM_LANE"

/-- The save sets that are in force, as MGT_SAVE_STS shows them (R516, R532). -/
def State.showSets (s : State) : State :=
  let v := s.mgt.sets.map (·.valid)
  let s := s.putBit Reg.MGT_SAVE_STS 1 (v[0] || v[1])
  s.putBit Reg.MGT_SAVE_STS 2 v[1]

/-- The device right after a cold reset with a cause (R549): fuses and MRAM are kept. (DEDUCED, log entry 49.) -/
def State.coldBase (s : State) (cause : Nat) : State :=
  let h := s.hlt
  let hlt : Hlt :=
    { il := h.il, stored := h.stored, tables := h.tables, trims := h.trims, journal := h.journal,
      ageCopy := h.ageCopy }
  let r := s.pinsOf { State.reset with
    mgt := { (default : Mgt) with sets := s.mgt.sets },
    clk := { (default : Clk) with up := s.clk.up }, hlt := hlt,
    boot := { (default : Boot) with wdogAt := s.clk.up },
    pwr := { (default : Pwr) with pgHigh := s.pwr.pgHigh }, out := s.out, fresh := s.fresh, pending := s.pending }
  let r := r.wrN Reg.HLT_JRN_HEAD (s.rdN Reg.HLT_JRN_HEAD)
  let r := match h.ageCopy with
    | some v => r.wr Reg.HLT_AGE v
    | none => r
  (r.showSets.setRails 0).setFld Reg.MGT_RST_STS 2 0 cause

/-- A cold reset that the device makes itself: the rails come up and the ROM reads the slots at once
(R542, R549, R588). (DEDUCED, log entry 49.) -/
def State.coldReset (s : State) (cause : Nat) : State :=
  ((s.coldBase cause).railsUp 1).setStage 1

/-! ### Warm reset: quiescing (R549, R550) -/

/-- A warm reset cause (R541, R549, R550, R563): in EMBER and STOWED the reset is cold; during a warm reset, and in
stage FAIL, the cause is ignored. (DEDUCED, log entry 49.) -/
def State.warmReset (s : State) (cause : Nat) : State :=
  if 4 ≤ s.power then s.coldReset cause
  else if s.inReset ∨ s.stage = 7 then s
  else
    let s := s.wrN Reg.MGT_RST_STS cause
    let s := (s.wr Reg.MGT_RST_TS s.now.word).bumpSat Reg.MGT_WARM_COUNT 32
    let s := s.putBit Reg.PWR_STS 3 false
    let p := { s.pwr with target := s.power, woken := false, go := none }
    let s := { s with pwr := p }
    let s := s.setBoot { s.boot with phase := 1, since := s.clk.up, waits := none }
    (List.range 128).foldl State.dmaPause s

/-- Writes every queue's live state back to its context (R424). -/
def State.queuesBack (s : State) : State :=
  s.queues.foldl (fun s e => s.writeBack e.1 e.2) s

/-- Slots of a channel that the reset journal holds (R424, R550). -/
def dmaSlots (ch : Nat) : List Nat :=
  [Reg.QDM_CH_BASE ch, Reg.QDM_CH_COUNT ch, Reg.QDM_CH_NEXT_BASE ch, Reg.QDM_CH_NEXT_COUNT ch,
    Reg.QDM_CH_CUR ch, Reg.QDM_CH_OFFSET ch, Reg.QDM_CH_STS ch]

/-- DMA channels that are not OFF. -/
def State.dmaHeld (s : State) : List Nat := (List.range 128).filter fun ch => s.dmaState ch != 0

/-- The writers' slots in the reset journal (R224). -/
def acqSlots (c : Nat) : List Nat := [Reg.ACQ_PUB c, Reg.ACQ_REL c, Reg.ACQ_SEQ_NEXT c]

/-- The reset journal as quiescing leaves it; `left` names the steps abandoned. (DEDUCED, log entry 49.)
(DESIGN CHOICE, log entry 50.) -/
def State.journalOf (s : State) (left : Nat) : Journal :=
  let did (k : Nat) : Bool := !left.testBit (k - 1)
  let acq := if did 2 then (List.range 4).flatMap acqSlots else []
  let dma := if did 3 && did 5 then s.dmaHeld.flatMap dmaSlots else []
  { regs := (acq ++ dma).map fun k => (k, s.rd k)
    writers := if did 2 then s.writers else Vector.replicate 4 default
    queues := if did 3 then s.lntLose.queues.map fun e => (e.1, { e.2 with staged := [] }) else []
    dma := s.dma
    pools := if did 5 then s.lntLose.pools else Vector.replicate 8 []
    tx := if did 5 then s.fab.tx else []
    rx := s.fab.rx }

/-- The device with its blocks held in reset (R550, R551); a journal that still awaits its replay stays the one to
replay. (DEDUCED, log entry 49.) -/
def State.warmBase (s : State) (left : Nat) : State :=
  let j := s.boot.journal.getD (s.journalOf left)
  let kept := s.ddr.trained && !left.testBit 5
  let r := (s.island warmKeeps).islandOnly warmKeeps
  let r := (if s.pllState 0 = 1 then r.clockHold else r).clkSteer
  { r with
    mem := if kept then Sparse.restrict (fun a => decide (a < 2 ^ 44)) s.mem else []
    ddr := { (default : Ddr) with kept := kept, trained := kept }
    drv := { (default : Drv) with
      journal := s.drv.journal, sets := s.drv.sets.map fun (x : DrvSet) => { (default : DrvSet) with owes := x.owes } }
    boot := { r.boot with phase := 2, since := s.clk.up, journal := some j } }

/-- Quiescing ends; `left` names the steps unfinished at its limit (R550). (DEDUCED, log entry 49.) -/
def State.quiesced (s : State) (left : Nat) : State :=
  let did (k : Nat) : Bool := !left.testBit (k - 1)
  let s := if did 3 then s.queuesBack else s
  let s := if did 4 then s.timDrainAll else s
  let us := min 65535 ((s.clk.up - s.boot.since) / usec 1)
  let s := (s.setFld Reg.MGT_QUIESCE 31 16 us).setFld Reg.MGT_RST_STS 9 4 left
  let s := s.putBit Reg.MGT_RST_STS 10 true
  let s := (List.range 4).foldl State.linkDown s
  (s.fabRest).warmBase left

/-! ### Replay (R552) -/

/-- A record that no consumer has seen whole yet, as recovery finds it: an open one closes with END 6 at its last
unit that reached GDDR7, and so does one whose last units had not reached it (R224). (DEDUCED, log entry 64.) -/
def Capture.recovered (k : Capture) (drained : Nat) : Capture :=
  if k.ending ≠ 0 ∧ (k.units.all fun u => !u.accepted || decide (u.n < drained)) then k
  else ({ k with units := k.units.filter fun u => decide (u.n < drained) } : Capture).close 6 drained

/-- A record writer recovers from the journal (R224) and publishes what it held. -/
def State.recoverWriter (w : Writer) (s : State) (c : Nat) : State :=
  let caps := w.caps.map fun k => k.recovered w.drained
  let s := if caps.isEmpty then s else s.putBit (Reg.ACQ_STS c) 0 true
  let s := s.setWriter c
    { (default : Writer) with spans := w.spans, caps := caps, count := w.count, drained := w.drained,
                              lost := w.lost, runs := w.runs, lastStop := w.lastStop, fresh := true }
  s.serveWriter c

/-- The journalled streams of the fabric retransmit store, with those begun since. -/
def mergeTx (old new : List E2eTx) : List E2eTx :=
  old ++ new.filter fun x => !(old.any fun y => y.uid == x.uid && y.vc == x.vc)

/-- Replay restores what the journal holds (R552). (DEDUCED, log entry 49.) -/
def State.replay (s : State) (j : Journal) : State :=
  let s := j.regs.foldl (fun s e => s.wr e.1 e.2) s
  let s := (List.range 4).foldl (fun s c =>
    if h : c < 4 then State.recoverWriter j.writers[c] s c else s) s
  let s := s.dmaHeld.foldl (fun s ch =>
    ((s.setDmaState ch 4).putBit (Reg.QDM_CH_CTL ch) 0 true).putBit (Reg.QDM_CH_CTL ch) 1 true) s
  let s := { s with queues := j.queues, pools := j.pools, fab := { s.fab with
    tx := mergeTx j.tx s.fab.tx
    rx := j.rx ++ s.fab.rx.filter fun (x : E2eRx) => !(j.rx.any fun y => y.uid == x.uid && y.vc == x.vc) } }
  let s := s.wrN Reg.QDM_Q_ENABLED s.queues.length
  let s := (List.range 8).foldl State.showPooled s
  s.setBoot { s.boot with journal := none }

/-! ### The commands -/

/-- Power-up, or POR_N low (R549). -/
def execPor (s : State) : Host.Outcome State Fault Refusal := .next (s.coldBase 0)

/-- WRST_N low for at least 1 µs (R549). -/
def execWrst (s : State) : Host.Outcome State Fault Refusal := .next (s.warmReset 4)

/-- WARM := 1 (R549). -/
def execWarmReset (s : State) : Host.Outcome State Fault Refusal := .next (s.warmReset 5)

/-- COLD := 1 (R549). -/
def execColdReset (s : State) : Host.Outcome State Fault Refusal := .next (s.coldReset 1)

/-- QUIESCE_MAX lies outside 10 to 10,000, or LOG2 of the reset journal outside 26 to 30 (R555, R609). -/
def State.quiesceUndefined (s : State) : Bool :=
  let n := s.fld Reg.MGT_QUIESCE 15 0
  let l := s.fld Reg.MGT_JRN_AREA 5 0
  decide (n < 10 ∨ 10000 < n ∨ l < 26 ∨ 30 < l)

/-- Quiescing completes, or reaches QUIESCE_MAX with steps unfinished, those of `left` (R550): step 3 has not finished
while a channel is DRAINING. -/
def execQuiesceEnd (left : BitVec 6) (s : State) : Host.Outcome State Fault Refusal :=
  let late := s.elapsed s.boot.since (usec (s.fld Reg.MGT_QUIESCE 15 0))
  let paused := (List.range 128).all fun ch => s.dmaState ch != 3
  if s.quiesces ∧ s.quiesceUndefined then .fault (.undefinedOutcome 609)
  else .next (
    if s.quiesces ∧ (left = 0 ∨ late) ∧ (paused ∨ left.getLsbD 2) then s.quiesced left.toNat
    else s)

/-- REPLAY := 1 (R552). -/
def execReplayStart (who : Fin 8) (s : State) : Host.Outcome State Fault Refusal :=
  .next (
    match s.boot.journal with
    | some j =>
      if s.bit Reg.MGT_RST_STS 10 ∧ s.memState = 4 then s.replay j
      else s.flag who Reg.MGT_RST_CTL .ignored
    | none => s.flag who Reg.MGT_RST_CTL .ignored)

/-- Replay ends (R552). -/
def execMgtReplayDone (s : State) : Host.Outcome State Fault Refusal :=
  .next (
    if s.bit Reg.MGT_RST_STS 10 ∧ s.boot.journal = none then
      let s := (s.putBit Reg.MGT_RST_STS 10 false).putBit Reg.MGT_RST_STS 3 true
      let s := s.raise 9 (s.rdN Reg.MGT_WARM_COUNT)
      let left := s.fld Reg.MGT_RST_STS 9 4
      if left = 0 then s else s.raise 10 left
    else s)

/-- KICK := 1 (R553). -/
def execWdogKick (s : State) : Host.Outcome State Fault Refusal :=
  .next (s.setBoot { s.boot with wdogAt := s.clk.up })

/-- The watchdog is held in DOZE and below (R563). -/
def State.wdogHeld (s : State) : Bool := s.bit Reg.PWR_CTL 6 && decide (2 ≤ s.power)

/-- WDOG_MS pass without a kick (R553, R563). (DEDUCED, log entry 49.) -/
def execWdogExpiry (s : State) : Host.Outcome State Fault Refusal :=
  let ms := s.fld Reg.MGT_WDOG 15 0
  .next (
    if ms ≠ 0 ∧ !s.wdogHeld ∧ s.overdue s.boot.wdogAt (msec ms) then
      let s := s.setBoot { s.boot with wdogAt := s.clk.up }
      if s.bit Reg.MGT_WDOG 16 then s.coldReset 2 else s.warmReset 6
    else s)

end Sys2Proof.Machine
end

