-- ==== Sys2Proof/Machine/Power.lean ====
section
/-! DEFINITION. The power ladder (R556-R560): entry and exit steps, rails, wake causes; and the PMBus
master (R562). -/

namespace Sys2Proof.Machine

/-! ### What each state loses -/

/-- Slots of the sequencer stores (R199). -/
def inSeqStore (i : Nat) : Bool := decide (0x4280 ≤ i ∧ i < 0x42F8)

/-- The entries that show what a sequencer itself holds, lost with its stores (R199): its status, address,
counters, timers, latch, taken trigger, signals, trigger sequence number and faults. -/
def seqLive (k : Nat) : Bool :=
  let i := slotIndex k
  let u := slotSub k
  decide (0x4200 ≤ i ∧ i < 0x4250 ∧ i % 16 = 0 ∧
    (u = 2 ∨ u = 3 ∨ (4 ≤ u ∧ u ≤ 7) ∨ u = 12 ∨ (14 ≤ u ∧ u ≤ 17) ∨ u = 20 ∨ u = 21 ∨ u = 23))

/-- Colour tables and shadows of the scan-out (R270). -/
def inScnShadow (k : Nat) : Bool :=
  decide (0x4502 ≤ slotIndex k ∧ slotIndex k ≤ 0x4505) ||
    (findRow k).any fun r => ["SCN_BG", "SCN_PLOT_RECT", "SCN_DENS_CFG", "SCN_OVL_ADDR", "SCN_OVL_CFG",
      "SCN_OVL_RECT", "SCN_TRACE", "SCN_TRACE_BUF"].contains r.name

/-- The ENABLE entries that read 0 after BANKED (R129, R249, R270, R337, R356, R372). -/
def lostEnables : List Nat :=
  (List.range 8).map Reg.SPX_RES_CTL ++ (List.range 4).map Reg.CAN_CTL ++ (List.range 4).map Reg.SPG_CTL ++
    [Reg.SCN_CTL, Reg.CCS_WP_CTL] ++ (List.range 64).map Reg.TIM_CTL ++ (List.range 20).map supCtl ++
    (List.range 16).map Reg.CMP_MON_CTL

/-- Blocks whose ENABLE is lost are no longer held by a parity stop (R513). -/
def State.lostStops (s : State) : State :=
  { s with mgt := { s.mgt with stopped := s.mgt.stopped.filter fun k => !lostEnables.contains k } }

/-- What SRAM outside segments 112 to 127 held is lost: the spectral engine (R129), Canopy and the
spectrogram writers (R249), the sequencers (R199), the scan-out (R270), the Lantern cores (R308), the TIMU
(R337), the scheduler (R356), the converters and monitors (R372) and the feeds. (DEDUCED, log entry 51.) -/
def State.sramLost (s : State) : State :=
  let s := (List.range 8).foldl (fun s r =>
    let s := ((s.putBit (Reg.SPX_RES_CTL r) 0 false).putBit (Reg.SPX_RES_STS r) 0 false).putBit
      (Reg.SPX_RES_STS r) 2 false
    let s := s.putBit (Reg.SPX_RES_STS r) 1 false
    (s.wrN (Reg.SPX_ALLOC r) 0).setRes r default) s
  let s := s.wr Reg.SPX_POOL (regDefault Reg.SPX_POOL)
  let s := (List.range 4).foldl (fun s c =>
    let s := ((s.canDisable c).setCan c default).spgDisable c |>.setSpg c default
    s.setFld (Reg.CAN_STS c) 5 1 0) s
  let s := (List.range 5).foldl (fun s q =>
    ((s.putBit (Reg.SEQ_CTL q) 0 false).setFld (Reg.SEQ_REQ q) 3 0 0).setSeq q default) s
  let lost (k : Nat) : Bool := inSeqStore (slotIndex k) || inScnShadow k || seqLive k
  let s := { s with regs := Sparse.restrict (fun k => !lost k) s.regs,
                    feeds := Vector.replicate 16 default }
  let s := s.lostStops.glLocked false
  let s := if s.bit Reg.SCN_STS 2 then s.raise 390 else s
  let s := (s.putBit Reg.SCN_CTL 0 false).setFld Reg.SCN_STS 5 0 0
  let s := s.setScn { Scn.off with hpd := s.scn.hpd }
  s.lntLose.timLose.supLose.wpLose

/-- TIM_S_PUB and TIM_S_REL keep their values in every state (R337). -/
def timPointer (k : Nat) : Bool :=
  (findRow k).any fun r => r.name == "TIM_S_PUB" || r.name == "TIM_S_REL"

/-- Only the management island and MRAM remain powered (R556). (DEDUCED, log entry 51.) -/
def State.islandLeft (s : State) : State :=
  let keep := fun k => islandIndex (slotIndex k) || inProtection k || timPointer k
  (s.island keep).islandOnly keep

/-! ### Entry steps (R558) -/

/-- Channels that run or are IDLE pause for the device itself (R424). -/
def State.dmaRest (s : State) : State :=
  (List.range 128).foldl (fun s ch =>
    if s.dmaState ch = 1 ∨ s.dmaState ch = 2 then
      (s.setDma ch { s.dmaChan ch with devPaused := true }).dmaPause ch
    else s) s

/-- No channel is DRAINING. -/
def State.dmaPaused (s : State) : Bool := (List.range 128).all fun ch => s.dmaState ch != 3

/-- BANKED step 1 has GDDR7 leave self-refresh, because DOZE was entered without its step 5 (R558). -/
def State.bankedFlush (s : State) : Bool := !s.pwr.flushed && s.memState == 5 && s.bit Reg.MEM_CTL 0

/-- What begins with a step on the way down. (DEDUCED, log entry 51.) -/
def State.stepBegins (s : State) : State :=
  let s := { s with pwr := { s.pwr with since := s.clk.up } }
  match s.pwr.into, s.pwr.step with
  | 1, 2 => s.scnRestBegins
  | 1, 3 => s.dmaRest
  | 2, 1 => ((List.range 4).foldl State.powerCloseWriter s).dmaRest
  | 2, 2 => s.timDrainAll
  | 2, 3 => (List.range 4).foldl State.drvStop s
  | 3, 1 => if s.bankedFlush then s.pllStart 4 else s
  | _, _ => s

/-- A step on the way down can end: decisions evaluated have been issued (R166), channels have paused (R424), GDDR7 has
left self-refresh where BANKED step 1 writes queue contexts (R558),
every record is published (R224), every stamp FIFO is empty (R337), the panel has stored its frame (R270), drive sets have stopped (R451), and 10 µs have passed between PS_EN1 and PS_EN0. -/
def State.stepMayEnd (s : State) : Bool :=
  match s.pwr.into, s.pwr.step with
  | 1, 1 => (List.range 4).all fun c =>
      (s.tch c).pend.isEmpty && (s.tch c).waiting.all fun k => later k.cause.t s.time
  | 1, 2 => !s.scnEntering
  | 1, 3 => s.dmaPaused
  | 2, 1 => s.dmaPaused && (List.range 4).all fun c => (s.writer c).caps.isEmpty
  | 2, 2 => (List.range 128).all fun n =>
      (s.tstream (n / 2) (n % 2)).fifo.isEmpty && (s.tstream (n / 2) (n % 2)).batch.isEmpty
  | 2, 3 => (List.range 4).all fun x => s.dState x != 2 && s.dState x != 3
  | 3, 1 => !s.bankedFlush
  | 4, 2 => s.elapsed s.pwr.since (usec 10)
  | _, _ => true

/-- DOZE step 5: queue live state goes to the contexts (R424); DMA state and held tasks stand in the
reset journal, which keeps them through BANKED. -/
def State.flush (s : State) : State :=
  let s := s.queuesBack
  { s with pwr := { s.pwr with flushed := true } }

/-- Channels are PAUSED on exit from BANKED (R424). -/
def State.dmaKept (s : State) : State :=
  s.dmaHeld.foldl (fun s ch =>
    ((s.setDmaState ch 4).putBit (Reg.QDM_CH_CTL ch) 1 true).setDma ch
      { s.dmaChan ch with devPaused := false }) s

/-- Every lane goes down (R70, R558). -/
def State.lanesRest (s : State) : State :=
  (List.range 4).foldl (fun s g => if s.laneState g = 0 then s else s.laneOff g) s

/-- What a step on the way down does by its end. Outside causes that fall inside IDLE are not evaluated
(R166). -/
def State.stepDown (s : State) : State :=
  match s.pwr.into, s.pwr.step with
  | 1, 1 => (List.range 4).foldl (fun s c => s.setTch c { s.tch c with waiting := [], restAt := some s.time, restTo := none }) s
  | 1, 2 => s.scnPowerDown
  | 1, 4 => s.timIdle
  | 2, 2 => (List.range 4).foldl State.spgRest s
  | 2, 4 =>
    ((List.range 4).foldl State.linkDown s.fabRest.lanesRest).scnDoze
  | 2, 5 => if 2 < s.pwr.target then s.flush else { s with pwr := { s.pwr with flushed := false } }
  | 2, 6 => s.memRest
  | 2, 7 => ((List.range 6).foldl (fun s k => s.pllSet k 0) s.supSleep.ccsPower).clockGo
  | 3, 1 => if s.pwr.flushed then s else s.flush.memRest.pllSet 4 0
  | 3, 2 => s.sramLost.dmaKept
  | 3, 3 => s.setRails (s.pwr.en &&& 3)
  | 4, 1 => (s.setRails (s.pwr.en &&& 5)).memLose
  | 4, 2 => (s.setRails 0).islandLeft
  | _, _ => s

/-! ### Exit steps: the entry steps undone, in reverse order (R556, R558, R559) -/

/-- The scan-out uses the PIX clock (R270). -/
def State.scnUses (s : State) : Bool := s.bit Reg.SCN_CTL 0 || s.bit Reg.SCN_STS 0

/-- A step on the way up can end: power-good inputs have asserted, and SYS, FFT, FRONT and DSP are
locked, PIX where the scan-out uses it (R270), and DRAM where GDDR7 leaves self-refresh (R396). -/
def State.undoMayEnd (s : State) : Bool :=
  s.pwr.pgWait == 0 && match s.pwr.into, s.pwr.step with
    | 2, 7 => s.coreLocked && (s.pllLocked 5 || !s.scnUses)
    | 2, 6 => s.pllLocked 4 || !(s.memState == 5 && s.bit Reg.MEM_CTL 0)
    | _, _ => true

/-- A unit of type 1 to 5 is UNKNOWN on exit from IDLE (R166). -/
def State.unitsUnknown (s : State) : State :=
  (List.range 32).foldl (fun s n =>
    let ty := s.unitType (n / 8) (n % 8)
    if 1 ≤ ty ∧ ty ≤ 5 then s.unitUnknown (n / 8) (n % 8) else s) s

/-- The stretch in which the units were not clocked ends (R166). -/
def State.restEnds (s : State) : State :=
  (List.range 4).foldl (fun s c => s.setTch c { s.tch c with restTo := some s.time }) s

/-- The provisional store is empty on exit from IDLE: its entries count as expired (R166). -/
def State.provEmpty (s : State) : State :=
  let n := s.prov
  n.foldl (fun s _ => s.provDiscard Reg.TRG_PROV_EXPIRED) { s with prov := [] }

/-- Groups with ENABLE = 1 restart from POWER (R70). -/
def State.lanesWake (s : State) : State :=
  (List.range 4).foldl (fun s g =>
    let on := s.bit (Reg.LNK_GRP_CTL (s.leader g)) 0 && !s.parityHeld g
    if on && s.laneState g == 0 then s.lanePower g else s) s

/-- What a step on the way up does by its end; `levels` holds each comparator input's place in its
hysteresis band (R314). -/
def State.stepUp' (s : State) (levels : List (Fin 3)) : State :=
  match s.pwr.into, s.pwr.step with
  | 2, 7 => ({ s with ccs := { s.ccs with cameAt := s.clk.up } } : State).supWakeUp
  | 2, 6 => s.memResume
  | 2, 4 => ((List.range 8).foldl State.portRetest s.lanesWake).scnDozeLeft
  | 2, 3 => s.drvResume
  | 2, 2 => s.cmpRestart levels
  | 1, 3 =>
    (List.range 128).foldl (fun s ch =>
      if (s.dmaChan ch).devPaused then
        let s := s.setDma ch { s.dmaChan ch with devPaused := false }
        if s.dmaHolds ch then s else s.dmaResume ch
      else s) s
  | 1, 2 => s.scnPowerUp
  | 1, 1 => s.unitsUnknown.provEmpty.restEnds
  | _, _ => s

/-! ### Movement (R557) -/

/-- Steps of the entry to a state. -/
def entrySteps : Nat → Nat
  | 1 => 4
  | 2 => 7
  | 3 => 3
  | 4 => 2
  | _ => 1

/-- Begins a movement, and its first step. (DEDUCED, log entry 51.) -/
def State.move (s : State) (target : Nat) : State :=
  let s := s.moveTo target
  if s.moving then (if s.pwr.down then s.stepBegins else s.undoBegins) else s

/-- PWR_WAKE_AT has been reached (R560). -/
def State.timerDue (s : State) : Bool := atOrAfter s.time (s.rdN Reg.PWR_WAKE_AT % timeMod)

/-- A timer wake whose time has passed wakes the device after the first state reached (R563). -/
def State.timerWake (s : State) : State :=
  if s.timerDue then s.wakeBy 2 3 1 4 else s

/-- A state is reached (R556, R557). (DEDUCED, log entry 51.) -/
def State.reached (s : State) (st : Nat) : State :=
  let s := if s.pwr.down then s.timerWake else s
  let down := s.pwr.down
  let s := (s.setFld Reg.PWR_STS 2 0 st).wr Reg.PWR_STATE_TS s.now.word
  let s := (s.bumpSat Reg.PWR_TRANSITIONS 32).raise 4 st
  let s := if down && st == 1 then s.seqsHold else if st = 0 then s.seqsGo.timWake else s
  let s := if down then s
    else
      let s := if st = 1 then s.setBoot { s.boot with wdogAt := s.clk.up } else s
      s.memResume
  let target := if down && s.pwr.woken then min st s.wakeTarget else s.pwr.target
  if target = st then
    let s := { s with pwr := { s.pwr with target := st, woken := false, go := none } }
    s.putBit Reg.PWR_STS 3 false
  else s.move target

/-- A step ends and the next begins, or the state is reached (R557, R558). A GO taken meanwhile replaces
the target. (DEDUCED, log entry 51.) -/
def State.stepEnds (s : State) (levels : List (Fin 3)) : State :=
  let s := if s.pwr.down then s.stepDown else s.stepUp' levels
  let s := { s with pwr := { s.pwr with target := s.pwr.go.getD s.pwr.target, go := none } }
  let k := s.pwr.step
  if s.pwr.down then
    if k < entrySteps s.pwr.into then
      ({ s with pwr := { s.pwr with step := k + 1 } } : State).stepBegins
    else s.reached s.pwr.into
  else if 1 < k then ({ s with pwr := { s.pwr with step := k - 1 } } : State).undoBegins
  else s.reached (s.pwr.into - 1)

/-- Resuming would hand over a chain of no descriptors (R427). -/
def State.powerResumeBad (s : State) : Bool :=
  s.moving && !s.pwr.down && s.pwr.into == 1 && s.pwr.step == 3 && s.undoMayEnd &&
    (List.range 128).any fun ch => (s.dmaChan ch).devPaused && !s.bit (Reg.QDM_CH_CTL ch) 1 &&
      s.resumeBad ch

/-- The step that ends reaches a state on the way down, where a timer wake with a WAKE_TARGET outside 0 to 2 takes effect
(R563, R564, R609). -/
def State.timerWakeBad (s : State) : Bool :=
  s.moving && s.pwr.down && !s.inReset && s.stepMayEnd && s.pwr.step == entrySteps s.pwr.into && s.timerDue &&
    s.wakeUndefined 2 1 4

/-! ### The commands -/

/-- GO := 1 (R557, R563): TARGET is a state; 6 and 7 name none. -/
def execPwrGo (who : Fin 8) (s : State) : Host.Outcome State Fault Refusal :=
  let t := s.fld Reg.PWR_CTL 2 0
  if s.inReset ∨ s.stage ≠ 4 then .next (s.flag who Reg.PWR_CTL .ignored)
  else if 6 ≤ t then .fault (.undefinedOutcome 609)
  else .next (
    if s.moving then { s with pwr := { s.pwr with go := some t } }
    else
      let own := t == 0 && (s.power == 1 || s.power == 2)
      let s := if own then (s.setFld Reg.PWR_STS 6 4 7).raise 5 7 else s
      s.move t)

/-- The step in progress ends (R557, R558): `levels` holds, where comparators restart, the place of each
input in its hysteresis band. -/
def execPowerStepEnd (levels : List (Fin 3)) (s : State) : Host.Outcome State Fault Refusal :=
  if s.powerResumeBad ∨ s.timerWakeBad then .fault (.undefinedOutcome 609)
  else .next (
    if s.moving ∧ !s.inReset ∧ (if s.pwr.down then s.stepMayEnd else s.undoMayEnd) = true then
      s.stepEnds levels
    else s)

/-- A power-good input rises (R559, R588). -/
def execPsPgAssert (k : Fin 3) (s : State) : Host.Outcome State Fault Refusal :=
  .next ({ s with pwr := { s.pwr with pgHigh := s.pwr.pgHigh ||| 2 ^ k.val } } : State).pgSample

/-- A power-good input's level after it has fallen. -/
def State.pgFalls (s : State) (k : Nat) : State :=
  { s with pwr := { s.pwr with pgHigh := s.pwr.pgHigh &&& (7 - 2 ^ k) } }

/-- A power fault of a rail (R559): its power-good input falls while its enable is asserted, or does not
assert within PWR_PG_TIMEOUT; one outside 10 to 10,000 µs gives no outcome (R609). -/
def execPwrFault (k : Fin 3) (falls : Bool) (s : State) : Host.Outcome State Fault Refusal :=
  let us := s.rdN Reg.PWR_PG_TIMEOUT
  let awaited := s.pwr.pgWait.testBit k
  if !falls ∧ awaited ∧ (us < 10 ∨ 10000 < us) then .fault (.undefinedOutcome 609)
  else .next (
    if (falls ∧ s.pwr.en.testBit k ∧ s.pwr.pg.testBit k) ∨ (awaited ∧ s.elapsed s.pwr.pgSince (usec us)) then
      let s := if falls then s.pgFalls k else s
      ((s.coldReset 3).journalFree 11 k).raise 6 k
    else if falls then s.pgFalls k else s)

/-- WAKE_N low for at least 1 µs (R560). -/
def execWakeN (s : State) : Host.Outcome State Fault Refusal :=
  if s.wakeUndefined 0 1 5 then .fault (.undefinedOutcome 609) else .next (s.wakeBy 0 1 1 5)

/-- Device time reaches PWR_WAKE_AT (R560). -/
def execWakeAt (s : State) : Host.Outcome State Fault Refusal :=
  if s.timerDue ∧ s.wakeUndefined 2 1 4 then .fault (.undefinedOutcome 609) else .next s.timerWake

/-- A RAP datagram to port 47390 of the device's address arrives in a low state (R560). -/
def execEthWake (s : State) : Host.Outcome State Fault Refusal :=
  if s.wakeUndefined 1 1 5 then .fault (.undefinedOutcome 609) else .next (s.wakeBy 1 2 1 5)

/-! ### PMBus (R562, R599) -/

/-- The rail is present. -/
def State.railOn (s : State) (k : Nat) : Bool := s.bit (Reg.PWR_RAIL_CFG k) 15

/-- PMBus runs: a rail is present, in RUN, IDLE or DOZE. -/
def State.pmbusRuns (s : State) : Bool := (List.range 8).any s.railOn && decide (s.power ≤ 2)

/-- PWR_PMBUS for a rail. (PRESUMED, log entry 52.) -/
def State.railAlert (s : State) (k : Nat) : State := (s.putBit Reg.PWR_STS 7 true).raise 7 k

/-- A PMBus transaction: sent once, and up to three times again while it is not acknowledged; a fourth failure raises
PWR_PMBUS (R562). The answer says whether it succeeded. (PRESUMED, log entry 52.) -/
def State.railSend (s : State) (k code v : Nat) : State × Bool :=
  let n := Config.pmbusFails s.draw.1
  let s := (List.range (min 4 (n + 1))).foldl (fun s _ => s.send (.pmbus k code v)) s.draw.2
  if 4 ≤ n then (s.railAlert k, false) else (s, true)

/-- PAGE is written when the rail is paged. -/
def State.railPage (s : State) (k : Nat) : State :=
  let page := s.fld (Reg.PWR_RAIL_CFG k) 14 7
  if page = 0xFF then s else (s.railSend k 0x00 page).1

/-- VOUT_COMMAND takes PWR_RAIL_VSET, limited to VMIN and VMAX (R562). (PRESUMED, log entry 52.) -/
def State.railCommand (s : State) (k : Nat) : State :=
  let mv := s.fld (Reg.PWR_RAIL_VSET k) 15 0
  let to' := max (s.fld (Reg.PWR_RAIL_CFG k) 31 16) (min (s.fld (Reg.PWR_RAIL_CFG k) 47 32) mv)
  let s := if to' = mv then s else s.putBit (Reg.PWR_RAIL_VSET k) 16 true
  ((s.railPage k).railSend k 0x21 to').1

/-- VOUT_MODE is read (R562). (PRESUMED, log entry 52.) -/
def State.railMode (s : State) (k : Nat) : State :=
  let r := (s.railPage k).railSend k 0x20 0
  if h : r.2 = true ∧ k < 8 then
    let f := r.1.draw
    { f.2 with pwr := { f.2.pwr with vout := f.2.pwr.vout.set k (Config.voutMode f.1) h.2 } }
  else r.1

/-- The PMBus master reads VOUT_MODE (`true`) or writes VOUT_COMMAND of a rail that is present; below DOZE it waits
(R562). -/
def State.railWork (s : State) (e : Nat × Bool) : State :=
  if !s.railOn e.1 then s
  else if 2 < s.power then { s with pwr := { s.pwr with railDue := s.pwr.railDue ++ [e] } }
  else if e.2 then s.railMode e.1
  else s.railCommand e.1

/-- What waited below DOZE is carried out. -/
def State.railsDue (s : State) : State :=
  if 2 < s.power ∨ s.pwr.railDue = [] then s
  else s.pwr.railDue.foldl State.railWork { s with pwr := { s.pwr with railDue := [] } }

/-- A change of PWR_RAIL_VSET (R562). -/
def State.railSet (s : State) (k mv : Nat) : State := (s.setFld (Reg.PWR_RAIL_VSET k) 15 0 mv).railWork (k, false)

/-- A rail becomes present: VOUT_MODE is read once per enable (R562). -/
def State.railEnabled (s : State) (k : Nat) : State := s.railWork (k, true)

/-- A STATUS_WORD is read: any bit but NONE OF THE ABOVE raises PWR_PMBUS. (PRESUMED, log entry 52.) -/
def State.railStatus (s : State) (k w : Nat) : State :=
  let s := s.setFld (Reg.PWR_RAIL_TELEM k) 63 48 w
  if w % 2 ^ 16 / 2 = 0 then s else s.railAlert k

/-- What a poll of a rail reads: VOUT in mV, IOUT in 10 mA, temperature in 0.1 degrees and
STATUS_WORD; none where a transaction failed four times. (PRESUMED, log entry 52.) -/
def State.railRead (s : State) (k : Nat) : Option (Nat × Nat × Int × Nat) → State
  | none => s.railAlert k
  | some (v, i, t, w) =>
    let s := (s.setFld (Reg.PWR_RAIL_TELEM k) 15 0 v).setFld (Reg.PWR_RAIL_TELEM k) 31 16 i
    (s.setFld (Reg.PWR_RAIL_TELEM k) 47 32 (ofSigned 16 t)).railStatus k w

/-- Every POLL_MS the master reads each rail (R562); POLL_MS is at least 1 (R564, R609). (PRESUMED, log entry 52.) -/
def execPmbusPoll (rails : List (Option (Nat × Nat × Int × Nat))) (s : State) :
    Host.Outcome State Fault Refusal :=
  let ms := s.fld Reg.PWR_PMBUS_CFG 15 8
  if s.pmbusRuns ∧ ms = 0 then .fault (.undefinedOutcome 609)
  else .next (
    let due : Bool := match s.boot.pollAt with
      | some t => s.elapsed t (msec ms)
      | none => true
    if s.pmbusRuns && due then
      let s := s.setBoot { s.boot with pollAt := some s.clk.up }
      (List.range 8).foldl (fun s k =>
        if s.railOn k then
          let s := [0x8B, 0x8C, 0x8D, 0x79].foldl (fun s c => s.send (.pmbus k c 0)) (s.railPage k)
          s.railRead k (rails.getD k none)
        else s) s
    else s)

/-- PMB_ALERT_N low: STATUS_WORD of every present rail is read at once (R599). (PRESUMED, log entry 52.) -/
def execPmbAlert (status : List (Option (BitVec 16))) (s : State) : Host.Outcome State Fault Refusal :=
  .next (
    if s.pmbusRuns then
      (List.range 8).foldl (fun s k =>
        if s.railOn k then
          let s := (s.railPage k).send (.pmbus k 0x79 0)
          match status.getD k none with
          | some w => s.railStatus k w.toNat
          | none => s.railAlert k
        else s) s
    else s)

end Sys2Proof.Machine
end

