-- ==== Sys2Proof/Machine/Health.lean ====
section
/-! DEFINITION. The calibration supervisor (R566-R571) and the ageing monitor (R572-R576). -/

namespace Sys2Proof.Machine

/-- Replaces the health state. -/
def State.setHlt (s : State) (h : Hlt) : State := { s with hlt := h }

/-! ### Due calibrations (R567, R568) -/

/-- A calibration becomes due. (DEDUCED, log entry 54.) -/
def State.calMakeDue (s : State) (id : Nat) : State :=
  if s.calDue id then s
  else
    let s := s.setHlt { s.hlt with due := s.hlt.due ++ [(id, s.clk.up)] }
    (if s.calRunning id then s else s.setCalState id 1).calShow

/-- A calibration with AUTO = 1 has a cause to be due. -/
def State.calCause (s : State) (id : Nat) : Bool :=
  let moved := (s.sensor (calSensor id) - s.rdI (Reg.CAL_ID_TEMP id) 24).natAbs
  decide (s.fld Reg.CAL_CFG 7 0 < moved) || !s.hlt.passed.contains id ||
    s.bit (Reg.CAL_ID_STS id) 3 ||
    (decide (id < 64) && s.hlt.trimAt.any fun t => t.1 == id && t.2 != s.rdN (Reg.TIM_TRIM id))

/-- The channel of an interleave calibration. -/
def calChannel (id : Nat) : Nat := 2 * (id - 64)

/-- The resource of a calibration is free (R568). Runs need clocked datapaths: RUN (R575). -/
def State.calFree (s : State) (id : Nat) : Bool :=
  s.power == 0 && !s.moving &&
  (if id < 64 then s.pllLocked 0 && s.timOn id && !s.bit (Reg.TIM_STS id) 1
  else if id < 66 then
    let c := calChannel id
    s.bit (Reg.CND_STS c) 0 && s.ilOn c && !s.bit (Reg.CND_STS c) 8
  else if id < 82 then
    (List.range 16).all fun u => !(s.supConvs u).contains (id - 66) || decide (s.supState u ≤ 1)
  else decide (s.supState (16 + (id - 82)) ≤ 1))

/-- The block of a run has stopped it (R569). -/
def State.calStopped (s : State) (r : CalRun) : Bool :=
  if r.id < 64 then !s.bit (Reg.TIM_STS r.id) 1 && (s.tim r.id).tableEnd.isNone
  else s.power != 0 ||
    (decide (r.id < 66) && (!s.ilOn (calChannel r.id) || !s.bit (Reg.CND_STS (calChannel r.id)) 0))

/-- What waited for a converter that a run held goes ahead. -/
def State.calFreed (s : State) (id : Nat) : State :=
  if id < 66 then s
  else if id < 82 then
    (List.range 16).foldl (fun s u =>
      if (s.supConvs u).contains (id - 66) then s.supFreed u else s) s
  else s.supFreed (16 + (id - 82))

/-- A run leaves without a result: nothing is counted, and the calibration stays due (R569). -/
def State.calAbandon (s : State) (id : Nat) : State := (s.calLeaves id).calFreed id

/-- Stopped runs leave. -/
def State.calSweep (s : State) : State :=
  (s.hlt.runs.filter s.calStopped).foldl (fun s r => s.calAbandon r.id) s

/-- Starts a calibration that is due (R568), or marks it as WAITING. -/
def State.calTry (s : State) (id : Nat) : State :=
  if s.calDue id && !s.calRunning id && !(s.hlt.retry.any fun r => r.1 == id) then
    if !s.calFree id ∨ s.fld Reg.CAL_CFG 15 8 ≤ s.hlt.runs.length then s.setCalState id 3
    else if id < 64 then s.inlStart id
    else s.calBegin id
  else s

/-- The supervisor starts due calibrations in ID order (R568). (DEDUCED, log entry 54.) -/
def State.calStart (s : State) : State :=
  let s := s.calSweep
  if s.bit Reg.CAL_CTL 0 && decide (s.power ≤ 1) then ((List.range calIds).foldl State.calTry s).calShow
  else s.calShow

/-- A run would start with PARALLEL outside 1 to 16, or a table run with INL_LOG2 outside 16 to 24 (R578, R609). -/
def State.calUndefined (s : State) : Bool :=
  let n := s.fld Reg.CAL_CFG 15 8
  let inl := s.fld Reg.TIM_INL_CFG 4 0
  let may := fun id => s.calDue id && s.calFree id
  s.bit Reg.CAL_CTL 0 &&
    ((decide (inl < 16 ∨ 24 < inl) && (List.range 64).any may) ||
      (decide (n < 1 ∨ 16 < n) && (List.range calIds).any may))

/-- The supervisor starts what it can. -/
def State.calGo (s : State) : Host.Outcome State Fault Refusal :=
  if s.calUndefined then .fault (.undefinedOutcome 609) else .next s.calStart

/-! ### Stale and substituted values (R570) -/

/-- STALE of an ID changes. -/
def State.setStale (s : State) (id : Nat) (on : Bool) : State :=
  let was := s.bit (Reg.CAL_ID_STS id) 2
  if was = on then s
  else
    let s := (s.putBit (Reg.CAL_ID_STS id) 2 on).journal 6 id (b2n was) (b2n on)
    let s := (s.raise 14 (id + b2n on * 256)).calShow
    if id < 64 ∧ s.bit (Reg.TIM_STS id) 2 ≠ on then
      let n : TimNote := ⟨9, s.now.word, b2n on⟩
      [0, 1].foldl (fun s e => if s.timWrites id e then s.timNote id e n else s)
        (s.putBit (Reg.TIM_STS id) 2 on)
    else s

/-! ### The ends of a run (R566, R569, R571) -/

/-- A run ends: it is no longer in progress, and its resource is free. -/
def State.calEnded (s : State) (id : Nat) : State := (s.calLeaves id).calFreed id

/-- A run passes: the sensor reading when it began, and the time at which its values take effect. -/
def State.calPass (s : State) (id : Nat) (temp : Int) (at' : BitVec 64) : State :=
  let h := s.hlt
  let s := s.setHlt { h with
    due := h.due.filter fun d => d.1 != id, retry := h.retry.filter fun d => d.1 != id
    passed := id :: h.passed.filter fun x => x != id, stored := id :: h.stored.filter fun x => x != id
    trimAt := if id < 64 then (id, s.rdN (Reg.TIM_TRIM id)) :: h.trimAt.filter fun t => t.1 != id
      else h.trimAt }
  let s := (s.calEnded id).bump (Reg.CAL_ID_COUNT id) 32
  let s := (s.wr (Reg.CAL_ID_LAST_TS id) at').wr (Reg.CAL_ID_LAST_CC id) (s.ccAt (Stamp.ofWord at').t)
  let s := (s.wrI (Reg.CAL_ID_TEMP id) 24 temp).raise 12 id
  ((s.setStale id false).putBit (Reg.CAL_ID_STS id) 3 false).calShow

/-- A run fails: the old values stay, and the calibration stays due for a retry. -/
def State.calFail (s : State) (id : Nat) : State :=
  let s := s.calMakeDue id
  let s := s.setHlt { s.hlt with retry := (id, s.clk.up) :: s.hlt.retry.filter fun r => r.1 != id }
  let s := (s.calEnded id).bumpSat (Reg.CAL_ID_FAILS id) 32
  (((s.putBit (Reg.CAL_ID_STS id) 4 true).journalFree 5 id).raise 13 id).setStale id true

/-- Copies a table that has just been installed to the calibration store. -/
def State.storeTable (s : State) (i : Nat) : State :=
  let ks := (List.range 64).map (Reg.TIM_INL i)
  s.setHlt { s.hlt with
    tables := ks.map (fun k => (k, s.rd k)) ++ s.hlt.tables.filter fun e => !ks.contains e.1 }

/-- The estimates of an interleave calibration are plausible (R566). -/
def State.ilPlausible (s : State) (c : Nat) : Bool :=
  let lim := s.rd Reg.CAL_IL_LIM
  decide ((s.rdI (Reg.CND_IL_EST_OFS c) 24).natAbs ≤ getF lim 23 0) &&
    decide (((s.rdN (Reg.CND_IL_EST_GAIN c) : Int) - 2 ^ 23).natAbs ≤ getF lim 47 24) &&
    decide ((s.rdI (Reg.CND_IL_EST_SKEW c) 24).natAbs ≤ getF lim 63 48)

/-- New interleave values: OFS_O and CND_IL_GAIN, then COMMIT (R566); one that does not fit its entry is free.
(DESIGN CHOICE, log entry 67.) -/
def State.ilApply (s : State) (c : Nat) : State :=
  let f := s.draw
  let sum := s.rdI (Reg.CND_IL_OFS_O c) 24 + s.rdI (Reg.CND_IL_EST_OFS c) 24
  let est := s.rdN (Reg.CND_IL_EST_GAIN c)
  let quot := (rneDiv (s.fld (Reg.CND_IL_GAIN c) 23 0 * 2 ^ 23) est).toNat
  let ofs := if sum = sat24 sum then sum else (Config.ilOutside f.1 false).toInt
  let gain := if est ≠ 0 ∧ quot < 2 ^ 24 then quot else (Config.ilOutside f.1 true).toNat
  let s := if ofs = sum ∧ gain = quot then s else f.2
  let s := (s.wrI (Reg.CND_IL_OFS_O c) 24 ofs).wrN (Reg.CND_IL_GAIN c) gain
  let s := s.setHlt { s.hlt with il := s.hlt.il.set (c / 2) (ofs, gain) }
  s.cndCommit c

/-- Both reference codes of a converter are plausible (R566). -/
def State.convPlausible (s : State) (id : Nat) (lo hi : Int) : Bool :=
  let lim := s.rd Reg.CAL_CONV_LIM
  if id < 82 then
    decide ((lo - 400).natAbs ≤ getF lim 7 0 ∧ (hi - 3600).natAbs ≤ getF lim 7 0)
  else
    decide ((lo - 1638400).natAbs ≤ 256 * getF lim 31 8 ∧ (hi - 14745600).natAbs ≤ 256 * getF lim 31 8)

/-- The shortest time of a converter's run: 2 µs of start-up, or two integrations of 2,500,000 ticks. -/
def convRun (id : Nat) : Nat := if id < 82 then usec 2 else 5000000 * tick

/-- A run in progress ends; `lo` and `hi` are the codes of a converter's references. -/
def State.calRunEnd (s : State) (r : CalRun) (lo hi : Int) : State :=
  let id := r.id
  if s.calStopped r then s.calAbandon id
  else if id < 64 then
    match (s.tim id).tableEnd with
    | some true => (s.storeTable id).calPass id r.temp (s.rd (Reg.TIM_CAL_TS id))
    | some false => s.calFail id
    | none => s
  else if id < 66 then
    let c := calChannel id
    if s.rdN (Reg.CND_IL_EST_BLOCKS c) = r.blocks then s
    else if s.ilPlausible c then (s.ilApply c).calPass id r.temp s.now.word
    else s.calFail id
  else if s.elapsed r.since (convRun id) then
    if s.convPlausible id lo hi then
      let s := s.setHlt { s.hlt with
        trims := (id, lo, hi) :: s.hlt.trims.filter fun t => t.1 != id }
      s.calPass id r.temp s.now.word
    else s.calFail id
  else s

/-! ### Temperature (R575) -/

/-- TEMP_WARN is reached: HLT_TEMP, once until every sensor has fallen 2.0 degrees below it. -/
def State.tempWarn (s : State) : State :=
  let lim := s.rdI Reg.HLT_TEMP_WARN 24
  if s.hlt.hot then
    if (List.range 32).all fun n => decide (s.sensor n ≤ lim - 20) then s.setHlt { s.hlt with hot := false }
    else s
  else
    match (List.range 32).find? fun n => decide (lim ≤ s.sensor n) with
    | some n => ((s.setHlt { s.hlt with hot := true }).journalFree 8 n).raise 17 n
    | none => s

/-! ### Adjustments (R574) -/

/-- V₀ of rail RAIL (R573). (DEDUCED, log entry 54.) -/
def State.railV0 (s : State) : Nat := s.hlt.v0.getD (s.fld Reg.HLT_VOLT_CFG 26 24) 0

/-- VSET of rail RAIL less its V₀ (R579); 0 until the boot has set V₀. -/
def State.voltAdj (s : State) : Int :=
  if s.hlt.v0.isEmpty then 0 else (s.fld (Reg.PWR_RAIL_VSET (s.fld Reg.HLT_VOLT_CFG 26 24)) 15 0 : Int) - s.railV0

/-- Moves the voltage of rail RAIL one step up or down. -/
def State.voltStep (s : State) (up : Bool) : State :=
  let k := s.fld Reg.HLT_VOLT_CFG 26 24
  let v : Int := s.fld (Reg.PWR_RAIL_VSET k) 15 0
  let v0 : Int := s.railV0
  let lo := v0 - s.fld Reg.HLT_VOLT_CFG 63 48
  let hi := v0 + s.fld Reg.HLT_VOLT_CFG 47 32
  let st : Int := s.fld Reg.HLT_VOLT_CFG 23 16
  let new := if up then min hi (v + st) else max lo (v - st)
  let held := if up then decide (hi ≤ v) else decide (v ≤ lo)
  let s := if held then s
    else
      let s := s.setHlt { s.hlt with voltAt := some s.clk.up, slackAt := none }
      (s.railSet k (new.toNat % 65536)).adjusted 1 k v.toNat new.toNat
  if held || (if up then new == hi else new == lo) then s.atLimit 0 k !held else s

/-- The voltage adjustment after the replicas were read. (DEDUCED, log entry 54.) -/
def State.voltAdjust (s : State) (least : Int) : State :=
  let lim : Int := s.fld Reg.HLT_VOLT_CFG 15 0
  let high := decide (lim + 200 < least)
  let since := if high then some (s.hlt.slackAt.getD s.clk.up) else none
  let s := s.setHlt { s.hlt with slackAt := since }
  if s.adjusts 0 && decide (s.power ≤ 1) && s.sinceNote s.hlt.voltAt (msec 10000) then
    if least < lim then s.voltStep true
    else if high && s.elapsed (since.getD s.clk.up) (msec 60000) then s.voltStep false
    else s
  else s

/-- The lane status entry of a lane: J-lanes 0 to 47, then F-lanes. -/
def laneSts (j : Nat) : Nat := if j < 48 then Reg.LNK_LANE_STS j else Reg.FAB_LANE_STS (j - 48)

/-- The lane control entry. -/
def laneCtl (j : Nat) : Nat := if j < 48 then Reg.LNK_LANE_CTL j else Reg.FAB_LANE_CTL (j - 48)

/-- Raises a lane's adaptation target by one step, applied under R38. (DEDUCED, log entry 54.) -/
def State.eqAdjust (s : State) (j : Nat) : State :=
  let steps := s.fld (Reg.HLT_LANE j) 18 15
  let most := s.fld Reg.HLT_EQ_CFG 15 8
  let last := (s.hlt.eqAt.find? fun e => e.1 == j).map (·.2)
  if s.adjusts 1 && s.power == 0 && decide (s.fld (Reg.HLT_LANE j) 7 0 < s.fld Reg.HLT_EQ_CFG 7 0) &&
      s.sinceNote last (msec 10000) then
    if most ≤ steps then s.atLimit 1 j false
    else
      let s := s.setHlt { s.hlt with eqAt := (j, s.clk.up) :: s.hlt.eqAt.filter fun e => e.1 != j }
      let s := s.setFld (Reg.HLT_LANE j) 18 15 (steps + 1)
      let boost := s.fld (laneSts j) 9 5
      let s := if s.bit (laneCtl j) 13 then s
        else s.setFld (laneSts j) 9 5 (min (boost + 1) (s.fld (laneCtl j) 12 8))
      let s := s.adjusted 2 j steps (steps + 1)
      if steps + 1 = most then s.atLimit 1 j true else s
  else s

/-- TIM_TRIM moves one step toward a span of 4,096; a higher TRIM makes a higher span. (DEDUCED, log entry 54.) -/
def State.trimAdjust (s : State) (i : Nat) : State :=
  let span := toSigned 16 (s.rdN (Reg.TIM_REF_SPAN i))
  let lo := s.fld Reg.HLT_TRIM_CFG 7 0
  let hi := s.fld Reg.HLT_TRIM_CFG 15 8
  let v := s.fld (Reg.TIM_TRIM i) 7 0
  if decide (s.fld Reg.HLT_TRIM_CFG 23 16 < (span - 4096).natAbs) && !s.bit (Reg.TIM_STS i) 1 then
    let up := decide (span < 4096)
    let held := if up then decide (hi ≤ v) else decide (v ≤ lo)
    let new := if up then v + 1 else v - 1
    let s := if held then s
      else ((s.setFld (Reg.TIM_TRIM i) 7 0 new).adjusted 4 i v new).calMakeDue i
    if held || (if up then new == hi else new == lo) then s.atLimit 3 i !held else s
  else s

/-! ### Age (R573) -/

/-- exp of a rational `n / d`, in units of 2^-32. -/
def expQ (n : Int) (d : Nat) : Nat :=
  let r := floorDiv (n * 2 ^ 64) (256 * d)
  let terms := (List.range 16).foldl (fun (x : Int × Int) i =>
    let t := floorDiv (floorDiv (x.2 * r) (2 ^ 64)) (i + 1)
    (x.1 + t, t)) ((2 ^ 64 : Int), (2 ^ 64 : Int))
  let y := (List.range 8).foldl (fun (y : Int) _ => floorDiv (y * y) (2 ^ 64)) terms.1
  (floorDiv y (2 ^ 32)).toNat

/-- w of R573 in units of 2^-32 s, for a temperature in 0.1 degrees and voltages in mV. (DEDUCED, log entry 55.) -/
def ageStep (temp : Int) (v v0 : Nat) : Nat :=
  let t := 10 * temp + 27315
  if t ≤ 0 ∨ v0 = 0 then 0
  else expQ (7000000000 * (t - 35815)) (8617 * 35815 * t.toNat) * v ^ 3 / v0 ^ 3

/-- Writes the age to MRAM. -/
def State.ageStore (s : State) : State :=
  s.setHlt { s.hlt with ageCopy := some (s.rd Reg.HLT_AGE), ageSince := 0 }

/-- One second of age. (DEDUCED, log entry 55.) -/
def State.ageSecond (s : State) : State :=
  let hot := (List.range 32).foldl (fun m n => max m (s.sensor n)) (s.sensor 0)
  let v := s.fld (Reg.PWR_RAIL_TELEM (s.fld Reg.HLT_VOLT_CFG 26 24)) 15 0
  let f := s.draw
  let w := if s.railV0 = 0 then (Config.ageUnknown f.1).toNat else ageStep hot v s.railV0
  let s := if s.railV0 = 0 then f.2 else s
  let low := s.hlt.ageLow + w
  let secs := (s.fld Reg.HLT_AGE 39 0 + low / 2 ^ 32) % 2 ^ 40
  let was := s.ageMonths
  let months := secs / 2628000 % 2 ^ 16
  let s := s.wrN Reg.HLT_AGE (secs + months * 2 ^ 40)
  let s := s.setHlt { s.hlt with ageLow := low % 2 ^ 32, ageSince := s.hlt.ageSince + 1 }
  if months = was then (if 3600 ≤ s.hlt.ageSince then s.ageStore else s)
  else ((s.ageStore).journal 9 0 was months).raise 18 months

/-! ### The commands -/

/-- Every 1 ms the supervisor reads the sensors, marks calibrations due and starts free runs (R567,
R568, R575); TDELTA is at least 1 (R578, R609). -/
def execSensorRead (temps : List Int) (s : State) : Host.Outcome State Fault Refusal :=
  if s.power ≤ 1 ∧ s.sinceNote s.hlt.sensorAt (msec 1) then
    let s := s.setHlt { s.hlt with sensorAt := some s.clk.up }
    let s := (List.range 32).foldl (fun s n => s.wrI (Reg.HLT_TEMP n) 24 (temps.getD n 0)) s
    let s := s.tempWarn
    let on := s.bit Reg.CAL_CTL 0
    let s := if on then
        (List.range calIds).foldl (fun s id =>
          if s.bit (Reg.CAL_ID_CTL id) 0 && s.calCause id then s.calMakeDue id else s) s
      else s
    if on ∧ s.fld Reg.CAL_CFG 7 0 = 0 then .fault (.undefinedOutcome 609) else s.calGo
  else .next s

/-- RUN := 1 (R567). -/
def execCalRun (id : Fin 86) (s : State) : Host.Outcome State Fault Refusal := (s.calMakeDue id).calGo

/-- RUN_ALL := 1 (R567). -/
def execCalRunAll (s : State) : Host.Outcome State Fault Refusal :=
  ((List.range calIds).foldl State.calMakeDue s).calGo

/-- A calibration run ends (R569). -/
def execCalRunEnd (id : Fin 86) (lo hi : Int) (s : State) : Host.Outcome State Fault Refusal :=
  match s.hlt.runs.find? fun r => r.id == id.val with
  | some r => (s.calRunEnd r lo hi).calGo
  | none => .next s

/-- RETRY_MS after a failure (R569); the supervisor runs in RUN and IDLE (R575). -/
def execCalRetry (id : Fin 86) (s : State) : Host.Outcome State Fault Refusal :=
  match s.hlt.retry.find? fun r => r.1 == id.val with
  | some (_, t) =>
    if s.power ≤ 1 ∧ s.elapsed t (msec (s.rdN Reg.CAL_RETRY)) then
      (s.setHlt { s.hlt with retry := s.hlt.retry.filter fun r => r.1 != id.val }).calGo
    else .next s
  | none => .next s

/-- A calibration has been due for MAX_WAIT without a passing run (R568); the supervisor runs in RUN and IDLE
(R575). -/
def execCalMaxWait (id : Fin 86) (s : State) : Host.Outcome State Fault Refusal :=
  .next (
    match s.hlt.due.find? fun d => d.1 == id.val with
    | some (_, t) =>
      if s.power ≤ 1 ∧ s.elapsed t (msec (100 * s.fld Reg.CAL_CFG 31 16)) then s.setStale id true else s
    | none => s)

/-- Every 10 ms the monitor reads the replica slacks (R572, R574). -/
def execReplicaRead (slacks : List Int) (s : State) : Host.Outcome State Fault Refusal :=
  .next (
    if s.power ≤ 1 ∧ s.sinceNote s.hlt.replicaAt (msec 10) then
      let s := s.setHlt { s.hlt with replicaAt := some s.clk.up }
      let s := (List.range 64).foldl (fun s n => s.wrI (Reg.HLT_REPLICA n) 24 (slacks.getD n 0)) s
      let all := (List.range 64).map fun n => s.rdI (Reg.HLT_REPLICA n) 24
      s.voltAdjust (all.foldl min (s.rdI (Reg.HLT_REPLICA 0) 24))
    else s)

/-- A lane whose eye can be measured: in use by a group in RUN, or of a port that is UP (R572). -/
def State.laneRuns (s : State) (j : Nat) : Bool :=
  if j < 48 then s.laneState (j / 12) == 7 && (s.lanesUsed (j / 12)).contains j
  else s.fpUp ((j - 48) / 2)

/-- Every 100 ms one lane's eye is measured, at DWELL 2 (R572, R574); EQ_STEPS is at most 8 (R579, R609). -/
def execLaneEyePoll (height : BitVec 8) (width : BitVec 7) (s : State) :
    Host.Outcome State Fault Refusal :=
  if s.adjusts 1 ∧ 8 < s.fld Reg.HLT_EQ_CFG 15 8 then .fault (.undefinedOutcome 609)
  else .next (
    if s.power ≤ 1 ∧ s.sinceNote s.hlt.laneAt (msec 100) then
      match ((List.range 64).map fun n => (s.hlt.lane + n) % 64).find? s.laneRuns with
      | some j =>
        let s := s.setHlt { s.hlt with laneAt := some s.clk.up, lane := (j + 1) % 64 }
        let s := (s.setFld (Reg.HLT_LANE j) 7 0 height.toNat).setFld (Reg.HLT_LANE j) 14 8 width.toNat
        s.eqAdjust j
      | none => s.setHlt { s.hlt with laneAt := some s.clk.up }
    else s)

/-- Each second the age advances while PS_EN0 is asserted, and trims may step (R573, R574). -/
def execAgeTick (s : State) : Host.Outcome State Fault Refusal :=
  .next (
    if s.sinceNote s.hlt.ageAt (msec 1000) then
      let s := s.setHlt { s.hlt with ageAt := some s.clk.up }
      let s := if s.pwr.en.testBit 0 then s.ageSecond else s
      if s.adjusts 3 && s.power == 0 then (List.range 64).foldl State.trimAdjust s else s
    else s)

end Sys2Proof.Machine
end

