-- ==== Sys2Proof/Machine/Owners.lean ====
section
/-! DEFINITION. The owning block of each entry: when it is enabled, so that its CFG fields and RWD
entries keep their values (R507), and how a parity fault stops it (R513). -/

namespace Sys2Proof.Machine

/-- A lane group counts as enabled by the ENABLE of the group that leads it (R57, R62). (DEDUCED, log entry 11.) -/
def State.groupBusy (s : State) (g : Nat) : Bool := s.enableShown (Reg.LNK_GRP_CTL (s.leader g))

/-- The port is off: ROLE 0, or it would be a third endpoint (R430, R456). (DEDUCED, log entry 11.) -/
def State.portOff (s : State) (n : Nat) : Bool :=
  s.pciRole n == 0 || (s.pciRole n == 2 && !s.isEndpoint n)

/-- ENABLE or RUNNING of a block is 1. (DEDUCED, log entry 11.) -/
def State.runs (s : State) (ctl sts : Nat) : Bool := s.enableShown ctl || s.bit sts 0

/-- The block that owns the entry of an index and subindex is enabled, as its chapter defines it. Entries
that no block owns are free. (DEDUCED, log entry 11.) -/
def State.busyAt (s : State) (i u : Nat) : Bool :=
  let within (lo hi : Nat) : Bool := decide (lo ≤ i ∧ i ≤ hi)
  if within 0x1310 0x1317 then (List.range 8).any fun k => s.bit (Reg.PWR_RAIL_CFG k) 15
  else if i = 0x1500 then s.enableShown Reg.HLT_CTL
  else if i = 0x2000 then s.pllState 0 != 0
  else if i = 0x2100 then s.enableShown Reg.CCS_CTL
  else if i = 0x2101 || within 0x2180 0x219F then s.enableShown Reg.CCS_WP_CTL
  else if within 0x3000 0x302F then s.groupBusy ((i - 0x3000) / 12)
  else if within 0x3100 0x313F then
    let g := (i - 0x3100) / 16
    if i % 16 = 2 then s.bit (Reg.LNK_SPI_STS g) 0
    else if i % 16 = 3 then s.bit (Reg.LNK_I2C_STS g) 0
    else s.groupBusy g
  else if within 0x3200 0x323F then s.enableShown (Reg.CND_CTL ((i - 0x3200) / 16))
  else if within 0x4008 0x400F then s.bit (Reg.SPX_RES_STS (i - 0x4008)) 0
  else if within 0x4080 0x40FF then s.userBusy
  else if within 0x4100 0x413F then
    decide (i % 16 < 8) && s.enableShown (Reg.TRG_UNIT_CTL ((i - 0x4100) / 16) (i % 16))
  else if i = 0x4141 then decide (u < 4) && s.enableShown (Reg.TRG_OUT_CFG u)
  else if within 0x4200 0x424F then
    let q := (i - 0x4200) / 16
    s.runs (Reg.SEQ_CTL q) (Reg.SEQ_STS q)
  else if within 0x4280 0x42F7 then
    let q := (i - 0x4280) / 24
    s.runs (Reg.SEQ_CTL q) (Reg.SEQ_STS q)
  else if within 0x4300 0x433F then
    let c := (i - 0x4300) / 16
    s.runs (Reg.ACQ_CTL c) (Reg.ACQ_STS c)
  else if within 0x4400 0x443F then
    let c := (i - 0x4400) / 16
    s.enableShown (if i % 16 = 2 then Reg.SPG_CTL c else Reg.CAN_CTL c)
  else if within 0x4500 0x4505 then s.runs Reg.SCN_CTL Reg.SCN_STS
  else if within 0x5000 0x501F then s.lntState (i - 0x5000) != 0
  else if within 0x5020 0x5027 then s.enableShown (Reg.LNT_POOL_CTL (i - 0x5020)) || !(s.held (i - 0x5020)).isEmpty
  else if within 0x5100 0x513F || within 0x5180 0x51BF then
    s.runs (Reg.TIM_CTL (i % 64)) (Reg.TIM_STS (i % 64))
  else if within 0x5240 0x524F then s.enableShown (Reg.CMP_MON_CTL (i - 0x5240))
  else if i = 0x5250 then (List.range 16).any fun w => s.enableShown (Reg.CMP_MON_CTL w)
  else if within 0x5300 0x531F then s.supState (i % 16) != 0
  else if within 0x5340 0x5343 then s.supState (16 + (i - 0x5340)) != 0
  else if within 0x6000 0x601F then s.enableShown Reg.MEM_CTL || s.memState != 0
  else if i = 0x6200 then !s.queues.isEmpty
  else if i = 0x6210 then decide (u < 16) && s.enableShown (Reg.QDM_FEED u)
  else if within 0x6240 0x62BF then s.dmaState (i - 0x6240) != 0
  else if within 0x6300 0x6303 then !s.portOff (i - 0x6300) || s.locked
  else if within 0x6400 0x6403 then s.dState (i - 0x6400) != 0
  else if within 0x6410 0x6413 then s.dState (i - 0x6410) != 0
  else if i = 0x6420 then (List.range 4).any fun x => s.dState x != 0
  else if i = 0x6500 || within 0x6580 0x658F then s.enableShown Reg.FAB_CTL
  else if within 0x6510 0x6517 then s.enableShown (Reg.FAB_PORT_CTL (i - 0x6510))
  else if within 0x6520 0x652F then s.enableShown (Reg.FAB_PORT_CTL ((i - 0x6520) / 2))
  else if i = 0x6600 then s.enableShown Reg.MGT_ETH_CTL
  else false

/-- The block that owns a slot is enabled. (DEDUCED, log entry 11.) -/
def State.busy (s : State) (k : Nat) : Bool := s.busyAt (slotIndex k) (slotSub k)

/-- Every block that owns an entry of indices 0xHH00 to 0xHHFF is disabled (R554). -/
def State.rangeIdle (s : State) (hh : Nat) : Bool :=
  (List.range 256).all fun j => (List.range 16).all fun u => !s.busyAt (hh * 256 + j) u

/-- A block that uses SRAM is enabled (R398): conditioning and record writers, Canopy, the spectrogram writers, the
spectral engine, triggers, sequencers, the scan-out, Lantern, the TIMU, queues and feeds. -/
def State.sramUsers (s : State) : Bool :=
  ((List.range 4).any fun c => s.bit (Reg.CND_CTL c) 0 || s.bit (Reg.CAN_CTL c) 0 || s.bit (Reg.SPG_CTL c) 0 ||
    s.runs (Reg.ACQ_CTL c) (Reg.ACQ_STS c)) ||
  ((List.range 5).any fun q => s.runs (Reg.SEQ_CTL q) (Reg.SEQ_STS q)) ||
  ((List.range 8).any fun r => s.bit (Reg.SPX_RES_STS r) 0 || s.bit (Reg.LNT_POOL_CTL r) 0) ||
  ((List.range 32).any fun k => s.lntState k != 0 || s.bit (Reg.TRG_UNIT_CTL (k / 8) (k % 8)) 0) ||
  ((List.range 64).any fun i => s.runs (Reg.TIM_CTL i) (Reg.TIM_STS i)) ||
  s.runs Reg.SCN_CTL Reg.SCN_STS || !s.queues.isEmpty || (List.range 16).any fun f => s.bit (Reg.QDM_FEED f) 0

/-- Such a block has been enabled since reset. -/
def State.noteSram (s : State) : State :=
  if s.ddr.sramUsed || !s.sramUsers then s else { s with ddr := { s.ddr with sramUsed := true } }

/-! ### Parity stops (R513) -/

/-- A disable that leaves ENABLE reading the value written. (DEDUCED, log entry 14.) -/
def State.stopFor (s : State) (k : Nat) (off : State → State) : State :=
  if s.bit k 0 then
    let s := off s
    let s := s.putBit k 0 false
    { s with mgt := { s.mgt with stopped := k :: s.mgt.stopped } }
  else s

/-- A record writer's, a converter's and the other blocks' own ways to stop. -/
def outcomeState (s : State) : Host.Outcome State Fault Refusal → State
  | .next t => t
  | _ => s

/-- The block that owns a slot stops after a parity mismatch in it: in the halt or fault state that its
chapter names, or as ENABLE := 0 stops it. Clock synthesis goes on (R502). (DEDUCED, log entry 14.) -/
def State.parityStop (s : State) (k : Nat) : State :=
  let i := slotIndex k
  let u := slotSub k
  let within (lo hi : Nat) : Bool := decide (lo ≤ i ∧ i ≤ hi)
  let group (g : Nat) : State :=
    let on := s.bit (Reg.LNK_GRP_CTL (s.leader g)) 0 && !s.parityHeld g
    if s.laneState g = 0 && !on then s
    else
      let s := s.laneParity g
      { s with mgt := { s.mgt with
          stopped := (s.partners g).map Reg.LNK_GRP_CTL ++ s.mgt.stopped } }
  if i = 0x1500 then s.stopFor Reg.HLT_CTL id
  else if i = 0x2100 then s.stopFor Reg.CCS_CTL fun s => outcomeState s (execCcsEnable false s)
  else if i = 0x2101 then s.stopFor Reg.CCS_WP_CTL fun s => outcomeState s (execWpEnable false s)
  else if within 0x3000 0x302F then group ((i - 0x3000) / 12)
  else if within 0x3100 0x313F && i % 16 ≠ 2 then group ((i - 0x3100) / 16)
  else if within 0x3200 0x323F then
    let c := (i - 0x3200) / 16
    s.stopFor (Reg.CND_CTL c) fun s => s.cndDisable c
  else if within 0x4008 0x400F then
    let r := i - 0x4008
    s.stopFor (Reg.SPX_RES_CTL r) fun s => s.spxDisable r
  else if within 0x4100 0x413F && i % 16 < 8 then
    s.stopFor (Reg.TRG_UNIT_CTL ((i - 0x4100) / 16) (i % 16)) id
  else if i = 0x4141 then s.stopFor (Reg.TRG_OUT_CFG u) id
  else if within 0x4200 0x424F then
    let q := (i - 0x4200) / 16
    if s.seqRunning q then s.seqHalt q 4 s.time else s
  else if within 0x4300 0x433F then
    let c := (i - 0x4300) / 16
    s.stopFor (Reg.ACQ_CTL c) fun s => s.disableWriter c
  else if within 0x4400 0x443F then
    let c := (i - 0x4400) / 16
    if i % 16 = 2 then s.stopFor (Reg.SPG_CTL c) fun s => s.spgDisable c
    else s.stopFor (Reg.CAN_CTL c) fun s => s.canDisable c
  else if within 0x4500 0x4505 then s.stopFor Reg.SCN_CTL fun s => s.scnDisable
  else if within 0x5020 0x5027 then
    let p := i - 0x5020
    (s.lntParity p).stopFor (Reg.LNT_POOL_CTL p) fun s => outcomeState s (execLntPoolEnable (Fin.ofNat 8 p) false s)
  else if within 0x5100 0x513F || within 0x5180 0x51BF then
    s.stopFor (Reg.TIM_CTL (i % 64)) fun s =>
      outcomeState s (execTimEnable (Fin.ofNat 64 (i % 64)) false s)
  else if within 0x5240 0x524F then
    let w := i - 0x5240
    s.stopFor (Reg.CMP_MON_CTL w) fun s => (s.putBit (Reg.CMP_MON_CTL w) 0 false).monEnable w true
  else if i = 0x5250 then
    (List.range 16).foldl (fun s w => s.stopFor (Reg.CMP_MON_CTL w) fun s =>
      (s.putBit (Reg.CMP_MON_CTL w) 0 false).monEnable w true) s
  else if within 0x5300 0x531F then
    s.stopFor (supCtl (i % 16)) fun s => outcomeState s (execSupEnable (Fin.ofNat 20 (i % 16)) false s)
  else if within 0x5340 0x5343 then
    let x := 16 + (i - 0x5340)
    s.stopFor (supCtl x) fun s => outcomeState s (execSupEnable (Fin.ofNat 20 x) false s)
  else if i = 0x6000 then s.stopFor Reg.MEM_CTL fun s => outcomeState s (execMemDisable s)
  else if i = 0x6200 then s.queues.foldl (fun s e => s.disableQueue e.1) s
  else if i = 0x6210 then s.stopFor (Reg.QDM_FEED u) id
  else if within 0x6240 0x62BF then
    let ch := i - 0x6240
    ((s.putBit (Reg.QDM_CH_STS ch) 4 true).putBit (Reg.QDM_CH_CTL ch) 1 true).dmaPause ch
  else if within 0x6400 0x6403 || within 0x6410 0x6413 then
    let x := i % 16
    s.stopFor (Reg.DRV_SET_CTL x) fun s =>
      outcomeState s (execDrvSetEnable (Fin.ofNat 4 x) false (s.bit (Reg.DRV_SET_CTL x) 2) s)
  else if i = 0x6420 then
    (List.range 4).foldl (fun s x => s.stopFor (Reg.DRV_SET_CTL x) fun s =>
      outcomeState s (execDrvSetEnable (Fin.ofNat 4 x) false (s.bit (Reg.DRV_SET_CTL x) 2) s)) s
  else if i = 0x6500 then s.stopFor Reg.FAB_CTL fun s => outcomeState s (execFabEnable false s)
  else if within 0x6510 0x6517 || within 0x6520 0x652F then
    let p := if within 0x6510 0x6517 then i - 0x6510 else (i - 0x6520) / 2
    s.stopFor (Reg.FAB_PORT_CTL p) fun s => outcomeState s (execFabPortEnable (Fin.ofNat 8 p) false s)
  else if i = 0x6600 then s.stopFor Reg.MGT_ETH_CTL fun s => s.ethLink false
  else s

/-- A parity mismatch in an entry (R513), once until a write to the entry is taken. (DEDUCED, log entry 14.) -/
def State.parityFault (s : State) (k : Nat) : State :=
  if s.mgt.faulted.contains k then s
  else
    let s := { s with mgt := { s.mgt with faulted := k :: s.mgt.faulted } }
    let s := (s.wrN Reg.MGT_PARITY_SRC (k % 2 ^ 24)).wr Reg.MGT_PARITY_TS s.now.word
    let s := (s.bumpSat Reg.MGT_PARITY_COUNT 32).raise 1 (k % 2 ^ 24)
    s.parityStop k

/-- The entry carries a parity bit: it has CFG fields or class RWD (R513), or it is a slot of a DMA
channel, whose chapter names its fault (R423). (DEDUCED, log entry 14.) -/
def parityKept (k : Nat) : Bool :=
  (findRow k).any fun r => r.cfg != 0 || decide (0x6240 ≤ slotIndex k ∧ slotIndex k ≤ 0x62BF)

/-- The parity check of the entries, or of one at its use (R513): `bad` names the slots whose parity does
not match. -/
def execParityCheck (bad : List Nat) (s : State) : Host.Outcome State Fault Refusal :=
  .next ((bad.filter parityKept).foldl State.parityFault s)

end Sys2Proof.Machine
end

