-- ==== Sys2Proof/Machine/Mgmt.lean ====
section
/-! DEFINITION. The dictionary's own operations: save sets, block reset and the protection lock (R515,
R516, R543, R554). -/

namespace Sys2Proof.Machine

/-! ### Save sets (R515, R516) -/

/-- Every slot of a row. -/
def EntryRow.slots (r : EntryRow) : List Nat :=
  (List.range r.count).flatMap fun b => (List.range r.inner).flatMap fun i =>
    (List.range r.subCount).map fun u => slot (r.base + b * r.stride + i) (r.sub + u * r.subStep)

/-- An entry is saved (R515): class RWD, outside the protection set-up, and no TIM_INL entry. -/
def EntryRow.saved (r : EntryRow) : Bool :=
  r.acc == .rwd && r.base != 0x5180 &&
    !(["SRM_PART", "PCI_PORT_CFG", "PCI_EP_ID", "PCI_EP_BAR2", "MGT_JRN_AREA"].contains r.name)

/-- The slots of the saved entries. (DESIGN CHOICE, log entry 13.) -/
def savedSlots : List Nat :=
  ((List.range 0x67).flatMap pageRows).flatMap fun r => if r.saved then r.slots else []

/-- A save set of R516. -/
def State.saveSet (s : State) (n : Nat) : SaveSet := if n = 0 then s.mgt.sets[0] else s.mgt.sets[1]

/-- The save set that a save writes: the one that is not valid. (DEDUCED, log entry 12.) -/
def State.freeSet (s : State) : Nat := if (s.saveSet 0).valid then 1 else 0

/-- A record of a dictionary image (R517): the slot and width of an entry, and its value. -/
structure ImageRec where
  slot : Nat
  width : Nat
  value : BitVec 64
  deriving DecidableEq, Repr

/-- The 16 bytes of a record. -/
def ImageRec.bytes (r : ImageRec) : List (BitVec 8) :=
  leBytes 2 (slotIndex r.slot) ++ leBytes 1 (slotSub r.slot) ++ leBytes 1 r.width ++ leBytes 4 0 ++
    leBytes 8 r.value.toNat

/-- The records of entries: each of its entry's width, and a slot of a STR entry of width 8 (R505, R517). -/
def imageOf (es : List (Nat × BitVec 64)) : List ImageRec :=
  es.map fun e => { slot := e.1, width := ((findRow e.1).map (·.ty.width)).getD 8, value := e.2 }

/-- A dictionary image (R517). -/
def imageBytes (rs : List ImageRec) : List (BitVec 8) :=
  let body := rs.flatMap ImageRec.bytes
  [0x43, 0x46, 0x44, 0x49] ++ leBytes 2 1 ++ leBytes 2 0 ++ leBytes 4 rs.length ++ leBytes 4 (crc32 body) ++ body

/-- A save set as MRAM holds it: its 16-byte header and its records (R516). -/
def SaveSet.bytes (x : SaveSet) : List (BitVec 8) :=
  let body := (imageOf x.recs).flatMap ImageRec.bytes
  [0x43, 0x46, 0x53, 0x56] ++ [(1 : BitVec 8)] ++ leBytes 3 0 ++ leBytes 4 x.recs.length ++ leBytes 4 (crc32 body) ++
    body

/-- SAVE := 1 (R516). (DESIGN CHOICE, log entry 13.) -/
def execSaveStart (who : Fin 8) (s : State) : Host.Outcome State Fault Refusal :=
  .next (
    if s.bit Reg.MGT_SAVE_STS 0 then s.flag who Reg.MGT_SAVE_CTL .ignored
    else
      let s := s.putBit Reg.MGT_SAVE_STS 0 true
      { s with mgt := { s.mgt with saving := some (savedSlots.map fun k => (k, s.rd k)) } })

/-- A save set is complete and checked (R516). An entry written during the copy is in it with its value
before or after the write. (DESIGN CHOICE, log entry 13.) -/
def execSaveComplete (s : State) : Host.Outcome State Fault Refusal :=
  .next (
    match s.mgt.saving with
    | none => s
    | some rs =>
      let (f, s) := s.draw
      let rs := rs.map fun e => (e.1, if Config.savedLate f e.1 then s.rd e.1 else e.2)
      let n := s.freeSet
      let m := s.mgt
      let sets := m.sets.map fun (x : SaveSet) => { x with valid := false }
      let sets := if n = 0 then sets.set 0 { valid := true, recs := rs } else sets.set 1 { valid := true, recs := rs }
      let s := { s with mgt := { m with saving := none, sets := sets } }
      let s := (s.putBit Reg.MGT_SAVE_STS 0 false).showSets
      let s := (s.bump Reg.MGT_SAVE_GEN 32).wr Reg.MGT_SAVE_TS s.now.word
      s.raise 2 (s.rdN Reg.MGT_SAVE_GEN))

/-- ERASE := 1 (R516). (DEDUCED, log entry 12.) -/
def execEraseSets (s : State) : Host.Outcome State Fault Refusal :=
  .next (
    let sets := s.mgt.sets.map fun (x : SaveSet) => { x with valid := false }
    ({ s with mgt := { s.mgt with sets := sets } } : State).showSets)

/-! ### Block reset (R554) -/

/-- A block reset of a range takes effect: its blocks are disabled, the range is not 0x10 to 0x20, and no
warm reset is in progress (R554, R563). (DEDUCED, log entry 12.) -/
def State.blkOk (s : State) (range : Nat) : Bool :=
  !decide (0x10 ≤ range ∧ range ≤ 0x20) && s.rangeIdle range && !s.inReset

/-- GO := 1 in MGT_BLK_RST, with the RANGE of the same write (R554). -/
def execMgtBlkRst (who : Fin 8) (range : Fin 256) (s : State) : Host.Outcome State Fault Refusal :=
  .next (
    if s.blkOk range then
      let rs := Sparse.restrict (fun k => slotIndex k / 256 != range.val || inProtection k) s.regs
      let s := { s with regs := rs }
      let s := if range.val = 0x41 then s.armsReset else s
      (s.setFld Reg.MGT_BLK_RST 15 8 range).setBoot { s.boot with blk := some range.val }
    else s.flag who Reg.MGT_BLK_RST .ignored)

/-- A block reset completes (R554). -/
def execMgtBlkRstDone (s : State) : Host.Outcome State Fault Refusal :=
  .next (
    match s.boot.blk with
    | some r => (s.setBoot { s.boot with blk := none }).raise 11 r
    | none => s)

/-! ### The protection lock (R543, R544) -/

/-- PROT_LOCK becomes 1: its time is noted, ports become endpoints or stay off, the rails' voltages are
noted (R574) and event 8 is raised. (DEDUCED, log entry 56.) -/
def State.protLock (s : State) : State :=
  if s.locked then s
  else
    let s := (s.putBit Reg.PROT_LOCK 0 true).wr Reg.MGT_BOOT_TS s.now.word
    let v := (List.range 8).map fun k => s.fld (Reg.PWR_RAIL_VSET k) 15 0
    let s := { s with hlt := { s.hlt with v0 := v } }
    let s := (List.range 4).foldl (fun s n => (s.roleCause n).epEnable n) s
    s.raise 8 (s.rdN Reg.MGT_BOOT_SEQ)

end Sys2Proof.Machine
end

