-- ==== Sys2Proof/Machine/Trigger.lean ====
section
/-! DEFINITION. Triggers (R153-R167): when a decision is issued, the trigger word, its consumers, the
trigger outputs, and the commands of the condition units and the provisional store. -/

namespace Sys2Proof.Machine

/-! ### When a decision is issued (R153-R156) -/

/-- The decision is late: it was ready only after the edge it was due at (R154). While a clock runs from its
bypass clock there is no due time (R155). -/
def State.isLate (s : State) (d : Decision) : Bool :=
  d.outside && !d.degraded && !s.coreDegraded && later d.ready (s.edgeFrom d.due)

/-- The FRONT edge at which a pending decision is issued, when triggers up to edge `done` have been
(R153-R156). -/
def State.issueEdge (s : State) (done : Option Nat) (d : Decision) : Nat :=
  let e :=
    if s.coreDegraded then s.edgeFrom d.ready
    else if s.isLate d then s.edgeFrom ((d.ready + 1) % timeMod)
    else s.edgeFrom d.due
  match done with
  | some f => if atOrAfter f e then timeAdd f s.frontClock else e
  | none => e

/-- The earliest edge at which something pending is issued. -/
def State.firstEdge (s : State) (done : Option Nat) (ds : List Decision) : Option Nat :=
  ds.foldl (fun m d =>
    let e := s.issueEdge done d
    match m with
    | none => some e
    | some f => if later f e then some e else some f) none

/-! ### Forming a trigger (R141, R142, R156) -/

/-- What forming a trigger leaves: the state and the decisions that entered it. -/
structure Formed where
  s : State
  got : List Decision

/-- One decision is issued into a trigger: only when armed at its cause time and outside a hold-off;
a second cause of a unit in one clock is absorbed (R141, R142, R156). -/
def Formed.add (c : Nat) (f : Formed) (d : Decision) : Formed :=
  let x := f.s.tunit c d.unit
  let held := match x.holdUntil with
    | some t => later t d.cause.t
    | none => false
  if !x.armedAt d.cause.t || held then f
  else if f.got.any fun g => g.unit == d.unit then
    let s := f.s.bumpSat (Reg.TRG_UNIT_ABSORBED c d.unit) 32
    { f with s := s.putBit (Reg.TRG_UNIT_STS c d.unit) 2 true }
  else
    let hold := timeAdd d.cause.t (d.holdoff * 4096)
    { s := f.s.setTunit c d.unit { x with holdUntil := some hold }, got := f.got ++ [d] }

/-- Puts a decision behind those whose causes are not later. -/
def insertCause (d : Decision) : List Decision → List Decision
  | [] => [d]
  | e :: r => if later e.cause.t d.cause.t then d :: e :: r else e :: insertCause d r

/-- Decisions in the order of their causes, of equal ones in the order given. -/
def byCause (ds : List Decision) : List Decision := ds.foldl (fun r d => insertCause d r) []

/-- The earliest of the decisions' times. -/
def earliestTs (ds : List Decision) : Stamp :=
  match ds with
  | [] => default
  | d :: r => r.foldl (fun m e => if later m.t e.ts.t then e.ts else m) d.ts

/-- OFFS of a time-domain trigger (R158). -/
def offsWord (ds : List Decision) : Nat :=
  let qs := ds.filterMap (·.sample)
  match qs with
  | [] => 0
  | q :: r =>
    let q0 := r.foldl min q
    ds.foldl (fun n d => match d.sample with
      | some q => n + min 15 (q - q0) * 16 ^ d.unit
      | none => n) 0

/-- LEAD of the FIRST unit's decision (R158). -/
def Decision.lead (d : Decision) : Nat :=
  if d.outside && d.sample.isSome then min 0xFFFFFFFF (timeDiff d.ts.t d.cause.t).toNat else 0

/-- The trigger of a group of issued decisions (R156-R159). -/
def State.formTrig (s : State) (c : Nat) (ds : List Decision) (late : Bool) : Trig :=
  let mask := ds.foldl (fun m d => m ||| 2 ^ d.unit) 0
  let first := (lowestBit mask 8 0).getD 0
  let d := (ds.find? fun d => d.unit == first).getD default
  let ts := earliestTs ds
  { ts := ts, cc := s.ccAt ts.t,
    info := mask + first * 256 + b2n d.fd.isSome * 2 ^ 11 + d.fd.getD 0 * 2 ^ 12 + c * 2 ^ 13 +
      b2n late * 2 ^ 15 + b2n (s.coreDegraded || ds.any (·.degraded)) * 2 ^ 16 + b2n (ds.any (·.invalid)) * 2 ^ 17 +
      d.gen % 4096 * 2 ^ 20,
    offs := if d.fd.isSome then 0 else offsWord ds, value := d.value, lead := d.lead }

/-- The 32 bytes of a trigger word (R158). -/
def Trig.bytes (t : Trig) : List (BitVec 8) :=
  leBytes 8 t.ts.word.toNat ++ leBytes 8 t.cc.toNat ++ leBytes 4 t.info ++ leBytes 4 t.offs ++
    leBytes 4 t.value ++ leBytes 4 t.lead

/-! ### Consumers (R157, R160, R167) -/

/-- A trigger's decisions reach their units' entries and events (R168, R175). -/
def State.unitIssued (c : Nat) (ts : Stamp) (s : State) (d : Decision) : State :=
  let s := s.bump (Reg.TRG_UNIT_COUNT c d.unit) 64
  let s := s.wr (Reg.TRG_UNIT_LAST_TS c d.unit) d.cause.word
  let s := s.wrN (Reg.TRG_UNIT_LAST_VALUE c d.unit) d.value
  if s.bit (Reg.TRG_UNIT_CTL c d.unit) 2 then s.raiseTs (272 + 8 * c + d.unit) ts 0 else s

/-- The pulses on TRIG_OUTn, oldest first (R167). -/
def State.pulse (s : State) (n : Nat) : List (Nat × Nat) :=
  if h : n < 4 then s.pulses[n] else []

/-- Replaces the pulses on TRIG_OUTn. -/
def State.setPulse (s : State) (n : Nat) (x : List (Nat × Nat)) : State :=
  if h : n < 4 then { s with pulses := s.pulses.set n x } else s

/-- A pulse on TRIG_OUTn starts 3.2 ns after a FRONT edge, or extends the one that is in progress then
(R167). (DESIGN CHOICE, log entry 63.) -/
def State.startPulse (s : State) (n edge : Nat) : State :=
  let start := timeAdd edge 32768
  let stop' := timeAdd start (s.fld (Reg.TRG_OUT_CFG n) 27 12 * 4096)
  let ps := (s.pulse n).filter fun p => later p.2 s.time
  s.setPulse n (match ps.getLast? with
    | some (a, b) =>
      if atOrAfter b start then ps.dropLast ++ [(a, if later b stop' then b else stop')]
      else ps ++ [(start, stop')]
    | none => [(start, stop')])

/-- WIDTH of an output below 4 has no outcome (R174, R609). -/
def State.pulseJudge (n : Nat) (s : State) : Host.Outcome State Fault Refusal :=
  if s.fld (Reg.TRG_OUT_CFG n) 27 12 < 4 then .fault (.undefinedOutcome 609) else .next s

/-- The level of TRIG_OUTn now (R167). -/
def State.trigOutLevel (s : State) (n : Nat) : Bool :=
  let pol := s.bit (Reg.TRG_OUT_CFG n) 1
  if (s.pulse n).any fun p => atOrAfter s.time p.1 && later p.2 s.time then !pol else pol

/-- A trigger reaches the outputs that select it (R160, R167). -/
def State.trigOutputs (s : State) (c : Nat) (t : Trig) (edge : Nat) : State :=
  (List.range 4).foldl (fun s n =>
    if s.bit (Reg.TRG_OUT_CFG n) 0 ∧ s.fld (Reg.TRG_OUT_CFG n) 3 2 = c ∧
        s.fld (Reg.TRG_OUT_CFG n) 11 4 &&& t.mask ≠ 0 then s.startPulse n edge else s) s

/-- One trigger is issued: its units, the channel's entries, the outputs and the queue (R160). -/
def State.issueTrig (s : State) (c : Nat) (t : Trig) (ds : List Decision) (edge : Nat) : State :=
  let s := ds.foldl (State.unitIssued c t.ts) s
  let s := s.bump (Reg.TRG_COUNT c) 64
  let s := s.wr (Reg.TRG_LAST_TS c) t.ts.word
  let s := s.trigOutputs c t edge
  if s.bit (Reg.TRG_QUEUE c) 16 then
    (s.enqueue (s.fld (Reg.TRG_QUEUE c) 15 0) 4 t.bytes t.ts.word).1
  else s

/-- Issues one group of decisions as a trigger, its causes in their order (R141, R156); an empty group gives none. (DEDUCED, log entry 27.) -/
def State.issueGroup (s : State) (c : Nat) (ds : List Decision) (late : Bool) (edge : Nat) :
    State × List Trig :=
  let f := (byCause ds).foldl (Formed.add c) { s := s, got := [] }
  if f.got.isEmpty then (f.s, [])
  else
    let t := f.s.formTrig c f.got late
    (f.s.issueTrig c t f.got edge, [t])

/-- Issues groups of decisions in turn until one becomes a trigger; those that have their turn are no longer
pending. -/
def State.issueFirst (c : Nat) (late : Bool) (edge : Nat) : List (List Decision) → State → State × List Trig
  | [], s => (s, [])
  | g :: rest, s =>
    let x := s.tch c
    let s := s.setTch c { x with pend := x.pend.filter fun d => !g.contains d }
    let r := s.issueGroup c g late edge
    if r.2.isEmpty then State.issueFirst c late edge rest r.1 else r

/-- Decisions of one resolution as groups, one for each spectrum, the earliest first (R156). -/
def spectrumGroups : (fuel : Nat) → List Decision → List (List Decision)
  | 0, _ => []
  | _, [] => []
  | n + 1, d :: rest =>
    let ds := d :: rest
    let t := (rest.foldl (fun m x => if later m.ts.t x.ts.t then x else m) d).ts.t
    (ds.filter fun x => x.ts.t == t) :: spectrumGroups n (ds.filter fun x => x.ts.t != t)

/-- Presents the triggers of one clock to SQc and, when it listens to the channel, to SQG (R157,
R176). -/
def State.presentAll (s : State) (c : Nat) (ts : List Trig) : State :=
  let s := s.present c ts
  if s.bit (Reg.SEQ_CFG 4) 20 ∧ s.fld (Reg.SEQ_CFG 4) 19 18 = c then s.present 4 ts else s

/-- A late decision that has become a trigger is counted (R154). -/
def State.countLate (s : State) (c : Nat) : State :=
  (s.bumpSat (Reg.TRG_LATE_COUNT c) 32).latchRaise (Reg.TRG_CH_STS c) 4 (256 + c)

/-- Everything a channel issues at FRONT edge `e`: the on-time time-domain decisions as one trigger, or where
they give none one late decision; and of each resolution one spectrum's decisions (R154, R156). -/
def State.issueAt (s : State) (c e : Nat) : State :=
  let x := s.tch c
  let now := x.pend.filter fun d => atOrAfter e (s.issueEdge x.done d)
  let s := s.setTch c { x with done := some e }
  let td := now.filter fun d => d.fd.isNone && !s.isLate d
  let r1 := State.issueFirst c false e (if td.isEmpty then [] else [td]) s
  let lates := if r1.2.isEmpty then now.filter s.isLate else []
  let r2 := State.issueFirst c true e (lates.map fun d => [d]) r1.1
  let s := if r2.2.isEmpty then r2.1 else r2.1.countLate c
  let fd (r : Nat) : List (List Decision) := spectrumGroups now.length (now.filter fun d => d.fd == some r)
  let r3 := State.issueFirst c false e (fd 0) s
  let r4 := State.issueFirst c false e (fd 1) r3.1
  r4.1.presentAll c (r1.2 ++ r2.2 ++ r3.2 ++ r4.2)

/-- The channel issues what falls due earliest, when its edge has come (R153). -/
def State.trigIssue (s : State) (c : Nat) : State :=
  let x := s.tch c
  match s.firstEdge x.done x.pend with
  | none => s
  | some e => if atOrAfter s.time e then s.issueAt c e else s

/-! ### The commands -/

/-- TRIGGER_ISSUE (R153). -/
def execTriggerIssue (c : Fin 4) (s : State) : Host.Outcome State Fault Refusal :=
  .next (s.trigIssue c)

/-- TRIG_OUT_PULSE_END (R167). -/
def execTrigOutPulseEnd (n : Fin 4) (s : State) : Host.Outcome State Fault Refusal :=
  .next (s.setPulse n ((s.pulse n).filter fun p => later p.2 s.time))

/-- FORCE (R167). -/
def execTrigOutForce (n : Fin 4) (s : State) : Host.Outcome State Fault Refusal :=
  match s.pulseJudge n with
  | .next s => .next (s.startPulse n (s.edgeFrom s.time))
  | o => o

/-- TIMU_WINDOW_EXPIRY (R146). -/
def execTimuWindowExpiry (c : Fin 4) (u : Fin 8) (s : State) : Host.Outcome State Fault Refusal :=
  .next (s.timuExpiry c u)

/-- KIND of a Ridgeline packet (R479). -/
def FabPkt.ridgeKind (k : FabPkt) : Option Nat :=
  match k.body with
  | .ridge kind .. => some kind
  | _ => none

/-- A Ridgeline message of a kind arrives on a port in UP, at a place within the present tick. -/
def State.ridgeCommand (s : State) (p kind sub : Nat) (k : FabPkt) : State :=
  if s.fpUp p && k.ridgeKind == some kind then s.ridgeArrive p (s.tickPlace sub) k else s

/-- FIRE (R161). -/
def execRlFire (p : Fin 8) (k : RidgeMsg) (s : State) : Host.Outcome State Fault Refusal :=
  .next (s.ridgeCommand p 0 k.place k.pkt)

/-- PROVISIONAL (R162). -/
def execRlProvisional (p : Fin 8) (k : RidgeMsg) (s : State) : Host.Outcome State Fault Refusal :=
  .next (s.ridgeCommand p 1 k.place k.pkt)

/-- CONFIRM (R162). -/
def execRlConfirm (p : Fin 8) (k : RidgeMsg) (s : State) : Host.Outcome State Fault Refusal :=
  .next (s.ridgeCommand p 2 k.place k.pkt)

/-- CANCEL (R162). -/
def execRlCancel (p : Fin 8) (k : RidgeMsg) (s : State) : Host.Outcome State Fault Refusal :=
  .next (s.ridgeCommand p 3 k.place k.pkt)

/-- PROVISIONAL_EXPIRY (R162). -/
def execProvisionalExpiry (s : State) : Host.Outcome State Fault Refusal := .next s.provExpire

/-- The rule that leaves settings of a unit undefined, if one does (R137, R140, R144, R146). -/
def State.unitBad (s : State) (c u : Nat) (param : BitVec 64) : Option Nat :=
  let ty := s.unitType c u
  if 10 ≤ ty then some 137
  else if ty = 6 ∧ s.fld (Reg.TRG_UNIT_CFG c u) 6 5 = 3 then some 140
  else if ty = 2 ∧ 16 < getF param 36 32 then some 144
  else if ty = 7 ∧ getF param 15 14 = 3 then some 146
  else none

/-- The rule that leaves the shadows of an enabled unit of a channel undefined, if one does. -/
def State.shadowsBad (s : State) (c : Nat) : Option Nat :=
  (List.range 8).findSome? fun u =>
    if s.bit (Reg.TRG_UNIT_CTL c u) 0 then s.unitBad c u (s.committedVer c u 0 0).param else none

/-- The same for what a pending hand-over brings to unit `u`. -/
def State.pendingBad (s : State) (c u : Nat) : Option Nat :=
  if (s.tch c).handAt.isSome then s.unitBad c u ((s.tch c).handVers.getD u default).param else none

/-- A disabled unit starts (R165). -/
def State.startUnit (s : State) (c u : Nat) : State :=
  let x := s.tunit c u
  let v := s.shadowVer c u s.time (s.rdN (Reg.TRG_SHADOW_GEN c))
  let s := s.putBit (Reg.TRG_UNIT_CTL c u) 0 true
  let s := s.setTunit c u { x with vers := [v], evalFrom := s.time, runHigh := 0, runLow := 0,
                                   window := [], aPend := none }
  s.setUnitState c u 0

/-- TRG_UNIT_ENABLE (R165). -/
def execTrgUnitEnable (c : Fin 4) (u : Fin 8) (s : State) : Host.Outcome State Fault Refusal :=
  if s.parityStopped (Reg.TRG_UNIT_CTL c u) then .next s
  else
    if s.bit (Reg.TRG_UNIT_CTL c u) 0 then .next s
    else match s.unitBad c u (s.unitShadow c u).1, s.pendingBad c u with
      | some r, _ => .fault (.undefinedOutcome r)
      | none, some r => .fault (.undefinedOutcome r)
      | none, none => .next (s.startUnit c u)

/-- TRG_UNIT_DISABLE (R165). -/
def execTrgUnitDisable (c : Fin 4) (u : Fin 8) (s : State) : Host.Outcome State Fault Refusal :=
  let s := s.parityFree (Reg.TRG_UNIT_CTL c u)
  .next (s.putBit (Reg.TRG_UNIT_CTL c u) 0 false)

/-- TRG_ARM (R142). -/
def execTrgArm (c : Fin 4) (u : Fin 8) (on : Bool) (s : State) : Host.Outcome State Fault Refusal :=
  .next (s.armUnit c u on s.time true)

/-- A commit of a channel's shadows for a hand-over time (R164). -/
def State.trgCommit (s : State) (c th : Nat) (timed : Bool) : Host.Outcome State Fault Refusal :=
  match s.shadowsBad c with
  | some r => .fault (.undefinedOutcome r)
  | none => .next (s.trgRequest c th timed)

/-- TRG_COMMIT (R164). -/
def execTrgCommit (c : Fin 4) (s : State) : Host.Outcome State Fault Refusal := s.trgCommit c s.time false

/-- TRG_COMMIT_TIMED (R164). -/
def execTrgCommitTimed (c : Fin 4) (s : State) : Host.Outcome State Fault Refusal :=
  s.trgCommit c (s.rdN (Reg.TRG_COMMIT_AT c) % timeMod) true

/-- TRG_HANDOVER (R164): a pending hand-over whose time has come. -/
def execTrgHandover (c : Fin 4) (s : State) : Host.Outcome State Fault Refusal := .next (s.trgPass c)

end Sys2Proof.Machine
end

