-- ==== Sys2Proof/Machine/Access.lean ====
section
/-! DEFINITION. Accesses to the dictionary (R505-R514): who is served, what a read returns, which fields
of a write are taken, and what a write of an action field starts. -/

namespace Sys2Proof.Machine

/-- What a write starts. -/
abbrev Act := State → Host.Outcome State Fault Refusal

/-- An action that always goes on. -/
def act (f : State → State) : Act := fun s => .next (f s)

/-- Actions in order, up to the first that stops. (DEDUCED, log entry 9.) -/
def runActs (as : List Act) (s : State) : Host.Outcome State Fault Refusal :=
  as.foldl (fun o a => match o with
    | .next s => a s
    | o => o) (.next s)

/-! ### Who is served -/

/-- The dictionary serves an entry in the present power state (R561). (DEDUCED, log entry 8.) -/
def State.servedNow (s : State) (k : Nat) : Bool :=
  let i := slotIndex k
  decide (s.power ≤ 2) || decide (0x1000 ≤ i ∧ i ≤ 0x18FF) || decide (0x6600 ≤ i ∧ i ≤ 0x66FF)

/-- The windows of a requester let it reach an index (R545, R547); `uid` is the fabric peer's.
(DEDUCED, log entry 8.) -/
def State.mayReach (s : State) (who uid i : Nat) (write : Bool) : Bool :=
  s.dictAllows who i write && (who != 5 || s.peerAllows uid i write)

/-! ### Reads (R507, R513, R532) -/

/-- MGT_DESC for the entry that MGT_DESC_Q names (R532). -/
def describe (k : Nat) : Nat :=
  match findRow k with
  | none => 0
  | some r => r.ty.code + r.acc.code * 16 + b2n r.saved * 64 + r.ty.width * 128

/-- The bits of a slot that its kind leaves in use (R14): all, but in TRG_UNIT_PARAM and TRG_UNIT_SPAN those that TYPE
of the unit uses (R170), in word 1 of a waypoint those of its action (R353), and no point 0 of TIM_INL (R339). -/
def State.typeBits (s : State) (k : Nat) (v : BitVec 64) : BitVec 64 :=
  let i := slotIndex k
  if 0x2180 ≤ i ∧ i ≤ 0x219F ∧ slotSub k % 2 = 1 then wpBits v
  else if 0x2180 ≤ i ∧ i ≤ 0x219F ∧ s.bit Reg.CCS_WP_CFG 0 then ~~~(1 <<< 60)
  else if 0x4100 ≤ i ∧ i < 0x4140 ∧ i % 16 < 8 ∧ (slotSub k = 2 ∨ slotSub k = 3) then
    let m := unitBits (s.unitType ((i - 0x4100) / 16) (i % 16))
    BitVec.ofNat 64 (if slotSub k = 2 then m.1 else m.2)
  else if 0x5180 ≤ i ∧ i ≤ 0x51BF ∧ slotSub k % 16 = 0 then 0xFFFFFFFFFFFF0000
  else ~~~0

/-- Slots of ENABLE bits are read with the value written, also while a parity fault holds the block
(R513; a lane group's keeps it in its entry, R60). In paired mode the elastic buffer entries of AC1 and AC3 read
0 (R30), and in IDLE no lane group's output is valid (R70). -/
def State.content (s : State) (k : Nat) : BitVec 64 :=
  let v := s.rd k
  let i := slotIndex k
  if s.parityStopped k && !(decide (0x3100 ≤ i ∧ i ≤ 0x313F)) then setBit v 0 true
  else if 0x43F0 ≤ i ∧ i ≤ 0x43F3 ∧ s.pairedOff (i - 0x43F0) then 0
  else if 0x4100 ≤ i ∧ i < 0x4140 ∧ i % 16 < 8 ∧ (slotSub k = 2 ∨ slotSub k = 3) then v &&& s.typeBits k v
  else if 0x2180 ≤ i ∧ i ≤ 0x219F then v &&& s.typeBits k v
  else if 0x3100 ≤ i ∧ i ≤ 0x3130 ∧ k = Reg.LNK_GRP_STATE ((i - 0x3100) / 16) then
    setBit v 21 (bitAt v 21 && !s.idleOrLower)
  else if k = Reg.MGT_DESC then BitVec.ofNat 64 (describe (s.fld Reg.MGT_DESC_Q 23 0))
  else if k = Reg.CCS_NOW then s.ccAt s.time
  else if k = Reg.CCS_WP_STS then setBit v 14 s.wpWaiting
  else if k = Reg.CLK_OFFSET && s.bit Reg.FAB_CTL 0 then BitVec.ofNat 64 (ofSigned 24 s.clk.fabTarget)
  else if k = Reg.CLK_OFFSET_NOW then BitVec.ofNat 64 (ofSigned 24 s.offsetNow)
  else if k = Reg.HLT_VOLT_ADJ then BitVec.ofNat 64 (ofSigned 24 s.voltAdj)
  else if i = 0x1504 then s.journalRead (slotSub k)
  else if 0x4200 ≤ i ∧ i < 0x4250 ∧ k = Reg.SEQ_STS ((i - 0x4200) / 16) then
    let q := (i - 0x4200) / 16
    setBit v 10 (q == 4 || s.pairedOff q)
  else v

/-- A content as the entry's type reads it (R10): a signed entry with its sign extension, any other cut to its
width. -/
def EntryType.reads (t : EntryType) (v : BitVec 64) : BitVec 64 :=
  match t with
  | .i24 => BitVec.ofNat 64 (ofSigned 32 (toSigned 24 v.toNat))
  | .i48 => BitVec.ofNat 64 (ofSigned 64 (toSigned 48 v.toNat))
  | _ => BitVec.ofNat 64 (v.toNat % 2 ^ (8 * t.width))

/-- A slot as a read returns it: write-only entries and bytes beyond the width read 0 (R505, R507). -/
def State.shown (s : State) (k : Nat) : BitVec 64 :=
  match findRow k with
  | none => 0
  | some r => if r.acc == .wo then 0 else r.ty.reads (s.content k)

/-- One slot of a read by a requester (R506, R514, R545, R561). (DEDUCED, log entry 8.) -/
def State.readSlot (s : State) (who uid k : Nat) : State × BitVec 64 :=
  if !s.servedNow k then (s.flag who k .ignored, 0)
  else if !s.mayReach who uid (slotIndex k) false then (s.flag who k .denied, 0)
  else if (findRow k).isNone then (s.flag who k .noEntry, 0)
  else (s, s.shown k)

/-! ### Writes that their own rules ignore -/

/-- An enabled MASK unit names a mask table in its active copy or its shadow (R149). (DEDUCED, log entry 11.) -/
def State.maskInUse (s : State) (c table : Nat) : Bool :=
  (List.range 8).any fun u =>
    s.bit (Reg.TRG_UNIT_CTL c u) 0 && s.unitType c u == 3 &&
      (s.fld (Reg.TRG_UNIT_PARAM c u) 1 0 == table ||
        getF (s.verFor c u s.time).param 1 0 == table)

/-- A write of `v` to a slot that the rule of its entry ignores, with ACCESS_IGNORED: interleave entries of
AC1 and AC3 or under the supervisor (R98, R567), the active equaliser or colour bank (R88, R259), the
window and mask tables in use (R113, R149), pending waypoints (R350), and a block reset that is not
taken (R554). -/
def State.writeIgnored (s : State) (k : Nat) (v : BitVec 64) : Bool :=
  let i := slotIndex k
  let u := slotSub k
  if 0x3200 ≤ i ∧ i < 0x3240 then
    let c := (i - 0x3200) / 16
    let j := i % 16
    if j = 3 ∨ j = 4 then
      c % 2 == 1 || (j == 3 && decide (u = 1 ∨ u = 2) && s.bit (Reg.CAL_ID_CTL (64 + c / 2)) 0)
    else
      let bank := (s.cndCh c).act.bank
      k == (if bank = 0 then Reg.CND_EQ_KEY0 c else Reg.CND_EQ_KEY1 c) ||
        j == (if bank = 0 then 1 else 2)
  else if 0x4080 ≤ i ∧ i ≤ 0x40FF then s.userBusy
  else if 0x4180 ≤ i ∧ i ≤ 0x41FF then s.maskInUse ((i - 0x4180) / 32) ((i - 0x4180) % 32 / 8)
  else if 0x4502 ≤ i ∧ i ≤ 0x4505 then bitAt s.scn.act.dens 9 == decide (0x4504 ≤ i)
  else if 0x2180 ≤ i ∧ i ≤ 0x219F then
    decide (((k - slot 0x2180 0) / 2 + 4096 - s.wpHead % 4096) % 4096 < s.wpPending)
  else if k = Reg.MGT_BLK_RST then bitAt v 0 && !s.blkOk (getF v 15 8)
  else false

/-- A write whose outcome its rule leaves undefined: a window point above 0x80_0000 (R113), and a change
of SRM_PART once a block that uses SRAM has been enabled (R398), and the sideband's settings and buffers during a
transfer (R67). -/
def State.writeUndefined (s : State) (k : Nat) (v : BitVec 64) : Option Nat :=
  let i := slotIndex k
  if 0x4080 ≤ i ∧ i ≤ 0x40FF then
    if 0x800000 < getF v 23 0 ∨ 0x800000 < getF v 55 32 then some 113 else none
  else if 0x3100 ≤ i ∧ i ≤ 0x313F ∧ (i % 16 = 2 ∧ slotSub k = 0 ∨ i % 16 ∈ [2, 3] ∧ 8 ≤ slotSub k) then
    if s.busyAt i (slotSub k) then some 67 else none
  else if k = Reg.SRM_PART then
    if getF v 4 0 ≠ s.fld Reg.SRM_PART 4 0 ∧
        (s.ddr.sramUsed || s.sramUsers) then some 398
    else none
  else none

/-! ### Action fields (R511) -/

/-- What a write of some entries does beyond storing fields. The rule covers `count` indices every
`stride` from `base` and `subCount` subindices from `sub`; `bits` are not stored as written, and `acts`
follow for the entry's place. -/
structure WriteRule where
  base : Nat
  stride : Nat
  count : Nat
  sub : Nat
  subCount : Nat
  bits : Nat
  acts : Nat → Nat → List Act

/-- The rule covers a slot. -/
def WriteRule.covers (r : WriteRule) (k : Nat) : Bool :=
  let i := slotIndex k
  let u := slotSub k
  decide (r.base ≤ i ∧ (i - r.base) % r.stride = 0 ∧ (i - r.base) / r.stride < r.count ∧ r.sub ≤ u ∧
    u - r.sub < r.subCount)

/-- An action for a field written 1. (DEDUCED, log entry 9.) -/
def onBit (v : BitVec 64) (b : Nat) (f : Act) : List Act := if bitAt v b then [f] else []

/-- The action of an ENABLE field: enabling when 1 is written, disabling when 0 is written over 1.
(DEDUCED, log entry 9.) -/
def State.onEnable (s : State) (k : Nat) (v : BitVec 64) (on off : Act) : List Act :=
  if bitAt v 0 then [on] else if s.enableShown k then [off] else []

/-- ENABLE of a block that only reads it. -/
def State.plainEnable (s : State) (k : Nat) (v : BitVec 64) : List Act :=
  s.onEnable k v (act fun s => if s.parityStopped k then s else s.putBit k 0 true)
    (act fun s => (s.parityFree k).putBit k 0 false)

/-- A write of CLK_OFFSET, with the place where a running slew stands, or a free one (R492). -/
def clkOffsetAct (who : Fin 8) (v : BitVec 64) (env : WriteEnv) : Act := fun s =>
  let n := BitVec.ofNat 24 v.toNat
  match env.stands with
  | some x => execClkOffsetWrite who n x s
  | none =>
    let (f, s) := s.draw
    execClkOffsetWrite who n (Config.slewAt f) s

/-- The management entries' actions. -/
def State.mgmtRules (s : State) (who : Fin 8) (v : BitVec 64) : List WriteRule := [
  ⟨0x1103, 1, 1, 0, 1, 3, fun _ _ => onBit v 0 (execSaveStart who) ++ onBit v 1 execEraseSets⟩,
  ⟨0x1200, 1, 1, 0, 1, 1, fun _ _ => onBit v 0 (act State.protLock)⟩,
  ⟨0x1300, 1, 1, 0, 1, 8, fun _ _ => onBit v 3 (execPwrGo who)⟩,
  ⟨0x1310, 1, 8, 0, 1, 0, fun n _ =>
    if bitAt v 15 && !s.bit (Reg.PWR_RAIL_CFG n) 15 then [act fun s => s.railEnabled n] else []⟩,
  ⟨0x1310, 1, 8, 1, 1, 0xFFFF, fun n _ =>
    if getF v 15 0 = s.fld (Reg.PWR_RAIL_VSET n) 15 0 then []
    else [act fun s => s.railSet n (getF v 15 0)]⟩,
  ⟨0x1400, 1, 1, 0, 1, 7, fun _ _ =>
    onBit v 0 execWarmReset ++ onBit v 1 execColdReset ++ onBit v 2 (execReplayStart who)⟩,
  ⟨0x1400, 1, 1, 5, 1, 0x20000, fun _ _ =>
    if s.fld Reg.MGT_WDOG 15 0 = 0 then [execWdogKick] else onBit v 17 execWdogKick⟩,
  ⟨0x1402, 1, 1, 0, 1, 1, fun _ _ => onBit v 0 (execMgtBlkRst who (Fin.ofNat 256 (getF v 15 8)))⟩,
  ⟨0x1500, 1, 1, 0, 1, 1, fun _ _ => s.plainEnable Reg.HLT_CTL v⟩,
  ⟨0x1600, 1, 1, 0, 1, 2, fun _ _ => onBit v 1 execCalRunAll ++ [State.calGo]⟩,
  ⟨0x1610, 1, 86, 0, 1, 2, fun n _ => onBit v 1 (execCalRun (Fin.ofNat 86 n))⟩,
  ⟨0x6600, 1, 1, 0, 1, 1, fun _ _ =>
    s.plainEnable Reg.MGT_ETH_CTL v ++ if bitAt v 0 then [] else [act fun s => s.ethLink false]⟩]

/-- The actions of the clock and cycle entries. -/
def State.clockRules (s : State) (who : Fin 8) (env : WriteEnv) (v : BitVec 64) : List WriteRule := [
  ⟨0x2000, 1, 1, 0, 1, 0, fun _ _ => [act fun t => t.clkSource.lockShow.supRate s.sysPeriod]⟩,
  ⟨0x2000, 1, 1, 2, 1, 0, fun _ _ => [act fun t => t.supRate s.sysPeriod]⟩,
  ⟨0x2000, 1, 1, 3, 1, 0xFFFFFF, fun _ _ => [clkOffsetAct who v env]⟩,
  ⟨0x2010, 1, 6, 0, 1, 1, fun n _ => onBit v 0 (execBandClear (Fin.ofNat 6 n))⟩,
  ⟨0x2100, 1, 1, 0, 1, 3, fun _ _ =>
    s.onEnable Reg.CCS_CTL v (execCcsEnable true) (execCcsEnable false) ++ onBit v 1 execReorigin⟩,
  ⟨0x2101, 1, 1, 0, 1, 3, fun _ _ =>
    s.onEnable Reg.CCS_WP_CTL v (execWpEnable true) (execWpEnable false) ++ onBit v 1 execWpCancel⟩,
  ⟨0x2101, 1, 1, 4, 1, 0xFFFFFFFF, fun _ _ => [execWpTailWrite (BitVec.ofNat 32 v.toNat)]⟩]

/-- The actions of the intake, conditioning and spectral entries. -/
def State.intakeRules (s : State) (v : BitVec 64) : List WriteRule := [
  ⟨0x3000, 1, 48, 4, 1, 0x10000, fun n _ => onBit v 16 (execEyeScanStart (Fin.ofNat 64 n))⟩,
  ⟨0x3100, 16, 4, 0, 1, 0x7001, fun n _ =>
    let g : Fin 4 := Fin.ofNat 4 n
    let paired := s.bit (Reg.LNK_GRP_CTL n) 3
    (if n % 2 = 0 ∧ !s.groupBusy n ∧ bitAt v 3 ≠ paired then [execPairChange n] else []) ++
      s.onEnable (Reg.LNK_GRP_CTL n) v (execLnkGroupEnable g) (execLnkGroupDisable g) ++
      onBit v 12 (execRawGo g) ++ onBit v 13 (execRawSnap g []) ++ onBit v 14 (execAdaptRestart g)⟩,
  ⟨0x3102, 16, 4, 1, 1, 0x2000, fun n _ => onBit v 13 (execSpiGo (Fin.ofNat 4 n))⟩,
  ⟨0x3103, 16, 4, 0, 1, 0x800000, fun n _ => onBit v 23 (execI2cGo (Fin.ofNat 4 n))⟩,
  ⟨0x3200, 16, 4, 0, 1, 7, fun n _ =>
    let c : Fin 4 := Fin.ofNat 4 n
    s.onEnable (Reg.CND_CTL n) v (execCndEnable c) (execCndDisable c) ++ onBit v 1 (execCndCommit c) ++
      onBit v 2 (execCndCommitTimed c) ++ [act fun s => s.eqJudge n]⟩,
  ⟨0x3200, 16, 4, 2, 1, 0, fun n _ => [act fun s => s.eqJudge n]⟩,
  ⟨0x4008, 1, 8, 0, 1, 7, fun n _ =>
    let r : Fin 8 := Fin.ofNat 8 n
    s.onEnable (Reg.SPX_RES_CTL n) v (execSpxEnable r) (execSpxDisable r) ++ onBit v 1 (execSpxCommit r) ++
      onBit v 2 (execSpxCommitTimed r)⟩,
  ⟨0x4008, 1, 8, 3, 1, 0, fun _ _ => [act State.spxBusy]⟩]

/-- The actions of the trigger, sequencer and record entries. -/
def State.triggerRules (s : State) (who : Fin 8) (env : WriteEnv) (k : Nat) (v : BitVec 64) : List WriteRule := [
  ⟨0x4108, 16, 4, 0, 1, 3, fun n _ =>
    onBit v 0 (execTrgCommit (Fin.ofNat 4 n)) ++ onBit v 1 (execTrgCommitTimed (Fin.ofNat 4 n))⟩,
  ⟨0x4100, 1, 64, 0, 1, 3, fun n _ =>
    let c : Fin 4 := Fin.ofNat 4 (n / 16)
    let u : Fin 8 := Fin.ofNat 8 (n % 16)
    let kc := Reg.TRG_UNIT_CTL (n / 16) (n % 16)
    let armed := bitAt v 1
    s.onEnable kc v (execTrgUnitEnable c u) (execTrgUnitDisable c u) ++
      [execTrgArm c u armed]⟩,
  ⟨0x4100, 1, 64, 2, 3, 0, fun n _ =>
    if n % 16 < 8 then [act fun t => t.notePrior (n / 16) (n % 16) (s.shadowVer (n / 16) (n % 16) 0 0)] else []⟩,
  ⟨0x4141, 1, 1, 0, 4, 0x10000001, fun _ e =>
    (if bitAt v 0 then [State.pulseJudge e] else []) ++ s.plainEnable (Reg.TRG_OUT_CFG e) v ++ onBit v 28 (execTrigOutForce (Fin.ofNat 4 e))⟩,
  ⟨0x4200, 16, 5, 0, 1, 0xF, fun n _ =>
    let q : Fin 5 := Fin.ofNat 5 n
    s.onEnable (Reg.SEQ_CTL n) v (execSeqEnable ⟨q, env.parity⟩) (execSeqDisable q) ++ onBit v 1 (execForceHalt q) ++
      onBit v 2 (execSeqCommit q) ++ onBit v 3 (execFaultPost q)⟩,
  ⟨0x4200, 16, 5, 24, 1, 0xF, fun n _ => [execSeqReq (Fin.ofNat 5 n) (Fin.ofNat 16 (getF v 3 0))]⟩,
  ⟨0x4280, 1, 120, 0, 256, 0, fun _ _ => [act fun s => s.noteStoreWrite k]⟩,
  ⟨0x4300, 16, 4, 0, 1, 1, fun n _ =>
    s.onEnable (Reg.ACQ_CTL n) v (execAcqEnable (Fin.ofNat 4 n)) (execAcqDisable (Fin.ofNat 4 n))⟩,
  ⟨0x4300, 16, 4, 7, 1, 0xFFFFFFFFFFFFFFFF, fun n _ => [execAcqRelWrite who (Fin.ofNat 4 n) v]⟩,
  ⟨0x43F0, 1, 4, 1, 1, 0, fun n _ => [act fun s => s.ebLevel n]⟩]

/-- The actions of the Canopy, spectrogram and display entries. -/
def State.densityRules (s : State) (who : Fin 8) (v : BitVec 64) : List WriteRule := [
  ⟨0x4400, 16, 4, 0, 1, 0x1F, fun n _ =>
    let c : Fin 4 := Fin.ofNat 4 n
    let hold := bitAt v 3
    s.onEnable (Reg.CAN_CTL n) v (execCanEnable c)
        (act fun s => (s.parityFree (Reg.CAN_CTL n)).canDisable n) ++
      onBit v 1 (execCanCommit c) ++ onBit v 2 (execCanClear c) ++
      (if hold = s.bit (Reg.CAN_CTL n) 3 then [] else [execCanHold c hold]) ++
      onBit v 4 (execCanSnap who c)⟩,
  ⟨0x4402, 16, 4, 0, 1, 1, fun n _ =>
    s.onEnable (Reg.SPG_CTL n) v (execSpgEnable (Fin.ofNat 4 n))
      (act fun s => (s.parityFree (Reg.SPG_CTL n)).spgDisable n)⟩,
  ⟨0x4500, 1, 1, 0, 1, 0xFFF, fun _ _ =>
    s.onEnable Reg.SCN_CTL v execScnEnable execScnDisable ++ onBit v 1 execScnCommit ++
      onBit v 2 execPsrEnter ++ onBit v 3 execPsrExit ++
      if getF v 11 4 = 0 then [] else [execTraceReset (BitVec.ofNat 8 (getF v 11 4))]⟩]

/-- ENABLE of a supply monitor (R369, R376). -/
def State.monEnableActs (s : State) (w : Nat) (v : BitVec 64) : List Act :=
  let kc := Reg.CMP_MON_CTL w
  let was := s.bit kc 0
  s.onEnable kc v
    (act fun s => if s.parityStopped kc then s else (s.putBit kc 0 true).monEnable w was)
    (act fun s => ((s.parityFree kc).putBit kc 0 false).monEnable w was)

/-- The actions of the Lantern, time and supply entries. -/
def State.dspRules (s : State) (v : BitVec 64) : List WriteRule := [
  ⟨0x5000, 1, 32, 0, 1, 7, fun n _ =>
    let c : Fin 32 := Fin.ofNat 32 n
    s.onEnable (Reg.LNT_CTL n) v (execLntEnable c) (execLntDisable c) ++ onBit v 1 (execLntForceHalt c) ++
      onBit v 2 (execLntHostIrq c)⟩,
  ⟨0x5020, 1, 8, 0, 1, 1, fun n _ =>
    let p : Fin 8 := Fin.ofNat 8 n
    s.onEnable (Reg.LNT_POOL_CTL n) v (execLntPoolEnable p true) (execLntPoolEnable p false)⟩,
  ⟨0x5100, 1, 64, 0, 1, 15, fun n _ =>
    let i : Fin 64 := Fin.ofNat 64 n
    [execTimStreams i (BitVec.ofNat 2 (getF v 2 1))] ++ s.onEnable (Reg.TIM_CTL n) v (execTimEnable i true) (execTimEnable i false) ++ onBit v 3 (execInlStart i)⟩,
  ⟨0x5100, 1, 64, 19, 1, 0xFFFFFFFFFFFFFFFF, fun n _ => [execTimSRelWrite (Fin.ofNat 64 n) 0 v]⟩,
  ⟨0x5100, 1, 64, 35, 1, 0xFFFFFFFFFFFFFFFF, fun n _ => [execTimSRelWrite (Fin.ofNat 64 n) 1 v]⟩,
  ⟨0x5200, 1, 64, 0, 2, 0xFFFFFFFF, fun n e =>
    [execCmpThresholdWrite (Fin.ofNat 64 n) (e == 1) (BitVec.ofNat 32 v.toNat)]⟩,
  ⟨0x5240, 1, 16, 0, 1, 1, fun n _ => s.monEnableActs n v⟩,
  ⟨0x5240, 1, 16, 2, 1, 0x1FFFFFFF, fun n _ => [execMonThrWrite (Fin.ofNat 16 n) (BitVec.ofNat 32 v.toNat)]⟩,
  ⟨0x5300, 1, 16, 0, 1, 3, fun n _ =>
    let x : Fin 20 := Fin.ofNat 20 n
    s.onEnable (supCtl n) v (execSupEnable x true) (execSupEnable x false) ++ onBit v 1 (execSupTrigger x)⟩,
  ⟨0x5340, 1, 4, 0, 1, 3, fun n _ =>
    let x : Fin 20 := Fin.ofNat 20 (16 + n)
    s.onEnable (supCtl (16 + n)) v (execSupEnable x true) (execSupEnable x false) ++
      onBit v 1 (execSupTrigger x)⟩]

/-- A command word of QDM_Q_CMD (R406, R425). -/
def queueCommand (v : BitVec 64) : Act :=
  let q : Fin 65536 := Fin.ofNat 65536 (getF v 15 0)
  match getF v 17 16 with
  | 1 => execQueueEnable q
  | 2 => execQueueDisable q
  | 3 => execQueueSync q
  | _ => act fun s => s.queueStatus q

/-- A write of the doorbell entry (R416). -/
def doorbellAct (v : BitVec 64) : Act := fun s =>
  if s.doorbellUndefined v ≠ 0 then .fault (.undefinedOutcome (s.doorbellUndefined v)) else .next (s.doorbell v)

/-- ENABLE of a feed: an enabled feed starts with nothing gathered (R414, R426). IQ_LOG2 of an IQ feed lies from 4
to 11 (R426, R609). -/
def State.feedEnable (s : State) (f : Nat) (v : BitVec 64) : List Act :=
  let kf := Reg.QDM_FEED f
  let fresh := bitAt v 0 && !s.enableShown kf
  (if fresh && getF v 5 4 == 3 && decide (getF v 41 38 < 4 ∨ 11 < getF v 41 38) then
    [fun _ => .fault (.undefinedOutcome 609)] else []) ++
  s.plainEnable kf v ++ if fresh then [act fun s => s.setFeed f default] else []

/-- The actions of the memory, queue and PCIe entries. -/
def State.memoryRules (s : State) (v : BitVec 64) : List WriteRule := [
  ⟨0x6000, 1, 1, 0, 1, 3, fun _ _ =>
    s.onEnable Reg.MEM_CTL v execMemEnable execMemDisable ++ onBit v 1 execRetrain⟩,
  ⟨0x6000, 1, 1, 4, 1, if bitAt v 31 then 0x8000001F else 0x80000000, fun _ _ =>
    onBit v 31 (execMemRateReq (Fin.ofNat 32 (getF v 4 0)))⟩,
  ⟨0x6200, 1, 1, 1, 1, 0x30000, fun _ _ => [queueCommand v]⟩,
  ⟨0x6200, 1, 1, 3, 1, 0xFFFFFFFFFFFFFFFF, fun _ _ => [doorbellAct v]⟩,
  ⟨0x6210, 1, 1, 0, 16, 1, fun _ e => s.feedEnable e v⟩,
  ⟨0x6240, 1, 128, 0, 1, 7, fun n _ =>
    let ch : Fin 128 := Fin.ofNat 128 n
    let pause := bitAt v 1
    s.onEnable (Reg.QDM_CH_CTL n) v (execDmaEnable ch) (execDmaDisable ch) ++
      (if pause = s.bit (Reg.QDM_CH_CTL n) 1 then []
       else [if pause then execDmaPause ch else execDmaResume ch]) ++
      onBit v 2 (execDmaStartDoorbell ch)⟩,
  ⟨0x6300, 1, 4, 10, 1, if bitAt v 29 then 0xFFFFFFFFFFFFFFFF else 0x20000000, fun n _ =>
    onBit v 29 (execCfgAccGo (Fin.ofNat 4 n) v)⟩]

/-- The actions of the drive and fabric entries. -/
def State.fabricRules (s : State) (v : BitVec 64) : List WriteRule := [
  ⟨0x6400, 1, 4, 0, 1, 3, fun n _ =>
    let x : Fin 4 := Fin.ofNat 4 n
    let init := bitAt v 2
    s.onEnable (Reg.DRV_SET_CTL n) v (execDrvSetEnable x true init) (execDrvSetEnable x false init) ++
      onBit v 1 (execDrvStop x)⟩,
  ⟨0x6500, 1, 1, 0, 1, 3, fun _ _ =>
    s.onEnable Reg.FAB_CTL v (execFabEnable true) (execFabEnable false) ++ onBit v 1 execFabStep⟩,
  ⟨0x6510, 1, 8, 0, 1, 1, fun n _ =>
    let p : Fin 8 := Fin.ofNat 8 n
    s.onEnable (Reg.FAB_PORT_CTL n) v (execFabPortEnable p true) (execFabPortEnable p false)⟩,
  ⟨0x6520, 1, 16, 0, 1, 0, fun n _ => [execPortRetest (n / 2)]⟩,
  ⟨0x6520, 1, 16, 4, 1, 0x10000, fun n _ => onBit v 16 (execEyeScanStart (Fin.ofNat 64 (48 + n)))⟩]

/-- The rule of a slot, if a write of it does more than store fields. (DEDUCED, log entry 9.) -/
def State.writeRule (s : State) (who : Fin 8) (env : WriteEnv) (k : Nat) (v : BitVec 64) :
    Option WriteRule :=
  let rs := match slotIndex k / 4096 with
    | 1 => s.mgmtRules who v
    | 2 => s.clockRules who env v
    | 3 => s.intakeRules v
    | 4 => s.intakeRules v ++ s.triggerRules who env k v ++ s.densityRules who v
    | 5 => s.dspRules v
    | _ => s.memoryRules v ++ s.fabricRules v ++ s.mgmtRules who v
  rs.find? fun r => r.covers k

/-! ### The fields a write takes (R12, R13, R507, R511, R512) -/

/-- A slot's content after a write of `v`: CTL and SHD fields take it, CFG fields do so while the owning
block is disabled, EVT fields written 1 clear unless hardware sets them in the same clock, and a
counter takes it unless hardware updates it in that clock. `kept` are bits the write's actions set.
(DESIGN CHOICE, log entry 10.) -/
def EntryRow.mix (r : EntryRow) (busy : Bool) (kept hw old v : BitVec 64) : BitVec 64 :=
  let m (n : Nat) : BitVec 64 := BitVec.ofNat 64 n
  let cnt := if m r.cnt &&& hw = 0 then m r.cnt else 0
  let cfg := if busy then 0 else m r.cfg
  let takes := (m r.plain ||| cfg ||| cnt) &&& ~~~kept &&& ~~~(m r.self)
  let clears := m r.w1c &&& v &&& ~~~hw
  (old &&& ~~~takes &&& ~~~clears) ||| (v &&& takes)

/-- PAIRED exists in LG0 and LG2 only: a 1 written to it elsewhere is ignored (R57). -/
def strayPaired (k : Nat) (v : BitVec 64) : Bool :=
  bitAt v 3 && (k == Reg.LNK_GRP_CTL 1 || k == Reg.LNK_GRP_CTL 3)

/-- A write of `v` that reaches the fields of an entry. (DEDUCED, log entry 8.) (DEDUCED, log entry 9.)
(DESIGN CHOICE, log entry 10.) -/
def State.takeWrite (s : State) (who : Fin 8) (r : EntryRow) (k : Nat) (v : BitVec 64) (env : WriteEnv) :
    Host.Outcome State Fault Refusal :=
  let stray := strayPaired k v
  let v := (if stray then setBit v 3 false else v) &&& s.typeBits k v
  let busy := s.busy k && !inProtection k
  let rule := s.writeRule who env k v
  let kept := match rule with
    | some x => BitVec.ofNat 64 x.bits
    | none => 0
  let cfg := BitVec.ofNat 64 r.cfg &&& ~~~kept
  let old := s.rd k
  let changes := busy && (v ^^^ old) &&& cfg != 0
  let lost := env.hw &&& BitVec.ofNat 64 r.cnt != 0
  let s := s.wr k (r.mix busy kept env.hw old v)
  let s := { s with mgt := { s.mgt with faulted := s.mgt.faulted.filter fun x => !(x == k) } }
  let s := if stray || changes then s.flag who k .ignored else s
  let s := if lost then s.flag who k .conflict else s
  match rule with
  | some x => runActs (x.acts ((slotIndex k - x.base) / x.stride) (slotSub k - x.sub)) s
  | none => .next s

/-- One slot of a write by a requester that covers bytes `lo` to `hi` - 1 of the slot (R505-R508, R514,
R544, R545, R561). (DEDUCED, log entry 8.) -/
def State.writeSlot (s : State) (who : Fin 8) (uid k lo hi : Nat) (v : BitVec 64) (env : WriteEnv) :
    Host.Outcome State Fault Refusal :=
  if !s.servedNow k then .next (s.flag who k .ignored)
  else if !s.mayReach who uid (slotIndex k) true then .next (s.flag who k .denied)
  else match findRow k with
  | none => .next (s.flag who k .noEntry)
  | some r =>
    if r.ty.width ≤ lo then .next s
    else if 0 < lo ∨ hi < r.ty.width then .next (s.flag who k .narrow)
    else if inProtection k && who != 6 then .next (s.flag who k .denied)
    else if r.acc == .ro || (inProtection k && s.locked) || s.writeIgnored k v ||
        (r.acc == .rwd && !inProtection k && s.busy k) then .next (s.flag who k .ignored)
    else match s.writeUndefined k v with
      | some rule => .fault (.undefinedOutcome rule)
      | none => s.takeWrite who r k v env

/-- A requester is served (R434, R543, R561): not before PROT_LOCK unless it is the boot code, not in the ROM's
FAIL stage, and not in STOWED; BAR0 of a port only while its endpoint function answers. -/
def State.serves' (s : State) (who : Nat) : Bool :=
  who == 6 || (s.locked && s.stage != 7 && decide (s.power ≤ 4) && (decide (4 ≤ who) || s.epServes who))

/-- An access begins: the flags of earlier ones are forgotten, and a block that uses SRAM is noted (R398).
(DESIGN CHOICE, log entry 1.) -/
def State.fresh' (s : State) : State :=
  let s := s.noteSram
  { s with mgt := { s.mgt with flagged := none } }

/-- A write transaction, slot by slot in ascending address order (R508). `off` is the place of the first
byte in its slot. -/
def State.writeBytes (who : Fin 8) (uid : Nat) (env : WriteEnv) :
    (fuel : Nat) → (k off : Nat) → List (BitVec 8) → State → Host.Outcome State Fault Refusal
  | 0, _, _, _, s => .next s
  | fuel + 1, k, off, bs, s =>
    if bs.isEmpty then .next s
    else
      let now := bs.take (8 - off)
      let v := BitVec.ofNat 64 (ofLe now * 2 ^ (8 * off))
      match s.writeSlot who uid k off (off + now.length) v env with
      | .next s => State.writeBytes who uid env fuel (k + 1) 0 (bs.drop (8 - off)) s
      | o => o

/-- A write by a requester to BAR0 addresses from `addr` (R507, R508). A write beyond the dictionary's 128
MiB reaches nothing. -/
def execRegisterWrite (who : Fin 8) (uid : BitVec 56) (addr : BitVec 27) (data : List (BitVec 8))
    (env : WriteEnv) (s : State) : Host.Outcome State Fault Refusal :=
  if s.serves' who && who != 7 then
    State.writeBytes who uid.toNat env data.length (addr.toNat / 8) (addr.toNat % 8) data s.fresh'
  else .next s

end Sys2Proof.Machine
end

