-- ==== Sys2Proof/Machine/Rap.lean ====
section
/-! DEFINITION. RAP: messages, sessions, execution in order, NOTIFY and the management Ethernet port
(R518-R525). -/

namespace Sys2Proof.Machine

/-! ### Messages (R519) -/

/-- MAGIC of a RAP header: 0x43, 0x46, 0x52, 0x50. -/
def rapMagic : Nat := 0x50524643

/-- The bytes of a reply or NOTIFY. -/
def RapReply.bytes (r : RapReply) (reply : Bool) : List (BitVec 8) :=
  leBytes 4 rapMagic ++ leBytes 1 1 ++ leBytes 1 (r.op + b2n reply * 128) ++ leBytes 2 r.data.length ++
    leBytes 4 r.session ++ leBytes 4 r.seq ++ leBytes 2 r.status ++ leBytes 2 r.count ++ leBytes 4 r.addr ++
    leBytes 8 r.ts.word.toNat ++ r.data

/-- The operation, REPLY and message that bytes spell, if they hold a header. (DEDUCED, log entry 15.) -/
def rapParse (bs : List (BitVec 8)) : Option (Nat × Bool × RapMsg) :=
  if bs.length < 32 then none
  else
    let n (at' len : Nat) : Nat := ofLe ((bs.drop at').take len)
    some (n 5 1 % 128, decide (128 ≤ n 5 1),
      { magic := n 0 4, version := n 4 1, len := n 6 2, session := n 8 4, seq := n 12 4, status := n 16 2,
        count := n 18 2, addr := n 20 4, data := bs.drop 32 })

/-- One whole message: MAGIC, VERSION and LEN are right, and SESSION is not the reserved 0 (R518, R519). -/
def RapMsg.whole (m : RapMsg) : Bool :=
  m.magic == rapMagic && m.version == 1 && m.len == m.data.length && decide (m.len ≤ 1024) &&
    m.session != 0

/-- Counts a message that is not whole (R518). -/
def State.rapBad (s : State) : State := s.bumpSat Reg.MGT_RAP_BAD 32

/-! ### The management Ethernet port (R525) -/

/-- The port runs. (DEDUCED, log entry 16.) -/
def State.ethRuns (s : State) : Bool := s.bit Reg.MGT_ETH_CTL 0

/-- The port's IPv4 address. -/
def State.ethIp (s : State) : Nat := s.fld Reg.MGT_ETH_IP 31 0

/-- A frame is taken and counted. -/
def State.ethTaken (s : State) : State := s.bump Reg.MGT_ETH_RX 64

/-- A frame is discarded and counted. -/
def State.ethDrop (s : State) : State := s.bumpSat Reg.MGT_ETH_DROP 32

/-- A frame leaves and is counted. -/
def State.ethSend (s : State) (m : OutMsg) : State := (s.bump Reg.MGT_ETH_TX 64).send m

/-- A RAP message leaves toward a client. -/
def State.rapSend (s : State) (peer : Peer) (r : RapReply) (reply : Bool) : State :=
  match peer with
  | .eth .. => s.ethSend (.rap peer r)
  | .fabric uid => s.e2eSend uid ((s.addrOfUid uid).getD 0x3FF) (.rap (r.bytes reply))

/-! ### Sessions (R522) -/

/-- Requester number of a client (R514). -/
def Peer.who : Peer → Fin 8
  | .eth .. => 4
  | .fabric _ => 5

/-- UID of a fabric client. -/
def Peer.uid : Peer → Nat
  | .eth .. => 0
  | .fabric u => u

/-- Two messages come from one client: IP address and UDP port, or UID, agree. -/
def Peer.same : Peer → Peer → Bool
  | .eth _ i p, .eth _ j q => i == j && p == q
  | .fabric u, .fabric v => u == v
  | _, _ => false

/-- A session of a client and number. -/
def Session.is (x : Session) (peer : Peer) (id : Nat) : Bool := x.id == id && x.peer.same peer

/-- The session of a client and number. -/
def State.session (s : State) (peer : Peer) (id : Nat) : Option Session :=
  s.mgt.sessions.find? fun x => x.is peer id

/-- Replaces all sessions and shows their number. -/
def State.setSessions (s : State) (xs : List Session) : State :=
  ({ s with mgt := { s.mgt with sessions := xs } } : State).wrN Reg.MGT_RAP_SESSIONS xs.length

/-- Changes one session. -/
def State.onSession (s : State) (peer : Peer) (id : Nat) (f : Session → Session) : State :=
  s.setSessions (s.mgt.sessions.map fun x => if x.is peer id then f x else x)

/-- The session idle for longest. (DEDUCED, log entry 15.) -/
def longestIdle (now : Nat) (xs : List Session) : Option Session :=
  xs.foldl (fun b x => match b with
    | none => some x
    | some y => if now - y.lastAt < now - x.lastAt then some x else some y) none

/-- A session as it opens: its SEQ is the first expected. (DEDUCED, log entry 15.) -/
def openSession (peer : Peer) (id seq now : Nat) : Session :=
  { peer := peer, id := id, expected := seq, ahead := [], cache := [], lastAt := now, subs := 0, buf := [],
    nseq := 0, outstanding := [] }

/-- Room for one more session, by closing the one idle for longest if it has been so for IDLE_S. -/
def State.sessionRoom (s : State) : State × Bool :=
  if s.mgt.sessions.length < 32 then (s, true)
  else match longestIdle s.clk.up s.mgt.sessions with
    | none => (s, false)
    | some x =>
      if s.elapsed x.lastAt (msec (1000 * s.fld Reg.MGT_RAP_CFG 23 8)) then
        ((s.setSessions (s.mgt.sessions.filter fun y => !(y.is x.peer x.id))).raise 3 x.id, true)
      else (s, false)

/-! ### Execution (R520, R521) -/

/-- What a request's execution gives: the state, STATUS and the reply's data. -/
structure RapDone where
  state : State
  status : Nat
  data : List (BitVec 8)

/-- STATUS of the first flag of an access (R521). -/
def statusOf : Option Nat → Nat
  | none => 0
  | some 0 => 2
  | some 1 => 4
  | some 3 => 1
  | some 4 => 3
  | some _ => 2

/-- The first cause met stays. -/
def firstCause (a b : Nat) : Nat := if a = 0 then b else a

/-- Slots of a block: the subindex runs on into the next index (R520). -/
def blockSlot (addr i : Nat) : Nat := (addr + i) % 2 ^ 24

/-- Reads consecutive slots. -/
def State.readBlock (who uid addr : Nat) : (fuel i : Nat) → State → RapDone
  | 0, _, s => { state := s, status := 0, data := [] }
  | fuel + 1, i, s =>
    let r := s.fresh'.readSlot who uid (blockSlot addr i)
    let rest := State.readBlock who uid addr fuel (i + 1) r.1
    { rest with status := firstCause (statusOf r.1.mgt.flagged) rest.status,
                data := leBytes 8 r.2.toNat ++ rest.data }

/-- Writes consecutive slots: the state, STATUS and the slots written, lowest first. (DEDUCED, log entry 12.) -/
def State.writeBlock (who : Fin 8) (uid addr : Nat) :
    (i : Nat) → List (BitVec 64) → List WriteEnv → State →
      Host.Outcome (State × Nat × List Bool) Fault Refusal
  | _, [], _, s => .next (s, 0, [])
  | i, v :: vs, envs, s =>
    match s.fresh'.writeSlot who uid (blockSlot addr i) 0 8 v (envs.head?.getD default) with
    | .next s =>
      let st := statusOf s.mgt.flagged
      match State.writeBlock who uid addr (i + 1) vs envs.tail s with
      | .next r => .next (r.1, firstCause st r.2.1, (st == 0) :: r.2.2)
      | .fault f => .fault f
      | .refused f => .refused f
    | .fault f => .fault f
    | .refused f => .refused f

/-- The 8-byte words of a request's data. -/
def dataWords (n : Nat) (bs : List (BitVec 8)) : List (BitVec 64) :=
  (List.range n).map fun i => BitVec.ofNat 64 (ofLe ((bs.drop (8 * i)).take 8))

/-- The number whose bits are a list, lowest first. -/
def bitsNat : List Bool → Nat
  | [] => 0
  | b :: r => b2n b + 2 * bitsNat r

/-- OP, COUNT and LEN are in range (R520, R521). -/
def RapMsg.fits (m : RapMsg) (op : Nat) : Bool :=
  match op with
  | 1 => m.count == 1 && m.len == 0
  | 2 => m.count == 1 && m.len == 8
  | 3 => decide (1 ≤ m.count ∧ m.count ≤ 128) && m.len == 0
  | 4 => decide (1 ≤ m.count ∧ m.count ≤ 128) && m.len == 8 * m.count
  | 5 =>
    let v := ofLe m.data
    let n := v / 1024 % 2048
    m.len == 4 && decide (1 ≤ n ∧ v % 1024 + n ≤ 1024)
  | _ => false

/-- A SUBSCRIBE's change of a session's events. -/
def Session.subscribe (x : Session) (v : Nat) : Session :=
  let range := (2 ^ (v / 1024 % 2048) - 1) * 2 ^ (v % 1024)
  { x with subs := if v.testBit 21 then x.subs ||| range else x.subs - (x.subs &&& range) }

/-- Executes one request of a session (R520). (DESIGN CHOICE, log entry 10.) -/
def State.rapRun (s : State) (peer : Peer) (op : Nat) (m : RapMsg) (envs : List WriteEnv) :
    Host.Outcome RapDone Fault Refusal :=
  let addr := m.addr % 2 ^ 24
  let who := peer.who
  if !m.fits op then .next { state := s, status := 6, data := [] }
  else match op with
  | 1 => .next (State.readBlock who peer.uid addr 1 0 s)
  | 2 =>
    match State.writeBlock who peer.uid addr 0 (dataWords 1 m.data) envs s with
    | .next r => .next { state := r.1, status := r.2.1, data := [] }
    | .fault f => .fault f
    | .refused f => .refused f
  | 3 => .next (State.readBlock who peer.uid addr m.count 0 s)
  | 4 =>
    match State.writeBlock who peer.uid addr 0 (dataWords m.count m.data) envs s with
    | .next r => .next { state := r.1, status := r.2.1, data := leBytes 16 (bitsNat r.2.2) }
    | .fault f => .fault f
    | .refused f => .refused f
  | _ => .next { state := s.onSession peer m.session fun x => x.subscribe (ofLe m.data), status := 0,
                 data := [] }

/-- The reply to a request. (DEDUCED, log entry 15.) -/
def State.rapReply (s : State) (op : Nat) (m : RapMsg) (status : Nat) (data : List (BitVec 8)) : RapReply :=
  { op := op, session := m.session, seq := m.seq, status := status, count := m.count, addr := m.addr,
    ts := s.now, data := data }

/-- Executes the request whose turn has come, caches its reply and sends it (R522, R523); a cold reset that it
starts leaves no session to answer. -/
def State.rapTurn (s : State) (peer : Peer) (op : Nat) (m : RapMsg) (envs : List WriteEnv) :
    Host.Outcome State Fault Refusal :=
  match s.rapRun peer op m envs with
  | .next d =>
    if (d.state.session peer m.session).isNone then .next d.state
    else
      let r := d.state.rapReply op m d.status d.data
      let s := d.state.onSession peer m.session fun x =>
        { x with expected := (m.seq + 1) % 2 ^ 32, cache := (r :: x.cache).take 64 }
      .next (s.rapSend peer r true)
  | .fault f => .fault f
  | .refused f => .refused f

/-- Executes held requests while the next expected one is among them. (DEDUCED, log entry 15.) -/
def State.rapAhead (peer : Peer) (id : Nat) : (fuel : Nat) → State → Host.Outcome State Fault Refusal
  | 0, s => .next s
  | fuel + 1, s =>
    match s.session peer id with
    | none => .next s
    | some x =>
      match x.ahead.find? fun e => e.2.seq == x.expected with
      | none => .next s
      | some e =>
        let s := s.onSession peer id fun y => { y with ahead := y.ahead.filter fun f => !(f.2.seq == e.2.seq) }
        match s.rapTurn peer e.1 e.2 [] with
        | .next s => State.rapAhead peer id fuel s
        | o => o

/-- A request of an open session meets its order (R522). -/
def State.rapOrder (s : State) (peer : Peer) (x : Session) (op : Nat) (m : RapMsg) (envs : List WriteEnv) :
    Host.Outcome State Fault Refusal :=
  let d := (m.seq + 2 ^ 32 - x.expected) % 2 ^ 32
  if d = 0 then
    match s.rapTurn peer op m envs with
    | .next s => State.rapAhead peer m.session 16 s
    | o => o
  else if d < 2 ^ 31 then
    if 16 ≤ x.ahead.length || x.ahead.any fun e => e.2.seq == m.seq then .next s
    else .next (s.onSession peer m.session fun y => { y with ahead := y.ahead ++ [(op, m)] })
  else match x.cache.find? fun r => r.seq == m.seq with
    | some r => .next ((s.bumpSat Reg.MGT_RAP_RETRIES 32).rapSend peer r true)
    | none =>
      let s := s.bumpSat Reg.MGT_RAP_STALE 32
      .next (s.rapSend peer (s.rapReply op m 5 []) true)

/-- A whole request reaches its session, or opens one (R522). -/
def State.rapServe (s : State) (peer : Peer) (op : Nat) (m : RapMsg) (envs : List WriteEnv) :
    Host.Outcome State Fault Refusal :=
  match s.session peer m.session with
  | some x =>
    let s := s.onSession peer m.session fun y => { y with peer := peer, lastAt := s.clk.up }
    s.rapOrder peer x op m envs
  | none =>
    let (s, room) := s.sessionRoom
    if room then
      let x := openSession peer m.session m.seq s.clk.up
      let s := s.setSessions (s.mgt.sessions ++ [x])
      s.rapOrder peer x op m envs
    else .next (s.rapSend peer (s.rapReply op m 7 []) true)

/-- RAP is served to a kind of client: ETH_EN or FAB_EN (R532), after PROT_LOCK and not in FAIL (R541, R543).
(DEDUCED, log entry 16.) -/
def State.rapOn (s : State) (peer : Peer) : Bool :=
  s.bit Reg.MGT_RAP_CFG (match peer with
    | .eth .. => 0
    | .fabric _ => 1) && s.locked && s.stage != 7

/-- A client's acknowledgement of a NOTIFY (R524): one already given is ignored. -/
def State.notifyAck (s : State) (peer : Peer) (id seq : Nat) : State :=
  s.onSession peer id fun x =>
    { x with outstanding := x.outstanding.filter fun o => !(o.seq == seq), lastAt := s.clk.up }

/-- A RAP message arrives, with its operation and REPLY bit: held during a warm reset, discarded while RAP is
not served (R518, R541, R543, R550). (DEDUCED, log entry 15.) -/
def State.rapArrive (s : State) (peer : Peer) (op : Nat) (reply : Bool) (m : RapMsg) (envs : List WriteEnv) :
    Host.Outcome State Fault Refusal :=
  if !s.rapOn peer then .next s
  else if !m.whole then .next s.rapBad
  else if reply then .next (if op = 6 then s.notifyAck peer m.session m.seq else s)
  else if s.inReset then .next (s.setBoot { s.boot with held := s.boot.held ++ [(peer, op, m)] })
  else s.rapServe peer op m envs

/-- A RAP datagram or message reaches the device from a client. On Ethernet it must be taken by the port; it
wakes the device, and one that wakes it from STOWED is discarded (R525, R560). (DEDUCED, log entry 16.) -/
def State.rapFrom (s : State) (peer : Peer) (op : Nat) (reply : Bool) (m : RapMsg) (envs : List WriteEnv) :
    Host.Outcome State Fault Refusal :=
  match peer with
  | .fabric _ => s.rapArrive peer op reply m envs
  | .eth .. =>
    if !s.ethRuns || s.ethIp == 0 then .next s
    else if s.wakeUndefined 1 1 5 then .fault (.undefinedOutcome 609)
    else if 5 ≤ s.power then .next (s.wakeBy 1 2 1 5)
    else if !s.bit Reg.MGT_RAP_CFG 0 then .next (s.ethTaken.ethDrop.wakeBy 1 2 1 5)
    else (s.ethTaken.wakeBy 1 2 1 5).rapArrive peer op reply m envs

/-! ### The commands -/

/-- A READ request (R520). -/
def execRapRead (peer : Peer) (m : RapMsg) (s : State) : Host.Outcome State Fault Refusal :=
  s.rapFrom peer 1 false m []

/-- A WRITE request (R520, R523). -/
def execRapWrite (peer : Peer) (m : RapMsg) (env : WriteEnv) (s : State) :
    Host.Outcome State Fault Refusal :=
  s.rapFrom peer 2 false m [env]

/-- A READ_BLOCK request (R509, R520). -/
def execRapReadBlock (peer : Peer) (m : RapMsg) (s : State) : Host.Outcome State Fault Refusal :=
  s.rapFrom peer 3 false m []

/-- A WRITE_BLOCK request (R520, R523). -/
def execRapWriteBlock (peer : Peer) (m : RapMsg) (envs : List WriteEnv) (s : State) :
    Host.Outcome State Fault Refusal :=
  s.rapFrom peer 4 false m envs

/-- A SUBSCRIBE request (R520, R524). -/
def execRapSubscribe (peer : Peer) (m : RapMsg) (s : State) : Host.Outcome State Fault Refusal :=
  s.rapFrom peer 5 false m []

/-- A client's NOTIFY reply (R524). -/
def execNotifyAck (peer : Peer) (m : RapMsg) (s : State) : Host.Outcome State Fault Refusal :=
  s.rapFrom peer 6 true m []

/-- NOTIFY messages may leave: no warm reset holds the device, and it is not in STOWED. (DEDUCED, log entry 16.) -/
def State.notifyOpen (s : State) (peer : Peer) : Bool :=
  s.rapOn peer && !s.inReset && decide (s.power ≤ 4) && (match peer with
    | .eth .. => s.ethRuns
    | .fabric _ => true)

/-- A NOTIFY message of a session. -/
def State.notifyMsg (s : State) (x : Session) (seq : Nat) (recs : List EventRec) : RapReply :=
  { op := 6, session := x.id, seq := seq, status := 0, count := recs.length, addr := 0, ts := s.now,
    data := recs.flatMap EventRec.bytes }

/-- A session's buffered records leave, up to 32 in order of ORDER, while fewer than 8 NOTIFY messages are
outstanding (R524). `i` is the session's place. -/
def execNotifySend (i : Fin 32) (s : State) : Host.Outcome State Fault Refusal :=
  .next (
    match s.mgt.sessions[i.val]? with
    | none => s
    | some x =>
      if x.buf.isEmpty || decide (8 ≤ x.outstanding.length) || !s.notifyOpen x.peer then s
      else
        let recs := x.buf.take 32
        let o : NotifyOut := { seq := x.nseq, recs := recs, sentAt := s.clk.up }
        let s := s.onSession x.peer x.id fun y =>
          { y with buf := y.buf.drop 32, nseq := (y.nseq + 1) % 2 ^ 32, outstanding := y.outstanding ++ [o] }
        s.rapSend x.peer (s.notifyMsg x o.seq recs) false)

/-- An outstanding NOTIFY is sent again after 1 ms (R524). -/
def execNotifyResend (i : Fin 32) (seq : BitVec 32) (s : State) : Host.Outcome State Fault Refusal :=
  .next (
    match s.mgt.sessions[i.val]? with
    | none => s
    | some x =>
      match x.outstanding.find? fun o => o.seq == seq.toNat with
      | none => s
      | some o =>
        if s.elapsed o.sentAt (msec 1) && s.notifyOpen x.peer then
          let s := s.onSession x.peer x.id fun y =>
            { y with outstanding := y.outstanding.map fun (p : NotifyOut) =>
                if p.seq = o.seq then { p with sentAt := s.clk.up } else p }
          (s.bumpSat Reg.MGT_NOTIFY_RESENT 32).rapSend x.peer (s.notifyMsg x o.seq o.recs) false
        else s)

/-- The port acts on frames: it runs, has an address and the device is not in STOWED (R525). -/
def State.ethActs (s : State) : Bool := s.ethRuns && s.ethIp != 0 && decide (s.power ≤ 4)

/-- An ARP request for an address (R525). -/
def execArpRequest (mac : BitVec 48) (ip target : BitVec 32) (s : State) : Host.Outcome State Fault Refusal :=
  .next (
    if s.ethActs then
      if target.toNat = s.ethIp then s.ethTaken.ethSend (.arpReply mac.toNat ip.toNat (s.rdN Reg.MGT_ETH_MAC) s.ethIp)
      else s.ethTaken.ethDrop
    else s)

/-- An ICMP echo request to MGT_ETH_IP (R525). -/
def execIcmpEchoRequest (mac : BitVec 48) (ip : BitVec 32) (data : List (BitVec 8)) (s : State) :
    Host.Outcome State Fault Refusal :=
  .next (
    if s.ethActs then
      if s.bit Reg.MGT_ETH_CTL 1 then s.ethTaken.ethSend (.icmpReply mac.toNat ip.toNat (s.rdN Reg.MGT_ETH_MAC) s.ethIp data)
      else s.ethTaken.ethDrop
    else s)

/-- A frame that the port does not act on (R525); `taken` says that its FCS and destination made the port
take it. -/
def execEthFrameDiscard (taken : Bool) (s : State) : Host.Outcome State Fault Refusal :=
  .next (
    if s.ethRuns && decide (s.power ≤ 4) then (if taken then s.ethTaken.ethDrop else s.ethDrop) else s)

/-- LINK_UP changes (R525): the link is up only while the port runs, and auto-negotiation has then ended where
it is used. -/
def execMgtEthLink (up : Bool) (s : State) : Host.Outcome State Fault Refusal :=
  .next (if up && !s.ethRuns then s else s.ethLink up)

end Sys2Proof.Machine
end

