-- ==== Sys2Proof/Machine/Boot.lean ====
section
/-! DEFINITION. The boot ROM: slots, the boot script and the return from a warm reset (R536-R542, R550-R552,
R571, R588). -/

namespace Sys2Proof.Machine

/-! ### Slots (R536-R538) -/

/-- A field of a boot image's header. -/
def headF (h : List (BitVec 8)) (off n : Nat) : Nat := ofLe ((h.drop off).take n)

/-- Header of a slot as it was read. (DEDUCED, log entry 48.) -/
def SlotRead.head (r : SlotRead) (n : Nat) : List (BitVec 8) := if n = 0 then r.head0 else r.head1

/-- KEY_SLOT names a fused key that is not revoked. -/
def State.keyOk (s : State) (k : Nat) : Bool :=
  decide (k < 4) && s.bit Reg.MGT_KEY_STS k && !s.bit Reg.MGT_KEY_STS (4 + k)

/-- Why a slot does not verify, with the FAIL_CAUSE codes of R541 (R537). (DEDUCED, log entry 48.) -/
def State.slotFails (s : State) (r : SlotRead) (n : Nat) : Option Nat :=
  let h := r.head n
  let len := headF h 0x10 4
  if !r.answered then some 6
  else if h.take 4 ≠ [0x43, 0x46, 0x42, 0x54] ∨ headF h 4 2 ≠ 1 then some 1
  else if len % 16 ≠ 0 ∨ 64 * 2 ^ 20 - 256 < len ∨ r.body.length ≠ len then some 2
  else if !s.keyOk (headF h 6 1) || !r.keyHash then some 3
  else if headF h 0x0C 4 < s.rdN Reg.MGT_ROLLBACK then some 5
  else if !r.sig then some 4
  else none

/-- The slot that the ROM tries: after a warm reset the one it booted from; else the one with the higher SEQ,
slot 0 on a tie, and then the other (R537, R552). -/
def State.slotTried (s : State) (r : SlotRead) : Nat :=
  if s.boot.phase = 3 then s.fld Reg.MGT_BOOT_STS 3 3
  else match s.boot.tried with
  | some n => 1 - n
  | none => if headF r.head0 8 4 < headF r.head1 8 4 then 1 else 0

/-- The boot fails: STAGE becomes FAIL, endpoint ports answer configuration requests with Configuration Request Retry
Status and the xSPI pins go to high impedance (R541). -/
def State.bootFail (s : State) : State :=
  let ep : Vector EpFn 4 := s.ep.map fun (x : EpFn) => { x with enabled := false }
  (({ s with ep := ep } : State).setStage 7).send (.pin "XSPI" 0 2)

/-- The script stops with a cause (R539, R541). -/
def State.scriptStop (s : State) (cause : Nat) : State :=
  (s.setFld Reg.MGT_BOOT_STS 11 8 cause).bootFail

/-! ### The calibration store (R571) -/

/-- An ID without stored values takes nominal ones: it is substituted, and due. (DEDUCED, log entry 48.) -/
def State.calMissing (s : State) (id : Nat) : State :=
  let h := s.hlt
  let s := s.setHlt { h with
    stored := h.stored.filter fun x => x != id, trims := h.trims.filter fun t => t.1 != id
    tables := h.tables.filter fun e => !decide (id < 64 ∧ slotIndex e.1 = 0x5180 + id)
    il := if id = 64 then h.il.set 0 (0, 0x800000) else if id = 65 then h.il.set 1 (0, 0x800000) else h.il }
  (s.putBit (Reg.CAL_ID_STS id) 3 true).calMakeDue id

/-- The ROM loads the calibration store into the blocks. -/
def State.calLoad (s : State) (missing : List Nat) : State :=
  let lost := (List.range calIds).filter fun id => missing.contains id || !s.hlt.stored.contains id
  let s := lost.foldl State.calMissing s
  let s := [0, 2].foldl (fun s c =>
    let v := s.hlt.il.getD (c / 2) (0, 0x800000)
    (s.wrI (Reg.CND_IL_OFS_O c) 24 v.1).wrN (Reg.CND_IL_GAIN c) v.2) s
  s.hlt.tables.foldl (fun s e => s.wr e.1 e.2) s

/-! ### Records of the script (R539) -/

/-- A record of the boot script. -/
structure ScriptRec where
  index : Nat
  sub : Nat
  width : Nat
  op : Nat
  param : Nat
  value : Nat
  deriving DecidableEq, Repr

/-- The slot a record names. -/
def ScriptRec.slot (r : ScriptRec) : Nat := Machine.slot r.index r.sub

/-- Reads a record from its 16 bytes. (DEDUCED, log entry 48.) -/
def scriptRec (b : List (BitVec 8)) : ScriptRec :=
  let v := ofLe (b.take 8)
  { index := natBits v 15 0, sub := natBits v 23 16, width := natBits v 31 24, op := natBits v 35 32,
    param := natBits v 63 40, value := ofLe ((b.drop 8).take 8) }

/-- Bytes of script that a COPY record takes, padded to a multiple of 16. -/
def ScriptRec.padded (r : ScriptRec) : Nat := (r.param + 15) / 16 * 16

/-- The place in a script right after its WARM record, and the number of the record there; `n` bounds the
records looked at (R552). -/
def warmEntry (script : List (BitVec 8)) : Nat → Nat → Nat → Option (Nat × Nat)
  | 0, _, _ => none
  | n + 1, pos, k =>
    if script.length < pos + 16 then none
    else
      let r := scriptRec ((script.drop pos).take 16)
      if r.op = 4 then some (pos + 16, k + 1)
      else if r.op = 6 ∨ 7 ≤ r.op then none
      else warmEntry script n (pos + 16 + if r.op = 5 then r.padded else 0) (k + 1)

/-- The record that the ROM is about to execute. -/
def State.script (s : State) : ScriptRec := scriptRec ((s.boot.script.drop s.boot.pos).take 16)

/-- The ROM goes on to the next record. -/
def State.scriptNext (s : State) (skip : Nat := 0) : State :=
  s.setBoot { s.boot with pos := s.boot.pos + 16 + skip, recNo := s.boot.recNo + 1, waits := none }

/-- SYS, with FFT, FRONT and DSP, which follow it, starts from OFF (R491, R540). (DEDUCED, log entry 48.) -/
def State.sysStart (s : State) : State :=
  if s.pllState 0 = 0 then (List.range 4).foldl State.pllStart s else s

/-- CLK_REF_FREQ lies outside 100,000 to 1,000,000 kHz (R502, R609). -/
def State.refUndefined (s : State) : Bool :=
  let f := s.rdN Reg.CLK_REF_FREQ
  decide (f < 100000 ∨ 1000000 < f)

/-- A record writes CLK_REF_FREQ, so that SYS need not start before it (R540). -/
def ScriptRec.beforeSys (r : ScriptRec) : Bool := r.op == 0 && r.index == 0x2000 && r.sub == 2

/-- The ROM comes to a record of kind `op`: with the record's number noted and SYS started, `f` goes on with
it. A reserved OP, or the end of the script without END, stops the script with cause SCRIPT; a record of
another kind does not answer to this command. (DEDUCED, log entry 48.) -/
def State.scriptRun (s : State) (op : Nat) (f : ScriptRec → State → Host.Outcome State Fault Refusal) :
    Host.Outcome State Fault Refusal :=
  if s.stage ≠ 3 then .next s
  else
    let r := s.script
    let n := s.wrN Reg.MGT_BOOT_REC s.boot.recNo
    if s.boot.script.length < s.boot.pos + 16 ∨ 7 ≤ r.op then .next (n.scriptStop 7)
    else if r.op ≠ op then .next s
    else if !r.beforeSys ∧ s.pllState 0 = 0 ∧ s.refUndefined then .fault (.undefinedOutcome 609)
    else f r (if r.beforeSys then n else n.sysStart)

/-- The condition of a WAIT record, and what reading its slot leaves. (DEDUCED, log entry 48.) -/
def State.waitHolds (s : State) (r : ScriptRec) : State × Bool :=
  let (s, v) := s.readSlot 6 0 r.slot
  (s, natBits v.toNat 31 0 &&& natBits r.value 63 32 == natBits r.value 31 0)

/-! ### The commands -/

/-- POR_N rises: the rails climb, and the ROM begins to read the slots (R542, R559, R588). -/
def execPorRelease (s : State) : Host.Outcome State Fault Refusal :=
  .next (if s.stage = 0 then (s.railsUp 1).setStage 1 else s)

/-- MRAM addresses that fail their ECC count as missing values: a save set with one in its 24 KiB is not valid, and the
age is missing when both its copies hold one (R516, R573, R576). (DEDUCED, log entry 48.) -/
def State.mramBad (s : State) (bad : List (BitVec 18)) : State :=
  let hit := fun (lo n : Nat) => bad.any fun a => decide (lo ≤ a.toNat ∧ a.toNat < lo + n)
  let s := bad.foldl (fun s a => s.raise 19 a.toNat) s
  let drop := fun (n : Nat) (x : SaveSet) => if hit (0x1C000 + n * 0x6000) 0x6000 then { x with valid := false } else x
  let sets := (s.mgt.sets.set 0 (drop 0 s.mgt.sets[0])).set 1 (drop 1 s.mgt.sets[1])
  let s := ({ s with mgt := { s.mgt with sets := sets } } : State).showSets
  if hit 0x28000 0x800 ∧ hit 0x28800 0x800 then
    ({ s with hlt := { s.hlt with ageCopy := none } } : State).wr Reg.HLT_AGE (regDefault Reg.HLT_AGE)
  else s

/-- The script of a slot that has verified begins: after a cold reset the calibration store is loaded first;
after a warm reset the script goes on behind its WARM record (R537, R540, R552, R571). -/
def State.slotStarts (s : State) (r : SlotRead) (n : Nat) : State :=
  let s := s.mramBad r.badMram
  let s := (s.putBit Reg.MGT_BOOT_STS 12 r.octal).setStage 3
  if s.boot.phase = 3 then
    let at' := (warmEntry r.body (r.body.length / 16) 0 0).getD (0, 0)
    s.setBoot { s.boot with script := r.body, pos := at'.1, recNo := at'.2, waits := none }
  else
    let s := (s.setFld Reg.MGT_BOOT_STS 3 3 n).wrN Reg.MGT_BOOT_SEQ (headF (r.head n) 8 4)
    (s.calLoad (r.missing.map (·.val))).setBoot
      { s.boot with script := r.body, pos := 0, recNo := 0, waits := none }

/-- A slot has been read and checked (R537, R541, R552). -/
def execSlotReadDone (r : SlotRead) (s : State) : Host.Outcome State Fault Refusal :=
  .next (
    if s.stage ≠ 1 then s
    else
      let n := s.slotTried r
      match s.slotFails r n with
      | some cause =>
        if s.boot.phase = 3 then s.coldReset (s.fld Reg.MGT_RST_STS 2 0)
        else
          let s := s.setFld Reg.MGT_BOOT_STS (7 + 4 * n) (4 + 4 * n) cause
          if s.boot.tried.isSome then s.bootFail else s.setBoot { s.boot with tried := some n }
      | none =>
        if s.boot.phase = 3 ∧ headF (r.head n) 8 4 ≠ s.rdN Reg.MGT_BOOT_SEQ then
          s.coldReset (s.fld Reg.MGT_RST_STS 2 0)
        else s.slotStarts r n)

/-- A WRITE record, of 1 to 8 bytes (R539, R540, R609). -/
def execScriptWrite (env : WriteEnv) (s : State) : Host.Outcome State Fault Refusal :=
  s.scriptRun 0 fun r s =>
    if r.width = 0 ∨ 8 < r.width then .fault (.undefinedOutcome 609)
    else s.scriptNext.writeSlot 6 0 r.slot 0 r.width (BitVec.ofNat 64 r.value) env

/-- A WAIT record reads its slot; its timeout is at least 1 µs (R539, R609). -/
def execScriptWait (s : State) : Host.Outcome State Fault Refusal :=
  s.scriptRun 1 fun r s =>
    let w := s.waitHolds r
    if r.param = 0 then .fault (.undefinedOutcome 609)
    else .next (
      if w.2 then w.1.scriptNext
      else if w.1.boot.waits.isSome then w.1
      else w.1.setBoot { w.1.boot with waits := some w.1.clk.up })

/-- A WAIT's timeout expires; a condition that holds then wins (R539). -/
def execScriptWaitTimeout (s : State) : Host.Outcome State Fault Refusal :=
  s.scriptRun 1 fun r s =>
    .next (
      match s.boot.waits with
      | none => s
      | some t =>
        if s.elapsed t (usec r.param) then
          let w := s.waitHolds r
          if w.2 then w.1.scriptNext else w.1.scriptStop 8
        else s)

/-- A DELAY record begins (R539). -/
def execScriptDelay (s : State) : Host.Outcome State Fault Refusal :=
  s.scriptRun 2 fun _ s =>
    .next (if s.boot.waits.isSome then s else s.setBoot { s.boot with waits := some s.clk.up })

/-- PARAM µs of a DELAY pass (R539). -/
def execScriptDelayEnd (s : State) : Host.Outcome State Fault Refusal :=
  s.scriptRun 2 fun r s =>
    .next (
      match s.boot.waits with
      | none => s
      | some t => if s.elapsed t (usec r.param) then s.scriptNext else s)

/-- The records of the valid save set, or none (R516). -/
def State.savedRecs (s : State) : List (Nat × BitVec 64) :=
  if (s.saveSet 0).valid then (s.saveSet 0).recs
  else if (s.saveSet 1).valid then (s.saveSet 1).recs
  else []

/-- A SAVESET record writes the records of the valid save set, in order (R516, R517, R539). -/
def execScriptSaveset (s : State) : Host.Outcome State Fault Refusal :=
  s.scriptRun 3 fun _ s =>
    runActs ((imageOf s.savedRecs).map fun r (s : State) => s.writeSlot 6 0 r.slot 0 r.width r.value default) s.scriptNext

/-- A WARM record (R539). -/
def execScriptWarm (s : State) : Host.Outcome State Fault Refusal :=
  s.scriptRun 4 fun _ s => .next s.scriptNext

/-- A COPY record (R539). (DEDUCED, log entry 48.) -/
def execScriptCopy (s : State) : Host.Outcome State Fault Refusal :=
  s.scriptRun 5 fun r s =>
    let a := r.value % 2 ^ 48
    let n := r.param
    let data := (s.boot.script.drop (s.boot.pos + 16)).take n
    if s.boot.script.length < s.boot.pos + 16 + r.padded then .next (s.scriptStop 7)
    else if !s.softWriteOk a n || !s.serves a then
      .fault (.undefinedOutcome 539)
    else .next ((s.scriptNext r.padded).wrBytes a data)

/-- An END record: PROT_LOCK is set if it is 0, and STAGE becomes LOCKED (R540, R541). (DEDUCED, log entry 56.) -/
def execScriptEnd (s : State) : Host.Outcome State Fault Refusal :=
  s.scriptRun 6 fun _ s =>
    let s := (s.protLock).setStage 4
    .next (s.setBoot { s.boot with phase := 0, waits := none })

/-- Requests held during a warm reset are executed in order. -/
def State.rapReleased (s : State) (held : List (Peer × Nat × RapMsg)) :
    Host.Outcome State Fault Refusal :=
  runActs (held.map fun h (s : State) => s.rapServe h.1 h.2.1 h.2.2 []) s

/-- 10 µs in reset have passed: the blocks are released, the ROM reads the slot again, and held RAP requests
are executed (R550, R552, R556). (DEDUCED, log entry 49.) -/
def execResetRelease (s : State) : Host.Outcome State Fault Refusal :=
  if s.boot.phase = 2 ∧ s.elapsed s.boot.since (usec 10) then
    let held := s.boot.held
    let s := s.setBoot { s.boot with phase := 3, since := s.clk.up, held := [] }
    let s := (s.setStage 1).railsUp 7
    let s := if s.power = 0 then s else s.reached 0
    s.rapReleased held
  else .next s

end Sys2Proof.Machine
end

