-- ==== Sys2Proof/Machine/FabRx.lean ====
section
/-! DEFINITION. What arrives at fabric ports frame by frame (R462-R464, R473), and the JTAG port (R600). -/

namespace Sys2Proof.Machine

/-- The frames of a packet in the replay buffer that lie beyond an acknowledged number. -/
def Replay.beyond (e : Replay) (n : Nat) : Bool :=
  let last := (e.seq + e.frames + 4095) % 4096
  let d := (last + 4096 - n % 4096) % 4096
  decide (0 < d ∧ d < 2048)

/-- An acknowledgement frees packets whose frames it covers; one that moves forward starts the count of
tries again (R462, R463). -/
def State.frameAcked (s : State) (p n : Nat) : State :=
  let x := s.fport p
  let left := x.replay.filter fun e => e.beyond n
  if left.length = x.replay.length then s
  else
    let s := s.setFport p { x with replay := left.map fun e => { e with tries := 1 }, fullSince := none }
    State.drainWait p x.wait.length s

/-- A negative acknowledgement makes the port send again from the refused frame; the sixteenth sending
without progress faults it (R462, R463). -/
def State.frameNaked (s : State) (p n : Nat) : State :=
  let x := s.fport p
  let again := x.replay.map fun e => { e with tries := e.tries + 1 }
  let s := s.setFport p { x with replay := again }
  let s := again.foldl (fun s e =>
    let left := (e.seq + e.frames + 4095 - n % 4096) % 4096
    (s.bumpSat (Reg.FAB_PORT_RETRY p) 32 (min e.frames left)).send (.fabric p e.seq e.pkt)) s
  if again.any fun e => decide (16 ≤ e.tries) then s.portFault p 2 else s

/-- A port takes a returned credit (R464). -/
def State.creditBack (s : State) (p vc n : Nat) : State :=
  let x := s.fport p
  State.drainWait p x.wait.length (s.setFport p (x.addCredits vc n))

/-- A RAP packet for this device is taken in its stream's order and its message arrives (R466, R473). -/
def State.rapPacket (s : State) (k : FabPkt) (bytes : List (BitVec 8)) :
    Host.Outcome State Fault Refusal :=
  match s.srcUid k with
  | none => .next s
  | some uid =>
    let (s, taken) := (s.e2eAcks k).e2eTake k
    if taken then
      match rapParse bytes with
      | none => .next (if s.rapOn (.fabric uid) then s.rapBad else s)
      | some (op, reply, m) => s.rapFrom (.fabric uid) op reply m []
    else .next s

/-- A whole packet leaves the port's receive buffer, whose credits go back to the sender. -/
def State.framePacket (s : State) (p sub : Nat) (k : FabPkt) : Host.Outcome State Fault Refusal :=
  let s := s.send (.fabricCredit p k.body.vc k.creditsNeeded)
  match k.body with
  | .rap bytes => if s.isHere k then s.rapPacket k bytes else .next (s.pktArrive p k sub)
  | _ => .next (s.pktArrive p k sub)

/-- A frame arrives on a port in UP. (DEDUCED, log entry 44.) -/
def State.frameTake (s : State) (p sub : Nat) (f : FabFrame) : Host.Outcome State Fault Refusal :=
  let s := s.bump (Reg.FAB_PORT_FEC_CORR p) 64 f.corrected
  let s := s.bumpSat (Reg.FAB_PORT_FEC_UNCORR p) 32 f.uncorrected
  let x := s.fport p
  if !f.ok || f.seq != x.rxNext then .next (s.send (.fabricAck p ((x.rxNext + 4095) % 4096) false))
  else
    let s := s.setFport p { x with rxNext := (x.rxNext + 1) % 4096 }
    let s := s.send (.fabricAck p f.seq true)
    let s := match f.credit with
      | some c => s.creditBack p c.1 c.2
      | none => s
    let s := match f.ack with
      | some (n, good) =>
        let s := s.frameAcked p n
        if good then s else s.frameNaked p n
      | none => s
    match f.pkt with
    | some k => s.framePacket p sub k
    | none => .next s

/-- A lane of the port has LOOP = 2 (R460). (DEDUCED, log entry 44.) -/
def State.portEchoes (s : State) (p : Nat) : Bool :=
  [2 * p, 2 * p + 1].any fun l => s.fld (Reg.FAB_LANE_CTL l) 3 2 == 2

/-- A fabric frame arrives (R460, R462). `sub` is its place in the present tick. -/
def execFrameReceive (p : Fin 8) (sub : Fin 4096) (f : FabFrame) (s : State) :
    Host.Outcome State Fault Refusal :=
  if s.fpUp p then s.frameTake p sub f
  else .next (if s.fpState p = 5 ∧ s.portEchoes p then s.send (.fabricEcho p f) else s)

/-- Some block of the device is enabled. -/
def State.anyEnabled (s : State) : Bool :=
  ([0x13, 0x15, 0x21, 0x30, 0x31, 0x32, 0x40, 0x41, 0x42, 0x43, 0x44, 0x45, 0x50, 0x51, 0x52, 0x53, 0x60,
      0x62, 0x64, 0x65, 0x66].any fun hh => !s.rangeIdle hh) ||
    (List.range 4).any fun n => !s.portOff n

/-- An instruction reaches the JTAG port (R600): EXTEST while a block is enabled leaves the outcome
undefined. (PRESUMED, log entry 45.) -/
def execJtagInstruction (i : Fin 4) (s : State) : Host.Outcome State Fault Refusal :=
  if i = 3 ∧ s.anyEnabled then .fault (.undefinedOutcome 600)
  else .next (
    let s := { s with jtag := i }
    match i with
    | 1 => s.send (.jtag 1 Config.idcode.toNat)
    | 2 =>
      let (f, s) := s.draw
      s.send (.jtag 2 (Config.boundary f))
    | _ => s.send (.jtag i 0))

end Sys2Proof.Machine
end

