-- ==== Sys2Proof/Machine/Patrol.lean ====
section
/-! DEFINITION. Errors that reads of the on-chip SRAM meet, and the patrol of partition 4 (R399, R400). -/

namespace Sys2Proof.Machine

/-- Bytes of one channel's Canopy store: 12 MiB, three of each cell (R397). -/
def canopyBytes : Nat := 12 * 2 ^ 20

/-- What a double-bit error leaves of the data (R400): a Canopy cell becomes 0; FFT, elastic buffer and partition 4 data
are passed on as read. -/
def State.sramPassed (s : State) (p off : Nat) : State :=
  let c := off / canopyBytes
  if p = 0 ∧ c < 4 then s.setCan c ((s.can c).setCell (off % canopyBytes / 3) 0) else s

/-- A granule with a double-bit error is read (R397, R400). -/
def State.sramReadBad (s : State) (e : Fin 5 × Nat) : State :=
  if e.1 = 2 ∨ sramBytes e.1 ≤ e.2 then s else (s.sramDouble e.1 e.2).sramPassed e.1 e.2

/-- Granules with a single-bit error are read: each is corrected and counted (R399). -/
def State.sramReadCorrected (s : State) (e : Fin 5 × Nat) : State :=
  if e.1 = 2 then s else s.sramCorrected e.1 e.2

/-- Reads of the SRAM by its blocks, and by the patrol of partition 4 once in each PERIOD: how many granules of each
partition were corrected, and the offsets of those with a double-bit error (R399, R400). Reads of the Lantern memories
bring theirs with their own commands (R276). A partition that is off, and the SRAM below IDLE, is not read (R398).
(DESIGN CHOICE, log entry 20.) -/
def execSramScrub (corrected double : List (Fin 5 × Nat)) (s : State) : Host.Outcome State Fault Refusal :=
  .next (
    let p := s.fld Reg.SRM_SCRUB 15 0
    let on := fun (e : Fin 5 × Nat) => s.bit Reg.SRM_PART e.1
    let due := decide (0 < p) && s.bit Reg.SRM_PART 4 && s.elapsed s.ddr.scrubAt (msec p)
    if s.power < 2 then
      let s := if due then { s with ddr := { s.ddr with scrubAt := s.clk.up } } else s
      (double.filter on).foldl State.sramReadBad ((corrected.filter on).foldl State.sramReadCorrected s)
    else s)

end Sys2Proof.Machine
end

