-- ==== Sys2Proof/Machine/Dispatch.lean ====
section
/-! DEFINITION. What each command does: one arm per constructor of Instr, each a direct call of that
command's meaning. -/

namespace Sys2Proof.Machine

/-- The effect of one command on everything but the queue. -/
def exec (i : Instr) (s : State) : Host.Outcome State Fault Refusal :=
  match i with
  | .registerWrite who uid addr data env => Sys2Proof.Machine.execRegisterWrite who uid addr data env s
  | .rapRead peer m => Sys2Proof.Machine.execRapRead peer m s
  | .rapWrite peer m env => Sys2Proof.Machine.execRapWrite peer m env s
  | .rapReadBlock peer m => Sys2Proof.Machine.execRapReadBlock peer m s
  | .rapWriteBlock peer m envs => Sys2Proof.Machine.execRapWriteBlock peer m envs s
  | .rapSubscribe peer m => Sys2Proof.Machine.execRapSubscribe peer m s
  | .notifyAck peer m => Sys2Proof.Machine.execNotifyAck peer m s
  | .notifySend n => Sys2Proof.Machine.execNotifySend n s
  | .notifyResend n seq => Sys2Proof.Machine.execNotifyResend n seq s
  | .arpRequest mac ip target => Sys2Proof.Machine.execArpRequest mac ip target s
  | .icmpEchoRequest mac ip data => Sys2Proof.Machine.execIcmpEchoRequest mac ip data s
  | .ethFrameDiscard taken => Sys2Proof.Machine.execEthFrameDiscard taken s
  | .mgtEthLink up => Sys2Proof.Machine.execMgtEthLink up s
  | .parityCheck bad => Sys2Proof.Machine.execParityCheck bad s
  | .saveStart who => Sys2Proof.Machine.execSaveStart who s
  | .saveComplete => Sys2Proof.Machine.execSaveComplete s
  | .eraseSets => Sys2Proof.Machine.execEraseSets s
  | .lnkGroupEnable g => Sys2Proof.Machine.execLnkGroupEnable g s
  | .lnkGroupDisable g => Sys2Proof.Machine.execLnkGroupDisable g s
  | .prsntEdge g low => Sys2Proof.Machine.execPrsntEdge g low s
  | .presentChange c => Sys2Proof.Machine.execPresentChange c s
  | .idReady g image => Sys2Proof.Machine.execIdReady g image s
  | .powerDone g => Sys2Proof.Machine.execPowerDone g s
  | .cdrLock x => Sys2Proof.Machine.execCdrLock x s
  | .cdrTimeout g => Sys2Proof.Machine.execCdrTimeout g s
  | .adaptDone g boost dfe => Sys2Proof.Machine.execAdaptDone g boost dfe s
  | .adaptTimeout g => Sys2Proof.Machine.execAdaptTimeout g s
  | .embLock g x => Sys2Proof.Machine.execEmbLock g x s
  | .syncTimeout g => Sys2Proof.Machine.execSyncTimeout g s
  | .sysrefEdge => Sys2Proof.Machine.execSysrefEdge s
  | .lnkRelease g here there => Sys2Proof.Machine.execLnkRelease g here there s
  | .sysrefMissing g => Sys2Proof.Machine.execSysrefMissing g s
  | .rawGo g => Sys2Proof.Machine.execRawGo g s
  | .rawSnap g words => Sys2Proof.Machine.execRawSnap g words s
  | .adaptRestart g => Sys2Proof.Machine.execAdaptRestart g s
  | .faultRelink g => Sys2Proof.Machine.execFaultRelink g s
  | .multiblock g cells code crc => Sys2Proof.Machine.execMultiblock g cells code crc s
  | .linkLost x => Sys2Proof.Machine.execLinkLost x s
  | .freqOfsFault x => Sys2Proof.Machine.execFreqOfsFault x s
  | .eyeScanStart j => Sys2Proof.Machine.execEyeScanStart j s
  | .eyeDone j bad => Sys2Proof.Machine.execEyeDone j bad s
  | .spiGo g => Sys2Proof.Machine.execSpiGo g s
  | .spiDone g data => Sys2Proof.Machine.execSpiDone g data s
  | .i2cGo g => Sys2Proof.Machine.execI2cGo g s
  | .i2cDone g nack data => Sys2Proof.Machine.execI2cDone g nack data s
  | .laneWord g => Sys2Proof.Machine.execLaneWord g s
  | .conditioningOutput c => Sys2Proof.Machine.execConditioningOutput c s
  | .cndEnable c => Sys2Proof.Machine.execCndEnable c s
  | .cndDisable c => Sys2Proof.Machine.execCndDisable c s
  | .cndCommit c => Sys2Proof.Machine.execCndCommit c s
  | .cndCommitTimed c => Sys2Proof.Machine.execCndCommitTimed c s
  | .ilEstimate c => Sys2Proof.Machine.execIlEstimate c s
  | .spxEnable r => Sys2Proof.Machine.execSpxEnable r s
  | .spxDisable r => Sys2Proof.Machine.execSpxDisable r s
  | .spxDrainEnd r => Sys2Proof.Machine.execSpxDrainEnd r s
  | .spectrumEmit r => Sys2Proof.Machine.execSpectrumEmit r s
  | .spxCommit r => Sys2Proof.Machine.execSpxCommit r s
  | .spxCommitTimed r => Sys2Proof.Machine.execSpxCommitTimed r s
  | .triggerIssue c => Sys2Proof.Machine.execTriggerIssue c s
  | .trigOutPulseEnd n => Sys2Proof.Machine.execTrigOutPulseEnd n s
  | .trigOutForce n => Sys2Proof.Machine.execTrigOutForce n s
  | .extTrigEdge p rising => Sys2Proof.Machine.execExtTrigEdge p rising s
  | .timuWindowExpiry c u => Sys2Proof.Machine.execTimuWindowExpiry c u s
  | .rlFire p k => Sys2Proof.Machine.execRlFire p k s
  | .rlProvisional p k => Sys2Proof.Machine.execRlProvisional p k s
  | .rlConfirm p k => Sys2Proof.Machine.execRlConfirm p k s
  | .rlCancel p k => Sys2Proof.Machine.execRlCancel p k s
  | .provisionalExpiry => Sys2Proof.Machine.execProvisionalExpiry s
  | .trgUnitEnable c u => Sys2Proof.Machine.execTrgUnitEnable c u s
  | .trgUnitDisable c u => Sys2Proof.Machine.execTrgUnitDisable c u s
  | .trgArm c u on => Sys2Proof.Machine.execTrgArm c u on s
  | .trgCommit c => Sys2Proof.Machine.execTrgCommit c s
  | .trgCommitTimed c => Sys2Proof.Machine.execTrgCommitTimed c s
  | .trgHandover c => Sys2Proof.Machine.execTrgHandover c s
  | .seqEnable x => Sys2Proof.Machine.execSeqEnable x s
  | .seqDisable q => Sys2Proof.Machine.execSeqDisable q s
  | .forceHalt q => Sys2Proof.Machine.execForceHalt q s
  | .seqCommit q => Sys2Proof.Machine.execSeqCommit q s
  | .faultPost q => Sys2Proof.Machine.execFaultPost q s
  | .seqReq q mask => Sys2Proof.Machine.execSeqReq q mask s
  | .seqCont q parity => Sys2Proof.Machine.execSeqCont q parity s
  | .seqJump q parity => Sys2Proof.Machine.execSeqJump q parity s
  | .seqMap q parity => Sys2Proof.Machine.execSeqMap q parity s
  | .seqJnz q parity => Sys2Proof.Machine.execSeqJnz q parity s
  | .seqJz q parity => Sys2Proof.Machine.execSeqJz q parity s
  | .seqWait q parity => Sys2Proof.Machine.execSeqWait q parity s
  | .seqWaitmap q parity => Sys2Proof.Machine.execSeqWaitmap q parity s
  | .seqCall q parity => Sys2Proof.Machine.execSeqCall q parity s
  | .seqCallmap q parity => Sys2Proof.Machine.execSeqCallmap q parity s
  | .seqRet q parity => Sys2Proof.Machine.execSeqRet q parity s
  | .seqReti q parity => Sys2Proof.Machine.execSeqReti q parity s
  | .seqRestart q parity => Sys2Proof.Machine.execSeqRestart q parity s
  | .seqHalt q parity => Sys2Proof.Machine.execSeqHalt q parity s
  | .seqTimerExpiry q t => Sys2Proof.Machine.execSeqTimerExpiry q t s
  | .acqEnable c => Sys2Proof.Machine.execAcqEnable c s
  | .acqDisable c => Sys2Proof.Machine.execAcqDisable c s
  | .recordUnitWrite c => Sys2Proof.Machine.execRecordUnitWrite c s
  | .acqRelWrite who c v => Sys2Proof.Machine.execAcqRelWrite who c v s
  | .canEnable c => Sys2Proof.Machine.execCanEnable c s
  | .canClear c => Sys2Proof.Machine.execCanClear c s
  | .canHold c on => Sys2Proof.Machine.execCanHold c on s
  | .canCommit c => Sys2Proof.Machine.execCanCommit c s
  | .canSnap who c => Sys2Proof.Machine.execCanSnap who c s
  | .canSnapDone c => Sys2Proof.Machine.execCanSnapDone c s
  | .decayTimer c => Sys2Proof.Machine.execDecayTimer c s
  | .decayPassEnd c => Sys2Proof.Machine.execDecayPassEnd c s
  | .spgEnable c => Sys2Proof.Machine.execSpgEnable c s
  | .spgLineWrite c stalled => Sys2Proof.Machine.execSpgLineWrite c stalled s
  | .scnEnable => Sys2Proof.Machine.execScnEnable s
  | .scnDisable => Sys2Proof.Machine.execScnDisable s
  | .scnCommit => Sys2Proof.Machine.execScnCommit s
  | .psrEnter => Sys2Proof.Machine.execPsrEnter s
  | .psrExit => Sys2Proof.Machine.execPsrExit s
  | .traceReset mask => Sys2Proof.Machine.execTraceReset mask s
  | .samplingPoint => Sys2Proof.Machine.execSamplingPoint s
  | .frameStart late => Sys2Proof.Machine.execFrameStart late s
  | .lineStart n late => Sys2Proof.Machine.execLineStart n late s
  | .extendedLineEnd => Sys2Proof.Machine.execExtendedLineEnd s
  | .irqHpd lost => Sys2Proof.Machine.execIrqHpd lost s
  | .hpdLost => Sys2Proof.Machine.execHpdLost s
  | .hpdReturn => Sys2Proof.Machine.execHpdReturn s
  | .vsyncInEdge => Sys2Proof.Machine.execVsyncInEdge s
  | .scnVsyncLost => Sys2Proof.Machine.execScnVsyncLost s
  | .lntNop k ecc => Sys2Proof.Machine.execLntNop k ecc s
  | .lntZero k ecc => Sys2Proof.Machine.execLntZero k ecc s
  | .lntCopy k ecc => Sys2Proof.Machine.execLntCopy k ecc s
  | .lntCopya k ecc => Sys2Proof.Machine.execLntCopya k ecc s
  | .lntAdd k ecc => Sys2Proof.Machine.execLntAdd k ecc s
  | .lntSub k ecc => Sys2Proof.Machine.execLntSub k ecc s
  | .lntAdda k ecc => Sys2Proof.Machine.execLntAdda k ecc s
  | .lntSuba k ecc => Sys2Proof.Machine.execLntSuba k ecc s
  | .lntMul k ecc => Sys2Proof.Machine.execLntMul k ecc s
  | .lntMuln k ecc => Sys2Proof.Machine.execLntMuln k ecc s
  | .lntMadd k ecc => Sys2Proof.Machine.execLntMadd k ecc s
  | .lntMsub k ecc => Sys2Proof.Machine.execLntMsub k ecc s
  | .lntDmul k ecc => Sys2Proof.Machine.execLntDmul k ecc s
  | .lntDmadd k ecc => Sys2Proof.Machine.execLntDmadd k ecc s
  | .lntDsump k ecc => Sys2Proof.Machine.execLntDsump k ecc s
  | .lntDdifp k ecc => Sys2Proof.Machine.execLntDdifp k ecc s
  | .lntCross k ecc => Sys2Proof.Machine.execLntCross k ecc s
  | .lntAbs k ecc => Sys2Proof.Machine.execLntAbs k ecc s
  | .lntNeg k ecc => Sys2Proof.Machine.execLntNeg k ecc s
  | .lntRound k ecc => Sys2Proof.Machine.execLntRound k ecc s
  | .lntClip k ecc => Sys2Proof.Machine.execLntClip k ecc s
  | .lntShl k ecc => Sys2Proof.Machine.execLntShl k ecc s
  | .lntShra k ecc => Sys2Proof.Machine.execLntShra k ecc s
  | .lntShrl k ecc => Sys2Proof.Machine.execLntShrl k ecc s
  | .lntAnd k ecc => Sys2Proof.Machine.execLntAnd k ecc s
  | .lntOr k ecc => Sys2Proof.Machine.execLntOr k ecc s
  | .lntXor k ecc => Sys2Proof.Machine.execLntXor k ecc s
  | .lntNot k ecc => Sys2Proof.Machine.execLntNot k ecc s
  | .lntCmp k ecc => Sys2Proof.Machine.execLntCmp k ecc s
  | .lntCmpa k ecc => Sys2Proof.Machine.execLntCmpa k ecc s
  | .lntMax k ecc => Sys2Proof.Machine.execLntMax k ecc s
  | .lntMin k ecc => Sys2Proof.Machine.execLntMin k ecc s
  | .lntNsign k ecc => Sys2Proof.Machine.execLntNsign k ecc s
  | .lntGoto k ecc => Sys2Proof.Machine.execLntGoto k ecc s
  | .lntCall k ecc => Sys2Proof.Machine.execLntCall k ecc s
  | .lntRet k ecc => Sys2Proof.Machine.execLntRet k ecc s
  | .lntIret k ecc => Sys2Proof.Machine.execLntIret k ecc s
  | .lntLeave k ecc => Sys2Proof.Machine.execLntLeave k ecc s
  | .lntLoop k ecc => Sys2Proof.Machine.execLntLoop k ecc s
  | .lntRepeat k ecc => Sys2Proof.Machine.execLntRepeat k ecc s
  | .lntLimm k ecc => Sys2Proof.Machine.execLntLimm k ecc s
  | .lntRmov k ecc => Sys2Proof.Machine.execLntRmov k ecc s
  | .lntMmov k ecc => Sys2Proof.Machine.execLntMmov k ecc s
  | .lntWait k ecc => Sys2Proof.Machine.execLntWait k ecc s
  | .lntDone k ecc => Sys2Proof.Machine.execLntDone k ecc s
  | .lntEnq k ecc => Sys2Proof.Machine.execLntEnq k ecc s
  | .lntXfer k ecc => Sys2Proof.Machine.execLntXfer k ecc s
  | .lntEvt k ecc => Sys2Proof.Machine.execLntEvt k ecc s
  | .lntSync k ecc => Sys2Proof.Machine.execLntSync k ecc s
  | .lntSignal k ecc => Sys2Proof.Machine.execLntSignal k ecc s
  | .lntInterruptAccept k => Sys2Proof.Machine.execLntInterruptAccept k s
  | .lntTmrExpiry k => Sys2Proof.Machine.execLntTmrExpiry k s
  | .lntXferComplete k x o n => Sys2Proof.Machine.execLntXferComplete k x o n s
  | .lntHostIrq k => Sys2Proof.Machine.execLntHostIrq k s
  | .lntEnable k => Sys2Proof.Machine.execLntEnable k s
  | .lntDisable k => Sys2Proof.Machine.execLntDisable k s
  | .lntForceHalt k => Sys2Proof.Machine.execLntForceHalt k s
  | .lntPoolEnable p on => Sys2Proof.Machine.execLntPoolEnable p on s
  | .taskDispatch p => Sys2Proof.Machine.execTaskDispatch p s
  | .inboxDone k => Sys2Proof.Machine.execInboxDone k s
  | .taskCommit k => Sys2Proof.Machine.execTaskCommit k s
  | .lntWatchdog k => Sys2Proof.Machine.execLntWatchdog k s
  | .tiEdge inp b up sub c c1 c2 => Sys2Proof.Machine.execTiEdge inp b up sub c c1 c2 s
  | .intervalPair inp e => Sys2Proof.Machine.execIntervalPair inp e s
  | .pairWindowExpiry inp e => Sys2Proof.Machine.execPairWindowExpiry inp e s
  | .noedge inp e => Sys2Proof.Machine.execNoedge inp e s
  | .streamWrite inp e => Sys2Proof.Machine.execStreamWrite inp e s
  | .queueBatchTimeout inp e => Sys2Proof.Machine.execQueueBatchTimeout inp e s
  | .timEnable inp on => Sys2Proof.Machine.execTimEnable inp on s
  | .timSRelWrite inp e v => Sys2Proof.Machine.execTimSRelWrite inp e v s
  | .inlStart inp => Sys2Proof.Machine.execInlStart inp s
  | .injectedEdge inp c c1 c2 => Sys2Proof.Machine.execInjectedEdge inp c c1 c2 s
  | .cmpThresholdWrite inp hyst v => Sys2Proof.Machine.execCmpThresholdWrite inp hyst v s
  | .settlingEnd inp a b => Sys2Proof.Machine.execSettlingEnd inp a b s
  | .ccsEnable on => Sys2Proof.Machine.execCcsEnable on s
  | .reorigin => Sys2Proof.Machine.execReorigin s
  | .cycEdge sub vec0 => Sys2Proof.Machine.execCycEdge sub vec0 s
  | .cycMissing => Sys2Proof.Machine.execCycMissing s
  | .holdExpired => Sys2Proof.Machine.execHoldExpired s
  | .wpEnable on => Sys2Proof.Machine.execWpEnable on s
  | .wpTailWrite v => Sys2Proof.Machine.execWpTailWrite v s
  | .wpCancel => Sys2Proof.Machine.execWpCancel s
  | .wpNone => Sys2Proof.Machine.execWpNone s
  | .wpArm => Sys2Proof.Machine.execWpArm s
  | .wpTrigger => Sys2Proof.Machine.execWpTrigger s
  | .wpSignal => Sys2Proof.Machine.execWpSignal s
  | .wpTag => Sys2Proof.Machine.execWpTag s
  | .wpConvert => Sys2Proof.Machine.execWpConvert s
  | .wpTask => Sys2Proof.Machine.execWpTask s
  | .wpFabric => Sys2Proof.Machine.execWpFabric s
  | .fabricLookaheadSend j => Sys2Proof.Machine.execFabricLookaheadSend j s
  | .supEnable u on => Sys2Proof.Machine.execSupEnable u on s
  | .supTrigger u => Sys2Proof.Machine.execSupTrigger u s
  | .supTimer u => Sys2Proof.Machine.execSupTimer u s
  | .supGo u => Sys2Proof.Machine.execSupGo u s
  | .sarStep g volts => Sys2Proof.Machine.execSarStep g volts s
  | .sarConversionEnd g => Sys2Proof.Machine.execSarConversionEnd g s
  | .lineSyncEdge => Sys2Proof.Machine.execLineSyncEdge s
  | .icWindowEnd x m => Sys2Proof.Machine.execIcWindowEnd x m s
  | .icNosync x => Sys2Proof.Machine.execIcNosync x s
  | .monTick => Sys2Proof.Machine.execMonTick s
  | .monSample w si settle watch => Sys2Proof.Machine.execMonSample w si settle watch s
  | .monPeriodStart => Sys2Proof.Machine.execMonPeriodStart s
  | .monThrWrite w v => Sys2Proof.Machine.execMonThrWrite w v s
  | .memEnable => Sys2Proof.Machine.execMemEnable s
  | .memDisable => Sys2Proof.Machine.execMemDisable s
  | .memReady rd wr bad late => Sys2Proof.Machine.execMemReady rd wr bad late s
  | .retrain => Sys2Proof.Machine.execRetrain s
  | .memRateReq sel => Sys2Proof.Machine.execMemRateReq sel s
  | .memRateDone rd wr bad late => Sys2Proof.Machine.execMemRateDone rd wr bad late s
  | .bgtProbe d temp found => Sys2Proof.Machine.execBgtProbe d temp found s
  | .refresh d b x => Sys2Proof.Machine.execRefresh d b x s
  | .bankVisit d segs retries fails ecc left => Sys2Proof.Machine.execBankVisit d segs retries fails ecc left s
  | .patrolRead x => Sys2Proof.Machine.execPatrolRead x s
  | .sramScrub corrected double => Sys2Proof.Machine.execSramScrub corrected double s
  | .queueEnable q => Sys2Proof.Machine.execQueueEnable q s
  | .queueDisable q => Sys2Proof.Machine.execQueueDisable q s
  | .queueSync q => Sys2Proof.Machine.execQueueSync q s
  | .tailDoorbell q v => Sys2Proof.Machine.execTailDoorbell q v s
  | .headDoorbell q v => Sys2Proof.Machine.execHeadDoorbell q v s
  | .dmaStartDoorbell ch => Sys2Proof.Machine.execDmaStartDoorbell ch s
  | .dmaDescriptorComplete ch data => Sys2Proof.Machine.execDmaDescriptorComplete ch data s
  | .dmaTransferError ch cause n data => Sys2Proof.Machine.execDmaTransferError ch cause n data s
  | .dmaEnable ch => Sys2Proof.Machine.execDmaEnable ch s
  | .dmaDisable ch => Sys2Proof.Machine.execDmaDisable ch s
  | .dmaPause ch => Sys2Proof.Machine.execDmaPause ch s
  | .dmaDrainEnd ch n data => Sys2Proof.Machine.execDmaDrainEnd ch n data s
  | .dmaResume ch => Sys2Proof.Machine.execDmaResume ch s
  | .pciLinkUp n rate width flit => Sys2Proof.Machine.execPciLinkUp n rate width flit s
  | .pciLinkDown n => Sys2Proof.Machine.execPciLinkDown n s
  | .pciEnum n devs => Sys2Proof.Machine.execPciEnum n devs s
  | .slotChange n bus devs => Sys2Proof.Machine.execSlotChange n bus devs s
  | .perst n => Sys2Proof.Machine.execPerst n s
  | .configRequest n tag write reg v => Sys2Proof.Machine.execConfigRequest n tag write reg v s
  | .flrStart n => Sys2Proof.Machine.execFlrStart n s
  | .pciFlr n => Sys2Proof.Machine.execPciFlr n s
  | .bar2Access n tag write off len data => Sys2Proof.Machine.execBar2Access n tag write off len data s
  | .cfgAccGo n v => Sys2Proof.Machine.execCfgAccGo n v s
  | .cfgAccDone n ur data => Sys2Proof.Machine.execCfgAccDone n ur data s
  | .streamApertureRead n tag x st place strip off len => Sys2Proof.Machine.execStreamApertureRead n tag x st place strip off len s
  | .downstreamRequest n tag write addr len data => Sys2Proof.Machine.execDownstreamRequest n tag write addr len data s
  | .nvmeCompletion port fn cookie ok data => Sys2Proof.Machine.execNvmeCompletion port fn cookie ok data s
  | .nvmeTimeout port fn cookie => Sys2Proof.Machine.execNvmeTimeout port fn cookie s
  | .smartPoll => Sys2Proof.Machine.execSmartPoll s
  | .blockFlushTimeout x c => Sys2Proof.Machine.execBlockFlushTimeout x c s
  | .driveFlushTimer x => Sys2Proof.Machine.execDriveFlushTimer x s
  | .drvSetEnable x on init => Sys2Proof.Machine.execDrvSetEnable x on init s
  | .drvStop x => Sys2Proof.Machine.execDrvStop x s
  | .fabEnable on => Sys2Proof.Machine.execFabEnable on s
  | .fabPortEnable p on => Sys2Proof.Machine.execFabPortEnable p on s
  | .signalDetect p => Sys2Proof.Machine.execSignalDetect p s
  | .portTrainDone p boost dfe => Sys2Proof.Machine.execPortTrainDone p boost dfe s
  | .portTrainTimeout p => Sys2Proof.Machine.execPortTrainTimeout p s
  | .portAlignDone p => Sys2Proof.Machine.execPortAlignDone p s
  | .portAlignTimeout p => Sys2Proof.Machine.execPortAlignTimeout p s
  | .portInitDone p => Sys2Proof.Machine.execPortInitDone p s
  | .portInitTimeout p => Sys2Proof.Machine.execPortInitTimeout p s
  | .portFaultEnd p => Sys2Proof.Machine.execPortFaultEnd p s
  | .portLinkLost p => Sys2Proof.Machine.execPortLinkLost p s
  | .frameReceive p sub f => Sys2Proof.Machine.execFrameReceive p sub f s
  | .replayStall p => Sys2Proof.Machine.execReplayStall p s
  | .helloSend p => Sys2Proof.Machine.execHelloSend p s
  | .helloPacket p k => Sys2Proof.Machine.execHelloPacket p k s
  | .electStable => Sys2Proof.Machine.execElectStable s
  | .addrReq p k => Sys2Proof.Machine.execAddrReq p k s
  | .addrGrant p k => Sys2Proof.Machine.execAddrGrant p k s
  | .addrReqResend => Sys2Proof.Machine.execAddrReqResend s
  | .addrHoldExpiry => Sys2Proof.Machine.execAddrHoldExpiry s
  | .lsrPacket p k => Sys2Proof.Machine.execLsrPacket p k s
  | .lsrFloodTimer => Sys2Proof.Machine.execLsrFloodTimer s
  | .memberAgeOut a => Sys2Proof.Machine.execMemberAgeOut a s
  | .fabRoute => Sys2Proof.Machine.execFabRoute s
  | .e2eAck p k => Sys2Proof.Machine.execE2eAck p k s
  | .e2eAckSend uid vc => Sys2Proof.Machine.execE2eAckSend uid vc s
  | .e2eRto uid vc => Sys2Proof.Machine.execE2eRto uid vc s
  | .fabUnreach uid vc => Sys2Proof.Machine.execFabUnreach uid vc s
  | .timeSend p sub => Sys2Proof.Machine.execTimeSend p sub s
  | .timePacket p k sub => Sys2Proof.Machine.execTimePacket p k sub s
  | .fabStep => Sys2Proof.Machine.execFabStep s
  | .fabHoldMax => Sys2Proof.Machine.execFabHoldMax s
  | .rlHoldExpiry src => Sys2Proof.Machine.execRlHoldExpiry src s
  | .refLost => Sys2Proof.Machine.execRefLost s
  | .refBack far => Sys2Proof.Machine.execRefBack far s
  | .clkLock k word => Sys2Proof.Machine.execClkLock k word s
  | .clkUnlock k => Sys2Proof.Machine.execClkUnlock k s
  | .slewDone k => Sys2Proof.Machine.execSlewDone k s
  | .clkOffsetWrite who v stands => Sys2Proof.Machine.execClkOffsetWrite who v stands s
  | .bandClear k => Sys2Proof.Machine.execBandClear k s
  | .por => Sys2Proof.Machine.execPor s
  | .porRelease => Sys2Proof.Machine.execPorRelease s
  | .slotReadDone r => Sys2Proof.Machine.execSlotReadDone r s
  | .scriptWrite env => Sys2Proof.Machine.execScriptWrite env s
  | .scriptWait => Sys2Proof.Machine.execScriptWait s
  | .scriptWaitTimeout => Sys2Proof.Machine.execScriptWaitTimeout s
  | .scriptDelay => Sys2Proof.Machine.execScriptDelay s
  | .scriptDelayEnd => Sys2Proof.Machine.execScriptDelayEnd s
  | .scriptSaveset => Sys2Proof.Machine.execScriptSaveset s
  | .scriptWarm => Sys2Proof.Machine.execScriptWarm s
  | .scriptCopy => Sys2Proof.Machine.execScriptCopy s
  | .scriptEnd => Sys2Proof.Machine.execScriptEnd s
  | .wrst => Sys2Proof.Machine.execWrst s
  | .warmReset => Sys2Proof.Machine.execWarmReset s
  | .coldReset => Sys2Proof.Machine.execColdReset s
  | .quiesceEnd left => Sys2Proof.Machine.execQuiesceEnd left s
  | .resetRelease => Sys2Proof.Machine.execResetRelease s
  | .replayStart who => Sys2Proof.Machine.execReplayStart who s
  | .mgtReplayDone => Sys2Proof.Machine.execMgtReplayDone s
  | .wdogKick => Sys2Proof.Machine.execWdogKick s
  | .wdogExpiry => Sys2Proof.Machine.execWdogExpiry s
  | .mgtBlkRst who range => Sys2Proof.Machine.execMgtBlkRst who range s
  | .mgtBlkRstDone => Sys2Proof.Machine.execMgtBlkRstDone s
  | .pwrGo who => Sys2Proof.Machine.execPwrGo who s
  | .powerStepEnd levels => Sys2Proof.Machine.execPowerStepEnd levels s
  | .psPgAssert k => Sys2Proof.Machine.execPsPgAssert k s
  | .pwrFault k falls => Sys2Proof.Machine.execPwrFault k falls s
  | .wakeN => Sys2Proof.Machine.execWakeN s
  | .wakeAt => Sys2Proof.Machine.execWakeAt s
  | .ethWake => Sys2Proof.Machine.execEthWake s
  | .pmbusPoll rails => Sys2Proof.Machine.execPmbusPoll rails s
  | .pmbAlert status => Sys2Proof.Machine.execPmbAlert status s
  | .sensorRead temps => Sys2Proof.Machine.execSensorRead temps s
  | .calRun id => Sys2Proof.Machine.execCalRun id s
  | .calRunAll => Sys2Proof.Machine.execCalRunAll s
  | .calRunEnd id lo hi => Sys2Proof.Machine.execCalRunEnd id lo hi s
  | .calRetry id => Sys2Proof.Machine.execCalRetry id s
  | .calMaxWait id => Sys2Proof.Machine.execCalMaxWait id s
  | .replicaRead slacks => Sys2Proof.Machine.execReplicaRead slacks s
  | .laneEyePoll height width => Sys2Proof.Machine.execLaneEyePoll height width s
  | .ageTick => Sys2Proof.Machine.execAgeTick s
  | .cndCommitAtReached c => Sys2Proof.Machine.execCndCommitAtReached c s
  | .prbsLock j on errors => Sys2Proof.Machine.execPrbsLock j on errors s
  | .edpLinkTrained e psr msa => Sys2Proof.Machine.execEdpLinkTrained e psr msa s
  | .controllerReadyChange port fn ready => Sys2Proof.Machine.execControllerReadyChange port fn ready s
  | .capToExpiry port fn => Sys2Proof.Machine.execCapToExpiry port fn s
  | .controllerFatal port fn => Sys2Proof.Machine.execControllerFatal port fn s
  | .bar4Write n off data => Sys2Proof.Machine.execBar4Write n off data s
  | .pcieLinkError n fatal => Sys2Proof.Machine.execPcieLinkError n fatal s
  | .perstRelease n => Sys2Proof.Machine.execPerstRelease n s
  | .jtagInstruction code => Sys2Proof.Machine.execJtagInstruction code s

end Sys2Proof.Machine
end

