-- ==== Sys2Proof/Machine/Tick.lean ====
section
/-! DEFINITION. What passes while no command waits: one clock cycle of device time (R495, R501), the
management island's own time, and the DSP cycles that idle Lantern cores count (R278, R301, R309). -/

namespace Sys2Proof.Machine

/-- DSP cycles up to an instant of the island's count: 3 for every 5 SYS ticks while the DSP loop is locked,
cycles of the bypass clock while it is in BYPASS, none while it is OFF (R488, R490).
(DESIGN CHOICE, log entry 2.) -/
def State.dspCount (s : State) (up : Nat) : Nat :=
  if s.pllLocked 3 then up * 3 / 20480
  else if s.pllState 3 = 1 then up * s.bypassKhz / 10240000000
  else 0

/-- DSP cycles pass for every core that executes no instruction; a core in RUN counts its cycles with its
instructions. Below RUN the DSP clock is gated (R558). (DESIGN CHOICE, log entry 2.) -/
def State.tickCores (s : State) (n : Nat) : State :=
  if n = 0 ∨ 1 ≤ s.power then s
  else (List.range 32).foldl (fun s k => if s.lntState k = 3 then s else s.lntCycles k n) s

/-- Hand-overs of the channels that no samples feed, while FRONT runs (R97). -/
def State.idleHandovers (s : State) : State :=
  if s.pllState 2 = 0 then s else (List.range 4).foldl State.cndIdlePass s

/-- One clock cycle passes: what was raised in it is delivered, device time moves, and idle hand-overs, power-good inputs, refreshes, drives
and calibration runs follow (R527). (DESIGN CHOICE, log entry 2.) -/
def State.tick (s : State) : State :=
  let t := s.deliverRaised.tickClock.idleHandovers.pgSample.memPoll.probesEnd.noteSram.railsDue.drvPoll.calSweep
  t.tickCores (s.dspCount t.clk.up - s.dspCount s.clk.up)

end Sys2Proof.Machine
end

