-- ==== Sys2Proof/Machine/Step.lean ====
section
/-! DEFINITION. One step of the block: the command at the front of the queue, or one tick. -/

namespace Sys2Proof.Machine

/-- Takes the command at the front of the queue and runs it with the rest; on an empty queue the
block's clock runs for one cycle. (DESIGN CHOICE, log entry 2.) (DESIGN CHOICE, log entry 58.) -/
def step (s : State) : Host.Outcome State Fault Refusal :=
  match s.pending with
  | [] => .next s.tick
  | c :: r => exec c { s with pending := r }

/-- The state with the command a word spells put in front of the queue: no word spells one.
(DESIGN CHOICE, log entry 58.) -/
def State.withFetchWord (s : State) (nbits w : Nat) : State :=
  match decodeTableWord nbits w with
  | some c => { s with pending := c :: s.pending }
  | none => s

end Sys2Proof.Machine
end

