-- ==== Sys2Proof/Machine/Package.lean ====
section
/-! DEFINITION. The package: what every ball carries (R587, R600-R608). It is fixed data of the part,
no state: EXTEST of the JTAG port and an integrator's board meet the device through it. -/

namespace Sys2Proof.Machine

/-- The supply rails (R587). -/
inductive Rail
  | vss | vddCore | vdda1v8 | vddio1v8 | vddMemphy | vddqM | vddSerdes | vddhSerdes | vddMgt | vddEth | vddioMgt
  deriving DecidableEq, Repr

/-- The PS_EN output that switches a rail; none for a rail that is always on (R587). -/
def Rail.switch : Rail → Option Nat
  | .vddCore | .vdda1v8 | .vddio1v8 => some 0
  | .vddMemphy | .vddqM => some 1
  | .vddSerdes | .vddhSerdes => some 2
  | .vss | .vddMgt | .vddEth | .vddioMgt => none

/-- Minimum, nominal and maximum of a rail in mV (R587). (DEDUCED, log entry 57.) -/
def Rail.range : Rail → Nat × Nat × Nat
  | .vss => (0, 0, 0)
  | .vddCore => (680, 750, 860)
  | .vdda1v8 | .vddio1v8 => (1710, 1800, 1890)
  | .vddMemphy | .vddSerdes => (720, 750, 780)
  | .vddqM | .vddhSerdes => (1160, 1200, 1240)
  | .vddMgt | .vddEth => (760, 800, 840)
  | .vddioMgt => (1710, 1800, 1890)

/-- Groups of differential and serial pairs. -/
inductive PairGroup
  | jl | syncb | pciRx | pciTx | pciRefclk | ethRx | ethTx | ti | cyc | vec0 | refIn | sysref | ftx | frx | edpMl
  | edpAux
  deriving DecidableEq, Repr

/-- Groups of single-ended pins. -/
inductive SingleGroup
  | extTrig | trigOut | lineSync | vsyncIn | lockDet | edpHpd | prsnt | perstN | i2cScl | i2cSda | spiSck
  | spiMosi | spiMiso | dcsA | dcsB | xspiCsN | xspiSck | xspiDqs | xspiD | pmbScl | pmbSda | pmbAlertN | psEn
  | psPg | porN | wrstN | wakeN | tck | tms | tdi | tdo | trstN
  deriving DecidableEq, Repr

/-- What a ball carries. -/
inductive Ball
  | rail (r : Rail)
  /-- A leg of pair `n` of a group: the P leg or the N leg. -/
  | leg (g : PairGroup) (n : Nat) (p : Bool)
  | single (g : SingleGroup) (n : Nat)
  /-- SI input and SRTN return of the supply converters. -/
  | si (n : Nat)
  | srtn (n : Nat)
  /-- The pins of GDDR7 device `d`; `ch` is its channel. -/
  | memCk (d : Nat) (p : Bool)
  | memResetN (d : Nat)
  | memDq (d n : Nat)
  | memEdc (d ch : Nat)
  | memWck (d ch : Nat) (p : Bool)
  | memCa (d ch n : Nat)
  deriving DecidableEq, Repr

/-- The ball at row `u` and place `v`, counted inward, of device `d`'s block (R604). -/
def memBall (d u v : Nat) : Ball :=
  if v = 9 then .rail (if u % 2 = 0 then .vddqM else .vddMemphy)
  else if v = 8 ∨ u = 9 then .rail .vss
  else if u = 0 then
    match v with
    | 0 => .memCk d true
    | 1 => .memCk d false
    | 2 => .memResetN d
    | _ => .rail .vss
  else if u % 2 = 1 then .memDq d (8 * ((u - 1) / 2) + v)
  else
    let ch := (u - 2) / 2
    match v with
    | 0 => .memEdc d ch
    | 1 => .memWck d ch true
    | 2 => .memWck d ch false
    | n + 3 => .memCa d ch n

/-- The pair on a site of a row (R605, R606). -/
def sitePair (y s : Nat) : Option (PairGroup × Nat) :=
  match y with
  | 1 => some (.jl, s)
  | 3 => some (.jl, 20 + s)
  | 5 => if s < 8 then some (.jl, 40 + s) else if s < 12 then some (.syncb, s - 8) else none
  | 7 => some (.pciRx, s)
  | 9 => if s < 12 then some (.pciRx, 20 + s) else if s < 16 then some (.pciRefclk, s - 12)
    else if s = 16 then some (.ethRx, 0) else none
  | 11 => some (.pciTx, s)
  | 13 => if s < 12 then some (.pciTx, 20 + s) else if s = 16 then some (.ethTx, 0) else none
  | 68 => if s < 16 then some (.ti, 48 + s) else none
  | 70 => if s < 16 then some (.ti, 32 + s) else none
  | 72 => if s < 16 then some (.ti, 16 + s) else if s = 16 then some (.refIn, 0)
    else if s = 17 then some (.sysref, 0) else none
  | 74 => if s < 16 then some (.ti, s) else if s = 16 then some (.cyc, 0)
    else if s = 17 then some (.vec0, 0) else none
  | 76 => if s < 16 then some (.ftx, s) else some (.edpMl, s - 16)
  | 78 => if s < 16 then some (.frx, s) else if s = 16 then some (.edpAux, 0) else none
  | _ => none

/-- A ball of a row of sites: a ground, the P leg and the N leg of each pair (R604). -/
def siteBall (y k : Nat) : Ball :=
  match sitePair y ((k - 11) / 3), (k - 11) % 3 with
  | some (g, n), 1 => .leg g n true
  | some (g, n), 2 => .leg g n false
  | _, _ => .rail .vss

/-- A ball of the converter rows 64 and 66 (R606). -/
def converterBall (y k : Nat) : Ball :=
  if 59 ≤ k then .rail .vdda1v8
  else
    let c := 8 * ((y - 64) / 2) + (k - 11) / 6
    match (k - 11) % 6 with
    | 4 => .srtn c
    | 5 => .rail .vss
    | m => .si (4 * c + m)

/-- A ball of band A (R607). -/
def bandA (k : Nat) : Ball :=
  if k ≤ 18 then .single .extTrig (k - 11)
  else if k ≤ 22 then .single .trigOut (k - 19)
  else if k = 23 then .single .lineSync 0
  else if k = 24 then .single .vsyncIn 0
  else if k = 25 then .single .lockDet 0
  else if k = 26 then .single .edpHpd 0
  else if k ≤ 30 then .single .prsnt (k - 27)
  else if k ≤ 34 then .single .perstN (k - 31)
  else if k ≤ 62 then
    let g := (k - 35) / 7
    match (k - 35) % 7 with
    | 0 => .single .i2cScl g
    | 1 => .single .i2cSda g
    | 2 => .single .spiSck g
    | 3 => .single .spiMosi g
    | 4 => .single .spiMiso g
    | 5 => .single .dcsA g
    | _ => .single .dcsB g
  else .rail .vss

/-- The pins of band B from column 11 (R607). -/
def bandBPins : List (SingleGroup × Nat) :=
  [(.xspiCsN, 0), (.xspiSck, 0), (.xspiDqs, 0)] ++ (List.range 8).map (fun n => (.xspiD, n)) ++
    [(.pmbScl, 0), (.pmbSda, 0), (.pmbAlertN, 0)] ++ (List.range 3).map (fun n => (.psEn, n)) ++
    (List.range 3).map (fun n => (.psPg, n)) ++
    [(.porN, 0), (.wrstN, 0), (.wakeN, 0), (.tck, 0), (.tms, 0), (.tdi, 0), (.tdo, 0), (.trstN, 0)]

/-- A ball of band B. -/
def bandB (k : Nat) : Ball :=
  match bandBPins[k - 11]? with
  | some (g, n) => .single g n
  | none => .rail .vss

/-- The rail of a middle row, on balls with y + k odd (R608). -/
def middleRail (y k : Nat) : Rail :=
  if y ≤ 20 ∨ y = 59 then .vddSerdes
  else if y ≤ 22 ∨ y = 60 then .vddhSerdes
  else if y ≤ 54 then .vddCore
  else if y = 55 then .vddio1v8
  else if y = 57 then (if k ≤ 40 then .vddMgt else .vddEth)
  else if y = 58 then .vddioMgt
  else .vdda1v8

/-- What the ball at row `y`, 0 to 79, and column `k`, 1 to 80, carries (R604-R608). (DEDUCED, log entry 57.) -/
def ball (y k : Nat) : Ball :=
  if k ≤ 10 then memBall (y / 10) (y % 10) (k - 1)
  else if 71 ≤ k then memBall (8 + y / 10) (y % 10) (80 - k)
  else if y = 16 then bandA k
  else if y = 18 then bandB k
  else if 19 ≤ y ∧ y ≤ 62 then (if (y + k) % 2 = 0 then .rail .vss else .rail (middleRail y k))
  else if y = 64 ∨ y = 66 then converterBall y k
  else siteBall y k

/-- The letters of row names (R603). -/
def rowLetters : List Char :=
  ['A', 'B', 'C', 'D', 'E', 'F', 'G', 'H', 'J', 'K', 'L', 'M', 'N', 'P', 'T', 'U', 'V', 'W', 'Y']

/-- The name of a row (R603). -/
def rowName (y : Nat) : List Char :=
  let letter (n : Nat) : Char := rowLetters.getD n 'A'
  if y ≤ 18 then [letter y] else [letter (y / 19 - 1), letter (y % 19)]

/-- A boundary-scan cell exists for the ball: every single-ended signal pin has one, and no differential,
serial, analogue or supply ball (R600). (DEDUCED, log entry 57.) -/
def Ball.scanned : Ball → Bool
  | .single .. | .memResetN _ | .memDq .. | .memEdc .. | .memCa .. => true
  | _ => false

end Sys2Proof.Machine
end

