-- ==== Sys2Proof/Safety.lean ====
section
/-! DEFINITION. What counts as a sound state of the model, in the terms that statements use: the two stores
of the device stand in their canonical form, and what left the device, the commands that wait and the free
values already drawn are never taken back. -/

namespace Sys2Proof.Machine

/-- Device memory is in canonical form: addresses strictly rising, and no entry equal to what an unlisted
address reads as. -/
abbrev Memory.wf (m : List Host.Cell) : Bool := Sparse.wf memDefault m

/-- The dictionary and device memory are in canonical form. -/
def State.canonical (s : State) : Bool := Sparse.wf regDefault s.regs && Memory.wf s.mem

/-- What every command keeps: nothing sent is taken back, no command enters the queue, no free value is drawn
twice, the canonical form of the stores, and device time inside its 60 bits. -/
structure State.Grows (s t : State) : Prop where
  out : s.out <+: t.out
  pending : t.pending = s.pending
  fresh : s.fresh ≤ t.fresh
  canonical : s.canonical = true → t.canonical = true
  time : s.time < timeMod → t.time < timeMod

/-- A client reaches the RAP server of a device at rest in RUN: over the fabric, or over Ethernet while the port
runs and has an address (R525). -/
def State.rapReached (s : State) (peer : Peer) : Prop :=
  s.power = 0 ∧ s.moving = false ∧ s.rapOn peer = true ∧ s.inReset = false ∧
    match peer with
    | .fabric _ => True
    | .eth .. => s.ethRuns = true ∧ s.ethIp ≠ 0

/-- The state in which a session's request is executed: an Ethernet frame is counted, and the session keeps its
client's address and the time (R522, R525). -/
def State.rapMet (s : State) (peer : Peer) (m : RapMsg) : State :=
  let t := match peer with
    | .fabric _ => s
    | .eth .. => s.ethTaken
  (t.onSession peer m.session fun y => { y with peer := peer, lastAt := t.clk.up }).fresh'

/-- What a write of `v` to slot `k` brings to the entry: the bits that the slot's type has. -/
def State.written (s : State) (k : Nat) (v : BitVec 64) : BitVec 64 := v &&& s.typeBits k v

/-- A full-width write of `v` to slot `k` stores its fields and does nothing else: the entry, of class RW or WO
outside the protection set-up, is served and reached, has no rule of its own, and no CFG field changes (R507,
R512, R513). -/
def State.plainWrite (s : State) (who : Fin 8) (uid k : Nat) (v : BitVec 64) (env : WriteEnv)
    (r : EntryRow) : Prop :=
  findRow k = some r ∧ (r.acc = .rw ∨ r.acc = .wo) ∧ inProtection k = false ∧ 0 < r.ty.width ∧
    s.servedNow k = true ∧ s.mayReach who uid (slotIndex k) true = true ∧
    s.writeRule who env k (s.written k v) = none ∧ s.writeIgnored k v = false ∧ s.writeUndefined k v = none ∧
    strayPaired k v = false ∧ env.hw = 0 ∧ (s.written k v ^^^ s.rd k) &&& BitVec.ofNat 64 r.cfg = 0

/-- What a plain write leaves in its slot (R507, R512). -/
def State.mixed (s : State) (k : Nat) (v : BitVec 64) (r : EntryRow) : BitVec 64 :=
  r.mix (s.busy k) 0 0 (s.rd k) (s.written k v)

/-- Core `k` executes the word `w` at its PC next: it is in RUN, its clock runs, no interrupt goes first, and
the spec gives the word's outcome (R275, R294, R308). -/
def State.lntReady (s : State) (k w : Nat) : Prop :=
  s.lntState k = 3 ∧ s.idleOrLower = false ∧ s.lntAccepts k = false ∧ s.lntIssue k w = none

/-- What a command that stores nothing in memory, sends nothing and takes no time leaves alone: every slot of
the dictionary but those it writes, every byte of memory, device time and what has left the device. -/
structure State.Frame (s t : State) (writes : Nat → Prop) : Prop where
  rd : ∀ k, ¬ writes k → t.rd k = s.rd k
  byte : ∀ a, t.rdByte a = s.rdByte a
  time : t.time = s.time
  out : t.out = s.out

end Sys2Proof.Machine
end

