-- ==== Sys2Proof/Certificates/Slice0/Obligations.lean ====
section
/-! DEFINITION. The statements for the provers. Completion statements say, for every command, that it answers
the next state of its own effect under premises on the state and the operands alone; frames say what a command
leaves alone; the others formalise rules of the spec. -/

open Sys2Proof Sys2Proof.Machine

/-- A step takes the command at the front of the queue and runs it with the queue's rest. -/
def Obligations.StepRunsFront : Prop :=
  ∀ (s : State) (c : Instr) (r : List Instr), s.pending = c :: r → step s = exec c { s with pending := r }

/-- On an empty queue a step is one cycle of the block's clock (the model's choice, log entry 2): while SYS is
locked the device time goes on by one SYS tick, 4,096 FRAC units modulo 2^60, and with no event raised and no
drive at work device memory reads as before. -/
def Obligations.IdleStepTicks : Prop :=
  ∀ s : State, s.pending = [] → s.pllLocked 0 = true → s.clk.everLocked = true →
    ∃ t, step s = .next t ∧ t.time = (s.time + 4096) % timeMod ∧ t.clk.up = s.clk.up + 4096 ∧ t.pending = [] ∧
      (s.mgt.raised = [] → (∀ x, x < 4 → s.dState x < 2) → ∀ a, t.rdByte a = s.rdByte a)

/-- The stores' canonical form holds right after reset. -/
def Obligations.ResetIsCanonical : Prop :=
  State.reset.canonical = true ∧ State.reset.time < timeMod ∧ State.reset.pending = []

/-- Every step keeps the canonical form of the dictionary and of device memory, keeps device time inside its
60 bits, takes nothing back that has left the device, draws no free value twice, and puts no command into the
queue: it takes the one in front. -/
def Obligations.EveryStepGrows : Prop :=
  ∀ s t : State, step s = .next t → State.Grows { s with pending := s.pending.tail } t

/-- Reset (R15): every slot holds its entry's Reset value in the state after cold reset. -/
def Obligations.ResetHoldsDefaults : Prop :=
  ∀ k : Nat, State.reset.rd k = regDefault k

/-- Cold reset (R15, R549): whatever the state, a power-on reset leaves every slot outside those that R532,
R549, R568 and R574 keep or write at its Reset value, leaves nothing written in device memory (what it then
reads as: log entry 3) and stops every queue, stream and transfer. -/
def Obligations.ColdResetClears : Prop :=
  ∀ s : State, ∃ t, exec .por s = .next t ∧
    (∀ k, k ≠ Reg.HLT_JRN_HEAD → k ≠ Reg.HLT_AGE → k ≠ Reg.MGT_SAVE_STS → k ≠ Reg.MGT_RST_STS →
      t.rd k = regDefault k) ∧
    t.mem = [] ∧ t.misread = [] ∧ t.queues = [] ∧ t.prov = [] ∧ t.eyes = [] ∧ t.fab = State.reset.fab ∧
    t.locked = false ∧ t.stage = 0

/-- Events (R527, R528, R530): a raise takes its place behind those of its clock with no greater event number and
changes nothing else; its delivery changes no slot but the event counters and the pending words, takes the next
ORDER, and with no route enabled for it counts it as unrouted and leaves memory, the queues and the endpoints. -/
def Obligations.RaiseReachesRoutesOnly : Prop :=
  ∀ (s : State) (e : EventRec), e.event < 1024 →
    let rt := s.rd (Reg.MGT_EVT_ROUTE (e.event / 256) (e.event % 256))
    let t := s.deliver e
    (∀ k, (∀ w, k ≠ Reg.MGT_EVT_PEND w) → k ≠ Reg.MGT_EVT_SERIAL → k ≠ Reg.MGT_EVT_COALESCED →
      k ≠ Reg.MGT_EVT_UNROUTED → t.rd k = s.rd k) ∧
    t.rdN Reg.MGT_EVT_SERIAL = (s.rdN Reg.MGT_EVT_SERIAL + 1) % 2 ^ 64 ∧
    (bitAt rt 0 = false → bitAt rt 13 = false → s.subscribed e.event = false →
      t.rdN Reg.MGT_EVT_UNROUTED = (s.rdN Reg.MGT_EVT_UNROUTED + 1) % 2 ^ 64 ∧
      t.mem = s.mem ∧ t.queues = s.queues ∧ t.ep = s.ep) ∧
    (∀ (ts : Stamp) (param : Nat), s.mgt.raised.Pairwise (fun a b => a.event ≤ b.event) →
      let u := s.raiseTs e.event ts param
      u = { s with mgt := { s.mgt with raised := u.mgt.raised } } ∧
      u.mgt.raised.Pairwise (fun a b => a.event ≤ b.event) ∧
      ∃ before after x, s.mgt.raised = before ++ after ∧ u.mgt.raised = before ++ x :: after ∧
        x.event = e.event ∧ x.ts = ts ∧ x.count = 1 ∧ x.param = param % 2 ^ 32 ∧
        ∀ y ∈ after, e.event < y.event)

/-- Dictionary windows (R545): who reaches an index, and that a refused access reads 0, is not executed and sets
DENIED. -/
def Obligations.DictionaryWindowsGovern : Prop :=
  ∀ (s : State) (r : Fin 8) (uid i : Nat) (write : Bool), r.val ≤ 6 →
    let range (w : Fin 32) : Prop :=
      s.bit (Reg.PROT_DICT w) 63 = true ∧ s.fld (Reg.PROT_DICT w) 15 0 ≤ i ∧ i ≤ s.fld (Reg.PROT_DICT w) 31 16
    (s.mayReach r.val uid i write = true ↔ (r.val = 6 ∨ (∀ w, ¬ range w) ∨
      ∃ w : Fin 32, range w ∧ s.bit (Reg.PROT_DICT w) ((if write then 40 else 32) + r.val) = true) ∧
      (r.val = 5 → s.peerAllows uid i write = true)) ∧
    (∀ k, slotIndex k = i → s.servedNow k = true → s.mayReach r.val uid i write = false →
      if write then ∀ lo hi v env, s.writeSlot r uid k lo hi v env = .next (s.flag r.val k .denied)
      else s.readSlot r.val uid k = (s.flag r.val k .denied, 0))

/-- Fabric peers (R547). -/
def Obligations.PeerWindowsGovern : Prop :=
  ∀ (s : State) (uid i : Nat) (write : Bool) (c : Nat),
    ((∃ w : Fin 32, s.bit (Reg.PROT_PEER_ID w) 63 = true ∧ s.fld (Reg.PROT_PEER_ID w) 55 0 = uid ∧
        s.fld (Reg.PROT_PEER_ID w) 58 56 = c ∧
        ∀ v < w, ¬ (s.bit (Reg.PROT_PEER_ID v) 63 = true ∧ s.fld (Reg.PROT_PEER_ID v) 55 0 = uid)) ∨
      ((∀ w : Fin 32, ¬ (s.bit (Reg.PROT_PEER_ID w) 63 = true ∧ s.fld (Reg.PROT_PEER_ID w) 55 0 = uid)) ∧
        s.fld Reg.PROT_PEER_DEF 2 0 = c)) →
    (s.peerAllows uid i write = true ↔ c ≠ 7 ∧ ∃ w : Fin 8, s.bit (Reg.PROT_PEER_WIN c w) 63 = true ∧
      s.fld (Reg.PROT_PEER_WIN c w) 15 0 ≤ i ∧ i ≤ s.fld (Reg.PROT_PEER_WIN c w) 31 16 ∧
      s.bit (Reg.PROT_PEER_WIN c w) (if write then 33 else 32) = true)

/-- Empty slots (R506): what a requester that may reach the slot meets there. -/
def Obligations.EmptySlotsAnswerZero : Prop :=
  ∀ (s : State) (who : Fin 8) (uid k : Nat), who.val ≤ 6 → findRow k = none → s.servedNow k = true →
    (s.mayReach who.val uid (slotIndex k) false = true →
      (s.readSlot who.val uid k).2 = 0 ∧
      (s.readSlot who.val uid k).1.bit (Reg.MGT_ACC_STS who.val) AccFlag.noEntry.bit = true) ∧
    (∀ lo hi v env, s.mayReach who.val uid (slotIndex k) true = true →
      ∃ t, s.writeSlot who uid k lo hi v env = .next t ∧ t.rd k = s.rd k ∧
        t.bit (Reg.MGT_ACC_STS who.val) AccFlag.noEntry.bit = true)

/-- The protection set-up (R544): once PROT_LOCK is 1 a full-width write of any of its entries, by any
requester its windows let reach it, changes nothing there. -/
def Obligations.LockedProtectionStands : Prop :=
  ∀ (s : State) (who : Fin 8) (uid k : Nat) (v : BitVec 64) (env : WriteEnv) (r : EntryRow),
    who.val ≤ 6 → s.locked = true → inProtection k = true → findRow k = some r → s.servedNow k = true →
    s.mayReach who.val uid (slotIndex k) true = true → 0 < r.ty.width →
    s.writeSlot who uid k 0 8 v env =
      .next (s.flag who.val k (if r.ty.width ≤ 8 then (if who.val = 6 then .ignored else .denied) else .narrow))

/-- Branch conditions (R286): what each CC selects, and that code 15 leaves the outcome undefined. -/
def Obligations.BranchConditions : Prop :=
  ∀ (s : State) (k : Fin 32),
    let sr := s.lntSr k.val
    (s.lntCond k.val 0 = true ∧
      s.lntCond k.val 1 = sr.testBit 2 ∧ s.lntCond k.val 2 = !sr.testBit 2 ∧
      s.lntCond k.val 3 = sr.testBit 3 ∧ s.lntCond k.val 4 = !sr.testBit 3 ∧
      s.lntCond k.val 5 = sr.testBit 1 ∧ s.lntCond k.val 6 = !sr.testBit 1 ∧
      s.lntCond k.val 7 = sr.testBit 4 ∧ s.lntCond k.val 8 = !sr.testBit 4 ∧
      s.lntCond k.val 9 = sr.testBit 5 ∧ s.lntCond k.val 10 = (!sr.testBit 3 && !sr.testBit 2) ∧
      s.lntCond k.val 11 = (sr.testBit 3 || sr.testBit 2) ∧ s.lntCond k.val 12 = sr.testBit 6 ∧
      s.lntCond k.val 13 = sr.testBit 7 ∧
      s.lntCond k.val 14 = !(s.core k.val).xfers.isEmpty) ∧
    (∀ w, isBranch 0 w = true → ctlUnused w = 0 → natBits w 43 40 = 15 → s.ctlIssue k.val w = some 286)

/-- Lantern memory errors (R276): a double-bit error halts the core with cause MEM before the word acts,
whichever word stands at PC; a single-bit error is counted and the word acts as it should, shown for ADD. -/
def Obligations.LanternMemoryErrors : Prop :=
  ∀ (s : State) (k : Fin 32), s.lntState k.val = 3 → s.idleOrLower = false → s.lntAccepts k.val = false →
    (∀ n, let e : LntEcc := ⟨n, true⟩
      ∀ c ∈ [Instr.lntNop k e, .lntZero k e, .lntCopy k e, .lntCopya k e, .lntAdd k e, .lntSub k e, .lntAdda k e,
        .lntSuba k e, .lntMul k e, .lntMuln k e, .lntMadd k e, .lntMsub k e, .lntDmul k e, .lntDmadd k e,
        .lntDsump k e, .lntDdifp k e, .lntCross k e, .lntAbs k e, .lntNeg k e, .lntRound k e, .lntClip k e,
        .lntShl k e, .lntShra k e, .lntShrl k e, .lntAnd k e, .lntOr k e, .lntXor k e, .lntNot k e, .lntCmp k e,
        .lntCmpa k e, .lntMax k e, .lntMin k e, .lntNsign k e, .lntGoto k e, .lntCall k e, .lntRet k e,
        .lntIret k e, .lntLeave k e, .lntLoop k e, .lntRepeat k e, .lntLimm k e, .lntRmov k e, .lntMmov k e,
        .lntWait k e, .lntDone k e, .lntEnq k e, .lntXfer k e, .lntEvt k e, .lntSync k e, .lntSignal k e],
      ∃ t, exec c s = .next t ∧ t.lntState k.val = 6 ∧ t.fld (Reg.LNT_STS k) 6 3 = 3 ∧
        t.lntPc k.val = s.lntPc k.val) ∧
    (let w := s.lntP k.val (s.lntPc k.val);
      s.lntIssue k.val w = none → w < 2 ^ 47 → natBits w 46 40 = 4 →
      exec (.lntAdd k ⟨1, false⟩) s = .next (((s.bumpSat (Reg.LNT_MEM_CORR k) 32).sramCorrected 2 1).parallelAct k.val w
        fun i => aluAdd i i.word))

/-- Microwords (R178): a sequencer that comes to an address that software has not written in the active bank,
or to a word with a reserved code, condition group or nanoword bit, has no defined outcome, whichever command
finds it there; nor has a word whose code pops an empty stack or pushes onto a full one (R180). -/
def Obligations.UndefinedMicrowordsStop : Prop :=
  ∀ (s : State) (q : Fin 5),
    let words := [(0, Instr.seqCont q false), (1, .seqJump q false), (2, .seqMap q false), (3, .seqJnz q false),
      (4, .seqJz q false), (5, .seqWait q false), (6, .seqWaitmap q false), (7, .seqCall q false),
      (8, .seqCallmap q false), (9, .seqRet q false), (10, .seqReti q false), (11, .seqRestart q false),
      (12, .seqHalt q false)]
    s.seqRunning q.val = true → s.seqClocked = true → ∀ p ∈ words,
    ((s.seq q.val).begun = none → storeWord (s.seq q.val).micro (s.rdN (Reg.SEQ_PC q)) = none →
      exec p.2 s = .fault (.undefinedOutcome 178)) ∧
    (∀ w, (s.seq q.val).begun = none → storeWord (s.seq q.val).micro (s.rdN (Reg.SEQ_PC q)) = some w →
      (13 ≤ uNac w ∨ 13 ≤ uCsel w ∨ reservedWord w ((s.seq q.val).nanoOf w) = true) →
      exec p.2 s = .fault (.undefinedOutcome 178)) ∧
    (∀ b, (s.seq q.val).begun = some b → uNac b.w = p.1 → stackBad p.1 (s.seq q.val).stack = true →
      exec p.2 s = .fault (.undefinedOutcome 180))

/-- TAIL doorbells (R410): for a queue that software fills, the entries up to the new TAIL count as filled;
a doorbell that moves TAIL backward or past HEAD + DEPTH leaves the outcome undefined. -/
def Obligations.TailDoorbellFills : Prop :=
  ∀ (s : State) (q : Fin 65536) (v : BitVec 32) (x : QueueLive), s.queue q.val = some x → x.prodSw = true →
    x.head < 2 ^ 32 → x.tail < 2 ^ 32 → x.depth < 2 ^ 31 → x.occupancy ≤ x.depth →
    let moved := (v.toNat + 2 ^ 32 - x.head) % 2 ^ 32
    (x.occupancy ≤ moved ∧ moved ≤ x.depth →
      ∃ t y, exec (.tailDoorbell q v) s = .next t ∧ t.queue q.val = some y ∧ y.tail = v.toNat ∧
        y.head = x.head ∧ y.occupancy = moved) ∧
    (moved < x.occupancy ∨ x.depth < moved → exec (.tailDoorbell q v) s = .fault (.undefinedOutcome 410))

/-- Late waypoints (R352): a due entry whose target lies before the present tick is counted late; with
LATE_SKIP it retires without its action, whatever the action, and without it it acts in the tick with the tick
as its firing time and its LATE mark set. -/
def Obligations.LateWaypoints : Prop :=
  ∀ (s : State) (t : Nat),
    let n := s.wpHead
    let w := s.wpWord n 1
    let edge := s.sysNow
    s.wpRuns = true → s.wpPending ≠ 0 → s.wpTarget n = some t → s.wpReached n t 0 = true →
    s.wpFull = false → wpReserved w = false → (s.lastTick : Int) ≤ timeDiff edge t →
    (∀ p ∈ [(0, Instr.wpNone), (1, .wpArm), (2, .wpTrigger), (3, .wpSignal), (4, .wpTag), (5, .wpConvert),
        (6, .wpTask), (7, .wpFabric)], getF w 3 0 = p.1 → bitAt w 4 = true →
      ∃ r, exec p.2 s = .next r ∧ r.rdN Reg.CCS_WP_SKIPPED = satAdd 32 (s.rdN Reg.CCS_WP_SKIPPED) 1 ∧
        r.rdN Reg.CCS_WP_LATE = satAdd 32 (s.rdN Reg.CCS_WP_LATE) 1 ∧ r.bit Reg.CCS_WP_STS 15 = true ∧
        r.wpHead = (n + 1) % 2 ^ 32) ∧
    (bitAt w 4 = false →
      let l := s.wpLate
      let ts := l.stampAt edge true
      let f : WpFire := { slot := n % 4096, w := w, ts := ts, late := true }
      let v := (l.wpCount.bump Reg.CCS_WP_FIRED 64).wr Reg.CCS_WP_LAST_TS ts.word
      l.rdN Reg.CCS_WP_LATE = satAdd 32 (s.rdN Reg.CCS_WP_LATE) 1 ∧ l.bit Reg.CCS_WP_STS 15 = true ∧
      ts.t = edge ∧
      (getF w 3 0 = 0 → exec .wpNone s = .next v.wpRetire) ∧
      (getF w 3 0 = 1 → exec .wpArm s = .next (v.wpArm f).wpRetire) ∧
      (getF w 3 0 = 2 → exec .wpTrigger s =
        .next (v.waypointUnits (getF w 9 8) (getF w 17 10) (n % 4096) ts).wpRetire) ∧
      (getF w 3 0 = 3 → exec .wpSignal s = .next (v.wpSignal f).wpRetire) ∧
      (getF w 3 0 = 4 → exec .wpTag s = .next (v.wpTag f).wpRetire) ∧
      (getF w 3 0 = 5 → exec .wpConvert s = .next (v.wpConvert f).wpRetire) ∧
      (getF w 3 0 = 6 → exec .wpTask s = .next (v.wpTask f).wpRetire) ∧
      (getF w 3 0 = 7 → exec .wpFabric s = .next (v.wpFabric v.wpHead ts.t).wpRetire))

/-- Comparator monitors (R370): STATE is UNDET from enable and from a write of the thresholds, a sample that is
not UNDET sets it, the change out of UNDET raises the monitor's event, and an UNDET sample leaves it alone and is
counted once STATE is not UNDET. -/
def Obligations.MonitorStateFollowsSamples : Prop :=
  ∀ (s : State) (w : Fin 16),
    let k := Reg.CMP_MON_STS w.val
    (s.monOn w.val = true → (s.monEnable w.val false).fld k 1 0 = 0) ∧
    (∀ v : BitVec 32, ∃ t, exec (.monThrWrite w v) s = .next t ∧ t.fld k 1 0 = 0) ∧
    (s.mon.watch.testBit w.val = true → s.monOn w.val = true → s.passed s.mon.tickAt (usec 1) = true →
      ∀ (si : Fin 64) (settle watch : List Int), s.fld (Reg.CMP_MON_CFG w.val) 5 0 = si.val →
      let r := s.monResult w.val settle watch
      let u : State := { s with mon := { s.mon with watch := s.mon.watch - (s.mon.watch &&& 2 ^ w.val) } }
      let v := if s.fld k 1 0 = 0 then u.raise (640 + w.val) else u
      (r.1 = true → exec (.monSample w si settle watch) s =
          .next (((v.setFld k 1 0 3).bumpSat (Reg.CMP_MON_HIGH_COUNT w.val) 32).monViolate w.val 3) ∧
        (((v.setFld k 1 0 3).bumpSat (Reg.CMP_MON_HIGH_COUNT w.val) 32).monViolate w.val 3).fld k 1 0 = 3) ∧
      (r.1 = false → r.2.1 = true → exec (.monSample w si settle watch) s =
          .next (((v.setFld k 1 0 2).bumpSat (Reg.CMP_MON_LOW_COUNT w.val) 32).monViolate w.val 2) ∧
        (((v.setFld k 1 0 2).bumpSat (Reg.CMP_MON_LOW_COUNT w.val) 32).monViolate w.val 2).fld k 1 0 = 2) ∧
      (r.1 = false → r.2.1 = false → r.2.2 = false → exec (.monSample w si settle watch) s =
        .next (v.setFld k 1 0 1) ∧ (v.setFld k 1 0 1).fld k 1 0 = 1) ∧
      (r.1 = false → r.2.1 = false → r.2.2 = true → exec (.monSample w si settle watch) s =
          .next (if s.fld k 1 0 = 0 then u else u.bumpSat (Reg.CMP_MON_UNDET_COUNT w.val) 32) ∧
        (u.bumpSat (Reg.CMP_MON_UNDET_COUNT w.val) 32).fld k 1 0 = s.fld k 1 0 ∧
        (u.bumpSat (Reg.CMP_MON_UNDET_COUNT w.val) 32).rdN (Reg.CMP_MON_UNDET_COUNT w.val) =
          satAdd 32 (s.rdN (Reg.CMP_MON_UNDET_COUNT w.val)) 1))

/-- SYSREF in BYPASS (R499): the edge is not captured, the last captured edge and every lane group stay as they
were, and the edge is counted as skipped. -/
def Obligations.BypassSkipsSysref : Prop :=
  ∀ s : State, s.pllState 0 = 1 → s.pllLocked 0 = false →
    ∃ t, exec .sysrefEdge s = .next t ∧ t.lanes = s.lanes ∧
      t.rdN Reg.CLK_SYSREF_SKIPPED = satAdd 32 (s.rdN Reg.CLK_SYSREF_SKIPPED) 1 ∧
      s.Frame t (· = Reg.CLK_SYSREF_SKIPPED)

/-- Density cells (R230): an update adds the bins that land in the cell and stops at 0xFF_FFFF, whatever a
pass or a clear has done to the cell before it, and touches no other cell. -/
def Obligations.DensityCellsSaturate : Prop :=
  ∀ (x : CanopyChan) (free k n : Nat) (hs : List CellHit),
    let y := (x.stepBefore free k).readBefore free k
    (CanopyChan.hit free (x, hs) (k, n)).1.cell k = min 0xFFFFFF (y.cell k + n) ∧
    ∀ j, j ≠ k → (CanopyChan.hit free (x, hs) (k, n)).1.cell j = y.cell j

/-- Frames of the triggers and sequencers (R142, R164, R165, R178, R193, R197, R202): what arming, disabling,
commits (and a hand-over that is due), requests and halts write. -/
def Obligations.TriggerSequencerFrame : Prop :=
  ∀ (s t : State) (c : Fin 4) (u : Fin 8) (q : Fin 5),
    (∀ on, exec (.trgArm c u on) s = .next t → s.Frame t (· = Reg.TRG_UNIT_CTL c u)) ∧
    (exec (.trgUnitDisable c u) s = .next t → s.Frame t (· = Reg.TRG_UNIT_CTL c u)) ∧
    (exec (.trgCommit c) s = .next t ∨ exec (.trgCommitTimed c) s = .next t →
      s.Frame t (fun k => k = Reg.TRG_CH_STS c ∨ k = Reg.TRG_SHADOW_GEN c)) ∧
    (∀ n : Fin 4, exec (.trigOutForce n) s = .next t → s.Frame t (fun _ => False)) ∧
    (exec (.seqDisable q) s = .next t → s.Frame t (· = Reg.SEQ_CTL q)) ∧
    (exec (.forceHalt q) s = .next t → s.Frame t (fun _ => False)) ∧
    (exec (.faultPost q) s = .next t → s.Frame t (· = Reg.SEQ_FAULT q)) ∧
    (∀ mask, exec (.seqReq q mask) s = .next t → s.Frame t (· = Reg.SEQ_REQ q))

/-- Frames of intake, spectra, density and display (R40, R43, R56, R130, R241, R254, R272): what their
control commands write. -/
def Obligations.SignalPathFrame : Prop :=
  ∀ (s t : State) (g c : Fin 4) (j : Fin 64) (r : Fin 8),
    (∀ low, exec (.prsntEdge g low) s = .next t → s.Frame t (fun _ => False)) ∧
    (exec (.rawGo g) s = .next t → s.Frame t (fun _ => False)) ∧
    (∀ words, exec (.rawSnap g words) s = .next t → s.Frame t (fun k => ∃ l, k = Reg.LNK_RAW_WORD (s.jLane g l))) ∧
    (∀ on errors, exec (.prbsLock j on errors) s = .next t →
      s.Frame t (fun k => k = (if j.val < 48 then Reg.LNK_ERR_PRBS j else Reg.FAB_ERR_PRBS (j.val - 48)) ∨
        k = (if j.val < 48 then Reg.LNK_LANE_STS j else Reg.FAB_LANE_STS (j.val - 48)))) ∧
    (exec (.spxCommit r) s = .next t → s.Frame t (· = Reg.SPX_RES_STS r)) ∧
    (exec (.canClear c) s = .next t → s.Frame t (fun _ => False)) ∧
    (exec (.canCommit c) s = .next t → s.Frame t (· = Reg.CAN_STS c)) ∧
    (∀ on, exec (.canHold c on) s = .next t →
      s.Frame t (fun k => k = Reg.CAN_CTL c ∨ (on = false ∧ k = Reg.CAN_STS c))) ∧
    (exec .scnCommit s = .next t → s.Frame t (· = Reg.SCN_STS)) ∧
    (∀ mask, exec (.traceReset mask) s = .next t → s.Frame t (fun _ => False))

/-- Frames of the schedulers, converters, timers, queues and memory (R326, R350, R370, R385, R420, R422, R553):
what their control commands write. -/
def Obligations.ServicesFrame : Prop :=
  ∀ (s t : State),
    (∀ v, exec (.wpTailWrite v) s = .next t →
      s.Frame t (fun k => k = Reg.CCS_WP_TAIL ∨ k = Reg.CCS_WP_STS)) ∧
    (exec .wpCancel s = .next t → s.Frame t (fun k => k = Reg.CCS_WP_CANCELLED ∨ k = Reg.CCS_WP_HEAD ∨
      k = Reg.CCS_WP_STS)) ∧
    (∀ (i : Fin 64) (e : Fin 2) (v : BitVec 64), exec (.timSRelWrite i e v) s = .next t →
      s.Frame t (· = Reg.TIM_S_REL i e)) ∧
    (∀ (w : Fin 16) (v : BitVec 32), exec (.monThrWrite w v) s = .next t →
      s.Frame t (fun k => k = Reg.CMP_MON_THR w ∨ k = Reg.CMP_MON_STS w)) ∧
    (exec .monTick s = .next t → s.Frame t (fun _ => False)) ∧
    (∀ ch : Fin 128, exec (.dmaEnable ch) s = .next t →
      s.Frame t (fun k => k = Reg.QDM_CH_CTL ch ∨ k = Reg.QDM_CH_STS ch)) ∧
    (∀ ch : Fin 128, exec (.dmaPause ch) s = .next t →
      s.Frame t (fun k => k = Reg.QDM_CH_CTL ch ∨ k = Reg.QDM_CH_STS ch)) ∧
    (exec .retrain s = .next t → s.Frame t (· = Reg.MEM_STS)) ∧
    (∀ k : Fin 32, exec (.lntHostIrq k) s = .next t → s.Frame t (· = Reg.LNT_STS k)) ∧
    (∀ n : Fin 4, exec (.flrStart n) s = .next t → s.Frame t (fun _ => False)) ∧
    (exec .wdogKick s = .next t → s.Frame t (fun _ => False))

/-- Stores from outside (R305, R380, R435, R439): a write through BAR2 or from below a root port puts each of
its bytes at its place, changes no other byte of memory and no slot but the count of bad accesses. Bytes that
hold no bit of a Lantern word are the exception: they ignore the write. A request that waits for GDDR7 changes
nothing yet (R383, R387). -/
def Obligations.StoresReachTheirBytes : Prop :=
  ∀ (s t : State) (n : Fin 4) (tag : Fin 16384) (data : List (BitVec 8)) (len : Nat),
    (∀ off, let a := s.fld (Reg.PCI_EP_BAR2 n) 47 20 * 2 ^ 20 + off
      exec (.bar2Access n tag true off len data) s = .next t →
      (∀ b, b < a ∨ a + data.length ≤ b → t.rdByte b = s.rdByte b) ∧
      (∀ k, k ≠ Reg.PCI_EP_BAD_ACC n → t.rd k = s.rd k) ∧ t.time = s.time ∧
      (s.epServes n.val = true → off + data.length ≤ 2 ^ s.fld (Reg.PCI_EP_BAR2 n) 5 0 →
        s.softWriteOk a data.length = true → s.epAllows n.val a data.length true = true →
        s.portWaits n.val a = false →
        ∀ j b, data[j]? = some b → lanternPad (a + j) = false → t.rdByte (a + j) = b)) ∧
    (∀ addr : BitVec 64, exec (.downstreamRequest n tag true addr len data) s = .next t →
      (∀ b, b < addr.toNat ∨ addr.toNat + data.length ≤ b → t.rdByte b = s.rdByte b) ∧
      (∀ k, t.rd k = s.rd k) ∧ t.time = s.time ∧
      (s.pciRole n.val = 1 → s.linkUp n.val = true → addr.toNat + data.length ≤ 2 ^ 48 →
        s.memWriteOk addr.toNat data.length = true → s.contextHit addr.toNat data.length = false →
        s.portWaits n.val addr.toNat = false →
        ∀ j b, data[j]? = some b → lanternPad (addr.toNat + j) = false → t.rdByte (addr.toNat + j) = b))

/-- The package (R608): the rows without signal pins. -/
def Obligations.PackageMiddleRows : Prop :=
  ∀ y k : Nat, 11 ≤ k → k ≤ 70 →
    (19 ≤ y → y ≤ 62 → (y + k) % 2 = 0 → ball y k = .rail .vss) ∧
    (19 ≤ y → y ≤ 62 → (y + k) % 2 = 1 → ball y k = .rail (
      if y = 19 ∨ y = 20 ∨ y = 59 then .vddSerdes
      else if y = 21 ∨ y = 22 ∨ y = 60 then .vddhSerdes
      else if y = 55 then .vddio1v8
      else if y = 56 ∨ y = 61 ∨ y = 62 then .vdda1v8
      else if y = 57 then (if k ≤ 40 then .vddMgt else .vddEth)
      else if y = 58 then .vddioMgt
      else .vddCore)) ∧
    (y = 63 ∨ y = 65 ∨ y = 67 → ball y k = .rail .vss)

/-- Boot (R537-R542, R571, R588): the ROM's commands complete. -/
def Obligations.BootRomCompletes : Prop :=
  ∀ s : State,
    (s.stage = 0 → exec .porRelease s = .next ((s.railsUp 1).setStage 1)) ∧
    (∀ r, s.stage = 1 → s.boot.phase ≠ 3 → s.slotFails r (s.slotTried r) = none →
      exec (.slotReadDone r) s = .next (s.slotStarts r (s.slotTried r))) ∧
    (∀ r n cause, s.stage = 1 → s.boot.phase ≠ 3 → s.slotFails r (s.slotTried r) = some cause →
      s.boot.tried = some n →
      ∃ t, exec (.slotReadDone r) s = .next t ∧ t.stage = 7 ∧ t.locked = s.locked) ∧
    (s.boot.phase = 2 → s.elapsed s.boot.since (usec 10) = true → s.boot.held = [] → s.power = 0 →
      ∃ t, exec .resetRelease s = .next t ∧ t.stage = 1 ∧ t.boot.phase = 3)

/-- Boot script (R539-R541): every kind of record completes when it stands next and the record lies inside
the script; SYS starts before any record but a write of CLK_REF_FREQ, and a WRITE is stated for an entry
without a rule of its own. A reserved OP, or the end of the script without END, stops the script with cause
SCRIPT, whichever record command meets it, and leaves PROT_LOCK as it was. -/
def Obligations.ScriptRecordsComplete : Prop :=
  ∀ s : State, s.stage = 3 → s.pllState 0 ≠ 0 ∨ s.refUndefined = false →
    let r := s.script
    let b := (s.wrN Reg.MGT_BOOT_REC s.boot.recNo).sysStart
    (∀ c ∈ [Instr.scriptWait, .scriptWaitTimeout, .scriptDelay, .scriptDelayEnd, .scriptSaveset, .scriptWarm,
        .scriptCopy, .scriptEnd], s.boot.script.length < s.boot.pos + 16 ∨ 7 ≤ r.op →
      ∃ t, exec c s = .next t ∧ t.stage = 7 ∧ t.fld Reg.MGT_BOOT_STS 11 8 = 7 ∧
        t.rdN Reg.MGT_BOOT_REC = s.boot.recNo % 2 ^ 64 ∧ t.locked = s.locked) ∧
    (s.boot.pos + 16 ≤ s.boot.script.length →
    (∀ (env : WriteEnv) (e : EntryRow), let v := BitVec.ofNat 64 r.value
      r.op = 0 → r.beforeSys = false → r.width ≤ 8 → e.ty.width ≤ r.width →
      b.scriptNext.plainWrite 6 0 r.slot v env e →
      ∃ t, exec (.scriptWrite env) s = .next t ∧ t.rd r.slot = b.scriptNext.mixed r.slot v e) ∧
    (r.op = 1 → r.param ≠ 0 → (b.waitHolds r).2 = true → exec .scriptWait s = .next (b.waitHolds r).1.scriptNext) ∧
    (∀ t0, r.op = 1 → b.boot.waits = some t0 → b.elapsed t0 (usec r.param) = true → (b.waitHolds r).2 = false →
      exec .scriptWaitTimeout s = .next ((b.waitHolds r).1.scriptStop 8)) ∧
    (r.op = 2 → b.boot.waits = none →
      exec .scriptDelay s = .next (b.setBoot { b.boot with waits := some b.clk.up })) ∧
    (∀ t0, r.op = 2 → b.boot.waits = some t0 → b.elapsed t0 (usec r.param) = true →
      exec .scriptDelayEnd s = .next b.scriptNext) ∧
    (r.op = 3 → b.savedRecs = [] → exec .scriptSaveset s = .next b.scriptNext) ∧
    (∀ (k : Nat) (v : BitVec 64) (e : EntryRow), r.op = 3 → b.savedRecs = [(k, v)] →
      b.scriptNext.plainWrite 6 0 k v default e →
      ∃ t, exec .scriptSaveset s = .next t ∧ t.rd k = b.scriptNext.mixed k v e) ∧
    (r.op = 3 → (∀ e ∈ b.savedRecs, ∀ (w : State) (v : BitVec 64),
        w.writeRule 6 default e.1 v = none ∧ w.writeUndefined e.1 v = none) →
      ∃ t, exec .scriptSaveset s = .next t ∧ runActs ((imageOf b.savedRecs).map fun x (u : State) =>
        u.writeSlot 6 0 x.slot 0 x.width x.value default) b.scriptNext = .next t) ∧
    (r.op = 4 → exec .scriptWarm s = .next b.scriptNext) ∧
    (r.op = 5 → b.boot.pos + 16 + r.padded ≤ b.boot.script.length →
      b.softWriteOk (r.value % 2 ^ 48) r.param = true → b.serves (r.value % 2 ^ 48) = true →
      exec .scriptCopy s = .next ((b.scriptNext r.padded).wrBytes (r.value % 2 ^ 48)
        ((b.boot.script.drop (b.boot.pos + 16)).take r.param))) ∧
    (r.op = 6 → ∃ t, exec .scriptEnd s = .next t ∧ t.locked = true ∧ t.stage = 4 ∧ t.boot.phase = 0))

/-- Resets (R549-R553): each cause, quiescing, replay and the watchdog complete. -/
def Obligations.ResetsComplete : Prop :=
  ∀ s : State,
    (∃ t, exec .por s = .next t ∧ t.fld Reg.MGT_RST_STS 2 0 = 0 ∧ t.stage = 0 ∧ t.pwr.en = 0) ∧
    (∃ t, exec .coldReset s = .next t ∧ t.fld Reg.MGT_RST_STS 2 0 = 1 ∧ t.stage = 1) ∧
    (s.power < 4 → s.inReset = false → s.stage ≠ 7 → ∃ t, exec .wrst s = .next t ∧ t.boot.phase = 1 ∧ t.boot.since = s.clk.up) ∧
    (s.power < 4 → s.inReset = false → s.stage ≠ 7 →
      ∃ t, exec .warmReset s = .next t ∧ t.boot.phase = 1 ∧ t.boot.since = s.clk.up) ∧
    (∀ left : BitVec 6, s.quiesces = true → s.quiesceUndefined = false →
      (left = 0 ∨ s.elapsed s.boot.since (usec (s.fld Reg.MGT_QUIESCE 15 0)) = true) →
      ((∀ ch < 128, s.dmaState ch ≠ 3) ∨ left.getLsbD 2 = true) →
      exec (.quiesceEnd left) s = .next (s.quiesced left.toNat)) ∧
    (∀ who j, s.boot.journal = some j → s.bit Reg.MGT_RST_STS 10 = true → s.memState = 4 →
      exec (.replayStart who) s = .next (s.replay j)) ∧
    (s.bit Reg.MGT_RST_STS 10 = true → s.boot.journal = none →
      ∃ t, exec .mgtReplayDone s = .next t ∧ t.bit Reg.MGT_RST_STS 10 = false ∧ t.bit Reg.MGT_RST_STS 3 = true) ∧
    (exec .wdogKick s = .next (s.setBoot { s.boot with wdogAt := s.clk.up })) ∧
    (s.fld Reg.MGT_WDOG 15 0 ≠ 0 → s.wdogHeld = false →
      s.overdue s.boot.wdogAt (msec (s.fld Reg.MGT_WDOG 15 0)) = true → s.bit Reg.MGT_WDOG 16 = true →
      ∃ t, exec .wdogExpiry s = .next t ∧ t.fld Reg.MGT_RST_STS 2 0 = 2 ∧ t.stage = 1)

/-- Save sets, block reset, parity, fabric frames and JTAG (R460, R513, R516, R554, R600): the commands
complete. -/
def Obligations.ManagementCompletes : Prop :=
  ∀ s : State,
    (∀ who, s.bit Reg.MGT_SAVE_STS 0 = false →
      ∃ t, exec (.saveStart who) s = .next t ∧ t.bit Reg.MGT_SAVE_STS 0 = true ∧
        t.mgt.saving = some (savedSlots.map fun k => (k, s.rd k))) ∧
    (∀ rs, s.mgt.saving = some rs →
      ∃ t, exec .saveComplete s = .next t ∧ t.mgt.saving = none ∧ (t.saveSet s.freeSet).valid = true ∧
        (t.saveSet (1 - s.freeSet)).valid = false ∧ t.bit Reg.MGT_SAVE_STS 0 = false) ∧
    (∃ t, exec .eraseSets s = .next t ∧ (t.saveSet 0).valid = false ∧ (t.saveSet 1).valid = false) ∧
    (∀ who range, s.blkOk range.val = true →
      ∃ t, exec (.mgtBlkRst who range) s = .next t ∧ t.boot.blk = some range.val ∧
        ∀ k, slotIndex k / 256 = range.val → inProtection k = false → k ≠ Reg.MGT_BLK_RST →
          t.rd k = regDefault k) ∧
    (∀ r, s.boot.blk = some r → exec .mgtBlkRstDone s = .next ((s.setBoot { s.boot with blk := none }).raise 11 r)) ∧
    (∀ bad, exec (.parityCheck bad) s = .next ((bad.filter parityKept).foldl State.parityFault s)) ∧
    (∀ (p : Fin 8) (sub : Fin 4096) (f : FabFrame), s.fpUp p.val = true → f.ok = true → f.pkt = none →
      f.seq = (s.fport p.val).rxNext → f.credit = none → f.ack = none →
      ∃ t, exec (.frameReceive p sub f) s = .next t ∧
        (t.fport p.val).rxNext = (f.seq + 1) % 4096 ∧ OutMsg.fabricAck p.val f.seq true ∈ t.out) ∧
    (∀ code, (code ≠ 3 ∨ s.anyEnabled = false) →
      ∃ t, exec (.jtagInstruction code) s = .next t ∧ t.jtag = code ∧ t.regs = s.regs ∧ t.mem = s.mem)

/-- Clocks (R489-R502): the loops' commands complete. -/
def Obligations.ClocksComplete : Prop :=
  ∀ s : State,
    (s.bit Reg.CLK_STS 0 = true → ∃ t, exec .refLost s = .next t ∧ t.bit Reg.CLK_STS 0 = false) ∧
    (∀ far, s.bit Reg.CLK_STS 0 = false → ∃ t, exec (.refBack far) s = .next t ∧ t.bit Reg.CLK_STS 0 = true) ∧
    (∀ (k : Fin 6) (word : BitVec 24), s.pllState k.val = 1 → (k.val = 0 ∨ 4 ≤ k.val) → s.bit Reg.CLK_STS 0 = true →
      exec (.clkLock k word) s = .next (s.clkMeets k word.toNat)) ∧
    (∀ k : Fin 6, s.pllState k.val = 2 ∨ s.pllState k.val = 3 →
      exec (.clkUnlock k) s = .next (s.clkFall k.val true)) ∧
    (∀ k : Fin 6, s.pllState k.val = 3 → ∃ t, exec (.slewDone k) s = .next t ∧ t.pllState k.val = 2) ∧
    (∀ who v stands, s.bit Reg.FAB_CTL 0 = false →
      ∃ t, exec (.clkOffsetWrite who v stands) s = .next t ∧ t.rd Reg.CLK_OFFSET = v.setWidth 64) ∧
    (∀ k, exec (.bandClear k) s = .next (s.bandClear k.val))

/-- The power ladder, rails, wake causes and PMBus (R556-R562, R599): the commands complete. -/
def Obligations.PowerCompletes : Prop :=
  ∀ s : State,
    (∀ who, s.inReset = false → s.stage = 4 → s.fld Reg.PWR_CTL 2 0 < 6 → s.moving = true →
      exec (.pwrGo who) s = .next { s with pwr := { s.pwr with go := some (s.fld Reg.PWR_CTL 2 0) } }) ∧
    (∀ who, s.inReset = false → s.stage = 4 → s.fld Reg.PWR_CTL 2 0 < 6 → s.fld Reg.PWR_CTL 2 0 ≠ 0 →
      s.moving = false → exec (.pwrGo who) s = .next (s.move (s.fld Reg.PWR_CTL 2 0))) ∧
    (∀ levels, s.powerResumeBad = false → s.timerWakeBad = false → s.moving = true → s.inReset = false → s.pwr.down = true →
      s.stepMayEnd = true → exec (.powerStepEnd levels) s = .next (s.stepEnds levels)) ∧
    (∀ k : Fin 3, s.pwr.pgWait.testBit k.val = true → s.elapsed s.pwr.pgSince (usec 20) = true →
      ∃ t, exec (.psPgAssert k) s = .next t ∧ t.pwr.pg.testBit k.val = true ∧
        t.pwr.pgHigh = s.pwr.pgHigh ||| 2 ^ k.val) ∧
    (∀ k : Fin 3, s.elapsed s.pwr.pgSince (usec 20) = false →
      exec (.psPgAssert k) s =
        .next { s with pwr := { s.pwr with pgHigh := s.pwr.pgHigh ||| 2 ^ k.val } }) ∧
    (∀ k : Fin 3, s.pwr.en.testBit k.val = true → s.pwr.pg.testBit k.val = true →
      exec (.pwrFault k true) s =
        .next ((((s.pgFalls k.val).coldReset 3).journalFree 11 k.val).raise 6 k.val)) ∧
    (s.wakeUndefined 0 1 5 = false → exec .wakeN s = .next (s.wakeBy 0 1 1 5)) ∧
    (s.timerDue = true → s.wakeUndefined 2 1 4 = false →
      exec .wakeAt s = .next (s.wakeBy 2 3 1 4)) ∧
    (s.wakeUndefined 1 1 5 = false → exec .ethWake s = .next (s.wakeBy 1 2 1 5)) ∧
    (∀ rails, s.pmbusRuns = true → s.fld Reg.PWR_PMBUS_CFG 15 8 ≠ 0 → s.boot.pollAt = none →
      ∃ t, exec (.pmbusPoll rails) s = .next t ∧ t.boot.pollAt = some s.clk.up) ∧
    (∀ status k, s.pmbusRuns = true → k < 8 → s.railOn k = true →
      ∃ t, exec (.pmbAlert status) s = .next t ∧ OutMsg.pmbus k 0x79 0 ∈ t.out)

/-- Calibration and ageing (R566-R574): the supervisor's and the monitor's commands complete. -/
def Obligations.HealthCompletes : Prop :=
  ∀ s : State,
    (∀ temps, s.power ≤ 1 → s.sinceNote s.hlt.sensorAt (msec 1) = true →
      let t := ((List.range 32).foldl (fun s n => s.wrI (Reg.HLT_TEMP n) 24 (temps.getD n 0))
        (s.setHlt { s.hlt with sensorAt := some s.clk.up })).tempWarn
      t.bit Reg.CAL_CTL 0 = false → t.calUndefined = false → exec (.sensorRead temps) s = .next t.calStart) ∧
    (∀ id, (s.calMakeDue id.val).calUndefined = false →
      exec (.calRun id) s = .next (s.calMakeDue id.val).calStart) ∧
    (((List.range calIds).foldl State.calMakeDue s).calUndefined = false →
      exec .calRunAll s = .next ((List.range calIds).foldl State.calMakeDue s).calStart) ∧
    (∀ id lo hi r, (s.hlt.runs.find? fun r => r.id == id.val) = some r →
      (s.calRunEnd r lo hi).calUndefined = false →
      exec (.calRunEnd id lo hi) s = .next (s.calRunEnd r lo hi).calStart) ∧
    (∀ id e, (s.hlt.retry.find? fun r => r.1 == id.val) = some e →
      s.power ≤ 1 → s.elapsed e.2 (msec (s.rdN Reg.CAL_RETRY)) = true →
      let t := s.setHlt { s.hlt with retry := s.hlt.retry.filter fun r => r.1 != id.val }
      t.calUndefined = false → exec (.calRetry id) s = .next t.calStart) ∧
    (∀ id d, (s.hlt.due.find? fun d => d.1 == id.val) = some d →
      s.power ≤ 1 →
      s.elapsed d.2 (msec (100 * s.fld Reg.CAL_CFG 31 16)) = true →
      exec (.calMaxWait id) s = .next (s.setStale id.val true)) ∧
    (∀ slacks, s.power ≤ 1 → s.sinceNote s.hlt.replicaAt (msec 10) = true →
      let t := (List.range 64).foldl (fun s n => s.wrI (Reg.HLT_REPLICA n) 24 (slacks.getD n 0))
        (s.setHlt { s.hlt with replicaAt := some s.clk.up })
      exec (.replicaRead slacks) s = .next (t.voltAdjust (((List.range 64).map fun n =>
        t.rdI (Reg.HLT_REPLICA n) 24).foldl min (t.rdI (Reg.HLT_REPLICA 0) 24)))) ∧
    (∀ (height : BitVec 8) (width : BitVec 7) (j : Nat), s.power ≤ 1 →
      (s.adjusts 1 = false ∨ s.fld Reg.HLT_EQ_CFG 15 8 ≤ 8) →
      s.sinceNote s.hlt.laneAt (msec 100) = true →
      (((List.range 64).map fun n => (s.hlt.lane + n) % 64).find? s.laneRuns) = some j →
      let t := s.setHlt { s.hlt with laneAt := some s.clk.up, lane := (j + 1) % 64 }
      exec (.laneEyePoll height width) s = .next (((t.setFld (Reg.HLT_LANE j) 7 0 height.toNat).setFld
        (Reg.HLT_LANE j) 14 8 width.toNat).eqAdjust j)) ∧
    (s.sinceNote s.hlt.ageAt (msec 1000) = true →
      let t := s.setHlt { s.hlt with ageAt := some s.clk.up }
      let u := if t.pwr.en.testBit 0 then t.ageSecond else t
      exec .ageTick s = .next (if u.adjusts 3 && u.power == 0 then (List.range 64).foldl State.trimAdjust u
        else u))

/-- Record writers and EXT_TRIG edges (R145, R206, R209, R225): the commands complete. -/
def Obligations.WritersComplete : Prop :=
  ∀ s : State,
    (∀ c : Fin 4, s.parityStopped (Reg.ACQ_CTL c) = false → s.bit (Reg.ACQ_CTL c) 0 = false →
      (s.pairedOff c.val = true ∨ s.writerUndefined c.val = 0) → exec (.acqEnable c) s = .next (s.enableWriter c.val)) ∧
    (∀ c : Fin 4, exec (.acqDisable c) s = .next ((s.parityFree (Reg.ACQ_CTL c)).disableWriter c.val)) ∧
    (∀ c : Fin 4, s.serves (s.ringBase c.val) = true →
      exec (.recordUnitWrite c) s = .next (s.writeUnit c.val)) ∧
    (∀ (who : Fin 8) (c : Fin 4) (v : BitVec 64), s.pairedOff c.val = false → s.bit (Reg.ACQ_CFG c) 10 = false →
      s.rdN (Reg.ACQ_REL c) ≤ v.toNat → v.toNat ≤ s.rdN (Reg.ACQ_PUB c) → v.toNat % 64 = 0 →
      exec (.acqRelWrite who c v) s = .next ((s.wr (Reg.ACQ_REL c) v).serveWriter c.val)) ∧
    (∀ p rising, s.power = 2 → s.wakeUndefined 3 1 3 = false →
      exec (.extTrigEdge p rising) s = .next ((s.putBit Reg.TRG_EXT_LEVEL p.val rising).wakeBy 3 4 1 3)) ∧
    (∀ p rising, s.power ≤ 1 → s.wakeUndefined 3 1 3 = false →
      exec (.extTrigEdge p rising) s =
        .next (((s.putBit Reg.TRG_EXT_LEVEL p.val rising).externalEdge p.val rising).wakeBy 3 4 1 3))

/-- Register access (R505-R513): a full-width write, by any served requester, to an entry of class RW or WO
outside the protection set-up and without a rule of its own stores its fields as R512 and R513 say, and
reaches nothing else of the dictionary. -/
def Obligations.RegisterWriteStores : Prop :=
  ∀ (s : State) (who : Fin 8) (uid : BitVec 56) (k : Nat) (data : List (BitVec 8)) (env : WriteEnv)
    (r : EntryRow),
    let v := BitVec.ofNat 64 (ofLe data)
    k < 2 ^ 24 → data.length = r.ty.width → s.serves' who = true → who ≠ 7 →
    s.fresh'.plainWrite who uid.toNat k v env r →
    ∃ t, exec (.registerWrite who uid (BitVec.ofNat 27 (8 * k)) data env) s = .next t ∧
      t.rd k = s.mixed k v r ∧ (∀ j, j ≠ k → t.rd j = s.rd j) ∧
      (∀ a, t.rdByte a = s.rdByte a) ∧ t.time = s.time ∧ t.out = s.out

/-- Register access (R505-R508): a transaction of several slots goes through them in ascending address order,
as one-slot writes would. -/
def Obligations.RegisterWriteAscends : Prop :=
  ∀ (s : State) (who : Fin 8) (uid n k : Nat) (env : WriteEnv) (a b : List (BitVec 8)),
    a.length = 8 → b.length < n →
    (∀ t, s.writeSlot who uid k 0 8 (BitVec.ofNat 64 (ofLe a)) env = .next t →
      State.writeBytes who uid env (n + 1) k 0 (a ++ b) s = State.writeBytes who uid env n (k + 1) 0 b t)

/-- Access flags (R505, R514, R545): a narrow access, a write to a read-only entry, a denied one and one to a
slot that holds no entry store nothing in the slot and set their flag, and no other flag, of the requester
alone; setting a flag writes no other slot. -/
def Obligations.RefusedWritesFlag : Prop :=
  ∀ (s : State) (who : Fin 8) (uid k lo hi : Nat) (v : BitVec 64) (env : WriteEnv), s.servedNow k = true →
    (s.mayReach who uid (slotIndex k) true = false →
      s.writeSlot who uid k lo hi v env = .next (s.flag who k .denied)) ∧
    (s.mayReach who uid (slotIndex k) true = true → findRow k = none →
      s.writeSlot who uid k lo hi v env = .next (s.flag who k .noEntry)) ∧
    (∀ r, s.mayReach who uid (slotIndex k) true = true → findRow k = some r → lo < r.ty.width →
      (0 < lo ∨ hi < r.ty.width) → s.writeSlot who uid k lo hi v env = .next (s.flag who k .narrow)) ∧
    (∀ r, s.mayReach who uid (slotIndex k) true = true → findRow k = some r → lo = 0 → r.ty.width ≤ hi →
      0 < r.ty.width → r.acc = .ro → inProtection k = false →
      s.writeSlot who uid k lo hi v env = .next (s.flag who k .ignored)) ∧
    (∀ (f : AccFlag) (j : Nat), j ≠ Reg.MGT_ACC_STS who → j ≠ Reg.MGT_ACC_LAST who →
      j ≠ Reg.MGT_ACC_LAST_TS who → (s.flag who k f).rd j = s.rd j ∧
      (s.flag who k f).bit (Reg.MGT_ACC_STS who) f.bit = true)

/-- RAP (R520-R524): a request of an open session that comes in its turn is executed: the session expects the
next SEQ and holds the reply, which is sent: data and status of a read, the status of a write of an entry
without a rule of its own, a block write's bitmap, a subscription's events. A client's acknowledgement ends the
NOTIFY that it names. -/
def Obligations.RapRequestsComplete : Prop :=
  ∀ (s : State) (peer : Peer) (m : RapMsg) (x : Session), s.rapReached peer → m.whole = true →
    s.session peer m.session = some x →
    let u := s.rapMet peer m
    let a := m.addr % 2 ^ 24
    let done (c : Instr) (op status : Nat) (data : List (BitVec 8)) (subs : Nat) : Prop :=
      ∃ t y r, exec c s = .next t ∧ t.session peer m.session = some y ∧ y.expected = (m.seq + 1) % 2 ^ 32 ∧
        y.subs = subs ∧ y.cache.head? = some r ∧ r.op = op ∧ r.seq = m.seq ∧ r.status = status ∧
        r.data = data ∧ ∀ mac ip port, peer = .eth mac ip port → OutMsg.rap peer r ∈ t.out
    (x.ahead = [] → x.expected = m.seq → m.seq < 2 ^ 32 →
      (m.fits 1 = true → let d := u.readSlot peer.who peer.uid a
        done (.rapRead peer m) 1 (statusOf d.1.mgt.flagged) (leBytes 8 d.2.toNat) x.subs) ∧
      (m.fits 3 = true → let d := State.readBlock peer.who peer.uid a m.count 0 u
        done (.rapReadBlock peer m) 3 d.status d.data x.subs) ∧
      (∀ env r, m.fits 2 = true → let v := BitVec.ofNat 64 (ofLe (m.data.take 8))
        u.plainWrite peer.who peer.uid a v env r →
        done (.rapWrite peer m env) 2 0 [] x.subs ∧
          ∃ d, u.writeSlot peer.who peer.uid a 0 8 v env = .next d ∧ d.rd a = u.mixed a v r) ∧
      (∀ envs, m.fits 4 = true →
        (∀ i < m.count, ∀ (w : State) (who : Fin 8) (env : WriteEnv) (v : BitVec 64),
          w.writeRule who env (blockSlot a i) v = none ∧ w.writeUndefined (blockSlot a i) v = none) →
        ∃ d, State.writeBlock peer.who peer.uid a 0 (dataWords m.count m.data) envs u = .next d ∧
          done (.rapWriteBlock peer m envs) 4 d.2.1 (leBytes 16 (bitsNat d.2.2)) x.subs) ∧
      (m.fits 5 = true → done (.rapSubscribe peer m) 5 0 [] (x.subscribe (ofLe m.data)).subs)) ∧
    (∃ t y, exec (.notifyAck peer m) s = .next t ∧ t.session peer m.session = some y ∧
      y.outstanding = (x.outstanding.filter fun o => !(o.seq == m.seq)) ∧ y.lastAt = s.clk.up ∧
      y.expected = x.expected ∧ t.mem = s.mem)

/-- RAP notifications and the management Ethernet port (R524, R525): the commands complete. -/
def Obligations.EthernetCompletes : Prop :=
  ∀ s : State,
    (∀ (n : Fin 32) (x : Session), s.mgt.sessions[n.val]? = some x → x.buf ≠ [] → x.outstanding.length < 8 →
      s.notifyOpen x.peer = true →
      let o : NotifyOut := { seq := x.nseq, recs := x.buf.take 32, sentAt := s.clk.up }
      let t := s.onSession x.peer x.id fun y =>
        { y with buf := y.buf.drop 32, nseq := (y.nseq + 1) % 2 ^ 32, outstanding := y.outstanding ++ [o] }
      exec (.notifySend n) s = .next (t.rapSend x.peer (t.notifyMsg x o.seq o.recs) false)) ∧
    (∀ (n : Fin 32) (seq : BitVec 32) (x : Session) (o : NotifyOut), s.mgt.sessions[n.val]? = some x →
      (x.outstanding.find? fun o => o.seq == seq.toNat) = some o → s.elapsed o.sentAt (msec 1) = true →
      s.notifyOpen x.peer = true →
      ∃ t, exec (.notifyResend n seq) s = .next t ∧
        t.rd Reg.MGT_NOTIFY_RESENT = BitVec.ofNat 64 (satAdd 32 (s.rdN Reg.MGT_NOTIFY_RESENT) 1)) ∧
    (∀ mac ip target, s.ethActs = true → target.toNat = s.ethIp →
      exec (.arpRequest mac ip target) s = .next (s.ethTaken.ethSend
        (.arpReply mac.toNat ip.toNat (s.rdN Reg.MGT_ETH_MAC) s.ethIp))) ∧
    (∀ mac ip data, s.ethActs = true → s.bit Reg.MGT_ETH_CTL 1 = true →
      exec (.icmpEchoRequest mac ip data) s =
        .next (s.ethTaken.ethSend (.icmpReply mac.toNat ip.toNat (s.rdN Reg.MGT_ETH_MAC) s.ethIp data))) ∧
    (s.ethRuns = true → s.power ≤ 4 → exec (.ethFrameDiscard true) s = .next s.ethTaken.ethDrop ∧
      exec (.ethFrameDiscard false) s = .next s.ethDrop) ∧
    (s.bit Reg.MGT_ETH_STS 0 = true →
      ∃ t, exec (.mgtEthLink false) s = .next t ∧ t.bit Reg.MGT_ETH_STS 0 = false) ∧
    (s.bit Reg.MGT_ETH_STS 0 = false → s.ethRuns = true →
      ∃ t, exec (.mgtEthLink true) s = .next t ∧ t.bit Reg.MGT_ETH_STS 0 = true)

/-- Lane groups (R39-R65): the commands of the link state machine complete. -/
def Obligations.LanesComplete : Prop :=
  ∀ (s : State) (g : Fin 4),
    (s.pairedOff g.val = false → s.groupUndefined g.val = 0 →
      exec (.lnkGroupEnable g) s = .next (s.groupEnable g.val)) ∧
    (exec (.lnkGroupDisable g) s = .next (s.groupDisable g.val)) ∧
    (s.laneState g.val = 2 → s.laneTimeout g.val (usec 20) = true →
      exec (.powerDone g) s = .next ((s.laneCdr g.val).partnerRestart g.val)) ∧
    (∀ lanes, s.laneState g.val = 3 →
      let u := s.lanesLock g.val lanes.toNat
      exec (.cdrLock ⟨g, lanes⟩) s = .next (if u.allLanes g.val 0 then u.enterLane g.val 4 else u)) ∧
    (s.laneState g.val = 3 → s.laneExpired g.val (usec 100) = true →
      exec (.cdrTimeout g) s = .next (s.laneFault g.val (if s.freqBad g.val then 9 else 1))) ∧
    (∀ boost dfe, 4 ≤ s.laneState g.val → s.laneState g.val ≤ 7 →
      let u := (s.lanesUsed g.val).zipIdx.foldl (fun s e =>
        s.adaptLane e.1 (boost.getD e.2 none) (dfe.getD e.2 [])) s
      exec (.adaptDone g boost dfe) s =
        .next (if s.laneState g.val = 4 ∧ u.allLanes g.val 1 = true then u.adaptLeaves g.val else u)) ∧
    (s.laneState g.val = 4 → s.laneExpired g.val (msec 5) = true →
      exec (.adaptTimeout g) s = .next (s.laneFault g.val 2)) ∧
    (5 ≤ s.laneState g.val → s.laneState g.val ≤ 7 →
      exec (.adaptRestart g) s = .next ((s.lanesUsed g.val).foldl (fun s j =>
        if s.loops j then s else s.putBit (Reg.LNK_LANE_STS j) 1 false) s)) ∧
    (∀ x : SyncFind, s.laneState g.val = 5 →
      let u := s.lanesUp g.val x.sync.toNat x.emb.toNat
      let all := u.allLanes g.val 2 && u.allLanes g.val 3
      (all = false → exec (.embLock g x) s = .next u) ∧
      (all = true → u.laneMode g.val ≠ 1 → exec (.embLock g x) s =
        .next ((u.setLane g.val { u.lane g.val with part := [] }).enterLane g.val 6)) ∧
      (all = true → u.laneMode g.val = 1 → s.bit (Reg.LNK_GRP_CTL g) 6 = false →
        ∃ t, exec (.embLock g x) s = .next t ∧ t.laneState g.val = 6)) ∧
    (s.laneState g.val = 5 → s.laneExpired g.val (msec 1) = true →
      exec (.syncTimeout g) s = .next (s.laneFault g.val 3)) ∧
    (s.laneState g.val = 6 → s.laneMode g.val ≠ 2 → s.laneExpired g.val (msec 100) = true →
      exec (.sysrefMissing g) s = .next (s.laneFault g.val 4)) ∧
    (((s.partners g.val).all fun h => s.laneState h == 9 && s.laneTimeout h (msec 1)) = true →
      s.bit (Reg.LNK_GRP_CTL (s.leader g.val)) 5 = true →
      exec (.faultRelink g) s = .next ((s.partners g.val).foldl State.laneCdr s)) ∧
    (∀ (lost : BitVec 12) (what : Fin 3), s.lostLanes g.val lost.toNat ≠ [] →
      (s.laneMode g.val = 2 → what.val = 2 ∧ 4 ≤ s.laneState g.val ∧ s.laneState g.val ≤ 8) →
      (s.laneMode g.val ≠ 2 → 5 ≤ s.laneState g.val ∧ s.laneState g.val ≤ 7) →
      exec (.linkLost ⟨g, lost, what⟩) s =
        .next (((s.lostLanes g.val lost.toNat).foldl (State.loseLane g.val what.val) s).laneFault g.val
          (if s.pllLocked 0 then 7 else 11)))

/-- Lane groups (R39, R40, R43, R49-R56): arrivals, releases and scans complete. -/
def Obligations.LaneArrivalsComplete : Prop :=
  ∀ s : State,
    (∀ (j : Fin 64) (on : Bool), j.val < 48 → exec (.freqOfsFault ⟨j, on⟩) s = .next (s.laneOffset j.val on)) ∧
    (∀ (j : Fin 48) (on : Bool), (s.lanesUsed (j.val / 12)).contains j.val = true → s.loops j.val = false →
      s.laneState (j.val / 12) = 3 → (s.laneOffset j.val on).bit (Reg.LNK_LANE_STS j) 10 = on ∧
        (on = true → (s.laneOffset j.val on).bit (Reg.LNK_LANE_STS j) 0 = false)) ∧
    (∀ (j : Fin 64) (on : Bool), let l := j.val - 48
      48 ≤ j.val → s.fpState (l / 2) = 1 → ∃ t, exec (.freqOfsFault ⟨j, on⟩) s = .next t ∧
        t.bit (Reg.FAB_LANE_STS l) 10 = on ∧ (on = true → t.bit (Reg.FAB_LANE_STS l) 0 = false)) ∧
    (s.pllLocked 0 = true → exec .sysrefEdge s =
      .next ((List.range 4).foldl (State.sysrefGroup s.sysNow) s)) ∧
    (∀ (g : Fin 4) (here there : List (Option Int)) (c : Nat), (s.lane g.val).capture = some c →
      s.partners g.val = [g.val] → s.pairedOff g.val = false → s.pairedOn g.val = false →
      s.laneState g.val = 6 → atOrAfter s.time (s.releasePoint g.val c) = true →
      let b := s.boundary g.val c
      let xs := s.laneArrivals g.val b here
      let t := s.arrivals g.val xs
      let u := (t.releaseGroup g.val c).cndRelease g.val
      t.pairedOn g.val = false → t.arrived g.val (timeDiff (s.releasePoint g.val c) b / 4096) xs = true →
      (t.bit (Reg.CND_STS g) 0 = false ∨ t.rateUndefined g.val = false) → u.pairedOn g.val = false →
      exec (.lnkRelease g here there) s = .next u) ∧
    (∀ g : Fin 4, s.laneMode g.val = 2 → s.laneState g.val = 6 → s.pairedOff g.val = false →
      exec (.rawGo g) s = .next ((s.partners g.val).foldl (fun u h =>
        u.setLane h { u.lane h with capture := some (s.edgeFrom ((s.time + 1) % timeMod)) }) s)) ∧
    (∀ (g : Fin 4) (words : List (BitVec 64)), (s.lanesUsed g.val).Nodup → ∃ t, exec (.rawSnap g words) s = .next t ∧
      ∀ l, l < s.laneCount g.val → ∃ free : BitVec 64, t.rd (Reg.LNK_RAW_WORD (s.jLane g.val l)) =
        BitVec.ofNat 64 ((s.slipped g.val l 0 (s.lane g.val).raw).getD (words[l]?.getD free).toNat)) ∧
    (∀ (g : Fin 4) (octets : List (List (BitVec 8))) (code : List Nat) (crc : BitVec 12) (first : Bool),
      let ok (u : State) (f : Nat → Bool) : Bool :=
        !(List.range (u.laneCount g.val)).any fun l => !u.loops (u.jLane g.val l) && f l
      let u := s.countLanes g.val (fun l => code.getD l 0) Reg.LNK_ERR_CODE
      (s.laneMode g.val = 2 → 4 ≤ s.laneState g.val → s.laneState g.val ≤ 8 →
        exec (.multiblock g ⟨octets, first⟩ code crc) s =
          .next ((s.rawCycle g.val octets).1.lanePush g.val false (s.rawCycle g.val octets).2)) ∧
      (s.laneMode g.val ≠ 2 → 5 ≤ s.laneState g.val → s.laneState g.val ≤ 7 → u.laneMode g.val = 0 →
        let v := u.countLanes g.val (fun l => b2n (crc.toNat.testBit l)) Reg.LNK_ERR_CRC
        let r := v.jesdSamples g.val ⟨octets, first⟩ (ok s fun l => crc.toNat.testBit l)
        exec (.multiblock g ⟨octets, first⟩ code crc) s = .next (r.1.lanePush g.val first r.2)) ∧
      (s.laneMode g.val ≠ 2 → 5 ≤ s.laneState g.val → s.laneState g.val ≤ 7 → u.laneMode g.val ≠ 0 →
        let r := (u.codeGroupLock g.val fun l => code.getD l 0 == 0).jesdSamples g.val ⟨octets, first⟩
          (ok s fun l => code.getD l 0 != 0)
        exec (.multiblock g ⟨octets, first⟩ code crc) s = .next (r.1.lanePush g.val first r.2))) ∧
    (∀ (j : Fin 64) (on : Bool) (errors : Nat),
      let sts := if j.val < 48 then Reg.LNK_LANE_STS j else Reg.FAB_LANE_STS (j.val - 48)
      let cnt := if j.val < 48 then Reg.LNK_ERR_PRBS j else Reg.FAB_ERR_PRBS (j.val - 48)
      let ctl := if j.val < 48 then Reg.LNK_LANE_CTL j else Reg.FAB_LANE_CTL (j.val - 48)
      s.fld ctl 6 4 ≠ 0 → ∃ t, exec (.prbsLock j on errors) s = .next t ∧ t.bit sts 4 = on ∧
        (s.bit sts 4 = true → t.rd cnt = BitVec.ofNat 64 ((s.rdN cnt + errors) % 2 ^ 64))) ∧
    (∀ j : Fin 64, ∃ t, exec (.eyeScanStart j) s = .next t ∧ t.rd (eyeResult j.val) = 0 ∧
      (j.val, t.fld (eyeCtl j.val) 15 13) ∈ t.eyes) ∧
    (∀ (j : Fin 64) (bad : BitVec 32) (dwell : Nat), (s.eyes.find? fun e => e.1 == j.val) = some (j.val, dwell) →
      ∃ t, exec (.eyeDone j bad) s = .next t ∧
        t.rd (eyeResult j.val) = BitVec.ofNat 64 (bad.toNat + 2 ^ (10 + 2 * dwell) * 2 ^ 32 + 2 ^ 63))

/-- Digitiser sideband (R61, R64, R65): transfers, presence and identity complete. -/
def Obligations.SidebandCompletes : Prop :=
  ∀ (s : State) (g : Fin 4),
    (s.bit (Reg.LNK_SPI_STS g) 0 = false → 5 ≤ s.fld (Reg.LNK_SPI_CFG g) 7 0 → s.fld (Reg.LNK_SPI_CFG g) 7 0 ≤ 250 →
      ∃ t, exec (.spiGo g) s = .next t ∧ t.rd (Reg.LNK_SPI_STS g) = 1 ∧ t.out.length = s.out.length + 1) ∧
    (∀ data, s.bit (Reg.LNK_SPI_STS g) 0 = true →
      ∃ t, exec (.spiDone g data) s = .next t ∧ t.rd (Reg.LNK_SPI_STS g) = 2) ∧
    (s.bit (Reg.LNK_I2C_STS g) 0 = false →
      ∃ t, exec (.i2cGo g) s = .next t ∧ t.rd (Reg.LNK_I2C_STS g) = 1 ∧ t.out.length = s.out.length + 1) ∧
    (∀ nack data, s.bit (Reg.LNK_I2C_STS g) 0 = true →
      ∃ t, exec (.i2cDone g nack data) s = .next t ∧
        t.rd (Reg.LNK_I2C_STS g) = BitVec.ofNat 64 (2 + b2n nack * 4)) ∧
    (∀ low, ∃ t, exec (.prsntEdge g low) s = .next t ∧ (t.lane g.val).prsntLow = low ∧
      (t.lane g.val).prsntSince = s.clk.up ∧ t.regs = s.regs ∧ t.mem = s.mem) ∧
    (∀ spi i2c, (s.lane g.val).prsntLow = true → s.bit (Reg.LNK_GRP_STATE g) 20 = false →
      s.elapsed (s.lane g.val).prsntSince (msec 20) = true → s.wakeUndefined 4 1 3 = false →
      exec (.presentChange ⟨g, spi, i2c⟩) s = .next ((s.arrives g.val).wakeBy 4 5 1 3)) ∧
    (∀ spi i2c, (s.lane g.val).prsntLow = false → s.bit (Reg.LNK_GRP_STATE g) 20 = true →
      s.elapsed (s.lane g.val).prsntSince (usec 100) = true → s.wakeUndefined 4 1 3 = false →
      exec (.presentChange ⟨g, spi, i2c⟩) s = .next ((s.departs g.val spi i2c).wakeBy 4 5 1 3)) ∧
    (∀ image, (s.lane g.val).idBusy = true →
      ∃ t, exec (.idReady g image) s = .next t ∧
        t.bit (Reg.LNK_GRP_STATE g) 22 = (image.length == 256 && idOk image))

/-- Conditioning (R76, R80, R95-R99): the chains' commands complete. -/
def Obligations.ConditioningCompletes : Prop :=
  ∀ (s : State) (c : Fin 4),
    (s.groupRun c.val = true → s.pairedOff c.val = false → s.pairedOn c.val = true →
      s.wordReady c.val = true → s.wordReady (c.val + 1) = true →
      exec (.laneWord c) s = .next (s.pairedWord c.val)) ∧
    (s.groupRun c.val = true → s.pairedOff c.val = false → s.pairedOn c.val = false →
      s.wordReady c.val = true → exec (.laneWord c) s = .next (s.laneWord c.val)) ∧
    (s.groupRun c.val = false → s.pairedOff c.val = false → s.lostFeed c.val = true →
      exec (.laneWord c) s = .next (if s.pairedOn c.val then s.pairedWord c.val else s.laneWord c.val)) ∧
    (∀ w rest, (s.cndCh c.val).words = w :: rest →
      let x := s.cndCh c.val
      let t := (s.setCnd c.val { x with words := rest, oldWords := x.oldWords - 1 }).wordLeaves c.val
        (decide (0 < x.oldWords)) w
      s.spxUndefined t c.val = false → s.traceUndefined c.val 0 = false → s.traceUndefined c.val 1 = false →
      exec (.conditioningOutput c) s = .next t) ∧
    (s.parityStopped (Reg.CND_CTL c) = false →
      (s.bit (Reg.CND_CTL c) 0 = true ∨ s.pairedOff c.val = true ∨ s.chainUndefined c.val = false) →
      exec (.cndEnable c) s = .next (s.cndEnable c.val)) ∧
    (exec (.cndDisable c) s = .next ((s.parityFree (Reg.CND_CTL c)).cndDisable c.val)) ∧
    (exec (.cndCommit c) s = .next (s.cndCommit c.val)) ∧
    (exec (.cndCommitTimed c) s = .next (s.cndCommitTimed c.val)) ∧
    (∀ at', s.bit (Reg.CND_STS c) 0 = true → s.cndFed c.val = false → (s.cndCh c.val).timed = some at' →
      atOrAfter s.frontNow at' = true →
      exec (.cndCommitAtReached c) s = .next (s.cndHandover c.val (s.stampAt s.frontNow true))) ∧
    (exec (.cndCommitAtReached c) s = .next (s.cndIdlePass c.val)) ∧
    (∀ b, (s.cndCh c.val).ilDone = some b →
      ∃ t, exec (.ilEstimate c) s = .next t ∧ (t.cndCh c.val).ilDone = none ∧
        t.rdN (Reg.CND_IL_EST_BLOCKS c) = (s.rdN (Reg.CND_IL_EST_BLOCKS c) + 1) % 2 ^ 32 ∧
        t.rdI (Reg.CND_IL_EST_OFS c) 24 = sat24 (rneDiv (b.sumO - b.sumE) b.n))

/-- Spectral engine (R109-R111, R120, R130): the resolutions' commands complete. -/
def Obligations.SpectralCompletes : Prop :=
  ∀ (s : State) (r : Fin 8),
    (∀ f rest, (s.res r.val).ready = f :: rest → s.power = 0 → s.canUndefined (r.val / 2) (r.val % 2) f = false →
      s.traceUndefined (r.val / 2) (r.val % 2) = false →
      exec (.spectrumEmit r) s =
        .next (State.passSkips r.val rest.length ((s.setRes r.val { s.res r.val with ready := rest }).emitFrame
          r.val f))) ∧
    (s.parityStopped (Reg.SPX_RES_CTL r) = false → exec (.spxEnable r) s = .next (s.spxEnable r.val)) ∧
    (exec (.spxDisable r) s = .next ((s.parityFree (Reg.SPX_RES_CTL r)).spxDisable r.val)) ∧
    (s.resDraining r.val = true → (s.res r.val).ready = [] →
      exec (.spxDrainEnd r) s = .next (s.spxDrained r.val)) ∧
    (exec (.spxCommit r) s = .next (s.spxCommit r.val)) ∧
    (exec (.spxCommitTimed r) s = .next (s.spxCommitTimed r.val))

/-- Trigger units and outputs (R142, R146, R153, R161-R167): the commands complete. -/
def Obligations.TriggersComplete : Prop :=
  ∀ s : State,
    (∀ c : Fin 4, exec (.triggerIssue c) s = .next (s.trigIssue c.val)) ∧
    (∀ n : Fin 4, ∃ t, exec (.trigOutPulseEnd n) s = .next t ∧
      t.pulse n.val = ((s.pulse n.val).filter fun p => later p.2 s.time) ∧ t.regs = s.regs ∧ t.mem = s.mem) ∧
    (∀ n : Fin 4, 4 ≤ s.fld (Reg.TRG_OUT_CFG n) 27 12 →
      exec (.trigOutForce n) s = .next (s.startPulse n.val (s.edgeFrom s.time))) ∧
    (∀ (c : Fin 4) (u : Fin 8), exec (.timuWindowExpiry c u) s = .next (s.timuExpiry c.val u.val)) ∧
    (∀ (p : Fin 8) (k : FabPkt) (sub : Fin 4096), s.fpUp p.val = true →
      let t := s.ridgeArrive p.val (s.tickPlace sub.val) k
      (k.ridgeKind = some 0 → exec (.rlFire p ⟨k, sub⟩) s = .next t) ∧
      (k.ridgeKind = some 1 → exec (.rlProvisional p ⟨k, sub⟩) s = .next t) ∧
      (k.ridgeKind = some 2 → exec (.rlConfirm p ⟨k, sub⟩) s = .next t) ∧
      (k.ridgeKind = some 3 → exec (.rlCancel p ⟨k, sub⟩) s = .next t)) ∧
    (exec .provisionalExpiry s = .next s.provExpire) ∧
    (∀ (c : Fin 4) (u : Fin 8), s.parityStopped (Reg.TRG_UNIT_CTL c u) = false →
      s.bit (Reg.TRG_UNIT_CTL c u) 0 = false → s.unitBad c.val u.val (s.unitShadow c.val u.val).1 = none →
      s.pendingBad c.val u.val = none →
      exec (.trgUnitEnable c u) s = .next (s.startUnit c.val u.val)) ∧
    (∀ (c : Fin 4) (u : Fin 8), ∃ t, exec (.trgUnitDisable c u) s = .next t ∧
      t.bit (Reg.TRG_UNIT_CTL c u) 0 = false ∧ t.trig = s.trig) ∧
    (∀ (c : Fin 4) (u : Fin 8) (on : Bool),
      exec (.trgArm c u on) s = .next (s.armUnit c.val u.val on s.time true)) ∧
    (∀ c : Fin 4, s.shadowsBad c.val = none → exec (.trgCommit c) s = .next (s.trgRequest c.val s.time false)) ∧
    (∀ c : Fin 4, s.shadowsBad c.val = none → exec (.trgCommitTimed c) s =
      .next (s.trgRequest c.val (s.rdN (Reg.TRG_COMMIT_AT c) % timeMod) true)) ∧
    (∀ (c : Fin 4) (th : Nat), (s.tch c.val).handAt = some th → atOrAfter s.time th = true →
      exec (.trgHandover c) s = .next (s.trgHandover c.val th))

/-- Sequencers (R178-R198): every NAC code's command ends the microword in progress when that word bears the code
and its stack operation has an outcome, and begins the next; the controls complete. -/
def Obligations.SequencersComplete : Prop :=
  ∀ (s : State) (q : Fin 5),
    (∀ (b : SeqBegun) (p : Bool), s.seqRunning q.val = true → s.seqClocked = true →
      (s.seq q.val).begun = some b →
      let runs (c : Instr) (nac : Nat) : Prop := uNac b.w = nac → stackBad nac (s.seq q.val).stack = false →
        exec c s = .next (s.runWord q.val b p)
      runs (.seqCont q p) 0 ∧ runs (.seqJump q p) 1 ∧ runs (.seqMap q p) 2 ∧
      runs (.seqJnz q p) 3 ∧ runs (.seqJz q p) 4 ∧ runs (.seqWait q p) 5 ∧
      runs (.seqWaitmap q p) 6 ∧ runs (.seqCall q p) 7 ∧ runs (.seqCallmap q p) 8 ∧
      runs (.seqRet q p) 9 ∧ runs (.seqReti q p) 10 ∧ runs (.seqRestart q p) 11 ∧
      runs (.seqHalt q p) 12) ∧
    (∀ t : Fin 2, s.seqRunning q.val = true → s.seqClocked = true →
      ∃ u, exec (.seqTimerExpiry q t) s = .next u ∧
        (if t.val = 0 then (u.seq q.val).timer0 = (s.seq q.val).timer0.runOut (s.wordClocks q.val)
         else (u.seq q.val).timer1 = (s.seq q.val).timer1.runOut (s.wordClocks q.val))) ∧
    (s.seqRunning q.val = false → s.bit (Reg.SEQ_CTL q) 0 = false → s.scalesOk q.val = true →
      let u := ((s.putBit (Reg.SEQ_CTL q) 0 true).setFld (Reg.SEQ_STS q) 3 1 0).seqStart q.val
      (u.seqClocked = false → ∀ p, exec (.seqEnable ⟨q, p⟩) s = .next u) ∧
      (u.seqClocked = true → exec (.seqEnable ⟨q, false⟩) s = .next (u.seqBegin q.val (u.edgeFrom u.time)) ∧
        exec (.seqEnable ⟨q, true⟩) s = .next (u.seqHalt q.val 4 (u.edgeFrom u.time)))) ∧
    (s.seqRunning q.val = true →
      ∃ t, exec (.seqDisable q) s = .next t ∧ t.bit (Reg.SEQ_CTL q) 0 = false ∧ (t.seq q.val).stopPosted = true) ∧
    (s.seqRunning q.val = true →
      ∃ t, exec (.forceHalt q) s = .next t ∧ (t.seq q.val).haltPosted = true ∧ t.regs = s.regs) ∧
    (s.seqRunning q.val = true → exec (.seqCommit q) s = .next (s.putBit (Reg.SEQ_STS q) 8 true)) ∧
    (s.seqRunning q.val = false → exec (.seqCommit q) s = .next (s.seqHandover q.val s.time)) ∧
    (exec (.faultPost q) s = .next (s.postFault 3 q.val)) ∧
    (∀ mask : Fin 16, ∃ t, exec (.seqReq q mask) s = .next t ∧
      t.fld (Reg.SEQ_REQ q) 3 0 = s.fld (Reg.SEQ_REQ q) 3 0 ||| mask.val)

/-- Canopy and spectrogram (R235-R248): the commands complete. -/
def Obligations.CanopyCompletes : Prop :=
  ∀ (s : State) (c : Fin 4),
    (s.parityStopped (Reg.CAN_CTL c) = false → s.decaySrc c.val ≠ 3 →
      (s.decaySrc c.val = 2 → 200 ≤ s.rdN (Reg.CAN_DECAY_PERIOD c) ∧ s.rdN (Reg.CAN_DECAY_PERIOD c) ≤ 1000000) →
      exec (.canEnable c) s = .next (s.canEnable c.val)) ∧
    (∃ t, exec (.canClear c) s = .next t ∧ (t.can c.val).clear = true ∧ t.regs = s.regs ∧ t.mem = s.mem) ∧
    (∀ on, exec (.canHold c on) s = .next (s.canHold c.val on)) ∧
    (exec (.canCommit c) s = .next (s.putBit (Reg.CAN_STS c) 1 true)) ∧
    (∀ who, s.bit (Reg.CAN_STS c) 2 = true ∨ s.snapUndefined c.val = false →
      exec (.canSnap who c) s = .next (s.canSnap who.val c.val)) ∧
    (∀ p, (s.can c.val).snap = some p → p.begun = true → s.serves p.addr = true → s.idleOrLower = false →
      let u := s.wrBytes p.addr (s.snapBytes c.val p)
      exec (.canSnapDone c) s = .next (((((u.setCan c.val { u.can c.val with snap := none }).putBit
        (Reg.CAN_STS c) 2 false).raise (360 + c.val))).maintain c.val)) ∧
    (s.decaySrc c.val = 2 → s.bit (Reg.CAN_CTL c) 0 = true → s.pairedOff c.val = false →
      s.elapsed (s.can c.val).since (usec (s.rdN (Reg.CAN_DECAY_PERIOD c))) = true →
      exec (.decayTimer c) s = .next ((s.setCan c.val { s.can c.val with
        since := (s.can c.val).since + usec (s.rdN (Reg.CAN_DECAY_PERIOD c)) }).decayEvent c.val)) ∧
    (s.idleOrLower = false → exec (.decayPassEnd c) s = .next (s.decayEnd c.val)) ∧
    (s.parityStopped (Reg.SPG_CTL c) = false →
      (s.bit (Reg.SPG_CTL c) 0 = true ∨ s.pairedOff c.val = true ∨ s.spgUndefined c.val = false) →
      exec (.spgEnable c) s = .next (s.spgEnable c.val)) ∧
    (∀ l ts trunc rest, (s.spgCh c.val).lines = (l, ts, trunc) :: rest →
      s.serves (s.fld (Reg.SPG_RING c) 47 6 * 64) = true →
      exec (.spgLineWrite c false) s =
        .next ((s.setSpg c.val { s.spgCh c.val with lines := rest }).spgWrite c.val l ts trunc)) ∧
    (∀ l ts trunc rest, (s.spgCh c.val).lines = (l, ts, trunc) :: rest →
      exec (.spgLineWrite c true) s =
        .next ((s.setSpg c.val { s.spgCh c.val with lines := rest }).spgDiscard c.val ts))

/-- Scan-out (R254-R271): the display's commands complete. -/
def Obligations.DisplayCompletes : Prop :=
  ∀ s : State,
    (s.parityStopped Reg.SCN_CTL = false →
      s.bit Reg.SCN_STS 0 = true ∨ (s.scnUndefined = false ∧ s.planesBad s.scn.act = 0) →
      exec .scnEnable s = .next s.scnEnable) ∧
    (exec .scnDisable s = .next (s.parityFree Reg.SCN_CTL).scnDisable) ∧
    (∀ psr msa fast : Bool, s.scn.training = true →
      (s.bit Reg.SCN_STS 0 = true ∨ ((s.bit Reg.SCN_CFG 7 = false ∨ msa = true) ∧
        (s.bit Reg.SCN_CFG 8 = false ∨ psr = true))) →
      ∃ t, exec (.edpLinkTrained ⟨true, fast⟩ psr msa) s = .next t ∧ t.bit Reg.SCN_STS 0 = true ∧
        t.scn.link = true ∧ t.scn.training = false) ∧
    (∃ t, exec .scnCommit s = .next t ∧ t.bit Reg.SCN_STS 1 = true ∧ t.scn.commit = true) ∧
    (exec .psrEnter s = .next s.psrEnter) ∧
    (exec .psrExit s = .next s.psrExit) ∧
    (∀ mask : BitVec 8, exec (.traceReset mask) s =
      .next (s.setScn { s.scn with reset := s.scn.reset ||| mask.toNat })) ∧
    (∀ (n : Fin 4096) (late : List (Nat × Nat)), s.scnClocked = true → s.scn.blank = false → n.val = s.scn.nextLine →
      n.val < s.scnActive → s.scn.sending = true →
      ∃ t px, exec (.lineStart n late) s = .next t ∧
        OutMsg.line (t.rdN Reg.SCN_FRAME) n.val px ∈ t.out ∧
        px.length = (timing (t.rd Reg.SCN_H_TIMING)).1 ∧ t.scn.nextLine = n.val + 1) ∧
    (s.scnClocked = true → s.scn.blank = false → s.scnActive ≤ s.scn.nextLine → s.planesUndefined = 0 →
      exec .samplingPoint s = .next s.sample) ∧
    (s.scnClocked = true → s.scn.extended = true → s.planesUndefined = 0 →
      ∃ t, exec .extendedLineEnd s = .next t ∧ t.scn.changed = false) ∧
    (∀ late, s.scnClocked = true → s.scn.blank = true → s.scn.extended = false → s.scn.stopping = false →
      s.scn.psrEnter ≠ 1 → (s.scn.psrExit = false ∨ s.planesUndefined = 0) →
      exec (.frameStart late) s = .next (s.frameStart late.toNat)) ∧
    (∀ late, s.scnClocked = true → s.scn.blank = true → s.scn.extended = false → s.scn.stopping = true →
      ∃ t, exec (.frameStart late) s = .next t ∧ t.bit Reg.SCN_STS 0 = false ∧ t.scn.timing = false) ∧
    (exec (.irqHpd false) s = .next ((s.raise 388).send (.edp 3 (s.rdN Reg.SCN_FRAME)))) ∧
    (∃ t, exec .hpdLost s = .next t ∧ t.scn.hpd = false ∧ t.scn.link = false ∧ t.bit Reg.SCN_STS 6 = true) ∧
    (∃ t, exec .hpdReturn s = .next t ∧ t.scn.hpd = true ∧ t.bit Reg.SCN_STS 6 = false) ∧
    (s.bit Reg.SCN_CFG 6 = true → s.bit Reg.SCN_STS 0 = true → s.scn.timing = true →
      exec .vsyncInEdge s = .next (s.genlock s.sysNow)) ∧
    (s.bit Reg.SCN_CFG 6 = true → s.bit Reg.SCN_STS 0 = true → s.scn.timing = false →
      exec .vsyncInEdge s =
        .next ((s.putBit Reg.SCN_STS 5 false).setScn { s.scn with edgeAt := s.clk.up })) ∧
    (s.bit Reg.SCN_CFG 6 = true → s.scn.timing = true → s.bit Reg.SCN_STS 5 = false →
      s.elapsed s.scn.edgeAt (3 * s.lineLen * s.frameLines * 10240000000 / max 1 (s.rdN Reg.SCN_PIXCLK)) = true →
      exec .scnVsyncLost s = .next ((s.putBit Reg.SCN_STS 5 true).raise 387))

/-- Time-interval units (R314-R339): the inputs' and streams' commands complete. -/
def Obligations.TimuCompletes : Prop :=
  ∀ (s : State) (i : Fin 64) (e : Fin 2),
    (∀ (b : Fin 2) (up : Bool) (sub : Fin 4096) (c c1 c2 : Int), s.power ≤ 1 → s.cmpBad i.val = false →
      s.timBad i.val (b2n (!up)) = false → s.bit (Reg.CMP_STS i) (2 * b.val + 1) = false →
      s.bit (Reg.CMP_STS i) (2 * b.val) = !up →
      let t := (s.putBit (Reg.CMP_STS i) (2 * b.val) up).winUpdate i.val
      t.bit (Reg.CMP_STS i) 8 = false → t.fld (Reg.TIM_S_CFG i (b2n (!up))) 0 0 = b.val →
      exec (.tiEdge i b up sub c c1 c2) s =
        .next (t.timEdge i.val (b2n (!up)) (t.tickPlace sub.val) c c1 c2)) ∧
    (∀ p r, (s.tstream i.val e.val).stops = p :: r → s.startsIn i.val e.val p.ts.t = true →
      exec (.intervalPair i e) s = .next ((s.timPair i.val e.val).timDrained i.val)) ∧
    (∀ a r, (s.tstream i.val e.val).starts = a :: r → (s.tstream i.val e.val).stops = [] →
      (s.rdN (Reg.TIM_S_PARAM i e) % 2 ^ 32 * 4096 : Int) <
        timeDiff (s.timSeen i.val s.sysNow) a.t →
      exec (.pairWindowExpiry i e) s = .next ((s.setTstream i.val e.val
        { s.tstream i.val e.val with starts := r }).timUnpaired i.val e.val 1)) ∧
    (∀ g, (s.tstream i.val e.val).gate = some g → g.edge = false →
      (2 ^ 40 : Int) < timeDiff (s.timSeen i.val s.sysNow) g.opened.t →
      exec (.noedge i e) s = .next (((s.setTstream i.val e.val { s.tstream i.val e.val with gate := none }).timNote
        i.val e.val ⟨6, g.opened.word, 0⟩).timAlert i.val 8)) ∧
    ((s.idleOrLower = false ∨ s.timDraining = true) → s.timTurn = some (2 * i.val + e.val) →
      s.timRingOk i.val e.val = true →
      exec (.streamWrite i e) s = .next (({ s with timServed := 2 * i.val + e.val } : State).timMove i.val e.val)) ∧
    ((s.idleOrLower = false ∨ s.timDraining = true) → (s.tstream i.val e.val).batch.isEmpty = false →
      s.elapsed (s.tstream i.val e.val).batchAt (usec 1) = true →
      exec (.queueBatchTimeout i e) s = .next ((s.timSend i.val e.val).timDrained i.val)) ∧
    (s.parityStopped (Reg.TIM_CTL i) = false → s.timOn i.val = false →
      ∃ t, exec (.timEnable i true) s = .next t ∧ t.bit (Reg.TIM_CTL i) 0 = true ∧ t.bit (Reg.TIM_STS i) 0 = true) ∧
    (∀ v : BitVec 64, v.toNat % 16 = 0 → s.rdN (Reg.TIM_S_REL i e) ≤ v.toNat → v.toNat ≤ s.rdN (Reg.TIM_S_PUB i e) →
      exec (.timSRelWrite i e v) s = .next (s.wr (Reg.TIM_S_REL i e) v)) ∧
    (s.inlBad = false →
      exec (.inlStart i) s = .next (s.inlStart i.val)) ∧
    (∀ c c1 c2 : Int, s.bit (Reg.TIM_STS i) 1 = true → s.inlBad = false →
      exec (.injectedEdge i c c1 c2) s = .next (s.inlHit i.val c c1 c2)) ∧
    (∀ v : BitVec 32, ((s.setFld (Reg.CMP_THR i) 13 0 v.toNat).setFld (Reg.CMP_THR i) 29 16
        (v.toNat / 65536)).cmpBad i.val = false →
      ∃ t, exec (.cmpThresholdWrite i false v) s = .next t ∧ t.bit (Reg.CMP_STS i) 8 = true ∧
        (t.tim i.val).settleAt = s.clk.up) ∧
    (∀ a b : Fin 3, s.bit (Reg.CMP_STS i) 8 = true → s.elapsed (s.tim i).settleAt (nsec 50) = true → s.power < 2 →
      exec (.settlingEnd i a b) s = .next ((s.putBit (Reg.CMP_STS i) 8 false).cmpPower i.val a b)) ∧
    (∀ a b : Fin 3, s.bit (Reg.CMP_STS i) 8 = false → (s.tim i).started = false → s.stage ≠ 0 → s.power < 2 →
      exec (.settlingEnd i a b) s = .next (s.cmpPower i.val a b))

/-- The cycle tracker and the waypoint scheduler's controls (R343-R350): the commands complete. -/
def Obligations.TrackerCompletes : Prop :=
  ∀ s : State,
    (s.parityStopped Reg.CCS_CTL = false → s.ccsState = 0 → s.fld Reg.CCS_CFG 9 8 ≠ 3 →
      exec (.ccsEnable true) s = .next ((s.putBit Reg.CCS_CTL 0 true).ccsSeek (if s.pllLocked 0 then 1 else 4))) ∧
    (s.ccLocked = false →
      ∃ t, exec (.ccsEnable false) s = .next t ∧ t.bit Reg.CCS_CTL 0 = false ∧ t.ccsState = 0) ∧
    (s.ccLocked = true → ∃ t, exec .reorigin s = .next t ∧ t.ccsState = 2 ∧ t.ccs.cycles = []) ∧
    (∀ (sub : Fin 4096) (vec0 : Bool), s.pllLocked 0 = true → s.power ≤ 1 →
      let t := timeAdd (s.tickPlace sub.val) (-(s.rdI Reg.CCS_CYC_DLY 24))
      let u : State := { s with ccs := { s.ccs with cameAt := s.clk.up } }
      (s.ccsState = 1 → exec (.cycEdge sub vec0) s = .next (u.seekEdge (t * 65536))) ∧
      (s.ccsState = 2 → exec (.cycEdge sub vec0) s = .next (u.originEdge t (t * 65536) vec0)) ∧
      (s.ccsState = 3 → exec (.cycEdge sub vec0) s = .next (u.trackEdge t (t * 65536) vec0)) ∧
      (s.ccsState = 4 → exec (.cycEdge sub vec0) s = .next (u.holdEdge t (t * 65536) vec0))) ∧
    (s.pllLocked 0 = true → s.power ≤ 1 → s.cycSpan ≤ (s.clk.up - s.ccs.cameAt) * 65536 →
      (s.ccsState = 1 → ∃ t, exec .cycMissing s = .next t ∧ t.ccsState = 1 ∧ t.fld Reg.CCS_STS 5 3 = 1) ∧
      (s.ccsState = 3 → exec .cycMissing s = .next (s.ccsFault 1)) ∧
      (s.ccsState = 4 → exec .cycMissing s = .next s.holdAdvance)) ∧
    (s.ccsState = 4 → s.fld Reg.CCS_HOLD_MAX 23 0 * (s.cycDiv * s.ccs.per) ≤
      (s.clk.up - s.ccs.heldAt) * 65536 → exec .holdExpired s = .next (s.holdAdvance.ccsSeek 3)) ∧
    (∃ t, exec (.wpEnable false) s = .next t ∧ t.bit Reg.CCS_WP_CTL 0 = false ∧ t.bit Reg.CCS_WP_STS 0 = false) ∧
    (s.parityStopped Reg.CCS_WP_CTL = false → ∃ t, exec (.wpEnable true) s = .next t ∧
      t.bit Reg.CCS_WP_CTL 0 = true ∧ t.bit Reg.CCS_WP_STS 0 = true) ∧
    (∀ v : BitVec 32, s.wpPending ≤ (v.toNat + 2 ^ 32 - s.wpHead) % 2 ^ 32 →
      (v.toNat + 2 ^ 32 - s.wpHead) % 2 ^ 32 ≤ 4096 →
      ∃ t, exec (.wpTailWrite v) s = .next t ∧ t.rdN Reg.CCS_WP_TAIL = v.toNat) ∧
    (∃ t, exec .wpCancel s = .next t ∧
      t.rdN Reg.CCS_WP_CANCELLED = satAdd 32 (s.rdN Reg.CCS_WP_CANCELLED) s.wpPending ∧
      t.wpPending = 0)

/-- Supply converters and monitors (R359-R372): the commands complete. -/
def Obligations.SupplyCompletes : Prop :=
  ∀ s : State,
    (∀ u : Fin 20, s.parityStopped (supCtl u.val) = false → s.supState u.val = 0 → s.supUndefined u.val = 0 →
      let t := (s.putBit (supCtl u.val) 0 true).setSupState u.val 1
      let t := t.setSup u.val { (default : SupUnit) with
        timerAt := timeAdd t.time (t.ticks (t.fld (supTimer u.val) 31 0)) }
      exec (.supEnable u true) s =
        .next (if t.supSrc u.val = 3 ∧ t.supRuns = true then t.supContinue u.val t.time else t)) ∧
    (∀ u : Fin 20, exec (.supTrigger u) s = .next (s.supTrigger u.val s.now)) ∧
    (∀ u : Fin 20, s.supRuns = true → s.supState u.val ≠ 0 → s.supSrc u.val = 1 →
      atOrAfter s.time (s.supu u.val).timerAt = true →
      let t := s.setSup u.val { s.supu u.val with
        timerAt := timeAdd (s.supu u.val).timerAt (s.ticks (s.fld (supTimer u.val) 31 0)) }
      exec (.supTimer u) s = .next (t.supTrigger u.val (t.stampAt (s.supu u.val).timerAt))) ∧
    (∀ u : Fin 20, s.supRuns = true → s.supState u.val = 2 → atOrAfter s.time (s.supu u.val).go = true →
      16 ≤ u.val → exec (.supGo u) s = .next (s.windowGo u.val)) ∧
    (∀ u : Fin 20, s.supRuns = true → s.supState u.val = 2 → atOrAfter s.time (s.supu u.val).go = true →
      u.val < 16 → ∃ t, exec (.supGo u) s = .next t ∧ t.supState u.val = 3 ∧
        t.rdN (Reg.SUP_G_STARTED u) = (s.rdN (Reg.SUP_G_STARTED u) + 1) % 2 ^ 32 ∧
        t.rd (Reg.SUP_G_TRIG_TS u) = (s.supu u.val).trig.word) ∧
    (∀ (g : Fin 16) (volts : List (Fin 64 × Int)) codes, s.stepDue g.val = true →
      s.stepCodes g.val volts (s.nextStep g.val) = some codes →
      exec (.sarStep g volts) s = .next (s.sampleStep g.val codes)) ∧
    (∀ (g : Fin 16) (st : SupStep) (r : List SupStep), (s.supu g.val).steps = st :: r → s.supState g.val = 3 →
      atOrAfter s.time st.ends = true →
      let t := (s.setSup g.val { s.supu g.val with steps := r }).writeResults g.val st
      exec (.sarConversionEnd g) s = .next (if st.last then t.sequenceEnd g.val st else t)) ∧
    (∃ t, exec .lineSyncEdge s = .next t ∧ t.regs = s.regs ∧ t.mem = s.mem) ∧
    (∀ (x : Fin 4) (si : Fin 64) (nv : Int) (t0 : Stamp) (t1 : Nat), s.windowStart (16 + x.val) = some t0 →
      s.windowEnding (16 + x.val) = some t1 → s.supState (16 + x.val) = 3 → atOrAfter s.time t1 = true →
      s.fld (supCfg (16 + x.val)) 5 0 = si.val →
      exec (.icWindowEnd x ⟨si, nv⟩) s = .next (s.windowDone (16 + x.val) t0 t1 nv)) ∧
    (∀ x : Fin 4, s.supState (16 + x.val) = 3 → s.icLine (16 + x.val) = true →
      (s.supu (16 + x.val)).ending = none → s.passed (s.supu (16 + x.val)).since (msec 100) = true →
      exec (.icNosync x) s = .next ((s.supAbandon (16 + x.val) 1).supAfter (16 + x.val))) ∧
    (∀ b, s.mon.base = some b → 2 ≤ s.monTick → atOrAfter s.time (s.monTime b s.mon.ticks) = true →
      s.mon.ticks < s.mon.periods * s.monPeriod → s.supRuns = true →
      ∃ t, exec .monTick s = .next t ∧ t.mon.ticks = s.mon.ticks + 1 ∧ t.regs = s.regs ∧ t.mem = s.mem) ∧
    (∀ (w : Fin 16) (si : Fin 64) (settle watch : List Int), s.mon.watch.testBit w.val = true →
      s.monOn w.val = true → s.passed s.mon.tickAt (usec 1) = true → s.fld (Reg.CMP_MON_CFG w) 5 0 = si.val →
      let r := s.monResult w.val settle watch
      exec (.monSample w si settle watch) s = .next (s.monSample w.val r.1 r.2.1 r.2.2)) ∧
    (∀ b, s.mon.base = some b → atOrAfter s.time (s.monTime b (s.mon.periods * s.monPeriod)) = true →
      s.supRuns = true → exec .monPeriodStart s = .next s.monPeriodStart) ∧
    (∀ (w : Fin 16) (v : BitVec 32), exec (.monThrWrite w v) s =
      .next ((s.wrN (Reg.CMP_MON_THR w) (v.toNat % 2 ^ 29)).setFld (Reg.CMP_MON_STS w) 1 0 0))

/-- GDDR7 and SRAM (R383-R400): the memory controller's commands complete. -/
def Obligations.MemoryCompletes : Prop :=
  ∀ s : State,
    (s.parityStopped Reg.MEM_CTL = false → s.fld Reg.MEM_CFG 1 0 ≠ 3 → rateOk (s.fld Reg.MEM_CFG 6 2) = true →
      (s.putBit Reg.MEM_CTL 0 true).memState = 5 →
      exec .memEnable s = .next ((s.putBit Reg.MEM_CTL 0 true).memResume)) ∧
    (s.parityStopped Reg.MEM_CTL = false → s.fld Reg.MEM_CFG 1 0 ≠ 3 → rateOk (s.fld Reg.MEM_CFG 6 2) = true →
      (s.putBit Reg.MEM_CTL 0 true).memState = 0 →
      ∃ t, exec .memEnable s = .next t ∧ t.bit Reg.MEM_CTL 0 = true ∧ 1 ≤ t.memState ∧ t.memState ≤ 3 ∧
        t.rdN Reg.MEM_SIZE = s.memEnd) ∧
    (let u := (s.parityFree Reg.MEM_CTL).putBit Reg.MEM_CTL 0 false
     (u.memState = 4 ∨ u.memState = 7) → exec .memDisable s = .next u.memRest) ∧
    (∀ (rd wr : List (List Nat)) (bad : BitVec 16) (late : Fin 8),
      (s.memState = 1 → late ≠ 1 → exec (.memReady rd wr bad late) s = .next s) ∧
      (s.memState = 2 ∨ s.memState = 3 → s.pllLocked 4 = true →
        exec (.memReady rd wr bad late) s = .next (s.memTrained ⟨rd, wr, bad.toNat, late⟩))) ∧
    (s.memState = 4 → exec .retrain s = .next (s.memTrain 1 3)) ∧
    (∀ sel : Fin 32, let t := (s.setFld Reg.MEM_RATE_REQ 4 0 sel.val).probesEnd
      rateOk sel.val = true → t.memState = 4 → t.ddr.probing = [] →
      exec (.memRateReq sel) s = .next (t.rateStart sel.val)) ∧
    (∀ (rd wr : List (List Nat)) (bad : BitVec 16) (late : Fin 8) (st d l : Nat), s.memState = 7 → s.pllLocked 4 = true →
      (⟨rd, wr, bad.toNat, late⟩ : Sweep).failure 4 = some (st, d, l) →
      exec (.memRateDone rd wr bad late) s = .next (s.memFail st d l)) ∧
    (∀ (rd wr : List (List Nat)) (bad : BitVec 16) (late : Fin 8), s.memState = 7 → s.pllLocked 4 = true →
      (⟨rd, wr, bad.toNat, late⟩ : Sweep).failure 4 = none →
      let u := (s.setLanes ⟨rd, wr, bad.toNat, late⟩ false).devicesTrained.memPattern
      let t := u.wr Reg.MEM_TRAIN_TS u.now.word
      exec (.memRateDone rd wr bad late) s = .next (((t.setFld Reg.MEM_CFG 6 2 t.ddr.rate).memReady.raise 740).rateHeld)) ∧
    (∀ (d : Fin 16) (temp : Int) (found : ProbeFind) (x b : Nat),
      let u := s.probesEnd.memArrive found.segs
      u.memState = 4 → u.bit Reg.MEM_CTL 2 = true → (u.ddr.probes.find? fun p => p.1 == d.val) = none →
      (u.ddr.refreshed.find? fun r => r.1 == d.val) = some (x, b) → u.probed d.val = false →
      u.picks d.val (u.probeSeg d.val b) = true →
      ∃ t, exec (.bgtProbe d temp found) s = .next t ∧
        t.fld (Reg.MEM_DEV_STS d) 9 2 = ofSigned 8 (floorDiv temp 10)) ∧
    (∀ (d b : Fin 16) (x : RefreshFind), let u := s.probesEnd.reportTemp d.val x.temp
      let k := d.val * 16 + b.val
      let waits := (u.waiting d.val).any fun g => ddrBank g.addr == b.val
      s.probesEnd.memState = 4 →
      (x.busy = true ∨ u.probed d.val = true ∨ (u.debt k < 4 ∧ waits = true) →
        exec (.refresh d b x) s = .next (u.setDebt k (u.debt k + 1))) ∧
      (x.busy = false → u.probed d.val = false → u.debt k < 4 → waits = false →
        exec (.refresh d b x) s = .next (u.refreshBank d.val b.val)) ∧
      (x.busy = false → u.probed d.val = false → 4 ≤ u.debt k →
        exec (.refresh d b x) s = .next ((u.bumpSat Reg.MEM_REF_LATE 32).refreshBank d.val b.val))) ∧
    (∀ (d : Fin 16) (segs : List MemSeg) (retries : Fin 4) (fails : Bool) (ecc : Fin 3) (left : List (BitVec 8)),
      let u := s.probesEnd.memArrive segs
      u.memState = 4 → u.probed d.val = false →
      (∀ g, u.chooseVisit d.val (u.waiting d.val) = .segment g →
        exec (.bankVisit d segs retries fails ecc left) s =
          .next ((u.takeSeg d.val g).visit d.val g ⟨retries, fails, ecc⟩ left)) ∧
      (∀ b, u.chooseVisit d.val (u.waiting d.val) = .refresh b →
        exec (.bankVisit d segs retries fails ecc left) s =
          .next ((u.setDebt (d.val * 16 + b) (u.debt (d.val * 16 + b) - 1)).refreshBank d.val b))) ∧
    (∀ x : PatrolFind, let u := s.probesEnd.memArrive x.segs
      let d := ddrDevice u.ddr.patrol
      u.memState = 4 → u.bit Reg.MEM_CTL 3 = true → u.probed d = false → u.picks d u.patrolSeg = true →
      exec (.patrolRead x) s = .next (u.patrolRead ⟨x.retries, x.fails, x.ecc⟩)) ∧
    (∀ corrected double : List (Fin 5 × Nat), s.power < 2 →
      0 < s.fld Reg.SRM_SCRUB 15 0 → s.bit Reg.SRM_PART 4 = true →
      s.elapsed s.ddr.scrubAt (msec (s.fld Reg.SRM_SCRUB 15 0)) = true →
      let on := fun (e : Fin 5 × Nat) => s.bit Reg.SRM_PART e.1
      let u : State := { s with ddr := { s.ddr with scrubAt := s.clk.up } }
      exec (.sramScrub corrected double) s = .next ((double.filter on).foldl State.sramReadBad
        ((corrected.filter on).foldl State.sramReadCorrected u))) ∧
    (∀ a : Nat, a < 2 ^ 36 → (ddrPlace a).addr = a) ∧
    (∀ x : DdrPlace, x.dev < 16 → x.bank < 16 → x.row < 2 ^ 17 → x.col < 2048 → ddrPlace x.addr = x)

/-- Queues and DMA (R406-R428): the commands complete. -/
def Obligations.QueuesComplete : Prop :=
  ∀ s : State,
    (∀ q : Fin 65536, (s.queue q.val).isSome = true ∨ s.contextOk q.val = true →
      exec (.queueEnable q) s = .next (s.enableQueue q.val)) ∧
    (∀ q : Fin 65536, exec (.queueDisable q) s = .next (s.disableQueue q.val)) ∧
    (∀ q : Fin 65536, exec (.queueSync q) s = .next (s.syncQueue q.val)) ∧
    (∀ (q : Fin 65536) (v : BitVec 32), s.tailBad q.val v.toNat = false →
      exec (.tailDoorbell q v) s = .next (s.tailDoorbell q.val v.toNat)) ∧
    (∀ (q : Fin 65536) (v : BitVec 32), s.headBad q.val v.toNat = false →
      exec (.headDoorbell q v) s = .next (s.headDoorbell q.val v.toNat)) ∧
    (∀ ch : Fin 128, s.dmaStartBad ch.val = false → exec (.dmaStartDoorbell ch) s = .next (s.dmaStart ch.val)) ∧
    (∀ (ch : Fin 128) (data : List (BitVec 8)), s.dmaMoves ch.val = true → s.descUndefined ch.val = 0 →
      s.lastHandoverBad ch.val = false → s.descDead (s.desc ch.val) = false →
      (s.desc ch.val).delivers ((s.desc ch.val).len - s.rdN (Reg.QDM_CH_OFFSET ch)) data = true →
      exec (.dmaDescriptorComplete ch data) s = .next ((s.descWrite ch.val (s.desc ch.val)
        (s.rdN (Reg.QDM_CH_OFFSET ch)) (s.descData (s.desc ch.val) (s.rdN (Reg.QDM_CH_OFFSET ch))
        ((s.desc ch.val).len - s.rdN (Reg.QDM_CH_OFFSET ch)) data)).descDone ch.val false 0)) ∧
    (∀ (ch : Fin 128) (cause : Fin 8) (n : Nat) (data : List (BitVec 8)), s.dmaMoves ch.val = true →
      1 ≤ cause.val → cause.val ≤ 5 → s.descUndefined ch.val = 0 → s.lastHandoverBad ch.val = false →
      n ≤ (s.desc ch.val).len - s.rdN (Reg.QDM_CH_OFFSET ch) → (s.desc ch.val).delivers n data = true →
      exec (.dmaTransferError ch cause n data) s = .next ((s.descWrite ch.val (s.desc ch.val)
        (s.rdN (Reg.QDM_CH_OFFSET ch)) (s.descData (s.desc ch.val) (s.rdN (Reg.QDM_CH_OFFSET ch)) n data)).descDone
        ch.val true cause.val)) ∧
    (∀ ch : Fin 128, s.dmaState ch.val = 0 → ∃ t, exec (.dmaEnable ch) s = .next t ∧
      t.dmaState ch.val = (if s.bit (Reg.QDM_CH_CTL ch) 1 then 4 else 1) ∧
      t.bit (Reg.QDM_CH_CTL ch) 0 = true ∧ t.bit (Reg.QDM_CH_STS ch) 4 = false) ∧
    (∀ ch : Fin 128, s.dmaState ch.val = 4 →
      exec (.dmaDisable ch) s = .next ((s.putBit (Reg.QDM_CH_CTL ch) 0 false).dmaOff ch.val)) ∧
    (∀ ch : Fin 128, exec (.dmaPause ch) s = .next ((s.putBit (Reg.QDM_CH_CTL ch) 1 true).dmaPause ch.val)) ∧
    (∀ (ch : Fin 128) (n : Nat) (data : List (BitVec 8)), s.dmaState ch.val = 3 → (s.dmaMoves ch.val = false ∨ s.descUndefined ch.val = 0) →
      (s.dmaChan ch.val).offPending = false → s.dmaHolds ch.val = true →
      ∃ t, exec (.dmaDrainEnd ch n data) s = .next t ∧ t.dmaState ch.val = 4) ∧
    (∀ ch : Fin 128, let u := s.putBit (Reg.QDM_CH_CTL ch) 1 false
      (u.dmaHolds ch.val = true → exec (.dmaResume ch) s = .next u) ∧
      (u.dmaHolds ch.val = false → u.resumeBad ch.val = false →
        exec (.dmaResume ch) s = .next (u.dmaResume ch.val)))

/-- The waypoint scheduler (R351-R353): each action's command runs it when the entry at HEAD is due, not late
and names it, and the entry retires; the message of a FABRIC entry of the queue leaves once FAB_ADV ticks or
fewer remain to its target (R355). -/
def Obligations.WaypointActionsComplete : Prop :=
  ∀ (s : State) (t : Nat),
    (∀ j : Fin 64, let n := (s.wpHead + j.val) % 2 ^ 32
      s.wpRuns = true → j.val < s.wpPending → getF (s.wpWord n 1) 3 0 = 7 →
      wpReserved (s.wpWord n 1) = false → s.wpTarget n = some t →
      s.wpReached n t (s.fld Reg.CCS_WP_CFG 16 1 * 4096) = true →
      exec (.fabricLookaheadSend j) s = .next (s.wpFabric n t)) ∧
    (let n := s.wpHead
    let w := s.wpWord n 1
    let ts := s.stampAt t true
    let f : WpFire := { slot := n % 4096, w := w, ts := ts, late := false }
    let v := (s.wpCount.bump Reg.CCS_WP_FIRED 64).wr Reg.CCS_WP_LAST_TS ts.word
    s.wpRuns = true → s.wpPending ≠ 0 → s.wpTarget n = some t → s.wpReached n t 0 = true →
    s.wpFull = false → wpReserved w = false → timeDiff s.sysNow t < (s.lastTick : Int) →
    (getF w 3 0 = 0 → exec .wpNone s = .next v.wpRetire) ∧
    (getF w 3 0 = 1 → exec .wpArm s = .next (v.wpArm f).wpRetire) ∧
    (getF w 3 0 = 2 → exec .wpTrigger s =
      .next (v.waypointUnits (getF w 9 8) (getF w 17 10) (n % 4096) ts).wpRetire) ∧
    (getF w 3 0 = 3 → exec .wpSignal s = .next (v.wpSignal f).wpRetire) ∧
    (getF w 3 0 = 4 → exec .wpTag s = .next (v.wpTag f).wpRetire) ∧
    (getF w 3 0 = 5 → exec .wpConvert s = .next (v.wpConvert f).wpRetire) ∧
    (getF w 3 0 = 6 → exec .wpTask s = .next (v.wpTask f).wpRetire) ∧
    (getF w 3 0 = 7 → exec .wpFabric s = .next (v.wpFabric v.wpHead ts.t).wpRetire))

/-- PCIe ports (R431-R441, R453, R458, R599): the ports' commands complete. -/
def Obligations.PcieCompletes : Prop :=
  ∀ (s : State) (n : Fin 4),
    (∀ (rate : Fin 6) (width : Fin 4) (flit : Bool), s.portRuns n.val = true → s.linkUp n.val = false →
      s.power ≤ 1 → s.pciRole n.val ≠ 1 → s.pciRole n.val ≠ 3 → s.fld (Reg.PCI_PORT_CFG n) 4 2 ≤ 5 →
      ∃ t, exec (.pciLinkUp n rate width flit) s = .next t ∧ t.linkUp n.val = true ∧
        t.fld (Reg.PCI_PORT_STS n) 3 1 = min rate.val (s.fld (Reg.PCI_PORT_CFG n) 4 2)) ∧
    (exec (.pciLinkDown n) s = .next (s.linkDown n.val)) ∧
    (∀ devs, s.linkUp n.val = true → s.drv.enum.testBit n.val = true →
      (devs = [] ∨ s.rpUndefined n.val = false) → exec (.pciEnum n devs) s = .next (s.enumEnd n.val devs)) ∧
    (∀ (bus : Fin 256) (devs : List PciDev) x, s.linkUp n.val = true → s.pciRole n.val = 1 →
      s.drv.enum.testBit n.val = false →
      (s.drv.slots.find? fun x => x.port == n.val && x.bus == bus.val) = some x →
      exec (.slotChange n bus devs) s = .next ((s.raise (896 + n.val)).slotEnum n.val x devs)) ∧
    (s.isEndpoint n.val = false ∨ s.wakeUndefined 6 2 3 = false → ∃ t, exec (.perst n) s = .next t ∧ (t.epFn n.val).out = true) ∧
    (s.pciRole n.val = 1 → s.pwr.pg = 7 → s.elapsed s.pwr.pgSince (msec 100) = true →
      exec (.perstRelease n) s = .next (s.send (.pin "PERST" n.val 1))) ∧
    (∀ (tag : Fin 16384) (reg : Fin 1024) (v : BitVec 32), s.isEndpoint n.val = true → s.linkUp n.val = true →
      (s.epFn n.val).enabled = true → (s.epFn n.val).flr = false →
      exec (.configRequest n tag true reg v) s =
        .next ((s.epConfigWrite n.val reg.val v.toNat).send (.pcieCompletion n.val tag.val 0 [])) ∧
      exec (.configRequest n tag false reg v) s =
        .next (s.send (.pcieCompletion n.val tag.val 0 (leBytes 4 (s.epConfig n.val reg.val))))) ∧
    (s.isEndpoint n.val = true → s.linkUp n.val = true → (s.epFn n.val).enabled = true →
      ∃ t, exec (.flrStart n) s = .next t ∧ (t.epFn n.val).flr = true ∧
      t.regs = s.regs ∧ t.mem = s.mem) ∧
    ((s.epFn n.val).flr = true → ∃ t, exec (.pciFlr n) s = .next t ∧ (t.epFn n.val).flr = false ∧
      (t.epFn n.val).enabled = (s.epFn n.val).enabled ∧ (t.epFn n.val).busMaster = false) ∧
    (∀ v : BitVec 64, s.pciRole n.val = 1 → bitAt v 28 = false →
      ∃ t, exec (.cfgAccGo n v) s = .next t ∧ t.rd (Reg.PCI_RP_CFG_ACC n) = setF v 31 29 0 ∧
        t.out = s.out ++ [.pcieConfig n.val (getF v 15 0) (getF v 27 16) false (getF v 63 32)]) ∧
    (∀ (ur : Bool) (data : BitVec 32), s.drv.acc.testBit n.val = true →
      ∃ t, exec (.cfgAccDone n ur data) s = .next t ∧ t.bit (Reg.PCI_RP_CFG_ACC n) 30 = true ∧
        t.bit (Reg.PCI_RP_CFG_ACC n) 31 = ur ∧
        (s.bit (Reg.PCI_RP_CFG_ACC n) 28 = false → t.fld (Reg.PCI_RP_CFG_ACC n) 63 32 = data.toNat)) ∧
    (exec (.pcieLinkError n true) s =
      .next ((s.bumpSat (Reg.PCI_ERR_UNCORR n) 32).raise (908 + n.val))) ∧
    (exec (.pcieLinkError n false) s = .next (s.bumpSat (Reg.PCI_ERR_CORR n) 32))

/-- PCIe (R435, R436, R439, R546): memory accesses from outside complete. -/
def Obligations.PcieAccessesComplete : Prop :=
  ∀ (s : State) (n : Fin 4) (tag : Fin 16384) (data : List (BitVec 8)),
    (∀ off len, let a := s.fld (Reg.PCI_EP_BAR2 n) 47 20 * 2 ^ 20 + off
      20 ≤ s.fld (Reg.PCI_EP_BAR2 n) 5 0 → s.fld (Reg.PCI_EP_BAR2 n) 5 0 ≤ 36 →
      s.epServes n.val = true → s.epWinBad n.val = false →
      (off + len ≤ 2 ^ s.fld (Reg.PCI_EP_BAR2 n) 5 0 → s.memOk a len = true → s.epAllows n.val a len false = true →
        exec (.bar2Access n tag false off len data) s = .next (if s.portWaits n.val a
          then { s with heldReqs := s.heldReqs ++ [⟨n.val, tag.val, false, a, len, data⟩] }
          else s.send (.pcieCompletion n.val tag.val 0 (s.rdBytes a len)))) ∧
      (off + data.length ≤ 2 ^ s.fld (Reg.PCI_EP_BAR2 n) 5 0 → s.memOk a data.length = true →
        s.softWriteOk a data.length = true →
        s.epAllows n.val a data.length true = true →
        exec (.bar2Access n tag true off len data) s = .next (if s.portWaits n.val a
          then { s with heldReqs := s.heldReqs ++ [⟨n.val, tag.val, true, a, data.length, data⟩] }
          else s.wrBytes a data))) ∧
    (∀ (addr : BitVec 64) (len : Nat), s.pciRole n.val = 1 → s.linkUp n.val = true → s.portWaits n.val addr.toNat = false →
      (addr.toNat + len ≤ 2 ^ 48 → s.memOk addr.toNat len = true →
        exec (.downstreamRequest n tag false addr len data) s =
          .next (s.send (.pcieCompletion n.val tag.val 0 (s.rdBytes addr.toNat len)))) ∧
      (addr.toNat + data.length ≤ 2 ^ 48 → s.memOk addr.toNat data.length = true → s.memWriteOk addr.toNat data.length = true →
        s.contextHit addr.toNat data.length = false →
        exec (.downstreamRequest n tag true addr len data) s = .next (s.wrBytes addr.toNat data))) ∧
    (∀ off : Fin 65536, s.epServes n.val = true → 0x8000 ≤ off.val → off.val < 0xC000 → off.val % 16 = 0 →
      data.length = 8 → (s.epFn n.val).msixEnable = false →
      ∃ t, exec (.bar4Write n off data) s = .next t ∧
        ((t.epFn n.val).vector ((off.val - 0x8000) / 16)).addr = ofLe data ∧ t.regs = s.regs ∧ t.mem = s.mem) ∧
    (∀ off : Fin 65536, s.epServes n.val = true → off.val < 0x8000 → off.val % 8 = 0 → data.length = 8 →
      s.doorbellUndefined (BitVec.ofNat 64 (ofLe data)) = 0 →
      exec (.bar4Write n off data) s = .next (s.doorbell (BitVec.ofNat 64 (ofLe data)))) ∧
    (∀ (x : Fin 4) (st : Nat) (place : Fin 16) (strip : Fin 8) (off len : Nat) (k : DrvBlock),
      s.pciRole n.val = 1 → s.linkUp n.val = true → off + len ≤ 131072 → place.val < s.dData x.val →
      (s.drv.journal.find? fun k => k.set == x.val && k.b == st * s.dData x.val + place.val) = some k →
      exec (.streamApertureRead n tag x st place strip off len) s = .next (s.send (.pcieCompletion n.val tag.val 0
        ((List.range len).map fun i => s.blockByte k (strip.val * 131072 + off + i)))))

/-- Drives (R442-R453): the NVMe engine's commands complete. -/
def Obligations.DrivesComplete : Prop :=
  ∀ s : State,
    (∀ (port : Fin 4) (fn : Fin 32) (cookie : Nat) (data : NvmeData) (c : Ctrl) (k : DrvCmd),
      s.ctrl port.val fn.val = some c → (c.cmds.find? fun e => e.cookie == cookie) = some k → 3 ≤ c.phase →
      let d := { c with cmds := c.cmds.filter fun e => e.cookie != cookie }
      let u := (s.setCtrl d).drvNext port.val fn.val k.op.queue
      exec (.nvmeCompletion port fn cookie true data) s = .next (u.cmdDone d k data) ∧
      exec (.nvmeCompletion port fn cookie false data) s = .next (u.cmdFailed d k data)) ∧
    (∀ (port : Fin 4) (fn : Fin 32) (cookie : Nat) (c : Ctrl) (k : DrvCmd),
      s.ctrl port.val fn.val = some c → (c.cmds.find? fun e => e.cookie == cookie) = some k → 3 ≤ c.phase →
      k.sent = true → s.overdue k.sentAt (msec (s.fld Reg.DRV_CMD_TIMEOUT 31 0)) = true → c.timeoutAt = none →
      ∃ t d, exec (.nvmeTimeout port fn cookie) s = .next t ∧ t.ctrl port.val fn.val = some d ∧ d.phase = 1 ∧
        d.timeoutAt = some s.clk.up ∧ t.out = s.out ++ [.nvmeEnable port.val fn.val false]) ∧
    (∀ (port : Fin 4) (fn : Fin 32) (c : Ctrl), s.ctrl port.val fn.val = some c →
      (c.phase = 1 → exec (.controllerReadyChange port fn false) s = .next (s.ctrlStart port.val fn.val)) ∧
      (c.phase = 1 ∨ c.phase = 2 → exec (.capToExpiry port fn) s = .next (s.ctrlFailed port.val fn.val 2))) ∧
    (∀ (port : Fin 4) (fn : Fin 32) (c : Ctrl), s.ctrl port.val fn.val = some c → c.phase = 2 →
      exec (.controllerReadyChange port fn true) s =
        .next ((s.setCtrl { c with phase := 3 }).drvSend port.val fn.val (initOp 0) (.init 0) 0)) ∧
    (∀ (port : Fin 4) (fn : Fin 32) (x m : Nat), s.memberOf port.val fn.val = some (x, m) →
      exec (.controllerFatal port fn) s =
        .next (((s.memberLost x m 3 3).afterDrive x).ctrlAway port.val fn.val)) ∧
    (s.sinceNote s.drv.smartAt (msec 60000) = true →
      let u : State := { s with drv := { s.drv with smartAt := some s.clk.up } }
      exec .smartPoll s =
        .next ((List.range 4).foldl (fun s x => (List.range (s.dN x)).foldl (fun s m =>
          if s.mState x m = 2 ∨ s.mState x m = 5 then s.drvSend (s.mPort x m) (s.mFn x m) .smart .smart 0
          else s) s) u)) ∧
    (∀ (x c : Fin 4) (e t : Nat), (s.dset x.val).marks[c].head? = some (e, t) → s.dState x.val = 2 →
      0 < s.untakenLen x.val c.val → s.elapsed t (usec (s.fld (Reg.DRV_SET_FLUSH x) 15 0)) = true →
      (s.canTake x.val).2 = true →
      exec (.blockFlushTimeout x c) s = .next (((s.canTake x.val).1.formBlock x.val c.val
        (min (s.untakenLen x.val c.val) drvPayload)).drvProgress x.val)) ∧
    (∀ x : Fin 4, s.bit (Reg.DRV_SET_CFG x) 12 = false →
      s.sinceNote (s.dset x.val).flushAt (usec (s.fld (Reg.DRV_SET_FLUSH x) 31 16)) = true →
      let u := s.setDset x.val { s.dset x.val with flushAt := some s.clk.up }
      exec (.driveFlushTimer x) s = .next ((List.range (u.dN x.val)).foldl (fun s m =>
        if (s.mState x.val m = 2 ∨ s.mState x.val m = 5) ∧ (s.member x.val m).done ≠ [] then
          s.drvSend (s.mPort x.val m) (s.mFn x.val m) .flush (.flush x.val (s.member x.val m).done) 0
        else s) u)) ∧
    (∀ (x : Fin 4) (init : Bool), s.dState x.val = 2 → s.parityStopped (Reg.DRV_SET_CTL x) = false →
      ∃ t, exec (.drvSetEnable x true init) s = .next t ∧ t.bit (Reg.DRV_SET_CTL x) 0 = true ∧
        t.bit (Reg.DRV_SET_CTL x) 2 = init ∧ t.dState x.val = 2) ∧
    (∀ (x : Fin 4) (init : Bool), s.dState x.val = 0 → s.parityStopped (Reg.DRV_SET_CTL x) = false →
      s.setUndefined x.val = 0 →
      let k := Reg.DRV_SET_STS x.val
      let u := (s.putBit (Reg.DRV_SET_CTL x) 0 true).putBit (Reg.DRV_SET_CTL x) 2 init
      let v := ((u.setFld k 9 7 0).putBit k 5 false).putBit k 6 false
      let w := v.setDset x.val { v.dset x.val with init := init }
      w.areaOk = true → exec (.drvSetEnable x true init) s = .next ((w.setFld k 2 0 1).initSet x.val)) ∧
    (∀ x : Fin 4, exec (.drvStop x) s = .next (s.drvStop x.val))

/-- Fabric ports (R460-R466): the port state machine's commands complete. -/
def Obligations.FabricPortsComplete : Prop :=
  ∀ (s : State) (p : Fin 8),
    (s.parityStopped (Reg.FAB_PORT_CTL p) = false → s.portUndefined p.val = false →
      exec (.fabPortEnable p true) s = .next ((s.putBit (Reg.FAB_PORT_CTL p) 0 true).portRetest p.val)) ∧
    (exec (.fabPortEnable p false) s = .next
      (((s.parityFree (Reg.FAB_PORT_CTL p)).putBit (Reg.FAB_PORT_CTL p) 0 false).portTo p.val 0)) ∧
    (s.wakeUndefined 5 2 3 = false → exec (.signalDetect p) s = .next ((s.wakeBy 5 6 2 3).portSignal p.val)) ∧
    (∀ boost dfe, s.fpState p.val = 1 → s.bit (Reg.FAB_LANE_STS (2 * p.val)) 10 = false →
      s.bit (Reg.FAB_LANE_STS (2 * p.val + 1)) 10 = false →
      ∃ t, exec (.portTrainDone p boost dfe) s = .next t ∧ t.fpState p.val = 2) ∧
    (s.fpState p.val = 1 → s.overdue (s.fport p.val).since (msec 20) = true →
      exec (.portTrainTimeout p) s = .next (if s.fld (Reg.FAB_PORT_STS p) 4 3 < 2
        then s.portTrain p.val (s.fld (Reg.FAB_PORT_STS p) 4 3 + 1) else s.portFault p.val 1)) ∧
    (s.fpState p.val = 2 → ∃ t, exec (.portAlignDone p) s = .next t ∧ t.fpState p.val = 3) ∧
    (s.fpState p.val = 2 → s.overdue (s.fport p.val).since (msec 1) = true →
      s.bit (Reg.FAB_PORT_CTL p) 3 = false → exec (.portAlignTimeout p) s = .next (s.portFault p.val 1)) ∧
    (s.fpState p.val = 3 → ∃ t, exec (.portInitDone p) s = .next t ∧ t.fpUp p.val = true) ∧
    (s.fpState p.val = 3 → s.overdue (s.fport p.val).since (usec 100) = true →
      exec (.portInitTimeout p) s = .next (s.portFault p.val 1)) ∧
    (s.fpState p.val = 6 → s.elapsed (s.fport p.val).since (msec 10) = true →
      exec (.portFaultEnd p) s = .next (s.setPort p.val 0)) ∧
    (s.fpUp p.val = true → exec (.portLinkLost p) s = .next (s.portDrop p.val 0)) ∧
    (∀ t, (s.fport p.val).fullSince = some t → s.fpUp p.val = true → s.elapsed t (msec 1) = true →
      exec (.replayStall p) s = .next (s.portFault p.val 3)) ∧
    (s.fpUp p.val = true → s.sinceNote (s.fport p.val).helloAt (usec 10) = true →
      let u := s.setFport p.val { s.fport p.val with helloAt := some s.clk.up }
      exec (.helloSend p) s = .next (u.portSend p.val (u.linkPkt (.hello u.ownKey u.ownAddr
        (u.rdN Reg.FAB_ROOT) (u.fld Reg.FAB_ROOT_DIST 4 0) (u.bit (Reg.FAB_PORT_STS p) 6))))) ∧
    (∀ k : FabPkt, s.fpUp p.val = true →
      (k.body.type = 0 → exec (.helloPacket p k) s = .next (s.pktArrive p.val k 0)) ∧
      (k.body.type = 2 → exec (.addrReq p k) s = .next (s.pktArrive p.val k 0)) ∧
      (k.body.type = 3 → exec (.addrGrant p k) s = .next (s.pktArrive p.val k 0)) ∧
      (k.body.type = 4 → exec (.lsrPacket p k) s = .next (s.pktArrive p.val k 0)) ∧
      (k.body.type = 5 → exec (.e2eAck p k) s = .next (s.pktArrive p.val k 0)) ∧
      (∀ sub : Fin 4096, k.body.type = 1 → exec (.timePacket p k sub) s = .next (s.pktArrive p.val k sub.val))) ∧
    (∀ sub : Fin 4096, let x := s.fport p.val
      s.fpUp p.val = true → s.bit (Reg.FAB_PORT_CTL p) 8 = true → s.pllLocked 0 = true →
      s.sinceNote x.timeAt (4096 * 4096 - 4096) = true →
      let u := s.setFport p.val { x with timeAt := some s.clk.up }
      let t := u.portSend p.val (u.linkPkt (.time 0 0))
      exec (.timeSend p sub) s = .next (if (t.fport p.val).wait.length = x.wait.length
        then t.setFport p.val { t.fport p.val with timeSent := u.tickPlace sub.val } else t))

/-- Fabric (R468-R484): membership, routing, streams and time complete. -/
def Obligations.FabricCompletes : Prop :=
  ∀ s : State,
    (s.bit Reg.FAB_CTL 0 = false → s.parityStopped Reg.FAB_CTL = false →
      let u : State := { s with clk := { s.clk with fabTarget := s.rdI Reg.CLK_OFFSET_NOW 24 } }
      exec (.fabEnable true) s = .next ((List.range 8).foldl State.portRetest
        (((u.putBit Reg.FAB_CTL 0 true).setFabState 1).elect false).clkSteer)) ∧
    (let u := ((s.parityFree Reg.FAB_CTL).fabRest.setFabState 0).wrN Reg.FAB_ROOT 0;
      exec (.fabEnable false) s = .next (((u.wrN Reg.FAB_ROOT_DIST 0).putBit Reg.FAB_CTL 0 false).clkSteer)) ∧
    (s.fabState = 2 → s.elapsed s.fab.stableSince (usec 100) = true → s.isRoot = false →
      exec .electStable s = .next (s.setFabState 3).requestAddr) ∧
    (∀ a, s.fabState = 2 → s.elapsed s.fab.stableSince (usec 100) = true → s.isRoot = true →
      s.chooseAddr s.ownUid s.wantAddr (if s.bit Reg.FAB_ADDR 10 then some s.ownAddr else none) = some a →
      exec .electStable s = .next ((s.recordGrant s.ownUid a).joined a)) ∧
    (s.fabState = 3 → s.elapsed s.fab.reqAt (msec 1) = true → (findTx s.rootUid 0 s.fab.tx).unacked ≠ [] →
      exec .addrReqResend s = .next s.requestAddr) ∧
    (∃ t, exec .addrHoldExpiry s = .next t ∧ t.regs = s.regs ∧ t.mem = s.mem ∧
      (∀ g ∈ t.fab.grants, ∀ d, g.leftAt = some d → s.elapsed d (msec 10000) = true → g.free = true) ∧
      t.fab.grants.map (·.addr) = s.fab.grants.map (·.addr)) ∧
    (s.fabState = 4 → s.sinceNote s.fab.lsrAt (msec 100) = true → exec .lsrFloodTimer s =
      .next ({ s with fab := { s.fab with lsrAt := some s.clk.up } } : State).floodOwn) ∧
    (∀ (a : Fin 1024) (l : Lsr), (s.fab.lsrs.find? fun x => x.addr == a.val) = some l → l.uid ≠ s.ownUid →
      s.elapsed l.heardAt (msec 300) = true → exec (.memberAgeOut a) s = .next (s.dropMember a.val)) ∧
    (s.fab.routeDue = true → exec .fabRoute s = .next s.reroute) ∧
    (∀ (uid : BitVec 56) (vc : Fin 3) (n a : Nat) (rx : List E2eRx),
      takeAck uid.toNat vc.val s.fab.rx = (some n, rx) →
      let t : State := { s with fab := { s.fab with rx := rx } }
      t.addrOfUid uid.toNat = some a →
      exec (.e2eAckSend uid vc) s = .next (t.routeSend { t.ownPkt a false (.e2eAck vc.val) with ack := some n })) ∧
    (∀ (uid : BitVec 56) (vc : Fin 3) (e : E2eItem) (r : List E2eItem),
      (findTx uid.toNat vc.val s.fab.tx).unacked = e :: r →
      s.elapsed e.sentAt (usec (s.fld Reg.FAB_E2E_RTO 31 0)) = true →
      let items := (e :: r).map fun e => { e with
        sentAt := s.clk.up
        pkt := { e.pkt with src := s.ownAddr, dst := (s.addrOfUid uid.toNat).getD e.pkt.dst } }
      let u : State := { s with fab := { s.fab with
        tx := putTx { findTx uid.toNat vc.val s.fab.tx with unacked := items } s.fab.tx } }
      exec (.e2eRto uid vc) s = .next (items.foldl (fun s e => s.routeSend e.pkt) u).markRoutes) ∧
    (∀ (uid : BitVec 56) (vc : Fin 3), let x := findTx uid.toNat vc.val s.fab.tx
      let gone (e : E2eItem) : Bool := match e.lostAt with
        | some t => s.elapsed t (msec (s.fld Reg.FAB_UNREACH_MS 31 0))
        | none => false
      let n := (x.unacked.filter gone).length
      let u : State := { s with fab := { s.fab with
        tx := putTx { x with unacked := x.unacked.filter fun e => !gone e } s.fab.tx } }
      n ≠ 0 → exec (.fabUnreach uid vc) s =
        .next (((u.bumpSat Reg.FAB_UNREACH 32 n).latchRaise Reg.FAB_STS 8 974).txDrainAll)) ∧
    (exec .fabStep s = .next (s.moveTime (-(s.rdI Reg.FAB_TIME_OFS 48)))) ∧
    (s.timeState = 6 → s.elapsed s.fab.holdSince (msec (s.fld Reg.FAB_TIME_CFG 28 13)) = true →
      exec .fabHoldMax s = .next (s.setTimeState 0)) ∧
    (∀ src : Fin 1024, exec (.rlHoldExpiry src) s = .next (s.ridgeSkip src.val))

/-- Lantern, parallel words (R275, R277, R282-R288): each ALU command completes when the word at PC bears its
opcode, with the exact value, the accumulators and the flags that R287 gives that opcode. -/
def Obligations.ParallelWordsComplete : Prop :=
  ∀ (s : State) (k : Fin 32), let w := s.lntP k.val (s.lntPc k.val)
    s.lntReady k.val w → w < 2 ^ 47 →
    let runs (c : Instr) (op : Nat) (f : AluIn → AluOut) : Prop :=
      natBits w 46 40 = op → exec c s = .next (s.parallelAct k.val w f)
    (runs (.lntNop k default) 0 fun i => { exact := i.adv, write := false, flags := false }) ∧
    (runs (.lntZero k default) 1 fun _ => { exact := 0 }) ∧
    (runs (.lntCopy k default) 2 fun i => { exact := i.word }) ∧
    (runs (.lntCopya k default) 3 fun i => { exact := i.ajv }) ∧
    (runs (.lntAdd k default) 4 fun i => aluAdd i i.word) ∧
    (runs (.lntSub k default) 5 fun i => aluSub i i.word) ∧
    (runs (.lntAdda k default) 6 fun i => aluAdd i i.ajv) ∧
    (runs (.lntSuba k default) 7 fun i => aluSub i i.ajv) ∧
    (runs (.lntMul k default) 8 fun i => { exact := mul47 i.s1 i.s2 }) ∧
    (runs (.lntMuln k default) 9 fun i => { exact := -mul47 i.s1 i.s2 }) ∧
    (runs (.lntMadd k default) 10 fun i => { exact := i.adv + mul47 i.s1 i.s2 }) ∧
    (runs (.lntMsub k default) 11 fun i => { exact := i.adv - mul47 i.s1 i.s2 }) ∧
    (runs (.lntDmul k default) 12 fun i => { exact := mul47 i.s1 i.s2, second := some (mul47 i.s1p i.s2p) }) ∧
    (runs (.lntDmadd k default) 13 fun i =>
      { exact := i.adv + mul47 i.s1 i.s2, second := some (toSigned 56 i.ad1 + mul47 i.s1p i.s2p) }) ∧
    (runs (.lntDsump k default) 14 fun i => { exact := i.adv + mul47 i.s1 i.s2 + mul47 i.s1p i.s2p }) ∧
    (runs (.lntDdifp k default) 15 fun i => { exact := i.adv + mul47 i.s1 i.s2 - mul47 i.s1p i.s2p }) ∧
    (runs (.lntCross k default) 16 fun i => { exact := i.adv + mul47 i.s1 i.s2p + mul47 i.s1p i.s2 }) ∧
    (runs (.lntAbs k default) 17 fun i => { exact := i.adv.natAbs }) ∧
    (runs (.lntNeg k default) 18 fun i => { exact := -i.adv }) ∧
    (runs (.lntRound k default) 19 fun i => { exact := rneDiv i.adv (2 ^ 24) * 2 ^ 24 }) ∧
    (runs (.lntClip k default) 20 fun i =>
      { exact := clampI (-(2 ^ 47)) (2 ^ 47 - 1) i.adv,
        lim := decide (clampI (-(2 ^ 47)) (2 ^ 47 - 1) i.adv ≠ i.adv) }) ∧
    (runs (.lntShl k default) 21 fun i => { exact := i.adv * 2 ^ i.count }) ∧
    (runs (.lntShra k default) 22 fun i => { exact := floorDiv i.adv (2 ^ i.count) }) ∧
    (runs (.lntShrl k default) 23 fun i => aluBits (i.ad / 2 ^ i.count)) ∧
    (runs (.lntAnd k default) 24 fun i => aluUpper i fun u => u &&& ofSigned 24 i.s1) ∧
    (runs (.lntOr k default) 25 fun i => aluUpper i fun u => u ||| ofSigned 24 i.s1) ∧
    (runs (.lntXor k default) 26 fun i => aluUpper i fun u => u ^^^ ofSigned 24 i.s1) ∧
    (runs (.lntNot k default) 27 fun i => aluUpper i fun u => 2 ^ 24 - 1 - u) ∧
    (runs (.lntCmp k default) 28 fun i => { aluSub i i.word with write := false }) ∧
    (runs (.lntCmpa k default) 29 fun i => { aluSub i i.ajv with write := false }) ∧
    (runs (.lntMax k default) 30 fun i => { exact := max i.adv i.ajv }) ∧
    (runs (.lntMin k default) 31 fun i => { exact := min i.adv i.ajv }) ∧
    (runs (.lntNsign k default) 32 fun i => { exact := signCount i.ad * 2 ^ 24 })

/-- Lantern, control words (R289-R293, R303): each completes when the word at PC is its own. -/
def Obligations.ControlWordsComplete : Prop :=
  ∀ (s : State) (k : Fin 32), let w := s.lntP k.val (s.lntPc k.val)
    let taken := s.lntCond k.val (natBits w 43 40)
    let next := (s.lntLand k.val).lntAdvance k.val
    let c := s.core k.val
    s.lntReady k.val w → 2 ^ 47 ≤ w →
    (isBranch 0 w = true → exec (.lntGoto k default) s =
      .next (next.lntBranch k.val (if taken then some (natBits w 14 0, none) else none))) ∧
    (isBranch 1 w = true → taken = true → c.stack.length < 16 → exec (.lntCall k default) s =
      .next ((next.setCore k.val { next.core k.val with
        stack := .addr ((next.lntPc k.val + 2) % 2 ^ 15) :: (next.core k.val).stack }).lntBranch k.val
          (some (natBits w 14 0, none)))) ∧
    (∀ a u, isBranch 2 w = true → taken = true → s.lntPopAddr k.val = some (a, u) → exec (.lntRet k default) s =
      .next (((u.lntLand k.val).lntAdvance k.val).lntBranch k.val (some (a, none)))) ∧
    (∀ v a u t, isBranch 3 w = true → taken = true → s.lntPopSr k.val = some (v, u) →
      u.lntPopAddr k.val = some (a, t) → exec (.lntIret k default) s =
      .next (((t.lntLand k.val).lntAdvance k.val).lntBranch k.val (some (a, some v)))) ∧
    (isBranch 1 w = true ∨ isBranch 2 w = true ∨ isBranch 3 w = true → taken = false →
      exec (if isBranch 1 w then .lntCall k default else if isBranch 2 w then .lntRet k default else .lntIret k default) s =
        .next (next.lntBranch k.val none)) ∧
    (isBranch 4 w = true → taken = true → c.stack ≠ [] → exec (.lntLeave k default) s =
      .next (((s.lntLand k.val).lntPopLoop k.val).lntBoundary k.val)) ∧
    (isBranch 4 w = true → taken = false → exec (.lntLeave k default) s = .next ((s.lntLand k.val).lntDone k.val)) ∧
    (isClass 9 w = true → s.ldep k.val ≠ 4 → c.stack.length < 16 →
      let t := s.lntLand k.val
      let u := t.setCore k.val { t.core k.val with
        stack := .loop (t.core k.val).lend (t.core k.val).lcnt (t.core k.val).lstart :: (t.core k.val).stack
        lend := natBits w 14 0, lcnt := s.lntCount k.val w, lstart := t.lntPc k.val + 1 }
      exec (.lntLoop k default) s = .next (((u.setFld (Reg.LNT_SR k) 14 12 (u.ldep k.val + 1)).setLntPc k.val
        (u.lntPc k.val + 1)).lntBoundary k.val)) ∧
    (isClass 10 w = true → exec (.lntRepeat k default) s =
      .next ((next.setCore k.val { next.core k.val with rep := s.lntCount k.val w }).putBit (Reg.LNT_SR k) 15 true)) ∧
    (isClass 11 w = true → exec (.lntLimm k default) s = .next (s.ctlMove k.val w)) ∧
    (isClass 12 w = true → exec (.lntRmov k default) s = .next (s.ctlMove k.val w)) ∧
    (isClass 13 w = true → exec (.lntMmov k default) s = .next (s.ctlMove k.val w)) ∧
    (isSys 0 w = true → next.lntState k.val = 3 → (next.core k.val).vector = none → exec (.lntWait k default) s =
      .next (((next.setCore k.val { next.core k.val with waiting := .wait }).setLntState k.val 4).lntBoundary k.val)) ∧
    (isSys 1 w = true → ((s.lntLand k.val).poolOf k.val).isSome = true → exec (.lntDone k default) s =
      .next ((s.lntLand k.val).setLntState k.val 5)) ∧
    (isSys 1 w = true → (s.lntLand k.val).poolOf k.val = none → exec (.lntDone k default) s =
      .next ((s.lntLand k.val).lntHalt k.val 1)) ∧
    (isSys 2 w = true → (s.enq k.val (natBits w 31 16) (s.enqItem k.val w)).2 = true → exec (.lntEnq k default) s =
      .next ((((s.enq k.val (natBits w 31 16) (s.enqItem k.val w)).1.lntLand k.val).putBit (Reg.LNT_SR k) 6
        false).lntDone k.val)) ∧
    (isSys 3 w = true → c.xfers.length < 4 → exec (.lntXfer k default) s =
      .next ((((s.setCore k.val { c with xfers := c.xfers ++ [(s.xferDesc k.val w).1] }).lntLand k.val).putBit
        (Reg.LNT_SR k) 7 false).lntDone k.val)) ∧
    (isSys 4 w = true → exec (.lntEvt k default) s =
      .next (((s.raise (448 + k.val) (natBits w 23 0)).lntLand k.val).lntDone k.val)) ∧
    (isSys 5 w = true → ((s.lntLand k.val).core k.val).xfers = [] → exec (.lntSync k default) s =
      .next ((s.lntLand k.val).lntDone k.val)) ∧
    (isSys 6 w = true → exec (.lntSignal k default) s =
      .next (((s.lntPost (natBits w 4 0) 3).lntLand k.val).lntDone k.val))

/-- Lantern cores, pools and tasks (R293-R310): the commands from outside an instruction complete. -/
def Obligations.CoresAndTasksComplete : Prop :=
  ∀ (s : State) (k : Fin 32),
    (∀ v, s.lntAccepts k.val = true → s.idleOrLower = false → (s.core k.val).vector = some v →
      (s.core k.val).stack.length ≤ 14 →
      ∃ t, exec (.lntInterruptAccept k) s = .next t ∧ t.lntPc k.val = 4 * v ∧ t.lntState k.val = 3) ∧
    ((s.core k.val).tmr = 1 → s.lntState k.val ≠ 0 → s.idleOrLower = false →
      exec (.lntTmrExpiry k) s = .next ((s.setCore k.val { s.core k.val with tmr := 0 }).lntPost k.val 1)) ∧
    (∀ (i : Fin 4) (n : Nat) (x : LntXfer), (s.core k.val).xfers[i.val]? = some x → s.idleOrLower = false →
      s.serves x.addr = true →
      let u := s.xferMove k.val x x.count
      let v := (u.setCore k.val { u.core k.val with xfers := (u.core k.val).xfers.eraseIdx i.val }).lntPost k.val 2
      exec (.lntXferComplete k i default n) s = .next (
        if v.lntState k.val = 4 ∧ (v.core k.val).waiting = .sync ∧ (v.core k.val).xfers = [] then
          ((v.setCore k.val { v.core k.val with waiting := .none }).setLntState k.val 3).lntDone k.val
        else v)) ∧
    (exec (.lntHostIrq k) s = .next (s.lntPost k.val 4)) ∧
    (s.twoPools k.val = false → ((s.putBit (Reg.LNT_CTL k) 0 true).setFld (Reg.LNT_STS k) 6 3 0).lntState k.val = 6 →
      (s.core k.val).zero = false →
      exec (.lntEnable k) s = .next ((s.putBit (Reg.LNT_CTL k) 0 true).setFld (Reg.LNT_STS k) 6 3 0)) ∧
    (s.twoPools k.val = false → s.lntState k.val = 0 →
      ∃ t, exec (.lntEnable k) s = .next t ∧ (t.lntState k.val = 1 ∨ t.lntState k.val = 3)) ∧
    (let t := s.putBit (Reg.LNT_CTL k) 0 false;
      exec (.lntDisable k) s = .next (
        if t.lntState k.val = 0 then t
        else if t.lntState k.val = 1 then t.lntOff k.val
        else (t.setCore k.val { t.core k.val with zero := true }).lntBoundary k.val)) ∧
    (2 ≤ s.lntState k.val → s.lntState k.val ≤ 5 → exec (.lntForceHalt k) s = .next (s.lntHalt k.val 2)) ∧
    (∀ p : Fin 8, let t := (s.parityFree (Reg.LNT_POOL_CTL p)).putBit (Reg.LNT_POOL_CTL p) 0 false
      exec (.lntPoolEnable p false) s = .next ((t.setHeld p.val (t.held p.val)).showPooled p.val)) ∧
    (∀ p : Fin 8, s.parityStopped (Reg.LNT_POOL_CTL p) = false →
      (∀ j < 32, s.bit (Reg.LNT_POOL_MEMBERS p) j = true → s.twoPools j = false) →
      let t := s.putBit (Reg.LNT_POOL_CTL p) 0 true
      exec (.lntPoolEnable p true) s = .next ((t.setHeld p.val (t.held p.val)).showPooled p.val)) ∧
    (∀ (p : Fin 8) (j : Nat), s.idleMember p.val = some j → s.twoPools j = false → s.idleOrLower = false →
      exec (.taskDispatch p) s = .next (s.dispatch p.val j)) ∧
    (∀ (p : Nat) (x : LntTask), s.poolOf k.val = some p → s.taskOf k.val = some x → s.lntState k.val = 2 →
      s.inboxCycles p x ≤ (s.core k.val).spent → s.idleOrLower = false → exec (.inboxDone k) s = .next ((s.writeInbox k.val p x).lntStart k.val)) ∧
    (∀ (p : Nat) (x : LntTask) (r : List LntTask), s.poolOf k.val = some p → s.held p = x :: r →
      s.lntState k.val = 5 → x.core = some k.val → x.dead = false → s.idleOrLower = false →
      exec (.taskCommit k) s = .next (s.commitTask k.val p x r)) ∧
    (s.lntState k.val = 3 ∨ s.lntState k.val = 4 → 0 < s.rdN (Reg.LNT_TASK_LIMIT k) →
      s.rdN (Reg.LNT_TASK_LIMIT k) * 1024 ≤ (s.core k.val).spent → (s.taskOf k.val).isSome = true →
      s.idleOrLower = false → exec (.lntWatchdog k) s = .next (s.lntHalt k.val 6))
end

