-- ==== Sys2Proof/Laws/Bits.lean ====
section
/-! SUPPORT. Fields of a slot: a field reads as it was written, and every other field as before. -/

namespace Sys2Proof.Machine

/-- A number is its upper part, a field and its lower part. -/
theorem nat_split (n hi lo : Nat) (h : lo ≤ hi) :
    n = n / 2 ^ (hi + 1) * 2 ^ (hi + 1) + natBits n hi lo * 2 ^ lo + n % 2 ^ lo := by
  unfold natBits
  have h1 : 2 ^ (hi + 1) = 2 ^ lo * 2 ^ (hi + 1 - lo) := by rw [← pow_add]; congr 1; omega
  have h2 : n / 2 ^ (hi + 1) = n / 2 ^ lo / 2 ^ (hi + 1 - lo) := by rw [h1, Nat.div_div_eq_div_mul]
  have h3 := Nat.div_add_mod n (2 ^ lo)
  have h4 := Nat.div_add_mod (n / 2 ^ lo) (2 ^ (hi + 1 - lo))
  have h5 : ∀ a b L W r : Nat, a * (L * W) + b * L + r = L * (W * a + b) + r := by intros; ring
  rw [h2, h1, h5, h4, h3]

/-- What setting a field makes of the number. -/
theorem setF_toNat (v : BitVec 64) (hi lo x : Nat) (h : lo ≤ hi) (h64 : hi < 64) :
    (setF v hi lo x).toNat =
      v.toNat / 2 ^ (hi + 1) * 2 ^ (hi + 1) + x % 2 ^ (hi + 1 - lo) * 2 ^ lo + v.toNat % 2 ^ lo := by
  have hs := nat_split v.toNat hi lo h
  have hv := v.isLt
  have hp : (2 : Nat) ^ 64 = 2 ^ (63 - hi) * 2 ^ (hi + 1) := by rw [← pow_add]; congr 1; omega
  have h1 : 2 ^ (hi + 1) = 2 ^ lo * 2 ^ (hi + 1 - lo) := by rw [← pow_add]; congr 1; omega
  have ha : v.toNat / 2 ^ (hi + 1) + 1 ≤ 2 ^ (63 - hi) :=
    Nat.div_lt_of_lt_mul (by rw [mul_comm, ← hp]; exact hv)
  have hx : x % 2 ^ (hi + 1 - lo) + 1 ≤ 2 ^ (hi + 1 - lo) := Nat.mod_lt _ (by positivity)
  have hl : v.toNat % 2 ^ lo < 2 ^ lo := Nat.mod_lt _ (by positivity)
  have hb : x % 2 ^ (hi + 1 - lo) * 2 ^ lo + v.toNat % 2 ^ lo < 2 ^ (hi + 1) := by
    have := Nat.mul_le_mul_right (2 ^ lo) hx
    rw [h1]; nlinarith
  have hc := Nat.mul_le_mul_right (2 ^ (hi + 1)) ha
  unfold setF
  rw [show getF v hi lo = natBits v.toNat hi lo from rfl, BitVec.toNat_ofNat, Nat.mod_eq_of_lt]
  · omega
  · rw [hp]
    have : (v.toNat / 2 ^ (hi + 1) + 1) * 2 ^ (hi + 1) =
        v.toNat / 2 ^ (hi + 1) * 2 ^ (hi + 1) + 2 ^ (hi + 1) := by ring
    omega

/-- A field reads as it was written, modulo its width. -/
theorem getF_setF_same (v : BitVec 64) (hi lo x : Nat) (h : lo ≤ hi) (h64 : hi < 64) :
    getF (setF v hi lo x) hi lo = x % 2 ^ (hi + 1 - lo) := by
  have h1 : 2 ^ (hi + 1) = 2 ^ lo * 2 ^ (hi + 1 - lo) := by rw [← pow_add]; congr 1; omega
  have hl : v.toNat % 2 ^ lo < 2 ^ lo := Nat.mod_lt _ (by positivity)
  unfold getF natBits
  rw [setF_toNat v hi lo x h h64, h1]
  have : v.toNat / (2 ^ lo * 2 ^ (hi + 1 - lo)) * (2 ^ lo * 2 ^ (hi + 1 - lo)) +
      x % 2 ^ (hi + 1 - lo) * 2 ^ lo + v.toNat % 2 ^ lo =
      v.toNat % 2 ^ lo + 2 ^ lo *
        (x % 2 ^ (hi + 1 - lo) + 2 ^ (hi + 1 - lo) * (v.toNat / (2 ^ lo * 2 ^ (hi + 1 - lo)))) := by ring
  rw [this, Nat.add_mul_div_left _ _ (by positivity), Nat.div_eq_of_lt hl, zero_add,
    Nat.add_mul_mod_self_left, Nat.mod_mod]

/-- A field below the one written reads as before. -/
theorem getF_setF_below (v : BitVec 64) (hi lo x hi' lo' : Nat) (h : lo ≤ hi) (h64 : hi < 64)
    (hd : hi' < lo) : getF (setF v hi lo x) hi' lo' = getF v hi' lo' := by
  unfold getF natBits
  by_cases hw : lo' ≤ hi'
  · have e : ∀ n : Nat, n / 2 ^ lo' % 2 ^ (hi' + 1 - lo') = n % 2 ^ (hi' + 1) / 2 ^ lo' := by
      intro n
      rw [show 2 ^ (hi' + 1) = 2 ^ lo' * 2 ^ (hi' + 1 - lo') by rw [← pow_add]; congr 1; omega,
        Nat.mod_mul_right_div_self]
    rw [e, e, setF_toNat v hi lo x h h64]
    congr 1
    have d1 : 2 ^ (hi + 1) = 2 ^ (hi' + 1) * 2 ^ (hi - hi') := by rw [← pow_add]; congr 1; omega
    have d2 : 2 ^ lo = 2 ^ (hi' + 1) * 2 ^ (lo - (hi' + 1)) := by rw [← pow_add]; congr 1; omega
    have d3 : v.toNat % 2 ^ lo % 2 ^ (hi' + 1) = v.toNat % 2 ^ (hi' + 1) :=
      Nat.mod_mod_of_dvd _ ⟨_, d2⟩
    rw [Nat.add_mod, Nat.add_mod (_ * _) (_ * _), d3]
    rw [show v.toNat / 2 ^ (hi + 1) * 2 ^ (hi + 1) % 2 ^ (hi' + 1) = 0 from
        Nat.mod_eq_zero_of_dvd (Dvd.dvd.mul_left ⟨_, d1⟩ _),
      show x % 2 ^ (hi + 1 - lo) * 2 ^ lo % 2 ^ (hi' + 1) = 0 from
        Nat.mod_eq_zero_of_dvd (Dvd.dvd.mul_left ⟨_, d2⟩ _)]
    simp
  · rw [show hi' + 1 - lo' = 0 by omega]; simp [Nat.mod_one]

/-- A field above the one written reads as before. -/
theorem getF_setF_above (v : BitVec 64) (hi lo x hi' lo' : Nat) (h : lo ≤ hi) (h64 : hi < 64)
    (hd : hi < lo') : getF (setF v hi lo x) hi' lo' = getF v hi' lo' := by
  unfold getF natBits
  have e : ∀ n : Nat, n / 2 ^ lo' = n / 2 ^ (hi + 1) / 2 ^ (lo' - (hi + 1)) := by
    intro n
    rw [Nat.div_div_eq_div_mul, ← pow_add]; congr 2; omega
  have hx : x % 2 ^ (hi + 1 - lo) + 1 ≤ 2 ^ (hi + 1 - lo) := Nat.mod_lt _ (by positivity)
  have hl : v.toNat % 2 ^ lo < 2 ^ lo := Nat.mod_lt _ (by positivity)
  have h1 : 2 ^ (hi + 1) = 2 ^ lo * 2 ^ (hi + 1 - lo) := by rw [← pow_add]; congr 1; omega
  have hb : x % 2 ^ (hi + 1 - lo) * 2 ^ lo + v.toNat % 2 ^ lo < 2 ^ (hi + 1) := by
    have := Nat.mul_le_mul_right (2 ^ lo) hx
    rw [h1]; nlinarith
  rw [e, e, setF_toNat v hi lo x h h64]
  congr 2
  rw [add_assoc, mul_comm, Nat.mul_add_div (by positivity), Nat.div_eq_of_lt hb, add_zero]

/-- A bit reads as it was written. -/
theorem bitAt_setBit_same (v : BitVec 64) (b : Nat) (x : Bool) (h : b < 64) : bitAt (setBit v b x) b = x := by
  have e : ∀ n : Nat, n.testBit b = decide (natBits n b b = 1) := by
    intro n
    unfold natBits
    rw [Nat.testBit_eq_decide_div_mod_eq, show b + 1 - b = 1 by omega, pow_one]
  have g := getF_setF_same v b b (b2n x) (le_refl _) h
  unfold bitAt setBit
  rw [e, show natBits (setF v b b (b2n x)).toNat b b = getF (setF v b b (b2n x)) b b from rfl, g,
    show b + 1 - b = 1 by omega]
  cases x <;> rfl

end Sys2Proof.Machine
end

