-- ==== Sys2Proof/Laws/Sparse.lean ====
section
/-! SUPPORT. Sparse stores: a read after a write, and the canonical form that every operation keeps. -/

namespace Sys2Proof.Machine

variable {α : Type}

/-- Every key of a list is above `a`. -/
def Sparse.Above (a : Nat) (m : List (Nat × α)) : Prop := ∀ e ∈ m, a < e.1

/-- The canonical form, as a proposition: keys rising and no entry a default. -/
def Sparse.Rising (d : Nat → α) (m : List (Nat × α)) : Prop :=
  m.Pairwise (fun x y => x.1 < y.1) ∧ ∀ e ∈ m, e.2 ≠ d e.1

theorem Sparse.wf_iff_rising [DecidableEq α] (d : Nat → α) (m : List (Nat × α)) :
    Sparse.wf d m = true ↔ Sparse.Rising d m := by
  induction m with
  | nil => simp [Sparse.wf, Sparse.Rising]
  | cons e r ih =>
    obtain ⟨k, v⟩ := e
    cases r with
    | nil => simp [Sparse.wf, Sparse.Rising]
    | cons e' r =>
      obtain ⟨k', v'⟩ := e'
      simp only [Sparse.wf, Bool.and_eq_true, decide_eq_true_eq, ih, Sparse.Rising, List.pairwise_cons,
        List.mem_cons, forall_eq_or_imp]
      constructor
      · rintro ⟨⟨h1, h2⟩, ⟨h3, h4⟩, h5, h6⟩
        exact ⟨⟨⟨h2, fun e he => lt_trans h2 (h3 e he)⟩, h3, h4⟩, h1, h5, h6⟩
      · rintro ⟨⟨⟨h2, _⟩, h3, h4⟩, h1, h5, h6⟩
        exact ⟨⟨h1, h2⟩, ⟨h3, h4⟩, h5, h6⟩

theorem Sparse.rising_filter {d : Nat → α} {m : List (Nat × α)} (h : Sparse.Rising d m)
    (p : Nat × α → Bool) : Sparse.Rising d (m.filter p) :=
  ⟨h.1.filter p, fun e he => h.2 e (List.mem_of_mem_filter he)⟩

theorem Sparse.rising_place {d : Nat → α} {a : Nat} {x : α} {m : List (Nat × α)} (h : Sparse.Rising d m)
    (ha : ∀ e ∈ m, e.1 ≠ a) (hx : x ≠ d a) : Sparse.Rising d (Sparse.place a x m) := by
  have mem : ∀ (m : List (Nat × α)) e, e ∈ Sparse.place a x m → e = (a, x) ∨ e ∈ m := by
    intro m
    induction m with
    | nil => simp [Sparse.place]
    | cons y r ih =>
      intro e he
      obtain ⟨k, v⟩ := y
      simp only [Sparse.place] at he
      split at he
      · simpa using he
      · rcases List.mem_cons.1 he with h | h
        · exact .inr (by simp [h])
        · exact (ih e h).imp_right (List.mem_cons_of_mem _)
  refine ⟨?_, fun e he => ?_⟩
  · have hp := h.1
    clear h
    induction m with
    | nil => simp [Sparse.place]
    | cons y r ih =>
      obtain ⟨k, v⟩ := y
      obtain ⟨h1, h2⟩ := List.pairwise_cons.1 hp
      simp only [Sparse.place]
      split
      · rename_i hak
        exact List.pairwise_cons.2 ⟨fun e he => by
          rcases List.mem_cons.1 he with h | h
          · simpa [h] using hak
          · exact lt_trans hak (h1 e h), hp⟩
      · rename_i hak
        have hne : k ≠ a := ha (k, v) (by simp)
        refine List.pairwise_cons.2 ⟨fun e he => ?_, ih (fun e he => ha e (by simp [he])) h2⟩
        rcases mem r e he with h | h
        · subst h; simp only; omega
        · exact h1 e h
  · rcases mem m e he with h' | h'
    · subst h'; exact hx
    · exact h.2 e h'

/-- A write keeps the canonical form. -/
theorem Sparse.wf_put [DecidableEq α] {d : Nat → α} {m : List (Nat × α)} (h : Sparse.wf d m = true) (a : Nat)
    (x : α) : Sparse.wf d (Sparse.put d m a x) = true := by
  rw [Sparse.wf_iff_rising] at h ⊢
  unfold Sparse.put
  split
  · exact Sparse.rising_filter h _
  · rename_i hx
    exact Sparse.rising_place (Sparse.rising_filter h _) (fun e he => by simpa using (List.mem_filter.1 he).2) hx

/-- Returning keys to their default keeps the canonical form. -/
theorem Sparse.wf_restrict [DecidableEq α] {d : Nat → α} {m : List (Nat × α)} (h : Sparse.wf d m = true)
    (p : Nat → Bool) : Sparse.wf d (Sparse.restrict p m) = true := by
  rw [Sparse.wf_iff_rising] at h ⊢
  exact Sparse.rising_filter h _

theorem Sparse.get_erase_same (d : Nat → α) (m : List (Nat × α)) (a : Nat) :
    Sparse.get d (Sparse.erase m a) a = d a := by
  induction m with
  | nil => rfl
  | cons e r ih =>
    obtain ⟨k, v⟩ := e
    by_cases hk : k = a
    · simpa [Sparse.erase, hk] using ih
    · have h' : a ≠ k := fun h => hk h.symm
      simpa [Sparse.erase, Sparse.get, hk, h'] using ih

theorem Sparse.get_erase_ne (d : Nat → α) (m : List (Nat × α)) {a b : Nat} (h : b ≠ a) :
    Sparse.get d (Sparse.erase m a) b = Sparse.get d m b := by
  induction m with
  | nil => rfl
  | cons e r ih =>
    obtain ⟨k, v⟩ := e
    by_cases hk : k = a
    · have h' : b ≠ k := fun e => h (e.trans hk)
      simpa [Sparse.erase, Sparse.get, hk, h] using ih
    · by_cases hb : b = k
      · simp [Sparse.erase, Sparse.get, hk, hb]
      · simpa [Sparse.erase, Sparse.get, hk, hb] using ih

theorem Sparse.get_place_same (d : Nat → α) (m : List (Nat × α)) (a : Nat) (x : α)
    (h : ∀ e ∈ m, e.1 ≠ a) : Sparse.get d (Sparse.place a x m) a = x := by
  induction m with
  | nil => simp [Sparse.place, Sparse.get]
  | cons e r ih =>
    obtain ⟨k, v⟩ := e
    have hk : k ≠ a := h (k, v) (by simp)
    simp only [Sparse.place]
    split
    · simp [Sparse.get]
    · simpa [Sparse.get, Ne.symm hk] using ih fun e he => h e (by simp [he])

theorem Sparse.get_place_ne (d : Nat → α) (m : List (Nat × α)) {a b : Nat} (x : α) (h : b ≠ a) :
    Sparse.get d (Sparse.place a x m) b = Sparse.get d m b := by
  induction m with
  | nil => simp [Sparse.place, Sparse.get, h]
  | cons e r ih =>
    obtain ⟨k, v⟩ := e
    simp only [Sparse.place]
    split
    · simp [Sparse.get, h]
    · simp only [Sparse.get, ih]

/-- A read after a write to the same key gives the value written. -/
@[simp] theorem Sparse.get_put_same [DecidableEq α] (d : Nat → α) (m : List (Nat × α)) (a : Nat) (x : α) :
    Sparse.get d (Sparse.put d m a x) a = x := by
  unfold Sparse.put
  split
  · rename_i h; rw [Sparse.get_erase_same, h]
  · exact Sparse.get_place_same d _ a x fun e he => by simpa using (List.mem_filter.1 he).2

/-- A write leaves every other key alone. -/
theorem Sparse.get_put_ne [DecidableEq α] (d : Nat → α) (m : List (Nat × α)) {a b : Nat} (x : α) (h : b ≠ a) :
    Sparse.get d (Sparse.put d m a x) b = Sparse.get d m b := by
  unfold Sparse.put
  split
  · exact Sparse.get_erase_ne d m h
  · rw [Sparse.get_place_ne d _ x h, Sparse.get_erase_ne d m h]

/-- A key that is kept reads as before; one that is not reads as its default. -/
theorem Sparse.get_restrict (d : Nat → α) (p : Nat → Bool) (m : List (Nat × α)) (a : Nat) :
    Sparse.get d (Sparse.restrict p m) a = if p a then Sparse.get d m a else d a := by
  induction m with
  | nil => simp [Sparse.restrict, Sparse.get]
  | cons e r ih =>
    obtain ⟨k, v⟩ := e
    unfold Sparse.restrict at ih ⊢
    by_cases hk : p k = true
    · simp only [List.filter_cons_of_pos, hk, Sparse.get, ih]
      split
      · rename_i h; simp [h, hk]
      · rfl
    · have hk' : p k = false := by simpa using hk
      simp only [List.filter_cons, hk', Sparse.get]
      by_cases ha : a = k
      · subst ha; simpa [hk'] using ih
      · simpa [ha] using ih

end Sys2Proof.Machine
end

