-- ==== Sys2Proof/Laws/State.lean ====
section
/-! SUPPORT. What each primitive update of the state leaves alone, field by field, and what reading a
slot, a field or a byte gives after a write. -/

namespace Sys2Proof.Machine

variable (s : State)

/-! ### The dictionary: a write touches the dictionary alone -/

@[simp] theorem State.wr_mem (k : Nat) (v : BitVec 64) : (s.wr k v).mem = s.mem := rfl
@[simp] theorem State.wr_misread (k : Nat) (v : BitVec 64) : (s.wr k v).misread = s.misread := rfl
@[simp] theorem State.wr_time (k : Nat) (v : BitVec 64) : (s.wr k v).time = s.time := rfl
@[simp] theorem State.wr_clk (k : Nat) (v : BitVec 64) : (s.wr k v).clk = s.clk := rfl
@[simp] theorem State.wr_ccs (k : Nat) (v : BitVec 64) : (s.wr k v).ccs = s.ccs := rfl
@[simp] theorem State.wr_mgt (k : Nat) (v : BitVec 64) : (s.wr k v).mgt = s.mgt := rfl
@[simp] theorem State.wr_lanes (k : Nat) (v : BitVec 64) : (s.wr k v).lanes = s.lanes := rfl
@[simp] theorem State.wr_eyes (k : Nat) (v : BitVec 64) : (s.wr k v).eyes = s.eyes := rfl
@[simp] theorem State.wr_cnd (k : Nat) (v : BitVec 64) : (s.wr k v).cnd = s.cnd := rfl
@[simp] theorem State.wr_spx (k : Nat) (v : BitVec 64) : (s.wr k v).spx = s.spx := rfl
@[simp] theorem State.wr_canopy (k : Nat) (v : BitVec 64) : (s.wr k v).canopy = s.canopy := rfl
@[simp] theorem State.wr_spg (k : Nat) (v : BitVec 64) : (s.wr k v).spg = s.spg := rfl
@[simp] theorem State.wr_scn (k : Nat) (v : BitVec 64) : (s.wr k v).scn = s.scn := rfl
@[simp] theorem State.wr_lnt (k : Nat) (v : BitVec 64) : (s.wr k v).lnt = s.lnt := rfl
@[simp] theorem State.wr_pools (k : Nat) (v : BitVec 64) : (s.wr k v).pools = s.pools := rfl
@[simp] theorem State.wr_tims (k : Nat) (v : BitVec 64) : (s.wr k v).tims = s.tims := rfl
@[simp] theorem State.wr_timServed (k : Nat) (v : BitVec 64) : (s.wr k v).timServed = s.timServed := rfl
@[simp] theorem State.wr_sups (k : Nat) (v : BitVec 64) : (s.wr k v).sups = s.sups := rfl
@[simp] theorem State.wr_mon (k : Nat) (v : BitVec 64) : (s.wr k v).mon = s.mon := rfl
@[simp] theorem State.wr_ddr (k : Nat) (v : BitVec 64) : (s.wr k v).ddr = s.ddr := rfl
@[simp] theorem State.wr_writers (k : Nat) (v : BitVec 64) : (s.wr k v).writers = s.writers := rfl
@[simp] theorem State.wr_trig (k : Nat) (v : BitVec 64) : (s.wr k v).trig = s.trig := rfl
@[simp] theorem State.wr_seqs (k : Nat) (v : BitVec 64) : (s.wr k v).seqs = s.seqs := rfl
@[simp] theorem State.wr_prov (k : Nat) (v : BitVec 64) : (s.wr k v).prov = s.prov := rfl
@[simp] theorem State.wr_pulses (k : Nat) (v : BitVec 64) : (s.wr k v).pulses = s.pulses := rfl
@[simp] theorem State.wr_queues (k : Nat) (v : BitVec 64) : (s.wr k v).queues = s.queues := rfl
@[simp] theorem State.wr_dma (k : Nat) (v : BitVec 64) : (s.wr k v).dma = s.dma := rfl
@[simp] theorem State.wr_feeds (k : Nat) (v : BitVec 64) : (s.wr k v).feeds = s.feeds := rfl
@[simp] theorem State.wr_pwr (k : Nat) (v : BitVec 64) : (s.wr k v).pwr = s.pwr := rfl
@[simp] theorem State.wr_boot (k : Nat) (v : BitVec 64) : (s.wr k v).boot = s.boot := rfl
@[simp] theorem State.wr_hlt (k : Nat) (v : BitVec 64) : (s.wr k v).hlt = s.hlt := rfl
@[simp] theorem State.wr_drv (k : Nat) (v : BitVec 64) : (s.wr k v).drv = s.drv := rfl
@[simp] theorem State.wr_ep (k : Nat) (v : BitVec 64) : (s.wr k v).ep = s.ep := rfl
@[simp] theorem State.wr_heldReqs (k : Nat) (v : BitVec 64) : (s.wr k v).heldReqs = s.heldReqs := rfl
@[simp] theorem State.wr_fab (k : Nat) (v : BitVec 64) : (s.wr k v).fab = s.fab := rfl
@[simp] theorem State.wr_jtag (k : Nat) (v : BitVec 64) : (s.wr k v).jtag = s.jtag := rfl
@[simp] theorem State.wr_out (k : Nat) (v : BitVec 64) : (s.wr k v).out = s.out := rfl
@[simp] theorem State.wr_fresh (k : Nat) (v : BitVec 64) : (s.wr k v).fresh = s.fresh := rfl
@[simp] theorem State.wr_pending (k : Nat) (v : BitVec 64) : (s.wr k v).pending = s.pending := rfl

/-! The other writes of a slot are writes. -/

theorem State.setFld_eq (k hi lo x : Nat) : s.setFld k hi lo x = s.wr k (setF (s.rd k) hi lo x) := rfl
theorem State.putBit_eq (k b : Nat) (x : Bool) : s.putBit k b x = s.wr k (setBit (s.rd k) b x) := rfl
theorem State.wrN_eq (k n : Nat) : s.wrN k n = s.wr k (BitVec.ofNat 64 n) := rfl
theorem State.wrI_eq (k w : Nat) (i : Int) : s.wrI k w i = s.wr k (BitVec.ofNat 64 (ofSigned w i)) := rfl
theorem State.bump_eq (k w n : Nat) : s.bump k w n = s.wr k (BitVec.ofNat 64 ((s.rdN k + n) % 2 ^ w)) := rfl
theorem State.bumpSat_eq (k w n : Nat) : s.bumpSat k w n = s.wr k (BitVec.ofNat 64 (satAdd w (s.rdN k) n)) := rfl

/-! ### Messages: sending touches the messages alone -/

@[simp] theorem State.send_regs (m : OutMsg) : (s.send m).regs = s.regs := rfl
@[simp] theorem State.send_mem (m : OutMsg) : (s.send m).mem = s.mem := rfl
@[simp] theorem State.send_misread (m : OutMsg) : (s.send m).misread = s.misread := rfl
@[simp] theorem State.send_time (m : OutMsg) : (s.send m).time = s.time := rfl
@[simp] theorem State.send_clk (m : OutMsg) : (s.send m).clk = s.clk := rfl
@[simp] theorem State.send_ccs (m : OutMsg) : (s.send m).ccs = s.ccs := rfl
@[simp] theorem State.send_mgt (m : OutMsg) : (s.send m).mgt = s.mgt := rfl
@[simp] theorem State.send_lanes (m : OutMsg) : (s.send m).lanes = s.lanes := rfl
@[simp] theorem State.send_eyes (m : OutMsg) : (s.send m).eyes = s.eyes := rfl
@[simp] theorem State.send_cnd (m : OutMsg) : (s.send m).cnd = s.cnd := rfl
@[simp] theorem State.send_spx (m : OutMsg) : (s.send m).spx = s.spx := rfl
@[simp] theorem State.send_canopy (m : OutMsg) : (s.send m).canopy = s.canopy := rfl
@[simp] theorem State.send_spg (m : OutMsg) : (s.send m).spg = s.spg := rfl
@[simp] theorem State.send_scn (m : OutMsg) : (s.send m).scn = s.scn := rfl
@[simp] theorem State.send_lnt (m : OutMsg) : (s.send m).lnt = s.lnt := rfl
@[simp] theorem State.send_pools (m : OutMsg) : (s.send m).pools = s.pools := rfl
@[simp] theorem State.send_tims (m : OutMsg) : (s.send m).tims = s.tims := rfl
@[simp] theorem State.send_timServed (m : OutMsg) : (s.send m).timServed = s.timServed := rfl
@[simp] theorem State.send_sups (m : OutMsg) : (s.send m).sups = s.sups := rfl
@[simp] theorem State.send_mon (m : OutMsg) : (s.send m).mon = s.mon := rfl
@[simp] theorem State.send_ddr (m : OutMsg) : (s.send m).ddr = s.ddr := rfl
@[simp] theorem State.send_writers (m : OutMsg) : (s.send m).writers = s.writers := rfl
@[simp] theorem State.send_trig (m : OutMsg) : (s.send m).trig = s.trig := rfl
@[simp] theorem State.send_seqs (m : OutMsg) : (s.send m).seqs = s.seqs := rfl
@[simp] theorem State.send_prov (m : OutMsg) : (s.send m).prov = s.prov := rfl
@[simp] theorem State.send_pulses (m : OutMsg) : (s.send m).pulses = s.pulses := rfl
@[simp] theorem State.send_queues (m : OutMsg) : (s.send m).queues = s.queues := rfl
@[simp] theorem State.send_dma (m : OutMsg) : (s.send m).dma = s.dma := rfl
@[simp] theorem State.send_feeds (m : OutMsg) : (s.send m).feeds = s.feeds := rfl
@[simp] theorem State.send_pwr (m : OutMsg) : (s.send m).pwr = s.pwr := rfl
@[simp] theorem State.send_boot (m : OutMsg) : (s.send m).boot = s.boot := rfl
@[simp] theorem State.send_hlt (m : OutMsg) : (s.send m).hlt = s.hlt := rfl
@[simp] theorem State.send_drv (m : OutMsg) : (s.send m).drv = s.drv := rfl
@[simp] theorem State.send_ep (m : OutMsg) : (s.send m).ep = s.ep := rfl
@[simp] theorem State.send_heldReqs (m : OutMsg) : (s.send m).heldReqs = s.heldReqs := rfl
@[simp] theorem State.send_fab (m : OutMsg) : (s.send m).fab = s.fab := rfl
@[simp] theorem State.send_jtag (m : OutMsg) : (s.send m).jtag = s.jtag := rfl
@[simp] theorem State.send_fresh (m : OutMsg) : (s.send m).fresh = s.fresh := rfl
@[simp] theorem State.send_pending (m : OutMsg) : (s.send m).pending = s.pending := rfl
@[simp] theorem State.send_out (m : OutMsg) : (s.send m).out = s.out ++ [m] := rfl

/-! ### Device memory: a write touches memory alone -/

@[simp] theorem State.wrByte_regs (a : Nat) (b : BitVec 8) : (s.wrByte a b).regs = s.regs := by
  unfold State.wrByte; split <;> rfl
@[simp] theorem State.wrByte_time (a : Nat) (b : BitVec 8) : (s.wrByte a b).time = s.time := by
  unfold State.wrByte; split <;> rfl
@[simp] theorem State.wrByte_clk (a : Nat) (b : BitVec 8) : (s.wrByte a b).clk = s.clk := by
  unfold State.wrByte; split <;> rfl
@[simp] theorem State.wrByte_ccs (a : Nat) (b : BitVec 8) : (s.wrByte a b).ccs = s.ccs := by
  unfold State.wrByte; split <;> rfl
@[simp] theorem State.wrByte_mgt (a : Nat) (b : BitVec 8) : (s.wrByte a b).mgt = s.mgt := by
  unfold State.wrByte; split <;> rfl
@[simp] theorem State.wrByte_lanes (a : Nat) (b : BitVec 8) : (s.wrByte a b).lanes = s.lanes := by
  unfold State.wrByte; split <;> rfl
@[simp] theorem State.wrByte_eyes (a : Nat) (b : BitVec 8) : (s.wrByte a b).eyes = s.eyes := by
  unfold State.wrByte; split <;> rfl
@[simp] theorem State.wrByte_cnd (a : Nat) (b : BitVec 8) : (s.wrByte a b).cnd = s.cnd := by
  unfold State.wrByte; split <;> rfl
@[simp] theorem State.wrByte_spx (a : Nat) (b : BitVec 8) : (s.wrByte a b).spx = s.spx := by
  unfold State.wrByte; split <;> rfl
@[simp] theorem State.wrByte_canopy (a : Nat) (b : BitVec 8) : (s.wrByte a b).canopy = s.canopy := by
  unfold State.wrByte; split <;> rfl
@[simp] theorem State.wrByte_spg (a : Nat) (b : BitVec 8) : (s.wrByte a b).spg = s.spg := by
  unfold State.wrByte; split <;> rfl
@[simp] theorem State.wrByte_scn (a : Nat) (b : BitVec 8) : (s.wrByte a b).scn = s.scn := by
  unfold State.wrByte; split <;> rfl
@[simp] theorem State.wrByte_lnt (a : Nat) (b : BitVec 8) : (s.wrByte a b).lnt = s.lnt := by
  unfold State.wrByte; split <;> rfl
@[simp] theorem State.wrByte_pools (a : Nat) (b : BitVec 8) : (s.wrByte a b).pools = s.pools := by
  unfold State.wrByte; split <;> rfl
@[simp] theorem State.wrByte_tims (a : Nat) (b : BitVec 8) : (s.wrByte a b).tims = s.tims := by
  unfold State.wrByte; split <;> rfl
@[simp] theorem State.wrByte_timServed (a : Nat) (b : BitVec 8) : (s.wrByte a b).timServed = s.timServed := by
  unfold State.wrByte; split <;> rfl
@[simp] theorem State.wrByte_sups (a : Nat) (b : BitVec 8) : (s.wrByte a b).sups = s.sups := by
  unfold State.wrByte; split <;> rfl
@[simp] theorem State.wrByte_mon (a : Nat) (b : BitVec 8) : (s.wrByte a b).mon = s.mon := by
  unfold State.wrByte; split <;> rfl
@[simp] theorem State.wrByte_ddr (a : Nat) (b : BitVec 8) : (s.wrByte a b).ddr = s.ddr := by
  unfold State.wrByte; split <;> rfl
@[simp] theorem State.wrByte_writers (a : Nat) (b : BitVec 8) : (s.wrByte a b).writers = s.writers := by
  unfold State.wrByte; split <;> rfl
@[simp] theorem State.wrByte_trig (a : Nat) (b : BitVec 8) : (s.wrByte a b).trig = s.trig := by
  unfold State.wrByte; split <;> rfl
@[simp] theorem State.wrByte_seqs (a : Nat) (b : BitVec 8) : (s.wrByte a b).seqs = s.seqs := by
  unfold State.wrByte; split <;> rfl
@[simp] theorem State.wrByte_prov (a : Nat) (b : BitVec 8) : (s.wrByte a b).prov = s.prov := by
  unfold State.wrByte; split <;> rfl
@[simp] theorem State.wrByte_pulses (a : Nat) (b : BitVec 8) : (s.wrByte a b).pulses = s.pulses := by
  unfold State.wrByte; split <;> rfl
@[simp] theorem State.wrByte_queues (a : Nat) (b : BitVec 8) : (s.wrByte a b).queues = s.queues := by
  unfold State.wrByte; split <;> rfl
@[simp] theorem State.wrByte_dma (a : Nat) (b : BitVec 8) : (s.wrByte a b).dma = s.dma := by
  unfold State.wrByte; split <;> rfl
@[simp] theorem State.wrByte_feeds (a : Nat) (b : BitVec 8) : (s.wrByte a b).feeds = s.feeds := by
  unfold State.wrByte; split <;> rfl
@[simp] theorem State.wrByte_pwr (a : Nat) (b : BitVec 8) : (s.wrByte a b).pwr = s.pwr := by
  unfold State.wrByte; split <;> rfl
@[simp] theorem State.wrByte_boot (a : Nat) (b : BitVec 8) : (s.wrByte a b).boot = s.boot := by
  unfold State.wrByte; split <;> rfl
@[simp] theorem State.wrByte_hlt (a : Nat) (b : BitVec 8) : (s.wrByte a b).hlt = s.hlt := by
  unfold State.wrByte; split <;> rfl
@[simp] theorem State.wrByte_drv (a : Nat) (b : BitVec 8) : (s.wrByte a b).drv = s.drv := by
  unfold State.wrByte; split <;> rfl
@[simp] theorem State.wrByte_ep (a : Nat) (b : BitVec 8) : (s.wrByte a b).ep = s.ep := by
  unfold State.wrByte; split <;> rfl
@[simp] theorem State.wrByte_heldReqs (a : Nat) (b : BitVec 8) : (s.wrByte a b).heldReqs = s.heldReqs := by
  unfold State.wrByte; split <;> rfl
@[simp] theorem State.wrByte_fab (a : Nat) (b : BitVec 8) : (s.wrByte a b).fab = s.fab := by
  unfold State.wrByte; split <;> rfl
@[simp] theorem State.wrByte_jtag (a : Nat) (b : BitVec 8) : (s.wrByte a b).jtag = s.jtag := by
  unfold State.wrByte; split <;> rfl
@[simp] theorem State.wrByte_out (a : Nat) (b : BitVec 8) : (s.wrByte a b).out = s.out := by
  unfold State.wrByte; split <;> rfl
@[simp] theorem State.wrByte_fresh (a : Nat) (b : BitVec 8) : (s.wrByte a b).fresh = s.fresh := by
  unfold State.wrByte; split <;> rfl
@[simp] theorem State.wrByte_pending (a : Nat) (b : BitVec 8) : (s.wrByte a b).pending = s.pending := by
  unfold State.wrByte; split <;> rfl
@[simp] theorem State.wrBytes_regs (a : Nat) (bs : List (BitVec 8)) : (s.wrBytes a bs).regs = s.regs := by
  induction bs generalizing s a with
  | nil => rfl
  | cons b r ih => simp [State.wrBytes, ih]
@[simp] theorem State.wrBytes_time (a : Nat) (bs : List (BitVec 8)) : (s.wrBytes a bs).time = s.time := by
  induction bs generalizing s a with
  | nil => rfl
  | cons b r ih => simp [State.wrBytes, ih]
@[simp] theorem State.wrBytes_clk (a : Nat) (bs : List (BitVec 8)) : (s.wrBytes a bs).clk = s.clk := by
  induction bs generalizing s a with
  | nil => rfl
  | cons b r ih => simp [State.wrBytes, ih]
@[simp] theorem State.wrBytes_ccs (a : Nat) (bs : List (BitVec 8)) : (s.wrBytes a bs).ccs = s.ccs := by
  induction bs generalizing s a with
  | nil => rfl
  | cons b r ih => simp [State.wrBytes, ih]
@[simp] theorem State.wrBytes_mgt (a : Nat) (bs : List (BitVec 8)) : (s.wrBytes a bs).mgt = s.mgt := by
  induction bs generalizing s a with
  | nil => rfl
  | cons b r ih => simp [State.wrBytes, ih]
@[simp] theorem State.wrBytes_lanes (a : Nat) (bs : List (BitVec 8)) : (s.wrBytes a bs).lanes = s.lanes := by
  induction bs generalizing s a with
  | nil => rfl
  | cons b r ih => simp [State.wrBytes, ih]
@[simp] theorem State.wrBytes_eyes (a : Nat) (bs : List (BitVec 8)) : (s.wrBytes a bs).eyes = s.eyes := by
  induction bs generalizing s a with
  | nil => rfl
  | cons b r ih => simp [State.wrBytes, ih]
@[simp] theorem State.wrBytes_cnd (a : Nat) (bs : List (BitVec 8)) : (s.wrBytes a bs).cnd = s.cnd := by
  induction bs generalizing s a with
  | nil => rfl
  | cons b r ih => simp [State.wrBytes, ih]
@[simp] theorem State.wrBytes_spx (a : Nat) (bs : List (BitVec 8)) : (s.wrBytes a bs).spx = s.spx := by
  induction bs generalizing s a with
  | nil => rfl
  | cons b r ih => simp [State.wrBytes, ih]
@[simp] theorem State.wrBytes_canopy (a : Nat) (bs : List (BitVec 8)) : (s.wrBytes a bs).canopy = s.canopy := by
  induction bs generalizing s a with
  | nil => rfl
  | cons b r ih => simp [State.wrBytes, ih]
@[simp] theorem State.wrBytes_spg (a : Nat) (bs : List (BitVec 8)) : (s.wrBytes a bs).spg = s.spg := by
  induction bs generalizing s a with
  | nil => rfl
  | cons b r ih => simp [State.wrBytes, ih]
@[simp] theorem State.wrBytes_scn (a : Nat) (bs : List (BitVec 8)) : (s.wrBytes a bs).scn = s.scn := by
  induction bs generalizing s a with
  | nil => rfl
  | cons b r ih => simp [State.wrBytes, ih]
@[simp] theorem State.wrBytes_lnt (a : Nat) (bs : List (BitVec 8)) : (s.wrBytes a bs).lnt = s.lnt := by
  induction bs generalizing s a with
  | nil => rfl
  | cons b r ih => simp [State.wrBytes, ih]
@[simp] theorem State.wrBytes_pools (a : Nat) (bs : List (BitVec 8)) : (s.wrBytes a bs).pools = s.pools := by
  induction bs generalizing s a with
  | nil => rfl
  | cons b r ih => simp [State.wrBytes, ih]
@[simp] theorem State.wrBytes_tims (a : Nat) (bs : List (BitVec 8)) : (s.wrBytes a bs).tims = s.tims := by
  induction bs generalizing s a with
  | nil => rfl
  | cons b r ih => simp [State.wrBytes, ih]
@[simp] theorem State.wrBytes_timServed (a : Nat) (bs : List (BitVec 8)) : (s.wrBytes a bs).timServed = s.timServed := by
  induction bs generalizing s a with
  | nil => rfl
  | cons b r ih => simp [State.wrBytes, ih]
@[simp] theorem State.wrBytes_sups (a : Nat) (bs : List (BitVec 8)) : (s.wrBytes a bs).sups = s.sups := by
  induction bs generalizing s a with
  | nil => rfl
  | cons b r ih => simp [State.wrBytes, ih]
@[simp] theorem State.wrBytes_mon (a : Nat) (bs : List (BitVec 8)) : (s.wrBytes a bs).mon = s.mon := by
  induction bs generalizing s a with
  | nil => rfl
  | cons b r ih => simp [State.wrBytes, ih]
@[simp] theorem State.wrBytes_ddr (a : Nat) (bs : List (BitVec 8)) : (s.wrBytes a bs).ddr = s.ddr := by
  induction bs generalizing s a with
  | nil => rfl
  | cons b r ih => simp [State.wrBytes, ih]
@[simp] theorem State.wrBytes_writers (a : Nat) (bs : List (BitVec 8)) : (s.wrBytes a bs).writers = s.writers := by
  induction bs generalizing s a with
  | nil => rfl
  | cons b r ih => simp [State.wrBytes, ih]
@[simp] theorem State.wrBytes_trig (a : Nat) (bs : List (BitVec 8)) : (s.wrBytes a bs).trig = s.trig := by
  induction bs generalizing s a with
  | nil => rfl
  | cons b r ih => simp [State.wrBytes, ih]
@[simp] theorem State.wrBytes_seqs (a : Nat) (bs : List (BitVec 8)) : (s.wrBytes a bs).seqs = s.seqs := by
  induction bs generalizing s a with
  | nil => rfl
  | cons b r ih => simp [State.wrBytes, ih]
@[simp] theorem State.wrBytes_prov (a : Nat) (bs : List (BitVec 8)) : (s.wrBytes a bs).prov = s.prov := by
  induction bs generalizing s a with
  | nil => rfl
  | cons b r ih => simp [State.wrBytes, ih]
@[simp] theorem State.wrBytes_pulses (a : Nat) (bs : List (BitVec 8)) : (s.wrBytes a bs).pulses = s.pulses := by
  induction bs generalizing s a with
  | nil => rfl
  | cons b r ih => simp [State.wrBytes, ih]
@[simp] theorem State.wrBytes_queues (a : Nat) (bs : List (BitVec 8)) : (s.wrBytes a bs).queues = s.queues := by
  induction bs generalizing s a with
  | nil => rfl
  | cons b r ih => simp [State.wrBytes, ih]
@[simp] theorem State.wrBytes_dma (a : Nat) (bs : List (BitVec 8)) : (s.wrBytes a bs).dma = s.dma := by
  induction bs generalizing s a with
  | nil => rfl
  | cons b r ih => simp [State.wrBytes, ih]
@[simp] theorem State.wrBytes_feeds (a : Nat) (bs : List (BitVec 8)) : (s.wrBytes a bs).feeds = s.feeds := by
  induction bs generalizing s a with
  | nil => rfl
  | cons b r ih => simp [State.wrBytes, ih]
@[simp] theorem State.wrBytes_pwr (a : Nat) (bs : List (BitVec 8)) : (s.wrBytes a bs).pwr = s.pwr := by
  induction bs generalizing s a with
  | nil => rfl
  | cons b r ih => simp [State.wrBytes, ih]
@[simp] theorem State.wrBytes_boot (a : Nat) (bs : List (BitVec 8)) : (s.wrBytes a bs).boot = s.boot := by
  induction bs generalizing s a with
  | nil => rfl
  | cons b r ih => simp [State.wrBytes, ih]
@[simp] theorem State.wrBytes_hlt (a : Nat) (bs : List (BitVec 8)) : (s.wrBytes a bs).hlt = s.hlt := by
  induction bs generalizing s a with
  | nil => rfl
  | cons b r ih => simp [State.wrBytes, ih]
@[simp] theorem State.wrBytes_drv (a : Nat) (bs : List (BitVec 8)) : (s.wrBytes a bs).drv = s.drv := by
  induction bs generalizing s a with
  | nil => rfl
  | cons b r ih => simp [State.wrBytes, ih]
@[simp] theorem State.wrBytes_ep (a : Nat) (bs : List (BitVec 8)) : (s.wrBytes a bs).ep = s.ep := by
  induction bs generalizing s a with
  | nil => rfl
  | cons b r ih => simp [State.wrBytes, ih]
@[simp] theorem State.wrBytes_heldReqs (a : Nat) (bs : List (BitVec 8)) : (s.wrBytes a bs).heldReqs = s.heldReqs := by
  induction bs generalizing s a with
  | nil => rfl
  | cons b r ih => simp [State.wrBytes, ih]
@[simp] theorem State.wrBytes_fab (a : Nat) (bs : List (BitVec 8)) : (s.wrBytes a bs).fab = s.fab := by
  induction bs generalizing s a with
  | nil => rfl
  | cons b r ih => simp [State.wrBytes, ih]
@[simp] theorem State.wrBytes_jtag (a : Nat) (bs : List (BitVec 8)) : (s.wrBytes a bs).jtag = s.jtag := by
  induction bs generalizing s a with
  | nil => rfl
  | cons b r ih => simp [State.wrBytes, ih]
@[simp] theorem State.wrBytes_out (a : Nat) (bs : List (BitVec 8)) : (s.wrBytes a bs).out = s.out := by
  induction bs generalizing s a with
  | nil => rfl
  | cons b r ih => simp [State.wrBytes, ih]
@[simp] theorem State.wrBytes_fresh (a : Nat) (bs : List (BitVec 8)) : (s.wrBytes a bs).fresh = s.fresh := by
  induction bs generalizing s a with
  | nil => rfl
  | cons b r ih => simp [State.wrBytes, ih]
@[simp] theorem State.wrBytes_pending (a : Nat) (bs : List (BitVec 8)) : (s.wrBytes a bs).pending = s.pending := by
  induction bs generalizing s a with
  | nil => rfl
  | cons b r ih => simp [State.wrBytes, ih]

/-! ### Parts of the device: an update touches its own part alone -/

@[simp] theorem State.setBoot_regs (x : Boot) : (s.setBoot x).regs = s.regs := rfl
@[simp] theorem State.setBoot_mem (x : Boot) : (s.setBoot x).mem = s.mem := rfl
@[simp] theorem State.setBoot_misread (x : Boot) : (s.setBoot x).misread = s.misread := rfl
@[simp] theorem State.setBoot_time (x : Boot) : (s.setBoot x).time = s.time := rfl
@[simp] theorem State.setBoot_clk (x : Boot) : (s.setBoot x).clk = s.clk := rfl
@[simp] theorem State.setBoot_ccs (x : Boot) : (s.setBoot x).ccs = s.ccs := rfl
@[simp] theorem State.setBoot_mgt (x : Boot) : (s.setBoot x).mgt = s.mgt := rfl
@[simp] theorem State.setBoot_lanes (x : Boot) : (s.setBoot x).lanes = s.lanes := rfl
@[simp] theorem State.setBoot_eyes (x : Boot) : (s.setBoot x).eyes = s.eyes := rfl
@[simp] theorem State.setBoot_cnd (x : Boot) : (s.setBoot x).cnd = s.cnd := rfl
@[simp] theorem State.setBoot_spx (x : Boot) : (s.setBoot x).spx = s.spx := rfl
@[simp] theorem State.setBoot_canopy (x : Boot) : (s.setBoot x).canopy = s.canopy := rfl
@[simp] theorem State.setBoot_spg (x : Boot) : (s.setBoot x).spg = s.spg := rfl
@[simp] theorem State.setBoot_scn (x : Boot) : (s.setBoot x).scn = s.scn := rfl
@[simp] theorem State.setBoot_lnt (x : Boot) : (s.setBoot x).lnt = s.lnt := rfl
@[simp] theorem State.setBoot_pools (x : Boot) : (s.setBoot x).pools = s.pools := rfl
@[simp] theorem State.setBoot_tims (x : Boot) : (s.setBoot x).tims = s.tims := rfl
@[simp] theorem State.setBoot_timServed (x : Boot) : (s.setBoot x).timServed = s.timServed := rfl
@[simp] theorem State.setBoot_sups (x : Boot) : (s.setBoot x).sups = s.sups := rfl
@[simp] theorem State.setBoot_mon (x : Boot) : (s.setBoot x).mon = s.mon := rfl
@[simp] theorem State.setBoot_ddr (x : Boot) : (s.setBoot x).ddr = s.ddr := rfl
@[simp] theorem State.setBoot_writers (x : Boot) : (s.setBoot x).writers = s.writers := rfl
@[simp] theorem State.setBoot_trig (x : Boot) : (s.setBoot x).trig = s.trig := rfl
@[simp] theorem State.setBoot_seqs (x : Boot) : (s.setBoot x).seqs = s.seqs := rfl
@[simp] theorem State.setBoot_prov (x : Boot) : (s.setBoot x).prov = s.prov := rfl
@[simp] theorem State.setBoot_pulses (x : Boot) : (s.setBoot x).pulses = s.pulses := rfl
@[simp] theorem State.setBoot_queues (x : Boot) : (s.setBoot x).queues = s.queues := rfl
@[simp] theorem State.setBoot_dma (x : Boot) : (s.setBoot x).dma = s.dma := rfl
@[simp] theorem State.setBoot_feeds (x : Boot) : (s.setBoot x).feeds = s.feeds := rfl
@[simp] theorem State.setBoot_pwr (x : Boot) : (s.setBoot x).pwr = s.pwr := rfl
@[simp] theorem State.setBoot_boot (x : Boot) : (s.setBoot x).boot = x := rfl
@[simp] theorem State.setBoot_hlt (x : Boot) : (s.setBoot x).hlt = s.hlt := rfl
@[simp] theorem State.setBoot_drv (x : Boot) : (s.setBoot x).drv = s.drv := rfl
@[simp] theorem State.setBoot_ep (x : Boot) : (s.setBoot x).ep = s.ep := rfl
@[simp] theorem State.setBoot_heldReqs (x : Boot) : (s.setBoot x).heldReqs = s.heldReqs := rfl
@[simp] theorem State.setBoot_fab (x : Boot) : (s.setBoot x).fab = s.fab := rfl
@[simp] theorem State.setBoot_jtag (x : Boot) : (s.setBoot x).jtag = s.jtag := rfl
@[simp] theorem State.setBoot_out (x : Boot) : (s.setBoot x).out = s.out := rfl
@[simp] theorem State.setBoot_fresh (x : Boot) : (s.setBoot x).fresh = s.fresh := rfl
@[simp] theorem State.setBoot_pending (x : Boot) : (s.setBoot x).pending = s.pending := rfl
@[simp] theorem State.setHlt_regs (x : Hlt) : (s.setHlt x).regs = s.regs := rfl
@[simp] theorem State.setHlt_mem (x : Hlt) : (s.setHlt x).mem = s.mem := rfl
@[simp] theorem State.setHlt_misread (x : Hlt) : (s.setHlt x).misread = s.misread := rfl
@[simp] theorem State.setHlt_time (x : Hlt) : (s.setHlt x).time = s.time := rfl
@[simp] theorem State.setHlt_clk (x : Hlt) : (s.setHlt x).clk = s.clk := rfl
@[simp] theorem State.setHlt_ccs (x : Hlt) : (s.setHlt x).ccs = s.ccs := rfl
@[simp] theorem State.setHlt_mgt (x : Hlt) : (s.setHlt x).mgt = s.mgt := rfl
@[simp] theorem State.setHlt_lanes (x : Hlt) : (s.setHlt x).lanes = s.lanes := rfl
@[simp] theorem State.setHlt_eyes (x : Hlt) : (s.setHlt x).eyes = s.eyes := rfl
@[simp] theorem State.setHlt_cnd (x : Hlt) : (s.setHlt x).cnd = s.cnd := rfl
@[simp] theorem State.setHlt_spx (x : Hlt) : (s.setHlt x).spx = s.spx := rfl
@[simp] theorem State.setHlt_canopy (x : Hlt) : (s.setHlt x).canopy = s.canopy := rfl
@[simp] theorem State.setHlt_spg (x : Hlt) : (s.setHlt x).spg = s.spg := rfl
@[simp] theorem State.setHlt_scn (x : Hlt) : (s.setHlt x).scn = s.scn := rfl
@[simp] theorem State.setHlt_lnt (x : Hlt) : (s.setHlt x).lnt = s.lnt := rfl
@[simp] theorem State.setHlt_pools (x : Hlt) : (s.setHlt x).pools = s.pools := rfl
@[simp] theorem State.setHlt_tims (x : Hlt) : (s.setHlt x).tims = s.tims := rfl
@[simp] theorem State.setHlt_timServed (x : Hlt) : (s.setHlt x).timServed = s.timServed := rfl
@[simp] theorem State.setHlt_sups (x : Hlt) : (s.setHlt x).sups = s.sups := rfl
@[simp] theorem State.setHlt_mon (x : Hlt) : (s.setHlt x).mon = s.mon := rfl
@[simp] theorem State.setHlt_ddr (x : Hlt) : (s.setHlt x).ddr = s.ddr := rfl
@[simp] theorem State.setHlt_writers (x : Hlt) : (s.setHlt x).writers = s.writers := rfl
@[simp] theorem State.setHlt_trig (x : Hlt) : (s.setHlt x).trig = s.trig := rfl
@[simp] theorem State.setHlt_seqs (x : Hlt) : (s.setHlt x).seqs = s.seqs := rfl
@[simp] theorem State.setHlt_prov (x : Hlt) : (s.setHlt x).prov = s.prov := rfl
@[simp] theorem State.setHlt_pulses (x : Hlt) : (s.setHlt x).pulses = s.pulses := rfl
@[simp] theorem State.setHlt_queues (x : Hlt) : (s.setHlt x).queues = s.queues := rfl
@[simp] theorem State.setHlt_dma (x : Hlt) : (s.setHlt x).dma = s.dma := rfl
@[simp] theorem State.setHlt_feeds (x : Hlt) : (s.setHlt x).feeds = s.feeds := rfl
@[simp] theorem State.setHlt_pwr (x : Hlt) : (s.setHlt x).pwr = s.pwr := rfl
@[simp] theorem State.setHlt_boot (x : Hlt) : (s.setHlt x).boot = s.boot := rfl
@[simp] theorem State.setHlt_hlt (x : Hlt) : (s.setHlt x).hlt = x := rfl
@[simp] theorem State.setHlt_drv (x : Hlt) : (s.setHlt x).drv = s.drv := rfl
@[simp] theorem State.setHlt_ep (x : Hlt) : (s.setHlt x).ep = s.ep := rfl
@[simp] theorem State.setHlt_heldReqs (x : Hlt) : (s.setHlt x).heldReqs = s.heldReqs := rfl
@[simp] theorem State.setHlt_fab (x : Hlt) : (s.setHlt x).fab = s.fab := rfl
@[simp] theorem State.setHlt_jtag (x : Hlt) : (s.setHlt x).jtag = s.jtag := rfl
@[simp] theorem State.setHlt_out (x : Hlt) : (s.setHlt x).out = s.out := rfl
@[simp] theorem State.setHlt_fresh (x : Hlt) : (s.setHlt x).fresh = s.fresh := rfl
@[simp] theorem State.setHlt_pending (x : Hlt) : (s.setHlt x).pending = s.pending := rfl
@[simp] theorem State.setScn_regs (x : Scn) : (s.setScn x).regs = s.regs := rfl
@[simp] theorem State.setScn_mem (x : Scn) : (s.setScn x).mem = s.mem := rfl
@[simp] theorem State.setScn_misread (x : Scn) : (s.setScn x).misread = s.misread := rfl
@[simp] theorem State.setScn_time (x : Scn) : (s.setScn x).time = s.time := rfl
@[simp] theorem State.setScn_clk (x : Scn) : (s.setScn x).clk = s.clk := rfl
@[simp] theorem State.setScn_ccs (x : Scn) : (s.setScn x).ccs = s.ccs := rfl
@[simp] theorem State.setScn_mgt (x : Scn) : (s.setScn x).mgt = s.mgt := rfl
@[simp] theorem State.setScn_lanes (x : Scn) : (s.setScn x).lanes = s.lanes := rfl
@[simp] theorem State.setScn_eyes (x : Scn) : (s.setScn x).eyes = s.eyes := rfl
@[simp] theorem State.setScn_cnd (x : Scn) : (s.setScn x).cnd = s.cnd := rfl
@[simp] theorem State.setScn_spx (x : Scn) : (s.setScn x).spx = s.spx := rfl
@[simp] theorem State.setScn_canopy (x : Scn) : (s.setScn x).canopy = s.canopy := rfl
@[simp] theorem State.setScn_spg (x : Scn) : (s.setScn x).spg = s.spg := rfl
@[simp] theorem State.setScn_scn (x : Scn) : (s.setScn x).scn = x := rfl
@[simp] theorem State.setScn_lnt (x : Scn) : (s.setScn x).lnt = s.lnt := rfl
@[simp] theorem State.setScn_pools (x : Scn) : (s.setScn x).pools = s.pools := rfl
@[simp] theorem State.setScn_tims (x : Scn) : (s.setScn x).tims = s.tims := rfl
@[simp] theorem State.setScn_timServed (x : Scn) : (s.setScn x).timServed = s.timServed := rfl
@[simp] theorem State.setScn_sups (x : Scn) : (s.setScn x).sups = s.sups := rfl
@[simp] theorem State.setScn_mon (x : Scn) : (s.setScn x).mon = s.mon := rfl
@[simp] theorem State.setScn_ddr (x : Scn) : (s.setScn x).ddr = s.ddr := rfl
@[simp] theorem State.setScn_writers (x : Scn) : (s.setScn x).writers = s.writers := rfl
@[simp] theorem State.setScn_trig (x : Scn) : (s.setScn x).trig = s.trig := rfl
@[simp] theorem State.setScn_seqs (x : Scn) : (s.setScn x).seqs = s.seqs := rfl
@[simp] theorem State.setScn_prov (x : Scn) : (s.setScn x).prov = s.prov := rfl
@[simp] theorem State.setScn_pulses (x : Scn) : (s.setScn x).pulses = s.pulses := rfl
@[simp] theorem State.setScn_queues (x : Scn) : (s.setScn x).queues = s.queues := rfl
@[simp] theorem State.setScn_dma (x : Scn) : (s.setScn x).dma = s.dma := rfl
@[simp] theorem State.setScn_feeds (x : Scn) : (s.setScn x).feeds = s.feeds := rfl
@[simp] theorem State.setScn_pwr (x : Scn) : (s.setScn x).pwr = s.pwr := rfl
@[simp] theorem State.setScn_boot (x : Scn) : (s.setScn x).boot = s.boot := rfl
@[simp] theorem State.setScn_hlt (x : Scn) : (s.setScn x).hlt = s.hlt := rfl
@[simp] theorem State.setScn_drv (x : Scn) : (s.setScn x).drv = s.drv := rfl
@[simp] theorem State.setScn_ep (x : Scn) : (s.setScn x).ep = s.ep := rfl
@[simp] theorem State.setScn_heldReqs (x : Scn) : (s.setScn x).heldReqs = s.heldReqs := rfl
@[simp] theorem State.setScn_fab (x : Scn) : (s.setScn x).fab = s.fab := rfl
@[simp] theorem State.setScn_jtag (x : Scn) : (s.setScn x).jtag = s.jtag := rfl
@[simp] theorem State.setScn_out (x : Scn) : (s.setScn x).out = s.out := rfl
@[simp] theorem State.setScn_fresh (x : Scn) : (s.setScn x).fresh = s.fresh := rfl
@[simp] theorem State.setScn_pending (x : Scn) : (s.setScn x).pending = s.pending := rfl

/-! ### Reading after writing -/

/-- A slot reads as it was written. -/
@[simp] theorem State.rd_wr_same (k : Nat) (v : BitVec 64) : (s.wr k v).rd k = v :=
  Sparse.get_put_same _ _ _ _

/-- A write leaves every other slot alone. -/
theorem State.rd_wr_ne {k j : Nat} (v : BitVec 64) (h : j ≠ k) : (s.wr k v).rd j = s.rd j :=
  Sparse.get_put_ne _ _ _ h

theorem State.rd_setFld_ne {k j : Nat} (hi lo x : Nat) (h : j ≠ k) : (s.setFld k hi lo x).rd j = s.rd j :=
  s.rd_wr_ne _ h

theorem State.rd_putBit_ne {k j : Nat} (b : Nat) (x : Bool) (h : j ≠ k) : (s.putBit k b x).rd j = s.rd j :=
  s.rd_wr_ne _ h

theorem State.rd_wrN_ne {k j : Nat} (n : Nat) (h : j ≠ k) : (s.wrN k n).rd j = s.rd j := s.rd_wr_ne _ h

theorem State.rd_wrI_ne {k j : Nat} (w : Nat) (i : Int) (h : j ≠ k) : (s.wrI k w i).rd j = s.rd j :=
  s.rd_wr_ne _ h

theorem State.rd_bump_ne {k j : Nat} (w n : Nat) (h : j ≠ k) : (s.bump k w n).rd j = s.rd j := s.rd_wr_ne _ h

theorem State.rd_bumpSat_ne {k j : Nat} (w n : Nat) (h : j ≠ k) : (s.bumpSat k w n).rd j = s.rd j :=
  s.rd_wr_ne _ h

/-- The dictionary decides what a slot reads as. -/
theorem State.rd_congr {s t : State} (h : t.regs = s.regs) (k : Nat) : t.rd k = s.rd k := by
  simp [State.rd, h]

@[simp] theorem State.rd_send (m : OutMsg) (k : Nat) : (s.send m).rd k = s.rd k := rfl
@[simp] theorem State.rd_setBoot (b : Boot) (k : Nat) : (s.setBoot b).rd k = s.rd k := rfl
@[simp] theorem State.rd_setHlt (h : Hlt) (k : Nat) : (s.setHlt h).rd k = s.rd k := rfl
@[simp] theorem State.rd_setScn (x : Scn) (k : Nat) : (s.setScn x).rd k = s.rd k := rfl

@[simp] theorem State.rd_wrByte (a : Nat) (b : BitVec 8) (k : Nat) : (s.wrByte a b).rd k = s.rd k :=
  State.rd_congr (by simp) k

@[simp] theorem State.rd_wrBytes (a : Nat) (bs : List (BitVec 8)) (k : Nat) : (s.wrBytes a bs).rd k = s.rd k :=
  State.rd_congr (by simp) k

/-- Where the training pattern stands depends on MEM_CFG alone. -/
theorem State.inPattern_congr {s t : State} (hc : t.rd Reg.MEM_CFG = s.rd Reg.MEM_CFG) (a n : Nat) :
    t.inPattern a n = s.inPattern a n := by
  unfold State.inPattern State.memEnd State.memCapacity State.fld
  rw [hc]

/-- What a byte of memory reads as depends on the stores, the training pattern and MEM_CFG alone. -/
theorem State.rdByte_congr {s t : State} (hm : t.mem = s.mem) (hf : t.misread = s.misread) (hd : t.ddr = s.ddr)
    (hc : t.rd Reg.MEM_CFG = s.rd Reg.MEM_CFG) (a : Nat) : t.rdByte a = s.rdByte a := by
  unfold State.rdByte
  rw [State.inPattern_congr hc, hm, hf, hd]

/-- A byte outside the training pattern area (R381) reads as it was written, unless its address holds no bit of
a Lantern word (R305). -/
theorem State.rdByte_wrByte_same (a : Nat) (b : BitVec 8) (h : lanternPad a = false)
    (hp : a < 2 ^ 44 → s.inPattern a 1 = false) : (s.wrByte a b).rdByte a = b := by
  have hf : ((Sparse.erase s.misread a).find? fun e => e.1 == a) = none := by
    simp [Sparse.erase, List.find?_eq_none]
  have he : s.wrByte a b = { s with mem := Sparse.put memDefault s.mem a b, misread := Sparse.erase s.misread a } := by
    unfold State.wrByte
    rw [if_neg (by simp [h])]
  unfold State.rdByte
  rw [State.inPattern_congr (s := s) (State.rd_wrByte s a b _) a 1, he]
  simp only [Sparse.get_put_same, hf]
  split
  · rfl
  · rename_i h44
    rw [if_neg (by simp [hp (by omega)])]
    rfl

/-- A byte write leaves every other byte alone. -/
theorem State.rdByte_wrByte_ne {a c : Nat} (b : BitVec 8) (h : c ≠ a) : (s.wrByte a b).rdByte c = s.rdByte c := by
  have hf : ((Sparse.erase s.misread a).find? fun e => e.1 == c) = s.misread.find? fun e => e.1 == c := by
    simp only [Sparse.erase, List.find?_filter]
    congr 1
    funext e
    grind
  unfold State.wrByte State.rdByte
  split
  · rfl
  · simp only [Sparse.get_put_ne _ _ _ h, hf]
    rfl

/-- Consecutive writes leave every byte outside them alone. -/
theorem State.rdByte_wrBytes_out (a : Nat) (bs : List (BitVec 8)) {c : Nat}
    (h : c < a ∨ a + bs.length ≤ c) : (s.wrBytes a bs).rdByte c = s.rdByte c := by
  induction bs generalizing s a with
  | nil => rfl
  | cons b r ih =>
    simp only [List.length_cons] at h
    rw [State.wrBytes, ih _ (a + 1) (by omega), State.rdByte_wrByte_ne _ _ (by omega)]

/-- A write of any slot but the memory's configuration leaves every byte alone. -/
theorem State.rdByte_wr (k : Nat) (v : BitVec 64) (a : Nat) (h : k ≠ Reg.MEM_CFG) :
    (s.wr k v).rdByte a = s.rdByte a :=
  State.rdByte_congr (s := s) (t := s.wr k v) rfl rfl rfl (s.rd_wr_ne v (Ne.symm h)) a
@[simp] theorem State.rdByte_send (m : OutMsg) (a : Nat) : (s.send m).rdByte a = s.rdByte a := rfl

/-! ### Bit fields -/

theorem getF_lt (v : BitVec 64) (hi lo : Nat) : getF v hi lo < 2 ^ (hi + 1 - lo) :=
  Nat.mod_lt _ (by positivity)

end Sys2Proof.Machine
end

