-- ==== Sys2Proof/Laws/Fields.lean ====
section
/-! SUPPORT. Bits and fields of the dictionary's slots: what each reads as after a write of another. -/

namespace Sys2Proof.Machine

variable (s : State) (v : BitVec 64)

/-! ### Of a slot -/

/-- A bit is a field of one bit. -/
theorem bitAt_eq (b : Nat) : bitAt v b = decide (getF v b b = 1) := by
  unfold bitAt getF natBits
  rw [Nat.testBit_eq_decide_div_mod_eq, show b + 1 - b = 1 by omega, Nat.pow_one]

/-- A field apart from the one written reads as before. -/
theorem getF_setF_apart (hi lo x hi' lo' : Nat) (h : lo ≤ hi) (h64 : hi < 64)
    (hd : hi' < lo ∨ hi < lo') : getF (setF v hi lo x) hi' lo' = getF v hi' lo' := by
  rcases hd with hd | hd
  · exact getF_setF_below v hi lo x hi' lo' h h64 hd
  · exact getF_setF_above v hi lo x hi' lo' h h64 hd

/-- A bit apart from the field written reads as before. -/
theorem bitAt_setF_apart (hi lo x b : Nat) (h : lo ≤ hi) (h64 : hi < 64) (hd : b < lo ∨ hi < b) :
    bitAt (setF v hi lo x) b = bitAt v b := by
  rw [bitAt_eq, bitAt_eq, getF_setF_apart v hi lo x b b h h64 hd]

/-- A bit apart from the bit written reads as before. -/
theorem bitAt_setBit_apart (b c : Nat) (x : Bool) (h64 : b < 64) (hd : c ≠ b) :
    bitAt (setBit v b x) c = bitAt v c :=
  bitAt_setF_apart v b b _ c (le_refl b) h64 (by omega)

/-- A field apart from the bit written reads as before. -/
theorem getF_setBit_apart (b hi lo : Nat) (x : Bool) (h64 : b < 64) (hd : hi < b ∨ b < lo) :
    getF (setBit v b x) hi lo = getF v hi lo :=
  getF_setF_apart v b b _ hi lo (le_refl b) h64 hd

/-! ### Of the dictionary -/

/-- The slot that a field write leaves. -/
@[simp] theorem State.rd_setFld_same (k hi lo x : Nat) : (s.setFld k hi lo x).rd k = setF (s.rd k) hi lo x :=
  s.rd_wr_same _ _

/-- The slot that a bit write leaves. -/
@[simp] theorem State.rd_putBit_same (k b : Nat) (x : Bool) : (s.putBit k b x).rd k = setBit (s.rd k) b x :=
  s.rd_wr_same _ _

@[simp] theorem State.rd_wrN_same (k n : Nat) : (s.wrN k n).rd k = BitVec.ofNat 64 n := s.rd_wr_same _ _

@[simp] theorem State.rdN_wrN_same (k n : Nat) : (s.wrN k n).rdN k = n % 2 ^ 64 := by
  simp [State.rdN]

/-- A bit reads as it was written. -/
@[simp] theorem State.bit_putBit_same (k b : Nat) (x : Bool) (h : b < 64) : (s.putBit k b x).bit k b = x := by
  simp [State.bit, bitAt_setBit_same _ _ _ h]

/-- A field reads as it was written. -/
@[simp] theorem State.fld_setFld_same (k hi lo x : Nat) (h : lo ≤ hi) (h64 : hi < 64) :
    (s.setFld k hi lo x).fld k hi lo = x % 2 ^ (hi + 1 - lo) := by
  simp [State.fld, getF_setF_same _ _ _ _ h h64]

/-- Another bit of the slot reads as before. -/
theorem State.bit_putBit_apart (k b c : Nat) (x : Bool) (h : b < 64) (hd : c ≠ b) :
    (s.putBit k b x).bit k c = s.bit k c := by
  simp [State.bit, bitAt_setBit_apart _ _ _ _ h hd]

/-- A bit outside the field written reads as before. -/
theorem State.bit_setFld_apart (k hi lo x b : Nat) (h : lo ≤ hi) (h64 : hi < 64) (hd : b < lo ∨ hi < b) :
    (s.setFld k hi lo x).bit k b = s.bit k b := by
  simp [State.bit, bitAt_setF_apart _ _ _ _ _ h h64 hd]

/-- A field without the bit written reads as before. -/
theorem State.fld_putBit_apart (k b hi lo : Nat) (x : Bool) (h : b < 64) (hd : hi < b ∨ b < lo) :
    (s.putBit k b x).fld k hi lo = s.fld k hi lo := by
  simp [State.fld, getF_setBit_apart _ _ _ _ _ h hd]

/-- Another field of the slot reads as before. -/
theorem State.fld_setFld_apart (k hi lo x hi' lo' : Nat) (h : lo ≤ hi) (h64 : hi < 64)
    (hd : hi' < lo ∨ hi < lo') : (s.setFld k hi lo x).fld k hi' lo' = s.fld k hi' lo' := by
  simp [State.fld, getF_setF_apart _ _ _ _ _ _ h h64 hd]

/-- Bits and fields of another slot read as before. -/
theorem State.bit_wr_ne {k j : Nat} (w : BitVec 64) (b : Nat) (h : j ≠ k) : (s.wr k w).bit j b = s.bit j b := by
  simp [State.bit, s.rd_wr_ne w h]

theorem State.fld_wr_ne {k j : Nat} (w : BitVec 64) (hi lo : Nat) (h : j ≠ k) :
    (s.wr k w).fld j hi lo = s.fld j hi lo := by
  simp [State.fld, s.rd_wr_ne w h]

theorem State.bit_putBit_ne {k j : Nat} (b c : Nat) (x : Bool) (h : j ≠ k) :
    (s.putBit k b x).bit j c = s.bit j c := s.bit_wr_ne _ _ h

theorem State.bit_setFld_ne {k j : Nat} (hi lo x b : Nat) (h : j ≠ k) :
    (s.setFld k hi lo x).bit j b = s.bit j b := s.bit_wr_ne _ _ h

theorem State.bit_wrN_ne {k j : Nat} (n b : Nat) (h : j ≠ k) : (s.wrN k n).bit j b = s.bit j b :=
  s.bit_wr_ne _ _ h

theorem State.fld_putBit_ne {k j : Nat} (b hi lo : Nat) (x : Bool) (h : j ≠ k) :
    (s.putBit k b x).fld j hi lo = s.fld j hi lo := s.fld_wr_ne _ _ _ h

theorem State.fld_setFld_ne {k j : Nat} (hi lo x hi' lo' : Nat) (h : j ≠ k) :
    (s.setFld k hi lo x).fld j hi' lo' = s.fld j hi' lo' := s.fld_wr_ne _ _ _ h

theorem State.fld_wrN_ne {k j : Nat} (n hi lo : Nat) (h : j ≠ k) : (s.wrN k n).fld j hi lo = s.fld j hi lo :=
  s.fld_wr_ne _ _ _ h

/-- The saturating and wrapping counters. -/
@[simp] theorem State.rdN_bumpSat_same (k n : Nat) :
    (s.bumpSat k 32 n).rdN k = satAdd 32 (s.rdN k) n := by
  have : satAdd 32 (s.rdN k) n < 2 ^ 32 := by unfold satAdd; split <;> omega
  simp only [State.bumpSat, State.rdN_wrN_same]
  omega

@[simp] theorem State.rdN_bump_same (k n : Nat) : (s.bump k 64 n).rdN k = (s.rdN k + n) % 2 ^ 64 := by
  simp [State.bump]

end Sys2Proof.Machine
end

