-- ==== Sys2Proof/Laws/Updates.lean ====
section
/-! SUPPORT. What replacing one part of the device leaves alone, field by field, and what reading the part
gives afterwards; the slot writes of every form the same. -/

namespace Sys2Proof.Machine

variable (s : State)

/-! ### Slot writes touch the dictionary alone -/

@[simp] theorem State.setFld_mem (k hi lo x : Nat) : (s.setFld k hi lo x).mem = s.mem := rfl
@[simp] theorem State.setFld_misread (k hi lo x : Nat) : (s.setFld k hi lo x).misread = s.misread := rfl
@[simp] theorem State.setFld_time (k hi lo x : Nat) : (s.setFld k hi lo x).time = s.time := rfl
@[simp] theorem State.setFld_clk (k hi lo x : Nat) : (s.setFld k hi lo x).clk = s.clk := rfl
@[simp] theorem State.setFld_ccs (k hi lo x : Nat) : (s.setFld k hi lo x).ccs = s.ccs := rfl
@[simp] theorem State.setFld_mgt (k hi lo x : Nat) : (s.setFld k hi lo x).mgt = s.mgt := rfl
@[simp] theorem State.setFld_lanes (k hi lo x : Nat) : (s.setFld k hi lo x).lanes = s.lanes := rfl
@[simp] theorem State.setFld_eyes (k hi lo x : Nat) : (s.setFld k hi lo x).eyes = s.eyes := rfl
@[simp] theorem State.setFld_cnd (k hi lo x : Nat) : (s.setFld k hi lo x).cnd = s.cnd := rfl
@[simp] theorem State.setFld_spx (k hi lo x : Nat) : (s.setFld k hi lo x).spx = s.spx := rfl
@[simp] theorem State.setFld_canopy (k hi lo x : Nat) : (s.setFld k hi lo x).canopy = s.canopy := rfl
@[simp] theorem State.setFld_spg (k hi lo x : Nat) : (s.setFld k hi lo x).spg = s.spg := rfl
@[simp] theorem State.setFld_scn (k hi lo x : Nat) : (s.setFld k hi lo x).scn = s.scn := rfl
@[simp] theorem State.setFld_lnt (k hi lo x : Nat) : (s.setFld k hi lo x).lnt = s.lnt := rfl
@[simp] theorem State.setFld_pools (k hi lo x : Nat) : (s.setFld k hi lo x).pools = s.pools := rfl
@[simp] theorem State.setFld_tims (k hi lo x : Nat) : (s.setFld k hi lo x).tims = s.tims := rfl
@[simp] theorem State.setFld_timServed (k hi lo x : Nat) : (s.setFld k hi lo x).timServed = s.timServed := rfl
@[simp] theorem State.setFld_sups (k hi lo x : Nat) : (s.setFld k hi lo x).sups = s.sups := rfl
@[simp] theorem State.setFld_mon (k hi lo x : Nat) : (s.setFld k hi lo x).mon = s.mon := rfl
@[simp] theorem State.setFld_ddr (k hi lo x : Nat) : (s.setFld k hi lo x).ddr = s.ddr := rfl
@[simp] theorem State.setFld_writers (k hi lo x : Nat) : (s.setFld k hi lo x).writers = s.writers := rfl
@[simp] theorem State.setFld_trig (k hi lo x : Nat) : (s.setFld k hi lo x).trig = s.trig := rfl
@[simp] theorem State.setFld_seqs (k hi lo x : Nat) : (s.setFld k hi lo x).seqs = s.seqs := rfl
@[simp] theorem State.setFld_prov (k hi lo x : Nat) : (s.setFld k hi lo x).prov = s.prov := rfl
@[simp] theorem State.setFld_pulses (k hi lo x : Nat) : (s.setFld k hi lo x).pulses = s.pulses := rfl
@[simp] theorem State.setFld_queues (k hi lo x : Nat) : (s.setFld k hi lo x).queues = s.queues := rfl
@[simp] theorem State.setFld_dma (k hi lo x : Nat) : (s.setFld k hi lo x).dma = s.dma := rfl
@[simp] theorem State.setFld_feeds (k hi lo x : Nat) : (s.setFld k hi lo x).feeds = s.feeds := rfl
@[simp] theorem State.setFld_pwr (k hi lo x : Nat) : (s.setFld k hi lo x).pwr = s.pwr := rfl
@[simp] theorem State.setFld_boot (k hi lo x : Nat) : (s.setFld k hi lo x).boot = s.boot := rfl
@[simp] theorem State.setFld_hlt (k hi lo x : Nat) : (s.setFld k hi lo x).hlt = s.hlt := rfl
@[simp] theorem State.setFld_drv (k hi lo x : Nat) : (s.setFld k hi lo x).drv = s.drv := rfl
@[simp] theorem State.setFld_ep (k hi lo x : Nat) : (s.setFld k hi lo x).ep = s.ep := rfl
@[simp] theorem State.setFld_heldReqs (k hi lo x : Nat) : (s.setFld k hi lo x).heldReqs = s.heldReqs := rfl
@[simp] theorem State.setFld_fab (k hi lo x : Nat) : (s.setFld k hi lo x).fab = s.fab := rfl
@[simp] theorem State.setFld_jtag (k hi lo x : Nat) : (s.setFld k hi lo x).jtag = s.jtag := rfl
@[simp] theorem State.setFld_out (k hi lo x : Nat) : (s.setFld k hi lo x).out = s.out := rfl
@[simp] theorem State.setFld_fresh (k hi lo x : Nat) : (s.setFld k hi lo x).fresh = s.fresh := rfl
@[simp] theorem State.setFld_pending (k hi lo x : Nat) : (s.setFld k hi lo x).pending = s.pending := rfl
theorem State.rdByte_setFld (k hi lo x : Nat) (a : Nat) (h : k ≠ Reg.MEM_CFG) : (s.setFld k hi lo x).rdByte a = s.rdByte a :=
  State.rdByte_wr s k _ a h
@[simp] theorem State.putBit_mem (k b : Nat) (x : Bool) : (s.putBit k b x).mem = s.mem := rfl
@[simp] theorem State.putBit_misread (k b : Nat) (x : Bool) : (s.putBit k b x).misread = s.misread := rfl
@[simp] theorem State.putBit_time (k b : Nat) (x : Bool) : (s.putBit k b x).time = s.time := rfl
@[simp] theorem State.putBit_clk (k b : Nat) (x : Bool) : (s.putBit k b x).clk = s.clk := rfl
@[simp] theorem State.putBit_ccs (k b : Nat) (x : Bool) : (s.putBit k b x).ccs = s.ccs := rfl
@[simp] theorem State.putBit_mgt (k b : Nat) (x : Bool) : (s.putBit k b x).mgt = s.mgt := rfl
@[simp] theorem State.putBit_lanes (k b : Nat) (x : Bool) : (s.putBit k b x).lanes = s.lanes := rfl
@[simp] theorem State.putBit_eyes (k b : Nat) (x : Bool) : (s.putBit k b x).eyes = s.eyes := rfl
@[simp] theorem State.putBit_cnd (k b : Nat) (x : Bool) : (s.putBit k b x).cnd = s.cnd := rfl
@[simp] theorem State.putBit_spx (k b : Nat) (x : Bool) : (s.putBit k b x).spx = s.spx := rfl
@[simp] theorem State.putBit_canopy (k b : Nat) (x : Bool) : (s.putBit k b x).canopy = s.canopy := rfl
@[simp] theorem State.putBit_spg (k b : Nat) (x : Bool) : (s.putBit k b x).spg = s.spg := rfl
@[simp] theorem State.putBit_scn (k b : Nat) (x : Bool) : (s.putBit k b x).scn = s.scn := rfl
@[simp] theorem State.putBit_lnt (k b : Nat) (x : Bool) : (s.putBit k b x).lnt = s.lnt := rfl
@[simp] theorem State.putBit_pools (k b : Nat) (x : Bool) : (s.putBit k b x).pools = s.pools := rfl
@[simp] theorem State.putBit_tims (k b : Nat) (x : Bool) : (s.putBit k b x).tims = s.tims := rfl
@[simp] theorem State.putBit_timServed (k b : Nat) (x : Bool) : (s.putBit k b x).timServed = s.timServed := rfl
@[simp] theorem State.putBit_sups (k b : Nat) (x : Bool) : (s.putBit k b x).sups = s.sups := rfl
@[simp] theorem State.putBit_mon (k b : Nat) (x : Bool) : (s.putBit k b x).mon = s.mon := rfl
@[simp] theorem State.putBit_ddr (k b : Nat) (x : Bool) : (s.putBit k b x).ddr = s.ddr := rfl
@[simp] theorem State.putBit_writers (k b : Nat) (x : Bool) : (s.putBit k b x).writers = s.writers := rfl
@[simp] theorem State.putBit_trig (k b : Nat) (x : Bool) : (s.putBit k b x).trig = s.trig := rfl
@[simp] theorem State.putBit_seqs (k b : Nat) (x : Bool) : (s.putBit k b x).seqs = s.seqs := rfl
@[simp] theorem State.putBit_prov (k b : Nat) (x : Bool) : (s.putBit k b x).prov = s.prov := rfl
@[simp] theorem State.putBit_pulses (k b : Nat) (x : Bool) : (s.putBit k b x).pulses = s.pulses := rfl
@[simp] theorem State.putBit_queues (k b : Nat) (x : Bool) : (s.putBit k b x).queues = s.queues := rfl
@[simp] theorem State.putBit_dma (k b : Nat) (x : Bool) : (s.putBit k b x).dma = s.dma := rfl
@[simp] theorem State.putBit_feeds (k b : Nat) (x : Bool) : (s.putBit k b x).feeds = s.feeds := rfl
@[simp] theorem State.putBit_pwr (k b : Nat) (x : Bool) : (s.putBit k b x).pwr = s.pwr := rfl
@[simp] theorem State.putBit_boot (k b : Nat) (x : Bool) : (s.putBit k b x).boot = s.boot := rfl
@[simp] theorem State.putBit_hlt (k b : Nat) (x : Bool) : (s.putBit k b x).hlt = s.hlt := rfl
@[simp] theorem State.putBit_drv (k b : Nat) (x : Bool) : (s.putBit k b x).drv = s.drv := rfl
@[simp] theorem State.putBit_ep (k b : Nat) (x : Bool) : (s.putBit k b x).ep = s.ep := rfl
@[simp] theorem State.putBit_heldReqs (k b : Nat) (x : Bool) : (s.putBit k b x).heldReqs = s.heldReqs := rfl
@[simp] theorem State.putBit_fab (k b : Nat) (x : Bool) : (s.putBit k b x).fab = s.fab := rfl
@[simp] theorem State.putBit_jtag (k b : Nat) (x : Bool) : (s.putBit k b x).jtag = s.jtag := rfl
@[simp] theorem State.putBit_out (k b : Nat) (x : Bool) : (s.putBit k b x).out = s.out := rfl
@[simp] theorem State.putBit_fresh (k b : Nat) (x : Bool) : (s.putBit k b x).fresh = s.fresh := rfl
@[simp] theorem State.putBit_pending (k b : Nat) (x : Bool) : (s.putBit k b x).pending = s.pending := rfl
theorem State.rdByte_putBit (k b : Nat) (x : Bool) (a : Nat) (h : k ≠ Reg.MEM_CFG) : (s.putBit k b x).rdByte a = s.rdByte a :=
  State.rdByte_wr s k _ a h
@[simp] theorem State.wrN_mem (k n : Nat) : (s.wrN k n).mem = s.mem := rfl
@[simp] theorem State.wrN_misread (k n : Nat) : (s.wrN k n).misread = s.misread := rfl
@[simp] theorem State.wrN_time (k n : Nat) : (s.wrN k n).time = s.time := rfl
@[simp] theorem State.wrN_clk (k n : Nat) : (s.wrN k n).clk = s.clk := rfl
@[simp] theorem State.wrN_ccs (k n : Nat) : (s.wrN k n).ccs = s.ccs := rfl
@[simp] theorem State.wrN_mgt (k n : Nat) : (s.wrN k n).mgt = s.mgt := rfl
@[simp] theorem State.wrN_lanes (k n : Nat) : (s.wrN k n).lanes = s.lanes := rfl
@[simp] theorem State.wrN_eyes (k n : Nat) : (s.wrN k n).eyes = s.eyes := rfl
@[simp] theorem State.wrN_cnd (k n : Nat) : (s.wrN k n).cnd = s.cnd := rfl
@[simp] theorem State.wrN_spx (k n : Nat) : (s.wrN k n).spx = s.spx := rfl
@[simp] theorem State.wrN_canopy (k n : Nat) : (s.wrN k n).canopy = s.canopy := rfl
@[simp] theorem State.wrN_spg (k n : Nat) : (s.wrN k n).spg = s.spg := rfl
@[simp] theorem State.wrN_scn (k n : Nat) : (s.wrN k n).scn = s.scn := rfl
@[simp] theorem State.wrN_lnt (k n : Nat) : (s.wrN k n).lnt = s.lnt := rfl
@[simp] theorem State.wrN_pools (k n : Nat) : (s.wrN k n).pools = s.pools := rfl
@[simp] theorem State.wrN_tims (k n : Nat) : (s.wrN k n).tims = s.tims := rfl
@[simp] theorem State.wrN_timServed (k n : Nat) : (s.wrN k n).timServed = s.timServed := rfl
@[simp] theorem State.wrN_sups (k n : Nat) : (s.wrN k n).sups = s.sups := rfl
@[simp] theorem State.wrN_mon (k n : Nat) : (s.wrN k n).mon = s.mon := rfl
@[simp] theorem State.wrN_ddr (k n : Nat) : (s.wrN k n).ddr = s.ddr := rfl
@[simp] theorem State.wrN_writers (k n : Nat) : (s.wrN k n).writers = s.writers := rfl
@[simp] theorem State.wrN_trig (k n : Nat) : (s.wrN k n).trig = s.trig := rfl
@[simp] theorem State.wrN_seqs (k n : Nat) : (s.wrN k n).seqs = s.seqs := rfl
@[simp] theorem State.wrN_prov (k n : Nat) : (s.wrN k n).prov = s.prov := rfl
@[simp] theorem State.wrN_pulses (k n : Nat) : (s.wrN k n).pulses = s.pulses := rfl
@[simp] theorem State.wrN_queues (k n : Nat) : (s.wrN k n).queues = s.queues := rfl
@[simp] theorem State.wrN_dma (k n : Nat) : (s.wrN k n).dma = s.dma := rfl
@[simp] theorem State.wrN_feeds (k n : Nat) : (s.wrN k n).feeds = s.feeds := rfl
@[simp] theorem State.wrN_pwr (k n : Nat) : (s.wrN k n).pwr = s.pwr := rfl
@[simp] theorem State.wrN_boot (k n : Nat) : (s.wrN k n).boot = s.boot := rfl
@[simp] theorem State.wrN_hlt (k n : Nat) : (s.wrN k n).hlt = s.hlt := rfl
@[simp] theorem State.wrN_drv (k n : Nat) : (s.wrN k n).drv = s.drv := rfl
@[simp] theorem State.wrN_ep (k n : Nat) : (s.wrN k n).ep = s.ep := rfl
@[simp] theorem State.wrN_heldReqs (k n : Nat) : (s.wrN k n).heldReqs = s.heldReqs := rfl
@[simp] theorem State.wrN_fab (k n : Nat) : (s.wrN k n).fab = s.fab := rfl
@[simp] theorem State.wrN_jtag (k n : Nat) : (s.wrN k n).jtag = s.jtag := rfl
@[simp] theorem State.wrN_out (k n : Nat) : (s.wrN k n).out = s.out := rfl
@[simp] theorem State.wrN_fresh (k n : Nat) : (s.wrN k n).fresh = s.fresh := rfl
@[simp] theorem State.wrN_pending (k n : Nat) : (s.wrN k n).pending = s.pending := rfl
theorem State.rdByte_wrN (k n : Nat) (a : Nat) (h : k ≠ Reg.MEM_CFG) : (s.wrN k n).rdByte a = s.rdByte a :=
  State.rdByte_wr s k _ a h
@[simp] theorem State.wrI_mem (k w : Nat) (i : Int) : (s.wrI k w i).mem = s.mem := rfl
@[simp] theorem State.wrI_misread (k w : Nat) (i : Int) : (s.wrI k w i).misread = s.misread := rfl
@[simp] theorem State.wrI_time (k w : Nat) (i : Int) : (s.wrI k w i).time = s.time := rfl
@[simp] theorem State.wrI_clk (k w : Nat) (i : Int) : (s.wrI k w i).clk = s.clk := rfl
@[simp] theorem State.wrI_ccs (k w : Nat) (i : Int) : (s.wrI k w i).ccs = s.ccs := rfl
@[simp] theorem State.wrI_mgt (k w : Nat) (i : Int) : (s.wrI k w i).mgt = s.mgt := rfl
@[simp] theorem State.wrI_lanes (k w : Nat) (i : Int) : (s.wrI k w i).lanes = s.lanes := rfl
@[simp] theorem State.wrI_eyes (k w : Nat) (i : Int) : (s.wrI k w i).eyes = s.eyes := rfl
@[simp] theorem State.wrI_cnd (k w : Nat) (i : Int) : (s.wrI k w i).cnd = s.cnd := rfl
@[simp] theorem State.wrI_spx (k w : Nat) (i : Int) : (s.wrI k w i).spx = s.spx := rfl
@[simp] theorem State.wrI_canopy (k w : Nat) (i : Int) : (s.wrI k w i).canopy = s.canopy := rfl
@[simp] theorem State.wrI_spg (k w : Nat) (i : Int) : (s.wrI k w i).spg = s.spg := rfl
@[simp] theorem State.wrI_scn (k w : Nat) (i : Int) : (s.wrI k w i).scn = s.scn := rfl
@[simp] theorem State.wrI_lnt (k w : Nat) (i : Int) : (s.wrI k w i).lnt = s.lnt := rfl
@[simp] theorem State.wrI_pools (k w : Nat) (i : Int) : (s.wrI k w i).pools = s.pools := rfl
@[simp] theorem State.wrI_tims (k w : Nat) (i : Int) : (s.wrI k w i).tims = s.tims := rfl
@[simp] theorem State.wrI_timServed (k w : Nat) (i : Int) : (s.wrI k w i).timServed = s.timServed := rfl
@[simp] theorem State.wrI_sups (k w : Nat) (i : Int) : (s.wrI k w i).sups = s.sups := rfl
@[simp] theorem State.wrI_mon (k w : Nat) (i : Int) : (s.wrI k w i).mon = s.mon := rfl
@[simp] theorem State.wrI_ddr (k w : Nat) (i : Int) : (s.wrI k w i).ddr = s.ddr := rfl
@[simp] theorem State.wrI_writers (k w : Nat) (i : Int) : (s.wrI k w i).writers = s.writers := rfl
@[simp] theorem State.wrI_trig (k w : Nat) (i : Int) : (s.wrI k w i).trig = s.trig := rfl
@[simp] theorem State.wrI_seqs (k w : Nat) (i : Int) : (s.wrI k w i).seqs = s.seqs := rfl
@[simp] theorem State.wrI_prov (k w : Nat) (i : Int) : (s.wrI k w i).prov = s.prov := rfl
@[simp] theorem State.wrI_pulses (k w : Nat) (i : Int) : (s.wrI k w i).pulses = s.pulses := rfl
@[simp] theorem State.wrI_queues (k w : Nat) (i : Int) : (s.wrI k w i).queues = s.queues := rfl
@[simp] theorem State.wrI_dma (k w : Nat) (i : Int) : (s.wrI k w i).dma = s.dma := rfl
@[simp] theorem State.wrI_feeds (k w : Nat) (i : Int) : (s.wrI k w i).feeds = s.feeds := rfl
@[simp] theorem State.wrI_pwr (k w : Nat) (i : Int) : (s.wrI k w i).pwr = s.pwr := rfl
@[simp] theorem State.wrI_boot (k w : Nat) (i : Int) : (s.wrI k w i).boot = s.boot := rfl
@[simp] theorem State.wrI_hlt (k w : Nat) (i : Int) : (s.wrI k w i).hlt = s.hlt := rfl
@[simp] theorem State.wrI_drv (k w : Nat) (i : Int) : (s.wrI k w i).drv = s.drv := rfl
@[simp] theorem State.wrI_ep (k w : Nat) (i : Int) : (s.wrI k w i).ep = s.ep := rfl
@[simp] theorem State.wrI_heldReqs (k w : Nat) (i : Int) : (s.wrI k w i).heldReqs = s.heldReqs := rfl
@[simp] theorem State.wrI_fab (k w : Nat) (i : Int) : (s.wrI k w i).fab = s.fab := rfl
@[simp] theorem State.wrI_jtag (k w : Nat) (i : Int) : (s.wrI k w i).jtag = s.jtag := rfl
@[simp] theorem State.wrI_out (k w : Nat) (i : Int) : (s.wrI k w i).out = s.out := rfl
@[simp] theorem State.wrI_fresh (k w : Nat) (i : Int) : (s.wrI k w i).fresh = s.fresh := rfl
@[simp] theorem State.wrI_pending (k w : Nat) (i : Int) : (s.wrI k w i).pending = s.pending := rfl
theorem State.rdByte_wrI (k w : Nat) (i : Int) (a : Nat) (h : k ≠ Reg.MEM_CFG) : (s.wrI k w i).rdByte a = s.rdByte a :=
  State.rdByte_wr s k _ a h
@[simp] theorem State.bump_mem (k w n : Nat) : (s.bump k w n).mem = s.mem := rfl
@[simp] theorem State.bump_misread (k w n : Nat) : (s.bump k w n).misread = s.misread := rfl
@[simp] theorem State.bump_time (k w n : Nat) : (s.bump k w n).time = s.time := rfl
@[simp] theorem State.bump_clk (k w n : Nat) : (s.bump k w n).clk = s.clk := rfl
@[simp] theorem State.bump_ccs (k w n : Nat) : (s.bump k w n).ccs = s.ccs := rfl
@[simp] theorem State.bump_mgt (k w n : Nat) : (s.bump k w n).mgt = s.mgt := rfl
@[simp] theorem State.bump_lanes (k w n : Nat) : (s.bump k w n).lanes = s.lanes := rfl
@[simp] theorem State.bump_eyes (k w n : Nat) : (s.bump k w n).eyes = s.eyes := rfl
@[simp] theorem State.bump_cnd (k w n : Nat) : (s.bump k w n).cnd = s.cnd := rfl
@[simp] theorem State.bump_spx (k w n : Nat) : (s.bump k w n).spx = s.spx := rfl
@[simp] theorem State.bump_canopy (k w n : Nat) : (s.bump k w n).canopy = s.canopy := rfl
@[simp] theorem State.bump_spg (k w n : Nat) : (s.bump k w n).spg = s.spg := rfl
@[simp] theorem State.bump_scn (k w n : Nat) : (s.bump k w n).scn = s.scn := rfl
@[simp] theorem State.bump_lnt (k w n : Nat) : (s.bump k w n).lnt = s.lnt := rfl
@[simp] theorem State.bump_pools (k w n : Nat) : (s.bump k w n).pools = s.pools := rfl
@[simp] theorem State.bump_tims (k w n : Nat) : (s.bump k w n).tims = s.tims := rfl
@[simp] theorem State.bump_timServed (k w n : Nat) : (s.bump k w n).timServed = s.timServed := rfl
@[simp] theorem State.bump_sups (k w n : Nat) : (s.bump k w n).sups = s.sups := rfl
@[simp] theorem State.bump_mon (k w n : Nat) : (s.bump k w n).mon = s.mon := rfl
@[simp] theorem State.bump_ddr (k w n : Nat) : (s.bump k w n).ddr = s.ddr := rfl
@[simp] theorem State.bump_writers (k w n : Nat) : (s.bump k w n).writers = s.writers := rfl
@[simp] theorem State.bump_trig (k w n : Nat) : (s.bump k w n).trig = s.trig := rfl
@[simp] theorem State.bump_seqs (k w n : Nat) : (s.bump k w n).seqs = s.seqs := rfl
@[simp] theorem State.bump_prov (k w n : Nat) : (s.bump k w n).prov = s.prov := rfl
@[simp] theorem State.bump_pulses (k w n : Nat) : (s.bump k w n).pulses = s.pulses := rfl
@[simp] theorem State.bump_queues (k w n : Nat) : (s.bump k w n).queues = s.queues := rfl
@[simp] theorem State.bump_dma (k w n : Nat) : (s.bump k w n).dma = s.dma := rfl
@[simp] theorem State.bump_feeds (k w n : Nat) : (s.bump k w n).feeds = s.feeds := rfl
@[simp] theorem State.bump_pwr (k w n : Nat) : (s.bump k w n).pwr = s.pwr := rfl
@[simp] theorem State.bump_boot (k w n : Nat) : (s.bump k w n).boot = s.boot := rfl
@[simp] theorem State.bump_hlt (k w n : Nat) : (s.bump k w n).hlt = s.hlt := rfl
@[simp] theorem State.bump_drv (k w n : Nat) : (s.bump k w n).drv = s.drv := rfl
@[simp] theorem State.bump_ep (k w n : Nat) : (s.bump k w n).ep = s.ep := rfl
@[simp] theorem State.bump_heldReqs (k w n : Nat) : (s.bump k w n).heldReqs = s.heldReqs := rfl
@[simp] theorem State.bump_fab (k w n : Nat) : (s.bump k w n).fab = s.fab := rfl
@[simp] theorem State.bump_jtag (k w n : Nat) : (s.bump k w n).jtag = s.jtag := rfl
@[simp] theorem State.bump_out (k w n : Nat) : (s.bump k w n).out = s.out := rfl
@[simp] theorem State.bump_fresh (k w n : Nat) : (s.bump k w n).fresh = s.fresh := rfl
@[simp] theorem State.bump_pending (k w n : Nat) : (s.bump k w n).pending = s.pending := rfl
theorem State.rdByte_bump (k w n : Nat) (a : Nat) (h : k ≠ Reg.MEM_CFG) : (s.bump k w n).rdByte a = s.rdByte a :=
  State.rdByte_wr s k _ a h
@[simp] theorem State.bumpSat_mem (k w n : Nat) : (s.bumpSat k w n).mem = s.mem := rfl
@[simp] theorem State.bumpSat_misread (k w n : Nat) : (s.bumpSat k w n).misread = s.misread := rfl
@[simp] theorem State.bumpSat_time (k w n : Nat) : (s.bumpSat k w n).time = s.time := rfl
@[simp] theorem State.bumpSat_clk (k w n : Nat) : (s.bumpSat k w n).clk = s.clk := rfl
@[simp] theorem State.bumpSat_ccs (k w n : Nat) : (s.bumpSat k w n).ccs = s.ccs := rfl
@[simp] theorem State.bumpSat_mgt (k w n : Nat) : (s.bumpSat k w n).mgt = s.mgt := rfl
@[simp] theorem State.bumpSat_lanes (k w n : Nat) : (s.bumpSat k w n).lanes = s.lanes := rfl
@[simp] theorem State.bumpSat_eyes (k w n : Nat) : (s.bumpSat k w n).eyes = s.eyes := rfl
@[simp] theorem State.bumpSat_cnd (k w n : Nat) : (s.bumpSat k w n).cnd = s.cnd := rfl
@[simp] theorem State.bumpSat_spx (k w n : Nat) : (s.bumpSat k w n).spx = s.spx := rfl
@[simp] theorem State.bumpSat_canopy (k w n : Nat) : (s.bumpSat k w n).canopy = s.canopy := rfl
@[simp] theorem State.bumpSat_spg (k w n : Nat) : (s.bumpSat k w n).spg = s.spg := rfl
@[simp] theorem State.bumpSat_scn (k w n : Nat) : (s.bumpSat k w n).scn = s.scn := rfl
@[simp] theorem State.bumpSat_lnt (k w n : Nat) : (s.bumpSat k w n).lnt = s.lnt := rfl
@[simp] theorem State.bumpSat_pools (k w n : Nat) : (s.bumpSat k w n).pools = s.pools := rfl
@[simp] theorem State.bumpSat_tims (k w n : Nat) : (s.bumpSat k w n).tims = s.tims := rfl
@[simp] theorem State.bumpSat_timServed (k w n : Nat) : (s.bumpSat k w n).timServed = s.timServed := rfl
@[simp] theorem State.bumpSat_sups (k w n : Nat) : (s.bumpSat k w n).sups = s.sups := rfl
@[simp] theorem State.bumpSat_mon (k w n : Nat) : (s.bumpSat k w n).mon = s.mon := rfl
@[simp] theorem State.bumpSat_ddr (k w n : Nat) : (s.bumpSat k w n).ddr = s.ddr := rfl
@[simp] theorem State.bumpSat_writers (k w n : Nat) : (s.bumpSat k w n).writers = s.writers := rfl
@[simp] theorem State.bumpSat_trig (k w n : Nat) : (s.bumpSat k w n).trig = s.trig := rfl
@[simp] theorem State.bumpSat_seqs (k w n : Nat) : (s.bumpSat k w n).seqs = s.seqs := rfl
@[simp] theorem State.bumpSat_prov (k w n : Nat) : (s.bumpSat k w n).prov = s.prov := rfl
@[simp] theorem State.bumpSat_pulses (k w n : Nat) : (s.bumpSat k w n).pulses = s.pulses := rfl
@[simp] theorem State.bumpSat_queues (k w n : Nat) : (s.bumpSat k w n).queues = s.queues := rfl
@[simp] theorem State.bumpSat_dma (k w n : Nat) : (s.bumpSat k w n).dma = s.dma := rfl
@[simp] theorem State.bumpSat_feeds (k w n : Nat) : (s.bumpSat k w n).feeds = s.feeds := rfl
@[simp] theorem State.bumpSat_pwr (k w n : Nat) : (s.bumpSat k w n).pwr = s.pwr := rfl
@[simp] theorem State.bumpSat_boot (k w n : Nat) : (s.bumpSat k w n).boot = s.boot := rfl
@[simp] theorem State.bumpSat_hlt (k w n : Nat) : (s.bumpSat k w n).hlt = s.hlt := rfl
@[simp] theorem State.bumpSat_drv (k w n : Nat) : (s.bumpSat k w n).drv = s.drv := rfl
@[simp] theorem State.bumpSat_ep (k w n : Nat) : (s.bumpSat k w n).ep = s.ep := rfl
@[simp] theorem State.bumpSat_heldReqs (k w n : Nat) : (s.bumpSat k w n).heldReqs = s.heldReqs := rfl
@[simp] theorem State.bumpSat_fab (k w n : Nat) : (s.bumpSat k w n).fab = s.fab := rfl
@[simp] theorem State.bumpSat_jtag (k w n : Nat) : (s.bumpSat k w n).jtag = s.jtag := rfl
@[simp] theorem State.bumpSat_out (k w n : Nat) : (s.bumpSat k w n).out = s.out := rfl
@[simp] theorem State.bumpSat_fresh (k w n : Nat) : (s.bumpSat k w n).fresh = s.fresh := rfl
@[simp] theorem State.bumpSat_pending (k w n : Nat) : (s.bumpSat k w n).pending = s.pending := rfl
theorem State.rdByte_bumpSat (k w n : Nat) (a : Nat) (h : k ≠ Reg.MEM_CFG) : (s.bumpSat k w n).rdByte a = s.rdByte a :=
  State.rdByte_wr s k _ a h

/-! ### Parts of the device -/

@[simp] theorem State.setCan_regs (k : Nat) (x : CanopyChan) : (s.setCan k x).regs = s.regs := by
  unfold State.setCan; split <;> rfl
@[simp] theorem State.setCan_mem (k : Nat) (x : CanopyChan) : (s.setCan k x).mem = s.mem := by
  unfold State.setCan; split <;> rfl
@[simp] theorem State.setCan_misread (k : Nat) (x : CanopyChan) : (s.setCan k x).misread = s.misread := by
  unfold State.setCan; split <;> rfl
@[simp] theorem State.setCan_time (k : Nat) (x : CanopyChan) : (s.setCan k x).time = s.time := by
  unfold State.setCan; split <;> rfl
@[simp] theorem State.setCan_clk (k : Nat) (x : CanopyChan) : (s.setCan k x).clk = s.clk := by
  unfold State.setCan; split <;> rfl
@[simp] theorem State.setCan_ccs (k : Nat) (x : CanopyChan) : (s.setCan k x).ccs = s.ccs := by
  unfold State.setCan; split <;> rfl
@[simp] theorem State.setCan_mgt (k : Nat) (x : CanopyChan) : (s.setCan k x).mgt = s.mgt := by
  unfold State.setCan; split <;> rfl
@[simp] theorem State.setCan_lanes (k : Nat) (x : CanopyChan) : (s.setCan k x).lanes = s.lanes := by
  unfold State.setCan; split <;> rfl
@[simp] theorem State.setCan_eyes (k : Nat) (x : CanopyChan) : (s.setCan k x).eyes = s.eyes := by
  unfold State.setCan; split <;> rfl
@[simp] theorem State.setCan_cnd (k : Nat) (x : CanopyChan) : (s.setCan k x).cnd = s.cnd := by
  unfold State.setCan; split <;> rfl
@[simp] theorem State.setCan_spx (k : Nat) (x : CanopyChan) : (s.setCan k x).spx = s.spx := by
  unfold State.setCan; split <;> rfl
@[simp] theorem State.setCan_spg (k : Nat) (x : CanopyChan) : (s.setCan k x).spg = s.spg := by
  unfold State.setCan; split <;> rfl
@[simp] theorem State.setCan_scn (k : Nat) (x : CanopyChan) : (s.setCan k x).scn = s.scn := by
  unfold State.setCan; split <;> rfl
@[simp] theorem State.setCan_lnt (k : Nat) (x : CanopyChan) : (s.setCan k x).lnt = s.lnt := by
  unfold State.setCan; split <;> rfl
@[simp] theorem State.setCan_pools (k : Nat) (x : CanopyChan) : (s.setCan k x).pools = s.pools := by
  unfold State.setCan; split <;> rfl
@[simp] theorem State.setCan_tims (k : Nat) (x : CanopyChan) : (s.setCan k x).tims = s.tims := by
  unfold State.setCan; split <;> rfl
@[simp] theorem State.setCan_timServed (k : Nat) (x : CanopyChan) : (s.setCan k x).timServed = s.timServed := by
  unfold State.setCan; split <;> rfl
@[simp] theorem State.setCan_sups (k : Nat) (x : CanopyChan) : (s.setCan k x).sups = s.sups := by
  unfold State.setCan; split <;> rfl
@[simp] theorem State.setCan_mon (k : Nat) (x : CanopyChan) : (s.setCan k x).mon = s.mon := by
  unfold State.setCan; split <;> rfl
@[simp] theorem State.setCan_ddr (k : Nat) (x : CanopyChan) : (s.setCan k x).ddr = s.ddr := by
  unfold State.setCan; split <;> rfl
@[simp] theorem State.setCan_writers (k : Nat) (x : CanopyChan) : (s.setCan k x).writers = s.writers := by
  unfold State.setCan; split <;> rfl
@[simp] theorem State.setCan_trig (k : Nat) (x : CanopyChan) : (s.setCan k x).trig = s.trig := by
  unfold State.setCan; split <;> rfl
@[simp] theorem State.setCan_seqs (k : Nat) (x : CanopyChan) : (s.setCan k x).seqs = s.seqs := by
  unfold State.setCan; split <;> rfl
@[simp] theorem State.setCan_prov (k : Nat) (x : CanopyChan) : (s.setCan k x).prov = s.prov := by
  unfold State.setCan; split <;> rfl
@[simp] theorem State.setCan_pulses (k : Nat) (x : CanopyChan) : (s.setCan k x).pulses = s.pulses := by
  unfold State.setCan; split <;> rfl
@[simp] theorem State.setCan_queues (k : Nat) (x : CanopyChan) : (s.setCan k x).queues = s.queues := by
  unfold State.setCan; split <;> rfl
@[simp] theorem State.setCan_dma (k : Nat) (x : CanopyChan) : (s.setCan k x).dma = s.dma := by
  unfold State.setCan; split <;> rfl
@[simp] theorem State.setCan_feeds (k : Nat) (x : CanopyChan) : (s.setCan k x).feeds = s.feeds := by
  unfold State.setCan; split <;> rfl
@[simp] theorem State.setCan_pwr (k : Nat) (x : CanopyChan) : (s.setCan k x).pwr = s.pwr := by
  unfold State.setCan; split <;> rfl
@[simp] theorem State.setCan_boot (k : Nat) (x : CanopyChan) : (s.setCan k x).boot = s.boot := by
  unfold State.setCan; split <;> rfl
@[simp] theorem State.setCan_hlt (k : Nat) (x : CanopyChan) : (s.setCan k x).hlt = s.hlt := by
  unfold State.setCan; split <;> rfl
@[simp] theorem State.setCan_drv (k : Nat) (x : CanopyChan) : (s.setCan k x).drv = s.drv := by
  unfold State.setCan; split <;> rfl
@[simp] theorem State.setCan_ep (k : Nat) (x : CanopyChan) : (s.setCan k x).ep = s.ep := by
  unfold State.setCan; split <;> rfl
@[simp] theorem State.setCan_heldReqs (k : Nat) (x : CanopyChan) : (s.setCan k x).heldReqs = s.heldReqs := by
  unfold State.setCan; split <;> rfl
@[simp] theorem State.setCan_fab (k : Nat) (x : CanopyChan) : (s.setCan k x).fab = s.fab := by
  unfold State.setCan; split <;> rfl
@[simp] theorem State.setCan_jtag (k : Nat) (x : CanopyChan) : (s.setCan k x).jtag = s.jtag := by
  unfold State.setCan; split <;> rfl
@[simp] theorem State.setCan_out (k : Nat) (x : CanopyChan) : (s.setCan k x).out = s.out := by
  unfold State.setCan; split <;> rfl
@[simp] theorem State.setCan_fresh (k : Nat) (x : CanopyChan) : (s.setCan k x).fresh = s.fresh := by
  unfold State.setCan; split <;> rfl
@[simp] theorem State.setCan_pending (k : Nat) (x : CanopyChan) : (s.setCan k x).pending = s.pending := by
  unfold State.setCan; split <;> rfl
@[simp] theorem State.rd_setCan (k : Nat) (x : CanopyChan) (j : Nat) : (s.setCan k x).rd j = s.rd j := by
  unfold State.setCan; split <;> rfl
@[simp] theorem State.rdByte_setCan (k : Nat) (x : CanopyChan) (a : Nat) : (s.setCan k x).rdByte a = s.rdByte a := by
  unfold State.setCan; split <;> rfl
@[simp] theorem State.can_setCan_same (k : Nat) (x : CanopyChan) (h : k < 4) : (s.setCan k x).can k = x := by
  simp [State.setCan, State.can, h]
theorem State.can_setCan_ne (k j : Nat) (x : CanopyChan) (h : j ≠ k) : (s.setCan k x).can j = s.can j := by
  by_cases hk : k < 4 <;> by_cases hj : j < 4 <;> simp [State.setCan, State.can, hk, hj, Ne.symm h]

@[simp] theorem State.setLane_regs (k : Nat) (x : LaneGroup) : (s.setLane k x).regs = s.regs := by
  unfold State.setLane; split <;> rfl
@[simp] theorem State.setLane_mem (k : Nat) (x : LaneGroup) : (s.setLane k x).mem = s.mem := by
  unfold State.setLane; split <;> rfl
@[simp] theorem State.setLane_misread (k : Nat) (x : LaneGroup) : (s.setLane k x).misread = s.misread := by
  unfold State.setLane; split <;> rfl
@[simp] theorem State.setLane_time (k : Nat) (x : LaneGroup) : (s.setLane k x).time = s.time := by
  unfold State.setLane; split <;> rfl
@[simp] theorem State.setLane_clk (k : Nat) (x : LaneGroup) : (s.setLane k x).clk = s.clk := by
  unfold State.setLane; split <;> rfl
@[simp] theorem State.setLane_ccs (k : Nat) (x : LaneGroup) : (s.setLane k x).ccs = s.ccs := by
  unfold State.setLane; split <;> rfl
@[simp] theorem State.setLane_mgt (k : Nat) (x : LaneGroup) : (s.setLane k x).mgt = s.mgt := by
  unfold State.setLane; split <;> rfl
@[simp] theorem State.setLane_eyes (k : Nat) (x : LaneGroup) : (s.setLane k x).eyes = s.eyes := by
  unfold State.setLane; split <;> rfl
@[simp] theorem State.setLane_cnd (k : Nat) (x : LaneGroup) : (s.setLane k x).cnd = s.cnd := by
  unfold State.setLane; split <;> rfl
@[simp] theorem State.setLane_spx (k : Nat) (x : LaneGroup) : (s.setLane k x).spx = s.spx := by
  unfold State.setLane; split <;> rfl
@[simp] theorem State.setLane_canopy (k : Nat) (x : LaneGroup) : (s.setLane k x).canopy = s.canopy := by
  unfold State.setLane; split <;> rfl
@[simp] theorem State.setLane_spg (k : Nat) (x : LaneGroup) : (s.setLane k x).spg = s.spg := by
  unfold State.setLane; split <;> rfl
@[simp] theorem State.setLane_scn (k : Nat) (x : LaneGroup) : (s.setLane k x).scn = s.scn := by
  unfold State.setLane; split <;> rfl
@[simp] theorem State.setLane_lnt (k : Nat) (x : LaneGroup) : (s.setLane k x).lnt = s.lnt := by
  unfold State.setLane; split <;> rfl
@[simp] theorem State.setLane_pools (k : Nat) (x : LaneGroup) : (s.setLane k x).pools = s.pools := by
  unfold State.setLane; split <;> rfl
@[simp] theorem State.setLane_tims (k : Nat) (x : LaneGroup) : (s.setLane k x).tims = s.tims := by
  unfold State.setLane; split <;> rfl
@[simp] theorem State.setLane_timServed (k : Nat) (x : LaneGroup) : (s.setLane k x).timServed = s.timServed := by
  unfold State.setLane; split <;> rfl
@[simp] theorem State.setLane_sups (k : Nat) (x : LaneGroup) : (s.setLane k x).sups = s.sups := by
  unfold State.setLane; split <;> rfl
@[simp] theorem State.setLane_mon (k : Nat) (x : LaneGroup) : (s.setLane k x).mon = s.mon := by
  unfold State.setLane; split <;> rfl
@[simp] theorem State.setLane_ddr (k : Nat) (x : LaneGroup) : (s.setLane k x).ddr = s.ddr := by
  unfold State.setLane; split <;> rfl
@[simp] theorem State.setLane_writers (k : Nat) (x : LaneGroup) : (s.setLane k x).writers = s.writers := by
  unfold State.setLane; split <;> rfl
@[simp] theorem State.setLane_trig (k : Nat) (x : LaneGroup) : (s.setLane k x).trig = s.trig := by
  unfold State.setLane; split <;> rfl
@[simp] theorem State.setLane_seqs (k : Nat) (x : LaneGroup) : (s.setLane k x).seqs = s.seqs := by
  unfold State.setLane; split <;> rfl
@[simp] theorem State.setLane_prov (k : Nat) (x : LaneGroup) : (s.setLane k x).prov = s.prov := by
  unfold State.setLane; split <;> rfl
@[simp] theorem State.setLane_pulses (k : Nat) (x : LaneGroup) : (s.setLane k x).pulses = s.pulses := by
  unfold State.setLane; split <;> rfl
@[simp] theorem State.setLane_queues (k : Nat) (x : LaneGroup) : (s.setLane k x).queues = s.queues := by
  unfold State.setLane; split <;> rfl
@[simp] theorem State.setLane_dma (k : Nat) (x : LaneGroup) : (s.setLane k x).dma = s.dma := by
  unfold State.setLane; split <;> rfl
@[simp] theorem State.setLane_feeds (k : Nat) (x : LaneGroup) : (s.setLane k x).feeds = s.feeds := by
  unfold State.setLane; split <;> rfl
@[simp] theorem State.setLane_pwr (k : Nat) (x : LaneGroup) : (s.setLane k x).pwr = s.pwr := by
  unfold State.setLane; split <;> rfl
@[simp] theorem State.setLane_boot (k : Nat) (x : LaneGroup) : (s.setLane k x).boot = s.boot := by
  unfold State.setLane; split <;> rfl
@[simp] theorem State.setLane_hlt (k : Nat) (x : LaneGroup) : (s.setLane k x).hlt = s.hlt := by
  unfold State.setLane; split <;> rfl
@[simp] theorem State.setLane_drv (k : Nat) (x : LaneGroup) : (s.setLane k x).drv = s.drv := by
  unfold State.setLane; split <;> rfl
@[simp] theorem State.setLane_ep (k : Nat) (x : LaneGroup) : (s.setLane k x).ep = s.ep := by
  unfold State.setLane; split <;> rfl
@[simp] theorem State.setLane_heldReqs (k : Nat) (x : LaneGroup) : (s.setLane k x).heldReqs = s.heldReqs := by
  unfold State.setLane; split <;> rfl
@[simp] theorem State.setLane_fab (k : Nat) (x : LaneGroup) : (s.setLane k x).fab = s.fab := by
  unfold State.setLane; split <;> rfl
@[simp] theorem State.setLane_jtag (k : Nat) (x : LaneGroup) : (s.setLane k x).jtag = s.jtag := by
  unfold State.setLane; split <;> rfl
@[simp] theorem State.setLane_out (k : Nat) (x : LaneGroup) : (s.setLane k x).out = s.out := by
  unfold State.setLane; split <;> rfl
@[simp] theorem State.setLane_fresh (k : Nat) (x : LaneGroup) : (s.setLane k x).fresh = s.fresh := by
  unfold State.setLane; split <;> rfl
@[simp] theorem State.setLane_pending (k : Nat) (x : LaneGroup) : (s.setLane k x).pending = s.pending := by
  unfold State.setLane; split <;> rfl
@[simp] theorem State.rd_setLane (k : Nat) (x : LaneGroup) (j : Nat) : (s.setLane k x).rd j = s.rd j := by
  unfold State.setLane; split <;> rfl
@[simp] theorem State.rdByte_setLane (k : Nat) (x : LaneGroup) (a : Nat) : (s.setLane k x).rdByte a = s.rdByte a := by
  unfold State.setLane; split <;> rfl
@[simp] theorem State.lane_setLane_same (k : Nat) (x : LaneGroup) (h : k < 4) : (s.setLane k x).lane k = x := by
  simp [State.setLane, State.lane, h]
theorem State.lane_setLane_ne (k j : Nat) (x : LaneGroup) (h : j ≠ k) : (s.setLane k x).lane j = s.lane j := by
  by_cases hk : k < 4 <;> by_cases hj : j < 4 <;> simp [State.setLane, State.lane, hk, hj, Ne.symm h]

@[simp] theorem State.setCnd_regs (k : Nat) (x : CndChan) : (s.setCnd k x).regs = s.regs := by
  unfold State.setCnd; split <;> rfl
@[simp] theorem State.setCnd_mem (k : Nat) (x : CndChan) : (s.setCnd k x).mem = s.mem := by
  unfold State.setCnd; split <;> rfl
@[simp] theorem State.setCnd_misread (k : Nat) (x : CndChan) : (s.setCnd k x).misread = s.misread := by
  unfold State.setCnd; split <;> rfl
@[simp] theorem State.setCnd_time (k : Nat) (x : CndChan) : (s.setCnd k x).time = s.time := by
  unfold State.setCnd; split <;> rfl
@[simp] theorem State.setCnd_clk (k : Nat) (x : CndChan) : (s.setCnd k x).clk = s.clk := by
  unfold State.setCnd; split <;> rfl
@[simp] theorem State.setCnd_ccs (k : Nat) (x : CndChan) : (s.setCnd k x).ccs = s.ccs := by
  unfold State.setCnd; split <;> rfl
@[simp] theorem State.setCnd_mgt (k : Nat) (x : CndChan) : (s.setCnd k x).mgt = s.mgt := by
  unfold State.setCnd; split <;> rfl
@[simp] theorem State.setCnd_lanes (k : Nat) (x : CndChan) : (s.setCnd k x).lanes = s.lanes := by
  unfold State.setCnd; split <;> rfl
@[simp] theorem State.setCnd_eyes (k : Nat) (x : CndChan) : (s.setCnd k x).eyes = s.eyes := by
  unfold State.setCnd; split <;> rfl
@[simp] theorem State.setCnd_spx (k : Nat) (x : CndChan) : (s.setCnd k x).spx = s.spx := by
  unfold State.setCnd; split <;> rfl
@[simp] theorem State.setCnd_canopy (k : Nat) (x : CndChan) : (s.setCnd k x).canopy = s.canopy := by
  unfold State.setCnd; split <;> rfl
@[simp] theorem State.setCnd_spg (k : Nat) (x : CndChan) : (s.setCnd k x).spg = s.spg := by
  unfold State.setCnd; split <;> rfl
@[simp] theorem State.setCnd_scn (k : Nat) (x : CndChan) : (s.setCnd k x).scn = s.scn := by
  unfold State.setCnd; split <;> rfl
@[simp] theorem State.setCnd_lnt (k : Nat) (x : CndChan) : (s.setCnd k x).lnt = s.lnt := by
  unfold State.setCnd; split <;> rfl
@[simp] theorem State.setCnd_pools (k : Nat) (x : CndChan) : (s.setCnd k x).pools = s.pools := by
  unfold State.setCnd; split <;> rfl
@[simp] theorem State.setCnd_tims (k : Nat) (x : CndChan) : (s.setCnd k x).tims = s.tims := by
  unfold State.setCnd; split <;> rfl
@[simp] theorem State.setCnd_timServed (k : Nat) (x : CndChan) : (s.setCnd k x).timServed = s.timServed := by
  unfold State.setCnd; split <;> rfl
@[simp] theorem State.setCnd_sups (k : Nat) (x : CndChan) : (s.setCnd k x).sups = s.sups := by
  unfold State.setCnd; split <;> rfl
@[simp] theorem State.setCnd_mon (k : Nat) (x : CndChan) : (s.setCnd k x).mon = s.mon := by
  unfold State.setCnd; split <;> rfl
@[simp] theorem State.setCnd_ddr (k : Nat) (x : CndChan) : (s.setCnd k x).ddr = s.ddr := by
  unfold State.setCnd; split <;> rfl
@[simp] theorem State.setCnd_writers (k : Nat) (x : CndChan) : (s.setCnd k x).writers = s.writers := by
  unfold State.setCnd; split <;> rfl
@[simp] theorem State.setCnd_trig (k : Nat) (x : CndChan) : (s.setCnd k x).trig = s.trig := by
  unfold State.setCnd; split <;> rfl
@[simp] theorem State.setCnd_seqs (k : Nat) (x : CndChan) : (s.setCnd k x).seqs = s.seqs := by
  unfold State.setCnd; split <;> rfl
@[simp] theorem State.setCnd_prov (k : Nat) (x : CndChan) : (s.setCnd k x).prov = s.prov := by
  unfold State.setCnd; split <;> rfl
@[simp] theorem State.setCnd_pulses (k : Nat) (x : CndChan) : (s.setCnd k x).pulses = s.pulses := by
  unfold State.setCnd; split <;> rfl
@[simp] theorem State.setCnd_queues (k : Nat) (x : CndChan) : (s.setCnd k x).queues = s.queues := by
  unfold State.setCnd; split <;> rfl
@[simp] theorem State.setCnd_dma (k : Nat) (x : CndChan) : (s.setCnd k x).dma = s.dma := by
  unfold State.setCnd; split <;> rfl
@[simp] theorem State.setCnd_feeds (k : Nat) (x : CndChan) : (s.setCnd k x).feeds = s.feeds := by
  unfold State.setCnd; split <;> rfl
@[simp] theorem State.setCnd_pwr (k : Nat) (x : CndChan) : (s.setCnd k x).pwr = s.pwr := by
  unfold State.setCnd; split <;> rfl
@[simp] theorem State.setCnd_boot (k : Nat) (x : CndChan) : (s.setCnd k x).boot = s.boot := by
  unfold State.setCnd; split <;> rfl
@[simp] theorem State.setCnd_hlt (k : Nat) (x : CndChan) : (s.setCnd k x).hlt = s.hlt := by
  unfold State.setCnd; split <;> rfl
@[simp] theorem State.setCnd_drv (k : Nat) (x : CndChan) : (s.setCnd k x).drv = s.drv := by
  unfold State.setCnd; split <;> rfl
@[simp] theorem State.setCnd_ep (k : Nat) (x : CndChan) : (s.setCnd k x).ep = s.ep := by
  unfold State.setCnd; split <;> rfl
@[simp] theorem State.setCnd_heldReqs (k : Nat) (x : CndChan) : (s.setCnd k x).heldReqs = s.heldReqs := by
  unfold State.setCnd; split <;> rfl
@[simp] theorem State.setCnd_fab (k : Nat) (x : CndChan) : (s.setCnd k x).fab = s.fab := by
  unfold State.setCnd; split <;> rfl
@[simp] theorem State.setCnd_jtag (k : Nat) (x : CndChan) : (s.setCnd k x).jtag = s.jtag := by
  unfold State.setCnd; split <;> rfl
@[simp] theorem State.setCnd_out (k : Nat) (x : CndChan) : (s.setCnd k x).out = s.out := by
  unfold State.setCnd; split <;> rfl
@[simp] theorem State.setCnd_fresh (k : Nat) (x : CndChan) : (s.setCnd k x).fresh = s.fresh := by
  unfold State.setCnd; split <;> rfl
@[simp] theorem State.setCnd_pending (k : Nat) (x : CndChan) : (s.setCnd k x).pending = s.pending := by
  unfold State.setCnd; split <;> rfl
@[simp] theorem State.rd_setCnd (k : Nat) (x : CndChan) (j : Nat) : (s.setCnd k x).rd j = s.rd j := by
  unfold State.setCnd; split <;> rfl
@[simp] theorem State.rdByte_setCnd (k : Nat) (x : CndChan) (a : Nat) : (s.setCnd k x).rdByte a = s.rdByte a := by
  unfold State.setCnd; split <;> rfl
@[simp] theorem State.cndCh_setCnd_same (k : Nat) (x : CndChan) (h : k < 4) : (s.setCnd k x).cndCh k = x := by
  simp [State.setCnd, State.cndCh, h]
theorem State.cndCh_setCnd_ne (k j : Nat) (x : CndChan) (h : j ≠ k) : (s.setCnd k x).cndCh j = s.cndCh j := by
  by_cases hk : k < 4 <;> by_cases hj : j < 4 <;> simp [State.setCnd, State.cndCh, hk, hj, Ne.symm h]

@[simp] theorem State.setRes_regs (k : Nat) (x : SpxRes) : (s.setRes k x).regs = s.regs := by
  unfold State.setRes; split <;> rfl
@[simp] theorem State.setRes_mem (k : Nat) (x : SpxRes) : (s.setRes k x).mem = s.mem := by
  unfold State.setRes; split <;> rfl
@[simp] theorem State.setRes_misread (k : Nat) (x : SpxRes) : (s.setRes k x).misread = s.misread := by
  unfold State.setRes; split <;> rfl
@[simp] theorem State.setRes_time (k : Nat) (x : SpxRes) : (s.setRes k x).time = s.time := by
  unfold State.setRes; split <;> rfl
@[simp] theorem State.setRes_clk (k : Nat) (x : SpxRes) : (s.setRes k x).clk = s.clk := by
  unfold State.setRes; split <;> rfl
@[simp] theorem State.setRes_ccs (k : Nat) (x : SpxRes) : (s.setRes k x).ccs = s.ccs := by
  unfold State.setRes; split <;> rfl
@[simp] theorem State.setRes_mgt (k : Nat) (x : SpxRes) : (s.setRes k x).mgt = s.mgt := by
  unfold State.setRes; split <;> rfl
@[simp] theorem State.setRes_lanes (k : Nat) (x : SpxRes) : (s.setRes k x).lanes = s.lanes := by
  unfold State.setRes; split <;> rfl
@[simp] theorem State.setRes_eyes (k : Nat) (x : SpxRes) : (s.setRes k x).eyes = s.eyes := by
  unfold State.setRes; split <;> rfl
@[simp] theorem State.setRes_cnd (k : Nat) (x : SpxRes) : (s.setRes k x).cnd = s.cnd := by
  unfold State.setRes; split <;> rfl
@[simp] theorem State.setRes_canopy (k : Nat) (x : SpxRes) : (s.setRes k x).canopy = s.canopy := by
  unfold State.setRes; split <;> rfl
@[simp] theorem State.setRes_spg (k : Nat) (x : SpxRes) : (s.setRes k x).spg = s.spg := by
  unfold State.setRes; split <;> rfl
@[simp] theorem State.setRes_scn (k : Nat) (x : SpxRes) : (s.setRes k x).scn = s.scn := by
  unfold State.setRes; split <;> rfl
@[simp] theorem State.setRes_lnt (k : Nat) (x : SpxRes) : (s.setRes k x).lnt = s.lnt := by
  unfold State.setRes; split <;> rfl
@[simp] theorem State.setRes_pools (k : Nat) (x : SpxRes) : (s.setRes k x).pools = s.pools := by
  unfold State.setRes; split <;> rfl
@[simp] theorem State.setRes_tims (k : Nat) (x : SpxRes) : (s.setRes k x).tims = s.tims := by
  unfold State.setRes; split <;> rfl
@[simp] theorem State.setRes_timServed (k : Nat) (x : SpxRes) : (s.setRes k x).timServed = s.timServed := by
  unfold State.setRes; split <;> rfl
@[simp] theorem State.setRes_sups (k : Nat) (x : SpxRes) : (s.setRes k x).sups = s.sups := by
  unfold State.setRes; split <;> rfl
@[simp] theorem State.setRes_mon (k : Nat) (x : SpxRes) : (s.setRes k x).mon = s.mon := by
  unfold State.setRes; split <;> rfl
@[simp] theorem State.setRes_ddr (k : Nat) (x : SpxRes) : (s.setRes k x).ddr = s.ddr := by
  unfold State.setRes; split <;> rfl
@[simp] theorem State.setRes_writers (k : Nat) (x : SpxRes) : (s.setRes k x).writers = s.writers := by
  unfold State.setRes; split <;> rfl
@[simp] theorem State.setRes_trig (k : Nat) (x : SpxRes) : (s.setRes k x).trig = s.trig := by
  unfold State.setRes; split <;> rfl
@[simp] theorem State.setRes_seqs (k : Nat) (x : SpxRes) : (s.setRes k x).seqs = s.seqs := by
  unfold State.setRes; split <;> rfl
@[simp] theorem State.setRes_prov (k : Nat) (x : SpxRes) : (s.setRes k x).prov = s.prov := by
  unfold State.setRes; split <;> rfl
@[simp] theorem State.setRes_pulses (k : Nat) (x : SpxRes) : (s.setRes k x).pulses = s.pulses := by
  unfold State.setRes; split <;> rfl
@[simp] theorem State.setRes_queues (k : Nat) (x : SpxRes) : (s.setRes k x).queues = s.queues := by
  unfold State.setRes; split <;> rfl
@[simp] theorem State.setRes_dma (k : Nat) (x : SpxRes) : (s.setRes k x).dma = s.dma := by
  unfold State.setRes; split <;> rfl
@[simp] theorem State.setRes_feeds (k : Nat) (x : SpxRes) : (s.setRes k x).feeds = s.feeds := by
  unfold State.setRes; split <;> rfl
@[simp] theorem State.setRes_pwr (k : Nat) (x : SpxRes) : (s.setRes k x).pwr = s.pwr := by
  unfold State.setRes; split <;> rfl
@[simp] theorem State.setRes_boot (k : Nat) (x : SpxRes) : (s.setRes k x).boot = s.boot := by
  unfold State.setRes; split <;> rfl
@[simp] theorem State.setRes_hlt (k : Nat) (x : SpxRes) : (s.setRes k x).hlt = s.hlt := by
  unfold State.setRes; split <;> rfl
@[simp] theorem State.setRes_drv (k : Nat) (x : SpxRes) : (s.setRes k x).drv = s.drv := by
  unfold State.setRes; split <;> rfl
@[simp] theorem State.setRes_ep (k : Nat) (x : SpxRes) : (s.setRes k x).ep = s.ep := by
  unfold State.setRes; split <;> rfl
@[simp] theorem State.setRes_heldReqs (k : Nat) (x : SpxRes) : (s.setRes k x).heldReqs = s.heldReqs := by
  unfold State.setRes; split <;> rfl
@[simp] theorem State.setRes_fab (k : Nat) (x : SpxRes) : (s.setRes k x).fab = s.fab := by
  unfold State.setRes; split <;> rfl
@[simp] theorem State.setRes_jtag (k : Nat) (x : SpxRes) : (s.setRes k x).jtag = s.jtag := by
  unfold State.setRes; split <;> rfl
@[simp] theorem State.setRes_out (k : Nat) (x : SpxRes) : (s.setRes k x).out = s.out := by
  unfold State.setRes; split <;> rfl
@[simp] theorem State.setRes_fresh (k : Nat) (x : SpxRes) : (s.setRes k x).fresh = s.fresh := by
  unfold State.setRes; split <;> rfl
@[simp] theorem State.setRes_pending (k : Nat) (x : SpxRes) : (s.setRes k x).pending = s.pending := by
  unfold State.setRes; split <;> rfl
@[simp] theorem State.rd_setRes (k : Nat) (x : SpxRes) (j : Nat) : (s.setRes k x).rd j = s.rd j := by
  unfold State.setRes; split <;> rfl
@[simp] theorem State.rdByte_setRes (k : Nat) (x : SpxRes) (a : Nat) : (s.setRes k x).rdByte a = s.rdByte a := by
  unfold State.setRes; split <;> rfl
@[simp] theorem State.res_setRes_same (k : Nat) (x : SpxRes) (h : k < 8) : (s.setRes k x).res k = x := by
  simp [State.setRes, State.res, h]
theorem State.res_setRes_ne (k j : Nat) (x : SpxRes) (h : j ≠ k) : (s.setRes k x).res j = s.res j := by
  by_cases hk : k < 8 <;> by_cases hj : j < 8 <;> simp [State.setRes, State.res, hk, hj, Ne.symm h]

@[simp] theorem State.setSpg_regs (k : Nat) (x : SpgChan) : (s.setSpg k x).regs = s.regs := by
  unfold State.setSpg; split <;> rfl
@[simp] theorem State.setSpg_mem (k : Nat) (x : SpgChan) : (s.setSpg k x).mem = s.mem := by
  unfold State.setSpg; split <;> rfl
@[simp] theorem State.setSpg_misread (k : Nat) (x : SpgChan) : (s.setSpg k x).misread = s.misread := by
  unfold State.setSpg; split <;> rfl
@[simp] theorem State.setSpg_time (k : Nat) (x : SpgChan) : (s.setSpg k x).time = s.time := by
  unfold State.setSpg; split <;> rfl
@[simp] theorem State.setSpg_clk (k : Nat) (x : SpgChan) : (s.setSpg k x).clk = s.clk := by
  unfold State.setSpg; split <;> rfl
@[simp] theorem State.setSpg_ccs (k : Nat) (x : SpgChan) : (s.setSpg k x).ccs = s.ccs := by
  unfold State.setSpg; split <;> rfl
@[simp] theorem State.setSpg_mgt (k : Nat) (x : SpgChan) : (s.setSpg k x).mgt = s.mgt := by
  unfold State.setSpg; split <;> rfl
@[simp] theorem State.setSpg_lanes (k : Nat) (x : SpgChan) : (s.setSpg k x).lanes = s.lanes := by
  unfold State.setSpg; split <;> rfl
@[simp] theorem State.setSpg_eyes (k : Nat) (x : SpgChan) : (s.setSpg k x).eyes = s.eyes := by
  unfold State.setSpg; split <;> rfl
@[simp] theorem State.setSpg_cnd (k : Nat) (x : SpgChan) : (s.setSpg k x).cnd = s.cnd := by
  unfold State.setSpg; split <;> rfl
@[simp] theorem State.setSpg_spx (k : Nat) (x : SpgChan) : (s.setSpg k x).spx = s.spx := by
  unfold State.setSpg; split <;> rfl
@[simp] theorem State.setSpg_canopy (k : Nat) (x : SpgChan) : (s.setSpg k x).canopy = s.canopy := by
  unfold State.setSpg; split <;> rfl
@[simp] theorem State.setSpg_scn (k : Nat) (x : SpgChan) : (s.setSpg k x).scn = s.scn := by
  unfold State.setSpg; split <;> rfl
@[simp] theorem State.setSpg_lnt (k : Nat) (x : SpgChan) : (s.setSpg k x).lnt = s.lnt := by
  unfold State.setSpg; split <;> rfl
@[simp] theorem State.setSpg_pools (k : Nat) (x : SpgChan) : (s.setSpg k x).pools = s.pools := by
  unfold State.setSpg; split <;> rfl
@[simp] theorem State.setSpg_tims (k : Nat) (x : SpgChan) : (s.setSpg k x).tims = s.tims := by
  unfold State.setSpg; split <;> rfl
@[simp] theorem State.setSpg_timServed (k : Nat) (x : SpgChan) : (s.setSpg k x).timServed = s.timServed := by
  unfold State.setSpg; split <;> rfl
@[simp] theorem State.setSpg_sups (k : Nat) (x : SpgChan) : (s.setSpg k x).sups = s.sups := by
  unfold State.setSpg; split <;> rfl
@[simp] theorem State.setSpg_mon (k : Nat) (x : SpgChan) : (s.setSpg k x).mon = s.mon := by
  unfold State.setSpg; split <;> rfl
@[simp] theorem State.setSpg_ddr (k : Nat) (x : SpgChan) : (s.setSpg k x).ddr = s.ddr := by
  unfold State.setSpg; split <;> rfl
@[simp] theorem State.setSpg_writers (k : Nat) (x : SpgChan) : (s.setSpg k x).writers = s.writers := by
  unfold State.setSpg; split <;> rfl
@[simp] theorem State.setSpg_trig (k : Nat) (x : SpgChan) : (s.setSpg k x).trig = s.trig := by
  unfold State.setSpg; split <;> rfl
@[simp] theorem State.setSpg_seqs (k : Nat) (x : SpgChan) : (s.setSpg k x).seqs = s.seqs := by
  unfold State.setSpg; split <;> rfl
@[simp] theorem State.setSpg_prov (k : Nat) (x : SpgChan) : (s.setSpg k x).prov = s.prov := by
  unfold State.setSpg; split <;> rfl
@[simp] theorem State.setSpg_pulses (k : Nat) (x : SpgChan) : (s.setSpg k x).pulses = s.pulses := by
  unfold State.setSpg; split <;> rfl
@[simp] theorem State.setSpg_queues (k : Nat) (x : SpgChan) : (s.setSpg k x).queues = s.queues := by
  unfold State.setSpg; split <;> rfl
@[simp] theorem State.setSpg_dma (k : Nat) (x : SpgChan) : (s.setSpg k x).dma = s.dma := by
  unfold State.setSpg; split <;> rfl
@[simp] theorem State.setSpg_feeds (k : Nat) (x : SpgChan) : (s.setSpg k x).feeds = s.feeds := by
  unfold State.setSpg; split <;> rfl
@[simp] theorem State.setSpg_pwr (k : Nat) (x : SpgChan) : (s.setSpg k x).pwr = s.pwr := by
  unfold State.setSpg; split <;> rfl
@[simp] theorem State.setSpg_boot (k : Nat) (x : SpgChan) : (s.setSpg k x).boot = s.boot := by
  unfold State.setSpg; split <;> rfl
@[simp] theorem State.setSpg_hlt (k : Nat) (x : SpgChan) : (s.setSpg k x).hlt = s.hlt := by
  unfold State.setSpg; split <;> rfl
@[simp] theorem State.setSpg_drv (k : Nat) (x : SpgChan) : (s.setSpg k x).drv = s.drv := by
  unfold State.setSpg; split <;> rfl
@[simp] theorem State.setSpg_ep (k : Nat) (x : SpgChan) : (s.setSpg k x).ep = s.ep := by
  unfold State.setSpg; split <;> rfl
@[simp] theorem State.setSpg_heldReqs (k : Nat) (x : SpgChan) : (s.setSpg k x).heldReqs = s.heldReqs := by
  unfold State.setSpg; split <;> rfl
@[simp] theorem State.setSpg_fab (k : Nat) (x : SpgChan) : (s.setSpg k x).fab = s.fab := by
  unfold State.setSpg; split <;> rfl
@[simp] theorem State.setSpg_jtag (k : Nat) (x : SpgChan) : (s.setSpg k x).jtag = s.jtag := by
  unfold State.setSpg; split <;> rfl
@[simp] theorem State.setSpg_out (k : Nat) (x : SpgChan) : (s.setSpg k x).out = s.out := by
  unfold State.setSpg; split <;> rfl
@[simp] theorem State.setSpg_fresh (k : Nat) (x : SpgChan) : (s.setSpg k x).fresh = s.fresh := by
  unfold State.setSpg; split <;> rfl
@[simp] theorem State.setSpg_pending (k : Nat) (x : SpgChan) : (s.setSpg k x).pending = s.pending := by
  unfold State.setSpg; split <;> rfl
@[simp] theorem State.rd_setSpg (k : Nat) (x : SpgChan) (j : Nat) : (s.setSpg k x).rd j = s.rd j := by
  unfold State.setSpg; split <;> rfl
@[simp] theorem State.rdByte_setSpg (k : Nat) (x : SpgChan) (a : Nat) : (s.setSpg k x).rdByte a = s.rdByte a := by
  unfold State.setSpg; split <;> rfl
@[simp] theorem State.spgCh_setSpg_same (k : Nat) (x : SpgChan) (h : k < 4) : (s.setSpg k x).spgCh k = x := by
  simp [State.setSpg, State.spgCh, h]
theorem State.spgCh_setSpg_ne (k j : Nat) (x : SpgChan) (h : j ≠ k) : (s.setSpg k x).spgCh j = s.spgCh j := by
  by_cases hk : k < 4 <;> by_cases hj : j < 4 <;> simp [State.setSpg, State.spgCh, hk, hj, Ne.symm h]

@[simp] theorem State.setWriter_regs (k : Nat) (x : Writer) : (s.setWriter k x).regs = s.regs := by
  unfold State.setWriter; split <;> rfl
@[simp] theorem State.setWriter_mem (k : Nat) (x : Writer) : (s.setWriter k x).mem = s.mem := by
  unfold State.setWriter; split <;> rfl
@[simp] theorem State.setWriter_misread (k : Nat) (x : Writer) : (s.setWriter k x).misread = s.misread := by
  unfold State.setWriter; split <;> rfl
@[simp] theorem State.setWriter_time (k : Nat) (x : Writer) : (s.setWriter k x).time = s.time := by
  unfold State.setWriter; split <;> rfl
@[simp] theorem State.setWriter_clk (k : Nat) (x : Writer) : (s.setWriter k x).clk = s.clk := by
  unfold State.setWriter; split <;> rfl
@[simp] theorem State.setWriter_ccs (k : Nat) (x : Writer) : (s.setWriter k x).ccs = s.ccs := by
  unfold State.setWriter; split <;> rfl
@[simp] theorem State.setWriter_mgt (k : Nat) (x : Writer) : (s.setWriter k x).mgt = s.mgt := by
  unfold State.setWriter; split <;> rfl
@[simp] theorem State.setWriter_lanes (k : Nat) (x : Writer) : (s.setWriter k x).lanes = s.lanes := by
  unfold State.setWriter; split <;> rfl
@[simp] theorem State.setWriter_eyes (k : Nat) (x : Writer) : (s.setWriter k x).eyes = s.eyes := by
  unfold State.setWriter; split <;> rfl
@[simp] theorem State.setWriter_cnd (k : Nat) (x : Writer) : (s.setWriter k x).cnd = s.cnd := by
  unfold State.setWriter; split <;> rfl
@[simp] theorem State.setWriter_spx (k : Nat) (x : Writer) : (s.setWriter k x).spx = s.spx := by
  unfold State.setWriter; split <;> rfl
@[simp] theorem State.setWriter_canopy (k : Nat) (x : Writer) : (s.setWriter k x).canopy = s.canopy := by
  unfold State.setWriter; split <;> rfl
@[simp] theorem State.setWriter_spg (k : Nat) (x : Writer) : (s.setWriter k x).spg = s.spg := by
  unfold State.setWriter; split <;> rfl
@[simp] theorem State.setWriter_scn (k : Nat) (x : Writer) : (s.setWriter k x).scn = s.scn := by
  unfold State.setWriter; split <;> rfl
@[simp] theorem State.setWriter_lnt (k : Nat) (x : Writer) : (s.setWriter k x).lnt = s.lnt := by
  unfold State.setWriter; split <;> rfl
@[simp] theorem State.setWriter_pools (k : Nat) (x : Writer) : (s.setWriter k x).pools = s.pools := by
  unfold State.setWriter; split <;> rfl
@[simp] theorem State.setWriter_tims (k : Nat) (x : Writer) : (s.setWriter k x).tims = s.tims := by
  unfold State.setWriter; split <;> rfl
@[simp] theorem State.setWriter_timServed (k : Nat) (x : Writer) : (s.setWriter k x).timServed = s.timServed := by
  unfold State.setWriter; split <;> rfl
@[simp] theorem State.setWriter_sups (k : Nat) (x : Writer) : (s.setWriter k x).sups = s.sups := by
  unfold State.setWriter; split <;> rfl
@[simp] theorem State.setWriter_mon (k : Nat) (x : Writer) : (s.setWriter k x).mon = s.mon := by
  unfold State.setWriter; split <;> rfl
@[simp] theorem State.setWriter_ddr (k : Nat) (x : Writer) : (s.setWriter k x).ddr = s.ddr := by
  unfold State.setWriter; split <;> rfl
@[simp] theorem State.setWriter_trig (k : Nat) (x : Writer) : (s.setWriter k x).trig = s.trig := by
  unfold State.setWriter; split <;> rfl
@[simp] theorem State.setWriter_seqs (k : Nat) (x : Writer) : (s.setWriter k x).seqs = s.seqs := by
  unfold State.setWriter; split <;> rfl
@[simp] theorem State.setWriter_prov (k : Nat) (x : Writer) : (s.setWriter k x).prov = s.prov := by
  unfold State.setWriter; split <;> rfl
@[simp] theorem State.setWriter_pulses (k : Nat) (x : Writer) : (s.setWriter k x).pulses = s.pulses := by
  unfold State.setWriter; split <;> rfl
@[simp] theorem State.setWriter_queues (k : Nat) (x : Writer) : (s.setWriter k x).queues = s.queues := by
  unfold State.setWriter; split <;> rfl
@[simp] theorem State.setWriter_dma (k : Nat) (x : Writer) : (s.setWriter k x).dma = s.dma := by
  unfold State.setWriter; split <;> rfl
@[simp] theorem State.setWriter_feeds (k : Nat) (x : Writer) : (s.setWriter k x).feeds = s.feeds := by
  unfold State.setWriter; split <;> rfl
@[simp] theorem State.setWriter_pwr (k : Nat) (x : Writer) : (s.setWriter k x).pwr = s.pwr := by
  unfold State.setWriter; split <;> rfl
@[simp] theorem State.setWriter_boot (k : Nat) (x : Writer) : (s.setWriter k x).boot = s.boot := by
  unfold State.setWriter; split <;> rfl
@[simp] theorem State.setWriter_hlt (k : Nat) (x : Writer) : (s.setWriter k x).hlt = s.hlt := by
  unfold State.setWriter; split <;> rfl
@[simp] theorem State.setWriter_drv (k : Nat) (x : Writer) : (s.setWriter k x).drv = s.drv := by
  unfold State.setWriter; split <;> rfl
@[simp] theorem State.setWriter_ep (k : Nat) (x : Writer) : (s.setWriter k x).ep = s.ep := by
  unfold State.setWriter; split <;> rfl
@[simp] theorem State.setWriter_heldReqs (k : Nat) (x : Writer) : (s.setWriter k x).heldReqs = s.heldReqs := by
  unfold State.setWriter; split <;> rfl
@[simp] theorem State.setWriter_fab (k : Nat) (x : Writer) : (s.setWriter k x).fab = s.fab := by
  unfold State.setWriter; split <;> rfl
@[simp] theorem State.setWriter_jtag (k : Nat) (x : Writer) : (s.setWriter k x).jtag = s.jtag := by
  unfold State.setWriter; split <;> rfl
@[simp] theorem State.setWriter_out (k : Nat) (x : Writer) : (s.setWriter k x).out = s.out := by
  unfold State.setWriter; split <;> rfl
@[simp] theorem State.setWriter_fresh (k : Nat) (x : Writer) : (s.setWriter k x).fresh = s.fresh := by
  unfold State.setWriter; split <;> rfl
@[simp] theorem State.setWriter_pending (k : Nat) (x : Writer) : (s.setWriter k x).pending = s.pending := by
  unfold State.setWriter; split <;> rfl
@[simp] theorem State.rd_setWriter (k : Nat) (x : Writer) (j : Nat) : (s.setWriter k x).rd j = s.rd j := by
  unfold State.setWriter; split <;> rfl
@[simp] theorem State.rdByte_setWriter (k : Nat) (x : Writer) (a : Nat) : (s.setWriter k x).rdByte a = s.rdByte a := by
  unfold State.setWriter; split <;> rfl
@[simp] theorem State.writer_setWriter_same (k : Nat) (x : Writer) (h : k < 4) : (s.setWriter k x).writer k = x := by
  simp [State.setWriter, State.writer, h]
theorem State.writer_setWriter_ne (k j : Nat) (x : Writer) (h : j ≠ k) : (s.setWriter k x).writer j = s.writer j := by
  by_cases hk : k < 4 <;> by_cases hj : j < 4 <;> simp [State.setWriter, State.writer, hk, hj, Ne.symm h]

@[simp] theorem State.setCore_regs (k : Nat) (x : LntCore) : (s.setCore k x).regs = s.regs := by
  unfold State.setCore; split <;> rfl
@[simp] theorem State.setCore_mem (k : Nat) (x : LntCore) : (s.setCore k x).mem = s.mem := by
  unfold State.setCore; split <;> rfl
@[simp] theorem State.setCore_misread (k : Nat) (x : LntCore) : (s.setCore k x).misread = s.misread := by
  unfold State.setCore; split <;> rfl
@[simp] theorem State.setCore_time (k : Nat) (x : LntCore) : (s.setCore k x).time = s.time := by
  unfold State.setCore; split <;> rfl
@[simp] theorem State.setCore_clk (k : Nat) (x : LntCore) : (s.setCore k x).clk = s.clk := by
  unfold State.setCore; split <;> rfl
@[simp] theorem State.setCore_ccs (k : Nat) (x : LntCore) : (s.setCore k x).ccs = s.ccs := by
  unfold State.setCore; split <;> rfl
@[simp] theorem State.setCore_mgt (k : Nat) (x : LntCore) : (s.setCore k x).mgt = s.mgt := by
  unfold State.setCore; split <;> rfl
@[simp] theorem State.setCore_lanes (k : Nat) (x : LntCore) : (s.setCore k x).lanes = s.lanes := by
  unfold State.setCore; split <;> rfl
@[simp] theorem State.setCore_eyes (k : Nat) (x : LntCore) : (s.setCore k x).eyes = s.eyes := by
  unfold State.setCore; split <;> rfl
@[simp] theorem State.setCore_cnd (k : Nat) (x : LntCore) : (s.setCore k x).cnd = s.cnd := by
  unfold State.setCore; split <;> rfl
@[simp] theorem State.setCore_spx (k : Nat) (x : LntCore) : (s.setCore k x).spx = s.spx := by
  unfold State.setCore; split <;> rfl
@[simp] theorem State.setCore_canopy (k : Nat) (x : LntCore) : (s.setCore k x).canopy = s.canopy := by
  unfold State.setCore; split <;> rfl
@[simp] theorem State.setCore_spg (k : Nat) (x : LntCore) : (s.setCore k x).spg = s.spg := by
  unfold State.setCore; split <;> rfl
@[simp] theorem State.setCore_scn (k : Nat) (x : LntCore) : (s.setCore k x).scn = s.scn := by
  unfold State.setCore; split <;> rfl
@[simp] theorem State.setCore_pools (k : Nat) (x : LntCore) : (s.setCore k x).pools = s.pools := by
  unfold State.setCore; split <;> rfl
@[simp] theorem State.setCore_tims (k : Nat) (x : LntCore) : (s.setCore k x).tims = s.tims := by
  unfold State.setCore; split <;> rfl
@[simp] theorem State.setCore_timServed (k : Nat) (x : LntCore) : (s.setCore k x).timServed = s.timServed := by
  unfold State.setCore; split <;> rfl
@[simp] theorem State.setCore_sups (k : Nat) (x : LntCore) : (s.setCore k x).sups = s.sups := by
  unfold State.setCore; split <;> rfl
@[simp] theorem State.setCore_mon (k : Nat) (x : LntCore) : (s.setCore k x).mon = s.mon := by
  unfold State.setCore; split <;> rfl
@[simp] theorem State.setCore_ddr (k : Nat) (x : LntCore) : (s.setCore k x).ddr = s.ddr := by
  unfold State.setCore; split <;> rfl
@[simp] theorem State.setCore_writers (k : Nat) (x : LntCore) : (s.setCore k x).writers = s.writers := by
  unfold State.setCore; split <;> rfl
@[simp] theorem State.setCore_trig (k : Nat) (x : LntCore) : (s.setCore k x).trig = s.trig := by
  unfold State.setCore; split <;> rfl
@[simp] theorem State.setCore_seqs (k : Nat) (x : LntCore) : (s.setCore k x).seqs = s.seqs := by
  unfold State.setCore; split <;> rfl
@[simp] theorem State.setCore_prov (k : Nat) (x : LntCore) : (s.setCore k x).prov = s.prov := by
  unfold State.setCore; split <;> rfl
@[simp] theorem State.setCore_pulses (k : Nat) (x : LntCore) : (s.setCore k x).pulses = s.pulses := by
  unfold State.setCore; split <;> rfl
@[simp] theorem State.setCore_queues (k : Nat) (x : LntCore) : (s.setCore k x).queues = s.queues := by
  unfold State.setCore; split <;> rfl
@[simp] theorem State.setCore_dma (k : Nat) (x : LntCore) : (s.setCore k x).dma = s.dma := by
  unfold State.setCore; split <;> rfl
@[simp] theorem State.setCore_feeds (k : Nat) (x : LntCore) : (s.setCore k x).feeds = s.feeds := by
  unfold State.setCore; split <;> rfl
@[simp] theorem State.setCore_pwr (k : Nat) (x : LntCore) : (s.setCore k x).pwr = s.pwr := by
  unfold State.setCore; split <;> rfl
@[simp] theorem State.setCore_boot (k : Nat) (x : LntCore) : (s.setCore k x).boot = s.boot := by
  unfold State.setCore; split <;> rfl
@[simp] theorem State.setCore_hlt (k : Nat) (x : LntCore) : (s.setCore k x).hlt = s.hlt := by
  unfold State.setCore; split <;> rfl
@[simp] theorem State.setCore_drv (k : Nat) (x : LntCore) : (s.setCore k x).drv = s.drv := by
  unfold State.setCore; split <;> rfl
@[simp] theorem State.setCore_ep (k : Nat) (x : LntCore) : (s.setCore k x).ep = s.ep := by
  unfold State.setCore; split <;> rfl
@[simp] theorem State.setCore_heldReqs (k : Nat) (x : LntCore) : (s.setCore k x).heldReqs = s.heldReqs := by
  unfold State.setCore; split <;> rfl
@[simp] theorem State.setCore_fab (k : Nat) (x : LntCore) : (s.setCore k x).fab = s.fab := by
  unfold State.setCore; split <;> rfl
@[simp] theorem State.setCore_jtag (k : Nat) (x : LntCore) : (s.setCore k x).jtag = s.jtag := by
  unfold State.setCore; split <;> rfl
@[simp] theorem State.setCore_out (k : Nat) (x : LntCore) : (s.setCore k x).out = s.out := by
  unfold State.setCore; split <;> rfl
@[simp] theorem State.setCore_fresh (k : Nat) (x : LntCore) : (s.setCore k x).fresh = s.fresh := by
  unfold State.setCore; split <;> rfl
@[simp] theorem State.setCore_pending (k : Nat) (x : LntCore) : (s.setCore k x).pending = s.pending := by
  unfold State.setCore; split <;> rfl
@[simp] theorem State.rd_setCore (k : Nat) (x : LntCore) (j : Nat) : (s.setCore k x).rd j = s.rd j := by
  unfold State.setCore; split <;> rfl
@[simp] theorem State.rdByte_setCore (k : Nat) (x : LntCore) (a : Nat) : (s.setCore k x).rdByte a = s.rdByte a := by
  unfold State.setCore; split <;> rfl
@[simp] theorem State.core_setCore_same (k : Nat) (x : LntCore) (h : k < 32) : (s.setCore k x).core k = x := by
  simp [State.setCore, State.core, h]
theorem State.core_setCore_ne (k j : Nat) (x : LntCore) (h : j ≠ k) : (s.setCore k x).core j = s.core j := by
  by_cases hk : k < 32 <;> by_cases hj : j < 32 <;> simp [State.setCore, State.core, hk, hj, Ne.symm h]

@[simp] theorem State.setSeq_regs (k : Nat) (x : Seq) : (s.setSeq k x).regs = s.regs := by
  unfold State.setSeq; split <;> rfl
@[simp] theorem State.setSeq_mem (k : Nat) (x : Seq) : (s.setSeq k x).mem = s.mem := by
  unfold State.setSeq; split <;> rfl
@[simp] theorem State.setSeq_misread (k : Nat) (x : Seq) : (s.setSeq k x).misread = s.misread := by
  unfold State.setSeq; split <;> rfl
@[simp] theorem State.setSeq_time (k : Nat) (x : Seq) : (s.setSeq k x).time = s.time := by
  unfold State.setSeq; split <;> rfl
@[simp] theorem State.setSeq_clk (k : Nat) (x : Seq) : (s.setSeq k x).clk = s.clk := by
  unfold State.setSeq; split <;> rfl
@[simp] theorem State.setSeq_ccs (k : Nat) (x : Seq) : (s.setSeq k x).ccs = s.ccs := by
  unfold State.setSeq; split <;> rfl
@[simp] theorem State.setSeq_mgt (k : Nat) (x : Seq) : (s.setSeq k x).mgt = s.mgt := by
  unfold State.setSeq; split <;> rfl
@[simp] theorem State.setSeq_lanes (k : Nat) (x : Seq) : (s.setSeq k x).lanes = s.lanes := by
  unfold State.setSeq; split <;> rfl
@[simp] theorem State.setSeq_eyes (k : Nat) (x : Seq) : (s.setSeq k x).eyes = s.eyes := by
  unfold State.setSeq; split <;> rfl
@[simp] theorem State.setSeq_cnd (k : Nat) (x : Seq) : (s.setSeq k x).cnd = s.cnd := by
  unfold State.setSeq; split <;> rfl
@[simp] theorem State.setSeq_spx (k : Nat) (x : Seq) : (s.setSeq k x).spx = s.spx := by
  unfold State.setSeq; split <;> rfl
@[simp] theorem State.setSeq_canopy (k : Nat) (x : Seq) : (s.setSeq k x).canopy = s.canopy := by
  unfold State.setSeq; split <;> rfl
@[simp] theorem State.setSeq_spg (k : Nat) (x : Seq) : (s.setSeq k x).spg = s.spg := by
  unfold State.setSeq; split <;> rfl
@[simp] theorem State.setSeq_scn (k : Nat) (x : Seq) : (s.setSeq k x).scn = s.scn := by
  unfold State.setSeq; split <;> rfl
@[simp] theorem State.setSeq_lnt (k : Nat) (x : Seq) : (s.setSeq k x).lnt = s.lnt := by
  unfold State.setSeq; split <;> rfl
@[simp] theorem State.setSeq_pools (k : Nat) (x : Seq) : (s.setSeq k x).pools = s.pools := by
  unfold State.setSeq; split <;> rfl
@[simp] theorem State.setSeq_tims (k : Nat) (x : Seq) : (s.setSeq k x).tims = s.tims := by
  unfold State.setSeq; split <;> rfl
@[simp] theorem State.setSeq_timServed (k : Nat) (x : Seq) : (s.setSeq k x).timServed = s.timServed := by
  unfold State.setSeq; split <;> rfl
@[simp] theorem State.setSeq_sups (k : Nat) (x : Seq) : (s.setSeq k x).sups = s.sups := by
  unfold State.setSeq; split <;> rfl
@[simp] theorem State.setSeq_mon (k : Nat) (x : Seq) : (s.setSeq k x).mon = s.mon := by
  unfold State.setSeq; split <;> rfl
@[simp] theorem State.setSeq_ddr (k : Nat) (x : Seq) : (s.setSeq k x).ddr = s.ddr := by
  unfold State.setSeq; split <;> rfl
@[simp] theorem State.setSeq_writers (k : Nat) (x : Seq) : (s.setSeq k x).writers = s.writers := by
  unfold State.setSeq; split <;> rfl
@[simp] theorem State.setSeq_trig (k : Nat) (x : Seq) : (s.setSeq k x).trig = s.trig := by
  unfold State.setSeq; split <;> rfl
@[simp] theorem State.setSeq_prov (k : Nat) (x : Seq) : (s.setSeq k x).prov = s.prov := by
  unfold State.setSeq; split <;> rfl
@[simp] theorem State.setSeq_pulses (k : Nat) (x : Seq) : (s.setSeq k x).pulses = s.pulses := by
  unfold State.setSeq; split <;> rfl
@[simp] theorem State.setSeq_queues (k : Nat) (x : Seq) : (s.setSeq k x).queues = s.queues := by
  unfold State.setSeq; split <;> rfl
@[simp] theorem State.setSeq_dma (k : Nat) (x : Seq) : (s.setSeq k x).dma = s.dma := by
  unfold State.setSeq; split <;> rfl
@[simp] theorem State.setSeq_feeds (k : Nat) (x : Seq) : (s.setSeq k x).feeds = s.feeds := by
  unfold State.setSeq; split <;> rfl
@[simp] theorem State.setSeq_pwr (k : Nat) (x : Seq) : (s.setSeq k x).pwr = s.pwr := by
  unfold State.setSeq; split <;> rfl
@[simp] theorem State.setSeq_boot (k : Nat) (x : Seq) : (s.setSeq k x).boot = s.boot := by
  unfold State.setSeq; split <;> rfl
@[simp] theorem State.setSeq_hlt (k : Nat) (x : Seq) : (s.setSeq k x).hlt = s.hlt := by
  unfold State.setSeq; split <;> rfl
@[simp] theorem State.setSeq_drv (k : Nat) (x : Seq) : (s.setSeq k x).drv = s.drv := by
  unfold State.setSeq; split <;> rfl
@[simp] theorem State.setSeq_ep (k : Nat) (x : Seq) : (s.setSeq k x).ep = s.ep := by
  unfold State.setSeq; split <;> rfl
@[simp] theorem State.setSeq_heldReqs (k : Nat) (x : Seq) : (s.setSeq k x).heldReqs = s.heldReqs := by
  unfold State.setSeq; split <;> rfl
@[simp] theorem State.setSeq_fab (k : Nat) (x : Seq) : (s.setSeq k x).fab = s.fab := by
  unfold State.setSeq; split <;> rfl
@[simp] theorem State.setSeq_jtag (k : Nat) (x : Seq) : (s.setSeq k x).jtag = s.jtag := by
  unfold State.setSeq; split <;> rfl
@[simp] theorem State.setSeq_out (k : Nat) (x : Seq) : (s.setSeq k x).out = s.out := by
  unfold State.setSeq; split <;> rfl
@[simp] theorem State.setSeq_fresh (k : Nat) (x : Seq) : (s.setSeq k x).fresh = s.fresh := by
  unfold State.setSeq; split <;> rfl
@[simp] theorem State.setSeq_pending (k : Nat) (x : Seq) : (s.setSeq k x).pending = s.pending := by
  unfold State.setSeq; split <;> rfl
@[simp] theorem State.rd_setSeq (k : Nat) (x : Seq) (j : Nat) : (s.setSeq k x).rd j = s.rd j := by
  unfold State.setSeq; split <;> rfl
@[simp] theorem State.rdByte_setSeq (k : Nat) (x : Seq) (a : Nat) : (s.setSeq k x).rdByte a = s.rdByte a := by
  unfold State.setSeq; split <;> rfl
@[simp] theorem State.seq_setSeq_same (k : Nat) (x : Seq) (h : k < 5) : (s.setSeq k x).seq k = x := by
  simp [State.setSeq, State.seq, h]
theorem State.seq_setSeq_ne (k j : Nat) (x : Seq) (h : j ≠ k) : (s.setSeq k x).seq j = s.seq j := by
  by_cases hk : k < 5 <;> by_cases hj : j < 5 <;> simp [State.setSeq, State.seq, hk, hj, Ne.symm h]

@[simp] theorem State.setTim_regs (k : Nat) (x : TimInput) : (s.setTim k x).regs = s.regs := by
  unfold State.setTim; split <;> rfl
@[simp] theorem State.setTim_mem (k : Nat) (x : TimInput) : (s.setTim k x).mem = s.mem := by
  unfold State.setTim; split <;> rfl
@[simp] theorem State.setTim_misread (k : Nat) (x : TimInput) : (s.setTim k x).misread = s.misread := by
  unfold State.setTim; split <;> rfl
@[simp] theorem State.setTim_time (k : Nat) (x : TimInput) : (s.setTim k x).time = s.time := by
  unfold State.setTim; split <;> rfl
@[simp] theorem State.setTim_clk (k : Nat) (x : TimInput) : (s.setTim k x).clk = s.clk := by
  unfold State.setTim; split <;> rfl
@[simp] theorem State.setTim_ccs (k : Nat) (x : TimInput) : (s.setTim k x).ccs = s.ccs := by
  unfold State.setTim; split <;> rfl
@[simp] theorem State.setTim_mgt (k : Nat) (x : TimInput) : (s.setTim k x).mgt = s.mgt := by
  unfold State.setTim; split <;> rfl
@[simp] theorem State.setTim_lanes (k : Nat) (x : TimInput) : (s.setTim k x).lanes = s.lanes := by
  unfold State.setTim; split <;> rfl
@[simp] theorem State.setTim_eyes (k : Nat) (x : TimInput) : (s.setTim k x).eyes = s.eyes := by
  unfold State.setTim; split <;> rfl
@[simp] theorem State.setTim_cnd (k : Nat) (x : TimInput) : (s.setTim k x).cnd = s.cnd := by
  unfold State.setTim; split <;> rfl
@[simp] theorem State.setTim_spx (k : Nat) (x : TimInput) : (s.setTim k x).spx = s.spx := by
  unfold State.setTim; split <;> rfl
@[simp] theorem State.setTim_canopy (k : Nat) (x : TimInput) : (s.setTim k x).canopy = s.canopy := by
  unfold State.setTim; split <;> rfl
@[simp] theorem State.setTim_spg (k : Nat) (x : TimInput) : (s.setTim k x).spg = s.spg := by
  unfold State.setTim; split <;> rfl
@[simp] theorem State.setTim_scn (k : Nat) (x : TimInput) : (s.setTim k x).scn = s.scn := by
  unfold State.setTim; split <;> rfl
@[simp] theorem State.setTim_lnt (k : Nat) (x : TimInput) : (s.setTim k x).lnt = s.lnt := by
  unfold State.setTim; split <;> rfl
@[simp] theorem State.setTim_pools (k : Nat) (x : TimInput) : (s.setTim k x).pools = s.pools := by
  unfold State.setTim; split <;> rfl
@[simp] theorem State.setTim_timServed (k : Nat) (x : TimInput) : (s.setTim k x).timServed = s.timServed := by
  unfold State.setTim; split <;> rfl
@[simp] theorem State.setTim_sups (k : Nat) (x : TimInput) : (s.setTim k x).sups = s.sups := by
  unfold State.setTim; split <;> rfl
@[simp] theorem State.setTim_mon (k : Nat) (x : TimInput) : (s.setTim k x).mon = s.mon := by
  unfold State.setTim; split <;> rfl
@[simp] theorem State.setTim_ddr (k : Nat) (x : TimInput) : (s.setTim k x).ddr = s.ddr := by
  unfold State.setTim; split <;> rfl
@[simp] theorem State.setTim_writers (k : Nat) (x : TimInput) : (s.setTim k x).writers = s.writers := by
  unfold State.setTim; split <;> rfl
@[simp] theorem State.setTim_trig (k : Nat) (x : TimInput) : (s.setTim k x).trig = s.trig := by
  unfold State.setTim; split <;> rfl
@[simp] theorem State.setTim_seqs (k : Nat) (x : TimInput) : (s.setTim k x).seqs = s.seqs := by
  unfold State.setTim; split <;> rfl
@[simp] theorem State.setTim_prov (k : Nat) (x : TimInput) : (s.setTim k x).prov = s.prov := by
  unfold State.setTim; split <;> rfl
@[simp] theorem State.setTim_pulses (k : Nat) (x : TimInput) : (s.setTim k x).pulses = s.pulses := by
  unfold State.setTim; split <;> rfl
@[simp] theorem State.setTim_queues (k : Nat) (x : TimInput) : (s.setTim k x).queues = s.queues := by
  unfold State.setTim; split <;> rfl
@[simp] theorem State.setTim_dma (k : Nat) (x : TimInput) : (s.setTim k x).dma = s.dma := by
  unfold State.setTim; split <;> rfl
@[simp] theorem State.setTim_feeds (k : Nat) (x : TimInput) : (s.setTim k x).feeds = s.feeds := by
  unfold State.setTim; split <;> rfl
@[simp] theorem State.setTim_pwr (k : Nat) (x : TimInput) : (s.setTim k x).pwr = s.pwr := by
  unfold State.setTim; split <;> rfl
@[simp] theorem State.setTim_boot (k : Nat) (x : TimInput) : (s.setTim k x).boot = s.boot := by
  unfold State.setTim; split <;> rfl
@[simp] theorem State.setTim_hlt (k : Nat) (x : TimInput) : (s.setTim k x).hlt = s.hlt := by
  unfold State.setTim; split <;> rfl
@[simp] theorem State.setTim_drv (k : Nat) (x : TimInput) : (s.setTim k x).drv = s.drv := by
  unfold State.setTim; split <;> rfl
@[simp] theorem State.setTim_ep (k : Nat) (x : TimInput) : (s.setTim k x).ep = s.ep := by
  unfold State.setTim; split <;> rfl
@[simp] theorem State.setTim_heldReqs (k : Nat) (x : TimInput) : (s.setTim k x).heldReqs = s.heldReqs := by
  unfold State.setTim; split <;> rfl
@[simp] theorem State.setTim_fab (k : Nat) (x : TimInput) : (s.setTim k x).fab = s.fab := by
  unfold State.setTim; split <;> rfl
@[simp] theorem State.setTim_jtag (k : Nat) (x : TimInput) : (s.setTim k x).jtag = s.jtag := by
  unfold State.setTim; split <;> rfl
@[simp] theorem State.setTim_out (k : Nat) (x : TimInput) : (s.setTim k x).out = s.out := by
  unfold State.setTim; split <;> rfl
@[simp] theorem State.setTim_fresh (k : Nat) (x : TimInput) : (s.setTim k x).fresh = s.fresh := by
  unfold State.setTim; split <;> rfl
@[simp] theorem State.setTim_pending (k : Nat) (x : TimInput) : (s.setTim k x).pending = s.pending := by
  unfold State.setTim; split <;> rfl
@[simp] theorem State.rd_setTim (k : Nat) (x : TimInput) (j : Nat) : (s.setTim k x).rd j = s.rd j := by
  unfold State.setTim; split <;> rfl
@[simp] theorem State.rdByte_setTim (k : Nat) (x : TimInput) (a : Nat) : (s.setTim k x).rdByte a = s.rdByte a := by
  unfold State.setTim; split <;> rfl
@[simp] theorem State.tim_setTim_same (k : Nat) (x : TimInput) (h : k < 64) : (s.setTim k x).tim k = x := by
  simp [State.setTim, State.tim, h]
theorem State.tim_setTim_ne (k j : Nat) (x : TimInput) (h : j ≠ k) : (s.setTim k x).tim j = s.tim j := by
  by_cases hk : k < 64 <;> by_cases hj : j < 64 <;> simp [State.setTim, State.tim, hk, hj, Ne.symm h]

@[simp] theorem State.setSup_regs (k : Nat) (x : SupUnit) : (s.setSup k x).regs = s.regs := by
  unfold State.setSup; split <;> rfl
@[simp] theorem State.setSup_mem (k : Nat) (x : SupUnit) : (s.setSup k x).mem = s.mem := by
  unfold State.setSup; split <;> rfl
@[simp] theorem State.setSup_misread (k : Nat) (x : SupUnit) : (s.setSup k x).misread = s.misread := by
  unfold State.setSup; split <;> rfl
@[simp] theorem State.setSup_time (k : Nat) (x : SupUnit) : (s.setSup k x).time = s.time := by
  unfold State.setSup; split <;> rfl
@[simp] theorem State.setSup_clk (k : Nat) (x : SupUnit) : (s.setSup k x).clk = s.clk := by
  unfold State.setSup; split <;> rfl
@[simp] theorem State.setSup_ccs (k : Nat) (x : SupUnit) : (s.setSup k x).ccs = s.ccs := by
  unfold State.setSup; split <;> rfl
@[simp] theorem State.setSup_mgt (k : Nat) (x : SupUnit) : (s.setSup k x).mgt = s.mgt := by
  unfold State.setSup; split <;> rfl
@[simp] theorem State.setSup_lanes (k : Nat) (x : SupUnit) : (s.setSup k x).lanes = s.lanes := by
  unfold State.setSup; split <;> rfl
@[simp] theorem State.setSup_eyes (k : Nat) (x : SupUnit) : (s.setSup k x).eyes = s.eyes := by
  unfold State.setSup; split <;> rfl
@[simp] theorem State.setSup_cnd (k : Nat) (x : SupUnit) : (s.setSup k x).cnd = s.cnd := by
  unfold State.setSup; split <;> rfl
@[simp] theorem State.setSup_spx (k : Nat) (x : SupUnit) : (s.setSup k x).spx = s.spx := by
  unfold State.setSup; split <;> rfl
@[simp] theorem State.setSup_canopy (k : Nat) (x : SupUnit) : (s.setSup k x).canopy = s.canopy := by
  unfold State.setSup; split <;> rfl
@[simp] theorem State.setSup_spg (k : Nat) (x : SupUnit) : (s.setSup k x).spg = s.spg := by
  unfold State.setSup; split <;> rfl
@[simp] theorem State.setSup_scn (k : Nat) (x : SupUnit) : (s.setSup k x).scn = s.scn := by
  unfold State.setSup; split <;> rfl
@[simp] theorem State.setSup_lnt (k : Nat) (x : SupUnit) : (s.setSup k x).lnt = s.lnt := by
  unfold State.setSup; split <;> rfl
@[simp] theorem State.setSup_pools (k : Nat) (x : SupUnit) : (s.setSup k x).pools = s.pools := by
  unfold State.setSup; split <;> rfl
@[simp] theorem State.setSup_tims (k : Nat) (x : SupUnit) : (s.setSup k x).tims = s.tims := by
  unfold State.setSup; split <;> rfl
@[simp] theorem State.setSup_timServed (k : Nat) (x : SupUnit) : (s.setSup k x).timServed = s.timServed := by
  unfold State.setSup; split <;> rfl
@[simp] theorem State.setSup_mon (k : Nat) (x : SupUnit) : (s.setSup k x).mon = s.mon := by
  unfold State.setSup; split <;> rfl
@[simp] theorem State.setSup_ddr (k : Nat) (x : SupUnit) : (s.setSup k x).ddr = s.ddr := by
  unfold State.setSup; split <;> rfl
@[simp] theorem State.setSup_writers (k : Nat) (x : SupUnit) : (s.setSup k x).writers = s.writers := by
  unfold State.setSup; split <;> rfl
@[simp] theorem State.setSup_trig (k : Nat) (x : SupUnit) : (s.setSup k x).trig = s.trig := by
  unfold State.setSup; split <;> rfl
@[simp] theorem State.setSup_seqs (k : Nat) (x : SupUnit) : (s.setSup k x).seqs = s.seqs := by
  unfold State.setSup; split <;> rfl
@[simp] theorem State.setSup_prov (k : Nat) (x : SupUnit) : (s.setSup k x).prov = s.prov := by
  unfold State.setSup; split <;> rfl
@[simp] theorem State.setSup_pulses (k : Nat) (x : SupUnit) : (s.setSup k x).pulses = s.pulses := by
  unfold State.setSup; split <;> rfl
@[simp] theorem State.setSup_queues (k : Nat) (x : SupUnit) : (s.setSup k x).queues = s.queues := by
  unfold State.setSup; split <;> rfl
@[simp] theorem State.setSup_dma (k : Nat) (x : SupUnit) : (s.setSup k x).dma = s.dma := by
  unfold State.setSup; split <;> rfl
@[simp] theorem State.setSup_feeds (k : Nat) (x : SupUnit) : (s.setSup k x).feeds = s.feeds := by
  unfold State.setSup; split <;> rfl
@[simp] theorem State.setSup_pwr (k : Nat) (x : SupUnit) : (s.setSup k x).pwr = s.pwr := by
  unfold State.setSup; split <;> rfl
@[simp] theorem State.setSup_boot (k : Nat) (x : SupUnit) : (s.setSup k x).boot = s.boot := by
  unfold State.setSup; split <;> rfl
@[simp] theorem State.setSup_hlt (k : Nat) (x : SupUnit) : (s.setSup k x).hlt = s.hlt := by
  unfold State.setSup; split <;> rfl
@[simp] theorem State.setSup_drv (k : Nat) (x : SupUnit) : (s.setSup k x).drv = s.drv := by
  unfold State.setSup; split <;> rfl
@[simp] theorem State.setSup_ep (k : Nat) (x : SupUnit) : (s.setSup k x).ep = s.ep := by
  unfold State.setSup; split <;> rfl
@[simp] theorem State.setSup_heldReqs (k : Nat) (x : SupUnit) : (s.setSup k x).heldReqs = s.heldReqs := by
  unfold State.setSup; split <;> rfl
@[simp] theorem State.setSup_fab (k : Nat) (x : SupUnit) : (s.setSup k x).fab = s.fab := by
  unfold State.setSup; split <;> rfl
@[simp] theorem State.setSup_jtag (k : Nat) (x : SupUnit) : (s.setSup k x).jtag = s.jtag := by
  unfold State.setSup; split <;> rfl
@[simp] theorem State.setSup_out (k : Nat) (x : SupUnit) : (s.setSup k x).out = s.out := by
  unfold State.setSup; split <;> rfl
@[simp] theorem State.setSup_fresh (k : Nat) (x : SupUnit) : (s.setSup k x).fresh = s.fresh := by
  unfold State.setSup; split <;> rfl
@[simp] theorem State.setSup_pending (k : Nat) (x : SupUnit) : (s.setSup k x).pending = s.pending := by
  unfold State.setSup; split <;> rfl
@[simp] theorem State.rd_setSup (k : Nat) (x : SupUnit) (j : Nat) : (s.setSup k x).rd j = s.rd j := by
  unfold State.setSup; split <;> rfl
@[simp] theorem State.rdByte_setSup (k : Nat) (x : SupUnit) (a : Nat) : (s.setSup k x).rdByte a = s.rdByte a := by
  unfold State.setSup; split <;> rfl
@[simp] theorem State.supu_setSup_same (k : Nat) (x : SupUnit) (h : k < 20) : (s.setSup k x).supu k = x := by
  simp [State.setSup, State.supu, h]
theorem State.supu_setSup_ne (k j : Nat) (x : SupUnit) (h : j ≠ k) : (s.setSup k x).supu j = s.supu j := by
  by_cases hk : k < 20 <;> by_cases hj : j < 20 <;> simp [State.setSup, State.supu, hk, hj, Ne.symm h]

@[simp] theorem State.setDma_regs (k : Nat) (x : DmaChan) : (s.setDma k x).regs = s.regs := by
  unfold State.setDma; split <;> rfl
@[simp] theorem State.setDma_mem (k : Nat) (x : DmaChan) : (s.setDma k x).mem = s.mem := by
  unfold State.setDma; split <;> rfl
@[simp] theorem State.setDma_misread (k : Nat) (x : DmaChan) : (s.setDma k x).misread = s.misread := by
  unfold State.setDma; split <;> rfl
@[simp] theorem State.setDma_time (k : Nat) (x : DmaChan) : (s.setDma k x).time = s.time := by
  unfold State.setDma; split <;> rfl
@[simp] theorem State.setDma_clk (k : Nat) (x : DmaChan) : (s.setDma k x).clk = s.clk := by
  unfold State.setDma; split <;> rfl
@[simp] theorem State.setDma_ccs (k : Nat) (x : DmaChan) : (s.setDma k x).ccs = s.ccs := by
  unfold State.setDma; split <;> rfl
@[simp] theorem State.setDma_mgt (k : Nat) (x : DmaChan) : (s.setDma k x).mgt = s.mgt := by
  unfold State.setDma; split <;> rfl
@[simp] theorem State.setDma_lanes (k : Nat) (x : DmaChan) : (s.setDma k x).lanes = s.lanes := by
  unfold State.setDma; split <;> rfl
@[simp] theorem State.setDma_eyes (k : Nat) (x : DmaChan) : (s.setDma k x).eyes = s.eyes := by
  unfold State.setDma; split <;> rfl
@[simp] theorem State.setDma_cnd (k : Nat) (x : DmaChan) : (s.setDma k x).cnd = s.cnd := by
  unfold State.setDma; split <;> rfl
@[simp] theorem State.setDma_spx (k : Nat) (x : DmaChan) : (s.setDma k x).spx = s.spx := by
  unfold State.setDma; split <;> rfl
@[simp] theorem State.setDma_canopy (k : Nat) (x : DmaChan) : (s.setDma k x).canopy = s.canopy := by
  unfold State.setDma; split <;> rfl
@[simp] theorem State.setDma_spg (k : Nat) (x : DmaChan) : (s.setDma k x).spg = s.spg := by
  unfold State.setDma; split <;> rfl
@[simp] theorem State.setDma_scn (k : Nat) (x : DmaChan) : (s.setDma k x).scn = s.scn := by
  unfold State.setDma; split <;> rfl
@[simp] theorem State.setDma_lnt (k : Nat) (x : DmaChan) : (s.setDma k x).lnt = s.lnt := by
  unfold State.setDma; split <;> rfl
@[simp] theorem State.setDma_pools (k : Nat) (x : DmaChan) : (s.setDma k x).pools = s.pools := by
  unfold State.setDma; split <;> rfl
@[simp] theorem State.setDma_tims (k : Nat) (x : DmaChan) : (s.setDma k x).tims = s.tims := by
  unfold State.setDma; split <;> rfl
@[simp] theorem State.setDma_timServed (k : Nat) (x : DmaChan) : (s.setDma k x).timServed = s.timServed := by
  unfold State.setDma; split <;> rfl
@[simp] theorem State.setDma_sups (k : Nat) (x : DmaChan) : (s.setDma k x).sups = s.sups := by
  unfold State.setDma; split <;> rfl
@[simp] theorem State.setDma_mon (k : Nat) (x : DmaChan) : (s.setDma k x).mon = s.mon := by
  unfold State.setDma; split <;> rfl
@[simp] theorem State.setDma_ddr (k : Nat) (x : DmaChan) : (s.setDma k x).ddr = s.ddr := by
  unfold State.setDma; split <;> rfl
@[simp] theorem State.setDma_writers (k : Nat) (x : DmaChan) : (s.setDma k x).writers = s.writers := by
  unfold State.setDma; split <;> rfl
@[simp] theorem State.setDma_trig (k : Nat) (x : DmaChan) : (s.setDma k x).trig = s.trig := by
  unfold State.setDma; split <;> rfl
@[simp] theorem State.setDma_seqs (k : Nat) (x : DmaChan) : (s.setDma k x).seqs = s.seqs := by
  unfold State.setDma; split <;> rfl
@[simp] theorem State.setDma_prov (k : Nat) (x : DmaChan) : (s.setDma k x).prov = s.prov := by
  unfold State.setDma; split <;> rfl
@[simp] theorem State.setDma_pulses (k : Nat) (x : DmaChan) : (s.setDma k x).pulses = s.pulses := by
  unfold State.setDma; split <;> rfl
@[simp] theorem State.setDma_queues (k : Nat) (x : DmaChan) : (s.setDma k x).queues = s.queues := by
  unfold State.setDma; split <;> rfl
@[simp] theorem State.setDma_feeds (k : Nat) (x : DmaChan) : (s.setDma k x).feeds = s.feeds := by
  unfold State.setDma; split <;> rfl
@[simp] theorem State.setDma_pwr (k : Nat) (x : DmaChan) : (s.setDma k x).pwr = s.pwr := by
  unfold State.setDma; split <;> rfl
@[simp] theorem State.setDma_boot (k : Nat) (x : DmaChan) : (s.setDma k x).boot = s.boot := by
  unfold State.setDma; split <;> rfl
@[simp] theorem State.setDma_hlt (k : Nat) (x : DmaChan) : (s.setDma k x).hlt = s.hlt := by
  unfold State.setDma; split <;> rfl
@[simp] theorem State.setDma_drv (k : Nat) (x : DmaChan) : (s.setDma k x).drv = s.drv := by
  unfold State.setDma; split <;> rfl
@[simp] theorem State.setDma_ep (k : Nat) (x : DmaChan) : (s.setDma k x).ep = s.ep := by
  unfold State.setDma; split <;> rfl
@[simp] theorem State.setDma_heldReqs (k : Nat) (x : DmaChan) : (s.setDma k x).heldReqs = s.heldReqs := by
  unfold State.setDma; split <;> rfl
@[simp] theorem State.setDma_fab (k : Nat) (x : DmaChan) : (s.setDma k x).fab = s.fab := by
  unfold State.setDma; split <;> rfl
@[simp] theorem State.setDma_jtag (k : Nat) (x : DmaChan) : (s.setDma k x).jtag = s.jtag := by
  unfold State.setDma; split <;> rfl
@[simp] theorem State.setDma_out (k : Nat) (x : DmaChan) : (s.setDma k x).out = s.out := by
  unfold State.setDma; split <;> rfl
@[simp] theorem State.setDma_fresh (k : Nat) (x : DmaChan) : (s.setDma k x).fresh = s.fresh := by
  unfold State.setDma; split <;> rfl
@[simp] theorem State.setDma_pending (k : Nat) (x : DmaChan) : (s.setDma k x).pending = s.pending := by
  unfold State.setDma; split <;> rfl
@[simp] theorem State.rd_setDma (k : Nat) (x : DmaChan) (j : Nat) : (s.setDma k x).rd j = s.rd j := by
  unfold State.setDma; split <;> rfl
@[simp] theorem State.rdByte_setDma (k : Nat) (x : DmaChan) (a : Nat) : (s.setDma k x).rdByte a = s.rdByte a := by
  unfold State.setDma; split <;> rfl
@[simp] theorem State.dmaChan_setDma_same (k : Nat) (x : DmaChan) (h : k < 128) : (s.setDma k x).dmaChan k = x := by
  simp [State.setDma, State.dmaChan, h]
theorem State.dmaChan_setDma_ne (k j : Nat) (x : DmaChan) (h : j ≠ k) : (s.setDma k x).dmaChan j = s.dmaChan j := by
  by_cases hk : k < 128 <;> by_cases hj : j < 128 <;> simp [State.setDma, State.dmaChan, hk, hj, Ne.symm h]

@[simp] theorem State.setFeed_regs (k : Nat) (x : Feed) : (s.setFeed k x).regs = s.regs := by
  unfold State.setFeed; split <;> rfl
@[simp] theorem State.setFeed_mem (k : Nat) (x : Feed) : (s.setFeed k x).mem = s.mem := by
  unfold State.setFeed; split <;> rfl
@[simp] theorem State.setFeed_misread (k : Nat) (x : Feed) : (s.setFeed k x).misread = s.misread := by
  unfold State.setFeed; split <;> rfl
@[simp] theorem State.setFeed_time (k : Nat) (x : Feed) : (s.setFeed k x).time = s.time := by
  unfold State.setFeed; split <;> rfl
@[simp] theorem State.setFeed_clk (k : Nat) (x : Feed) : (s.setFeed k x).clk = s.clk := by
  unfold State.setFeed; split <;> rfl
@[simp] theorem State.setFeed_ccs (k : Nat) (x : Feed) : (s.setFeed k x).ccs = s.ccs := by
  unfold State.setFeed; split <;> rfl
@[simp] theorem State.setFeed_mgt (k : Nat) (x : Feed) : (s.setFeed k x).mgt = s.mgt := by
  unfold State.setFeed; split <;> rfl
@[simp] theorem State.setFeed_lanes (k : Nat) (x : Feed) : (s.setFeed k x).lanes = s.lanes := by
  unfold State.setFeed; split <;> rfl
@[simp] theorem State.setFeed_eyes (k : Nat) (x : Feed) : (s.setFeed k x).eyes = s.eyes := by
  unfold State.setFeed; split <;> rfl
@[simp] theorem State.setFeed_cnd (k : Nat) (x : Feed) : (s.setFeed k x).cnd = s.cnd := by
  unfold State.setFeed; split <;> rfl
@[simp] theorem State.setFeed_spx (k : Nat) (x : Feed) : (s.setFeed k x).spx = s.spx := by
  unfold State.setFeed; split <;> rfl
@[simp] theorem State.setFeed_canopy (k : Nat) (x : Feed) : (s.setFeed k x).canopy = s.canopy := by
  unfold State.setFeed; split <;> rfl
@[simp] theorem State.setFeed_spg (k : Nat) (x : Feed) : (s.setFeed k x).spg = s.spg := by
  unfold State.setFeed; split <;> rfl
@[simp] theorem State.setFeed_scn (k : Nat) (x : Feed) : (s.setFeed k x).scn = s.scn := by
  unfold State.setFeed; split <;> rfl
@[simp] theorem State.setFeed_lnt (k : Nat) (x : Feed) : (s.setFeed k x).lnt = s.lnt := by
  unfold State.setFeed; split <;> rfl
@[simp] theorem State.setFeed_pools (k : Nat) (x : Feed) : (s.setFeed k x).pools = s.pools := by
  unfold State.setFeed; split <;> rfl
@[simp] theorem State.setFeed_tims (k : Nat) (x : Feed) : (s.setFeed k x).tims = s.tims := by
  unfold State.setFeed; split <;> rfl
@[simp] theorem State.setFeed_timServed (k : Nat) (x : Feed) : (s.setFeed k x).timServed = s.timServed := by
  unfold State.setFeed; split <;> rfl
@[simp] theorem State.setFeed_sups (k : Nat) (x : Feed) : (s.setFeed k x).sups = s.sups := by
  unfold State.setFeed; split <;> rfl
@[simp] theorem State.setFeed_mon (k : Nat) (x : Feed) : (s.setFeed k x).mon = s.mon := by
  unfold State.setFeed; split <;> rfl
@[simp] theorem State.setFeed_ddr (k : Nat) (x : Feed) : (s.setFeed k x).ddr = s.ddr := by
  unfold State.setFeed; split <;> rfl
@[simp] theorem State.setFeed_writers (k : Nat) (x : Feed) : (s.setFeed k x).writers = s.writers := by
  unfold State.setFeed; split <;> rfl
@[simp] theorem State.setFeed_trig (k : Nat) (x : Feed) : (s.setFeed k x).trig = s.trig := by
  unfold State.setFeed; split <;> rfl
@[simp] theorem State.setFeed_seqs (k : Nat) (x : Feed) : (s.setFeed k x).seqs = s.seqs := by
  unfold State.setFeed; split <;> rfl
@[simp] theorem State.setFeed_prov (k : Nat) (x : Feed) : (s.setFeed k x).prov = s.prov := by
  unfold State.setFeed; split <;> rfl
@[simp] theorem State.setFeed_pulses (k : Nat) (x : Feed) : (s.setFeed k x).pulses = s.pulses := by
  unfold State.setFeed; split <;> rfl
@[simp] theorem State.setFeed_queues (k : Nat) (x : Feed) : (s.setFeed k x).queues = s.queues := by
  unfold State.setFeed; split <;> rfl
@[simp] theorem State.setFeed_dma (k : Nat) (x : Feed) : (s.setFeed k x).dma = s.dma := by
  unfold State.setFeed; split <;> rfl
@[simp] theorem State.setFeed_pwr (k : Nat) (x : Feed) : (s.setFeed k x).pwr = s.pwr := by
  unfold State.setFeed; split <;> rfl
@[simp] theorem State.setFeed_boot (k : Nat) (x : Feed) : (s.setFeed k x).boot = s.boot := by
  unfold State.setFeed; split <;> rfl
@[simp] theorem State.setFeed_hlt (k : Nat) (x : Feed) : (s.setFeed k x).hlt = s.hlt := by
  unfold State.setFeed; split <;> rfl
@[simp] theorem State.setFeed_drv (k : Nat) (x : Feed) : (s.setFeed k x).drv = s.drv := by
  unfold State.setFeed; split <;> rfl
@[simp] theorem State.setFeed_ep (k : Nat) (x : Feed) : (s.setFeed k x).ep = s.ep := by
  unfold State.setFeed; split <;> rfl
@[simp] theorem State.setFeed_heldReqs (k : Nat) (x : Feed) : (s.setFeed k x).heldReqs = s.heldReqs := by
  unfold State.setFeed; split <;> rfl
@[simp] theorem State.setFeed_fab (k : Nat) (x : Feed) : (s.setFeed k x).fab = s.fab := by
  unfold State.setFeed; split <;> rfl
@[simp] theorem State.setFeed_jtag (k : Nat) (x : Feed) : (s.setFeed k x).jtag = s.jtag := by
  unfold State.setFeed; split <;> rfl
@[simp] theorem State.setFeed_out (k : Nat) (x : Feed) : (s.setFeed k x).out = s.out := by
  unfold State.setFeed; split <;> rfl
@[simp] theorem State.setFeed_fresh (k : Nat) (x : Feed) : (s.setFeed k x).fresh = s.fresh := by
  unfold State.setFeed; split <;> rfl
@[simp] theorem State.setFeed_pending (k : Nat) (x : Feed) : (s.setFeed k x).pending = s.pending := by
  unfold State.setFeed; split <;> rfl
@[simp] theorem State.rd_setFeed (k : Nat) (x : Feed) (j : Nat) : (s.setFeed k x).rd j = s.rd j := by
  unfold State.setFeed; split <;> rfl
@[simp] theorem State.rdByte_setFeed (k : Nat) (x : Feed) (a : Nat) : (s.setFeed k x).rdByte a = s.rdByte a := by
  unfold State.setFeed; split <;> rfl
@[simp] theorem State.feed_setFeed_same (k : Nat) (x : Feed) (h : k < 16) : (s.setFeed k x).feed k = x := by
  simp [State.setFeed, State.feed, h]
theorem State.feed_setFeed_ne (k j : Nat) (x : Feed) (h : j ≠ k) : (s.setFeed k x).feed j = s.feed j := by
  by_cases hk : k < 16 <;> by_cases hj : j < 16 <;> simp [State.setFeed, State.feed, hk, hj, Ne.symm h]

@[simp] theorem State.setTch_regs (k : Nat) (x : TrigChan) : (s.setTch k x).regs = s.regs := by
  unfold State.setTch; split <;> rfl
@[simp] theorem State.setTch_mem (k : Nat) (x : TrigChan) : (s.setTch k x).mem = s.mem := by
  unfold State.setTch; split <;> rfl
@[simp] theorem State.setTch_misread (k : Nat) (x : TrigChan) : (s.setTch k x).misread = s.misread := by
  unfold State.setTch; split <;> rfl
@[simp] theorem State.setTch_time (k : Nat) (x : TrigChan) : (s.setTch k x).time = s.time := by
  unfold State.setTch; split <;> rfl
@[simp] theorem State.setTch_clk (k : Nat) (x : TrigChan) : (s.setTch k x).clk = s.clk := by
  unfold State.setTch; split <;> rfl
@[simp] theorem State.setTch_ccs (k : Nat) (x : TrigChan) : (s.setTch k x).ccs = s.ccs := by
  unfold State.setTch; split <;> rfl
@[simp] theorem State.setTch_mgt (k : Nat) (x : TrigChan) : (s.setTch k x).mgt = s.mgt := by
  unfold State.setTch; split <;> rfl
@[simp] theorem State.setTch_lanes (k : Nat) (x : TrigChan) : (s.setTch k x).lanes = s.lanes := by
  unfold State.setTch; split <;> rfl
@[simp] theorem State.setTch_eyes (k : Nat) (x : TrigChan) : (s.setTch k x).eyes = s.eyes := by
  unfold State.setTch; split <;> rfl
@[simp] theorem State.setTch_cnd (k : Nat) (x : TrigChan) : (s.setTch k x).cnd = s.cnd := by
  unfold State.setTch; split <;> rfl
@[simp] theorem State.setTch_spx (k : Nat) (x : TrigChan) : (s.setTch k x).spx = s.spx := by
  unfold State.setTch; split <;> rfl
@[simp] theorem State.setTch_canopy (k : Nat) (x : TrigChan) : (s.setTch k x).canopy = s.canopy := by
  unfold State.setTch; split <;> rfl
@[simp] theorem State.setTch_spg (k : Nat) (x : TrigChan) : (s.setTch k x).spg = s.spg := by
  unfold State.setTch; split <;> rfl
@[simp] theorem State.setTch_scn (k : Nat) (x : TrigChan) : (s.setTch k x).scn = s.scn := by
  unfold State.setTch; split <;> rfl
@[simp] theorem State.setTch_lnt (k : Nat) (x : TrigChan) : (s.setTch k x).lnt = s.lnt := by
  unfold State.setTch; split <;> rfl
@[simp] theorem State.setTch_pools (k : Nat) (x : TrigChan) : (s.setTch k x).pools = s.pools := by
  unfold State.setTch; split <;> rfl
@[simp] theorem State.setTch_tims (k : Nat) (x : TrigChan) : (s.setTch k x).tims = s.tims := by
  unfold State.setTch; split <;> rfl
@[simp] theorem State.setTch_timServed (k : Nat) (x : TrigChan) : (s.setTch k x).timServed = s.timServed := by
  unfold State.setTch; split <;> rfl
@[simp] theorem State.setTch_sups (k : Nat) (x : TrigChan) : (s.setTch k x).sups = s.sups := by
  unfold State.setTch; split <;> rfl
@[simp] theorem State.setTch_mon (k : Nat) (x : TrigChan) : (s.setTch k x).mon = s.mon := by
  unfold State.setTch; split <;> rfl
@[simp] theorem State.setTch_ddr (k : Nat) (x : TrigChan) : (s.setTch k x).ddr = s.ddr := by
  unfold State.setTch; split <;> rfl
@[simp] theorem State.setTch_writers (k : Nat) (x : TrigChan) : (s.setTch k x).writers = s.writers := by
  unfold State.setTch; split <;> rfl
@[simp] theorem State.setTch_seqs (k : Nat) (x : TrigChan) : (s.setTch k x).seqs = s.seqs := by
  unfold State.setTch; split <;> rfl
@[simp] theorem State.setTch_prov (k : Nat) (x : TrigChan) : (s.setTch k x).prov = s.prov := by
  unfold State.setTch; split <;> rfl
@[simp] theorem State.setTch_pulses (k : Nat) (x : TrigChan) : (s.setTch k x).pulses = s.pulses := by
  unfold State.setTch; split <;> rfl
@[simp] theorem State.setTch_queues (k : Nat) (x : TrigChan) : (s.setTch k x).queues = s.queues := by
  unfold State.setTch; split <;> rfl
@[simp] theorem State.setTch_dma (k : Nat) (x : TrigChan) : (s.setTch k x).dma = s.dma := by
  unfold State.setTch; split <;> rfl
@[simp] theorem State.setTch_feeds (k : Nat) (x : TrigChan) : (s.setTch k x).feeds = s.feeds := by
  unfold State.setTch; split <;> rfl
@[simp] theorem State.setTch_pwr (k : Nat) (x : TrigChan) : (s.setTch k x).pwr = s.pwr := by
  unfold State.setTch; split <;> rfl
@[simp] theorem State.setTch_boot (k : Nat) (x : TrigChan) : (s.setTch k x).boot = s.boot := by
  unfold State.setTch; split <;> rfl
@[simp] theorem State.setTch_hlt (k : Nat) (x : TrigChan) : (s.setTch k x).hlt = s.hlt := by
  unfold State.setTch; split <;> rfl
@[simp] theorem State.setTch_drv (k : Nat) (x : TrigChan) : (s.setTch k x).drv = s.drv := by
  unfold State.setTch; split <;> rfl
@[simp] theorem State.setTch_ep (k : Nat) (x : TrigChan) : (s.setTch k x).ep = s.ep := by
  unfold State.setTch; split <;> rfl
@[simp] theorem State.setTch_heldReqs (k : Nat) (x : TrigChan) : (s.setTch k x).heldReqs = s.heldReqs := by
  unfold State.setTch; split <;> rfl
@[simp] theorem State.setTch_fab (k : Nat) (x : TrigChan) : (s.setTch k x).fab = s.fab := by
  unfold State.setTch; split <;> rfl
@[simp] theorem State.setTch_jtag (k : Nat) (x : TrigChan) : (s.setTch k x).jtag = s.jtag := by
  unfold State.setTch; split <;> rfl
@[simp] theorem State.setTch_out (k : Nat) (x : TrigChan) : (s.setTch k x).out = s.out := by
  unfold State.setTch; split <;> rfl
@[simp] theorem State.setTch_fresh (k : Nat) (x : TrigChan) : (s.setTch k x).fresh = s.fresh := by
  unfold State.setTch; split <;> rfl
@[simp] theorem State.setTch_pending (k : Nat) (x : TrigChan) : (s.setTch k x).pending = s.pending := by
  unfold State.setTch; split <;> rfl
@[simp] theorem State.rd_setTch (k : Nat) (x : TrigChan) (j : Nat) : (s.setTch k x).rd j = s.rd j := by
  unfold State.setTch; split <;> rfl
@[simp] theorem State.rdByte_setTch (k : Nat) (x : TrigChan) (a : Nat) : (s.setTch k x).rdByte a = s.rdByte a := by
  unfold State.setTch; split <;> rfl
@[simp] theorem State.tch_setTch_same (k : Nat) (x : TrigChan) (h : k < 4) : (s.setTch k x).tch k = x := by
  simp [State.setTch, State.tch, h]
theorem State.tch_setTch_ne (k j : Nat) (x : TrigChan) (h : j ≠ k) : (s.setTch k x).tch j = s.tch j := by
  by_cases hk : k < 4 <;> by_cases hj : j < 4 <;> simp [State.setTch, State.tch, hk, hj, Ne.symm h]

@[simp] theorem State.setPulse_regs (k : Nat) (x : List (Nat × Nat)) : (s.setPulse k x).regs = s.regs := by
  unfold State.setPulse; split <;> rfl
@[simp] theorem State.setPulse_mem (k : Nat) (x : List (Nat × Nat)) : (s.setPulse k x).mem = s.mem := by
  unfold State.setPulse; split <;> rfl
@[simp] theorem State.setPulse_misread (k : Nat) (x : List (Nat × Nat)) : (s.setPulse k x).misread = s.misread := by
  unfold State.setPulse; split <;> rfl
@[simp] theorem State.setPulse_time (k : Nat) (x : List (Nat × Nat)) : (s.setPulse k x).time = s.time := by
  unfold State.setPulse; split <;> rfl
@[simp] theorem State.setPulse_clk (k : Nat) (x : List (Nat × Nat)) : (s.setPulse k x).clk = s.clk := by
  unfold State.setPulse; split <;> rfl
@[simp] theorem State.setPulse_ccs (k : Nat) (x : List (Nat × Nat)) : (s.setPulse k x).ccs = s.ccs := by
  unfold State.setPulse; split <;> rfl
@[simp] theorem State.setPulse_mgt (k : Nat) (x : List (Nat × Nat)) : (s.setPulse k x).mgt = s.mgt := by
  unfold State.setPulse; split <;> rfl
@[simp] theorem State.setPulse_lanes (k : Nat) (x : List (Nat × Nat)) : (s.setPulse k x).lanes = s.lanes := by
  unfold State.setPulse; split <;> rfl
@[simp] theorem State.setPulse_eyes (k : Nat) (x : List (Nat × Nat)) : (s.setPulse k x).eyes = s.eyes := by
  unfold State.setPulse; split <;> rfl
@[simp] theorem State.setPulse_cnd (k : Nat) (x : List (Nat × Nat)) : (s.setPulse k x).cnd = s.cnd := by
  unfold State.setPulse; split <;> rfl
@[simp] theorem State.setPulse_spx (k : Nat) (x : List (Nat × Nat)) : (s.setPulse k x).spx = s.spx := by
  unfold State.setPulse; split <;> rfl
@[simp] theorem State.setPulse_canopy (k : Nat) (x : List (Nat × Nat)) : (s.setPulse k x).canopy = s.canopy := by
  unfold State.setPulse; split <;> rfl
@[simp] theorem State.setPulse_spg (k : Nat) (x : List (Nat × Nat)) : (s.setPulse k x).spg = s.spg := by
  unfold State.setPulse; split <;> rfl
@[simp] theorem State.setPulse_scn (k : Nat) (x : List (Nat × Nat)) : (s.setPulse k x).scn = s.scn := by
  unfold State.setPulse; split <;> rfl
@[simp] theorem State.setPulse_lnt (k : Nat) (x : List (Nat × Nat)) : (s.setPulse k x).lnt = s.lnt := by
  unfold State.setPulse; split <;> rfl
@[simp] theorem State.setPulse_pools (k : Nat) (x : List (Nat × Nat)) : (s.setPulse k x).pools = s.pools := by
  unfold State.setPulse; split <;> rfl
@[simp] theorem State.setPulse_tims (k : Nat) (x : List (Nat × Nat)) : (s.setPulse k x).tims = s.tims := by
  unfold State.setPulse; split <;> rfl
@[simp] theorem State.setPulse_timServed (k : Nat) (x : List (Nat × Nat)) : (s.setPulse k x).timServed = s.timServed := by
  unfold State.setPulse; split <;> rfl
@[simp] theorem State.setPulse_sups (k : Nat) (x : List (Nat × Nat)) : (s.setPulse k x).sups = s.sups := by
  unfold State.setPulse; split <;> rfl
@[simp] theorem State.setPulse_mon (k : Nat) (x : List (Nat × Nat)) : (s.setPulse k x).mon = s.mon := by
  unfold State.setPulse; split <;> rfl
@[simp] theorem State.setPulse_ddr (k : Nat) (x : List (Nat × Nat)) : (s.setPulse k x).ddr = s.ddr := by
  unfold State.setPulse; split <;> rfl
@[simp] theorem State.setPulse_writers (k : Nat) (x : List (Nat × Nat)) : (s.setPulse k x).writers = s.writers := by
  unfold State.setPulse; split <;> rfl
@[simp] theorem State.setPulse_trig (k : Nat) (x : List (Nat × Nat)) : (s.setPulse k x).trig = s.trig := by
  unfold State.setPulse; split <;> rfl
@[simp] theorem State.setPulse_seqs (k : Nat) (x : List (Nat × Nat)) : (s.setPulse k x).seqs = s.seqs := by
  unfold State.setPulse; split <;> rfl
@[simp] theorem State.setPulse_prov (k : Nat) (x : List (Nat × Nat)) : (s.setPulse k x).prov = s.prov := by
  unfold State.setPulse; split <;> rfl
@[simp] theorem State.setPulse_queues (k : Nat) (x : List (Nat × Nat)) : (s.setPulse k x).queues = s.queues := by
  unfold State.setPulse; split <;> rfl
@[simp] theorem State.setPulse_dma (k : Nat) (x : List (Nat × Nat)) : (s.setPulse k x).dma = s.dma := by
  unfold State.setPulse; split <;> rfl
@[simp] theorem State.setPulse_feeds (k : Nat) (x : List (Nat × Nat)) : (s.setPulse k x).feeds = s.feeds := by
  unfold State.setPulse; split <;> rfl
@[simp] theorem State.setPulse_pwr (k : Nat) (x : List (Nat × Nat)) : (s.setPulse k x).pwr = s.pwr := by
  unfold State.setPulse; split <;> rfl
@[simp] theorem State.setPulse_boot (k : Nat) (x : List (Nat × Nat)) : (s.setPulse k x).boot = s.boot := by
  unfold State.setPulse; split <;> rfl
@[simp] theorem State.setPulse_hlt (k : Nat) (x : List (Nat × Nat)) : (s.setPulse k x).hlt = s.hlt := by
  unfold State.setPulse; split <;> rfl
@[simp] theorem State.setPulse_drv (k : Nat) (x : List (Nat × Nat)) : (s.setPulse k x).drv = s.drv := by
  unfold State.setPulse; split <;> rfl
@[simp] theorem State.setPulse_ep (k : Nat) (x : List (Nat × Nat)) : (s.setPulse k x).ep = s.ep := by
  unfold State.setPulse; split <;> rfl
@[simp] theorem State.setPulse_heldReqs (k : Nat) (x : List (Nat × Nat)) : (s.setPulse k x).heldReqs = s.heldReqs := by
  unfold State.setPulse; split <;> rfl
@[simp] theorem State.setPulse_fab (k : Nat) (x : List (Nat × Nat)) : (s.setPulse k x).fab = s.fab := by
  unfold State.setPulse; split <;> rfl
@[simp] theorem State.setPulse_jtag (k : Nat) (x : List (Nat × Nat)) : (s.setPulse k x).jtag = s.jtag := by
  unfold State.setPulse; split <;> rfl
@[simp] theorem State.setPulse_out (k : Nat) (x : List (Nat × Nat)) : (s.setPulse k x).out = s.out := by
  unfold State.setPulse; split <;> rfl
@[simp] theorem State.setPulse_fresh (k : Nat) (x : List (Nat × Nat)) : (s.setPulse k x).fresh = s.fresh := by
  unfold State.setPulse; split <;> rfl
@[simp] theorem State.setPulse_pending (k : Nat) (x : List (Nat × Nat)) : (s.setPulse k x).pending = s.pending := by
  unfold State.setPulse; split <;> rfl
@[simp] theorem State.rd_setPulse (k : Nat) (x : List (Nat × Nat)) (j : Nat) : (s.setPulse k x).rd j = s.rd j := by
  unfold State.setPulse; split <;> rfl
@[simp] theorem State.rdByte_setPulse (k : Nat) (x : List (Nat × Nat)) (a : Nat) : (s.setPulse k x).rdByte a = s.rdByte a := by
  unfold State.setPulse; split <;> rfl
@[simp] theorem State.pulse_setPulse_same (k : Nat) (x : List (Nat × Nat)) (h : k < 4) : (s.setPulse k x).pulse k = x := by
  simp [State.setPulse, State.pulse, h]
theorem State.pulse_setPulse_ne (k j : Nat) (x : List (Nat × Nat)) (h : j ≠ k) : (s.setPulse k x).pulse j = s.pulse j := by
  by_cases hk : k < 4 <;> by_cases hj : j < 4 <;> simp [State.setPulse, State.pulse, hk, hj, Ne.symm h]

@[simp] theorem State.setEp_regs (k : Nat) (x : EpFn) : (s.setEp k x).regs = s.regs := by
  unfold State.setEp; split <;> rfl
@[simp] theorem State.setEp_mem (k : Nat) (x : EpFn) : (s.setEp k x).mem = s.mem := by
  unfold State.setEp; split <;> rfl
@[simp] theorem State.setEp_misread (k : Nat) (x : EpFn) : (s.setEp k x).misread = s.misread := by
  unfold State.setEp; split <;> rfl
@[simp] theorem State.setEp_time (k : Nat) (x : EpFn) : (s.setEp k x).time = s.time := by
  unfold State.setEp; split <;> rfl
@[simp] theorem State.setEp_clk (k : Nat) (x : EpFn) : (s.setEp k x).clk = s.clk := by
  unfold State.setEp; split <;> rfl
@[simp] theorem State.setEp_ccs (k : Nat) (x : EpFn) : (s.setEp k x).ccs = s.ccs := by
  unfold State.setEp; split <;> rfl
@[simp] theorem State.setEp_mgt (k : Nat) (x : EpFn) : (s.setEp k x).mgt = s.mgt := by
  unfold State.setEp; split <;> rfl
@[simp] theorem State.setEp_lanes (k : Nat) (x : EpFn) : (s.setEp k x).lanes = s.lanes := by
  unfold State.setEp; split <;> rfl
@[simp] theorem State.setEp_eyes (k : Nat) (x : EpFn) : (s.setEp k x).eyes = s.eyes := by
  unfold State.setEp; split <;> rfl
@[simp] theorem State.setEp_cnd (k : Nat) (x : EpFn) : (s.setEp k x).cnd = s.cnd := by
  unfold State.setEp; split <;> rfl
@[simp] theorem State.setEp_spx (k : Nat) (x : EpFn) : (s.setEp k x).spx = s.spx := by
  unfold State.setEp; split <;> rfl
@[simp] theorem State.setEp_canopy (k : Nat) (x : EpFn) : (s.setEp k x).canopy = s.canopy := by
  unfold State.setEp; split <;> rfl
@[simp] theorem State.setEp_spg (k : Nat) (x : EpFn) : (s.setEp k x).spg = s.spg := by
  unfold State.setEp; split <;> rfl
@[simp] theorem State.setEp_scn (k : Nat) (x : EpFn) : (s.setEp k x).scn = s.scn := by
  unfold State.setEp; split <;> rfl
@[simp] theorem State.setEp_lnt (k : Nat) (x : EpFn) : (s.setEp k x).lnt = s.lnt := by
  unfold State.setEp; split <;> rfl
@[simp] theorem State.setEp_pools (k : Nat) (x : EpFn) : (s.setEp k x).pools = s.pools := by
  unfold State.setEp; split <;> rfl
@[simp] theorem State.setEp_tims (k : Nat) (x : EpFn) : (s.setEp k x).tims = s.tims := by
  unfold State.setEp; split <;> rfl
@[simp] theorem State.setEp_timServed (k : Nat) (x : EpFn) : (s.setEp k x).timServed = s.timServed := by
  unfold State.setEp; split <;> rfl
@[simp] theorem State.setEp_sups (k : Nat) (x : EpFn) : (s.setEp k x).sups = s.sups := by
  unfold State.setEp; split <;> rfl
@[simp] theorem State.setEp_mon (k : Nat) (x : EpFn) : (s.setEp k x).mon = s.mon := by
  unfold State.setEp; split <;> rfl
@[simp] theorem State.setEp_ddr (k : Nat) (x : EpFn) : (s.setEp k x).ddr = s.ddr := by
  unfold State.setEp; split <;> rfl
@[simp] theorem State.setEp_writers (k : Nat) (x : EpFn) : (s.setEp k x).writers = s.writers := by
  unfold State.setEp; split <;> rfl
@[simp] theorem State.setEp_trig (k : Nat) (x : EpFn) : (s.setEp k x).trig = s.trig := by
  unfold State.setEp; split <;> rfl
@[simp] theorem State.setEp_seqs (k : Nat) (x : EpFn) : (s.setEp k x).seqs = s.seqs := by
  unfold State.setEp; split <;> rfl
@[simp] theorem State.setEp_prov (k : Nat) (x : EpFn) : (s.setEp k x).prov = s.prov := by
  unfold State.setEp; split <;> rfl
@[simp] theorem State.setEp_pulses (k : Nat) (x : EpFn) : (s.setEp k x).pulses = s.pulses := by
  unfold State.setEp; split <;> rfl
@[simp] theorem State.setEp_queues (k : Nat) (x : EpFn) : (s.setEp k x).queues = s.queues := by
  unfold State.setEp; split <;> rfl
@[simp] theorem State.setEp_dma (k : Nat) (x : EpFn) : (s.setEp k x).dma = s.dma := by
  unfold State.setEp; split <;> rfl
@[simp] theorem State.setEp_feeds (k : Nat) (x : EpFn) : (s.setEp k x).feeds = s.feeds := by
  unfold State.setEp; split <;> rfl
@[simp] theorem State.setEp_pwr (k : Nat) (x : EpFn) : (s.setEp k x).pwr = s.pwr := by
  unfold State.setEp; split <;> rfl
@[simp] theorem State.setEp_boot (k : Nat) (x : EpFn) : (s.setEp k x).boot = s.boot := by
  unfold State.setEp; split <;> rfl
@[simp] theorem State.setEp_hlt (k : Nat) (x : EpFn) : (s.setEp k x).hlt = s.hlt := by
  unfold State.setEp; split <;> rfl
@[simp] theorem State.setEp_drv (k : Nat) (x : EpFn) : (s.setEp k x).drv = s.drv := by
  unfold State.setEp; split <;> rfl
@[simp] theorem State.setEp_heldReqs (k : Nat) (x : EpFn) : (s.setEp k x).heldReqs = s.heldReqs := by
  unfold State.setEp; split <;> rfl
@[simp] theorem State.setEp_fab (k : Nat) (x : EpFn) : (s.setEp k x).fab = s.fab := by
  unfold State.setEp; split <;> rfl
@[simp] theorem State.setEp_jtag (k : Nat) (x : EpFn) : (s.setEp k x).jtag = s.jtag := by
  unfold State.setEp; split <;> rfl
@[simp] theorem State.setEp_out (k : Nat) (x : EpFn) : (s.setEp k x).out = s.out := by
  unfold State.setEp; split <;> rfl
@[simp] theorem State.setEp_fresh (k : Nat) (x : EpFn) : (s.setEp k x).fresh = s.fresh := by
  unfold State.setEp; split <;> rfl
@[simp] theorem State.setEp_pending (k : Nat) (x : EpFn) : (s.setEp k x).pending = s.pending := by
  unfold State.setEp; split <;> rfl
@[simp] theorem State.rd_setEp (k : Nat) (x : EpFn) (j : Nat) : (s.setEp k x).rd j = s.rd j := by
  unfold State.setEp; split <;> rfl
@[simp] theorem State.rdByte_setEp (k : Nat) (x : EpFn) (a : Nat) : (s.setEp k x).rdByte a = s.rdByte a := by
  unfold State.setEp; split <;> rfl
@[simp] theorem State.epFn_setEp_same (k : Nat) (x : EpFn) (h : k < 4) : (s.setEp k x).epFn k = x := by
  simp [State.setEp, State.epFn, h]
theorem State.epFn_setEp_ne (k j : Nat) (x : EpFn) (h : j ≠ k) : (s.setEp k x).epFn j = s.epFn j := by
  by_cases hk : k < 4 <;> by_cases hj : j < 4 <;> simp [State.setEp, State.epFn, hk, hj, Ne.symm h]

@[simp] theorem State.setFport_regs (k : Nat) (x : FabPort) : (s.setFport k x).regs = s.regs := by
  unfold State.setFport; split <;> rfl
@[simp] theorem State.setFport_mem (k : Nat) (x : FabPort) : (s.setFport k x).mem = s.mem := by
  unfold State.setFport; split <;> rfl
@[simp] theorem State.setFport_misread (k : Nat) (x : FabPort) : (s.setFport k x).misread = s.misread := by
  unfold State.setFport; split <;> rfl
@[simp] theorem State.setFport_time (k : Nat) (x : FabPort) : (s.setFport k x).time = s.time := by
  unfold State.setFport; split <;> rfl
@[simp] theorem State.setFport_clk (k : Nat) (x : FabPort) : (s.setFport k x).clk = s.clk := by
  unfold State.setFport; split <;> rfl
@[simp] theorem State.setFport_ccs (k : Nat) (x : FabPort) : (s.setFport k x).ccs = s.ccs := by
  unfold State.setFport; split <;> rfl
@[simp] theorem State.setFport_mgt (k : Nat) (x : FabPort) : (s.setFport k x).mgt = s.mgt := by
  unfold State.setFport; split <;> rfl
@[simp] theorem State.setFport_lanes (k : Nat) (x : FabPort) : (s.setFport k x).lanes = s.lanes := by
  unfold State.setFport; split <;> rfl
@[simp] theorem State.setFport_eyes (k : Nat) (x : FabPort) : (s.setFport k x).eyes = s.eyes := by
  unfold State.setFport; split <;> rfl
@[simp] theorem State.setFport_cnd (k : Nat) (x : FabPort) : (s.setFport k x).cnd = s.cnd := by
  unfold State.setFport; split <;> rfl
@[simp] theorem State.setFport_spx (k : Nat) (x : FabPort) : (s.setFport k x).spx = s.spx := by
  unfold State.setFport; split <;> rfl
@[simp] theorem State.setFport_canopy (k : Nat) (x : FabPort) : (s.setFport k x).canopy = s.canopy := by
  unfold State.setFport; split <;> rfl
@[simp] theorem State.setFport_spg (k : Nat) (x : FabPort) : (s.setFport k x).spg = s.spg := by
  unfold State.setFport; split <;> rfl
@[simp] theorem State.setFport_scn (k : Nat) (x : FabPort) : (s.setFport k x).scn = s.scn := by
  unfold State.setFport; split <;> rfl
@[simp] theorem State.setFport_lnt (k : Nat) (x : FabPort) : (s.setFport k x).lnt = s.lnt := by
  unfold State.setFport; split <;> rfl
@[simp] theorem State.setFport_pools (k : Nat) (x : FabPort) : (s.setFport k x).pools = s.pools := by
  unfold State.setFport; split <;> rfl
@[simp] theorem State.setFport_tims (k : Nat) (x : FabPort) : (s.setFport k x).tims = s.tims := by
  unfold State.setFport; split <;> rfl
@[simp] theorem State.setFport_timServed (k : Nat) (x : FabPort) : (s.setFport k x).timServed = s.timServed := by
  unfold State.setFport; split <;> rfl
@[simp] theorem State.setFport_sups (k : Nat) (x : FabPort) : (s.setFport k x).sups = s.sups := by
  unfold State.setFport; split <;> rfl
@[simp] theorem State.setFport_mon (k : Nat) (x : FabPort) : (s.setFport k x).mon = s.mon := by
  unfold State.setFport; split <;> rfl
@[simp] theorem State.setFport_ddr (k : Nat) (x : FabPort) : (s.setFport k x).ddr = s.ddr := by
  unfold State.setFport; split <;> rfl
@[simp] theorem State.setFport_writers (k : Nat) (x : FabPort) : (s.setFport k x).writers = s.writers := by
  unfold State.setFport; split <;> rfl
@[simp] theorem State.setFport_trig (k : Nat) (x : FabPort) : (s.setFport k x).trig = s.trig := by
  unfold State.setFport; split <;> rfl
@[simp] theorem State.setFport_seqs (k : Nat) (x : FabPort) : (s.setFport k x).seqs = s.seqs := by
  unfold State.setFport; split <;> rfl
@[simp] theorem State.setFport_prov (k : Nat) (x : FabPort) : (s.setFport k x).prov = s.prov := by
  unfold State.setFport; split <;> rfl
@[simp] theorem State.setFport_pulses (k : Nat) (x : FabPort) : (s.setFport k x).pulses = s.pulses := by
  unfold State.setFport; split <;> rfl
@[simp] theorem State.setFport_queues (k : Nat) (x : FabPort) : (s.setFport k x).queues = s.queues := by
  unfold State.setFport; split <;> rfl
@[simp] theorem State.setFport_dma (k : Nat) (x : FabPort) : (s.setFport k x).dma = s.dma := by
  unfold State.setFport; split <;> rfl
@[simp] theorem State.setFport_feeds (k : Nat) (x : FabPort) : (s.setFport k x).feeds = s.feeds := by
  unfold State.setFport; split <;> rfl
@[simp] theorem State.setFport_pwr (k : Nat) (x : FabPort) : (s.setFport k x).pwr = s.pwr := by
  unfold State.setFport; split <;> rfl
@[simp] theorem State.setFport_boot (k : Nat) (x : FabPort) : (s.setFport k x).boot = s.boot := by
  unfold State.setFport; split <;> rfl
@[simp] theorem State.setFport_hlt (k : Nat) (x : FabPort) : (s.setFport k x).hlt = s.hlt := by
  unfold State.setFport; split <;> rfl
@[simp] theorem State.setFport_drv (k : Nat) (x : FabPort) : (s.setFport k x).drv = s.drv := by
  unfold State.setFport; split <;> rfl
@[simp] theorem State.setFport_ep (k : Nat) (x : FabPort) : (s.setFport k x).ep = s.ep := by
  unfold State.setFport; split <;> rfl
@[simp] theorem State.setFport_heldReqs (k : Nat) (x : FabPort) : (s.setFport k x).heldReqs = s.heldReqs := by
  unfold State.setFport; split <;> rfl
@[simp] theorem State.setFport_jtag (k : Nat) (x : FabPort) : (s.setFport k x).jtag = s.jtag := by
  unfold State.setFport; split <;> rfl
@[simp] theorem State.setFport_out (k : Nat) (x : FabPort) : (s.setFport k x).out = s.out := by
  unfold State.setFport; split <;> rfl
@[simp] theorem State.setFport_fresh (k : Nat) (x : FabPort) : (s.setFport k x).fresh = s.fresh := by
  unfold State.setFport; split <;> rfl
@[simp] theorem State.setFport_pending (k : Nat) (x : FabPort) : (s.setFport k x).pending = s.pending := by
  unfold State.setFport; split <;> rfl
@[simp] theorem State.rd_setFport (k : Nat) (x : FabPort) (j : Nat) : (s.setFport k x).rd j = s.rd j := by
  unfold State.setFport; split <;> rfl
@[simp] theorem State.rdByte_setFport (k : Nat) (x : FabPort) (a : Nat) : (s.setFport k x).rdByte a = s.rdByte a := by
  unfold State.setFport; split <;> rfl
@[simp] theorem State.fport_setFport_same (k : Nat) (x : FabPort) (h : k < 8) : (s.setFport k x).fport k = x := by
  simp [State.setFport, State.fport, h]
theorem State.fport_setFport_ne (k j : Nat) (x : FabPort) (h : j ≠ k) : (s.setFport k x).fport j = s.fport j := by
  by_cases hk : k < 8 <;> by_cases hj : j < 8 <;> simp [State.setFport, State.fport, hk, hj, Ne.symm h]

@[simp] theorem State.setDset_regs (k : Nat) (x : DrvSet) : (s.setDset k x).regs = s.regs := by
  unfold State.setDset; split <;> rfl
@[simp] theorem State.setDset_mem (k : Nat) (x : DrvSet) : (s.setDset k x).mem = s.mem := by
  unfold State.setDset; split <;> rfl
@[simp] theorem State.setDset_misread (k : Nat) (x : DrvSet) : (s.setDset k x).misread = s.misread := by
  unfold State.setDset; split <;> rfl
@[simp] theorem State.setDset_time (k : Nat) (x : DrvSet) : (s.setDset k x).time = s.time := by
  unfold State.setDset; split <;> rfl
@[simp] theorem State.setDset_clk (k : Nat) (x : DrvSet) : (s.setDset k x).clk = s.clk := by
  unfold State.setDset; split <;> rfl
@[simp] theorem State.setDset_ccs (k : Nat) (x : DrvSet) : (s.setDset k x).ccs = s.ccs := by
  unfold State.setDset; split <;> rfl
@[simp] theorem State.setDset_mgt (k : Nat) (x : DrvSet) : (s.setDset k x).mgt = s.mgt := by
  unfold State.setDset; split <;> rfl
@[simp] theorem State.setDset_lanes (k : Nat) (x : DrvSet) : (s.setDset k x).lanes = s.lanes := by
  unfold State.setDset; split <;> rfl
@[simp] theorem State.setDset_eyes (k : Nat) (x : DrvSet) : (s.setDset k x).eyes = s.eyes := by
  unfold State.setDset; split <;> rfl
@[simp] theorem State.setDset_cnd (k : Nat) (x : DrvSet) : (s.setDset k x).cnd = s.cnd := by
  unfold State.setDset; split <;> rfl
@[simp] theorem State.setDset_spx (k : Nat) (x : DrvSet) : (s.setDset k x).spx = s.spx := by
  unfold State.setDset; split <;> rfl
@[simp] theorem State.setDset_canopy (k : Nat) (x : DrvSet) : (s.setDset k x).canopy = s.canopy := by
  unfold State.setDset; split <;> rfl
@[simp] theorem State.setDset_spg (k : Nat) (x : DrvSet) : (s.setDset k x).spg = s.spg := by
  unfold State.setDset; split <;> rfl
@[simp] theorem State.setDset_scn (k : Nat) (x : DrvSet) : (s.setDset k x).scn = s.scn := by
  unfold State.setDset; split <;> rfl
@[simp] theorem State.setDset_lnt (k : Nat) (x : DrvSet) : (s.setDset k x).lnt = s.lnt := by
  unfold State.setDset; split <;> rfl
@[simp] theorem State.setDset_pools (k : Nat) (x : DrvSet) : (s.setDset k x).pools = s.pools := by
  unfold State.setDset; split <;> rfl
@[simp] theorem State.setDset_tims (k : Nat) (x : DrvSet) : (s.setDset k x).tims = s.tims := by
  unfold State.setDset; split <;> rfl
@[simp] theorem State.setDset_timServed (k : Nat) (x : DrvSet) : (s.setDset k x).timServed = s.timServed := by
  unfold State.setDset; split <;> rfl
@[simp] theorem State.setDset_sups (k : Nat) (x : DrvSet) : (s.setDset k x).sups = s.sups := by
  unfold State.setDset; split <;> rfl
@[simp] theorem State.setDset_mon (k : Nat) (x : DrvSet) : (s.setDset k x).mon = s.mon := by
  unfold State.setDset; split <;> rfl
@[simp] theorem State.setDset_ddr (k : Nat) (x : DrvSet) : (s.setDset k x).ddr = s.ddr := by
  unfold State.setDset; split <;> rfl
@[simp] theorem State.setDset_writers (k : Nat) (x : DrvSet) : (s.setDset k x).writers = s.writers := by
  unfold State.setDset; split <;> rfl
@[simp] theorem State.setDset_trig (k : Nat) (x : DrvSet) : (s.setDset k x).trig = s.trig := by
  unfold State.setDset; split <;> rfl
@[simp] theorem State.setDset_seqs (k : Nat) (x : DrvSet) : (s.setDset k x).seqs = s.seqs := by
  unfold State.setDset; split <;> rfl
@[simp] theorem State.setDset_prov (k : Nat) (x : DrvSet) : (s.setDset k x).prov = s.prov := by
  unfold State.setDset; split <;> rfl
@[simp] theorem State.setDset_pulses (k : Nat) (x : DrvSet) : (s.setDset k x).pulses = s.pulses := by
  unfold State.setDset; split <;> rfl
@[simp] theorem State.setDset_queues (k : Nat) (x : DrvSet) : (s.setDset k x).queues = s.queues := by
  unfold State.setDset; split <;> rfl
@[simp] theorem State.setDset_dma (k : Nat) (x : DrvSet) : (s.setDset k x).dma = s.dma := by
  unfold State.setDset; split <;> rfl
@[simp] theorem State.setDset_feeds (k : Nat) (x : DrvSet) : (s.setDset k x).feeds = s.feeds := by
  unfold State.setDset; split <;> rfl
@[simp] theorem State.setDset_pwr (k : Nat) (x : DrvSet) : (s.setDset k x).pwr = s.pwr := by
  unfold State.setDset; split <;> rfl
@[simp] theorem State.setDset_boot (k : Nat) (x : DrvSet) : (s.setDset k x).boot = s.boot := by
  unfold State.setDset; split <;> rfl
@[simp] theorem State.setDset_hlt (k : Nat) (x : DrvSet) : (s.setDset k x).hlt = s.hlt := by
  unfold State.setDset; split <;> rfl
@[simp] theorem State.setDset_ep (k : Nat) (x : DrvSet) : (s.setDset k x).ep = s.ep := by
  unfold State.setDset; split <;> rfl
@[simp] theorem State.setDset_heldReqs (k : Nat) (x : DrvSet) : (s.setDset k x).heldReqs = s.heldReqs := by
  unfold State.setDset; split <;> rfl
@[simp] theorem State.setDset_fab (k : Nat) (x : DrvSet) : (s.setDset k x).fab = s.fab := by
  unfold State.setDset; split <;> rfl
@[simp] theorem State.setDset_jtag (k : Nat) (x : DrvSet) : (s.setDset k x).jtag = s.jtag := by
  unfold State.setDset; split <;> rfl
@[simp] theorem State.setDset_out (k : Nat) (x : DrvSet) : (s.setDset k x).out = s.out := by
  unfold State.setDset; split <;> rfl
@[simp] theorem State.setDset_fresh (k : Nat) (x : DrvSet) : (s.setDset k x).fresh = s.fresh := by
  unfold State.setDset; split <;> rfl
@[simp] theorem State.setDset_pending (k : Nat) (x : DrvSet) : (s.setDset k x).pending = s.pending := by
  unfold State.setDset; split <;> rfl
@[simp] theorem State.rd_setDset (k : Nat) (x : DrvSet) (j : Nat) : (s.setDset k x).rd j = s.rd j := by
  unfold State.setDset; split <;> rfl
@[simp] theorem State.rdByte_setDset (k : Nat) (x : DrvSet) (a : Nat) : (s.setDset k x).rdByte a = s.rdByte a := by
  unfold State.setDset; split <;> rfl
@[simp] theorem State.dset_setDset_same (k : Nat) (x : DrvSet) (h : k < 4) : (s.setDset k x).dset k = x := by
  simp [State.setDset, State.dset, h]
theorem State.dset_setDset_ne (k j : Nat) (x : DrvSet) (h : j ≠ k) : (s.setDset k x).dset j = s.dset j := by
  by_cases hk : k < 4 <;> by_cases hj : j < 4 <;> simp [State.setDset, State.dset, hk, hj, Ne.symm h]

@[simp] theorem State.setQueue_regs (q : Nat) (x : QueueLive) : (s.setQueue q x).regs = s.regs := rfl
@[simp] theorem State.setQueue_mem (q : Nat) (x : QueueLive) : (s.setQueue q x).mem = s.mem := rfl
@[simp] theorem State.setQueue_misread (q : Nat) (x : QueueLive) : (s.setQueue q x).misread = s.misread := rfl
@[simp] theorem State.setQueue_time (q : Nat) (x : QueueLive) : (s.setQueue q x).time = s.time := rfl
@[simp] theorem State.setQueue_clk (q : Nat) (x : QueueLive) : (s.setQueue q x).clk = s.clk := rfl
@[simp] theorem State.setQueue_ccs (q : Nat) (x : QueueLive) : (s.setQueue q x).ccs = s.ccs := rfl
@[simp] theorem State.setQueue_mgt (q : Nat) (x : QueueLive) : (s.setQueue q x).mgt = s.mgt := rfl
@[simp] theorem State.setQueue_lanes (q : Nat) (x : QueueLive) : (s.setQueue q x).lanes = s.lanes := rfl
@[simp] theorem State.setQueue_eyes (q : Nat) (x : QueueLive) : (s.setQueue q x).eyes = s.eyes := rfl
@[simp] theorem State.setQueue_cnd (q : Nat) (x : QueueLive) : (s.setQueue q x).cnd = s.cnd := rfl
@[simp] theorem State.setQueue_spx (q : Nat) (x : QueueLive) : (s.setQueue q x).spx = s.spx := rfl
@[simp] theorem State.setQueue_canopy (q : Nat) (x : QueueLive) : (s.setQueue q x).canopy = s.canopy := rfl
@[simp] theorem State.setQueue_spg (q : Nat) (x : QueueLive) : (s.setQueue q x).spg = s.spg := rfl
@[simp] theorem State.setQueue_scn (q : Nat) (x : QueueLive) : (s.setQueue q x).scn = s.scn := rfl
@[simp] theorem State.setQueue_lnt (q : Nat) (x : QueueLive) : (s.setQueue q x).lnt = s.lnt := rfl
@[simp] theorem State.setQueue_pools (q : Nat) (x : QueueLive) : (s.setQueue q x).pools = s.pools := rfl
@[simp] theorem State.setQueue_tims (q : Nat) (x : QueueLive) : (s.setQueue q x).tims = s.tims := rfl
@[simp] theorem State.setQueue_timServed (q : Nat) (x : QueueLive) : (s.setQueue q x).timServed = s.timServed := rfl
@[simp] theorem State.setQueue_sups (q : Nat) (x : QueueLive) : (s.setQueue q x).sups = s.sups := rfl
@[simp] theorem State.setQueue_mon (q : Nat) (x : QueueLive) : (s.setQueue q x).mon = s.mon := rfl
@[simp] theorem State.setQueue_ddr (q : Nat) (x : QueueLive) : (s.setQueue q x).ddr = s.ddr := rfl
@[simp] theorem State.setQueue_writers (q : Nat) (x : QueueLive) : (s.setQueue q x).writers = s.writers := rfl
@[simp] theorem State.setQueue_trig (q : Nat) (x : QueueLive) : (s.setQueue q x).trig = s.trig := rfl
@[simp] theorem State.setQueue_seqs (q : Nat) (x : QueueLive) : (s.setQueue q x).seqs = s.seqs := rfl
@[simp] theorem State.setQueue_prov (q : Nat) (x : QueueLive) : (s.setQueue q x).prov = s.prov := rfl
@[simp] theorem State.setQueue_pulses (q : Nat) (x : QueueLive) : (s.setQueue q x).pulses = s.pulses := rfl
@[simp] theorem State.setQueue_dma (q : Nat) (x : QueueLive) : (s.setQueue q x).dma = s.dma := rfl
@[simp] theorem State.setQueue_feeds (q : Nat) (x : QueueLive) : (s.setQueue q x).feeds = s.feeds := rfl
@[simp] theorem State.setQueue_pwr (q : Nat) (x : QueueLive) : (s.setQueue q x).pwr = s.pwr := rfl
@[simp] theorem State.setQueue_boot (q : Nat) (x : QueueLive) : (s.setQueue q x).boot = s.boot := rfl
@[simp] theorem State.setQueue_hlt (q : Nat) (x : QueueLive) : (s.setQueue q x).hlt = s.hlt := rfl
@[simp] theorem State.setQueue_drv (q : Nat) (x : QueueLive) : (s.setQueue q x).drv = s.drv := rfl
@[simp] theorem State.setQueue_ep (q : Nat) (x : QueueLive) : (s.setQueue q x).ep = s.ep := rfl
@[simp] theorem State.setQueue_heldReqs (q : Nat) (x : QueueLive) : (s.setQueue q x).heldReqs = s.heldReqs := rfl
@[simp] theorem State.setQueue_fab (q : Nat) (x : QueueLive) : (s.setQueue q x).fab = s.fab := rfl
@[simp] theorem State.setQueue_jtag (q : Nat) (x : QueueLive) : (s.setQueue q x).jtag = s.jtag := rfl
@[simp] theorem State.setQueue_out (q : Nat) (x : QueueLive) : (s.setQueue q x).out = s.out := rfl
@[simp] theorem State.setQueue_fresh (q : Nat) (x : QueueLive) : (s.setQueue q x).fresh = s.fresh := rfl
@[simp] theorem State.setQueue_pending (q : Nat) (x : QueueLive) : (s.setQueue q x).pending = s.pending := rfl
@[simp] theorem State.rd_setQueue (q : Nat) (x : QueueLive) (j : Nat) : (s.setQueue q x).rd j = s.rd j := rfl
@[simp] theorem State.setCtrl_regs (c : Ctrl) : (s.setCtrl c).regs = s.regs := rfl
@[simp] theorem State.setCtrl_mem (c : Ctrl) : (s.setCtrl c).mem = s.mem := rfl
@[simp] theorem State.setCtrl_misread (c : Ctrl) : (s.setCtrl c).misread = s.misread := rfl
@[simp] theorem State.setCtrl_time (c : Ctrl) : (s.setCtrl c).time = s.time := rfl
@[simp] theorem State.setCtrl_clk (c : Ctrl) : (s.setCtrl c).clk = s.clk := rfl
@[simp] theorem State.setCtrl_ccs (c : Ctrl) : (s.setCtrl c).ccs = s.ccs := rfl
@[simp] theorem State.setCtrl_mgt (c : Ctrl) : (s.setCtrl c).mgt = s.mgt := rfl
@[simp] theorem State.setCtrl_lanes (c : Ctrl) : (s.setCtrl c).lanes = s.lanes := rfl
@[simp] theorem State.setCtrl_eyes (c : Ctrl) : (s.setCtrl c).eyes = s.eyes := rfl
@[simp] theorem State.setCtrl_cnd (c : Ctrl) : (s.setCtrl c).cnd = s.cnd := rfl
@[simp] theorem State.setCtrl_spx (c : Ctrl) : (s.setCtrl c).spx = s.spx := rfl
@[simp] theorem State.setCtrl_canopy (c : Ctrl) : (s.setCtrl c).canopy = s.canopy := rfl
@[simp] theorem State.setCtrl_spg (c : Ctrl) : (s.setCtrl c).spg = s.spg := rfl
@[simp] theorem State.setCtrl_scn (c : Ctrl) : (s.setCtrl c).scn = s.scn := rfl
@[simp] theorem State.setCtrl_lnt (c : Ctrl) : (s.setCtrl c).lnt = s.lnt := rfl
@[simp] theorem State.setCtrl_pools (c : Ctrl) : (s.setCtrl c).pools = s.pools := rfl
@[simp] theorem State.setCtrl_tims (c : Ctrl) : (s.setCtrl c).tims = s.tims := rfl
@[simp] theorem State.setCtrl_timServed (c : Ctrl) : (s.setCtrl c).timServed = s.timServed := rfl
@[simp] theorem State.setCtrl_sups (c : Ctrl) : (s.setCtrl c).sups = s.sups := rfl
@[simp] theorem State.setCtrl_mon (c : Ctrl) : (s.setCtrl c).mon = s.mon := rfl
@[simp] theorem State.setCtrl_ddr (c : Ctrl) : (s.setCtrl c).ddr = s.ddr := rfl
@[simp] theorem State.setCtrl_writers (c : Ctrl) : (s.setCtrl c).writers = s.writers := rfl
@[simp] theorem State.setCtrl_trig (c : Ctrl) : (s.setCtrl c).trig = s.trig := rfl
@[simp] theorem State.setCtrl_seqs (c : Ctrl) : (s.setCtrl c).seqs = s.seqs := rfl
@[simp] theorem State.setCtrl_prov (c : Ctrl) : (s.setCtrl c).prov = s.prov := rfl
@[simp] theorem State.setCtrl_pulses (c : Ctrl) : (s.setCtrl c).pulses = s.pulses := rfl
@[simp] theorem State.setCtrl_queues (c : Ctrl) : (s.setCtrl c).queues = s.queues := rfl
@[simp] theorem State.setCtrl_dma (c : Ctrl) : (s.setCtrl c).dma = s.dma := rfl
@[simp] theorem State.setCtrl_feeds (c : Ctrl) : (s.setCtrl c).feeds = s.feeds := rfl
@[simp] theorem State.setCtrl_pwr (c : Ctrl) : (s.setCtrl c).pwr = s.pwr := rfl
@[simp] theorem State.setCtrl_boot (c : Ctrl) : (s.setCtrl c).boot = s.boot := rfl
@[simp] theorem State.setCtrl_hlt (c : Ctrl) : (s.setCtrl c).hlt = s.hlt := rfl
@[simp] theorem State.setCtrl_ep (c : Ctrl) : (s.setCtrl c).ep = s.ep := rfl
@[simp] theorem State.setCtrl_heldReqs (c : Ctrl) : (s.setCtrl c).heldReqs = s.heldReqs := rfl
@[simp] theorem State.setCtrl_fab (c : Ctrl) : (s.setCtrl c).fab = s.fab := rfl
@[simp] theorem State.setCtrl_jtag (c : Ctrl) : (s.setCtrl c).jtag = s.jtag := rfl
@[simp] theorem State.setCtrl_out (c : Ctrl) : (s.setCtrl c).out = s.out := rfl
@[simp] theorem State.setCtrl_fresh (c : Ctrl) : (s.setCtrl c).fresh = s.fresh := rfl
@[simp] theorem State.setCtrl_pending (c : Ctrl) : (s.setCtrl c).pending = s.pending := rfl

end Sys2Proof.Machine
end

