-- ==== Sys2Proof/Laws/Events.lean ====
section
/-! SUPPORT. All that offering an item to a queue, raising an event and setting an access flag can do: the
parts of the device they leave alone, and the slots they write. -/

namespace Sys2Proof.Machine

/-- The two states differ at most in what an event reaches: the dictionary, device memory, the management
island, the queues, the endpoints and what has left the device. -/
structure State.EventOnly (s t : State) : Prop where
  time : t.time = s.time
  clk : t.clk = s.clk
  ccs : t.ccs = s.ccs
  lanes : t.lanes = s.lanes
  eyes : t.eyes = s.eyes
  cnd : t.cnd = s.cnd
  spx : t.spx = s.spx
  canopy : t.canopy = s.canopy
  spg : t.spg = s.spg
  scn : t.scn = s.scn
  lnt : t.lnt = s.lnt
  pools : t.pools = s.pools
  tims : t.tims = s.tims
  timServed : t.timServed = s.timServed
  sups : t.sups = s.sups
  mon : t.mon = s.mon
  ddr : t.ddr = s.ddr
  writers : t.writers = s.writers
  trig : t.trig = s.trig
  seqs : t.seqs = s.seqs
  prov : t.prov = s.prov
  pulses : t.pulses = s.pulses
  dma : t.dma = s.dma
  feeds : t.feeds = s.feeds
  pwr : t.pwr = s.pwr
  boot : t.boot = s.boot
  hlt : t.hlt = s.hlt
  drv : t.drv = s.drv
  heldReqs : t.heldReqs = s.heldReqs
  fab : t.fab = s.fab
  jtag : t.jtag = s.jtag
  fresh : t.fresh = s.fresh
  pending : t.pending = s.pending

theorem State.EventOnly.refl (s : State) : s.EventOnly s where
  time := rfl
  clk := rfl
  ccs := rfl
  lanes := rfl
  eyes := rfl
  cnd := rfl
  spx := rfl
  canopy := rfl
  spg := rfl
  scn := rfl
  lnt := rfl
  pools := rfl
  tims := rfl
  timServed := rfl
  sups := rfl
  mon := rfl
  ddr := rfl
  writers := rfl
  trig := rfl
  seqs := rfl
  prov := rfl
  pulses := rfl
  dma := rfl
  feeds := rfl
  pwr := rfl
  boot := rfl
  hlt := rfl
  drv := rfl
  heldReqs := rfl
  fab := rfl
  jtag := rfl
  fresh := rfl
  pending := rfl

theorem State.EventOnly.trans {s t u : State} (h : s.EventOnly t) (g : t.EventOnly u) : s.EventOnly u where
  time := g.time.trans h.time
  clk := g.clk.trans h.clk
  ccs := g.ccs.trans h.ccs
  lanes := g.lanes.trans h.lanes
  eyes := g.eyes.trans h.eyes
  cnd := g.cnd.trans h.cnd
  spx := g.spx.trans h.spx
  canopy := g.canopy.trans h.canopy
  spg := g.spg.trans h.spg
  scn := g.scn.trans h.scn
  lnt := g.lnt.trans h.lnt
  pools := g.pools.trans h.pools
  tims := g.tims.trans h.tims
  timServed := g.timServed.trans h.timServed
  sups := g.sups.trans h.sups
  mon := g.mon.trans h.mon
  ddr := g.ddr.trans h.ddr
  writers := g.writers.trans h.writers
  trig := g.trig.trans h.trig
  seqs := g.seqs.trans h.seqs
  prov := g.prov.trans h.prov
  pulses := g.pulses.trans h.pulses
  dma := g.dma.trans h.dma
  feeds := g.feeds.trans h.feeds
  pwr := g.pwr.trans h.pwr
  boot := g.boot.trans h.boot
  hlt := g.hlt.trans h.hlt
  drv := g.drv.trans h.drv
  heldReqs := g.heldReqs.trans h.heldReqs
  fab := g.fab.trans h.fab
  jtag := g.jtag.trans h.jtag
  fresh := g.fresh.trans h.fresh
  pending := g.pending.trans h.pending

theorem State.EventOnly.ite {s t u : State} {c : Prop} [Decidable c] (h : s.EventOnly t) (g : s.EventOnly u) :
    s.EventOnly (if c then t else u) := by
  split
  · exact h
  · exact g

variable (s : State)

theorem State.wr_eventOnly (k : Nat) (v : BitVec 64) : s.EventOnly (s.wr k v) where
  time := by simp
  clk := by simp
  ccs := by simp
  lanes := by simp
  eyes := by simp
  cnd := by simp
  spx := by simp
  canopy := by simp
  spg := by simp
  scn := by simp
  lnt := by simp
  pools := by simp
  tims := by simp
  timServed := by simp
  sups := by simp
  mon := by simp
  ddr := by simp
  writers := by simp
  trig := by simp
  seqs := by simp
  prov := by simp
  pulses := by simp
  dma := by simp
  feeds := by simp
  pwr := by simp
  boot := by simp
  hlt := by simp
  drv := by simp
  heldReqs := by simp
  fab := by simp
  jtag := by simp
  fresh := by simp
  pending := by simp

theorem State.send_eventOnly (m : OutMsg) : s.EventOnly (s.send m) where
  time := by simp
  clk := by simp
  ccs := by simp
  lanes := by simp
  eyes := by simp
  cnd := by simp
  spx := by simp
  canopy := by simp
  spg := by simp
  scn := by simp
  lnt := by simp
  pools := by simp
  tims := by simp
  timServed := by simp
  sups := by simp
  mon := by simp
  ddr := by simp
  writers := by simp
  trig := by simp
  seqs := by simp
  prov := by simp
  pulses := by simp
  dma := by simp
  feeds := by simp
  pwr := by simp
  boot := by simp
  hlt := by simp
  drv := by simp
  heldReqs := by simp
  fab := by simp
  jtag := by simp
  fresh := by simp
  pending := by simp

theorem State.wrBytes_eventOnly (a : Nat) (bs : List (BitVec 8)) : s.EventOnly (s.wrBytes a bs) where
  time := by simp
  clk := by simp
  ccs := by simp
  lanes := by simp
  eyes := by simp
  cnd := by simp
  spx := by simp
  canopy := by simp
  spg := by simp
  scn := by simp
  lnt := by simp
  pools := by simp
  tims := by simp
  timServed := by simp
  sups := by simp
  mon := by simp
  ddr := by simp
  writers := by simp
  trig := by simp
  seqs := by simp
  prov := by simp
  pulses := by simp
  dma := by simp
  feeds := by simp
  pwr := by simp
  boot := by simp
  hlt := by simp
  drv := by simp
  heldReqs := by simp
  fab := by simp
  jtag := by simp
  fresh := by simp
  pending := by simp

theorem State.setQueue_eventOnly (q : Nat) (x : QueueLive) : s.EventOnly (s.setQueue q x) where
  time := by simp
  clk := by simp
  ccs := by simp
  lanes := by simp
  eyes := by simp
  cnd := by simp
  spx := by simp
  canopy := by simp
  spg := by simp
  scn := by simp
  lnt := by simp
  pools := by simp
  tims := by simp
  timServed := by simp
  sups := by simp
  mon := by simp
  ddr := by simp
  writers := by simp
  trig := by simp
  seqs := by simp
  prov := by simp
  pulses := by simp
  dma := by simp
  feeds := by simp
  pwr := by simp
  boot := by simp
  hlt := by simp
  drv := by simp
  heldReqs := by simp
  fab := by simp
  jtag := by simp
  fresh := by simp
  pending := by simp

theorem State.setEp_eventOnly (n : Nat) (f : EpFn) : s.EventOnly (s.setEp n f) where
  time := by simp
  clk := by simp
  ccs := by simp
  lanes := by simp
  eyes := by simp
  cnd := by simp
  spx := by simp
  canopy := by simp
  spg := by simp
  scn := by simp
  lnt := by simp
  pools := by simp
  tims := by simp
  timServed := by simp
  sups := by simp
  mon := by simp
  ddr := by simp
  writers := by simp
  trig := by simp
  seqs := by simp
  prov := by simp
  pulses := by simp
  dma := by simp
  feeds := by simp
  pwr := by simp
  boot := by simp
  hlt := by simp
  drv := by simp
  heldReqs := by simp
  fab := by simp
  jtag := by simp
  fresh := by simp
  pending := by simp

theorem State.mgt_eventOnly (m : Mgt) : s.EventOnly { s with mgt := m } where
  time := rfl
  clk := rfl
  ccs := rfl
  lanes := rfl
  eyes := rfl
  cnd := rfl
  spx := rfl
  canopy := rfl
  spg := rfl
  scn := rfl
  lnt := rfl
  pools := rfl
  tims := rfl
  timServed := rfl
  sups := rfl
  mon := rfl
  ddr := rfl
  writers := rfl
  trig := rfl
  seqs := rfl
  prov := rfl
  pulses := rfl
  dma := rfl
  feeds := rfl
  pwr := rfl
  boot := rfl
  hlt := rfl
  drv := rfl
  heldReqs := rfl
  fab := rfl
  jtag := rfl
  fresh := rfl
  pending := rfl

theorem State.notifyQueue_eventOnly (x : QueueLive) : s.EventOnly (s.notifyQueue x) := by
  unfold State.notifyQueue
  exact .ite (.ite (s.wrBytes_eventOnly _ _) (.ite (s.send_eventOnly _) (.refl s))) (.refl s)

@[simp] theorem State.regs_notifyQueue (x : QueueLive) : (s.notifyQueue x).regs = s.regs := by
  simp [State.notifyQueue, apply_ite State.regs]

@[simp] theorem State.mgt_notifyQueue (x : QueueLive) : (s.notifyQueue x).mgt = s.mgt := by
  simp [State.notifyQueue, apply_ite State.mgt]

theorem State.enqueueTaken_eventOnly (q : Nat) (x : QueueLive) (k : QueueItem) :
    s.EventOnly (s.enqueueTaken q x k) := by
  have h := ((s.wrBytes_eventOnly (x.entryAddr x.tail) k.bytes).trans (State.wrBytes_eventOnly _ (x.tagAddr x.tail)
    (leBytes 8 (tagWord k.bytes.length k.kind x.tail)))).trans (State.setQueue_eventOnly _ q x.advance)
  exact .ite (h.trans (State.notifyQueue_eventOnly _ x)) h

@[simp] theorem State.regs_enqueueTaken (q : Nat) (x : QueueLive) (k : QueueItem) :
    (s.enqueueTaken q x k).regs = s.regs := by
  simp [State.enqueueTaken, apply_ite State.regs]

theorem State.enqueueStage_eventOnly (q : Nat) (x : QueueLive) (k : QueueItem) :
    s.EventOnly (s.enqueueStage q x k) :=
  .ite (s.enqueueTaken_eventOnly q x k) (s.setQueue_eventOnly _ _)

@[simp] theorem State.regs_enqueueStage (q : Nat) (x : QueueLive) (k : QueueItem) :
    (s.enqueueStage q x k).regs = s.regs := by
  simp [State.enqueueStage, apply_ite State.regs]

/-- An item offered to a queue reaches memory, the queue and the device's outputs alone. -/
theorem State.enqueue_eventOnly (q kind : Nat) (item : List (BitVec 8)) (ts : BitVec 64) :
    s.EventOnly (s.enqueue q kind item ts).1 := by
  unfold State.enqueue
  split
  · exact .refl s
  · rename_i x _
    rw [apply_ite Prod.fst, apply_ite Prod.fst]
    exact .ite (.refl s) (.ite (s.setQueue_eventOnly _ _) (s.enqueueStage_eventOnly _ _ _))

@[simp] theorem State.regs_enqueue (q kind : Nat) (item : List (BitVec 8)) (ts : BitVec 64) :
    (s.enqueue q kind item ts).1.regs = s.regs := by
  unfold State.enqueue
  split <;> simp [apply_ite Prod.fst, apply_ite State.regs]

@[simp] theorem State.rd_enqueue (q kind : Nat) (item : List (BitVec 8)) (ts : BitVec 64) (k : Nat) :
    (s.enqueue q kind item ts).1.rd k = s.rd k :=
  State.rd_congr (by simp) k

theorem State.sendMsix_eventOnly (p v : Nat) : s.EventOnly (s.sendMsix p v) :=
  .ite (s.send_eventOnly _) (s.setEp_eventOnly _ _)

@[simp] theorem State.rd_sendMsix (p v k : Nat) : (s.sendMsix p v).rd k = s.rd k := by
  unfold State.sendMsix
  rw [apply_ite (fun u : State => u.rd k)]
  simp

theorem State.raiseMsix_eventOnly (n : Nat) : s.EventOnly (s.raiseMsix n) :=
  .ite (s.wr_eventOnly _ _) ((s.wr_eventOnly _ _).trans (State.sendMsix_eventOnly _ _ _))

/-- MSI-X delivery writes only the pending words and the count of coalesced raises. -/
theorem State.rd_raiseMsix (n k : Nat) (hp : k ≠ Reg.MGT_EVT_PEND (n / 64)) (hc : k ≠ Reg.MGT_EVT_COALESCED) :
    (s.raiseMsix n).rd k = s.rd k := by
  unfold State.raiseMsix
  rw [apply_ite (fun u : State => u.rd k)]
  simp [State.rd_bump_ne _ _ _ hc, State.rd_putBit_ne _ _ _ hp]

/-- The delivery of an event reaches only what its routes name. -/
theorem State.deliver_eventOnly (e : EventRec) : s.EventOnly (s.deliver e) := by
  unfold State.deliver
  extract_lets n rt e' s1 msix viaEp s2 s3 m s4
  have h1 : s.EventOnly s1 := s.wr_eventOnly _ _
  have h2 : s1.EventOnly s2 := .ite (s1.raiseMsix_eventOnly n) (.refl s1)
  have h3 : s2.EventOnly s3 := .ite (s2.enqueue_eventOnly _ _ _ _) (.refl s2)
  have h4 : s3.EventOnly s4 := s3.mgt_eventOnly _
  have h := ((h1.trans h2).trans h3).trans h4
  exact .ite (h.trans (s4.wr_eventOnly _ _)) h

/-- The delivery of an event writes only the event counters and the pending words. -/
theorem State.rd_deliver (e : EventRec) (k : Nat) (hs : k ≠ Reg.MGT_EVT_SERIAL)
    (hp : k ≠ Reg.MGT_EVT_PEND (e.event / 64)) (hc : k ≠ Reg.MGT_EVT_COALESCED) (hu : k ≠ Reg.MGT_EVT_UNROUTED) :
    (s.deliver e).rd k = s.rd k := by
  unfold State.deliver
  extract_lets n rt e' s1 msix viaEp s2 s3 m s4
  have h1 : s1.rd k = s.rd k := s.rd_bump_ne _ _ hs
  have h2 : s2.rd k = s1.rd k := by
    show (if viaEp = true then s1.raiseMsix n else s1).rd k = s1.rd k
    split
    · exact s1.rd_raiseMsix _ _ hp hc
    · rfl
  have h3 : s3.rd k = s2.rd k := by
    simp only [s3, apply_ite (fun u : State => u.rd k), State.rd_enqueue, ite_self]
  have h4 : s4.rd k = s3.rd k := State.rd_congr (s := s3) (t := s4) rfl k
  rw [apply_ite (fun u : State => u.rd k)]
  simp only [s4.rd_bump_ne _ _ hu, ite_self, h4, h3, h2, h1]

/-- What the end of a SYS clock delivers reaches only what the routes name. -/
theorem State.deliverRaised_eventOnly : s.EventOnly s.deliverRaised := by
  have h : ∀ (l : List EventRec) (t : State), s.EventOnly t → s.EventOnly (l.foldl State.deliver t) := by
    intro l
    induction l with
    | nil => exact fun t ht => ht
    | cons e r ih => exact fun t ht => ih _ (ht.trans (t.deliver_eventOnly e))
  exact h _ _ (s.mgt_eventOnly _)

/-! A raise touches the management island alone, which keeps it to the end of the SYS clock. -/

@[simp] theorem State.raiseTs_regs (n : Nat) (ts : Stamp) (p : Nat) : (s.raiseTs n ts p).regs = s.regs := rfl
@[simp] theorem State.raiseTs_mem (n : Nat) (ts : Stamp) (p : Nat) : (s.raiseTs n ts p).mem = s.mem := rfl
@[simp] theorem State.raiseTs_misread (n : Nat) (ts : Stamp) (p : Nat) : (s.raiseTs n ts p).misread = s.misread := rfl
@[simp] theorem State.raiseTs_time (n : Nat) (ts : Stamp) (p : Nat) : (s.raiseTs n ts p).time = s.time := rfl
@[simp] theorem State.raiseTs_clk (n : Nat) (ts : Stamp) (p : Nat) : (s.raiseTs n ts p).clk = s.clk := rfl
@[simp] theorem State.raiseTs_ccs (n : Nat) (ts : Stamp) (p : Nat) : (s.raiseTs n ts p).ccs = s.ccs := rfl
@[simp] theorem State.raiseTs_lanes (n : Nat) (ts : Stamp) (p : Nat) : (s.raiseTs n ts p).lanes = s.lanes := rfl
@[simp] theorem State.raiseTs_eyes (n : Nat) (ts : Stamp) (p : Nat) : (s.raiseTs n ts p).eyes = s.eyes := rfl
@[simp] theorem State.raiseTs_cnd (n : Nat) (ts : Stamp) (p : Nat) : (s.raiseTs n ts p).cnd = s.cnd := rfl
@[simp] theorem State.raiseTs_spx (n : Nat) (ts : Stamp) (p : Nat) : (s.raiseTs n ts p).spx = s.spx := rfl
@[simp] theorem State.raiseTs_canopy (n : Nat) (ts : Stamp) (p : Nat) : (s.raiseTs n ts p).canopy = s.canopy := rfl
@[simp] theorem State.raiseTs_spg (n : Nat) (ts : Stamp) (p : Nat) : (s.raiseTs n ts p).spg = s.spg := rfl
@[simp] theorem State.raiseTs_scn (n : Nat) (ts : Stamp) (p : Nat) : (s.raiseTs n ts p).scn = s.scn := rfl
@[simp] theorem State.raiseTs_lnt (n : Nat) (ts : Stamp) (p : Nat) : (s.raiseTs n ts p).lnt = s.lnt := rfl
@[simp] theorem State.raiseTs_pools (n : Nat) (ts : Stamp) (p : Nat) : (s.raiseTs n ts p).pools = s.pools := rfl
@[simp] theorem State.raiseTs_tims (n : Nat) (ts : Stamp) (p : Nat) : (s.raiseTs n ts p).tims = s.tims := rfl
@[simp] theorem State.raiseTs_timServed (n : Nat) (ts : Stamp) (p : Nat) : (s.raiseTs n ts p).timServed = s.timServed := rfl
@[simp] theorem State.raiseTs_sups (n : Nat) (ts : Stamp) (p : Nat) : (s.raiseTs n ts p).sups = s.sups := rfl
@[simp] theorem State.raiseTs_mon (n : Nat) (ts : Stamp) (p : Nat) : (s.raiseTs n ts p).mon = s.mon := rfl
@[simp] theorem State.raiseTs_ddr (n : Nat) (ts : Stamp) (p : Nat) : (s.raiseTs n ts p).ddr = s.ddr := rfl
@[simp] theorem State.raiseTs_writers (n : Nat) (ts : Stamp) (p : Nat) : (s.raiseTs n ts p).writers = s.writers := rfl
@[simp] theorem State.raiseTs_trig (n : Nat) (ts : Stamp) (p : Nat) : (s.raiseTs n ts p).trig = s.trig := rfl
@[simp] theorem State.raiseTs_seqs (n : Nat) (ts : Stamp) (p : Nat) : (s.raiseTs n ts p).seqs = s.seqs := rfl
@[simp] theorem State.raiseTs_prov (n : Nat) (ts : Stamp) (p : Nat) : (s.raiseTs n ts p).prov = s.prov := rfl
@[simp] theorem State.raiseTs_pulses (n : Nat) (ts : Stamp) (p : Nat) : (s.raiseTs n ts p).pulses = s.pulses := rfl
@[simp] theorem State.raiseTs_queues (n : Nat) (ts : Stamp) (p : Nat) : (s.raiseTs n ts p).queues = s.queues := rfl
@[simp] theorem State.raiseTs_dma (n : Nat) (ts : Stamp) (p : Nat) : (s.raiseTs n ts p).dma = s.dma := rfl
@[simp] theorem State.raiseTs_feeds (n : Nat) (ts : Stamp) (p : Nat) : (s.raiseTs n ts p).feeds = s.feeds := rfl
@[simp] theorem State.raiseTs_pwr (n : Nat) (ts : Stamp) (p : Nat) : (s.raiseTs n ts p).pwr = s.pwr := rfl
@[simp] theorem State.raiseTs_boot (n : Nat) (ts : Stamp) (p : Nat) : (s.raiseTs n ts p).boot = s.boot := rfl
@[simp] theorem State.raiseTs_hlt (n : Nat) (ts : Stamp) (p : Nat) : (s.raiseTs n ts p).hlt = s.hlt := rfl
@[simp] theorem State.raiseTs_drv (n : Nat) (ts : Stamp) (p : Nat) : (s.raiseTs n ts p).drv = s.drv := rfl
@[simp] theorem State.raiseTs_ep (n : Nat) (ts : Stamp) (p : Nat) : (s.raiseTs n ts p).ep = s.ep := rfl
@[simp] theorem State.raiseTs_heldReqs (n : Nat) (ts : Stamp) (p : Nat) : (s.raiseTs n ts p).heldReqs = s.heldReqs := rfl
@[simp] theorem State.raiseTs_fab (n : Nat) (ts : Stamp) (p : Nat) : (s.raiseTs n ts p).fab = s.fab := rfl
@[simp] theorem State.raiseTs_jtag (n : Nat) (ts : Stamp) (p : Nat) : (s.raiseTs n ts p).jtag = s.jtag := rfl
@[simp] theorem State.raiseTs_out (n : Nat) (ts : Stamp) (p : Nat) : (s.raiseTs n ts p).out = s.out := rfl
@[simp] theorem State.raiseTs_fresh (n : Nat) (ts : Stamp) (p : Nat) : (s.raiseTs n ts p).fresh = s.fresh := rfl
@[simp] theorem State.raiseTs_pending (n : Nat) (ts : Stamp) (p : Nat) : (s.raiseTs n ts p).pending = s.pending := rfl
@[simp] theorem State.raise_regs (n p : Nat) : (s.raise n p).regs = s.regs := rfl
@[simp] theorem State.raise_mem (n p : Nat) : (s.raise n p).mem = s.mem := rfl
@[simp] theorem State.raise_misread (n p : Nat) : (s.raise n p).misread = s.misread := rfl
@[simp] theorem State.raise_time (n p : Nat) : (s.raise n p).time = s.time := rfl
@[simp] theorem State.raise_clk (n p : Nat) : (s.raise n p).clk = s.clk := rfl
@[simp] theorem State.raise_ccs (n p : Nat) : (s.raise n p).ccs = s.ccs := rfl
@[simp] theorem State.raise_lanes (n p : Nat) : (s.raise n p).lanes = s.lanes := rfl
@[simp] theorem State.raise_eyes (n p : Nat) : (s.raise n p).eyes = s.eyes := rfl
@[simp] theorem State.raise_cnd (n p : Nat) : (s.raise n p).cnd = s.cnd := rfl
@[simp] theorem State.raise_spx (n p : Nat) : (s.raise n p).spx = s.spx := rfl
@[simp] theorem State.raise_canopy (n p : Nat) : (s.raise n p).canopy = s.canopy := rfl
@[simp] theorem State.raise_spg (n p : Nat) : (s.raise n p).spg = s.spg := rfl
@[simp] theorem State.raise_scn (n p : Nat) : (s.raise n p).scn = s.scn := rfl
@[simp] theorem State.raise_lnt (n p : Nat) : (s.raise n p).lnt = s.lnt := rfl
@[simp] theorem State.raise_pools (n p : Nat) : (s.raise n p).pools = s.pools := rfl
@[simp] theorem State.raise_tims (n p : Nat) : (s.raise n p).tims = s.tims := rfl
@[simp] theorem State.raise_timServed (n p : Nat) : (s.raise n p).timServed = s.timServed := rfl
@[simp] theorem State.raise_sups (n p : Nat) : (s.raise n p).sups = s.sups := rfl
@[simp] theorem State.raise_mon (n p : Nat) : (s.raise n p).mon = s.mon := rfl
@[simp] theorem State.raise_ddr (n p : Nat) : (s.raise n p).ddr = s.ddr := rfl
@[simp] theorem State.raise_writers (n p : Nat) : (s.raise n p).writers = s.writers := rfl
@[simp] theorem State.raise_trig (n p : Nat) : (s.raise n p).trig = s.trig := rfl
@[simp] theorem State.raise_seqs (n p : Nat) : (s.raise n p).seqs = s.seqs := rfl
@[simp] theorem State.raise_prov (n p : Nat) : (s.raise n p).prov = s.prov := rfl
@[simp] theorem State.raise_pulses (n p : Nat) : (s.raise n p).pulses = s.pulses := rfl
@[simp] theorem State.raise_queues (n p : Nat) : (s.raise n p).queues = s.queues := rfl
@[simp] theorem State.raise_dma (n p : Nat) : (s.raise n p).dma = s.dma := rfl
@[simp] theorem State.raise_feeds (n p : Nat) : (s.raise n p).feeds = s.feeds := rfl
@[simp] theorem State.raise_pwr (n p : Nat) : (s.raise n p).pwr = s.pwr := rfl
@[simp] theorem State.raise_boot (n p : Nat) : (s.raise n p).boot = s.boot := rfl
@[simp] theorem State.raise_hlt (n p : Nat) : (s.raise n p).hlt = s.hlt := rfl
@[simp] theorem State.raise_drv (n p : Nat) : (s.raise n p).drv = s.drv := rfl
@[simp] theorem State.raise_ep (n p : Nat) : (s.raise n p).ep = s.ep := rfl
@[simp] theorem State.raise_heldReqs (n p : Nat) : (s.raise n p).heldReqs = s.heldReqs := rfl
@[simp] theorem State.raise_fab (n p : Nat) : (s.raise n p).fab = s.fab := rfl
@[simp] theorem State.raise_jtag (n p : Nat) : (s.raise n p).jtag = s.jtag := rfl
@[simp] theorem State.raise_out (n p : Nat) : (s.raise n p).out = s.out := rfl
@[simp] theorem State.raise_fresh (n p : Nat) : (s.raise n p).fresh = s.fresh := rfl
@[simp] theorem State.raise_pending (n p : Nat) : (s.raise n p).pending = s.pending := rfl

@[simp] theorem State.rd_raiseTs (n : Nat) (ts : Stamp) (p k : Nat) : (s.raiseTs n ts p).rd k = s.rd k := rfl
@[simp] theorem State.rd_raise (n p k : Nat) : (s.raise n p).rd k = s.rd k := rfl
@[simp] theorem State.rdByte_raiseTs (n : Nat) (ts : Stamp) (p a : Nat) :
    (s.raiseTs n ts p).rdByte a = s.rdByte a := rfl
@[simp] theorem State.rdByte_raise (n p a : Nat) : (s.raise n p).rdByte a = s.rdByte a := rfl

/-- A flag writes only its requester's flags, last access and time. -/
theorem State.rd_flag (r k : Nat) (x : AccFlag) (j : Nat) (h1 : j ≠ Reg.MGT_ACC_STS r)
    (h2 : j ≠ Reg.MGT_ACC_LAST r) (h3 : j ≠ Reg.MGT_ACC_LAST_TS r) : (s.flag r k x).rd j = s.rd j := by
  unfold State.flag
  extract_lets was t1 t2 t3 m t4
  have g1 : t1.rd j = s.rd j := s.rd_putBit_ne _ _ h1
  have g2 : t2.rd j = t1.rd j := t1.rd_wrN_ne _ h2
  have g3 : t3.rd j = t2.rd j := t2.rd_wr_ne _ h3
  have g4 : t4.rd j = t3.rd j := State.rd_congr (s := t3) (t := t4) rfl j
  have g : t4.rd j = s.rd j := g4.trans (g3.trans (g2.trans g1))
  split
  · exact g
  · exact g

/-! A flag touches the dictionary and the management island alone. -/

@[simp] theorem State.flag_mem (r k : Nat) (x : AccFlag) : (s.flag r k x).mem = s.mem := by
  unfold State.flag
  extract_lets was t1 t2 t3 m t4
  have h : t3.mem = s.mem := (t2.wr_mem _ _).trans ((t1.wrN_mem _ _).trans (s.putBit_mem _ _ _))
  split
  · exact h
  · exact (t4.raise_mem _ _).trans h
@[simp] theorem State.flag_misread (r k : Nat) (x : AccFlag) : (s.flag r k x).misread = s.misread := by
  unfold State.flag
  extract_lets was t1 t2 t3 m t4
  have h : t3.misread = s.misread := (t2.wr_misread _ _).trans ((t1.wrN_misread _ _).trans (s.putBit_misread _ _ _))
  split
  · exact h
  · exact (t4.raise_misread _ _).trans h
@[simp] theorem State.flag_time (r k : Nat) (x : AccFlag) : (s.flag r k x).time = s.time := by
  unfold State.flag
  extract_lets was t1 t2 t3 m t4
  have h : t3.time = s.time := (t2.wr_time _ _).trans ((t1.wrN_time _ _).trans (s.putBit_time _ _ _))
  split
  · exact h
  · exact (t4.raise_time _ _).trans h
@[simp] theorem State.flag_clk (r k : Nat) (x : AccFlag) : (s.flag r k x).clk = s.clk := by
  unfold State.flag
  extract_lets was t1 t2 t3 m t4
  have h : t3.clk = s.clk := (t2.wr_clk _ _).trans ((t1.wrN_clk _ _).trans (s.putBit_clk _ _ _))
  split
  · exact h
  · exact (t4.raise_clk _ _).trans h
@[simp] theorem State.flag_ccs (r k : Nat) (x : AccFlag) : (s.flag r k x).ccs = s.ccs := by
  unfold State.flag
  extract_lets was t1 t2 t3 m t4
  have h : t3.ccs = s.ccs := (t2.wr_ccs _ _).trans ((t1.wrN_ccs _ _).trans (s.putBit_ccs _ _ _))
  split
  · exact h
  · exact (t4.raise_ccs _ _).trans h
@[simp] theorem State.flag_lanes (r k : Nat) (x : AccFlag) : (s.flag r k x).lanes = s.lanes := by
  unfold State.flag
  extract_lets was t1 t2 t3 m t4
  have h : t3.lanes = s.lanes := (t2.wr_lanes _ _).trans ((t1.wrN_lanes _ _).trans (s.putBit_lanes _ _ _))
  split
  · exact h
  · exact (t4.raise_lanes _ _).trans h
@[simp] theorem State.flag_eyes (r k : Nat) (x : AccFlag) : (s.flag r k x).eyes = s.eyes := by
  unfold State.flag
  extract_lets was t1 t2 t3 m t4
  have h : t3.eyes = s.eyes := (t2.wr_eyes _ _).trans ((t1.wrN_eyes _ _).trans (s.putBit_eyes _ _ _))
  split
  · exact h
  · exact (t4.raise_eyes _ _).trans h
@[simp] theorem State.flag_cnd (r k : Nat) (x : AccFlag) : (s.flag r k x).cnd = s.cnd := by
  unfold State.flag
  extract_lets was t1 t2 t3 m t4
  have h : t3.cnd = s.cnd := (t2.wr_cnd _ _).trans ((t1.wrN_cnd _ _).trans (s.putBit_cnd _ _ _))
  split
  · exact h
  · exact (t4.raise_cnd _ _).trans h
@[simp] theorem State.flag_spx (r k : Nat) (x : AccFlag) : (s.flag r k x).spx = s.spx := by
  unfold State.flag
  extract_lets was t1 t2 t3 m t4
  have h : t3.spx = s.spx := (t2.wr_spx _ _).trans ((t1.wrN_spx _ _).trans (s.putBit_spx _ _ _))
  split
  · exact h
  · exact (t4.raise_spx _ _).trans h
@[simp] theorem State.flag_canopy (r k : Nat) (x : AccFlag) : (s.flag r k x).canopy = s.canopy := by
  unfold State.flag
  extract_lets was t1 t2 t3 m t4
  have h : t3.canopy = s.canopy := (t2.wr_canopy _ _).trans ((t1.wrN_canopy _ _).trans (s.putBit_canopy _ _ _))
  split
  · exact h
  · exact (t4.raise_canopy _ _).trans h
@[simp] theorem State.flag_spg (r k : Nat) (x : AccFlag) : (s.flag r k x).spg = s.spg := by
  unfold State.flag
  extract_lets was t1 t2 t3 m t4
  have h : t3.spg = s.spg := (t2.wr_spg _ _).trans ((t1.wrN_spg _ _).trans (s.putBit_spg _ _ _))
  split
  · exact h
  · exact (t4.raise_spg _ _).trans h
@[simp] theorem State.flag_scn (r k : Nat) (x : AccFlag) : (s.flag r k x).scn = s.scn := by
  unfold State.flag
  extract_lets was t1 t2 t3 m t4
  have h : t3.scn = s.scn := (t2.wr_scn _ _).trans ((t1.wrN_scn _ _).trans (s.putBit_scn _ _ _))
  split
  · exact h
  · exact (t4.raise_scn _ _).trans h
@[simp] theorem State.flag_lnt (r k : Nat) (x : AccFlag) : (s.flag r k x).lnt = s.lnt := by
  unfold State.flag
  extract_lets was t1 t2 t3 m t4
  have h : t3.lnt = s.lnt := (t2.wr_lnt _ _).trans ((t1.wrN_lnt _ _).trans (s.putBit_lnt _ _ _))
  split
  · exact h
  · exact (t4.raise_lnt _ _).trans h
@[simp] theorem State.flag_pools (r k : Nat) (x : AccFlag) : (s.flag r k x).pools = s.pools := by
  unfold State.flag
  extract_lets was t1 t2 t3 m t4
  have h : t3.pools = s.pools := (t2.wr_pools _ _).trans ((t1.wrN_pools _ _).trans (s.putBit_pools _ _ _))
  split
  · exact h
  · exact (t4.raise_pools _ _).trans h
@[simp] theorem State.flag_tims (r k : Nat) (x : AccFlag) : (s.flag r k x).tims = s.tims := by
  unfold State.flag
  extract_lets was t1 t2 t3 m t4
  have h : t3.tims = s.tims := (t2.wr_tims _ _).trans ((t1.wrN_tims _ _).trans (s.putBit_tims _ _ _))
  split
  · exact h
  · exact (t4.raise_tims _ _).trans h
@[simp] theorem State.flag_timServed (r k : Nat) (x : AccFlag) : (s.flag r k x).timServed = s.timServed := by
  unfold State.flag
  extract_lets was t1 t2 t3 m t4
  have h : t3.timServed = s.timServed := (t2.wr_timServed _ _).trans ((t1.wrN_timServed _ _).trans (s.putBit_timServed _ _ _))
  split
  · exact h
  · exact (t4.raise_timServed _ _).trans h
@[simp] theorem State.flag_sups (r k : Nat) (x : AccFlag) : (s.flag r k x).sups = s.sups := by
  unfold State.flag
  extract_lets was t1 t2 t3 m t4
  have h : t3.sups = s.sups := (t2.wr_sups _ _).trans ((t1.wrN_sups _ _).trans (s.putBit_sups _ _ _))
  split
  · exact h
  · exact (t4.raise_sups _ _).trans h
@[simp] theorem State.flag_mon (r k : Nat) (x : AccFlag) : (s.flag r k x).mon = s.mon := by
  unfold State.flag
  extract_lets was t1 t2 t3 m t4
  have h : t3.mon = s.mon := (t2.wr_mon _ _).trans ((t1.wrN_mon _ _).trans (s.putBit_mon _ _ _))
  split
  · exact h
  · exact (t4.raise_mon _ _).trans h
@[simp] theorem State.flag_ddr (r k : Nat) (x : AccFlag) : (s.flag r k x).ddr = s.ddr := by
  unfold State.flag
  extract_lets was t1 t2 t3 m t4
  have h : t3.ddr = s.ddr := (t2.wr_ddr _ _).trans ((t1.wrN_ddr _ _).trans (s.putBit_ddr _ _ _))
  split
  · exact h
  · exact (t4.raise_ddr _ _).trans h
@[simp] theorem State.flag_writers (r k : Nat) (x : AccFlag) : (s.flag r k x).writers = s.writers := by
  unfold State.flag
  extract_lets was t1 t2 t3 m t4
  have h : t3.writers = s.writers := (t2.wr_writers _ _).trans ((t1.wrN_writers _ _).trans (s.putBit_writers _ _ _))
  split
  · exact h
  · exact (t4.raise_writers _ _).trans h
@[simp] theorem State.flag_trig (r k : Nat) (x : AccFlag) : (s.flag r k x).trig = s.trig := by
  unfold State.flag
  extract_lets was t1 t2 t3 m t4
  have h : t3.trig = s.trig := (t2.wr_trig _ _).trans ((t1.wrN_trig _ _).trans (s.putBit_trig _ _ _))
  split
  · exact h
  · exact (t4.raise_trig _ _).trans h
@[simp] theorem State.flag_seqs (r k : Nat) (x : AccFlag) : (s.flag r k x).seqs = s.seqs := by
  unfold State.flag
  extract_lets was t1 t2 t3 m t4
  have h : t3.seqs = s.seqs := (t2.wr_seqs _ _).trans ((t1.wrN_seqs _ _).trans (s.putBit_seqs _ _ _))
  split
  · exact h
  · exact (t4.raise_seqs _ _).trans h
@[simp] theorem State.flag_prov (r k : Nat) (x : AccFlag) : (s.flag r k x).prov = s.prov := by
  unfold State.flag
  extract_lets was t1 t2 t3 m t4
  have h : t3.prov = s.prov := (t2.wr_prov _ _).trans ((t1.wrN_prov _ _).trans (s.putBit_prov _ _ _))
  split
  · exact h
  · exact (t4.raise_prov _ _).trans h
@[simp] theorem State.flag_pulses (r k : Nat) (x : AccFlag) : (s.flag r k x).pulses = s.pulses := by
  unfold State.flag
  extract_lets was t1 t2 t3 m t4
  have h : t3.pulses = s.pulses := (t2.wr_pulses _ _).trans ((t1.wrN_pulses _ _).trans (s.putBit_pulses _ _ _))
  split
  · exact h
  · exact (t4.raise_pulses _ _).trans h
@[simp] theorem State.flag_queues (r k : Nat) (x : AccFlag) : (s.flag r k x).queues = s.queues := by
  unfold State.flag
  extract_lets was t1 t2 t3 m t4
  have h : t3.queues = s.queues := (t2.wr_queues _ _).trans ((t1.wrN_queues _ _).trans (s.putBit_queues _ _ _))
  split
  · exact h
  · exact (t4.raise_queues _ _).trans h
@[simp] theorem State.flag_dma (r k : Nat) (x : AccFlag) : (s.flag r k x).dma = s.dma := by
  unfold State.flag
  extract_lets was t1 t2 t3 m t4
  have h : t3.dma = s.dma := (t2.wr_dma _ _).trans ((t1.wrN_dma _ _).trans (s.putBit_dma _ _ _))
  split
  · exact h
  · exact (t4.raise_dma _ _).trans h
@[simp] theorem State.flag_feeds (r k : Nat) (x : AccFlag) : (s.flag r k x).feeds = s.feeds := by
  unfold State.flag
  extract_lets was t1 t2 t3 m t4
  have h : t3.feeds = s.feeds := (t2.wr_feeds _ _).trans ((t1.wrN_feeds _ _).trans (s.putBit_feeds _ _ _))
  split
  · exact h
  · exact (t4.raise_feeds _ _).trans h
@[simp] theorem State.flag_pwr (r k : Nat) (x : AccFlag) : (s.flag r k x).pwr = s.pwr := by
  unfold State.flag
  extract_lets was t1 t2 t3 m t4
  have h : t3.pwr = s.pwr := (t2.wr_pwr _ _).trans ((t1.wrN_pwr _ _).trans (s.putBit_pwr _ _ _))
  split
  · exact h
  · exact (t4.raise_pwr _ _).trans h
@[simp] theorem State.flag_boot (r k : Nat) (x : AccFlag) : (s.flag r k x).boot = s.boot := by
  unfold State.flag
  extract_lets was t1 t2 t3 m t4
  have h : t3.boot = s.boot := (t2.wr_boot _ _).trans ((t1.wrN_boot _ _).trans (s.putBit_boot _ _ _))
  split
  · exact h
  · exact (t4.raise_boot _ _).trans h
@[simp] theorem State.flag_hlt (r k : Nat) (x : AccFlag) : (s.flag r k x).hlt = s.hlt := by
  unfold State.flag
  extract_lets was t1 t2 t3 m t4
  have h : t3.hlt = s.hlt := (t2.wr_hlt _ _).trans ((t1.wrN_hlt _ _).trans (s.putBit_hlt _ _ _))
  split
  · exact h
  · exact (t4.raise_hlt _ _).trans h
@[simp] theorem State.flag_drv (r k : Nat) (x : AccFlag) : (s.flag r k x).drv = s.drv := by
  unfold State.flag
  extract_lets was t1 t2 t3 m t4
  have h : t3.drv = s.drv := (t2.wr_drv _ _).trans ((t1.wrN_drv _ _).trans (s.putBit_drv _ _ _))
  split
  · exact h
  · exact (t4.raise_drv _ _).trans h
@[simp] theorem State.flag_ep (r k : Nat) (x : AccFlag) : (s.flag r k x).ep = s.ep := by
  unfold State.flag
  extract_lets was t1 t2 t3 m t4
  have h : t3.ep = s.ep := (t2.wr_ep _ _).trans ((t1.wrN_ep _ _).trans (s.putBit_ep _ _ _))
  split
  · exact h
  · exact (t4.raise_ep _ _).trans h
@[simp] theorem State.flag_heldReqs (r k : Nat) (x : AccFlag) : (s.flag r k x).heldReqs = s.heldReqs := by
  unfold State.flag
  extract_lets was t1 t2 t3 m t4
  have h : t3.heldReqs = s.heldReqs := (t2.wr_heldReqs _ _).trans ((t1.wrN_heldReqs _ _).trans (s.putBit_heldReqs _ _ _))
  split
  · exact h
  · exact (t4.raise_heldReqs _ _).trans h
@[simp] theorem State.flag_fab (r k : Nat) (x : AccFlag) : (s.flag r k x).fab = s.fab := by
  unfold State.flag
  extract_lets was t1 t2 t3 m t4
  have h : t3.fab = s.fab := (t2.wr_fab _ _).trans ((t1.wrN_fab _ _).trans (s.putBit_fab _ _ _))
  split
  · exact h
  · exact (t4.raise_fab _ _).trans h
@[simp] theorem State.flag_jtag (r k : Nat) (x : AccFlag) : (s.flag r k x).jtag = s.jtag := by
  unfold State.flag
  extract_lets was t1 t2 t3 m t4
  have h : t3.jtag = s.jtag := (t2.wr_jtag _ _).trans ((t1.wrN_jtag _ _).trans (s.putBit_jtag _ _ _))
  split
  · exact h
  · exact (t4.raise_jtag _ _).trans h
@[simp] theorem State.flag_out (r k : Nat) (x : AccFlag) : (s.flag r k x).out = s.out := by
  unfold State.flag
  extract_lets was t1 t2 t3 m t4
  have h : t3.out = s.out := (t2.wr_out _ _).trans ((t1.wrN_out _ _).trans (s.putBit_out _ _ _))
  split
  · exact h
  · exact (t4.raise_out _ _).trans h
@[simp] theorem State.flag_fresh (r k : Nat) (x : AccFlag) : (s.flag r k x).fresh = s.fresh := by
  unfold State.flag
  extract_lets was t1 t2 t3 m t4
  have h : t3.fresh = s.fresh := (t2.wr_fresh _ _).trans ((t1.wrN_fresh _ _).trans (s.putBit_fresh _ _ _))
  split
  · exact h
  · exact (t4.raise_fresh _ _).trans h
@[simp] theorem State.flag_pending (r k : Nat) (x : AccFlag) : (s.flag r k x).pending = s.pending := by
  unfold State.flag
  extract_lets was t1 t2 t3 m t4
  have h : t3.pending = s.pending := (t2.wr_pending _ _).trans ((t1.wrN_pending _ _).trans (s.putBit_pending _ _ _))
  split
  · exact h
  · exact (t4.raise_pending _ _).trans h

end Sys2Proof.Machine
end

