-- ==== Sys2Proof/Tests/Slice0.lean ====
section
/-! SUPPORT. The author's own tests: for every statement with hypotheses a state and operands that meet
them, clause by clause; an ill-formed term for every check of WellFormed; and a few single steps. -/

namespace Sys2Proof.Machine

open Sys2Proof

set_option Elab.async false

/-- A state after reset with entries written. -/
def wAt (ws : List (Nat × Nat)) : State := ws.foldl (fun s e => s.wrN e.1 e.2) State.reset

/-- A Lantern core in RUN whose next word is `w`. -/
def lntAt (k w : Nat) : State := (wAt [(Reg.LNT_STS k, 3)]).wrBytes (lntBase k) (leBytes 6 w)

/-- A running sequencer whose store holds some microwords. -/
def seqAt (q : Nat) (ws : List (Nat × Nat)) : State :=
  let s := wAt [(Reg.SEQ_STS q, 1)]
  s.setSeq q { s.seq q with micro := ws }

/-- The same, with a part of the core's own state set. -/
def lntWith (k w : Nat) (c : LntCore) : State := (lntAt k w).setCore k c


theorem answers {o : Host.Outcome State Fault Refusal}
    (h : (match o with
      | .next _ => true
      | _ => false) = true) : ∃ t, o = .next t := by
  cases o with
  | next t => exact ⟨t, rfl⟩
  | fault f => cases h
  | refused r => cases h

/-- Nothing meets a write. -/
def noEnv : WriteEnv := { hw := 0, stands := none, parity := false }

/-- A boot script of one WRITE record: CAL_RETRY := 1001. -/
def scriptWrites : State :=
  { wAt [(Reg.MGT_BOOT_STS, 3)] with
    boot.script := leBytes 8 (0x1600 + 5 * 2 ^ 16 + 4 * 2 ^ 24) ++ leBytes 8 1001 }

theorem script_slot : scriptWrites.script.slot = Reg.CAL_RETRY := by decide +kernel

/-- A boot script of one SAVESET record, and a save set of CAL_RETRY = 1001. -/
def scriptSaves : State :=
  { wAt [(Reg.MGT_BOOT_STS, 3)] with
    boot.script := leBytes 8 (3 * 2 ^ 32) ++ leBytes 8 0,
    mgt.sets := #v[{ valid := true, recs := [(Reg.CAL_RETRY, 1001)] }, default] }

/-- The state in which that record acts. -/
def scriptSaved : State := (scriptSaves.wrN Reg.MGT_BOOT_REC scriptSaves.boot.recNo).sysStart

theorem script_saved : scriptSaved.savedRecs = [(Reg.CAL_RETRY, 1001)] := by decide +kernel

/-- An open session of a fabric client, and the device in RUN with RAP on the fabric. -/
def rapSession : Session := { (default : Session) with peer := .fabric 1, id := 1 }
def rapState : State :=
  { wAt [(Reg.MGT_RAP_CFG, 2), (Reg.PROT_LOCK, 1), (Reg.PROT_PEER_DEF, 0),
      (Reg.PROT_PEER_WIN 0 0, 2 ^ 63 + 3 * 2 ^ 32 + 0xFFFF0000)] with mgt.sessions := [rapSession] }

/-- A request of an operation on CAL_RETRY, with data of the length it takes. -/
def rapMsg (op : Nat) : RapMsg :=
  let data := if op = 2 ∨ op = 4 then List.replicate 8 0 else if op = 5 then [255, 7, 0, 0] else []
  { magic := rapMagic, version := 1, len := data.length, session := 1, seq := 0, status := 0, count := 1,
    addr := Reg.CAL_RETRY, data := data }

theorem rule_apart (b s c x y z : Nat) (f : Nat → Nat → List Act) (k : Nat)
    (h : decide (b ≤ slotIndex k ∧ (slotIndex k - b) % s = 0 ∧ (slotIndex k - b) / s < c ∧ x ≤ slotSub k ∧
      slotSub k - x < y) = false) : (⟨b, s, c, x, y, z, f⟩ : WriteRule).covers k = false := h

/-- CAL_RETRY is an entry whose write only stores fields. -/
theorem plain_rule (u : State) (who : Fin 8) (env : WriteEnv) (v : BitVec 64) :
    u.writeRule who env Reg.CAL_RETRY v = none := by
  have h : ∀ r ∈ u.mgmtRules who v, r.covers Reg.CAL_RETRY = false := by
    simp only [State.mgmtRules, List.forall_mem_cons]
    refine ⟨?_, ?_, ?_, ?_, ?_, ?_, ?_, ?_, ?_, ?_, ?_, ?_, ?_⟩ <;>
      first | exact rule_apart _ _ _ _ _ _ _ _ (by decide +kernel) | simp
  have e : u.writeRule who env Reg.CAL_RETRY v =
      (u.mgmtRules who v).find? fun r => r.covers Reg.CAL_RETRY := rfl
  rw [e, List.find?_eq_none]
  intro r hr
  simp [h r hr]

theorem plain_ignored (u : State) (v : BitVec 64) : u.writeIgnored Reg.CAL_RETRY v = false := by
  simp [State.writeIgnored, Reg.CAL_RETRY, slot, slotIndex, Reg.MGT_BLK_RST]

theorem plain_undefined (u : State) (v : BitVec 64) : u.writeUndefined Reg.CAL_RETRY v = none := by
  simp [State.writeUndefined, Reg.CAL_RETRY, slot, slotIndex, slotSub, Reg.SRM_PART]


/-- What a decision over a state and a value leaves for a write of CAL_RETRY to be plain. -/
theorem plain_cal_retry {s : State} {who : Fin 8} {uid : Nat} {v : BitVec 64} {env : WriteEnv} {r : EntryRow}
    (h : findRow Reg.CAL_RETRY = some r ∧ (r.acc = .rw ∨ r.acc = .wo) ∧ inProtection Reg.CAL_RETRY = false ∧
      0 < r.ty.width ∧ s.servedNow Reg.CAL_RETRY = true ∧ s.mayReach who uid (slotIndex Reg.CAL_RETRY) true = true ∧
      strayPaired Reg.CAL_RETRY v = false ∧ env.hw = 0 ∧
      (s.written Reg.CAL_RETRY v ^^^ s.rd Reg.CAL_RETRY) &&& BitVec.ofNat 64 r.cfg = 0) :
    s.plainWrite who uid Reg.CAL_RETRY v env r :=
  ⟨h.1, h.2.1, h.2.2.1, h.2.2.2.1, h.2.2.2.2.1, h.2.2.2.2.2.1, plain_rule s who env _, plain_ignored s v,
    plain_undefined s v, h.2.2.2.2.2.2⟩

/-- The hypotheses of StepRunsFront can be met, clause by clause. -/
theorem test_stepRunsFront_met :
    ∃ (s : State) (c : Instr) (r : List Instr), s.pending = c :: r :=
  ⟨{ State.reset with pending := [.wdogKick, .wpCancel] }, .wdogKick, [.wpCancel], by decide +kernel⟩

/-- The hypotheses of IdleStepTicks can be met, clause by clause. -/
theorem test_idleStepTicks_met :
    ∃ (s : State), s.pending = [] ∧ s.pllLocked 0 = true ∧ s.clk.everLocked = true :=
  ⟨{ wAt [(Reg.CLK_PLL_STS 0, 2)] with clk.everLocked := true }, by decide +kernel⟩

/-- The hypotheses of EveryStepGrows can be met, clause by clause. -/
theorem test_everyStepGrows_met :
    ∃ s t : State, step s = .next t :=
  ⟨{ State.reset with pending := [.wdogKick] }, answers (by decide +kernel)⟩

/-- The hypotheses of RaiseReachesRoutesOnly can be met, clause by clause. -/
theorem test_raiseReachesRoutesOnly_met :
    (∃ (e : EventRec) (k : Nat), e.event < 1024 ∧ (∀ w, k ≠ Reg.MGT_EVT_PEND w) ∧ k ≠ Reg.MGT_EVT_SERIAL ∧
    k ≠ Reg.MGT_EVT_COALESCED ∧ k ≠ Reg.MGT_EVT_UNROUTED) ∧
    (∃ (e : EventRec), e.event < 1024) ∧
    (∃ (s : State) (e : EventRec), e.event < 1024 ∧
    (let rt := s.rd (Reg.MGT_EVT_ROUTE (e.event / 256) (e.event % 256)); bitAt rt 0 = false ∧
    bitAt rt 13 = false ∧ s.subscribed e.event = false)) ∧
    (∃ (s : State) (e : EventRec), e.event < 1024 ∧ s.mgt.raised.Pairwise (fun a b => a.event ≤ b.event)) :=
  ⟨⟨(default : EventRec), 0,
    ⟨by decide, fun w e => by simp only [Reg.MGT_EVT_PEND, slot] at e; omega, by decide +kernel⟩⟩,
    ⟨(default : EventRec), by decide +kernel⟩,
    ⟨State.reset, (default : EventRec), by decide +kernel⟩,
    ⟨State.reset, (default : EventRec), by decide +kernel⟩⟩

/-- The hypotheses of DictionaryWindowsGovern can be met, clause by clause. -/
theorem test_dictionaryWindowsGovern_met :
    (∃ (r : Fin 8), r.val ≤ 6) ∧
    (∃ (r : Fin 8), r.val ≤ 6 ∧ r.val = 5) ∧
    (∃ (s : State) (r : Fin 8) (uid : Nat) (i : Nat) (write : Bool) (k : Nat), r.val ≤ 6 ∧ slotIndex k = i ∧
    s.servedNow k = true ∧ s.mayReach r.val uid i write = false) :=
  ⟨⟨6, by decide +kernel⟩,
    ⟨5, by decide +kernel⟩,
    ⟨(wAt [(Reg.PROT_DICT 31, 9223372041149677568)]), 0, 0, 0x2000, true, 0x200000, by decide +kernel⟩⟩

/-- The hypotheses of PeerWindowsGovern can be met, clause by clause. -/
theorem test_peerWindowsGovern_met :
    ∃ (s : State) (uid : Nat) (c : Nat), ((∃ w : Fin 32, s.bit (Reg.PROT_PEER_ID w) 63 = true ∧
    s.fld (Reg.PROT_PEER_ID w) 55 0 = uid ∧ s.fld (Reg.PROT_PEER_ID w) 58 56 = c ∧
    ∀ v < w, ¬ (s.bit (Reg.PROT_PEER_ID v) 63 = true ∧ s.fld (Reg.PROT_PEER_ID v) 55 0 = uid)) ∨ ((∀ w : Fin 32, ¬ (s.bit (Reg.PROT_PEER_ID w) 63 = true ∧ s.fld (Reg.PROT_PEER_ID w) 55 0 = uid)) ∧
    s.fld Reg.PROT_PEER_DEF 2 0 = c)) :=
  ⟨(wAt [(Reg.PROT_PEER_ID 31, 9583660007044415495)]), 7, 5, by decide +kernel⟩

/-- The hypotheses of EmptySlotsAnswerZero can be met, clause by clause. -/
theorem test_emptySlotsAnswerZero_met :
    (∃ (s : State) (who : Fin 8) (uid : Nat) (k : Nat), who.val ≤ 6 ∧ findRow k = none ∧ s.servedNow k = true ∧
    s.mayReach who.val uid (slotIndex k) false = true) ∧
    (∃ (s : State) (who : Fin 8) (uid : Nat) (k : Nat), who.val ≤ 6 ∧ findRow k = none ∧ s.servedNow k = true ∧
    s.mayReach who.val uid (slotIndex k) true = true) :=
  ⟨⟨State.reset, 0, 0, 0xFFFFFF, by decide +kernel⟩,
    ⟨State.reset, 0, 0, 0xFFFFFF, by decide +kernel⟩⟩

/-- The hypotheses of LockedProtectionStands can be met, clause by clause. -/
theorem test_lockedProtectionStands_met :
    ∃ (s : State) (who : Fin 8) (uid : Nat) (k : Nat) (r : EntryRow), who.val ≤ 6 ∧ s.locked = true ∧
    inProtection k = true ∧ findRow k = some r ∧ s.servedNow k = true ∧
    s.mayReach who.val uid (slotIndex k) true = true ∧ 0 < r.ty.width :=
  ⟨(State.reset.wrN Reg.PROT_LOCK 1), 0, 0, Reg.PROT_LOCK, ((findRow Reg.PROT_LOCK).get (by decide +kernel)),
    by decide +kernel⟩

/-- The hypotheses of BranchConditions can be met, clause by clause. -/
theorem test_branchConditions_met :
    ∃ (w : Nat), isBranch 0 w = true ∧ ctlUnused w = 0 ∧ natBits w 43 40 = 15 :=
  ⟨157230162771968, by decide +kernel⟩

/-- The hypotheses of LanternMemoryErrors can be met, clause by clause. -/
theorem test_lanternMemoryErrors_met :
    (∃ (s : State) (k : Fin 32), s.lntState k.val = 3 ∧ s.idleOrLower = false ∧ s.lntAccepts k.val = false) ∧
    (∃ (s : State) (k : Fin 32), s.lntState k.val = 3 ∧ s.idleOrLower = false ∧ s.lntAccepts k.val = false ∧
    (let w := s.lntP k.val (s.lntPc k.val); s.lntIssue k.val w = none ∧ w < 2 ^ 47 ∧ natBits w 46 40 = 4)) :=
  ⟨⟨(lntAt 31 0), 31, by decide +kernel⟩,
    ⟨(lntAt 31 4398046511104), 31, by decide +kernel⟩⟩

/-- The hypotheses of UndefinedMicrowordsStop can be met, clause by clause. -/
theorem test_undefinedMicrowordsStop_met :
    (∃ (s : State) (q : Fin 5) (p : Nat × Instr), let words := [(0, Instr.seqCont q false), (1, .seqJump q false), (2, .seqMap q false), (3, .seqJnz q false), (4, .seqJz q false), (5, .seqWait q false), (6, .seqWaitmap q false), (7, .seqCall q false), (8, .seqCallmap q false), (9, .seqRet q false), (10, .seqReti q false), (11, .seqRestart q false), (12, .seqHalt q false)]; s.seqRunning q.val = true ∧
    s.seqClocked = true ∧ p ∈ words ∧ (s.seq q.val).begun = none ∧
    storeWord (s.seq q.val).micro (s.rdN (Reg.SEQ_PC q)) = none) ∧
    (∃ (s : State) (q : Fin 5) (p : Nat × Instr) (w : Nat), let words := [(0, Instr.seqCont q false), (1, .seqJump q false), (2, .seqMap q false), (3, .seqJnz q false), (4, .seqJz q false), (5, .seqWait q false), (6, .seqWaitmap q false), (7, .seqCall q false), (8, .seqCallmap q false), (9, .seqRet q false), (10, .seqReti q false), (11, .seqRestart q false), (12, .seqHalt q false)]; s.seqRunning q.val = true ∧
    s.seqClocked = true ∧ p ∈ words ∧ (s.seq q.val).begun = none ∧
    storeWord (s.seq q.val).micro (s.rdN (Reg.SEQ_PC q)) = some w ∧
    (13 ≤ uNac w ∨ 13 ≤ uCsel w ∨ reservedWord w ((s.seq q.val).nanoOf w) = true)) ∧
    (∃ (s : State) (q : Fin 5) (p : Nat × Instr) (b : SeqBegun), let words := [(0, Instr.seqCont q false), (1, .seqJump q false), (2, .seqMap q false), (3, .seqJnz q false), (4, .seqJz q false), (5, .seqWait q false), (6, .seqWaitmap q false), (7, .seqCall q false), (8, .seqCallmap q false), (9, .seqRet q false), (10, .seqReti q false), (11, .seqRestart q false), (12, .seqHalt q false)]; s.seqRunning q.val = true ∧
    s.seqClocked = true ∧ p ∈ words ∧ (s.seq q.val).begun = some b ∧ uNac b.w = p.1 ∧
    stackBad p.1 (s.seq q.val).stack = true) :=
  ⟨⟨(seqAt 4 []), 4, (12, .seqHalt 4 false), by decide +kernel⟩,
    ⟨(seqAt 4 [(0, 13312)]), 4, (0, .seqCont 4 false), 13312, by decide +kernel⟩,
    ⟨((seqAt 4 []).setSeq 4 { (seqAt 4 []).seq 4 with begun := some { (default : SeqBegun) with w := 9 * 1024 } }),
    4, (9, .seqRet 4 false), { (default : SeqBegun) with w := 9 * 1024 }, by decide +kernel⟩⟩

/-- The hypotheses of TailDoorbellFills can be met, clause by clause. -/
theorem test_tailDoorbellFills_met :
    (∃ (s : State) (q : Fin 65536) (v : BitVec 32) (x : QueueLive), s.queue q.val = some x ∧ x.prodSw = true ∧
    x.head < 2 ^ 32 ∧ x.tail < 2 ^ 32 ∧ x.depth < 2 ^ 31 ∧ x.occupancy ≤ x.depth ∧
    (let moved := (v.toNat + 2 ^ 32 - x.head) % 2 ^ 32; x.occupancy ≤ moved ∧ moved ≤ x.depth)) ∧
    (∃ (s : State) (q : Fin 65536) (v : BitVec 32) (x : QueueLive), s.queue q.val = some x ∧ x.prodSw = true ∧
    x.head < 2 ^ 32 ∧ x.tail < 2 ^ 32 ∧ x.depth < 2 ^ 31 ∧ x.occupancy ≤ x.depth ∧
    (let moved := (v.toNat + 2 ^ 32 - x.head) % 2 ^ 32; (moved < x.occupancy ∨ x.depth < moved))) :=
  ⟨⟨{ State.reset with queues := [(65535, { (default : QueueLive) with depth := 4, prodSw := true, head := 0xFFFFFFFF, tail := 1 })] },
    65535, 3, { (default : QueueLive) with depth := 4, prodSw := true, head := 0xFFFFFFFF, tail := 1 },
    by decide +kernel⟩,
    ⟨{ State.reset with queues := [(65535, { (default : QueueLive) with depth := 4, prodSw := true, head := 0xFFFFFFFF, tail := 1 })] },
    65535, 4, { (default : QueueLive) with depth := 4, prodSw := true, head := 0xFFFFFFFF, tail := 1 },
    by decide +kernel⟩⟩

/-- The hypotheses of LateWaypoints can be met, clause by clause. -/
theorem test_lateWaypoints_met :
    (∃ (s : State) (t : Nat) (p : Nat × Instr), let n := s.wpHead; let w := s.wpWord n 1; let edge := s.sysNow; s.wpRuns = true ∧
    s.wpPending ≠ 0 ∧ s.wpTarget n = some t ∧ s.wpReached n t 0 = true ∧ s.wpFull = false ∧ wpReserved w = false ∧
    (s.lastTick : Int) ≤ timeDiff edge t ∧
    p ∈ [(0, Instr.wpNone), (1, .wpArm), (2, .wpTrigger), (3, .wpSignal), (4, .wpTag), (5, .wpConvert), (6, .wpTask), (7, .wpFabric)] ∧
    getF w 3 0 = p.1 ∧ bitAt w 4 = true) ∧
    (∃ (s : State) (t : Nat), let n := s.wpHead; let w := s.wpWord n 1; let edge := s.sysNow; s.wpRuns = true ∧
    s.wpPending ≠ 0 ∧ s.wpTarget n = some t ∧ s.wpReached n t 0 = true ∧ s.wpFull = false ∧ wpReserved w = false ∧
    (s.lastTick : Int) ≤ timeDiff edge t ∧ bitAt w 4 = false) ∧
    (∃ (s : State) (t : Nat), let n := s.wpHead; let w := s.wpWord n 1; let edge := s.sysNow; s.wpRuns = true ∧
    s.wpPending ≠ 0 ∧ s.wpTarget n = some t ∧ s.wpReached n t 0 = true ∧ s.wpFull = false ∧ wpReserved w = false ∧
    (s.lastTick : Int) ≤ timeDiff edge t ∧ bitAt w 4 = false ∧ getF w 3 0 = 0) ∧
    (∃ (s : State) (t : Nat), let n := s.wpHead; let w := s.wpWord n 1; let edge := s.sysNow; s.wpRuns = true ∧
    s.wpPending ≠ 0 ∧ s.wpTarget n = some t ∧ s.wpReached n t 0 = true ∧ s.wpFull = false ∧ wpReserved w = false ∧
    (s.lastTick : Int) ≤ timeDiff edge t ∧ bitAt w 4 = false ∧ getF w 3 0 = 1) ∧
    (∃ (s : State) (t : Nat), let n := s.wpHead; let w := s.wpWord n 1; let edge := s.sysNow; s.wpRuns = true ∧
    s.wpPending ≠ 0 ∧ s.wpTarget n = some t ∧ s.wpReached n t 0 = true ∧ s.wpFull = false ∧ wpReserved w = false ∧
    (s.lastTick : Int) ≤ timeDiff edge t ∧ bitAt w 4 = false ∧ getF w 3 0 = 2) ∧
    (∃ (s : State) (t : Nat), let n := s.wpHead; let w := s.wpWord n 1; let edge := s.sysNow; s.wpRuns = true ∧
    s.wpPending ≠ 0 ∧ s.wpTarget n = some t ∧ s.wpReached n t 0 = true ∧ s.wpFull = false ∧ wpReserved w = false ∧
    (s.lastTick : Int) ≤ timeDiff edge t ∧ bitAt w 4 = false ∧ getF w 3 0 = 3) ∧
    (∃ (s : State) (t : Nat), let n := s.wpHead; let w := s.wpWord n 1; let edge := s.sysNow; s.wpRuns = true ∧
    s.wpPending ≠ 0 ∧ s.wpTarget n = some t ∧ s.wpReached n t 0 = true ∧ s.wpFull = false ∧ wpReserved w = false ∧
    (s.lastTick : Int) ≤ timeDiff edge t ∧ bitAt w 4 = false ∧ getF w 3 0 = 4) ∧
    (∃ (s : State) (t : Nat), let n := s.wpHead; let w := s.wpWord n 1; let edge := s.sysNow; s.wpRuns = true ∧
    s.wpPending ≠ 0 ∧ s.wpTarget n = some t ∧ s.wpReached n t 0 = true ∧ s.wpFull = false ∧ wpReserved w = false ∧
    (s.lastTick : Int) ≤ timeDiff edge t ∧ bitAt w 4 = false ∧ getF w 3 0 = 5) ∧
    (∃ (s : State) (t : Nat), let n := s.wpHead; let w := s.wpWord n 1; let edge := s.sysNow; s.wpRuns = true ∧
    s.wpPending ≠ 0 ∧ s.wpTarget n = some t ∧ s.wpReached n t 0 = true ∧ s.wpFull = false ∧ wpReserved w = false ∧
    (s.lastTick : Int) ≤ timeDiff edge t ∧ bitAt w 4 = false ∧ getF w 3 0 = 6) ∧
    (∃ (s : State) (t : Nat), let n := s.wpHead; let w := s.wpWord n 1; let edge := s.sysNow; s.wpRuns = true ∧
    s.wpPending ≠ 0 ∧ s.wpTarget n = some t ∧ s.wpReached n t 0 = true ∧ s.wpFull = false ∧ wpReserved w = false ∧
    (s.lastTick : Int) ≤ timeDiff edge t ∧ bitAt w 4 = false ∧ getF w 3 0 = 7) :=
  ⟨⟨{ wAt [(Reg.CLK_PLL_STS 0, 2), (Reg.CCS_WP_STS, 1), (Reg.CCS_WP_CFG, 1), (Reg.CCS_WP_TAIL, 1), (Reg.CCS_WP_TABLE 0 0, 5), (Reg.CCS_WP_TABLE 0 1, 23)] with time := 8192 },
    5, (7, .wpFabric), by decide +kernel⟩,
    ⟨{ wAt [(Reg.CLK_PLL_STS 0, 2), (Reg.CCS_WP_STS, 1), (Reg.CCS_WP_CFG, 1), (Reg.CCS_WP_TAIL, 1), (Reg.CCS_WP_TABLE 0 0, 5), (Reg.CCS_WP_TABLE 0 1, 0)] with time := 8192 },
    5, by decide +kernel⟩,
    ⟨{ wAt [(Reg.CLK_PLL_STS 0, 2), (Reg.CCS_WP_STS, 1), (Reg.CCS_WP_CFG, 1), (Reg.CCS_WP_TAIL, 1), (Reg.CCS_WP_TABLE 0 0, 5), (Reg.CCS_WP_TABLE 0 1, 0)] with time := 8192 },
    5, by decide +kernel⟩,
    ⟨{ wAt [(Reg.CLK_PLL_STS 0, 2), (Reg.CCS_WP_STS, 1), (Reg.CCS_WP_CFG, 1), (Reg.CCS_WP_TAIL, 1), (Reg.CCS_WP_TABLE 0 0, 5), (Reg.CCS_WP_TABLE 0 1, 1)] with time := 8192 },
    5, by decide +kernel⟩,
    ⟨{ wAt [(Reg.CLK_PLL_STS 0, 2), (Reg.CCS_WP_STS, 1), (Reg.CCS_WP_CFG, 1), (Reg.CCS_WP_TAIL, 1), (Reg.CCS_WP_TABLE 0 0, 5), (Reg.CCS_WP_TABLE 0 1, 2)] with time := 8192 },
    5, by decide +kernel⟩,
    ⟨{ wAt [(Reg.CLK_PLL_STS 0, 2), (Reg.CCS_WP_STS, 1), (Reg.CCS_WP_CFG, 1), (Reg.CCS_WP_TAIL, 1), (Reg.CCS_WP_TABLE 0 0, 5), (Reg.CCS_WP_TABLE 0 1, 3)] with time := 8192 },
    5, by decide +kernel⟩,
    ⟨{ wAt [(Reg.CLK_PLL_STS 0, 2), (Reg.CCS_WP_STS, 1), (Reg.CCS_WP_CFG, 1), (Reg.CCS_WP_TAIL, 1), (Reg.CCS_WP_TABLE 0 0, 5), (Reg.CCS_WP_TABLE 0 1, 4)] with time := 8192 },
    5, by decide +kernel⟩,
    ⟨{ wAt [(Reg.CLK_PLL_STS 0, 2), (Reg.CCS_WP_STS, 1), (Reg.CCS_WP_CFG, 1), (Reg.CCS_WP_TAIL, 1), (Reg.CCS_WP_TABLE 0 0, 5), (Reg.CCS_WP_TABLE 0 1, 5)] with time := 8192 },
    5, by decide +kernel⟩,
    ⟨{ wAt [(Reg.CLK_PLL_STS 0, 2), (Reg.CCS_WP_STS, 1), (Reg.CCS_WP_CFG, 1), (Reg.CCS_WP_TAIL, 1), (Reg.CCS_WP_TABLE 0 0, 5), (Reg.CCS_WP_TABLE 0 1, 6)] with time := 8192 },
    5, by decide +kernel⟩,
    ⟨{ wAt [(Reg.CLK_PLL_STS 0, 2), (Reg.CCS_WP_STS, 1), (Reg.CCS_WP_CFG, 1), (Reg.CCS_WP_TAIL, 1), (Reg.CCS_WP_TABLE 0 0, 5), (Reg.CCS_WP_TABLE 0 1, 7)] with time := 8192 },
    5, by decide +kernel⟩⟩

/-- The hypotheses of MonitorStateFollowsSamples can be met, clause by clause. -/
theorem test_monitorStateFollowsSamples_met :
    (∃ (s : State) (w : Fin 16), s.monOn w.val = true) ∧
    (∃ (s : State) (w : Fin 16) (si : Fin 64) (settle : List Int) (watch : List Int), s.mon.watch.testBit w.val = true ∧
    s.monOn w.val = true ∧ s.passed s.mon.tickAt (usec 1) = true ∧ s.fld (Reg.CMP_MON_CFG w.val) 5 0 = si.val ∧
    (let r := s.monResult w.val settle watch; r.1 = true)) ∧
    (∃ (s : State) (w : Fin 16) (si : Fin 64) (settle : List Int) (watch : List Int), s.mon.watch.testBit w.val = true ∧
    s.monOn w.val = true ∧ s.passed s.mon.tickAt (usec 1) = true ∧ s.fld (Reg.CMP_MON_CFG w.val) 5 0 = si.val ∧
    (let r := s.monResult w.val settle watch; r.1 = false ∧ r.2.1 = true)) ∧
    (∃ (s : State) (w : Fin 16) (si : Fin 64) (settle : List Int) (watch : List Int), s.mon.watch.testBit w.val = true ∧
    s.monOn w.val = true ∧ s.passed s.mon.tickAt (usec 1) = true ∧ s.fld (Reg.CMP_MON_CFG w.val) 5 0 = si.val ∧
    (let r := s.monResult w.val settle watch; r.1 = false ∧ r.2.1 = false ∧ r.2.2 = false)) ∧
    (∃ (s : State) (w : Fin 16) (si : Fin 64) (settle : List Int) (watch : List Int), s.mon.watch.testBit w.val = true ∧
    s.monOn w.val = true ∧ s.passed s.mon.tickAt (usec 1) = true ∧ s.fld (Reg.CMP_MON_CFG w.val) 5 0 = si.val ∧
    (let r := s.monResult w.val settle watch; r.1 = false ∧ r.2.1 = false ∧ r.2.2 = true)) :=
  ⟨⟨(wAt [(Reg.CMP_MON_CTL 15, 1)]), 15, by decide +kernel⟩,
    ⟨{ wAt [(Reg.CMP_MON_CTL 15, 1), (Reg.CMP_MON_THR 15, 0)] with mon.watch := 0x8000, clk.up := 0, time := (wAt []).ticks 2500 },
    15, 0, [100], [100], by decide +kernel⟩,
    ⟨{ wAt [(Reg.CMP_MON_CTL 15, 1), (Reg.CMP_MON_THR 15, 16777215)] with mon.watch := 0x8000, clk.up := 0, time := (wAt []).ticks 2500 },
    15, 0, [0], [0], by decide +kernel⟩,
    ⟨{ wAt [(Reg.CMP_MON_CTL 15, 1), (Reg.CMP_MON_THR 15, 16773120)] with mon.watch := 0x8000, clk.up := 0, time := (wAt []).ticks 2500 },
    15, 0, [100], [100], by decide +kernel⟩,
    ⟨{ wAt [(Reg.CMP_MON_CTL 15, 1), (Reg.CMP_MON_THR 15, 171868160)] with mon.watch := 0x8000, clk.up := 0, time := (wAt []).ticks 2500 },
    15, 0, [502500], [502500], by decide +kernel⟩⟩

/-- The hypotheses of BypassSkipsSysref can be met, clause by clause. -/
theorem test_bypassSkipsSysref_met :
    ∃ (s : State), s.pllState 0 = 1 ∧ s.pllLocked 0 = false :=
  ⟨(wAt [(Reg.CLK_PLL_STS 0, 1)]), by decide +kernel⟩

/-- The hypotheses of DensityCellsSaturate can be met, clause by clause. -/
theorem test_densityCellsSaturate_met :
    ∃ j k : Nat, j ≠ k :=
  ⟨0, 1, by decide⟩

/-- The hypotheses of TriggerSequencerFrame can be met, clause by clause. -/
theorem test_triggerSequencerFrame_met :
    (∃ s t : State, exec (.trgArm 3 7 true) s = .next t) ∧
    (∃ s t : State, exec (.trgUnitDisable 3 7) s = .next t) ∧
    (∃ s t : State, exec (.trgCommit 3) s = .next t) ∧
    (∃ s t : State, exec (.trgCommitTimed 3) s = .next t) ∧
    (∃ s t : State, exec (.trigOutForce 3) s = .next t) ∧
    (∃ s t : State, exec (.seqDisable 4) s = .next t) ∧
    (∃ s t : State, exec (.forceHalt 4) s = .next t) ∧
    (∃ s t : State, exec (.faultPost 4) s = .next t) :=
  ⟨⟨State.reset, answers (by decide +kernel)⟩,
    ⟨(wAt [(Reg.TRG_UNIT_CTL 3 7, 1)]), answers (by decide +kernel)⟩,
    ⟨State.reset, answers (by decide +kernel)⟩,
    ⟨State.reset, answers (by decide +kernel)⟩,
    ⟨State.reset, answers (by decide +kernel)⟩,
    ⟨(seqAt 4 []), answers (by decide +kernel)⟩,
    ⟨(seqAt 4 []), answers (by decide +kernel)⟩,
    ⟨(seqAt 4 []), answers (by decide +kernel)⟩⟩

/-- The hypotheses of SignalPathFrame can be met, clause by clause. -/
theorem test_signalPathFrame_met :
    (∃ s t : State, exec (.prsntEdge 3 true) s = .next t) ∧
    (∃ s t : State, exec (.rawGo 3) s = .next t) ∧
    (∃ s t : State, exec (.rawSnap 3 []) s = .next t) ∧
    (∃ s t : State, exec (.prbsLock 47 true 1) s = .next t) ∧
    (∃ s t : State, exec (.spxCommit 7) s = .next t) ∧
    (∃ s t : State, exec (.canClear 3) s = .next t) ∧
    (∃ s t : State, exec (.canCommit 3) s = .next t) ∧
    (∃ s t : State, exec (.canHold 3 true) s = .next t) ∧
    (∃ s t : State, exec (.scnCommit) s = .next t) ∧
    (∃ s t : State, exec (.traceReset 255) s = .next t) :=
  ⟨⟨State.reset, answers (by decide +kernel)⟩,
    ⟨(wAt [(Reg.LNK_GRP_CTL 3, 4), (Reg.LNK_GRP_STATE 3, 6)]), answers (by decide +kernel)⟩,
    ⟨(wAt [(Reg.LNK_GRP_STATE 3, 7)]), answers (by decide +kernel)⟩,
    ⟨(wAt [(Reg.LNK_LANE_STS 47, 16), (Reg.LNK_LANE_CTL 47, 16)]), answers (by decide +kernel)⟩,
    ⟨State.reset, answers (by decide +kernel)⟩,
    ⟨(wAt [(Reg.CAN_STS 3, 1)]), answers (by decide +kernel)⟩,
    ⟨(wAt [(Reg.CAN_STS 3, 1)]), answers (by decide +kernel)⟩,
    ⟨(wAt [(Reg.CAN_STS 3, 1)]), answers (by decide +kernel)⟩,
    ⟨(wAt [(Reg.SCN_STS, 1)]), answers (by decide +kernel)⟩,
    ⟨(wAt [(Reg.SCN_STS, 1)]), answers (by decide +kernel)⟩⟩

/-- The hypotheses of ServicesFrame can be met, clause by clause. -/
theorem test_servicesFrame_met :
    (∃ s t : State, exec (.wpTailWrite 1) s = .next t) ∧
    (∃ s t : State, exec (.wpCancel) s = .next t) ∧
    (∃ s t : State, exec (.timSRelWrite 63 1 0) s = .next t) ∧
    (∃ s t : State, exec (.monThrWrite 15 0) s = .next t) ∧
    (∃ s t : State, exec (.monTick) s = .next t) ∧
    (∃ s t : State, exec (.dmaEnable 127) s = .next t) ∧
    (∃ s t : State, exec (.dmaPause 127) s = .next t) ∧
    (∃ s t : State, exec (.retrain) s = .next t) ∧
    (∃ s t : State, exec (.lntHostIrq 31) s = .next t) ∧
    (∃ s t : State, exec (.flrStart 3) s = .next t) ∧
    (∃ s t : State, exec (.wdogKick) s = .next t) :=
  ⟨⟨(wAt [(Reg.CCS_WP_STS, 1)]), answers (by decide +kernel)⟩,
    ⟨(wAt [(Reg.CCS_WP_STS, 1)]), answers (by decide +kernel)⟩,
    ⟨State.reset, answers (by decide +kernel)⟩,
    ⟨State.reset, answers (by decide +kernel)⟩,
    ⟨State.reset, answers (by decide +kernel)⟩,
    ⟨State.reset, answers (by decide +kernel)⟩,
    ⟨(wAt [(Reg.QDM_CH_STS 127, 2)]), answers (by decide +kernel)⟩,
    ⟨(wAt [(Reg.MEM_STS, 4)]), answers (by decide +kernel)⟩,
    ⟨(wAt [(Reg.LNT_STS 31, 3)]), answers (by decide +kernel)⟩,
    ⟨(wAt [(Reg.PCI_PORT_CFG 3, 2)]), answers (by decide +kernel)⟩,
    ⟨State.reset, answers (by decide +kernel)⟩⟩

/-- The hypotheses of StoresReachTheirBytes can be met, clause by clause. -/
theorem test_storesReachTheirBytes_met :
    (∃ s : State, (s.epServes 3 = true ∧ 2 ≤ 2 ^ s.fld (Reg.PCI_EP_BAR2 3) 5 0 ∧
    s.softWriteOk (s.fld (Reg.PCI_EP_BAR2 3) 47 20 * 2 ^ 20) 2 = true ∧
    s.epAllows 3 (s.fld (Reg.PCI_EP_BAR2 3) 47 20 * 2 ^ 20) 2 true = true ∧
    s.portWaits 3 (s.fld (Reg.PCI_EP_BAR2 3) 47 20 * 2 ^ 20) = false) ∧
    ∃ t, exec (.bar2Access 3 0 true 0 0 [1, 2]) s = .next t) ∧
    (∃ k : Nat, k ≠ Reg.PCI_EP_BAD_ACC 3) ∧
    (∀ (j : Nat) (b : BitVec 8), ([1, 2] : List (BitVec 8))[j]? = some b → lanternPad (263882824220672 + j) = false) ∧
    (∃ s t : State, exec (.downstreamRequest 3 0 true 263882824220672 0 [1, 2]) s = .next t) ∧
    (∃ s : State, s.pciRole 3 = 1 ∧ s.linkUp 3 = true ∧ s.memWriteOk 263882824220672 2 = true ∧
    s.contextHit 263882824220672 2 = false ∧ s.portWaits 3 263882824220672 = false) :=
  ⟨⟨((wAt [(Reg.PCI_PORT_CFG 3, 2), (Reg.PCI_PORT_STS 3, 1), (Reg.PCI_EP_BAR2 3, 263882824220692), (Reg.PROT_EP_WIN 3 15, 9223635919678996692)]).setEp 3 { (default : EpFn) with enabled := true, memSpace := true }),
    by decide +kernel, answers (by decide +kernel)⟩,
    ⟨0, by decide⟩,
    (by
  intro j b h
  have : j < 2 := (List.getElem?_eq_some_iff.mp h).1
  interval_cases j <;> decide),
    ⟨(wAt [(Reg.PCI_PORT_CFG 3, 1), (Reg.PCI_PORT_STS 3, 1)]), answers (by decide +kernel)⟩,
    ⟨(wAt [(Reg.PCI_PORT_CFG 3, 1), (Reg.PCI_PORT_STS 3, 1)]), by decide +kernel⟩⟩

/-- The hypotheses of PackageMiddleRows can be met, clause by clause. -/
theorem test_packageMiddleRows_met :
    (∃ (y : Nat) (k : Nat), 11 ≤ k ∧ k ≤ 70 ∧ 19 ≤ y ∧ y ≤ 62 ∧ (y + k) % 2 = 0) ∧
    (∃ (y : Nat) (k : Nat), 11 ≤ k ∧ k ≤ 70 ∧ 19 ≤ y ∧ y ≤ 62 ∧ (y + k) % 2 = 1) ∧
    (∃ (y : Nat) (k : Nat), 11 ≤ k ∧ k ≤ 70 ∧ (y = 63 ∨ y = 65 ∨ y = 67)) :=
  ⟨⟨19, 11, by decide +kernel⟩,
    ⟨62, 11, by decide +kernel⟩,
    ⟨67, 70, by decide +kernel⟩⟩

/-- The hypotheses of BootRomCompletes can be met, clause by clause. -/
theorem test_bootRomCompletes_met :
    (∃ (s : State), s.stage = 0) ∧
    (∃ (s : State) (r : SlotRead), s.stage = 1 ∧ s.boot.phase ≠ 3 ∧ s.slotFails r (s.slotTried r) = none) ∧
    (∃ (s : State) (r : SlotRead) (n : Nat) (cause : Nat), s.stage = 1 ∧ s.boot.phase ≠ 3 ∧
    s.slotFails r (s.slotTried r) = some cause ∧ s.boot.tried = some n) ∧
    (∃ (s : State), s.boot.phase = 2 ∧ s.elapsed s.boot.since (usec 10) = true ∧ s.boot.held = [] ∧ s.power = 0) :=
  ⟨⟨State.reset, by decide +kernel⟩,
    ⟨{ State.reset with regs := [(Reg.MGT_BOOT_STS, 1), (Reg.MGT_KEY_STS, 1), (Reg.MGT_ROLLBACK, 0)] },
    { head0 := ((([0x43, 0x46, 0x42, 0x54] : List (BitVec 8)) ++ [1, 0, 0, 0, 0, 0, 0, 0, 0, 0, 0, 0]) ++ leBytes 4 16), head1 := [], answered := true, keyHash := true, sig := true, octal := true, body := List.replicate 16 0, missing := [], badMram := [] },
    by decide +kernel⟩,
    ⟨{ wAt [(Reg.MGT_BOOT_STS, 1)] with boot.tried := some 0 },
    { head0 := ((([0x43, 0x46, 0x42, 0x54] : List (BitVec 8)) ++ [1, 0, 0, 0, 0, 0, 0, 0, 0, 0, 0, 0]) ++ leBytes 4 16), head1 := [], answered := false, keyHash := true, sig := true, octal := true, body := List.replicate 16 0, missing := [], badMram := [] },
    0, 6, by decide +kernel⟩,
    ⟨{ State.reset with boot.phase := 2, clk.up := usec 10 }, by decide +kernel⟩⟩

/-- The hypotheses of ScriptRecordsComplete can be met, clause by clause. -/
theorem test_scriptRecordsComplete_met :
    (∃ (s : State) (c : Instr), s.stage = 3 ∧ (s.pllState 0 ≠ 0 ∨ s.refUndefined = false) ∧
    (let r := s.script; c ∈ [Instr.scriptWait, .scriptWaitTimeout, .scriptDelay, .scriptDelayEnd, .scriptSaveset, .scriptWarm, .scriptCopy, .scriptEnd] ∧
    (s.boot.script.length < s.boot.pos + 16 ∨ 7 ≤ r.op))) ∧
    (∃ (s : State) (env : WriteEnv) (e : EntryRow), s.stage = 3 ∧
    (s.pllState 0 ≠ 0 ∨ s.refUndefined = false) ∧ (let r := s.script;
    let b := (s.wrN Reg.MGT_BOOT_REC s.boot.recNo).sysStart; let v := BitVec.ofNat 64 r.value
    s.boot.pos + 16 ≤ s.boot.script.length ∧ r.op = 0 ∧ r.beforeSys = false ∧ r.width ≤ 8 ∧ e.ty.width ≤ r.width ∧
    b.scriptNext.plainWrite 6 0 r.slot v env e)) ∧
    (∃ (s : State), s.stage = 3 ∧ (s.pllState 0 ≠ 0 ∨ s.refUndefined = false) ∧
    (let r := s.script; let b := (s.wrN Reg.MGT_BOOT_REC s.boot.recNo).sysStart; s.boot.pos + 16 ≤ s.boot.script.length ∧
    r.op = 1 ∧ r.param ≠ 0 ∧ (b.waitHolds r).2 = true)) ∧
    (∃ (s : State) (t0 : Nat), s.stage = 3 ∧ (s.pllState 0 ≠ 0 ∨ s.refUndefined = false) ∧
    (let r := s.script; let b := (s.wrN Reg.MGT_BOOT_REC s.boot.recNo).sysStart; s.boot.pos + 16 ≤ s.boot.script.length ∧
    r.op = 1 ∧ b.boot.waits = some t0 ∧ b.elapsed t0 (usec r.param) = true ∧ (b.waitHolds r).2 = false)) ∧
    (∃ (s : State), s.stage = 3 ∧ (s.pllState 0 ≠ 0 ∨ s.refUndefined = false) ∧
    (let r := s.script; let b := (s.wrN Reg.MGT_BOOT_REC s.boot.recNo).sysStart; s.boot.pos + 16 ≤ s.boot.script.length ∧
    r.op = 2 ∧ b.boot.waits = none)) ∧
    (∃ (s : State) (t0 : Nat), s.stage = 3 ∧ (s.pllState 0 ≠ 0 ∨ s.refUndefined = false) ∧
    (let r := s.script; let b := (s.wrN Reg.MGT_BOOT_REC s.boot.recNo).sysStart; s.boot.pos + 16 ≤ s.boot.script.length ∧
    r.op = 2 ∧ b.boot.waits = some t0 ∧ b.elapsed t0 (usec r.param) = true)) ∧
    (∃ (s : State), s.stage = 3 ∧ (s.pllState 0 ≠ 0 ∨ s.refUndefined = false) ∧
    (let r := s.script; let b := (s.wrN Reg.MGT_BOOT_REC s.boot.recNo).sysStart; s.boot.pos + 16 ≤ s.boot.script.length ∧
    r.op = 3 ∧ b.savedRecs = [])) ∧
    (∃ (s : State) (k : Nat) (v : BitVec 64) (e : EntryRow), s.stage = 3 ∧
    (s.pllState 0 ≠ 0 ∨ s.refUndefined = false) ∧ (let r := s.script; let b := (s.wrN Reg.MGT_BOOT_REC s.boot.recNo).sysStart
    s.boot.pos + 16 ≤ s.boot.script.length ∧ r.op = 3 ∧ b.savedRecs = [(k, v)] ∧
    b.scriptNext.plainWrite 6 0 k v default e)) ∧
    (∃ s : State, s.stage = 3 ∧
    (s.pllState 0 ≠ 0 ∨ s.refUndefined = false) ∧ (let r := s.script; let b := (s.wrN Reg.MGT_BOOT_REC s.boot.recNo).sysStart
    s.boot.pos + 16 ≤ s.boot.script.length ∧ r.op = 3 ∧ b.savedRecs ≠ [] ∧ ∀ e ∈ b.savedRecs, ∀ (w : State) (v : BitVec 64),
      w.writeRule 6 default e.1 v = none ∧ w.writeUndefined e.1 v = none)) ∧
    (∃ (s : State), s.stage = 3 ∧ (s.pllState 0 ≠ 0 ∨ s.refUndefined = false) ∧
    (let r := s.script; s.boot.pos + 16 ≤ s.boot.script.length ∧ r.op = 4)) ∧
    (∃ (s : State), s.stage = 3 ∧ (s.pllState 0 ≠ 0 ∨ s.refUndefined = false) ∧
    (let r := s.script; let b := (s.wrN Reg.MGT_BOOT_REC s.boot.recNo).sysStart; s.boot.pos + 16 ≤ s.boot.script.length ∧
    r.op = 5 ∧ b.boot.pos + 16 + r.padded ≤ b.boot.script.length ∧
    b.softWriteOk (r.value % 2 ^ 48) r.param = true ∧ b.serves (r.value % 2 ^ 48) = true)) ∧
    (∃ (s : State), s.stage = 3 ∧ (s.pllState 0 ≠ 0 ∨ s.refUndefined = false) ∧
    (let r := s.script; s.boot.pos + 16 ≤ s.boot.script.length ∧ r.op = 6)) :=
  ⟨⟨{ wAt [(Reg.MGT_BOOT_STS, 3)] with boot.script := ([]) }, .scriptEnd, by decide +kernel⟩,
    ⟨scriptWrites, noEnv, (findRow Reg.CAL_RETRY).get (by decide +kernel), by decide +kernel, by decide +kernel,
    by decide +kernel, by decide +kernel, by decide +kernel, by decide +kernel, by decide +kernel,
    by show State.plainWrite _ 6 0 scriptWrites.script.slot _ _ _; rw [script_slot]; exact plain_cal_retry (by decide +kernel)⟩,
    ⟨{ wAt [(Reg.MGT_BOOT_STS, 3)] with boot.script := (leBytes 8 10999545470976 ++ leBytes 8 0) },
    by decide +kernel⟩,
    ⟨{ wAt [(Reg.MGT_BOOT_STS, 3)] with boot.script := (leBytes 8 10999545470976 ++ leBytes 8 18446744069414584327), boot.waits := some 0, clk.up := usec 10 },
    0, by decide +kernel⟩,
    ⟨{ wAt [(Reg.MGT_BOOT_STS, 3)] with boot.script := (leBytes 8 11003706212352 ++ leBytes 8 0) },
    by decide +kernel⟩,
    ⟨{ wAt [(Reg.MGT_BOOT_STS, 3)] with boot.script := (leBytes 8 11003706212352 ++ leBytes 8 0), boot.waits := some 0, clk.up := usec 10 },
    0, by decide +kernel⟩,
    ⟨{ wAt [(Reg.MGT_BOOT_STS, 3)] with boot.script := (leBytes 8 12884901888 ++ leBytes 8 0) },
    by decide +kernel⟩,
    ⟨scriptSaves, Reg.CAL_RETRY, 1001, (findRow Reg.CAL_RETRY).get (by decide +kernel), by decide +kernel, by decide +kernel, by decide +kernel, by decide +kernel, script_saved,
    plain_cal_retry (by decide +kernel)⟩,
    ⟨scriptSaves, by decide +kernel, by decide +kernel, by decide +kernel, by decide +kernel, by show scriptSaved.savedRecs ≠ []; rw [script_saved]; exact List.cons_ne_nil _ _,
    fun e h u v => by
      have he : e = (Reg.CAL_RETRY, 1001) := List.mem_singleton.mp (script_saved ▸ h)
      subst he
      exact ⟨plain_rule u 6 default v, plain_undefined u v⟩⟩,
    ⟨{ wAt [(Reg.MGT_BOOT_STS, 3)] with boot.script := (leBytes 8 17179869184 ++ leBytes 8 0) },
    by decide +kernel⟩,
    ⟨{ wAt [(Reg.MGT_BOOT_STS, 3)] with boot.script := (leBytes 8 17613660880896 ++ leBytes 8 263882824220672 ++ leBytes 8 1 ++ leBytes 8 2) },
    by decide +kernel⟩,
    ⟨{ wAt [(Reg.MGT_BOOT_STS, 3)] with boot.script := (leBytes 8 25769803776 ++ leBytes 8 0) },
    by decide +kernel⟩⟩

/-- The hypotheses of ResetsComplete can be met, clause by clause. -/
theorem test_resetsComplete_met :
    (∃ (s : State), s.power < 4 ∧ s.inReset = false ∧ s.stage ≠ 7) ∧
    (∃ (s : State) (left : BitVec 6), s.quiesces = true ∧ s.quiesceUndefined = false ∧
    (left = 0 ∨ s.elapsed s.boot.since (usec (s.fld Reg.MGT_QUIESCE 15 0)) = true) ∧
    ((∀ ch < 128, s.dmaState ch ≠ 3) ∨ left.getLsbD 2 = true)) ∧
    (∃ (s : State) (j : Journal), s.boot.journal = some j ∧ s.bit Reg.MGT_RST_STS 10 = true ∧ s.memState = 4) ∧
    (∃ (s : State), s.bit Reg.MGT_RST_STS 10 = true ∧ s.boot.journal = none) ∧
    (∃ (s : State), s.fld Reg.MGT_WDOG 15 0 ≠ 0 ∧ s.wdogHeld = false ∧
    s.overdue s.boot.wdogAt (msec (s.fld Reg.MGT_WDOG 15 0)) = true ∧ s.bit Reg.MGT_WDOG 16 = true) :=
  ⟨⟨(wAt [(Reg.PWR_STS, 3)]), by decide +kernel⟩,
    ⟨{ wAt [(Reg.MGT_QUIESCE, 10)] with boot.phase := 1, clk.up := usec 10 }, 63, by decide +kernel⟩,
    ⟨{ wAt [(Reg.MGT_RST_STS, 1024), (Reg.MEM_STS, 4)] with boot.journal := some default }, default,
    by decide +kernel⟩,
    ⟨(wAt [(Reg.MGT_RST_STS, 1024)]), by decide +kernel⟩,
    ⟨{ wAt [(Reg.MGT_WDOG, 65537)] with clk.up := msec 1 + 4096 }, by decide +kernel⟩⟩

/-- The hypotheses of ManagementCompletes can be met, clause by clause. -/
theorem test_managementCompletes_met :
    (∃ (s : State), s.bit Reg.MGT_SAVE_STS 0 = false) ∧
    (∃ (s : State) (rs : List (Nat × BitVec 64)), s.mgt.saving = some rs) ∧
    (∃ (s : State) (r : Fin 256), s.blkOk r.val = true ∧ ∃ k, slotIndex k / 256 = r.val ∧ inProtection k = false ∧
    k ≠ Reg.MGT_BLK_RST) ∧
    (∃ (s : State) (r : Nat), s.boot.blk = some r) ∧
    (∃ (s : State) (p : Fin 8) (f : FabFrame), s.fpUp p.val = true ∧ f.ok = true ∧ f.pkt = none ∧
    f.seq = (s.fport p.val).rxNext ∧ f.credit = none ∧ f.ack = none) ∧
    (∃ (s : State) (code : Nat), (code ≠ 3 ∨ s.anyEnabled = false)) :=
  ⟨⟨State.reset, by decide +kernel⟩,
    ⟨{ State.reset with mgt.saving := some [] }, [], by decide +kernel⟩,
    ⟨State.reset, 0x30, by decide +kernel, Reg.LNK_LANE_CTL 0, by decide +kernel⟩,
    ⟨{ State.reset with boot.blk := some 0xFF }, 0xFF, by decide +kernel⟩,
    ⟨(wAt [(Reg.FAB_PORT_STS 7, 4)]), 7,
    { seq := 0, ok := true, corrected := 0, uncorrected := 0, ack := none, credit := none, pkt := none },
    by decide +kernel⟩,
    ⟨State.reset, 2, by decide +kernel⟩⟩

/-- The hypotheses of ClocksComplete can be met, clause by clause. -/
theorem test_clocksComplete_met :
    (∃ (s : State), s.bit Reg.CLK_STS 0 = true) ∧
    (∃ (s : State), s.bit Reg.CLK_STS 0 = false) ∧
    (∃ (s : State) (k : Fin 6), s.pllState k.val = 1 ∧ (k.val = 0 ∨ 4 ≤ k.val) ∧ s.bit Reg.CLK_STS 0 = true) ∧
    (∃ (s : State) (k : Fin 6), (s.pllState k.val = 2 ∨ s.pllState k.val = 3)) ∧
    (∃ (s : State) (k : Fin 6), s.pllState k.val = 3) ∧
    (∃ (s : State), s.bit Reg.FAB_CTL 0 = false) :=
  ⟨⟨(wAt [(Reg.CLK_STS, 1)]), by decide +kernel⟩,
    ⟨State.reset, by decide +kernel⟩,
    ⟨(wAt [(Reg.CLK_PLL_STS 5, 1), (Reg.CLK_STS, 1)]), 5, by decide +kernel⟩,
    ⟨(wAt [(Reg.CLK_PLL_STS 5, 3)]), 5, by decide +kernel⟩,
    ⟨(wAt [(Reg.CLK_PLL_STS 0, 3)]), 0, by decide +kernel⟩,
    ⟨State.reset, by decide +kernel⟩⟩

/-- The hypotheses of PowerCompletes can be met, clause by clause. -/
theorem test_powerCompletes_met :
    (∃ (s : State), s.inReset = false ∧ s.stage = 4 ∧ s.fld Reg.PWR_CTL 2 0 < 6 ∧ s.moving = true) ∧
    (∃ (s : State), s.inReset = false ∧ s.stage = 4 ∧ s.fld Reg.PWR_CTL 2 0 < 6 ∧ s.fld Reg.PWR_CTL 2 0 ≠ 0 ∧
    s.moving = false) ∧
    (∃ (s : State), s.powerResumeBad = false ∧ s.timerWakeBad = false ∧ s.moving = true ∧ s.inReset = false ∧
    s.pwr.down = true ∧ s.stepMayEnd = true) ∧
    (∃ (s : State) (k : Fin 3), s.pwr.pgWait.testBit k.val = true ∧ s.elapsed s.pwr.pgSince (usec 20) = true) ∧
    (∃ (s : State), s.elapsed s.pwr.pgSince (usec 20) = false) ∧
    (∃ (s : State) (k : Fin 3), s.pwr.en.testBit k.val = true ∧ s.pwr.pg.testBit k.val = true) ∧
    (∃ (s : State), s.wakeUndefined 0 1 5 = false) ∧
    (∃ (s : State), s.timerDue = true ∧ s.wakeUndefined 2 1 4 = false) ∧
    (∃ (s : State), s.wakeUndefined 1 1 5 = false) ∧
    (∃ (s : State), s.pmbusRuns = true ∧ s.fld Reg.PWR_PMBUS_CFG 15 8 ≠ 0 ∧ s.boot.pollAt = none) ∧
    (∃ (s : State) (k : Nat), s.pmbusRuns = true ∧ k < 8 ∧ s.railOn k = true) :=
  ⟨⟨(wAt [(Reg.MGT_BOOT_STS, 4), (Reg.PWR_CTL, 5), (Reg.PWR_STS, 8)]), by decide +kernel⟩,
    ⟨(wAt [(Reg.MGT_BOOT_STS, 4), (Reg.PWR_CTL, 5)]), by decide +kernel⟩,
    ⟨{ wAt [(Reg.PWR_STS, 8)] with pwr.down := true, pwr.into := 4, pwr.step := 2, clk.up := usec 10 },
    by decide +kernel⟩,
    ⟨{ State.reset with pwr.en := 4, pwr.pgWait := 4, pwr.pgSince := 0, clk.up := usec 20 }, 2, by decide +kernel⟩,
    ⟨{ State.reset with pwr.en := 1 }, by decide +kernel⟩,
    ⟨{ State.reset with pwr.en := 1, pwr.pg := 1 }, 0, by decide +kernel⟩,
    ⟨State.reset, by decide +kernel⟩,
    ⟨{ wAt [(Reg.PWR_WAKE_AT, 7)] with time := 7 }, by decide +kernel⟩,
    ⟨State.reset, by decide +kernel⟩,
    ⟨(wAt [(Reg.PWR_RAIL_CFG 7, 32768)]), by decide +kernel⟩,
    ⟨(wAt [(Reg.PWR_RAIL_CFG 7, 32768)]), 7, by decide +kernel⟩⟩

/-- The hypotheses of HealthCompletes can be met, clause by clause. -/
theorem test_healthCompletes_met :
    (∃ (s : State) (temps : List Int), s.power ≤ 1 ∧ s.sinceNote s.hlt.sensorAt (msec 1) = true ∧
    (let t := ((List.range 32).foldl (fun s n => s.wrI (Reg.HLT_TEMP n) 24 (temps.getD n 0)) (s.setHlt { s.hlt with sensorAt := some s.clk.up })).tempWarn; t.bit Reg.CAL_CTL 0 = false ∧
    t.calUndefined = false)) ∧
    (∃ (s : State) (id : Fin 86), (s.calMakeDue id.val).calUndefined = false) ∧
    (∃ (s : State), ((List.range calIds).foldl State.calMakeDue s).calUndefined = false) ∧
    (∃ (s : State) (id : Fin 86) (lo : Int) (hi : Int) (r : CalRun), (s.hlt.runs.find? fun r => r.id == id.val) = some r ∧
    (s.calRunEnd r lo hi).calUndefined = false) ∧
    (∃ (s : State) (id : Fin 86) (e : Nat × Nat), (s.hlt.retry.find? fun r => r.1 == id.val) = some e ∧
    s.power ≤ 1 ∧ s.elapsed e.2 (msec (s.rdN Reg.CAL_RETRY)) = true ∧
    (let t := s.setHlt { s.hlt with retry := s.hlt.retry.filter fun r => r.1 != id.val }; t.calUndefined = false)) ∧
    (∃ (s : State) (id : Fin 86) (d : Nat × Nat), (s.hlt.due.find? fun d => d.1 == id.val) = some d ∧ s.power ≤ 1 ∧
    s.elapsed d.2 (msec (100 * s.fld Reg.CAL_CFG 31 16)) = true) ∧
    (∃ (s : State), s.power ≤ 1 ∧ s.sinceNote s.hlt.replicaAt (msec 10) = true) ∧
    (∃ (s : State) (j : Nat), s.power ≤ 1 ∧ (s.adjusts 1 = false ∨ s.fld Reg.HLT_EQ_CFG 15 8 ≤ 8) ∧
    s.sinceNote s.hlt.laneAt (msec 100) = true ∧
    (((List.range 64).map fun n => (s.hlt.lane + n) % 64).find? s.laneRuns) = some j) ∧
    (∃ (s : State), s.sinceNote s.hlt.ageAt (msec 1000) = true) :=
  ⟨⟨{ wAt [(Reg.CAL_CTL, 0)] with hlt.sensorAt := some 0, clk.up := msec 1 }, List.replicate 32 250,
    by decide +kernel⟩,
    ⟨State.reset, 85, by decide +kernel⟩,
    ⟨{ State.reset with hlt.due := (List.range 86).map fun n => (n, 0) }, by decide +kernel⟩,
    ⟨{ State.reset with hlt.runs := [{ id := 85, temp := 250, since := 0, blocks := 0 }] }, 85, 0, 0,
    { id := 85, temp := 250, since := 0, blocks := 0 }, by decide +kernel⟩,
    ⟨{ wAt [(Reg.CAL_RETRY, 1)] with hlt.retry := [(85, 0)], clk.up := msec 1 }, 85, (85, 0), by decide +kernel⟩,
    ⟨{ wAt [(Reg.CAL_CFG, 65536)] with hlt.due := [(85, 0)], clk.up := msec 100 }, 85, (85, 0), by decide +kernel⟩,
    ⟨{ State.reset with hlt.replicaAt := some 0, clk.up := msec 10 }, by decide +kernel⟩,
    ⟨{ wAt [(Reg.FAB_PORT_STS 7, 4)] with hlt.laneAt := some 0, clk.up := msec 100, hlt.lane := 63 }, 63,
    by decide +kernel⟩,
    ⟨{ State.reset with hlt.ageAt := some 0, clk.up := msec 1000 }, by decide +kernel⟩⟩

/-- The hypotheses of WritersComplete can be met, clause by clause. -/
theorem test_writersComplete_met :
    (∃ (s : State) (c : Fin 4), s.parityStopped (Reg.ACQ_CTL c) = false ∧ s.bit (Reg.ACQ_CTL c) 0 = false ∧
    (s.pairedOff c.val = true ∨ s.writerUndefined c.val = 0)) ∧
    (∃ (s : State) (c : Fin 4), s.serves (s.ringBase c.val) = true) ∧
    (∃ (s : State) (c : Fin 4) (v : BitVec 64), s.pairedOff c.val = false ∧ s.bit (Reg.ACQ_CFG c) 10 = false ∧
    s.rdN (Reg.ACQ_REL c) ≤ v.toNat ∧ v.toNat ≤ s.rdN (Reg.ACQ_PUB c) ∧ v.toNat % 64 = 0) ∧
    (∃ (s : State), s.power = 2 ∧ s.wakeUndefined 3 1 3 = false) ∧
    (∃ (s : State), s.power ≤ 1 ∧ s.wakeUndefined 3 1 3 = false) :=
  ⟨⟨(wAt [(Reg.MEM_SIZE, 268435456), (Reg.ACQ_RING 3, 67108880)]), 3, by decide +kernel⟩,
    ⟨(wAt [(Reg.ACQ_RING 3, 263882824220688)]), 3, by decide +kernel⟩,
    ⟨(wAt [(Reg.ACQ_PUB 3, 128), (Reg.ACQ_REL 3, 64)]), 3, 128, by decide +kernel⟩,
    ⟨(wAt [(Reg.PWR_STS, 2)]), by decide +kernel⟩,
    ⟨(wAt [(Reg.PWR_STS, 1)]), by decide +kernel⟩⟩

/-- The hypotheses of RegisterWriteStores can be met, clause by clause. -/
theorem test_registerWriteStores_met :
    ∃ (s : State) (who : Fin 8) (uid : BitVec 56) (k : Nat) (data : List (BitVec 8)) (env : WriteEnv)
    (r : EntryRow), k < 2 ^ 24 ∧ data.length = r.ty.width ∧ s.serves' who = true ∧ who ≠ 7 ∧
    s.fresh'.plainWrite who uid.toNat k (BitVec.ofNat 64 (ofLe data)) env r :=
  ⟨(wAt [(Reg.PROT_LOCK, 1)]), 4, 0, Reg.CAL_RETRY, [0xE9, 3, 0, 0], noEnv,
    (findRow Reg.CAL_RETRY).get (by decide +kernel), by decide +kernel, by decide +kernel, by decide +kernel, by decide, plain_cal_retry (by decide +kernel)⟩

/-- The hypotheses of RegisterWriteAscends can be met, clause by clause. -/
theorem test_registerWriteAscends_met :
    ∃ (s : State) (who : Fin 8) (uid : Nat) (n : Nat) (k : Nat) (env : WriteEnv) (a : List (BitVec 8)) (b : List (BitVec 8)) (t : State), a.length = 8 ∧
    b.length < n ∧ s.writeSlot who uid k 0 8 (BitVec.ofNat 64 (ofLe a)) env = .next t :=
  ⟨State.reset, 0, 0, 1, 0xFFFFFF, { hw := 0, stands := none, parity := false }, List.replicate 8 0, [],
    ((State.reset).flag 0 0xFFFFFF .noEntry), ⟨by decide, by decide, rfl⟩⟩

/-- The hypotheses of RefusedWritesFlag can be met, clause by clause. -/
theorem test_refusedWritesFlag_met :
    (∃ (s : State) (who : Fin 8) (uid : Nat) (k : Nat), s.servedNow k = true ∧
    s.mayReach who uid (slotIndex k) true = false) ∧
    (∃ (s : State) (who : Fin 8) (uid : Nat) (k : Nat), s.servedNow k = true ∧
    s.mayReach who uid (slotIndex k) true = true ∧ findRow k = none) ∧
    (∃ (s : State) (who : Fin 8) (uid : Nat) (k : Nat) (lo : Nat) (hi : Nat) (r : EntryRow), s.servedNow k = true ∧
    s.mayReach who uid (slotIndex k) true = true ∧ findRow k = some r ∧ lo < r.ty.width ∧
    (0 < lo ∨ hi < r.ty.width)) ∧
    (∃ (s : State) (who : Fin 8) (uid : Nat) (k : Nat) (lo : Nat) (hi : Nat) (r : EntryRow), s.servedNow k = true ∧
    s.mayReach who uid (slotIndex k) true = true ∧ findRow k = some r ∧ lo = 0 ∧ r.ty.width ≤ hi ∧
    0 < r.ty.width ∧ r.acc = .ro ∧ inProtection k = false) ∧
    (∃ (s : State) (who : Fin 8) (k : Nat) (j : Nat), s.servedNow k = true ∧ j ≠ Reg.MGT_ACC_STS who ∧
    j ≠ Reg.MGT_ACC_LAST who ∧ j ≠ Reg.MGT_ACC_LAST_TS who) :=
  ⟨⟨(wAt [(Reg.PROT_DICT 31, 9223372041149677568)]), 7, 0, 0xFFFFFF, by decide +kernel⟩,
    ⟨State.reset, 7, 0, 0xFFFFFF, by decide +kernel⟩,
    ⟨State.reset, 7, 0, Reg.SEQ_CTL 0, 1, 8, ((findRow (Reg.SEQ_CTL 0)).get (by decide +kernel)),
    by decide +kernel⟩,
    ⟨State.reset, 7, 0, Reg.SEQ_STS 0, 0, 8, ((findRow (Reg.SEQ_STS 0)).get (by decide +kernel)),
    by decide +kernel⟩,
    ⟨State.reset, 7, 0, 0, ⟨by decide +kernel, by decide, by decide, by decide⟩⟩⟩

/-- The hypotheses of RapRequestsComplete can be met, clause by clause. -/
theorem test_rapRequestsComplete_met :
    (∃ (s : State) (peer : Peer) (m : RapMsg) (x : Session), s.rapReached peer ∧ m.whole = true ∧
    s.session peer m.session = some x ∧ x.ahead = [] ∧ x.expected = m.seq ∧ m.seq < 2 ^ 32 ∧ m.fits 1 = true) ∧
    (∃ (s : State) (peer : Peer) (m : RapMsg) (x : Session), s.rapReached peer ∧ m.whole = true ∧
    s.session peer m.session = some x ∧ x.ahead = [] ∧ x.expected = m.seq ∧ m.seq < 2 ^ 32 ∧ m.fits 3 = true) ∧
    (∃ (s : State) (peer : Peer) (m : RapMsg) (x : Session) (env : WriteEnv) (r : EntryRow), s.rapReached peer ∧ m.whole = true ∧
    s.session peer m.session = some x ∧ x.ahead = [] ∧ x.expected = m.seq ∧ m.seq < 2 ^ 32 ∧ m.fits 2 = true ∧
    (s.rapMet peer m).plainWrite peer.who peer.uid (m.addr % 2 ^ 24) (BitVec.ofNat 64 (ofLe (m.data.take 8))) env r) ∧
    (∃ (s : State) (peer : Peer) (m : RapMsg) (x : Session), s.rapReached peer ∧ m.whole = true ∧
    s.session peer m.session = some x ∧ x.ahead = [] ∧ x.expected = m.seq ∧ m.seq < 2 ^ 32 ∧ m.fits 4 = true ∧
    ∀ i < m.count, ∀ (w : State) (who : Fin 8) (env : WriteEnv) (v : BitVec 64),
      w.writeRule who env (blockSlot (m.addr % 2 ^ 24) i) v = none ∧
      w.writeUndefined (blockSlot (m.addr % 2 ^ 24) i) v = none) ∧
    (∃ (s : State) (peer : Peer) (m : RapMsg) (x : Session), s.rapReached peer ∧ m.whole = true ∧
    s.session peer m.session = some x ∧ x.ahead = [] ∧ x.expected = m.seq ∧ m.seq < 2 ^ 32 ∧ m.fits 5 = true) ∧
    (∃ (s : State) (peer : Peer) (m : RapMsg) (x : Session), s.rapReached peer ∧ m.whole = true ∧
    s.session peer m.session = some x ∧ x.ahead = []) :=
  ⟨⟨rapState, .fabric 1, rapMsg 1, rapSession, by unfold State.rapReached; decide +kernel, by decide +kernel,
    by decide +kernel, by decide, by decide, by decide, by decide +kernel⟩,
    ⟨rapState, .fabric 1, rapMsg 3, rapSession, by unfold State.rapReached; decide +kernel, by decide +kernel,
    by decide +kernel, by decide, by decide, by decide, by decide +kernel⟩,
    ⟨rapState, .fabric 1, rapMsg 2, rapSession, noEnv,
    (findRow Reg.CAL_RETRY).get (by decide +kernel), by unfold State.rapReached; decide +kernel, by decide +kernel,
    by decide +kernel, by decide, by decide, by decide, by decide +kernel,
    plain_cal_retry (by decide +kernel)⟩,
    ⟨rapState, .fabric 1, rapMsg 4, rapSession, by unfold State.rapReached; decide +kernel, by decide +kernel,
    by decide +kernel, by decide, by decide, by decide, by decide +kernel,
    fun i h u who env v => by
      have e : i = 0 := Nat.lt_one_iff.mp h
      subst e
      exact ⟨plain_rule u who env v, plain_undefined u v⟩⟩,
    ⟨rapState, .fabric 1, rapMsg 5, rapSession, by unfold State.rapReached; decide +kernel, by decide +kernel,
    by decide +kernel, by decide, by decide, by decide, by decide +kernel⟩,
    ⟨rapState, .fabric 1, rapMsg 6, rapSession, by unfold State.rapReached; decide +kernel, by decide +kernel,
    by decide +kernel, by decide⟩⟩

/-- The hypotheses of EthernetCompletes can be met, clause by clause. -/
theorem test_ethernetCompletes_met :
    (∃ (s : State) (n : Fin 32) (x : Session), s.mgt.sessions[n.val]? = some x ∧ x.buf ≠ [] ∧
    x.outstanding.length < 8 ∧ s.notifyOpen x.peer = true) ∧
    (∃ (s : State) (n : Fin 32) (seq : BitVec 32) (x : Session) (o : NotifyOut), s.mgt.sessions[n.val]? = some x ∧
    (x.outstanding.find? fun o => o.seq == seq.toNat) = some o ∧ s.elapsed o.sentAt (msec 1) = true ∧
    s.notifyOpen x.peer = true) ∧
    (∃ (s : State) (target : BitVec 32), s.ethActs = true ∧ target.toNat = s.ethIp) ∧
    (∃ (s : State), s.ethActs = true ∧ s.bit Reg.MGT_ETH_CTL 1 = true) ∧
    (∃ (s : State), s.ethRuns = true ∧ s.power ≤ 4) ∧
    (∃ (s : State), s.bit Reg.MGT_ETH_STS 0 = true) ∧
    (∃ (s : State), s.bit Reg.MGT_ETH_STS 0 = false ∧ s.ethRuns = true) :=
  ⟨⟨{ wAt [(Reg.MGT_RAP_CFG, 2), (Reg.PROT_LOCK, 1)] with mgt.sessions := [{ (default : Session) with peer := .fabric 1, id := 1, buf := [default] }] },
    0, { (default : Session) with peer := .fabric 1, id := 1, buf := [default] }, by decide +kernel⟩,
    ⟨{ wAt [(Reg.MGT_RAP_CFG, 2), (Reg.PROT_LOCK, 1)] with clk.up := msec 1, mgt.sessions := [{ (default : Session) with peer := .fabric 1, id := 1, outstanding := [default] }] },
    0, 0, { (default : Session) with peer := .fabric 1, id := 1, outstanding := [default] }, default,
    by decide +kernel⟩,
    ⟨(wAt [(Reg.MGT_ETH_CTL, 1), (Reg.MGT_ETH_IP, 1)]), 1, by decide +kernel⟩,
    ⟨(wAt [(Reg.MGT_ETH_CTL, 3), (Reg.MGT_ETH_IP, 1)]), by decide +kernel⟩,
    ⟨(wAt [(Reg.MGT_ETH_CTL, 1), (Reg.PWR_STS, 4)]), by decide +kernel⟩,
    ⟨(wAt [(Reg.MGT_ETH_STS, 1)]), by decide +kernel⟩,
    ⟨(wAt [(Reg.MGT_ETH_CTL, 1)]), by decide +kernel⟩⟩

/-- The hypotheses of LanesComplete can be met, clause by clause. -/
theorem test_lanesComplete_met :
    (∃ (s : State) (g : Fin 4), s.pairedOff g.val = false ∧ s.groupUndefined g.val = 0) ∧
    (∃ (s : State) (g : Fin 4), s.laneState g.val = 2 ∧ s.laneTimeout g.val (usec 20) = true) ∧
    (∃ (s : State) (g : Fin 4), s.laneState g.val = 3) ∧
    (∃ (s : State) (g : Fin 4), s.laneState g.val = 3 ∧ s.laneExpired g.val (usec 100) = true) ∧
    (∃ (s : State) (g : Fin 4), 4 ≤ s.laneState g.val ∧ s.laneState g.val ≤ 7) ∧
    (∃ (s : State) (g : Fin 4), s.laneState g.val = 4 ∧ s.laneExpired g.val (msec 5) = true) ∧
    (∃ (s : State) (g : Fin 4), 5 ≤ s.laneState g.val ∧ s.laneState g.val ≤ 7) ∧
    (∃ (s : State) (g : Fin 4) (x : SyncFind), s.laneState g.val = 5 ∧
    (let u := s.lanesUp g.val x.sync.toNat x.emb.toNat; let all := u.allLanes g.val 2 && u.allLanes g.val 3; all = false)) ∧
    (∃ (s : State) (g : Fin 4) (x : SyncFind), s.laneState g.val = 5 ∧
    (let u := s.lanesUp g.val x.sync.toNat x.emb.toNat; let all := u.allLanes g.val 2 && u.allLanes g.val 3; all = true ∧
    u.laneMode g.val ≠ 1)) ∧
    (∃ (s : State) (g : Fin 4) (x : SyncFind), s.laneState g.val = 5 ∧
    (let u := s.lanesUp g.val x.sync.toNat x.emb.toNat; let all := u.allLanes g.val 2 && u.allLanes g.val 3; all = true ∧
    u.laneMode g.val = 1 ∧ s.bit (Reg.LNK_GRP_CTL g) 6 = false)) ∧
    (∃ (s : State) (g : Fin 4), s.laneState g.val = 5 ∧ s.laneExpired g.val (msec 1) = true) ∧
    (∃ (s : State) (g : Fin 4), s.laneState g.val = 6 ∧ s.laneMode g.val ≠ 2 ∧
    s.laneExpired g.val (msec 100) = true) ∧
    (∃ (s : State) (g : Fin 4), ((s.partners g.val).all fun h => s.laneState h == 9 && s.laneTimeout h (msec 1)) = true ∧
    s.bit (Reg.LNK_GRP_CTL (s.leader g.val)) 5 = true) ∧
    (∃ (s : State) (g : Fin 4) (lost : BitVec 12) (what : Fin 3), s.lostLanes g.val lost.toNat ≠ [] ∧
    (s.laneMode g.val = 2 → what.val = 2 ∧ 4 ≤ s.laneState g.val ∧ s.laneState g.val ≤ 8) ∧
    (s.laneMode g.val ≠ 2 → 5 ≤ s.laneState g.val ∧ s.laneState g.val ≤ 7)) :=
  ⟨⟨(wAt [(Reg.LNK_JESD_PARAMS 3, 131006496), (Reg.LNK_LANE_RATE 3, 16000000), (Reg.LNK_TS_NUM 3, 1), (Reg.LNK_TS_DEN 3, 1)]),
    3, by decide +kernel⟩,
    ⟨(({ wAt [(Reg.LNK_GRP_STATE 3, 2)] with clk.up := usec 20 } : State).setLane 3 default), 3,
    by decide +kernel⟩,
    ⟨(wAt [(Reg.LNK_GRP_STATE 3, 3)]), 3, by decide +kernel⟩,
    ⟨(({ wAt [(Reg.LNK_GRP_STATE 3, 3)] with clk.up := usec 100 + 4096 } : State).setLane 3 default), 3,
    by decide +kernel⟩,
    ⟨(wAt [(Reg.LNK_GRP_STATE 3, 4)]), 3, by decide +kernel⟩,
    ⟨(({ wAt [(Reg.LNK_GRP_STATE 3, 4)] with clk.up := msec 5 + 4096 } : State).setLane 3 default), 3,
    by decide +kernel⟩,
    ⟨(wAt [(Reg.LNK_GRP_STATE 3, 7)]), 3, by decide +kernel⟩,
    ⟨(wAt [(Reg.LNK_GRP_STATE 3, 5)]), 3, default, by decide +kernel⟩,
    ⟨(wAt [(Reg.LNK_GRP_STATE 3, 5), (Reg.LNK_GRP_CTL 3, 0), (Reg.LNK_JESD_PARAMS 3, 0)]), 3, ⟨1, 1, []⟩,
    by decide +kernel⟩,
    ⟨(wAt [(Reg.LNK_GRP_STATE 3, 5), (Reg.LNK_GRP_CTL 3, 2), (Reg.LNK_JESD_PARAMS 3, 0)]), 3, ⟨1, 1, []⟩,
    by decide +kernel⟩,
    ⟨(({ wAt [(Reg.LNK_GRP_STATE 3, 5)] with clk.up := msec 1 + 4096 } : State).setLane 3 default), 3,
    by decide +kernel⟩,
    ⟨(({ wAt [(Reg.LNK_GRP_STATE 3, 6)] with clk.up := msec 100 + 4096 } : State).setLane 3 default), 3,
    by decide +kernel⟩,
    ⟨(({ wAt [(Reg.LNK_GRP_STATE 3, 9), (Reg.LNK_GRP_CTL 3, 32)] with clk.up := msec 1 } : State).setLane 3 default),
    3, by decide +kernel⟩,
    ⟨(wAt [(Reg.LNK_GRP_STATE 3, 7), (Reg.LNK_LANE_STS 36, 4)]), 3, 1, 0, by decide +kernel⟩⟩

/-- The hypotheses of LaneArrivalsComplete can be met, clause by clause. -/
theorem test_laneArrivalsComplete_met :
    (∃ (j : Fin 64), j.val < 48) ∧
    (∃ (s : State) (j : Fin 48), (s.lanesUsed (j.val / 12)).contains j.val = true ∧ s.loops j.val = false ∧
    s.laneState (j.val / 12) = 3) ∧
    (∃ (s : State) (j : Fin 48) (on : Bool), (s.lanesUsed (j.val / 12)).contains j.val = true ∧
    s.loops j.val = false ∧ s.laneState (j.val / 12) = 3 ∧ on = true) ∧
    (∃ (s : State) (j : Fin 64), let l := j.val - 48; 48 ≤ j.val ∧ s.fpState (l / 2) = 1) ∧
    (∃ (s : State), s.pllLocked 0 = true) ∧
    (∃ (s : State) (g : Fin 4) (here : List (Option Int)) (c : Nat), (s.lane g.val).capture = some c ∧
    s.partners g.val = [g.val] ∧ s.pairedOff g.val = false ∧ s.pairedOn g.val = false ∧ s.laneState g.val = 6 ∧
    atOrAfter s.time (s.releasePoint g.val c) = true ∧
    (let b := s.boundary g.val c; let xs := s.laneArrivals g.val b here; let t := s.arrivals g.val xs; let u := (t.releaseGroup g.val c).cndRelease g.val; t.pairedOn g.val = false ∧
    t.arrived g.val (timeDiff (s.releasePoint g.val c) b / 4096) xs = true ∧
    (t.bit (Reg.CND_STS g) 0 = false ∨ t.rateUndefined g.val = false) ∧ u.pairedOn g.val = false)) ∧
    (∃ (s : State) (g : Fin 4), s.laneMode g.val = 2 ∧ s.laneState g.val = 6 ∧ s.pairedOff g.val = false) ∧
    (∃ (s : State) (g : Fin 4) (l w : Nat), (s.lanesUsed g.val).Nodup ∧ l < s.laneCount g.val ∧
    s.slipped g.val l 0 (s.lane g.val).raw = some w) ∧
    (∃ (s : State) (g : Fin 4), s.laneMode g.val = 2 ∧ 4 ≤ s.laneState g.val ∧ s.laneState g.val ≤ 8) ∧
    (∃ (s : State) (g : Fin 4) (code : List Nat), let u := s.countLanes g.val (fun l => code.getD l 0) Reg.LNK_ERR_CODE; s.laneMode g.val ≠ 2 ∧
    5 ≤ s.laneState g.val ∧ s.laneState g.val ≤ 7 ∧ u.laneMode g.val = 0) ∧
    (∃ (s : State) (g : Fin 4) (code : List Nat), let u := s.countLanes g.val (fun l => code.getD l 0) Reg.LNK_ERR_CODE; s.laneMode g.val ≠ 2 ∧
    5 ≤ s.laneState g.val ∧ s.laneState g.val ≤ 7 ∧ u.laneMode g.val ≠ 0) ∧
    (∃ (s : State) (j : Fin 64), let ctl := if j.val < 48 then Reg.LNK_LANE_CTL j else Reg.FAB_LANE_CTL (j.val - 48); s.fld ctl 6 4 ≠ 0) ∧
    (∃ (s : State) (j : Fin 64) (dwell : Nat), (s.eyes.find? fun e => e.1 == j.val) = some (j.val, dwell)) :=
  ⟨⟨47, by decide +kernel⟩,
    ⟨(wAt [(Reg.LNK_GRP_STATE 3, 3)]), 36, by decide +kernel⟩,
    ⟨(wAt [(Reg.LNK_GRP_STATE 3, 3)]), 36, true, by decide +kernel⟩,
    ⟨(wAt [(Reg.FAB_PORT_STS 7, 1)]), 63, by decide +kernel⟩,
    ⟨(wAt [(Reg.CLK_PLL_STS 0, 2)]), by decide +kernel⟩,
    ⟨((wAt [(Reg.LNK_GRP_STATE 0, 6), (Reg.LNK_GRP_CTL 0, 4)]).setLane 0 { (default : LaneGroup) with capture := some 0 }),
    0, [], 0, by decide +kernel⟩,
    ⟨(wAt [(Reg.LNK_GRP_STATE 3, 6), (Reg.LNK_GRP_CTL 3, 4)]), 3, by decide +kernel⟩,
    ⟨State.reset.setLane 3 { (default : LaneGroup) with raw := [[7]] }, 3, 0, 7, by decide +kernel,
    by decide +kernel, by decide +kernel⟩,
    ⟨(wAt [(Reg.LNK_GRP_STATE 3, 4), (Reg.LNK_GRP_CTL 3, 4)]), 3, by decide +kernel⟩,
    ⟨(wAt [(Reg.LNK_GRP_STATE 3, 7), (Reg.LNK_GRP_CTL 3, 0)]), 3, [], by decide +kernel⟩,
    ⟨(wAt [(Reg.LNK_GRP_STATE 3, 7), (Reg.LNK_GRP_CTL 3, 2)]), 3, [], by decide +kernel⟩,
    ⟨(wAt [(Reg.LNK_LANE_STS 47, 16), (Reg.LNK_LANE_CTL 47, 16)]), 47, by decide +kernel⟩,
    ⟨{ State.reset with eyes := [(63, 5)] }, 63, 5, by decide +kernel⟩⟩

/-- The hypotheses of SidebandCompletes can be met, clause by clause. -/
theorem test_sidebandCompletes_met :
    (∃ (s : State) (g : Fin 4), s.bit (Reg.LNK_SPI_STS g) 0 = false ∧ 5 ≤ s.fld (Reg.LNK_SPI_CFG g) 7 0 ∧
    s.fld (Reg.LNK_SPI_CFG g) 7 0 ≤ 250) ∧
    (∃ (s : State) (g : Fin 4), s.bit (Reg.LNK_SPI_STS g) 0 = true) ∧
    (∃ (s : State) (g : Fin 4), s.bit (Reg.LNK_I2C_STS g) 0 = false) ∧
    (∃ (s : State) (g : Fin 4), s.bit (Reg.LNK_I2C_STS g) 0 = true) ∧
    (∃ (s : State) (g : Fin 4), (s.lane g.val).prsntLow = true ∧ s.bit (Reg.LNK_GRP_STATE g) 20 = false ∧
    s.elapsed (s.lane g.val).prsntSince (msec 20) = true ∧ s.wakeUndefined 4 1 3 = false) ∧
    (∃ (s : State) (g : Fin 4), (s.lane g.val).prsntLow = false ∧ s.bit (Reg.LNK_GRP_STATE g) 20 = true ∧
    s.elapsed (s.lane g.val).prsntSince (usec 100) = true ∧ s.wakeUndefined 4 1 3 = false) ∧
    (∃ (s : State) (g : Fin 4), (s.lane g.val).idBusy = true) :=
  ⟨⟨(wAt [(Reg.LNK_SPI_CFG 3, 5)]), 3, by decide +kernel⟩,
    ⟨(wAt [(Reg.LNK_SPI_STS 3, 1)]), 3, by decide +kernel⟩,
    ⟨State.reset, 3, by decide +kernel⟩,
    ⟨(wAt [(Reg.LNK_I2C_STS 3, 1)]), 3, by decide +kernel⟩,
    ⟨(({ wAt [] with clk.up := msec 20 } : State).setLane 3 { (default : LaneGroup) with prsntLow := true }), 3,
    by decide +kernel⟩,
    ⟨(({ wAt [(Reg.LNK_GRP_STATE 3, 2 ^ 20)] with clk.up := usec 100 } : State).setLane 3 default), 3,
    by decide +kernel⟩,
    ⟨(State.reset.setLane 3 { (default : LaneGroup) with idBusy := true }), 3, by decide +kernel⟩⟩

/-- The hypotheses of ConditioningCompletes can be met, clause by clause. -/
theorem test_conditioningCompletes_met :
    (∃ (s : State) (c : Fin 4), s.groupRun c.val = true ∧ s.pairedOff c.val = false ∧ s.pairedOn c.val = true ∧
    s.wordReady c.val = true ∧ s.wordReady (c.val + 1) = true) ∧
    (∃ (s : State) (c : Fin 4), s.groupRun c.val = true ∧ s.pairedOff c.val = false ∧ s.pairedOn c.val = false ∧
    s.wordReady c.val = true) ∧
    (∃ (s : State) (c : Fin 4), s.groupRun c.val = false ∧ s.pairedOff c.val = false ∧ s.lostFeed c.val = true) ∧
    (∃ (s : State) (c : Fin 4) (w : CndWord) (rest : List CndWord), (s.cndCh c.val).words = w :: rest ∧
    (let x := s.cndCh c.val; let t := (s.setCnd c.val { x with words := rest, oldWords := x.oldWords - 1 }).wordLeaves c.val (decide (0 < x.oldWords)) w; s.spxUndefined t c.val = false ∧
    s.traceUndefined c.val 0 = false ∧ s.traceUndefined c.val 1 = false)) ∧
    (∃ (s : State) (c : Fin 4), s.parityStopped (Reg.CND_CTL c) = false ∧
    (s.bit (Reg.CND_CTL c) 0 = true ∨ s.pairedOff c.val = true ∨ s.chainUndefined c.val = false)) ∧
    (∃ (s : State) (c : Fin 4) (at' : Nat), s.bit (Reg.CND_STS c) 0 = true ∧ s.cndFed c.val = false ∧
    (s.cndCh c.val).timed = some at' ∧ atOrAfter s.frontNow at' = true) ∧
    (∃ (s : State) (c : Fin 4) (b : IlBlock), (s.cndCh c.val).ilDone = some b) :=
  ⟨⟨((wAt [(Reg.LNK_GRP_STATE 2, 7), (Reg.LNK_GRP_CTL 2, 8)]).setLane 2 { (default : LaneGroup) with buf := List.replicate 16 (0, true) } |>.setLane 3 { (default : LaneGroup) with buf := List.replicate 16 (0, true) }),
    2, by decide +kernel⟩,
    ⟨((wAt [(Reg.LNK_GRP_STATE 3, 7)]).setLane 3 { (default : LaneGroup) with buf := List.replicate 16 (0, true) }),
    3, by decide +kernel⟩,
    ⟨((wAt [(Reg.CND_STS 3, 1)]).setLane 3 { (default : LaneGroup) with released := true }), 3, by decide +kernel⟩,
    ⟨(State.reset.setCnd 3 { State.reset.cndCh 3 with words := [{ outs := [], sats := 0, satAt := 0 }] }), 3,
    { outs := [], sats := 0, satAt := 0 }, [], by decide +kernel⟩,
    ⟨State.reset, 3, by decide +kernel⟩,
    ⟨(({ wAt [(Reg.CND_STS 3, 1)] with time := 8192 } : State).setCnd 3 { State.reset.cndCh 3 with timed := some 0 }),
    3, 0, by decide +kernel⟩,
    ⟨(State.reset.setCnd 3 { State.reset.cndCh 3 with ilDone := some default }), 3, default, by decide +kernel⟩⟩

/-- The hypotheses of SpectralCompletes can be met, clause by clause. -/
theorem test_spectralCompletes_met :
    (∃ (s : State) (r : Fin 8) (f : SpxFrame) (rest : List SpxFrame), (s.res r.val).ready = f :: rest ∧
    s.power = 0 ∧ s.canUndefined (r.val / 2) (r.val % 2) f = false ∧
    s.traceUndefined (r.val / 2) (r.val % 2) = false) ∧
    (∃ (s : State) (r : Fin 8), s.parityStopped (Reg.SPX_RES_CTL r) = false) ∧
    (∃ (s : State) (r : Fin 8), s.resDraining r.val = true ∧ (s.res r.val).ready = []) :=
  ⟨⟨(State.reset.setRes 7 { (default : SpxRes) with ready := [default] }), 7, default, [], by decide +kernel⟩,
    ⟨State.reset, 7, by decide +kernel⟩,
    ⟨(wAt [(Reg.SPX_RES_STS 7, 4)]), 7, by decide +kernel⟩⟩

/-- The hypotheses of TriggersComplete can be met, clause by clause. -/
theorem test_triggersComplete_met :
    (∃ (s : State) (n : Fin 4), 4 ≤ s.fld (Reg.TRG_OUT_CFG n) 27 12) ∧
    (∃ (s : State) (p : Fin 8) (k : FabPkt), s.fpUp p.val = true ∧ k.ridgeKind = some 0) ∧
    (∃ (s : State) (p : Fin 8) (k : FabPkt), s.fpUp p.val = true ∧ k.ridgeKind = some 1) ∧
    (∃ (s : State) (p : Fin 8) (k : FabPkt), s.fpUp p.val = true ∧ k.ridgeKind = some 2) ∧
    (∃ (s : State) (p : Fin 8) (k : FabPkt), s.fpUp p.val = true ∧ k.ridgeKind = some 3) ∧
    (∃ (s : State) (c : Fin 4) (u : Fin 8), s.parityStopped (Reg.TRG_UNIT_CTL c u) = false ∧
    s.bit (Reg.TRG_UNIT_CTL c u) 0 = false ∧ s.unitBad c.val u.val (s.unitShadow c.val u.val).1 = none ∧
    s.pendingBad c.val u.val = none) ∧
    (∃ (s : State) (c : Fin 4), s.shadowsBad c.val = none) ∧
    (∃ (s : State) (c : Fin 4) (th : Nat), (s.tch c.val).handAt = some th ∧ atOrAfter s.time th = true) :=
  ⟨⟨(wAt [(Reg.TRG_OUT_CFG 3, 16384)]), 3, by decide +kernel⟩,
    ⟨(wAt [(Reg.FAB_PORT_STS 7, 4)]), 7,
    { dst := 0, src := 1, ttl := 1, seq := 0, bcast := false, ack := none, body := .ridge 0 0 0 0 false 0 0 0 },
    by decide +kernel⟩,
    ⟨(wAt [(Reg.FAB_PORT_STS 7, 4)]), 7,
    { dst := 0, src := 1, ttl := 1, seq := 0, bcast := false, ack := none, body := .ridge 1 0 0 0 false 0 0 0 },
    by decide +kernel⟩,
    ⟨(wAt [(Reg.FAB_PORT_STS 7, 4)]), 7,
    { dst := 0, src := 1, ttl := 1, seq := 0, bcast := false, ack := none, body := .ridge 2 0 0 0 false 0 0 0 },
    by decide +kernel⟩,
    ⟨(wAt [(Reg.FAB_PORT_STS 7, 4)]), 7,
    { dst := 0, src := 1, ttl := 1, seq := 0, bcast := false, ack := none, body := .ridge 3 0 0 0 false 0 0 0 },
    by decide +kernel⟩,
    ⟨State.reset, 3, 7, by decide +kernel⟩,
    ⟨State.reset, 3, by decide +kernel⟩,
    ⟨(({ State.reset with time := 5 } : State).setTch 3 { (default : TrigChan) with handAt := some 5 }), 3, 5,
    by decide +kernel⟩⟩

/-- The hypotheses of SequencersComplete can be met, clause by clause. -/
theorem test_sequencersComplete_met :
    (∃ (s : State) (q : Fin 5) (b : SeqBegun), s.seqRunning q.val = true ∧ s.seqClocked = true ∧
    (s.seq q.val).begun = some b) ∧
    (∃ (s : State) (q : Fin 5), s.seqRunning q.val = true ∧ s.seqClocked = true) ∧
    (∃ (s : State) (q : Fin 5), s.seqRunning q.val = false ∧ s.bit (Reg.SEQ_CTL q) 0 = false ∧
    s.scalesOk q.val = true ∧
    (let u := ((s.putBit (Reg.SEQ_CTL q) 0 true).setFld (Reg.SEQ_STS q) 3 1 0).seqStart q.val; u.seqClocked = false)) ∧
    (∃ (s : State) (q : Fin 5), s.seqRunning q.val = false ∧ s.bit (Reg.SEQ_CTL q) 0 = false ∧
    s.scalesOk q.val = true ∧
    (let u := ((s.putBit (Reg.SEQ_CTL q) 0 true).setFld (Reg.SEQ_STS q) 3 1 0).seqStart q.val; u.seqClocked = true)) ∧
    (∃ (s : State) (q : Fin 5), s.seqRunning q.val = true) ∧
    (∃ (s : State) (q : Fin 5), s.seqRunning q.val = false) :=
  ⟨⟨((seqAt 4 []).setSeq 4 { (seqAt 4 []).seq 4 with begun := some default }), 4, default, by decide +kernel⟩,
    ⟨(seqAt 4 []), 4, by decide +kernel⟩,
    ⟨(wAt [(Reg.PWR_STS, 1)]), 4, by decide +kernel⟩,
    ⟨State.reset, 4, by decide +kernel⟩,
    ⟨(seqAt 4 []), 4, by decide +kernel⟩,
    ⟨State.reset, 4, by decide +kernel⟩⟩

/-- The hypotheses of CanopyCompletes can be met, clause by clause. -/
theorem test_canopyCompletes_met :
    (∃ (s : State) (c : Fin 4), s.parityStopped (Reg.CAN_CTL c) = false ∧ s.decaySrc c.val ≠ 3 ∧
    (s.decaySrc c.val = 2 → 200 ≤ s.rdN (Reg.CAN_DECAY_PERIOD c) ∧ s.rdN (Reg.CAN_DECAY_PERIOD c) ≤ 1000000)) ∧
    (∃ (s : State) (c : Fin 4), (s.bit (Reg.CAN_STS c) 2 = true ∨ s.snapUndefined c.val = false)) ∧
    (∃ (s : State) (c : Fin 4) (p : Snap), (s.can c.val).snap = some p ∧ p.begun = true ∧ s.serves p.addr = true ∧
    s.idleOrLower = false) ∧
    (∃ (s : State) (c : Fin 4), s.decaySrc c.val = 2 ∧ s.bit (Reg.CAN_CTL c) 0 = true ∧ s.pairedOff c.val = false ∧
    s.elapsed (s.can c.val).since (usec (s.rdN (Reg.CAN_DECAY_PERIOD c))) = true) ∧
    (∃ (s : State), s.idleOrLower = false) ∧
    (∃ (s : State) (c : Fin 4), s.parityStopped (Reg.SPG_CTL c) = false ∧
    (s.bit (Reg.SPG_CTL c) 0 = true ∨ s.pairedOff c.val = true ∨ s.spgUndefined c.val = false)) ∧
    (∃ (s : State) (c : Fin 4) (l : List (BitVec 8)) (ts : BitVec 64) (trunc : Bool) (rest : List (List (BitVec 8) × BitVec 64 × Bool)), (s.spgCh c.val).lines = (l, ts, trunc) :: rest ∧
    s.serves (s.fld (Reg.SPG_RING c) 47 6 * 64) = true) ∧
    (∃ (s : State) (c : Fin 4) (l : List (BitVec 8)) (ts : BitVec 64) (trunc : Bool) (rest : List (List (BitVec 8) × BitVec 64 × Bool)), (s.spgCh c.val).lines = (l, ts, trunc) :: rest) :=
  ⟨⟨State.reset, 3, by decide +kernel⟩,
    ⟨(wAt [(Reg.CAN_STS 3, 4)]), 3, by decide +kernel⟩,
    ⟨(State.reset.setCan 3 { (default : CanopyChan) with snap := some { (default : Snap) with begun := true, addr := 263882824220672 } }),
    3, { (default : Snap) with begun := true, addr := 263882824220672 }, by decide +kernel⟩,
    ⟨{ wAt [(Reg.CAN_CFG 3, 16), (Reg.CAN_CTL 3, 1), (Reg.CAN_DECAY_PERIOD 3, 200)] with clk.up := usec 200 }, 3,
    by decide +kernel⟩,
    ⟨State.reset, by decide +kernel⟩,
    ⟨(wAt [(Reg.MEM_SIZE, 268435456), (Reg.SPG_RING 3, 67108864)]), 3, by decide +kernel⟩,
    ⟨((wAt [(Reg.SPG_RING 3, 263882824220672)]).setSpg 3 { (default : SpgChan) with lines := [([], 0, false)] }),
    3, [], 0, false, [], by decide +kernel⟩,
    ⟨(State.reset.setSpg 3 { (default : SpgChan) with lines := [([], 0, false)] }), 3, [], 0, false, [],
    by decide +kernel⟩⟩

/-- The hypotheses of DisplayCompletes can be met, clause by clause. -/
theorem test_displayCompletes_met :
    (∃ (s : State), s.parityStopped Reg.SCN_CTL = false ∧ (s.bit Reg.SCN_STS 0 = true ∨ (s.scnUndefined = false ∧
    s.planesBad s.scn.act = 0))) ∧
    (∃ (s : State) (psr : Bool) (msa : Bool), s.scn.training = true ∧
    (s.bit Reg.SCN_STS 0 = true ∨ ((s.bit Reg.SCN_CFG 7 = false ∨ msa = true) ∧
    (s.bit Reg.SCN_CFG 8 = false ∨ psr = true)))) ∧
    (∃ (s : State) (n : Fin 4096), s.scnClocked = true ∧ s.scn.blank = false ∧ n.val = s.scn.nextLine ∧
    n.val < s.scnActive ∧ s.scn.sending = true) ∧
    (∃ (s : State), s.scnClocked = true ∧ s.scn.blank = false ∧ s.scnActive ≤ s.scn.nextLine ∧
    s.planesUndefined = 0) ∧
    (∃ (s : State), s.scnClocked = true ∧ s.scn.extended = true ∧ s.planesUndefined = 0) ∧
    (∃ (s : State), s.scnClocked = true ∧ s.scn.blank = true ∧ s.scn.extended = false ∧ s.scn.stopping = false ∧
    s.scn.psrEnter ≠ 1 ∧ (s.scn.psrExit = false ∨ s.planesUndefined = 0)) ∧
    (∃ (s : State), s.scnClocked = true ∧ s.scn.blank = true ∧ s.scn.extended = false ∧ s.scn.stopping = true) ∧
    (∃ (s : State), s.bit Reg.SCN_CFG 6 = true ∧ s.bit Reg.SCN_STS 0 = true ∧ s.scn.timing = true) ∧
    (∃ (s : State), s.bit Reg.SCN_CFG 6 = true ∧ s.bit Reg.SCN_STS 0 = true ∧ s.scn.timing = false) ∧
    (∃ (s : State), s.bit Reg.SCN_CFG 6 = true ∧ s.scn.timing = true ∧ s.bit Reg.SCN_STS 5 = false ∧
    s.elapsed s.scn.edgeAt (3 * s.lineLen * s.frameLines * 10240000000 / max 1 (s.rdN Reg.SCN_PIXCLK)) = true) :=
  ⟨⟨(wAt [(Reg.SCN_H_TIMING, 281479271743489), (Reg.SCN_V_TIMING, 281479271743489), (Reg.SCN_PIXCLK, 25000), (Reg.SCN_CFG, 1)]),
    by decide +kernel⟩,
    ⟨{ wAt [(Reg.SCN_STS, 1)] with scn.training := true }, false, false, by decide +kernel⟩,
    ⟨{ wAt [(Reg.SCN_V_TIMING, 281479271743489), (Reg.SCN_H_TIMING, 281479271743489), (Reg.SCN_PIXCLK, 25000)] with scn.timing := true, scn.link := true, scn.sending := true },
    0, by decide +kernel⟩,
    ⟨{ State.reset with scn.timing := true, scn.nextLine := 4096 }, by decide +kernel⟩,
    ⟨{ State.reset with scn.timing := true, scn.extended := true }, by decide +kernel⟩,
    ⟨{ State.reset with scn.timing := true, scn.blank := true }, by decide +kernel⟩,
    ⟨{ State.reset with scn.timing := true, scn.blank := true, scn.stopping := true }, by decide +kernel⟩,
    ⟨{ wAt [(Reg.SCN_CFG, 64), (Reg.SCN_STS, 1)] with scn.timing := true }, by decide +kernel⟩,
    ⟨(wAt [(Reg.SCN_CFG, 64), (Reg.SCN_STS, 1)]), by decide +kernel⟩,
    ⟨{ wAt [(Reg.SCN_H_TIMING, 281479271743489), (Reg.SCN_V_TIMING, 281479271743489), (Reg.SCN_PIXCLK, 25000), (Reg.SCN_CFG, 64)] with scn.timing := true, clk.up := 3 * 4 * 4 * 10240000000 / 25000 },
    by decide +kernel⟩⟩

/-- The hypotheses of TimuCompletes can be met, clause by clause. -/
theorem test_timuCompletes_met :
    (∃ (s : State) (i : Fin 64) (b : Fin 2) (up : Bool), s.power ≤ 1 ∧ s.cmpBad i.val = false ∧
    s.timBad i.val (b2n (!up)) = false ∧ s.bit (Reg.CMP_STS i) (2 * b.val + 1) = false ∧
    s.bit (Reg.CMP_STS i) (2 * b.val) = !up ∧
    (let t := (s.putBit (Reg.CMP_STS i) (2 * b.val) up).winUpdate i.val; t.bit (Reg.CMP_STS i) 8 = false ∧
    t.fld (Reg.TIM_S_CFG i (b2n (!up))) 0 0 = b.val)) ∧
    (∃ (s : State) (i : Fin 64) (e : Fin 2) (p : TimStop) (r : List TimStop), (s.tstream i.val e.val).stops = p :: r ∧
    s.startsIn i.val e.val p.ts.t = true) ∧
    (∃ (s : State) (i : Fin 64) (e : Fin 2) (a : Stamp) (r : List Stamp), (s.tstream i.val e.val).starts = a :: r ∧
    (s.tstream i.val e.val).stops = [] ∧
    (s.rdN (Reg.TIM_S_PARAM i e) % 2 ^ 32 * 4096 : Int) < timeDiff (s.timSeen i.val s.sysNow) a.t) ∧
    (∃ (s : State) (i : Fin 64) (e : Fin 2) (g : TimGate), (s.tstream i.val e.val).gate = some g ∧ g.edge = false ∧
    (2 ^ 40 : Int) < timeDiff (s.timSeen i.val s.sysNow) g.opened.t) ∧
    (∃ (s : State) (i : Fin 64) (e : Fin 2), (s.idleOrLower = false ∨ s.timDraining = true) ∧
    s.timTurn = some (2 * i.val + e.val) ∧ s.timRingOk i.val e.val = true) ∧
    (∃ (s : State) (i : Fin 64) (e : Fin 2), (s.idleOrLower = false ∨ s.timDraining = true) ∧
    (s.tstream i.val e.val).batch.isEmpty = false ∧ s.elapsed (s.tstream i.val e.val).batchAt (usec 1) = true) ∧
    (∃ (s : State) (i : Fin 64), s.parityStopped (Reg.TIM_CTL i) = false ∧ s.timOn i.val = false) ∧
    (∃ (s : State) (i : Fin 64) (e : Fin 2) (v : BitVec 64), v.toNat % 16 = 0 ∧
    s.rdN (Reg.TIM_S_REL i e) ≤ v.toNat ∧ v.toNat ≤ s.rdN (Reg.TIM_S_PUB i e)) ∧
    (∃ (s : State), s.inlBad = false) ∧
    (∃ (s : State) (i : Fin 64), s.bit (Reg.TIM_STS i) 1 = true ∧ s.inlBad = false) ∧
    (∃ (s : State) (i : Fin 64) (v : BitVec 32), ((s.setFld (Reg.CMP_THR i) 13 0 v.toNat).setFld (Reg.CMP_THR i) 29 16 (v.toNat / 65536)).cmpBad i.val = false) ∧
    (∃ (s : State) (i : Fin 64), s.bit (Reg.CMP_STS i) 8 = true ∧ s.elapsed (s.tim i).settleAt (nsec 50) = true ∧
    s.power < 2) ∧
    (∃ (s : State) (i : Fin 64), s.bit (Reg.CMP_STS i) 8 = false ∧ (s.tim i).started = false ∧ s.stage ≠ 0 ∧
    s.power < 2) :=
  ⟨⟨(wAt [(Reg.TIM_S_CFG 63 0, 1)]), 63, 1, true, by decide +kernel⟩,
    ⟨(({ wAt [] with time := 8192 } : State).setTstream 63 1 { (default : TimStream) with stops := [default] }),
    63, 1, default, [], by decide +kernel⟩,
    ⟨(({ wAt [(Reg.TIM_S_PARAM 63 1, 1)] with time := 8193 } : State).setTstream 63 1 { (default : TimStream) with starts := [default] }),
    63, 1, default, [], by decide +kernel⟩,
    ⟨(({ wAt [] with time := 2 ^ 40 + 1 } : State).setTstream 63 1 { (default : TimStream) with gate := some { opened := default, n := 0, edge := false } }),
    63, 1, { opened := default, n := 0, edge := false }, by decide +kernel⟩,
    ⟨((wAt [(Reg.TIM_S_CFG 63 1, 8)]).setTstream 63 1 { (default : TimStream) with fifo := [default] }), 63, 1,
    by decide +kernel⟩,
    ⟨(({ wAt [] with clk.up := usec 1 } : State).setTstream 63 1 { (default : TimStream) with batch := [default] }),
    63, 1, by decide +kernel⟩,
    ⟨State.reset, 63, by decide +kernel⟩,
    ⟨(wAt [(Reg.TIM_S_PUB 63 1, 16)]), 63, 1, 16, by decide +kernel⟩,
    ⟨(wAt [(Reg.TIM_INL_CFG, 16)]), by decide +kernel⟩,
    ⟨(wAt [(Reg.TIM_STS 63, 2), (Reg.TIM_INL_CFG, 16)]), 63, by decide +kernel⟩,
    ⟨State.reset, 63, 0, by decide +kernel⟩,
    ⟨{ wAt [(Reg.CMP_STS 63, 256)] with clk.up := nsec 50 }, 63, by decide +kernel⟩,
    ⟨(wAt [(Reg.MGT_BOOT_STS, 4)]), 63, by decide +kernel⟩⟩

/-- The hypotheses of TrackerCompletes can be met, clause by clause. -/
theorem test_trackerCompletes_met :
    (∃ (s : State), s.parityStopped Reg.CCS_CTL = false ∧ s.ccsState = 0 ∧ s.fld Reg.CCS_CFG 9 8 ≠ 3) ∧
    (∃ (s : State), s.ccLocked = false) ∧
    (∃ (s : State), s.ccLocked = true) ∧
    (∃ (s : State), s.pllLocked 0 = true ∧ s.power ≤ 1 ∧ s.ccsState = 1) ∧
    (∃ (s : State), s.pllLocked 0 = true ∧ s.power ≤ 1 ∧ s.ccsState = 2) ∧
    (∃ (s : State), s.pllLocked 0 = true ∧ s.power ≤ 1 ∧ s.ccsState = 3) ∧
    (∃ (s : State), s.pllLocked 0 = true ∧ s.power ≤ 1 ∧ s.ccsState = 4) ∧
    (∃ (s : State), s.pllLocked 0 = true ∧ s.power ≤ 1 ∧ s.cycSpan ≤ (s.clk.up - s.ccs.cameAt) * 65536 ∧
    s.ccsState = 1) ∧
    (∃ (s : State), s.pllLocked 0 = true ∧ s.power ≤ 1 ∧ s.cycSpan ≤ (s.clk.up - s.ccs.cameAt) * 65536 ∧
    s.ccsState = 3) ∧
    (∃ (s : State), s.pllLocked 0 = true ∧ s.power ≤ 1 ∧ s.cycSpan ≤ (s.clk.up - s.ccs.cameAt) * 65536 ∧
    s.ccsState = 4) ∧
    (∃ (s : State), s.ccsState = 4 ∧
    s.fld Reg.CCS_HOLD_MAX 23 0 * (s.cycDiv * s.ccs.per) ≤ (s.clk.up - s.ccs.heldAt) * 65536) ∧
    (∃ (s : State), s.parityStopped Reg.CCS_WP_CTL = false) ∧
    (∃ (s : State) (v : BitVec 32), s.wpPending ≤ (v.toNat + 2 ^ 32 - s.wpHead) % 2 ^ 32 ∧
    (v.toNat + 2 ^ 32 - s.wpHead) % 2 ^ 32 ≤ 4096) :=
  ⟨⟨State.reset, by decide +kernel⟩,
    ⟨State.reset, by decide +kernel⟩,
    ⟨(wAt [(Reg.CCS_STS, 4)]), by decide +kernel⟩,
    ⟨(wAt [(Reg.CCS_STS, 1), (Reg.CLK_PLL_STS 0, 2)]), by decide +kernel⟩,
    ⟨(wAt [(Reg.CCS_STS, 2), (Reg.CLK_PLL_STS 0, 2)]), by decide +kernel⟩,
    ⟨(wAt [(Reg.CCS_STS, 3), (Reg.CLK_PLL_STS 0, 2)]), by decide +kernel⟩,
    ⟨(wAt [(Reg.CCS_STS, 4), (Reg.CLK_PLL_STS 0, 2)]), by decide +kernel⟩,
    ⟨{ wAt [(Reg.CCS_STS, 1), (Reg.CLK_PLL_STS 0, 2)] with clk.up := usec 4 }, by decide +kernel⟩,
    ⟨{ wAt [(Reg.CCS_STS, 3), (Reg.CLK_PLL_STS 0, 2)] with ccs.per := 16384, clk.up := 1 }, by decide +kernel⟩,
    ⟨{ wAt [(Reg.CCS_STS, 4), (Reg.CLK_PLL_STS 0, 2)] with ccs.per := 16384, clk.up := 1 }, by decide +kernel⟩,
    ⟨{ wAt [(Reg.CCS_STS, 4), (Reg.CCS_HOLD_MAX, 1), (Reg.CCS_CFG, 0)] with ccs.per := 65536, clk.up := 1 },
    by decide +kernel⟩,
    ⟨State.reset, by decide +kernel⟩,
    ⟨State.reset, 4096, by decide +kernel⟩⟩

/-- The hypotheses of SupplyCompletes can be met, clause by clause. -/
theorem test_supplyCompletes_met :
    (∃ (s : State) (u : Fin 20), s.parityStopped (supCtl u.val) = false ∧ s.supState u.val = 0 ∧
    s.supUndefined u.val = 0) ∧
    (∃ (s : State) (u : Fin 20), s.supRuns = true ∧ s.supState u.val ≠ 0 ∧ s.supSrc u.val = 1 ∧
    atOrAfter s.time (s.supu u.val).timerAt = true) ∧
    (∃ (s : State) (u : Fin 20), s.supRuns = true ∧ s.supState u.val = 2 ∧
    atOrAfter s.time (s.supu u.val).go = true ∧ 16 ≤ u.val) ∧
    (∃ (s : State) (u : Fin 20), s.supRuns = true ∧ s.supState u.val = 2 ∧
    atOrAfter s.time (s.supu u.val).go = true ∧ u.val < 16) ∧
    (∃ (s : State) (g : Fin 16) (volts : List (Fin 64 × Int)) (codes : List (Nat × Nat)), s.stepDue g.val = true ∧
    s.stepCodes g.val volts (s.nextStep g.val) = some codes) ∧
    (∃ (s : State) (g : Fin 16) (st : SupStep) (r : List SupStep), (s.supu g.val).steps = st :: r ∧
    s.supState g.val = 3 ∧ atOrAfter s.time st.ends = true) ∧
    (∃ (s : State) (x : Fin 4) (si : Fin 64) (t0 : Stamp) (t1 : Nat), s.windowStart (16 + x.val) = some t0 ∧
    s.windowEnding (16 + x.val) = some t1 ∧ s.supState (16 + x.val) = 3 ∧ atOrAfter s.time t1 = true ∧
    s.fld (supCfg (16 + x.val)) 5 0 = si.val) ∧
    (∃ (s : State) (x : Fin 4), s.supState (16 + x.val) = 3 ∧ s.icLine (16 + x.val) = true ∧
    (s.supu (16 + x.val)).ending = none ∧ s.passed (s.supu (16 + x.val)).since (msec 100) = true) ∧
    (∃ (s : State) (b : Nat), s.mon.base = some b ∧ 2 ≤ s.monTick ∧
    atOrAfter s.time (s.monTime b s.mon.ticks) = true ∧ s.mon.ticks < s.mon.periods * s.monPeriod ∧
    s.supRuns = true) ∧
    (∃ (s : State) (w : Fin 16) (si : Fin 64), s.mon.watch.testBit w.val = true ∧ s.monOn w.val = true ∧
    s.passed s.mon.tickAt (usec 1) = true ∧ s.fld (Reg.CMP_MON_CFG w) 5 0 = si.val) ∧
    (∃ (s : State) (b : Nat), s.mon.base = some b ∧
    atOrAfter s.time (s.monTime b (s.mon.periods * s.monPeriod)) = true ∧ s.supRuns = true) :=
  ⟨⟨(wAt []), 15, by decide +kernel⟩,
    ⟨(wAt [(Reg.CLK_PLL_STS 0, 2), (Reg.SUP_G_STS 15, 1), (Reg.SUP_G_CFG 15, 32)]), 15, by decide +kernel⟩,
    ⟨(wAt [(Reg.CLK_PLL_STS 0, 2), (Reg.SUP_IC_STS 3, 2)]), 19, by decide +kernel⟩,
    ⟨(wAt [(Reg.CLK_PLL_STS 0, 2), (Reg.SUP_G_STS 15, 2)]), 15, by decide +kernel⟩,
    ⟨{ wAt [(Reg.CLK_PLL_STS 0, 2), (Reg.SUP_G_STS 15, 3)] with time := (wAt []).ticks 5000 }, 15, [(0, 0)],
    [(0, 0)], by decide +kernel⟩,
    ⟨((wAt [(Reg.SUP_G_STS 15, 3)]).setSup 15 { (default : SupUnit) with steps := [default] }), 15, default, [],
    by decide +kernel⟩,
    ⟨(({ wAt [(Reg.SUP_IC_STS 3, 3)] with time := 5 } : State).setSup 19 { (default : SupUnit) with start := some default, ending := some 5 }),
    3, 0, default, 5, by decide +kernel⟩,
    ⟨{ wAt [(Reg.SUP_IC_STS 3, 3), (Reg.SUP_IC_CFG 3, 0)] with time := msec 100 }, 3, by decide +kernel⟩,
    ⟨{ wAt [(Reg.CLK_PLL_STS 0, 2), (Reg.CMP_MON_TICK, 2)] with mon.base := some 0, mon.periods := 1 }, 0,
    by decide +kernel⟩,
    ⟨{ wAt [(Reg.CMP_MON_CTL 15, 1)] with mon.watch := 0x8000, time := (wAt []).ticks 2500 }, 15, 0,
    by decide +kernel⟩,
    ⟨{ wAt [(Reg.CLK_PLL_STS 0, 2), (Reg.CMP_MON_TICK, 2)] with mon.base := some 0, mon.periods := 1, time := (wAt []).ticks 5000 },
    0, by decide +kernel⟩⟩

/-- The hypotheses of MemoryCompletes can be met, clause by clause. -/
theorem test_memoryCompletes_met :
    (∃ (s : State), s.parityStopped Reg.MEM_CTL = false ∧ s.fld Reg.MEM_CFG 1 0 ≠ 3 ∧
    rateOk (s.fld Reg.MEM_CFG 6 2) = true ∧ (s.putBit Reg.MEM_CTL 0 true).memState = 5) ∧
    (∃ (s : State), s.parityStopped Reg.MEM_CTL = false ∧ s.fld Reg.MEM_CFG 1 0 ≠ 3 ∧
    rateOk (s.fld Reg.MEM_CFG 6 2) = true ∧ (s.putBit Reg.MEM_CTL 0 true).memState = 0) ∧
    (∃ (s : State), let u := (s.parityFree Reg.MEM_CTL).putBit Reg.MEM_CTL 0 false; (u.memState = 4 ∨ u.memState = 7)) ∧
    (∃ (s : State) (late : Fin 8), s.memState = 1 ∧ late ≠ 1) ∧
    (∃ (s : State), (s.memState = 2 ∨ s.memState = 3) ∧ s.pllLocked 4 = true) ∧
    (∃ (s : State), s.memState = 4) ∧
    (∃ (s : State) (sel : Fin 32), let t := (s.setFld Reg.MEM_RATE_REQ 4 0 sel.val).probesEnd; rateOk sel.val = true ∧
    t.memState = 4 ∧ t.ddr.probing = []) ∧
    (∃ (s : State) (rd : List (List Nat)) (wr : List (List Nat)) (bad : BitVec 16) (late : Fin 8) (st : Nat) (d : Nat) (l : Nat), s.memState = 7 ∧
    s.pllLocked 4 = true ∧ (⟨rd, wr, bad.toNat, late⟩ : Sweep).failure 4 = some (st, d, l)) ∧
    (∃ (s : State) (rd : List (List Nat)) (wr : List (List Nat)) (bad : BitVec 16) (late : Fin 8), s.memState = 7 ∧
    s.pllLocked 4 = true ∧ (⟨rd, wr, bad.toNat, late⟩ : Sweep).failure 4 = none) ∧
    (∃ (s : State) (d : Fin 16) (found : ProbeFind) (x : Nat) (b : Nat), let u := s.probesEnd.memArrive found.segs; u.memState = 4 ∧
    u.bit Reg.MEM_CTL 2 = true ∧ (u.ddr.probes.find? fun p => p.1 == d.val) = none ∧
    (u.ddr.refreshed.find? fun r => r.1 == d.val) = some (x, b) ∧ u.probed d.val = false ∧
    u.picks d.val (u.probeSeg d.val b) = true) ∧
    (∃ (s : State) (d : Fin 16) (b : Fin 16) (x : RefreshFind), let u := s.probesEnd.reportTemp d.val x.temp; let k := d.val * 16 + b.val; let waits := (u.waiting d.val).any fun g => ddrBank g.addr == b.val; s.probesEnd.memState = 4 ∧
    (x.busy = true ∨ u.probed d.val = true ∨ (u.debt k < 4 ∧ waits = true))) ∧
    (∃ (s : State) (d : Fin 16) (b : Fin 16) (x : RefreshFind), let u := s.probesEnd.reportTemp d.val x.temp; let k := d.val * 16 + b.val; let waits := (u.waiting d.val).any fun g => ddrBank g.addr == b.val; s.probesEnd.memState = 4 ∧
    x.busy = false ∧ u.probed d.val = false ∧ u.debt k < 4 ∧ waits = false) ∧
    (∃ (s : State) (d : Fin 16) (b : Fin 16) (x : RefreshFind), let u := s.probesEnd.reportTemp d.val x.temp; let k := d.val * 16 + b.val; s.probesEnd.memState = 4 ∧
    x.busy = false ∧ u.probed d.val = false ∧ 4 ≤ u.debt k) ∧
    (∃ (s : State) (segs : List MemSeg) (g : MemSeg), (s.probesEnd.memArrive segs).memState = 4 ∧
    (s.probesEnd.memArrive segs).probed 15 = false ∧
    (s.probesEnd.memArrive segs).chooseVisit 15 ((s.probesEnd.memArrive segs).waiting 15) = .segment g) ∧
    (∃ (s : State) (b : Nat), (s.probesEnd.memArrive []).memState = 4 ∧ (s.probesEnd.memArrive []).probed 15 = false ∧
    (s.probesEnd.memArrive []).chooseVisit 15 ((s.probesEnd.memArrive []).waiting 15) = .refresh b) ∧
    (∃ (s : State) (x : PatrolFind), let u := s.probesEnd.memArrive x.segs; let d := ddrDevice u.ddr.patrol; u.memState = 4 ∧
    u.bit Reg.MEM_CTL 3 = true ∧ u.probed d = false ∧ u.picks d u.patrolSeg = true) ∧
    (∃ (s : State), s.power < 2 ∧ 0 < s.fld Reg.SRM_SCRUB 15 0 ∧ s.bit Reg.SRM_PART 4 = true ∧
    s.elapsed s.ddr.scrubAt (msec (s.fld Reg.SRM_SCRUB 15 0)) = true) ∧
    (∃ (a : Nat), a < 2 ^ 36) ∧
    (∃ (x : DdrPlace), x.dev < 16 ∧ x.bank < 16 ∧ x.row < 2 ^ 17 ∧ x.col < 2048) :=
  ⟨⟨(wAt [(Reg.MEM_STS, 5), (Reg.MEM_CFG, 32)]), by decide +kernel⟩,
    ⟨(wAt [(Reg.MEM_CFG, 32)]), by decide +kernel⟩,
    ⟨(wAt [(Reg.MEM_STS, 4)]), by decide +kernel⟩,
    ⟨(wAt [(Reg.MEM_STS, 1)]), 0, by decide +kernel⟩,
    ⟨(wAt [(Reg.MEM_STS, 3), (Reg.CLK_PLL_STS 4, 2)]), by decide +kernel⟩,
    ⟨(wAt [(Reg.MEM_STS, 4)]), by decide +kernel⟩,
    ⟨(wAt [(Reg.MEM_STS, 4)]), 16, by decide +kernel⟩,
    ⟨(wAt [(Reg.MEM_STS, 7), (Reg.CLK_PLL_STS 4, 2)]), [], [], 0, 1, 1, 0, 0, by decide +kernel⟩,
    ⟨(wAt [(Reg.MEM_STS, 7), (Reg.CLK_PLL_STS 4, 2)]), (List.replicate 64 (List.replicate 8 0xFFFF)),
    (List.replicate 64 (List.replicate 8 0xFFFF)), 0, 0, by decide +kernel⟩,
    ⟨{ wAt [(Reg.MEM_STS, 4), (Reg.MEM_CTL, 4)] with ddr.refreshed := [(15, 5)] }, 15, default, 15, 5,
    by decide +kernel⟩,
    ⟨(wAt [(Reg.MEM_STS, 4)]), 15, 15, ⟨true, 250⟩, by decide +kernel⟩,
    ⟨(wAt [(Reg.MEM_STS, 4)]), 15, 15, ⟨false, 250⟩, by decide +kernel⟩,
    ⟨(wAt [(Reg.MEM_STS, 4)]).setDebt 255 4, 15, 15, ⟨false, 250⟩, by decide +kernel⟩,
    ⟨(wAt [(Reg.MEM_STS, 4)]), [⟨.dma, 15 * 256, 32, false, 0⟩], ⟨.dma, 15 * 256, 32, false, 0⟩, by decide +kernel,
    by decide +kernel, rfl⟩,
    ⟨(wAt [(Reg.MEM_STS, 4)]).setDebt 255 1, 15, by decide +kernel, by decide +kernel, rfl⟩,
    ⟨(wAt [(Reg.MEM_STS, 4), (Reg.MEM_CTL, 8)]), default, by decide +kernel⟩,
    ⟨{ wAt [(Reg.SRM_SCRUB, 1), (Reg.SRM_PART, 16)] with clk.up := msec 1 }, by decide +kernel⟩,
    ⟨7, by decide +kernel⟩,
    ⟨⟨15, 15, 131071, 2047⟩, by decide +kernel⟩⟩

/-- The hypotheses of QueuesComplete can be met, clause by clause. -/
theorem test_queuesComplete_met :
    (∃ (s : State) (q : Fin 65536), ((s.queue q.val).isSome = true ∨ s.contextOk q.val = true)) ∧
    (∃ (s : State) (q : Fin 65536) (v : BitVec 32), s.tailBad q.val v.toNat = false) ∧
    (∃ (s : State) (q : Fin 65536) (v : BitVec 32), s.headBad q.val v.toNat = false) ∧
    (∃ (s : State) (ch : Fin 128), s.dmaStartBad ch.val = false) ∧
    (∃ (s : State) (ch : Fin 128) (data : List (BitVec 8)), s.dmaMoves ch.val = true ∧ s.descUndefined ch.val = 0 ∧
    s.lastHandoverBad ch.val = false ∧ s.descDead (s.desc ch.val) = false ∧
    (s.desc ch.val).delivers ((s.desc ch.val).len - s.rdN (Reg.QDM_CH_OFFSET ch)) data = true) ∧
    (∃ (s : State) (ch : Fin 128) (cause : Fin 8) (n : Nat) (data : List (BitVec 8)), s.dmaMoves ch.val = true ∧
    1 ≤ cause.val ∧ cause.val ≤ 5 ∧ s.descUndefined ch.val = 0 ∧ s.lastHandoverBad ch.val = false ∧
    n ≤ (s.desc ch.val).len - s.rdN (Reg.QDM_CH_OFFSET ch) ∧ (s.desc ch.val).delivers n data = true) ∧
    (∃ (s : State) (ch : Fin 128), s.dmaState ch.val = 0) ∧
    (∃ (s : State) (ch : Fin 128), s.dmaState ch.val = 4) ∧
    (∃ (s : State) (ch : Fin 128), s.dmaState ch.val = 3 ∧
    (s.dmaMoves ch.val = false ∨ s.descUndefined ch.val = 0) ∧ (s.dmaChan ch.val).offPending = false ∧
    s.dmaHolds ch.val = true) ∧
    (∃ (s : State) (ch : Fin 128), let u := s.putBit (Reg.QDM_CH_CTL ch) 1 false; u.dmaHolds ch.val = true) ∧
    (∃ (s : State) (ch : Fin 128), let u := s.putBit (Reg.QDM_CH_CTL ch) 1 false; u.dmaHolds ch.val = false ∧
    u.resumeBad ch.val = false) :=
  ⟨⟨(State.reset.wrBytes (64 * 65535) (leBytes 8 263882824220672 ++ leBytes 8 263882824286208 ++ [4])), 65535,
    by decide +kernel⟩,
    ⟨{ State.reset with queues := [(65535, { (default : QueueLive) with depth := 4, prodSw := true, tail := 1 })] },
    65535, 4, by decide +kernel⟩,
    ⟨{ State.reset with queues := [(65535, { (default : QueueLive) with depth := 4, prodSw := true, tail := 1 })] },
    65535, 1, by decide +kernel⟩,
    ⟨State.reset, 127, by decide +kernel⟩,
    ⟨((wAt [(Reg.QDM_CH_STS 127, 2), (Reg.QDM_CH_BASE 127, 263882824220672), (Reg.QDM_CH_COUNT 127, 1)]).wrBytes 263882824220672 (leBytes 8 263882824220736 ++ leBytes 8 263882824220800 ++ leBytes 4 1 ++ leBytes 4 0)),
    127, [], by decide +kernel⟩,
    ⟨((wAt [(Reg.QDM_CH_STS 127, 2), (Reg.QDM_CH_BASE 127, 263882824220672), (Reg.QDM_CH_COUNT 127, 1)]).wrBytes 263882824220672 (leBytes 8 263882824220736 ++ leBytes 8 263882824220800 ++ leBytes 4 1 ++ leBytes 4 0)),
    127, 5, 1, [], by decide +kernel⟩,
    ⟨State.reset, 127, by decide +kernel⟩,
    ⟨(wAt [(Reg.QDM_CH_STS 127, 4)]), 127, by decide +kernel⟩,
    ⟨(wAt [(Reg.QDM_CH_STS 127, 3), (Reg.QDM_CH_CTL 127, 2)]), 127, by decide +kernel⟩,
    ⟨(State.reset.setDma 127 { (default : DmaChan) with devPaused := true }), 127, by decide +kernel⟩,
    ⟨State.reset, 127, by decide +kernel⟩⟩

/-- The hypotheses of WaypointActionsComplete can be met, clause by clause. -/
theorem test_waypointActionsComplete_met :
    (∃ (s : State) (t : Nat) (j : Fin 64), let n := (s.wpHead + j.val) % 2 ^ 32; s.wpRuns = true ∧
    j.val < s.wpPending ∧ getF (s.wpWord n 1) 3 0 = 7 ∧ wpReserved (s.wpWord n 1) = false ∧
    s.wpTarget n = some t ∧ s.wpReached n t (s.fld Reg.CCS_WP_CFG 16 1 * 4096) = true) ∧
    (∃ (s : State) (t : Nat), let n := s.wpHead; let w := s.wpWord n 1; s.wpRuns = true ∧ s.wpPending ≠ 0 ∧
    s.wpTarget n = some t ∧ s.wpReached n t 0 = true ∧ s.wpFull = false ∧ wpReserved w = false ∧
    timeDiff s.sysNow t < (s.lastTick : Int) ∧ getF w 3 0 = 0) ∧
    (∃ (s : State) (t : Nat), let n := s.wpHead; let w := s.wpWord n 1; s.wpRuns = true ∧ s.wpPending ≠ 0 ∧
    s.wpTarget n = some t ∧ s.wpReached n t 0 = true ∧ s.wpFull = false ∧ wpReserved w = false ∧
    timeDiff s.sysNow t < (s.lastTick : Int) ∧ getF w 3 0 = 1) ∧
    (∃ (s : State) (t : Nat), let n := s.wpHead; let w := s.wpWord n 1; s.wpRuns = true ∧ s.wpPending ≠ 0 ∧
    s.wpTarget n = some t ∧ s.wpReached n t 0 = true ∧ s.wpFull = false ∧ wpReserved w = false ∧
    timeDiff s.sysNow t < (s.lastTick : Int) ∧ getF w 3 0 = 2) ∧
    (∃ (s : State) (t : Nat), let n := s.wpHead; let w := s.wpWord n 1; s.wpRuns = true ∧ s.wpPending ≠ 0 ∧
    s.wpTarget n = some t ∧ s.wpReached n t 0 = true ∧ s.wpFull = false ∧ wpReserved w = false ∧
    timeDiff s.sysNow t < (s.lastTick : Int) ∧ getF w 3 0 = 3) ∧
    (∃ (s : State) (t : Nat), let n := s.wpHead; let w := s.wpWord n 1; s.wpRuns = true ∧ s.wpPending ≠ 0 ∧
    s.wpTarget n = some t ∧ s.wpReached n t 0 = true ∧ s.wpFull = false ∧ wpReserved w = false ∧
    timeDiff s.sysNow t < (s.lastTick : Int) ∧ getF w 3 0 = 4) ∧
    (∃ (s : State) (t : Nat), let n := s.wpHead; let w := s.wpWord n 1; s.wpRuns = true ∧ s.wpPending ≠ 0 ∧
    s.wpTarget n = some t ∧ s.wpReached n t 0 = true ∧ s.wpFull = false ∧ wpReserved w = false ∧
    timeDiff s.sysNow t < (s.lastTick : Int) ∧ getF w 3 0 = 5) ∧
    (∃ (s : State) (t : Nat), let n := s.wpHead; let w := s.wpWord n 1; s.wpRuns = true ∧ s.wpPending ≠ 0 ∧
    s.wpTarget n = some t ∧ s.wpReached n t 0 = true ∧ s.wpFull = false ∧ wpReserved w = false ∧
    timeDiff s.sysNow t < (s.lastTick : Int) ∧ getF w 3 0 = 6) ∧
    (∃ (s : State) (t : Nat), let n := s.wpHead; let w := s.wpWord n 1; s.wpRuns = true ∧ s.wpPending ≠ 0 ∧
    s.wpTarget n = some t ∧ s.wpReached n t 0 = true ∧ s.wpFull = false ∧ wpReserved w = false ∧
    timeDiff s.sysNow t < (s.lastTick : Int) ∧ getF w 3 0 = 7) :=
  ⟨⟨{ wAt [(Reg.CCS_WP_STS, 1), (Reg.CCS_WP_CFG, 1), (Reg.CCS_WP_TAIL, 64), (Reg.CCS_WP_TABLE 0 126, 5), (Reg.CCS_WP_TABLE 0 127, 7)] with time := 4096 },
    5, 63, by decide +kernel⟩,
    ⟨{ wAt [(Reg.CLK_PLL_STS 0, 2), (Reg.CCS_WP_STS, 1), (Reg.CCS_WP_CFG, 1), (Reg.CCS_WP_TAIL, 1), (Reg.CCS_WP_TABLE 0 0, 5), (Reg.CCS_WP_TABLE 0 1, 0)] with time := 4096 },
    5, by decide +kernel⟩,
    ⟨{ wAt [(Reg.CLK_PLL_STS 0, 2), (Reg.CCS_WP_STS, 1), (Reg.CCS_WP_CFG, 1), (Reg.CCS_WP_TAIL, 1), (Reg.CCS_WP_TABLE 0 0, 5), (Reg.CCS_WP_TABLE 0 1, 1)] with time := 4096 },
    5, by decide +kernel⟩,
    ⟨{ wAt [(Reg.CLK_PLL_STS 0, 2), (Reg.CCS_WP_STS, 1), (Reg.CCS_WP_CFG, 1), (Reg.CCS_WP_TAIL, 1), (Reg.CCS_WP_TABLE 0 0, 5), (Reg.CCS_WP_TABLE 0 1, 2)] with time := 4096 },
    5, by decide +kernel⟩,
    ⟨{ wAt [(Reg.CLK_PLL_STS 0, 2), (Reg.CCS_WP_STS, 1), (Reg.CCS_WP_CFG, 1), (Reg.CCS_WP_TAIL, 1), (Reg.CCS_WP_TABLE 0 0, 5), (Reg.CCS_WP_TABLE 0 1, 3)] with time := 4096 },
    5, by decide +kernel⟩,
    ⟨{ wAt [(Reg.CLK_PLL_STS 0, 2), (Reg.CCS_WP_STS, 1), (Reg.CCS_WP_CFG, 1), (Reg.CCS_WP_TAIL, 1), (Reg.CCS_WP_TABLE 0 0, 5), (Reg.CCS_WP_TABLE 0 1, 4)] with time := 4096 },
    5, by decide +kernel⟩,
    ⟨{ wAt [(Reg.CLK_PLL_STS 0, 2), (Reg.CCS_WP_STS, 1), (Reg.CCS_WP_CFG, 1), (Reg.CCS_WP_TAIL, 1), (Reg.CCS_WP_TABLE 0 0, 5), (Reg.CCS_WP_TABLE 0 1, 5)] with time := 4096 },
    5, by decide +kernel⟩,
    ⟨{ wAt [(Reg.CLK_PLL_STS 0, 2), (Reg.CCS_WP_STS, 1), (Reg.CCS_WP_CFG, 1), (Reg.CCS_WP_TAIL, 1), (Reg.CCS_WP_TABLE 0 0, 5), (Reg.CCS_WP_TABLE 0 1, 6)] with time := 4096 },
    5, by decide +kernel⟩,
    ⟨{ wAt [(Reg.CLK_PLL_STS 0, 2), (Reg.CCS_WP_STS, 1), (Reg.CCS_WP_CFG, 1), (Reg.CCS_WP_TAIL, 1), (Reg.CCS_WP_TABLE 0 0, 5), (Reg.CCS_WP_TABLE 0 1, 7)] with time := 4096 },
    5, by decide +kernel⟩⟩

/-- The hypotheses of PcieCompletes can be met, clause by clause. -/
theorem test_pcieCompletes_met :
    (∃ (s : State) (n : Fin 4), s.portRuns n.val = true ∧ s.linkUp n.val = false ∧ s.power ≤ 1 ∧
    s.pciRole n.val ≠ 1 ∧ s.pciRole n.val ≠ 3 ∧ s.fld (Reg.PCI_PORT_CFG n) 4 2 ≤ 5) ∧
    (∃ (s : State) (n : Fin 4) (devs : List PciDev), s.linkUp n.val = true ∧ s.drv.enum.testBit n.val = true ∧
    (devs = [] ∨ s.rpUndefined n.val = false)) ∧
    (∃ (s : State) (n : Fin 4) (bus : Fin 256) (x : PciSlot), s.linkUp n.val = true ∧ s.pciRole n.val = 1 ∧
    s.drv.enum.testBit n.val = false ∧ (s.drv.slots.find? fun x => x.port == n.val && x.bus == bus.val) = some x) ∧
    (∃ (s : State) (n : Fin 4), (s.isEndpoint n.val = false ∨ s.wakeUndefined 6 2 3 = false)) ∧
    (∃ (s : State) (n : Fin 4), s.pciRole n.val = 1 ∧ s.pwr.pg = 7 ∧ s.elapsed s.pwr.pgSince (msec 100) = true) ∧
    (∃ (s : State) (n : Fin 4), s.isEndpoint n.val = true ∧ s.linkUp n.val = true ∧ (s.epFn n.val).enabled = true ∧
    (s.epFn n.val).flr = false) ∧
    (∃ (s : State) (n : Fin 4), s.isEndpoint n.val = true ∧ s.linkUp n.val = true ∧ (s.epFn n.val).enabled = true) ∧
    (∃ (s : State) (n : Fin 4), (s.epFn n.val).flr = true) ∧
    (∃ (s : State) (n : Fin 4) (v : BitVec 64), s.pciRole n.val = 1 ∧ bitAt v 28 = false) ∧
    (∃ (s : State) (n : Fin 4), s.drv.acc.testBit n.val = true) :=
  ⟨⟨(wAt [(Reg.PCI_PORT_CFG 3, 2), (Reg.PCI_PORT_STS 3, 0)]), 3, by decide +kernel⟩,
    ⟨{ wAt [(Reg.PCI_PORT_CFG 3, 1), (Reg.PCI_PORT_STS 3, 1)] with drv.enum := 8 }, 3, [], by decide +kernel⟩,
    ⟨{ wAt [(Reg.PCI_PORT_CFG 3, 1), (Reg.PCI_PORT_STS 3, 1)] with drv.slots := [{ (default : PciSlot) with port := 3, bus := 7 }] },
    3, 7, { (default : PciSlot) with port := 3, bus := 7 }, by decide +kernel⟩,
    ⟨(wAt [(Reg.PCI_PORT_CFG 3, 1), (Reg.PCI_PORT_STS 3, 513)]), 3, by decide +kernel⟩,
    ⟨{ wAt [(Reg.PCI_PORT_CFG 3, 1), (Reg.PCI_PORT_STS 3, 0)] with pwr.en := 7, pwr.pg := 7, pwr.pgSince := 0, clk.up := msec 100 },
    3, by decide +kernel⟩,
    ⟨((wAt [(Reg.PCI_PORT_CFG 3, 2), (Reg.PCI_PORT_STS 3, 1)]).setEp 3 { (default : EpFn) with enabled := true }),
    3, by decide +kernel⟩,
    ⟨((wAt [(Reg.PCI_PORT_CFG 3, 2), (Reg.PCI_PORT_STS 3, 1)]).setEp 3 { (default : EpFn) with enabled := true }),
    3, by decide +kernel⟩,
    ⟨((wAt [(Reg.PCI_PORT_CFG 3, 2), (Reg.PCI_PORT_STS 3, 1)]).setEp 3 { (default : EpFn) with flr := true }), 3,
    by decide +kernel⟩,
    ⟨(wAt [(Reg.PCI_PORT_CFG 3, 1), (Reg.PCI_PORT_STS 3, 0)]), 3, 0, by decide +kernel⟩,
    ⟨{ State.reset with drv.acc := 8 }, 3, by decide +kernel⟩⟩

/-- The hypotheses of PcieAccessesComplete can be met, clause by clause. -/
theorem test_pcieAccessesComplete_met :
    (∃ (s : State) (n : Fin 4) (off : Nat) (len : Nat), let a := s.fld (Reg.PCI_EP_BAR2 n) 47 20 * 2 ^ 20 + off; 20 ≤ s.fld (Reg.PCI_EP_BAR2 n) 5 0 ∧
    s.fld (Reg.PCI_EP_BAR2 n) 5 0 ≤ 36 ∧ s.epServes n.val = true ∧ s.epWinBad n.val = false ∧
    off + len ≤ 2 ^ s.fld (Reg.PCI_EP_BAR2 n) 5 0 ∧ s.memOk a len = true ∧ s.epAllows n.val a len false = true) ∧
    (∃ (s : State) (n : Fin 4) (data : List (BitVec 8)) (off : Nat), let a := s.fld (Reg.PCI_EP_BAR2 n) 47 20 * 2 ^ 20 + off; 20 ≤ s.fld (Reg.PCI_EP_BAR2 n) 5 0 ∧
    s.fld (Reg.PCI_EP_BAR2 n) 5 0 ≤ 36 ∧ s.epServes n.val = true ∧ s.epWinBad n.val = false ∧
    off + data.length ≤ 2 ^ s.fld (Reg.PCI_EP_BAR2 n) 5 0 ∧ s.memOk a data.length = true ∧
    s.softWriteOk a data.length = true ∧ s.epAllows n.val a data.length true = true) ∧
    (∃ (s : State) (n : Fin 4) (addr : BitVec 64) (len : Nat), s.pciRole n.val = 1 ∧ s.linkUp n.val = true ∧
    s.portWaits n.val addr.toNat = false ∧ addr.toNat + len ≤ 2 ^ 48 ∧ s.memOk addr.toNat len = true) ∧
    (∃ (s : State) (n : Fin 4) (data : List (BitVec 8)) (addr : BitVec 64), s.pciRole n.val = 1 ∧
    s.linkUp n.val = true ∧ s.portWaits n.val addr.toNat = false ∧ addr.toNat + data.length ≤ 2 ^ 48 ∧
    s.memOk addr.toNat data.length = true ∧ s.memWriteOk addr.toNat data.length = true ∧
    s.contextHit addr.toNat data.length = false) ∧
    (∃ (s : State) (n : Fin 4) (data : List (BitVec 8)) (off : Fin 65536), s.epServes n.val = true ∧
    0x8000 ≤ off.val ∧ off.val < 0xC000 ∧ off.val % 16 = 0 ∧ data.length = 8 ∧ (s.epFn n.val).msixEnable = false) ∧
    (∃ (s : State) (n : Fin 4) (data : List (BitVec 8)) (off : Fin 65536), s.epServes n.val = true ∧
    off.val < 0x8000 ∧ off.val % 8 = 0 ∧ data.length = 8 ∧ s.doorbellUndefined (BitVec.ofNat 64 (ofLe data)) = 0) ∧
    (∃ (s : State) (n : Fin 4) (x : Fin 4) (st : Nat) (place : Fin 16) (off : Nat) (len : Nat) (k : DrvBlock), s.pciRole n.val = 1 ∧
    s.linkUp n.val = true ∧ off + len ≤ 131072 ∧ place.val < s.dData x.val ∧
    (s.drv.journal.find? fun k => k.set == x.val && k.b == st * s.dData x.val + place.val) = some k) :=
  ⟨⟨((wAt [(Reg.PCI_PORT_CFG 3, 2), (Reg.PCI_PORT_STS 3, 1), (Reg.PCI_EP_BAR2 3, 263882824220692), (Reg.PROT_EP_WIN 3 15, 9223635919678996692)]).setEp 3 { (default : EpFn) with enabled := true, memSpace := true }),
    3, 0, 4, by decide +kernel⟩,
    ⟨((wAt [(Reg.PCI_PORT_CFG 3, 2), (Reg.PCI_PORT_STS 3, 1), (Reg.PCI_EP_BAR2 3, 263882824220692), (Reg.PROT_EP_WIN 3 15, 9223635919678996692)]).setEp 3 { (default : EpFn) with enabled := true, memSpace := true }),
    3, [1, 2], 0, by decide +kernel⟩,
    ⟨(wAt [(Reg.PCI_PORT_CFG 3, 1), (Reg.PCI_PORT_STS 3, 1), (Reg.MEM_STS, 4)]), 3, 263882824220672, 4,
    by decide +kernel⟩,
    ⟨(wAt [(Reg.PCI_PORT_CFG 3, 1), (Reg.PCI_PORT_STS 3, 1)]), 3, [1, 2], 263882824220672, by decide +kernel⟩,
    ⟨((wAt [(Reg.PCI_PORT_CFG 3, 2), (Reg.PCI_PORT_STS 3, 1), (Reg.PCI_EP_BAR2 3, 263882824220692), (Reg.PROT_EP_WIN 3 15, 9223635919678996692)]).setEp 3 { (default : EpFn) with enabled := true, memSpace := true }),
    3, List.replicate 8 0, 0xBFF0, by decide +kernel⟩,
    ⟨((wAt [(Reg.PCI_PORT_CFG 3, 2), (Reg.PCI_PORT_STS 3, 1), (Reg.PCI_EP_BAR2 3, 263882824220692), (Reg.PROT_EP_WIN 3 15, 9223635919678996692)]).setEp 3 { (default : EpFn) with enabled := true, memSpace := true }),
    3, [0, 0, 0, 0, 0, 0, 3, 0], 0, by decide +kernel⟩,
    ⟨{ wAt [(Reg.PCI_PORT_CFG 3, 1), (Reg.PCI_PORT_STS 3, 1)] with drv.journal := [{ (default : DrvBlock) with set := 3, b := 0 }] },
    3, 3, 0, 0, 131068, 4, { (default : DrvBlock) with set := 3, b := 0 }, by decide +kernel⟩⟩

/-- The hypotheses of DrivesComplete can be met, clause by clause. -/
theorem test_drivesComplete_met :
    (∃ (s : State) (port : Fin 4) (fn : Fin 32) (cookie : Nat) (c : Ctrl) (k : DrvCmd), s.ctrl port.val fn.val = some c ∧
    (c.cmds.find? fun e => e.cookie == cookie) = some k ∧ 3 ≤ c.phase) ∧
    (∃ (s : State) (port : Fin 4) (fn : Fin 32) (cookie : Nat) (c : Ctrl) (k : DrvCmd), s.ctrl port.val fn.val = some c ∧
    (c.cmds.find? fun e => e.cookie == cookie) = some k ∧ 3 ≤ c.phase ∧ k.sent = true ∧
    s.overdue k.sentAt (msec (s.fld Reg.DRV_CMD_TIMEOUT 31 0)) = true ∧ c.timeoutAt = none) ∧
    (∃ (s : State) (port : Fin 4) (fn : Fin 32) (c : Ctrl), s.ctrl port.val fn.val = some c ∧ c.phase = 1) ∧
    (∃ (s : State) (port : Fin 4) (fn : Fin 32) (c : Ctrl), s.ctrl port.val fn.val = some c ∧
    (c.phase = 1 ∨ c.phase = 2)) ∧
    (∃ (s : State) (port : Fin 4) (fn : Fin 32) (c : Ctrl), s.ctrl port.val fn.val = some c ∧ c.phase = 2) ∧
    (∃ (s : State) (port : Fin 4) (fn : Fin 32) (x : Nat) (m : Nat), s.memberOf port.val fn.val = some (x, m)) ∧
    (∃ (s : State), s.sinceNote s.drv.smartAt (msec 60000) = true) ∧
    (∃ (s : State) (x : Fin 4) (c : Fin 4) (e : Nat) (t : Nat), (s.dset x.val).marks[c].head? = some (e, t) ∧
    s.dState x.val = 2 ∧ 0 < s.untakenLen x.val c.val ∧
    s.elapsed t (usec (s.fld (Reg.DRV_SET_FLUSH x) 15 0)) = true ∧ (s.canTake x.val).2 = true) ∧
    (∃ (s : State) (x : Fin 4), s.bit (Reg.DRV_SET_CFG x) 12 = false ∧
    s.sinceNote (s.dset x.val).flushAt (usec (s.fld (Reg.DRV_SET_FLUSH x) 31 16)) = true) ∧
    (∃ (s : State) (x : Fin 4), s.dState x.val = 2 ∧ s.parityStopped (Reg.DRV_SET_CTL x) = false) ∧
    (∃ (s : State) (x : Fin 4) (init : Bool), s.dState x.val = 0 ∧ s.parityStopped (Reg.DRV_SET_CTL x) = false ∧
    s.setUndefined x.val = 0 ∧
    (let k := Reg.DRV_SET_STS x.val; let u := (s.putBit (Reg.DRV_SET_CTL x) 0 true).putBit (Reg.DRV_SET_CTL x) 2 init; let v := ((u.setFld k 9 7 0).putBit k 5 false).putBit k 6 false; let w := v.setDset x.val { v.dset x.val with init := init }; w.areaOk = true)) :=
  ⟨⟨{ wAt [] with drv.ctrls := [{ (default : Ctrl) with port := 3, fn := 31, phase := 3, cmds := [default] }] },
    3, 31, 0, { (default : Ctrl) with port := 3, fn := 31, phase := 3, cmds := [default] }, default,
    by decide +kernel⟩,
    ⟨{ wAt [(Reg.DRV_CMD_TIMEOUT, 1)] with drv.ctrls := [{ (default : Ctrl) with port := 3, fn := 31, phase := 3, cmds := [{ (default : DrvCmd) with sent := true }] }], clk.up := msec 1 + 4096 },
    3, 31, 0,
    { (default : Ctrl) with port := 3, fn := 31, phase := 3, cmds := [{ (default : DrvCmd) with sent := true }] },
    { (default : DrvCmd) with sent := true }, by decide +kernel⟩,
    ⟨{ wAt [] with drv.ctrls := [{ (default : Ctrl) with port := 3, fn := 31, phase := 1, cmds := [default] }] },
    3, 31, { (default : Ctrl) with port := 3, fn := 31, phase := 1, cmds := [default] }, by decide +kernel⟩,
    ⟨{ wAt [] with drv.ctrls := [{ (default : Ctrl) with port := 3, fn := 31, phase := 2, cmds := [default] }] },
    3, 31, { (default : Ctrl) with port := 3, fn := 31, phase := 2, cmds := [default] }, by decide +kernel⟩,
    ⟨{ wAt [] with drv.ctrls := [{ (default : Ctrl) with port := 3, fn := 31, phase := 2, cmds := [default] }] },
    3, 31, { (default : Ctrl) with port := 3, fn := 31, phase := 2, cmds := [default] }, by decide +kernel⟩,
    ⟨(wAt [(Reg.DRV_SET_CFG 3, 16), (Reg.DRV_MEMBER_STS 3 15, 4066)]), 3, 31, 3, 15, by decide +kernel⟩,
    ⟨State.reset, by decide +kernel⟩,
    ⟨(({ wAt [(Reg.DRV_SET_STS 3, 2), (Reg.DRV_SET_CFG 3, 258), (Reg.DRV_SET_FLUSH 3, 1), (Reg.MEM_STS, 4), (Reg.ACQ_PUB 3, 64)] with clk.up := usec 1 } : State).setDset 3 { (default : DrvSet) with marks := Vector.replicate 4 [(64, 0)], k := 1 }),
    3, 3, 64, 0, by decide +kernel⟩,
    ⟨State.reset, 3, by decide +kernel⟩,
    ⟨(wAt [(Reg.DRV_SET_STS 3, 2)]), 3, by decide +kernel⟩,
    ⟨(wAt [(Reg.DRV_AREA, 26), (Reg.MEM_SIZE, 67108864), (Reg.DRV_SET_CFG 3, 2)]), 3, false, by decide +kernel⟩⟩

/-- The hypotheses of FabricPortsComplete can be met, clause by clause. -/
theorem test_fabricPortsComplete_met :
    (∃ (s : State) (p : Fin 8), s.parityStopped (Reg.FAB_PORT_CTL p) = false ∧ s.portUndefined p.val = false) ∧
    (∃ (s : State), s.wakeUndefined 5 2 3 = false) ∧
    (∃ (s : State) (p : Fin 8), s.fpState p.val = 1 ∧ s.bit (Reg.FAB_LANE_STS (2 * p.val)) 10 = false ∧
    s.bit (Reg.FAB_LANE_STS (2 * p.val + 1)) 10 = false) ∧
    (∃ (s : State) (p : Fin 8), s.fpState p.val = 1 ∧ s.overdue (s.fport p.val).since (msec 20) = true) ∧
    (∃ (s : State) (p : Fin 8), s.fpState p.val = 2) ∧
    (∃ (s : State) (p : Fin 8), s.fpState p.val = 2 ∧ s.overdue (s.fport p.val).since (msec 1) = true ∧
    s.bit (Reg.FAB_PORT_CTL p) 3 = false) ∧
    (∃ (s : State) (p : Fin 8), s.fpState p.val = 3) ∧
    (∃ (s : State) (p : Fin 8), s.fpState p.val = 3 ∧ s.overdue (s.fport p.val).since (usec 100) = true) ∧
    (∃ (s : State) (p : Fin 8), s.fpState p.val = 6 ∧ s.elapsed (s.fport p.val).since (msec 10) = true) ∧
    (∃ (s : State) (p : Fin 8), s.fpUp p.val = true) ∧
    (∃ (s : State) (p : Fin 8) (t : Nat), (s.fport p.val).fullSince = some t ∧ s.fpUp p.val = true ∧
    s.elapsed t (msec 1) = true) ∧
    (∃ (s : State) (p : Fin 8), s.fpUp p.val = true ∧ s.sinceNote (s.fport p.val).helloAt (usec 10) = true) ∧
    (∃ (s : State) (p : Fin 8) (k : FabPkt), s.fpUp p.val = true ∧ k.body.type = 0) ∧
    (∃ (s : State) (p : Fin 8) (k : FabPkt), s.fpUp p.val = true ∧ k.body.type = 2) ∧
    (∃ (s : State) (p : Fin 8) (k : FabPkt), s.fpUp p.val = true ∧ k.body.type = 3) ∧
    (∃ (s : State) (p : Fin 8) (k : FabPkt), s.fpUp p.val = true ∧ k.body.type = 4) ∧
    (∃ (s : State) (p : Fin 8) (k : FabPkt), s.fpUp p.val = true ∧ k.body.type = 5) ∧
    (∃ (s : State) (p : Fin 8) (k : FabPkt), s.fpUp p.val = true ∧ k.body.type = 1) ∧
    (∃ (s : State) (p : Fin 8), let x := s.fport p.val; s.fpUp p.val = true ∧ s.bit (Reg.FAB_PORT_CTL p) 8 = true ∧
    s.pllLocked 0 = true ∧ s.sinceNote x.timeAt (4096 * 4096 - 4096) = true) :=
  ⟨⟨State.reset, 7, by decide +kernel⟩,
    ⟨State.reset, by decide +kernel⟩,
    ⟨(wAt [(Reg.FAB_PORT_STS 7, 1)]), 7, by decide +kernel⟩,
    ⟨(({ wAt [(Reg.FAB_PORT_STS 7, 1)] with clk.up := msec 20 + 4096 } : State).setFport 7 default), 7,
    by decide +kernel⟩,
    ⟨(wAt [(Reg.FAB_PORT_STS 7, 2)]), 7, by decide +kernel⟩,
    ⟨(({ wAt [(Reg.FAB_PORT_STS 7, 2)] with clk.up := msec 1 + 4096 } : State).setFport 7 default), 7,
    by decide +kernel⟩,
    ⟨(wAt [(Reg.FAB_PORT_STS 7, 3)]), 7, by decide +kernel⟩,
    ⟨(({ wAt [(Reg.FAB_PORT_STS 7, 3)] with clk.up := usec 100 + 4096 } : State).setFport 7 default), 7,
    by decide +kernel⟩,
    ⟨(({ wAt [(Reg.FAB_PORT_STS 7, 6)] with clk.up := msec 10 } : State).setFport 7 default), 7,
    by decide +kernel⟩,
    ⟨(wAt [(Reg.FAB_PORT_STS 7, 4)]), 7, by decide +kernel⟩,
    ⟨(({ wAt [(Reg.FAB_PORT_STS 7, 4)] with clk.up := msec 1 } : State).setFport 7 { (default : FabPort) with fullSince := some 0 }),
    7, 0, by decide +kernel⟩,
    ⟨(wAt [(Reg.FAB_PORT_STS 7, 4)]), 7, by decide +kernel⟩,
    ⟨(wAt [(Reg.FAB_PORT_STS 7, 4)]), 7,
    { dst := 0, src := 1, ttl := 1, seq := 0, bcast := false, ack := none, body := .hello 0 0 0 0 false },
    by decide +kernel⟩,
    ⟨(wAt [(Reg.FAB_PORT_STS 7, 4)]), 7,
    { dst := 0, src := 1, ttl := 1, seq := 0, bcast := false, ack := none, body := .addrReq 0 none },
    by decide +kernel⟩,
    ⟨(wAt [(Reg.FAB_PORT_STS 7, 4)]), 7,
    { dst := 0, src := 1, ttl := 1, seq := 0, bcast := false, ack := none, body := .addrGrant 0 0 },
    by decide +kernel⟩,
    ⟨(wAt [(Reg.FAB_PORT_STS 7, 4)]), 7,
    { dst := 0, src := 1, ttl := 1, seq := 0, bcast := false, ack := none, body := .lsr 0 0 0 [] },
    by decide +kernel⟩,
    ⟨(wAt [(Reg.FAB_PORT_STS 7, 4)]), 7,
    { dst := 0, src := 1, ttl := 1, seq := 0, bcast := false, ack := none, body := .e2eAck 0 }, by decide +kernel⟩,
    ⟨(wAt [(Reg.FAB_PORT_STS 7, 4)]), 7,
    { dst := 0, src := 1, ttl := 1, seq := 0, bcast := false, ack := none, body := .time 0 0 }, by decide +kernel⟩,
    ⟨(wAt [(Reg.FAB_PORT_STS 7, 4), (Reg.FAB_PORT_CTL 7, 256), (Reg.CLK_PLL_STS 0, 2)]), 7, by decide +kernel⟩⟩

/-- The hypotheses of FabricCompletes can be met, clause by clause. -/
theorem test_fabricCompletes_met :
    (∃ (s : State), s.bit Reg.FAB_CTL 0 = false ∧ s.parityStopped Reg.FAB_CTL = false) ∧
    (∃ (s : State), s.fabState = 2 ∧ s.elapsed s.fab.stableSince (usec 100) = true ∧ s.isRoot = false) ∧
    (∃ (s : State) (a : Nat), s.fabState = 2 ∧ s.elapsed s.fab.stableSince (usec 100) = true ∧ s.isRoot = true ∧
    s.chooseAddr s.ownUid s.wantAddr (if s.bit Reg.FAB_ADDR 10 then some s.ownAddr else none) = some a) ∧
    (∃ (s : State), s.fabState = 3 ∧ s.elapsed s.fab.reqAt (msec 1) = true ∧
    (findTx s.rootUid 0 s.fab.tx).unacked ≠ []) ∧
    (∃ (s : State) (g : Grant) (d : Nat), g ∈ s.fab.grants ∧ g.leftAt = some d) ∧
    (∃ (s : State) (a : Fin 1024) (l : Lsr), (s.fab.lsrs.find? fun x => x.addr == a.val) = some l ∧
    l.uid ≠ s.ownUid ∧ s.elapsed l.heardAt (msec 300) = true) ∧
    (∃ (s : State), s.fab.routeDue = true) ∧
    (∃ (s : State) (uid : BitVec 56) (vc : Fin 3) (n : Nat) (a : Nat) (rx : List E2eRx), takeAck uid.toNat vc.val s.fab.rx = (some n, rx) ∧
    (let t : State := { s with fab := { s.fab with rx := rx } }; t.addrOfUid uid.toNat = some a)) ∧
    (∃ (s : State) (uid : BitVec 56) (vc : Fin 3) (e : E2eItem) (r : List E2eItem), (findTx uid.toNat vc.val s.fab.tx).unacked = e :: r ∧
    s.elapsed e.sentAt (usec (s.fld Reg.FAB_E2E_RTO 31 0)) = true) ∧
    (∃ (s : State) (uid : BitVec 56) (vc : Fin 3), let x := findTx uid.toNat vc.val s.fab.tx; let gone (e : E2eItem) : Bool := match e.lostAt with | some t => s.elapsed t (msec (s.fld Reg.FAB_UNREACH_MS 31 0)) | none => false; let n := (x.unacked.filter gone).length; n ≠ 0) ∧
    (∃ (s : State), s.timeState = 6 ∧ s.elapsed s.fab.holdSince (msec (s.fld Reg.FAB_TIME_CFG 28 13)) = true) :=
  ⟨⟨State.reset, by decide +kernel⟩,
    ⟨{ State.reset with regs := [(Reg.FAB_STS, 2), (Reg.FAB_ROOT, 5), (Reg.FAB_UID, 1), (Reg.FAB_CFG, 0)], clk.up := usec 100 },
    by decide +kernel⟩,
    ⟨{ State.reset with regs := [(Reg.FAB_STS, 2), (Reg.FAB_ROOT, 1), (Reg.FAB_UID, 1), (Reg.FAB_CFG, 0)], clk.up := usec 100 },
    0, by decide +kernel⟩,
    ⟨{ State.reset with regs := [(Reg.FAB_STS, 3), (Reg.FAB_ROOT, 5), (Reg.FAB_UID, 1), (Reg.FAB_CFG, 0)], clk.up := msec 1, fab.tx := [{ uid := 5, vc := 0, next := 1, unacked := [default], waiting := [] }] },
    by decide +kernel⟩,
    ⟨{ State.reset with fab.grants := [{ uid := 1, addr := 0, leftAt := some 0, free := true }] },
    { uid := 1, addr := 0, leftAt := some 0, free := true }, 0, by decide +kernel⟩,
    ⟨{ State.reset with regs := [(Reg.FAB_STS, 2), (Reg.FAB_ROOT, 5), (Reg.FAB_UID, 1), (Reg.FAB_CFG, 0)], clk.up := msec 300, fab.lsrs := [{ (default : Lsr) with addr := 1022, uid := 2 }] },
    1022, { (default : Lsr) with addr := 1022, uid := 2 }, by decide +kernel⟩,
    ⟨{ State.reset with fab.routeDue := true }, by decide +kernel⟩,
    ⟨{ State.reset with fab.rx := [{ uid := 2, vc := 2, next := 1, owes := true }], fab.lsrs := [{ (default : Lsr) with addr := 1022, uid := 2 }] },
    2, 2, 0, 1022, [{ uid := 2, vc := 2, next := 1, owes := false }], by decide +kernel⟩,
    ⟨{ wAt [(Reg.FAB_E2E_RTO, 1)] with clk.up := usec 1, fab.tx := [{ uid := 5, vc := 2, next := 1, unacked := [default], waiting := [] }] },
    5, 2, default, [], by decide +kernel⟩,
    ⟨{ wAt [(Reg.FAB_UNREACH_MS, 1)] with clk.up := msec 1, fab.tx := [{ uid := 5, vc := 2, next := 1, unacked := [{ (default : E2eItem) with lostAt := some 0 }], waiting := [] }] },
    5, 2, by decide +kernel⟩,
    ⟨{ wAt [(Reg.FAB_STS, 48), (Reg.FAB_TIME_CFG, 8192)] with clk.up := msec 1 }, by decide +kernel⟩⟩

/-- The hypotheses of ParallelWordsComplete can be met, clause by clause. -/
theorem test_parallelWordsComplete_met :
    ∃ (s : State) (k : Fin 32), let w := s.lntP k.val (s.lntPc k.val); s.lntReady k.val w ∧ w < 2 ^ 47 :=
  ⟨(lntAt 31 0), 31, by unfold State.lntReady; decide +kernel⟩

/-- The hypotheses of ControlWordsComplete can be met, clause by clause. -/
theorem test_controlWordsComplete_met :
    (∃ (s : State) (k : Fin 32), let w := s.lntP k.val (s.lntPc k.val); s.lntReady k.val w ∧ 2 ^ 47 ≤ w ∧
    isBranch 0 w = true) ∧
    (∃ (s : State) (k : Fin 32), let w := s.lntP k.val (s.lntPc k.val); let taken := s.lntCond k.val (natBits w 43 40); let c := s.core k.val; s.lntReady k.val w ∧
    2 ^ 47 ≤ w ∧ isBranch 1 w = true ∧ taken = true ∧ c.stack.length < 16) ∧
    (∃ (s : State) (k : Fin 32) (a : Nat) (u : State), let w := s.lntP k.val (s.lntPc k.val); let taken := s.lntCond k.val (natBits w 43 40); s.lntReady k.val w ∧
    2 ^ 47 ≤ w ∧ isBranch 2 w = true ∧ taken = true ∧ s.lntPopAddr k.val = some (a, u)) ∧
    (∃ (s : State) (k : Fin 32) (v : Nat) (a : Nat) (u : State) (t : State), let w := s.lntP k.val (s.lntPc k.val); let taken := s.lntCond k.val (natBits w 43 40); s.lntReady k.val w ∧
    2 ^ 47 ≤ w ∧ isBranch 3 w = true ∧ taken = true ∧ s.lntPopSr k.val = some (v, u) ∧
    u.lntPopAddr k.val = some (a, t)) ∧
    (∃ (s : State) (k : Fin 32), let w := s.lntP k.val (s.lntPc k.val); let taken := s.lntCond k.val (natBits w 43 40); s.lntReady k.val w ∧
    2 ^ 47 ≤ w ∧ (isBranch 1 w = true ∨ isBranch 2 w = true ∨ isBranch 3 w = true) ∧ taken = false) ∧
    (∃ (s : State) (k : Fin 32), let w := s.lntP k.val (s.lntPc k.val); let taken := s.lntCond k.val (natBits w 43 40); let c := s.core k.val; s.lntReady k.val w ∧
    2 ^ 47 ≤ w ∧ isBranch 4 w = true ∧ taken = true ∧ c.stack ≠ []) ∧
    (∃ (s : State) (k : Fin 32), let w := s.lntP k.val (s.lntPc k.val); let taken := s.lntCond k.val (natBits w 43 40); s.lntReady k.val w ∧
    2 ^ 47 ≤ w ∧ isBranch 4 w = true ∧ taken = false) ∧
    (∃ (s : State) (k : Fin 32), let w := s.lntP k.val (s.lntPc k.val); let c := s.core k.val; s.lntReady k.val w ∧
    2 ^ 47 ≤ w ∧ isClass 9 w = true ∧ s.ldep k.val ≠ 4 ∧ c.stack.length < 16) ∧
    (∃ (s : State) (k : Fin 32), let w := s.lntP k.val (s.lntPc k.val); s.lntReady k.val w ∧ 2 ^ 47 ≤ w ∧
    isClass 10 w = true) ∧
    (∃ (s : State) (k : Fin 32), let w := s.lntP k.val (s.lntPc k.val); s.lntReady k.val w ∧ 2 ^ 47 ≤ w ∧
    isClass 11 w = true) ∧
    (∃ (s : State) (k : Fin 32), let w := s.lntP k.val (s.lntPc k.val); s.lntReady k.val w ∧ 2 ^ 47 ≤ w ∧
    isClass 12 w = true) ∧
    (∃ (s : State) (k : Fin 32), let w := s.lntP k.val (s.lntPc k.val); s.lntReady k.val w ∧ 2 ^ 47 ≤ w ∧
    isClass 13 w = true) ∧
    (∃ (s : State) (k : Fin 32), let w := s.lntP k.val (s.lntPc k.val); let next := (s.lntLand k.val).lntAdvance k.val; s.lntReady k.val w ∧
    2 ^ 47 ≤ w ∧ isSys 0 w = true ∧ next.lntState k.val = 3 ∧ (next.core k.val).vector = none) ∧
    (∃ (s : State) (k : Fin 32), let w := s.lntP k.val (s.lntPc k.val); s.lntReady k.val w ∧ 2 ^ 47 ≤ w ∧
    isSys 1 w = true ∧ ((s.lntLand k.val).poolOf k.val).isSome = true) ∧
    (∃ (s : State) (k : Fin 32), let w := s.lntP k.val (s.lntPc k.val); s.lntReady k.val w ∧ 2 ^ 47 ≤ w ∧
    isSys 1 w = true ∧ (s.lntLand k.val).poolOf k.val = none) ∧
    (∃ (s : State) (k : Fin 32), let w := s.lntP k.val (s.lntPc k.val); s.lntReady k.val w ∧ 2 ^ 47 ≤ w ∧
    isSys 2 w = true ∧ (s.enq k.val (natBits w 31 16) (s.enqItem k.val w)).2 = true) ∧
    (∃ (s : State) (k : Fin 32), let w := s.lntP k.val (s.lntPc k.val); let c := s.core k.val; s.lntReady k.val w ∧
    2 ^ 47 ≤ w ∧ isSys 3 w = true ∧ c.xfers.length < 4) ∧
    (∃ (s : State) (k : Fin 32), let w := s.lntP k.val (s.lntPc k.val); s.lntReady k.val w ∧ 2 ^ 47 ≤ w ∧
    isSys 4 w = true) ∧
    (∃ (s : State) (k : Fin 32), let w := s.lntP k.val (s.lntPc k.val); s.lntReady k.val w ∧ 2 ^ 47 ≤ w ∧
    isSys 5 w = true ∧ ((s.lntLand k.val).core k.val).xfers = []) ∧
    (∃ (s : State) (k : Fin 32), let w := s.lntP k.val (s.lntPc k.val); s.lntReady k.val w ∧ 2 ^ 47 ≤ w ∧
    isSys 6 w = true) :=
  ⟨⟨(lntAt 31 140737488355328), 31, by unfold State.lntReady; decide +kernel⟩,
    ⟨(lntAt 31 140806207832064), 31, by unfold State.lntReady; decide +kernel⟩,
    ⟨(lntWith 31 140874927308800 { (default : LntCore) with stack := [.addr 5] }), 31, 5,
    ((lntWith 31 140874927308800 { (default : LntCore) with stack := [] })),
    by unfold State.lntReady; decide +kernel⟩,
    ⟨(lntWith 31 140943646785536 { (default : LntCore) with stack := [.sr 0, .addr 5] }), 31, 0, 5,
    (lntWith 31 140943646785536 { (default : LntCore) with stack := [.addr 5] }),
    (lntWith 31 140943646785536 { (default : LntCore) with stack := [] }),
    by unfold State.lntReady; decide +kernel⟩,
    ⟨(lntAt 31 142043158413312), 31, by unfold State.lntReady; decide +kernel⟩,
    ⟨(lntWith 31 141012366262272 { (default : LntCore) with stack := [.loop 5 1 1] }), 31,
    by unfold State.lntReady; decide +kernel⟩,
    ⟨(lntAt 31 142111877890048), 31, by unfold State.lntReady; decide +kernel⟩,
    ⟨(lntAt 31 158329674399749), 31, by unfold State.lntReady; decide +kernel⟩,
    ⟨(lntAt 31 175921860444160), 31, by unfold State.lntReady; decide +kernel⟩,
    ⟨(lntAt 31 193514046488576), 31, by unfold State.lntReady; decide +kernel⟩,
    ⟨(lntAt 31 211106232532992), 31, by unfold State.lntReady; decide +kernel⟩,
    ⟨(lntAt 31 228698418577408), 31, by unfold State.lntReady; decide +kernel⟩,
    ⟨(lntAt 31 246290604621824), 31, by unfold State.lntReady; decide +kernel⟩,
    ⟨((lntAt 31 247390116249600).wrN (Reg.LNT_POOL_MEMBERS 7) (2 ^ 31)), 31,
    by unfold State.lntReady; decide +kernel⟩,
    ⟨(lntAt 31 247390116249600), 31, by unfold State.lntReady; decide +kernel⟩,
    ⟨({ lntWith 31 248489627877376 { (default : LntCore) with n := Vector.replicate 8 1 } with queues := [(0, { (default : QueueLive) with depth := 4, esize := 9 })] }),
    31, by unfold State.lntReady; decide +kernel⟩,
    ⟨((((lntAt 31 249589139505152).lntStore 31 false 1 0xF00002).lntStore 31 false 2 1)), 31,
    by unfold State.lntReady; decide +kernel⟩,
    ⟨(lntAt 31 250688651132928), 31, by unfold State.lntReady; decide +kernel⟩,
    ⟨(lntAt 31 251788162760704), 31, by unfold State.lntReady; decide +kernel⟩,
    ⟨(lntAt 31 252887674388480), 31, by unfold State.lntReady; decide +kernel⟩⟩

/-- The hypotheses of CoresAndTasksComplete can be met, clause by clause. -/
theorem test_coresAndTasksComplete_met :
    (∃ (s : State) (k : Fin 32) (v : Nat), s.lntAccepts k.val = true ∧ s.idleOrLower = false ∧
    (s.core k.val).vector = some v ∧ (s.core k.val).stack.length ≤ 14) ∧
    (∃ (s : State) (k : Fin 32), (s.core k.val).tmr = 1 ∧ s.lntState k.val ≠ 0 ∧ s.idleOrLower = false) ∧
    (∃ (s : State) (k : Fin 32) (i : Fin 4) (x : LntXfer), (s.core k.val).xfers[i.val]? = some x ∧
    s.idleOrLower = false ∧ s.serves x.addr = true) ∧
    (∃ (s : State) (k : Fin 32), s.twoPools k.val = false ∧
    ((s.putBit (Reg.LNT_CTL k) 0 true).setFld (Reg.LNT_STS k) 6 3 0).lntState k.val = 6 ∧
    (s.core k.val).zero = false) ∧
    (∃ (s : State) (k : Fin 32), s.twoPools k.val = false ∧ s.lntState k.val = 0) ∧
    (∃ (s : State) (k : Fin 32), 2 ≤ s.lntState k.val ∧ s.lntState k.val ≤ 5) ∧
    (∃ (s : State) (p : Fin 8), s.parityStopped (Reg.LNT_POOL_CTL p) = false ∧
    (∀ j < 32, s.bit (Reg.LNT_POOL_MEMBERS p) j = true → s.twoPools j = false)) ∧
    (∃ (s : State) (p : Fin 8) (j : Nat), s.idleMember p.val = some j ∧ s.twoPools j = false ∧
    s.idleOrLower = false) ∧
    (∃ (s : State) (k : Fin 32) (p : Nat) (x : LntTask), s.poolOf k.val = some p ∧ s.taskOf k.val = some x ∧
    s.lntState k.val = 2 ∧ s.inboxCycles p x ≤ (s.core k.val).spent ∧ s.idleOrLower = false) ∧
    (∃ (s : State) (k : Fin 32) (p : Nat) (x : LntTask) (r : List LntTask), s.poolOf k.val = some p ∧
    s.held p = x :: r ∧ s.lntState k.val = 5 ∧ x.core = some k.val ∧ x.dead = false ∧ s.idleOrLower = false) ∧
    (∃ (s : State) (k : Fin 32), (s.lntState k.val = 3 ∨ s.lntState k.val = 4) ∧ 0 < s.rdN (Reg.LNT_TASK_LIMIT k) ∧
    s.rdN (Reg.LNT_TASK_LIMIT k) * 1024 ≤ (s.core k.val).spent ∧ (s.taskOf k.val).isSome = true ∧
    s.idleOrLower = false) :=
  ⟨⟨(({ wAt [(Reg.LNT_STS 31, 3), (Reg.LNT_SR 31, 0)] with time := 0 } : State).setCore 31 { (default : LntCore) with imr := 1, ipend := 1 }),
    31, 1, by decide +kernel⟩,
    ⟨((wAt [(Reg.LNT_STS 31, 3)]).setCore 31 { (default : LntCore) with tmr := 1 }), 31, by decide +kernel⟩,
    ⟨(State.reset.setCore 31 { (default : LntCore) with xfers := [{ addr := 263882824220672, count := 1, loc := 0, inY := false, out := false, pack := 0 }] }),
    31, 0, { addr := 263882824220672, count := 1, loc := 0, inY := false, out := false, pack := 0 },
    by decide +kernel⟩,
    ⟨(wAt [(Reg.LNT_STS 31, 6)]), 31, by decide +kernel⟩,
    ⟨State.reset, 31, by decide +kernel⟩,
    ⟨(wAt [(Reg.LNT_STS 31, 2)]), 31, by decide +kernel⟩,
    ⟨State.reset, 7, by decide +kernel⟩,
    ⟨(wAt [(Reg.LNT_STS 31, 1), (Reg.LNT_POOL_MEMBERS 7, 2147483648)]), 7, 31, by decide +kernel⟩,
    ⟨((((wAt [(Reg.LNT_STS 31, 2), (Reg.LNT_POOL_MEMBERS 7, 2147483648)]).setCore 31 { (default : LntCore) with spent := 200 })).setHeld 7 [{ (default : LntTask) with core := some 31 }]),
    31, 7, { (default : LntTask) with core := some 31 }, by decide +kernel⟩,
    ⟨((wAt [(Reg.LNT_STS 31, 5), (Reg.LNT_POOL_MEMBERS 7, 2147483648)]).setHeld 7 [{ (default : LntTask) with core := some 31 }]),
    31, 7, { (default : LntTask) with core := some 31 }, [], by decide +kernel⟩,
    ⟨((((wAt [(Reg.LNT_STS 31, 3), (Reg.LNT_POOL_MEMBERS 7, 2147483648), (Reg.LNT_TASK_LIMIT 31, 1)]).setCore 31 { (default : LntCore) with spent := 1024 })).setHeld 7 [{ (default : LntTask) with core := some 31 }]),
    31, by decide +kernel⟩⟩

/-! ### Ill-formed commands -/

/-- A message of 1,025 bytes of data. -/
def longMsg : RapMsg := { rapMsg 1 with data := List.replicate 1025 0 }

theorem test_wf_register_write :
    (Instr.registerWrite 6 0 0 [0] noEnv).wf = false ∧ (Instr.registerWrite 0 0 0 [] noEnv).wf = false ∧
    (Instr.registerWrite 0 0 0 (List.replicate 4097 0) noEnv).wf = false ∧
    (Instr.registerWrite 5 0 0 [0] noEnv).wf = true := by decide +kernel

theorem test_wf_requester :
    (Instr.saveStart 7).wf = false ∧ (Instr.acqRelWrite 7 0 0).wf = false ∧ (Instr.canSnap 7 0).wf = false ∧
    (Instr.clkOffsetWrite 7 0 0).wf = false ∧ (Instr.replayStart 7).wf = false ∧
    (Instr.mgtBlkRst 7 0).wf = false ∧ (Instr.pwrGo 7).wf = false := by decide +kernel

theorem test_wf_rap :
    (Instr.rapRead (.fabric 0) longMsg).wf = false ∧ (Instr.rapWrite (.fabric 0) longMsg noEnv).wf = false ∧
    (Instr.rapReadBlock (.fabric 0) longMsg).wf = false ∧
    (Instr.rapWriteBlock (.fabric 0) longMsg []).wf = false ∧
    (Instr.rapSubscribe (.fabric 0) longMsg).wf = false ∧ (Instr.notifyAck (.fabric 0) longMsg).wf = false := by
  decide +kernel

theorem test_wf_bytes :
    (Instr.icmpEchoRequest 0 0 (List.replicate 1473 0)).wf = false ∧
    (Instr.idReady 0 (List.replicate 257 0)).wf = false ∧ (Instr.spiDone 0 (List.replicate 65 0)).wf = false ∧
    (Instr.i2cDone 0 false (List.replicate 65 0)).wf = false := by decide +kernel

theorem test_wf_lanes :
    (Instr.adaptDone 0 (List.replicate 13 none) []).wf = false ∧
    (Instr.adaptDone 0 [] [List.replicate 13 0]).wf = false ∧
    (Instr.portTrainDone 0 (List.replicate 5 0) []).wf = false ∧
    (Instr.portTrainDone 0 [] [List.replicate 13 0]).wf = false ∧
    (Instr.embLock 0 ⟨0, 0, List.replicate 13 (0, 0, 0, 0)⟩).wf = false ∧
    (Instr.lnkRelease 0 (List.replicate 13 none) []).wf = false ∧
    (Instr.lnkRelease 0 [] (List.replicate 13 none)).wf = false ∧
    (Instr.presentChange ⟨0, List.replicate 65 0, []⟩).wf = false ∧
    (Instr.presentChange ⟨0, [], List.replicate 65 0⟩).wf = false ∧
    (Instr.multiblock 0 ⟨List.replicate 13 [], false⟩ [] 0).wf = false ∧
    (Instr.multiblock 0 ⟨[], false⟩ (List.replicate 13 0) 0).wf = false ∧
    (Instr.rawSnap 0 (List.replicate 13 0)).wf = false ∧
    (Instr.sarStep 0 (List.replicate 17 (0, 0))).wf = false ∧
    (Instr.lineStart 0 [(4000, 97)]).wf = false ∧
    (Instr.bgtProbe 0 0 ⟨List.replicate 5 (0, 0, 0), [], 0, false⟩).wf = false := by decide +kernel

theorem test_wf_counts :
    (Instr.memReady [] [] 0 0).wf = false ∧ (Instr.memRateDone [] [] 0 0).wf = false ∧
    (Instr.powerStepEnd [0]).wf = false ∧ (Instr.pmbusPoll []).wf = false ∧ (Instr.pmbAlert []).wf = false ∧
    (Instr.sensorRead []).wf = false ∧ (Instr.replicaRead []).wf = false ∧
    (Instr.slotReadDone ⟨[], [], true, true, true, true, [], [], []⟩).wf = false := by decide +kernel

/-! ### Single steps -/

/-- R15: CAL_RETRY holds 1,000 after cold reset, and the device is in RUN. -/
theorem test_reset_values : State.reset.rdN Reg.CAL_RETRY = 1000 ∧ State.reset.power = 0 := by decide +kernel

/-- R507: a write of the whole entry stores its value. -/
theorem test_register_write_stores :
    (match exec (.registerWrite 4 0 (BitVec.ofNat 27 (8 * Reg.CAL_RETRY)) [0x0A, 0, 0, 0] noEnv)
        (wAt [(Reg.PROT_LOCK, 1)]) with
      | .next t => t.rdN Reg.CAL_RETRY == 10
      | _ => false) = true := by decide +kernel

/-- R284: ADD of a word with no operands written leaves the core in RUN and moves PC on by one. -/
theorem test_lantern_add_advances :
    (match exec (.lntAdd 31 default) (lntAt 31 (4 * 2 ^ 40)) with
      | .next t => t.lntState 31 == 3 && t.lntPc 31 == 1
      | _ => false) = true := by decide +kernel

/-- R350: a TAIL write shows the entries that wait. -/
theorem test_waypoint_tail :
    (match exec (.wpTailWrite 4096) State.reset with
      | .next t => t.wpPending == 4096
      | _ => false) = true := by decide +kernel

/-- R410: a TAIL doorbell past HEAD + DEPTH has no defined outcome. -/
theorem test_tail_doorbell_past_depth :
    (match exec (.tailDoorbell 0 5) { State.reset with
        queues := [(0, { (default : QueueLive) with depth := 4, prodSw := true })] } with
      | .fault (.undefinedOutcome r) => r == 410
      | _ => false) = true := by decide +kernel

/-- A step takes the front command and leaves the rest of the queue. -/
theorem test_step_takes_front :
    (match step { State.reset with pending := [.wdogKick, .wpCancel] } with
      | .next t => t.pending == [.wpCancel]
      | _ => false) = true := by decide +kernel


end Sys2Proof.Machine
end

section
/-! The outcomes that the acquisition sequencer's commands do not have (R178, R180): a fetch that finds no word to
run, and a microword whose stack operation has no outcome. -/

namespace Sys2Proof.Machine

/-- The NAC codes (R180), each with the command that runs its microwords. -/
def nacCommands (q : Fin 5) : List (Nat × Instr) :=
  [(0, .seqCont q false), (1, .seqJump q false), (2, .seqMap q false), (3, .seqJnz q false), (4, .seqJz q false),
    (5, .seqWait q false), (6, .seqWaitmap q false), (7, .seqCall q false), (8, .seqCallmap q false),
    (9, .seqRet q false), (10, .seqReti q false), (11, .seqRestart q false), (12, .seqHalt q false)]

theorem exec_nacCommand {q : Fin 5} {p : Nat × Instr} (hp : p ∈ nacCommands q) (s : State) :
    exec p.2 s = s.seqCommand q p.1 false := by
  revert p
  simp only [nacCommands, List.forall_mem_cons, List.not_mem_nil, IsEmpty.forall_iff, implies_true, and_true]
  exact ⟨rfl, rfl, rfl, rfl, rfl, rfl, rfl, rfl, rfl, rfl, rfl, rfl, rfl⟩

/-! ### The fetch -/

theorem reservedWord_of_nac {w : Nat} (h : 13 ≤ uNac w) (n : Nat) : reservedWord w n = true := by
  simp [reservedWord, h]

theorem reservedWord_of_csel {w : Nat} (h : 13 ≤ uCsel w) (n : Nat) : reservedWord w n = true := by
  simp [reservedWord, h]

section
variable {s : State} {q : Nat}

theorem seqFetch_of_unwritten (h : storeWord (s.seq q).micro (s.rdN (Reg.SEQ_PC q)) = none) :
    s.seqFetch q = none := by
  simp [State.seqFetch, h]

theorem seqFetch_of_reservedWord {w : Nat} (h : storeWord (s.seq q).micro (s.rdN (Reg.SEQ_PC q)) = some w)
    (hw : reservedWord w ((s.seq q).nanoOf w) = true) : s.seqFetch q = none := by
  simp [State.seqFetch, h, hw]

/-! ### The command -/

theorem endCommand_of_stackBad {nac : Nat} {b : SeqBegun} (hnac : uNac b.w = nac)
    (h : stackBad nac (s.seq q).stack = true) (parity : Bool) :
    s.endCommand q nac parity b = .fault (.undefinedOutcome 180) := by
  simp [State.endCommand, hnac, h]

variable (hrun : s.seqRunning q = true) (hclk : s.seqClocked = true)
include hrun hclk

theorem seqCommand_of_begun {b : SeqBegun} (hb : (s.seq q).begun = some b) (nac : Nat) (parity : Bool) :
    s.seqCommand q nac parity = s.endCommand q nac parity b := by
  simp [State.seqCommand, hrun, hclk, hb]

theorem seqCommand_of_fetchNone (hb : (s.seq q).begun = none) (hf : s.seqFetch q = none) (nac : Nat) :
    s.seqCommand q nac false = .fault (.undefinedOutcome 178) := by
  simp [State.seqCommand, hrun, hclk, hb, hf]

end

/-- Settles O14: every command of a NAC code is `State.seqCommand`, whose fetch gives no word at an unwritten
address or a reserved word (log entry 28), and whose end has no outcome where the stack operation has none. -/
theorem undefinedMicrowordsStop : Obligations.UndefinedMicrowordsStop := by
  unfold Obligations.UndefinedMicrowordsStop
  intro s q words hrun hclk p hp
  have hexec : exec p.2 s = s.seqCommand q p.1 false := exec_nacCommand hp s
  rw [hexec]
  refine ⟨fun hb hnone => ?unwritten, fun w hb hw hres => ?reserved, fun b hb hnac hbad => ?stack⟩
  case unwritten => exact seqCommand_of_fetchNone hrun hclk hb (seqFetch_of_unwritten hnone) p.1
  case reserved =>
    have hres : reservedWord w ((s.seq q.val).nanoOf w) = true := by
      rcases hres with hnac | hcsel | hres
      · exact reservedWord_of_nac hnac _
      · exact reservedWord_of_csel hcsel _
      · exact hres
    exact seqCommand_of_fetchNone hrun hclk hb (seqFetch_of_reservedWord hw hres) p.1
  case stack => rw [seqCommand_of_begun hrun hclk hb, endCommand_of_stackBad hnac hbad]

end Sys2Proof.Machine
end

section
/-! The branch conditions of Lantern's control words (R286), and the reserved one, code 15. -/

namespace Sys2Proof.Machine

theorem isBranch_iff {kind w : Nat} :
    isBranch kind w = true ↔ lwClass w = 8 ∧ natBits w 39 36 = kind := by
  simp [isBranch]

/-- A BRANCH word of any KIND that R285 knows is well formed but for its condition, so that R286 alone stops it. -/
theorem ctlIssue_of_reservedCondition {w kind : Nat} (hbranch : isBranch kind w = true) (hkind : kind ≤ 4)
    (hunused : ctlUnused w = 0) (hcc : natBits w 43 40 = 15) (s : State) (k : Nat) :
    s.ctlIssue k w = some 286 := by
  obtain ⟨hclass, hsub⟩ := isBranch_iff.mp hbranch
  have hformat : ¬ (lwClass w = 15 ∨ ctlUnused w ≠ 0 ∨ (lwClass w = 8 ∧ 4 < natBits w 39 36) ∨
      (lwClass w = 14 ∧ 6 < natBits w 43 40)) := by omega
  exact (if_neg hformat).trans (if_pos ⟨hclass, hcc⟩)

/-- Settles O12: codes 0 to 14 are the rows of `State.lntCond`, and a GOTO with code 15 is one of the BRANCH words
that R286 stops. -/
theorem branchConditions : Obligations.BranchConditions := by
  unfold Obligations.BranchConditions
  intro s k sr
  refine ⟨?selects, fun w hgoto hunused hcc => ?reserved⟩
  case selects => exact ⟨rfl, rfl, rfl, rfl, rfl, rfl, rfl, rfl, rfl, rfl, rfl, rfl, rfl, rfl, rfl⟩
  case reserved => exact ctlIssue_of_reservedCondition hgoto (Nat.zero_le 4) hunused hcc s k.val

end Sys2Proof.Machine
end

section
/-! A late waypoint (R352) under the command its ACT names: with LATE_SKIP it retires unexecuted, without it it acts in
the present tick. The message of a late FABRIC entry keeps its target as its FIRE_AT (R355), so that the firing tick
is not the time of every late action. -/

namespace Sys2Proof.Machine

/-- The actions (R353), each with the command that runs its entries. -/
def wpCommands : List (Nat × Instr) :=
  [(0, .wpNone), (1, .wpArm), (2, .wpTrigger), (3, .wpSignal), (4, .wpTag), (5, .wpConvert), (6, .wpTask),
    (7, .wpFabric)]

theorem exec_wpCommand {p : Nat × Instr} (hp : p ∈ wpCommands) :
    ∃ eff : WpFire → State → State, ∀ s : State, exec p.2 s = s.wpRun p.1 eff := by
  revert p
  simp only [wpCommands, List.forall_mem_cons, List.not_mem_nil, IsEmpty.forall_iff, implies_true, and_true]
  exact ⟨⟨fun _ u => u, fun _ => rfl⟩, ⟨fun f u => u.wpArm f, fun _ => rfl⟩,
    ⟨fun f u => u.waypointUnits (getF f.w 9 8) (getF f.w 17 10) f.slot f.ts, fun _ => rfl⟩,
    ⟨fun f u => u.wpSignal f, fun _ => rfl⟩, ⟨fun f u => u.wpTag f, fun _ => rfl⟩,
    ⟨fun f u => u.wpConvert f, fun _ => rfl⟩, ⟨fun f u => u.wpTask f, fun _ => rfl⟩,
    ⟨fun f u => u.wpFabric u.wpHead ((u.wpTarget u.wpHead).getD f.ts.t), fun _ => rfl⟩⟩

/-- The entry at HEAD is due, names an action, and its target `t` lies before the present tick (R351, R352; log
entry 37 for the boundary). -/
structure State.WpLateDue (s : State) (t : Nat) : Prop where
  runs : s.wpRuns = true
  pending : s.wpPending ≠ 0
  target : s.wpTarget s.wpHead = some t
  reached : s.wpReached s.wpHead t 0 = true
  notFull : s.wpFull = false
  known : wpReserved (s.wpWord s.wpHead 1) = false
  late : (s.lastTick : Int) ≤ timeDiff s.sysNow t

/-- What a late entry's action is given: the present tick as its firing time, and the LATE mark. -/
def State.wpLateFire (s : State) : WpFire where
  slot := s.wpHead % 4096
  w := s.wpWord s.wpHead 1
  ts := s.wpLate.stampAt s.sysNow true
  late := true

/-- The state in which a late entry acts: it is counted as late and as fired. -/
def State.wpLateFired (s : State) : State :=
  (s.wpLate.wpCount.bump Reg.CCS_WP_FIRED 64).wr Reg.CCS_WP_LAST_TS s.wpLateFire.ts.word

/-! ### What counting and retiring leave in the scheduler's entries -/

section
variable (s : State)

theorem State.rd_latchRaise_ne {k j : Nat} (b n p : Nat) (h : j ≠ k) : (s.latchRaise k b n p).rd j = s.rd j := by
  unfold State.latchRaise
  split
  · rfl
  · rw [State.rd_raise, State.rd_putBit_ne _ b true h]

theorem State.bit_latchRaise_same {k b : Nat} (n p : Nat) (hb : b < 64) : (s.latchRaise k b n p).bit k b = true := by
  unfold State.latchRaise
  split
  case isTrue hset => exact hset
  case isFalse => exact State.bit_putBit_same s k b true hb

theorem State.rd_wpLate_ne {j : Nat} (hl : j ≠ Reg.CCS_WP_LATE) (hs : j ≠ Reg.CCS_WP_STS) :
    s.wpLate.rd j = s.rd j :=
  (State.rd_latchRaise_ne _ 15 101 0 hs).trans (s.rd_bumpSat_ne 32 1 hl)

theorem State.rdN_wpLate_late : s.wpLate.rdN Reg.CCS_WP_LATE = satAdd 32 (s.rdN Reg.CCS_WP_LATE) 1 := by
  have hrd := State.rd_latchRaise_ne (s.bumpSat Reg.CCS_WP_LATE 32) (j := Reg.CCS_WP_LATE)
    (k := Reg.CCS_WP_STS) 15 101 0 (by decide)
  rw [← s.rdN_bumpSat_same]
  exact congrArg BitVec.toNat hrd

theorem State.bit_wpLate_lateSeen : s.wpLate.bit Reg.CCS_WP_STS 15 = true :=
  State.bit_latchRaise_same _ 101 0 (by decide)

theorem State.rd_wpRetire_ne {j : Nat} (hh : j ≠ Reg.CCS_WP_HEAD) (hs : j ≠ Reg.CCS_WP_STS) :
    s.wpRetire.rd j = s.rd j :=
  (State.rd_setFld_ne _ 13 1 _ hs).trans (State.rd_wrN_ne _ _ hh)

theorem State.wpHead_wpRetire : s.wpRetire.wpHead = (s.wpHead + 1) % 2 ^ 32 := by
  have hlt : (s.wpHead + 1) % 2 ^ 32 < 2 ^ 64 := by omega
  simp only [State.wpRetire, State.setWpHead]
  rw [State.wpHead, State.rdN, State.rd_setFld_ne _ _ _ _ (by decide), State.rd_wrN_same, BitVec.toNat_ofNat,
    Nat.mod_eq_of_lt hlt]

theorem State.bit_wpRetire_above {b : Nat} (hb : 13 < b) :
    s.wpRetire.bit Reg.CCS_WP_STS b = s.bit Reg.CCS_WP_STS b :=
  (State.bit_setFld_apart _ _ 13 1 _ b (by decide) (by decide) (.inr hb)).trans
    (State.bit_wrN_ne _ _ b (by decide))

end

/-! ### The late entry -/

section
variable {s : State} {t : Nat} (h : s.WpLateDue t)
include h

/-- Whatever its action, the one choice that is left to a late entry is LATE_SKIP's. -/
theorem wpRun_of_lateDue (eff : WpFire → State → State) :
    s.wpRun (getF (s.wpWord s.wpHead 1) 3 0) eff = .next (
      if bitAt (s.wpWord s.wpHead 1) 4 then (s.wpLate.bumpSat Reg.CCS_WP_SKIPPED 32).wpRetire
      else (eff s.wpLateFire s.wpLateFired).wpRetire) := by
  obtain ⟨hruns, hpend, htarget, hreached, hfull, hknown, hlate⟩ := h
  simp [State.wpRun, hruns, hpend, htarget, hreached, hfull, hknown, hlate, State.wpLateFire, State.wpLateFired]

/-- With LATE_SKIP the entry retires unexecuted and is counted, whatever its action. -/
theorem exec_of_lateSkip {p : Nat × Instr} (hp : p ∈ wpCommands) (hact : getF (s.wpWord s.wpHead 1) 3 0 = p.1)
    (hskip : bitAt (s.wpWord s.wpHead 1) 4 = true) :
    ∃ r, exec p.2 s = .next r ∧ r.rdN Reg.CCS_WP_SKIPPED = satAdd 32 (s.rdN Reg.CCS_WP_SKIPPED) 1 ∧
      r.rdN Reg.CCS_WP_LATE = satAdd 32 (s.rdN Reg.CCS_WP_LATE) 1 ∧ r.bit Reg.CCS_WP_STS 15 = true ∧
      r.wpHead = (s.wpHead + 1) % 2 ^ 32 := by
  obtain ⟨eff, heff⟩ := exec_wpCommand hp
  have hexec : exec p.2 s = .next (s.wpLate.bumpSat Reg.CCS_WP_SKIPPED 32).wpRetire := by
    rw [heff, ← hact, wpRun_of_lateDue h, if_pos hskip]
  refine ⟨_, hexec, ?skipped, ?late, ?seen, ?head⟩
  case skipped =>
    have hrd := s.rd_wpLate_ne (j := Reg.CCS_WP_SKIPPED) (by decide) (by decide)
    rw [State.rdN, State.rd_wpRetire_ne _ (by decide) (by decide), ← State.rdN, State.rdN_bumpSat_same, State.rdN,
      hrd, ← State.rdN]
  case late =>
    rw [State.rdN, State.rd_wpRetire_ne _ (by decide) (by decide), State.rd_bumpSat_ne _ _ _ (by decide),
      ← State.rdN, State.rdN_wpLate_late]
  case seen =>
    rw [State.bit_wpRetire_above _ (by decide), State.bit, State.rd_bumpSat_ne _ _ _ (by decide), ← State.bit,
      State.bit_wpLate_lateSeen]
  case head =>
    rw [State.wpHead_wpRetire, State.wpHead, State.rdN, State.rd_bumpSat_ne _ _ _ (by decide),
      s.rd_wpLate_ne (by decide) (by decide), ← State.rdN, ← State.wpHead]

/-- A late FABRIC entry without LATE_SKIP sends its message with its target as FIRE_AT (R355), not with its firing
time. -/
theorem exec_wpFabric_of_lateDue (hact : getF (s.wpWord s.wpHead 1) 3 0 = 7)
    (hkeep : bitAt (s.wpWord s.wpHead 1) 4 = false) :
    exec .wpFabric s = .next (s.wpLateFired.wpFabric s.wpLateFired.wpHead
      ((s.wpLateFired.wpTarget s.wpLateFired.wpHead).getD s.wpLateFire.ts.t)).wpRetire := by
  have hrun := wpRun_of_lateDue h fun f u => u.wpFabric u.wpHead ((u.wpTarget u.wpHead).getD f.ts.t)
  rw [hact, hkeep] at hrun
  exact hrun

end

/-! ### The counterexample -/

/-- FIRE_AT of the Ridgeline messages that have left the device, oldest first. -/
def State.sentFireAts (s : State) : List (BitVec 64) :=
  s.out.filterMap fun
    | .fabric _ _ k =>
      match k.body with
      | .ridge _ _ _ _ _ fireAt _ _ => some fireAt
      | _ => none
    | _ => none

/-- At the edge of tick 2, in raw-key mode, the one pending entry is a FABRIC entry whose target is tick 1; port 0
is up, on the broadcast tree and has credits. -/
def lateFabric : State :=
  let s := [(Reg.CLK_PLL_STS 0, 2), (Reg.CCS_WP_STS, 1), (Reg.CCS_WP_CFG, 1), (Reg.CCS_WP_TAIL, 1),
    (Reg.CCS_WP_TABLE 0 0, 4096), (Reg.CCS_WP_TABLE 0 1, 7), (Reg.FAB_PORT_STS 0, 68)].foldl
    (fun s e => s.wrN e.1 e.2) { State.reset with time := 8192 }
  s.setFport 0 { (default : FabPort) with credits1 := 4 }

theorem lateFabric_due : lateFabric.WpLateDue 4096 where
  runs := by decide +kernel
  pending := by decide +kernel
  target := by decide +kernel
  reached := by decide +kernel
  notFull := by decide +kernel
  known := by decide +kernel
  late := by decide +kernel

theorem lateFabric_act : getF (lateFabric.wpWord lateFabric.wpHead 1) 3 0 = 7 := by decide +kernel

theorem lateFabric_keeps : bitAt (lateFabric.wpWord lateFabric.wpHead 1) 4 = false := by decide +kernel

/-- The target, tick 1, with TS_EST set. -/
theorem lateFabric_sent :
    let v := lateFabric.wpLateFired
    (v.wpFabric v.wpHead ((v.wpTarget v.wpHead).getD lateFabric.wpLateFire.ts.t)).wpRetire.sentFireAts =
      [0x2000000000001000] := by decide +kernel

/-- The firing time, tick 2, with TS_EST set. -/
theorem lateFabric_stated :
    let v := lateFabric.wpLateFired
    (v.wpFabric v.wpHead lateFabric.wpLateFire.ts.t).wpRetire.sentFireAts = [0x2000000000002000] := by
  decide +kernel

/-- Refutes O16: its FABRIC clause gives the message of a late entry the firing time as FIRE_AT, where R355 and
`execWpFabric` give it the target. In `lateFabric` the message leaves with tick 1, and O16 asks for tick 2. The
clause for LATE_SKIP holds (`exec_of_lateSkip`). -/
theorem not_lateWaypoints : ¬ Obligations.LateWaypoints := by
  unfold Obligations.LateWaypoints
  intro hall
  obtain ⟨hruns, hpend, htarget, hreached, hfull, hknown, hlate⟩ := lateFabric_due
  obtain ⟨-, hacts⟩ := hall lateFabric 4096 hruns hpend htarget hreached hfull hknown hlate
  obtain ⟨-, -, -, -, -, -, -, -, -, -, hfabric⟩ := hacts lateFabric_keeps
  have hstates := (exec_wpFabric_of_lateDue lateFabric_due lateFabric_act lateFabric_keeps).symm.trans
    (hfabric lateFabric_act)
  injection hstates with hstates
  have hsent := lateFabric_sent.symm.trans ((congrArg State.sentFireAts hstates).trans lateFabric_stated)
  exact absurd hsent (by decide)

end Sys2Proof.Machine
end

section
/-! STATE of a window monitor (R370): what an enable, a write of the thresholds and each result of a sample leave in
field [1:0] of CMP_MON_STS. -/

namespace Sys2Proof.Machine

/-- Entries of one index are told apart by their subindex. -/
theorem slot_ne_of_sub_ne {a b : Nat} (index : Nat) (h : a ≠ b) : slot index a ≠ slot index b :=
  fun hslot => h (Nat.add_left_cancel hslot)

section
variable (s : State) (w : Nat)

/-! ### What leaves STATE alone -/

theorem State.fld_bumpSat_ne {k j : Nat} (n m hi lo : Nat) (h : j ≠ k) :
    (s.bumpSat k n m).fld j hi lo = s.fld j hi lo :=
  s.fld_wr_ne _ _ _ h

theorem State.fld_raise (n p k hi lo : Nat) : (s.raise n p).fld k hi lo = s.fld k hi lo :=
  congrArg (getF · hi lo) (s.rd_raise n p k)

/-- A violation sets its own bit of CMP_MON_STS, and leaves the fields below that bit (R371). -/
theorem State.fld_monViolate_below {b hi : Nat} (lo : Nat) (hb : b < 64) (hhi : hi < b) :
    (s.monViolate w b).fld (Reg.CMP_MON_STS w) hi lo = s.fld (Reg.CMP_MON_STS w) hi lo := by
  have hts (v : BitVec 64) :
      (s.wr (Reg.CMP_MON_LAST_TS w) v).fld (Reg.CMP_MON_STS w) hi lo = s.fld (Reg.CMP_MON_STS w) hi lo :=
    s.fld_wr_ne v hi lo (slot_ne_of_sub_ne (0x5240 + w) (by decide))
  have hput (t : State) :
      (t.putBit (Reg.CMP_MON_STS w) b true).fld (Reg.CMP_MON_STS w) hi lo = t.fld (Reg.CMP_MON_STS w) hi lo :=
    t.fld_putBit_apart _ _ _ _ _ hb (.inl hhi)
  unfold State.monViolate
  dsimp only
  split
  case isTrue => exact hts _
  case isFalse =>
    split
    case isTrue => rw [State.fld_raise, hput, hts]
    case isFalse => rw [hput, hts]

/-- A STATE that is set outlasts the count and the violation of the same sample. -/
theorem State.monState_of_violating {x c b : Nat} (hx : x < 4) (hc : Reg.CMP_MON_STS w ≠ c) (hb1 : 1 < b)
    (hb : b < 64) :
    (((s.setFld (Reg.CMP_MON_STS w) 1 0 x).bumpSat c 32).monViolate w b).fld (Reg.CMP_MON_STS w) 1 0 = x := by
  rw [State.fld_monViolate_below _ w 0 hb hb1, State.fld_bumpSat_ne _ _ _ _ _ hc,
    State.fld_setFld_same _ _ _ _ _ (by decide) (by decide)]
  exact Nat.mod_eq_of_lt hx

/-! ### The enable -/

theorem State.monState_monEnable (h : s.monOn w = true) :
    (s.monEnable w false).fld (Reg.CMP_MON_STS w) 1 0 = 0 := by
  have hset : (s.setFld (Reg.CMP_MON_STS w) 1 0 0).fld (Reg.CMP_MON_STS w) 1 0 = 0 :=
    State.fld_setFld_same _ _ _ _ _ (by decide) (by decide)
  simp only [State.monEnable, h, if_true, Bool.false_eq_true, if_false]
  split
  case isTrue => exact hset
  case isFalse => exact hset

/-! ### The sample, by its result (R369) -/

/-- The watch of monitor `w` is over. -/
def State.monWatched (s : State) (w : Nat) : State :=
  { s with mon := { s.mon with watch := s.mon.watch - (s.mon.watch &&& 2 ^ w) } }

/-- A sample that is not UNDET has come: the change out of UNDET is raised. -/
def State.monDetermined (s : State) (w : Nat) : State :=
  if s.fld (Reg.CMP_MON_STS w) 1 0 = 0 then (s.monWatched w).raise (640 + w) else s.monWatched w

/-- What a sample leaves, with the end of its watch and the change out of UNDET named. -/
theorem State.monSample_eq (high low undet : Bool) :
    s.monSample w high low undet =
      if !high && !low && undet then
        if s.fld (Reg.CMP_MON_STS w) 1 0 = 0 then s.monWatched w
        else (s.monWatched w).bumpSat (Reg.CMP_MON_UNDET_COUNT w) 32
      else
        let t := (s.monDetermined w).setFld (Reg.CMP_MON_STS w) 1 0 (if high then 3 else if low then 2 else 1)
        if high then (t.bumpSat (Reg.CMP_MON_HIGH_COUNT w) 32).monViolate w 3
        else if low then (t.bumpSat (Reg.CMP_MON_LOW_COUNT w) 32).monViolate w 2
        else t :=
  rfl

theorem State.monSample_high (low undet : Bool) :
    s.monSample w true low undet =
      (((s.monDetermined w).setFld (Reg.CMP_MON_STS w) 1 0 3).bumpSat
        (Reg.CMP_MON_HIGH_COUNT w) 32).monViolate w 3 := by
  simp [State.monSample_eq]

theorem State.monSample_low (undet : Bool) :
    s.monSample w false true undet =
      (((s.monDetermined w).setFld (Reg.CMP_MON_STS w) 1 0 2).bumpSat
        (Reg.CMP_MON_LOW_COUNT w) 32).monViolate w 2 := by
  simp [State.monSample_eq]

theorem State.monSample_pass :
    s.monSample w false false false = (s.monDetermined w).setFld (Reg.CMP_MON_STS w) 1 0 1 := by
  simp [State.monSample_eq]

theorem State.monSample_undet :
    s.monSample w false false true =
      if s.fld (Reg.CMP_MON_STS w) 1 0 = 0 then s.monWatched w
      else (s.monWatched w).bumpSat (Reg.CMP_MON_UNDET_COUNT w) 32 := by
  simp [State.monSample_eq]

end

/-! ### The commands -/

theorem exec_monThrWrite (s : State) (w : Fin 16) (v : BitVec 32) :
    exec (.monThrWrite w v) s =
      .next ((s.wrN (Reg.CMP_MON_THR w) (v.toNat % 2 ^ 29)).setFld (Reg.CMP_MON_STS w) 1 0 0) :=
  rfl

/-- The end of a watch gives a sample, from the levels of the input that the monitor selects. -/
theorem exec_monSample_of_watched {s : State} {w : Fin 16} {si : Fin 64}
    (hwatch : s.mon.watch.testBit w.val = true) (hon : s.monOn w.val = true)
    (hover : s.passed s.mon.tickAt (usec 1) = true) (hsi : s.fld (Reg.CMP_MON_CFG w.val) 5 0 = si.val)
    {settle watch : List Int} {high low undet : Bool}
    (hresult : s.monResult w.val settle watch = (high, low, undet)) :
    exec (.monSample w si settle watch) s = .next (s.monSample w.val high low undet) := by
  have hexec : exec (.monSample w si settle watch) s = execMonSample w si settle watch s := rfl
  rw [hexec, execMonSample, if_pos ⟨hwatch, hon, hover, hsi⟩, hresult]

/-- Settles O17: the enable and the threshold write set STATE to UNDET, and each of the four results of a sample is
one case of `State.monSample`, whose count and violation leave STATE as the sample set it. -/
theorem monitorStateFollowsSamples : Obligations.MonitorStateFollowsSamples := by
  unfold Obligations.MonitorStateFollowsSamples
  intro s w k
  refine ⟨s.monState_monEnable w.val, fun v => ?threshold, fun hwatch hon hover si settle watch hsi => ?sample⟩
  case threshold =>
    exact ⟨_, exec_monThrWrite s w v, State.fld_setFld_same _ _ _ _ _ (by decide) (by decide)⟩
  case sample =>
    intro r u v
    have hexec {high low undet : Bool} (hresult : r = (high, low, undet)) :
        exec (.monSample w si settle watch) s = .next (s.monSample w.val high low undet) :=
      exec_monSample_of_watched hwatch hon hover hsi hresult
    clear_value r
    obtain ⟨high, low, undet⟩ := r
    have hsub {a : Nat} (h : 3 ≠ a) : k ≠ slot (0x5240 + w.val) a := slot_ne_of_sub_ne _ h
    refine ⟨?high, ?low, ?pass, ?undet⟩
    case high =>
      rintro rfl
      exact ⟨(hexec rfl).trans (congrArg _ (s.monSample_high w.val low undet)),
        v.monState_of_violating w.val (by decide) (hsub (by decide)) (by decide) (by decide)⟩
    case low =>
      rintro rfl rfl
      exact ⟨(hexec rfl).trans (congrArg _ (s.monSample_low w.val undet)),
        v.monState_of_violating w.val (by decide) (hsub (by decide)) (by decide) (by decide)⟩
    case pass =>
      rintro rfl rfl rfl
      exact ⟨(hexec rfl).trans (congrArg _ (s.monSample_pass w.val)),
        State.fld_setFld_same _ _ _ _ _ (by decide) (by decide)⟩
    case undet =>
      rintro rfl rfl rfl
      exact ⟨(hexec rfl).trans (congrArg _ (s.monSample_undet w.val)),
        u.fld_bumpSat_ne 32 1 1 0 (hsub (by decide)), u.rdN_bumpSat_same _ 1⟩

end Sys2Proof.Machine
end

section
/-! TAIL doorbells (R410): a queue's live state read back after a write, and what a doorbell leaves of a queue that
software fills. -/

namespace Sys2Proof.Machine

theorem Sparse.find?_place_same {α : Type} {a : Nat} (x : α) {m : List (Nat × α)} (h : ∀ e ∈ m, e.1 ≠ a) :
    (Sparse.place a x m).find? (fun e => e.1 == a) = some (a, x) := by
  induction m with
  | nil => simp [Sparse.place]
  | cons e r ih =>
    obtain ⟨hk, hr⟩ := List.forall_mem_cons.mp h
    rw [Sparse.place]
    split
    case isTrue => simp
    case isFalse => simpa [hk] using ih hr

theorem Sparse.ne_of_mem_erase {α : Type} {a : Nat} {m : List (Nat × α)} {e : Nat × α}
    (h : e ∈ Sparse.erase m a) : e.1 ≠ a := by
  simpa using (List.mem_filter.mp h).2

section
variable (s : State) (q : Nat)

@[simp] theorem State.queue_setQueue_same (x : QueueLive) : (s.setQueue q x).queue q = some x :=
  congrArg (Option.map Prod.snd) (Sparse.find?_place_same x fun _ => Sparse.ne_of_mem_erase)

/-- The notify write reaches memory or a port, and no queue. -/
@[simp] theorem State.queue_notifyQueue (x : QueueLive) : (s.notifyQueue x).queue q = s.queue q := by
  have hqueues : (s.notifyQueue x).queues = s.queues := by
    simp [State.notifyQueue, apply_ite State.queues]
  simp only [State.queue, hqueues]

end

/-! ### The doorbell of a queue that software fills -/

section
variable {s : State} {q : Nat} {x : QueueLive} (hq : s.queue q = some x) (hsw : x.prodSw = true)
include hq hsw

/-- The occupancy that a new TAIL would give says whether it moves backward or past HEAD + DEPTH. -/
theorem State.tailBad_iff (v : Nat) :
    s.tailBad q v = true ↔
      x.depth < { x with tail := v }.occupancy ∨ { x with tail := v }.occupancy < x.occupancy := by
  simp only [State.tailBad, hq, hsw, Bool.true_and, decide_eq_true_eq]
  rfl

theorem State.queue_tailDoorbell (v : Nat) : (s.tailDoorbell q v).queue q = some { x with tail := v } := by
  simp only [State.tailDoorbell, hq, hsw, if_true]
  split
  case isTrue => rw [State.queue_notifyQueue, State.queue_setQueue_same]
  case isFalse => exact s.queue_setQueue_same q _

end

section
variable {s : State} {q : Fin 65536} {v : BitVec 32}

theorem exec_tailDoorbell_of_bad (h : s.tailBad q.val v.toNat = true) :
    exec (.tailDoorbell q v) s = .fault (.undefinedOutcome 410) :=
  if_pos h

theorem exec_tailDoorbell_of_not_bad (h : ¬ s.tailBad q.val v.toNat = true) :
    exec (.tailDoorbell q v) s = .next (s.tailDoorbell q.val v.toNat) :=
  if_neg h

end

/-- Settles O15: `moved` is the occupancy with the new TAIL; between the present occupancy and DEPTH the doorbell
stores that TAIL alone in the queue, and outside of these bounds `State.tailBad` stops it (log entry 40). -/
theorem tailDoorbellFills : Obligations.TailDoorbellFills := by
  unfold Obligations.TailDoorbellFills
  intro s q v x hq hsw _ _ _ _ moved
  have hbad : s.tailBad q.val v.toNat = true ↔ x.depth < moved ∨ moved < x.occupancy :=
    State.tailBad_iff hq hsw v.toNat
  refine ⟨fun ⟨hforward, hfits⟩ => ?fills, fun hout => ?undefined⟩
  case fills =>
    have hgood : ¬ s.tailBad q.val v.toNat = true := by rw [hbad]; omega
    exact ⟨_, _, exec_tailDoorbell_of_not_bad hgood, State.queue_tailDoorbell hq hsw v.toNat, rfl, rfl, rfl⟩
  case undefined => exact exec_tailDoorbell_of_bad (hbad.mpr hout.symm)

end Sys2Proof.Machine
end

section
/-! SYSREF edges in BYPASS (R499): SYS captures an edge only while it is locked, and counts one that it skips. -/

namespace Sys2Proof.Machine

/-- A saturating counter writes its own slot alone. -/
theorem State.bumpSat_frame (s : State) {k : Nat} (w n : Nat) (hk : k ≠ Reg.MEM_CFG) :
    s.Frame (s.bumpSat k w n) (· = k) where
  rd _ hother := s.rd_bumpSat_ne w n hother
  byte a := s.rdByte_bumpSat k w n a hk
  time := s.bumpSat_time k w n
  out := s.bumpSat_out k w n

theorem exec_sysrefEdge_of_unlocked {s : State} (h : s.pllLocked 0 = false) :
    exec .sysrefEdge s = .next (if s.pllState 0 = 1 then s.bumpSat Reg.CLK_SYSREF_SKIPPED 32 else s) :=
  if_neg (ne_true_of_eq_false h)

theorem exec_sysrefEdge_of_bypass {s : State} (hbypass : s.pllState 0 = 1) (h : s.pllLocked 0 = false) :
    exec .sysrefEdge s = .next (s.bumpSat Reg.CLK_SYSREF_SKIPPED 32) := by
  rw [exec_sysrefEdge_of_unlocked h, if_pos hbypass]

/-- Settles O18: in BYPASS the edge meets no lane group; it advances the saturating counter of skipped edges, which
writes its own slot alone. -/
theorem bypassSkipsSysref : Obligations.BypassSkipsSysref := by
  unfold Obligations.BypassSkipsSysref
  intro s hbypass hunlocked
  exact ⟨_, exec_sysrefEdge_of_bypass hbypass hunlocked, s.bumpSat_lanes _ 32 1, s.rdN_bumpSat_same _ 1,
    s.bumpSat_frame 32 1 (by decide)⟩

end Sys2Proof.Machine
end

section
/-! An access to a slot that holds no entry (R506): what it answers, and that the flag it sets writes entries alone,
and so not the slot. -/

namespace Sys2Proof.Machine

theorem AccFlag.bit_lt (f : AccFlag) : f.bit < 64 := by
  cases f <;> decide

/-- The entries that hold a requester's last access stand at the index after that of its flags (R534). -/
theorem accSts_ne_accLast (r : Nat) : Reg.MGT_ACC_STS r ≠ Reg.MGT_ACC_LAST r := by
  unfold Reg.MGT_ACC_STS Reg.MGT_ACC_LAST slot
  omega

theorem accSts_ne_accLastTs (r : Nat) : Reg.MGT_ACC_STS r ≠ Reg.MGT_ACC_LAST_TS r := by
  unfold Reg.MGT_ACC_STS Reg.MGT_ACC_LAST_TS slot
  omega

/-- The three slots that an access flag writes all hold entries. -/
theorem findRow_accSlots (r : Fin 8) : findRow (Reg.MGT_ACC_STS r) ≠ none ∧ findRow (Reg.MGT_ACC_LAST r) ≠ none ∧
    findRow (Reg.MGT_ACC_LAST_TS r) ≠ none := by
  revert r
  decide +kernel

section
variable {s : State}

/-- The requester's flags once one more is set: the record of the access that follows stands in other slots. -/
theorem State.rd_flag_accSts (r k : Nat) (f : AccFlag) :
    (s.flag r k f).rd (Reg.MGT_ACC_STS r) = setBit (s.rd (Reg.MGT_ACC_STS r)) f.bit true := by
  unfold State.flag
  extract_lets was t1 t2 t3 m t4
  have h1 : t1.rd (Reg.MGT_ACC_STS r) = setBit (s.rd (Reg.MGT_ACC_STS r)) f.bit true := s.rd_putBit_same _ _ _
  have h2 : t2.rd (Reg.MGT_ACC_STS r) = t1.rd (Reg.MGT_ACC_STS r) := t1.rd_wrN_ne _ (accSts_ne_accLast r)
  have h3 : t3.rd (Reg.MGT_ACC_STS r) = t2.rd (Reg.MGT_ACC_STS r) := t2.rd_wr_ne _ (accSts_ne_accLastTs r)
  have h4 : t4.rd (Reg.MGT_ACC_STS r) = t3.rd (Reg.MGT_ACC_STS r) := State.rd_congr (s := t3) (t := t4) rfl _
  have h : t4.rd (Reg.MGT_ACC_STS r) = setBit (s.rd (Reg.MGT_ACC_STS r)) f.bit true :=
    h4.trans (h3.trans (h2.trans h1))
  split
  · exact h
  · exact h

/-- Setting a flag sets its bit (R514). -/
theorem State.bit_flag_same (r k : Nat) (f : AccFlag) : (s.flag r k f).bit (Reg.MGT_ACC_STS r) f.bit = true := by
  rw [State.bit, State.rd_flag_accSts, bitAt_setBit_same _ _ _ f.bit_lt]

/-- A flag changes no slot without an entry. -/
theorem State.rd_flag_of_empty (r : Fin 8) {j : Nat} (hempty : findRow j = none) (k : Nat) (f : AccFlag) :
    (s.flag r k f).rd j = s.rd j := by
  obtain ⟨hsts, hlast, hts⟩ := findRow_accSlots r
  have hne {e : Nat} (hentry : findRow e ≠ none) : j ≠ e := fun hje => hentry (hje ▸ hempty)
  exact s.rd_flag r k f j (hne hsts) (hne hlast) (hne hts)

theorem State.readSlot_of_empty {who uid k : Nat} (hempty : findRow k = none) (hserved : s.servedNow k = true)
    (hreach : s.mayReach who uid (slotIndex k) false = true) :
    s.readSlot who uid k = (s.flag who k .noEntry, 0) := by
  simp [State.readSlot, hserved, hreach, hempty]

theorem State.writeSlot_of_empty {who : Fin 8} {uid k : Nat} (hempty : findRow k = none)
    (hserved : s.servedNow k = true) (hreach : s.mayReach who uid (slotIndex k) true = true) (lo hi : Nat)
    (v : BitVec 64) (env : WriteEnv) : s.writeSlot who uid k lo hi v env = .next (s.flag who k .noEntry) := by
  simp [State.writeSlot, hserved, hreach, hempty]

end

/-- Settles O10: a read and a write of an empty slot both end in the flag NO_ENTRY, which sets its bit and writes
entries alone, so that the slot stands. -/
theorem emptySlotsAnswerZero : Obligations.EmptySlotsAnswerZero := by
  unfold Obligations.EmptySlotsAnswerZero
  intro s who uid k _ hempty hserved
  refine ⟨fun hreach => ?read, fun lo hi v env hreach => ?write⟩
  case read =>
    rw [State.readSlot_of_empty hempty hserved hreach]
    exact ⟨rfl, State.bit_flag_same who k .noEntry⟩
  case write =>
    exact ⟨_, State.writeSlot_of_empty hempty hserved hreach lo hi v env, State.rd_flag_of_empty who hempty k .noEntry,
      State.bit_flag_same who k .noEntry⟩

end Sys2Proof.Machine
end

section
/-! The access windows of the dictionary (R545): which ranges hold an index, what they grant a requester, and what an
access that they refuse does. -/

namespace Sys2Proof.Machine

/-- A search among the first `n` numbers is one among the indices below `n`. -/
theorem any_range_iff {n : Nat} {p : Nat → Bool} : (List.range n).any p = true ↔ ∃ w : Fin n, p w = true := by
  simp only [List.any_eq_true, List.mem_range, Fin.exists_iff, exists_prop]

section
variable {s : State}

theorem State.dictRange_iff {w i : Nat} : s.dictRange w i = true ↔ s.bit (Reg.PROT_DICT w) 63 = true ∧
    s.fld (Reg.PROT_DICT w) 15 0 ≤ i ∧ i ≤ s.fld (Reg.PROT_DICT w) 31 16 := by
  simp only [State.dictRange, State.bit, State.fld, Bool.and_eq_true, decide_eq_true_iff]

/-- Requester 6 is free; another needs its bit in one of the ranges that hold the index, where any does (R545). -/
theorem State.dictAllows_iff {who i : Nat} {write : Bool} : s.dictAllows who i write = true ↔
    who = 6 ∨ (∀ w : Fin 32, ¬ s.dictRange w i = true) ∨
      ∃ w : Fin 32, s.dictRange w i = true ∧
        s.bit (Reg.PROT_DICT w) ((if write then 40 else 32) + who) = true := by
  have hnone : ((List.range 32).filter fun w => s.dictRange w i).isEmpty = true ↔
      ∀ w : Fin 32, ¬ s.dictRange w i = true := by
    rw [List.isEmpty_iff, List.filter_eq_nil_iff, Fin.forall_iff]
    simp only [List.mem_range]
  unfold State.dictAllows
  rw [Bool.or_eq_true, Bool.or_eq_true, beq_iff_eq, hnone, List.any_filter, any_range_iff, or_assoc]
  simp only [Bool.and_eq_true]

/-- A fabric peer, requester 5, must pass its own windows as well (R545). -/
theorem State.mayReach_iff {who uid i : Nat} {write : Bool} : s.mayReach who uid i write = true ↔
    s.dictAllows who i write = true ∧ (who = 5 → s.peerAllows uid i write = true) := by
  simp only [State.mayReach, Bool.and_eq_true, Bool.or_eq_true, bne_iff_ne, Decidable.imp_iff_not_or]

theorem State.readSlot_of_denied {who uid k : Nat} (hserved : s.servedNow k = true)
    (hdenied : s.mayReach who uid (slotIndex k) false = false) :
    s.readSlot who uid k = (s.flag who k .denied, 0) := by
  simp [State.readSlot, hserved, hdenied]

theorem State.writeSlot_of_denied {who : Fin 8} {uid k : Nat} (hserved : s.servedNow k = true)
    (hdenied : s.mayReach who uid (slotIndex k) true = false) (lo hi : Nat) (v : BitVec 64) (env : WriteEnv) :
    s.writeSlot who uid k lo hi v env = .next (s.flag who k .denied) := by
  simp [State.writeSlot, hserved, hdenied]

end

/-- Settles O8: a search of the ranges is the rule's two cases, and of the tests of an access the one on its windows
is the first that a served slot can fail. -/
theorem dictionaryWindowsGovern : Obligations.DictionaryWindowsGovern := by
  unfold Obligations.DictionaryWindowsGovern
  intro s r uid i write _ range
  refine ⟨?reach, ?refused⟩
  case reach =>
    rw [State.mayReach_iff, State.dictAllows_iff]
    simp only [State.dictRange_iff, range]
  case refused =>
    rintro k rfl hserved hdenied
    cases write with
    | true => exact State.writeSlot_of_denied hserved hdenied
    | false => exact State.readSlot_of_denied hserved hdenied

end Sys2Proof.Machine
end

section
/-! The windows of a fabric peer (R547): the class that PROT_PEER_ID or PROT_PEER_DEF gives it, and what the windows of
that class grant. -/

namespace Sys2Proof.Machine

/-- Entry `w` of PROT_PEER_ID is valid and holds the peer's UID (R547). -/
def State.listsPeer (s : State) (uid w : Nat) : Prop :=
  s.bit (Reg.PROT_PEER_ID w) 63 = true ∧ s.fld (Reg.PROT_PEER_ID w) 55 0 = uid

section
variable {s : State} {uid : Nat}

/-- What the search for a peer's class asks of an entry. -/
theorem State.listsPeer_iff {w : Nat} : s.listsPeer uid w ↔
    (s.bit (Reg.PROT_PEER_ID w) 63 && s.fld (Reg.PROT_PEER_ID w) 55 0 == uid) = true := by
  rw [State.listsPeer, Bool.and_eq_true, beq_iff_eq]

/-- The entry that lists the peer gives its class; of several the lowest does (the model's reading: R547 speaks of
one). -/
theorem State.peerClass_of_listed {w : Fin 32} (hlists : s.listsPeer uid w)
    (hlowest : ∀ v < w, ¬ s.listsPeer uid v) : s.peerClass uid = s.fld (Reg.PROT_PEER_ID w) 58 56 := by
  have hfind : ((List.range 32).find? fun v =>
      s.bit (Reg.PROT_PEER_ID v) 63 && s.fld (Reg.PROT_PEER_ID v) 55 0 == uid) = some w.val := by
    rw [List.find?_range_eq_some]
    refine ⟨State.listsPeer_iff.mp hlists, List.mem_range.mpr w.isLt, fun v hv => ?_⟩
    rw [Bool.not_eq_true', ← Bool.not_eq_true, ← State.listsPeer_iff]
    exact hlowest ⟨v, hv.trans w.isLt⟩ hv
  rw [State.peerClass, hfind]

/-- A peer that no entry lists is of the class PROT_PEER_DEF. -/
theorem State.peerClass_of_unlisted (hnone : ∀ w : Fin 32, ¬ s.listsPeer uid w) :
    s.peerClass uid = s.fld Reg.PROT_PEER_DEF 2 0 := by
  have hfind : ((List.range 32).find? fun v =>
      s.bit (Reg.PROT_PEER_ID v) 63 && s.fld (Reg.PROT_PEER_ID v) 55 0 == uid) = none := by
    rw [List.find?_eq_none]
    intro v hv
    rw [← State.listsPeer_iff]
    exact hnone ⟨v, List.mem_range.mp hv⟩
  rw [State.peerClass, hfind]

/-- Both fields that give a class are 3 bits wide. -/
theorem State.peerClass_le (s : State) (uid : Nat) : s.peerClass uid ≤ 7 := by
  unfold State.peerClass
  split
  · exact Nat.le_of_lt_succ (getF_lt _ 58 56)
  · exact Nat.le_of_lt_succ (getF_lt _ 2 0)

/-- Class 7 reaches nothing; a class below it needs a valid window that holds the index and carries the right. -/
theorem State.peerAllows_iff {i : Nat} {write : Bool} : s.peerAllows uid i write = true ↔
    s.peerClass uid ≠ 7 ∧ ∃ w : Fin 8, s.bit (Reg.PROT_PEER_WIN (s.peerClass uid) w) 63 = true ∧
      s.fld (Reg.PROT_PEER_WIN (s.peerClass uid) w) 15 0 ≤ i ∧
      i ≤ s.fld (Reg.PROT_PEER_WIN (s.peerClass uid) w) 31 16 ∧
      s.bit (Reg.PROT_PEER_WIN (s.peerClass uid) w) (if write then 33 else 32) = true := by
  have hclass : s.peerClass uid < 7 ↔ s.peerClass uid ≠ 7 := (s.peerClass_le uid).lt_iff_ne
  unfold State.peerAllows
  rw [Bool.and_eq_true, any_range_iff, decide_eq_true_iff, hclass]
  simp only [Bool.and_eq_true, decide_eq_true_iff, State.bit, State.fld, and_assoc]

end

/-- Settles O9: either hypothesis gives the peer's class, and the windows of that class decide. -/
theorem peerWindowsGovern : Obligations.PeerWindowsGovern := by
  unfold Obligations.PeerWindowsGovern
  intro s uid i write c hc
  have hclass : s.peerClass uid = c := by
    obtain ⟨w, hvalid, huid, hfield, hlowest⟩ | ⟨hnone, hdef⟩ := hc
    · exact (State.peerClass_of_listed ⟨hvalid, huid⟩ hlowest).trans hfield
    · exact (State.peerClass_of_unlisted hnone).trans hdef
  subst hclass
  exact State.peerAllows_iff

/-- After a cold reset no entry lists a peer and PROT_PEER_DEF is 7: no fabric peer reaches any index. -/
theorem peerAllows_reset (uid i : Nat) (write : Bool) : State.reset.peerAllows uid i write = false := by
  have hinvalid : ∀ w : Fin 32, State.reset.bit (Reg.PROT_PEER_ID w) 63 = false := by decide +kernel
  have hunlisted : ∀ w : Fin 32, ¬ State.reset.listsPeer uid w :=
    fun w ⟨hvalid, _⟩ => Bool.noConfusion ((hinvalid w).symm.trans hvalid)
  have hdef : State.reset.fld Reg.PROT_PEER_DEF 2 0 = 7 := by decide +kernel
  have hgovern := peerWindowsGovern State.reset uid i write 7 (.inr ⟨hunlisted, hdef⟩)
  exact Bool.eq_false_iff.mpr fun hallows => (hgovern.mp hallows).1 rfl

end Sys2Proof.Machine
end

section
/-! A step of the block (R1), and what holds of its stores right after reset. -/

namespace Sys2Proof.Machine

theorem step_of_cons {s : State} {c : Instr} {r : List Instr} (h : s.pending = c :: r) :
    step s = exec c { s with pending := r } := by
  simp [step, h]

theorem step_of_nil {s : State} (h : s.pending = []) : step s = .next s.tick := by
  simp [step, h]

/-- Settles O1: with a command in front, the step is that command's effect. -/
theorem stepRunsFront : Obligations.StepRunsFront := by
  unfold Obligations.StepRunsFront
  intro s c r h
  exact step_of_cons h

/-- The empty store is canonical, whatever an unlisted key reads as. -/
theorem Sparse.wf_nil {α : Type} [DecidableEq α] (d : Nat → α) : Sparse.wf d [] = true := rfl

theorem State.canonical_of_empty {s : State} (hregs : s.regs = []) (hmem : s.mem = []) : s.canonical = true := by
  rw [State.canonical, hregs, hmem, Memory.wf, Sparse.wf_nil, Sparse.wf_nil, Bool.and_self]

/-- Settles O3: after reset both stores are empty, device time is 0 and no command waits. -/
theorem resetIsCanonical : Obligations.ResetIsCanonical :=
  ⟨State.canonical_of_empty rfl rfl, Nat.two_pow_pos 60, rfl⟩

end Sys2Proof.Machine
end

section
/-! Writes of the protection set-up once PROT_LOCK is 1 (R544), and which flag each sets (log entry 8). -/

namespace Sys2Proof.Machine

section
variable {s : State} {who : Fin 8} {uid k : Nat} {r : EntryRow} (hrow : findRow k = some r)
  (hserved : s.servedNow k = true) (hreach : s.mayReach who uid (slotIndex k) true = true)
include hrow hserved hreach

/-- An access that does not hold the whole entry is narrow (R505), whatever the entry. -/
theorem State.writeSlot_of_narrow {lo hi : Nat} (hin : lo < r.ty.width) (hcut : 0 < lo ∨ hi < r.ty.width)
    (v : BitVec 64) (env : WriteEnv) : s.writeSlot who uid k lo hi v env = .next (s.flag who k .narrow) := by
  simp only [State.writeSlot, hserved, hreach, hrow, if_pos hcut, if_neg (Nat.not_le.mpr hin), Bool.not_true,
    Bool.false_eq_true, if_false]

variable (hprot : inProtection k = true) {hi : Nat} (hpos : 0 < r.ty.width) (hwide : r.ty.width ≤ hi)
include hprot hpos hwide

/-- No requester but 6 writes the protection set-up. -/
theorem State.writeSlot_of_protected (hwho : who ≠ 6) (v : BitVec 64) (env : WriteEnv) :
    s.writeSlot who uid k 0 hi v env = .next (s.flag who k .denied) := by
  have hcut : ¬ (0 < 0 ∨ hi < r.ty.width) := by omega
  simp only [State.writeSlot, hserved, hreach, hrow, if_neg hcut, if_neg (Nat.not_le.mpr hpos), hprot,
    bne_iff_ne.mpr hwho, Bool.and_self, if_true, Bool.not_true, Bool.false_eq_true, if_false]

/-- Once PROT_LOCK is 1, a write by requester 6 is ignored too. -/
theorem State.writeSlot_of_locked (hlocked : s.locked = true) (hwho : who = 6) (v : BitVec 64) (env : WriteEnv) :
    s.writeSlot who uid k 0 hi v env = .next (s.flag who k .ignored) := by
  subst hwho
  have hcut : ¬ (0 < 0 ∨ hi < r.ty.width) := by omega
  simp only [State.writeSlot, hserved, hreach, hrow, if_neg hcut, if_neg (Nat.not_le.mpr hpos), hprot,
    bne_self_eq_false, hlocked, Bool.and_true, Bool.and_false, Bool.or_true, Bool.true_or, if_true, Bool.not_true,
    Bool.false_eq_true, if_false]

end

/-- Settles O11: the width is tested first, then who writes, then the lock. -/
theorem lockedProtectionStands : Obligations.LockedProtectionStands := by
  unfold Obligations.LockedProtectionStands
  intro s who uid k v env r _ hlocked hprot hrow hserved hreach hpos
  by_cases hwide : r.ty.width ≤ 8
  case neg =>
    rw [if_neg hwide]
    exact State.writeSlot_of_narrow hrow hserved hreach hpos (.inr (Nat.lt_of_not_le hwide)) v env
  rw [if_pos hwide]
  by_cases hwho : who = 6
  · have hval : who.val = 6 := congrArg Fin.val hwho
    rw [if_pos hval]
    exact State.writeSlot_of_locked hrow hserved hreach hprot hpos hwide hlocked hwho v env
  · have hval : ¬ who.val = 6 := fun h => hwho (Fin.ext h)
    rw [if_neg hval]
    exact State.writeSlot_of_protected hrow hserved hreach hprot hpos hwide hwho v env

end Sys2Proof.Machine
end

section
/-! Cells of a density store (R230). -/

namespace Sys2Proof.Machine

section
variable (x : CanopyChan) (k n : Nat)

@[simp] theorem CanopyChan.cell_setCell_same : (x.setCell k n).cell k = n := Sparse.get_put_same _ _ k n

theorem CanopyChan.cell_setCell_ne {j : Nat} (h : j ≠ k) : (x.setCell k n).cell j = x.cell j :=
  Sparse.get_put_ne _ _ n h

/-- An update writes one cell of the store that the pass and the snapshot left: its count, and at most 0xFF_FFFF. -/
theorem CanopyChan.hit_fst (free : Nat) (hs : List CellHit) :
    let y := (x.stepBefore free k).readBefore free k
    (CanopyChan.hit free (x, hs) (k, n)).1 = y.setCell k (min 0xFFFFFF (y.cell k + n)) := rfl

end

/-- Settles O19: an update is one write of the cell that it meets. -/
theorem densityCellsSaturate : Obligations.DensityCellsSaturate := by
  unfold Obligations.DensityCellsSaturate
  intro x free k n hs y
  rw [CanopyChan.hit_fst]
  exact ⟨y.cell_setCell_same k _, fun j hj => y.cell_setCell_ne k _ hj⟩

end Sys2Proof.Machine
end

section
/-! The rows of the package that carry no signal (R608). -/

namespace Sys2Proof.Machine

section
variable {y k : Nat} (hlo : 11 ≤ k) (hhi : k ≤ 70)
include hlo hhi

/-- Between the memory columns, rows 19 to 62 alternate VSS and the row's own rail. -/
theorem ball_middle (hy : 19 ≤ y) (hy' : y ≤ 62) :
    ball y k = if (y + k) % 2 = 0 then .rail .vss else .rail (middleRail y k) := by
  have hleft : ¬ k ≤ 10 := by omega
  have hright : ¬ 71 ≤ k := by omega
  have ha : ¬ y = 16 := by omega
  have hb : ¬ y = 18 := by omega
  rw [ball, if_neg hleft, if_neg hright, if_neg ha, if_neg hb, if_pos ⟨hy, hy'⟩]

/-- The rows between the converters' rows hold no pair sites. -/
theorem ball_between_converters (hy : y = 63 ∨ y = 65 ∨ y = 67) : ball y k = .rail .vss := by
  have hleft : ¬ k ≤ 10 := by omega
  have hright : ¬ 71 ≤ k := by omega
  rcases hy with rfl | rfl | rfl <;> simp [ball, siteBall, sitePair, hleft, hright]

end

/-- The rails of rows 19 to 62, by row (R608). -/
theorem middleRail_eq {y : Nat} (k : Nat) (hy : 19 ≤ y) (hy' : y ≤ 62) :
    middleRail y k = (if y = 19 ∨ y = 20 ∨ y = 59 then .vddSerdes
      else if y = 21 ∨ y = 22 ∨ y = 60 then .vddhSerdes
      else if y = 55 then .vddio1v8
      else if y = 56 ∨ y = 61 ∨ y = 62 then .vdda1v8
      else if y = 57 then (if k ≤ 40 then .vddMgt else .vddEth)
      else if y = 58 then .vddioMgt
      else .vddCore) := by
  unfold middleRail
  interval_cases y <;> rfl

/-- Settles O24: rows 19 to 62 alternate VSS and the rail of their row; rows 63, 65 and 67 hold no site. -/
theorem packageMiddleRows : Obligations.PackageMiddleRows := by
  unfold Obligations.PackageMiddleRows
  intro y k hlo hhi
  refine ⟨fun hy hy' heven => ?even, fun hy hy' hodd => ?odd, ball_between_converters hlo hhi⟩
  case even => rw [ball_middle hlo hhi hy hy', if_pos heven]
  case odd => rw [ball_middle hlo hhi hy hy', if_neg (by omega), middleRail_eq k hy hy']

end Sys2Proof.Machine
end

section
/-! Sequencers (R178-R198): a command whose NAC code the begun microword bears runs that word, and the controls. -/

namespace Sys2Proof.Machine

section
variable {s : State} {q : Nat}

theorem endCommand_of_runs {nac : Nat} {b : SeqBegun} (hnac : uNac b.w = nac)
    (h : stackBad nac (s.seq q).stack = false) (parity : Bool) :
    s.endCommand q nac parity b = .next (s.runWord q b parity) := by
  simp [State.endCommand, hnac, h]

theorem seqCommand_of_runs (hrun : s.seqRunning q = true) (hclk : s.seqClocked = true) {b : SeqBegun}
    (hb : (s.seq q).begun = some b) {nac : Nat} (hnac : uNac b.w = nac)
    (h : stackBad nac (s.seq q).stack = false) (parity : Bool) :
    s.seqCommand q nac parity = .next (s.runWord q b parity) :=
  (seqCommand_of_begun hrun hclk hb nac parity).trans (endCommand_of_runs hnac h parity)

end

/-- A write of a slot reaches no sequencer's own state. -/
theorem State.seq_wrN (s : State) (k n q : Nat) : (s.wrN k n).seq q = s.seq q := rfl

section
variable {s : State} {q : Fin 5}

/-- The timer's clocks run out before SEQ_TMR shows them (R187). -/
theorem execSeqTimerExpiry_of_running (hrun : s.seqRunning q.val = true) (hclk : s.seqClocked = true) (t : Fin 2) :
    ∃ u, exec (.seqTimerExpiry q t) s = .next u ∧
      if t.val = 0 then (u.seq q.val).timer0 = (s.seq q.val).timer0.runOut (s.wordClocks q.val)
      else (u.seq q.val).timer1 = (s.seq q.val).timer1.runOut (s.wordClocks q.val) := by
  refine ⟨_, congrArg Host.Outcome.next (if_pos ((Bool.and_eq_true _ _).mpr ⟨hrun, hclk⟩)), ?_⟩
  by_cases hzero : t.val = 0
  · rw [if_pos hzero, if_pos hzero, State.seq_wrN, State.seq_setSeq_same _ _ _ q.isLt]
  · rw [if_neg hzero, if_neg hzero, State.seq_wrN, State.seq_setSeq_same _ _ _ q.isLt]

section
variable (hrun : s.seqRunning q.val = false) (hctl : s.bit (Reg.SEQ_CTL q) 0 = false) (hok : s.scalesOk q.val = true)
include hrun hctl hok

/-- ENABLE going to 1 starts a sequencer that does not run, whose store is read once it is clocked (R178). -/
theorem execSeqEnable_of_starts (p : Bool) :
    let u := ((s.putBit (Reg.SEQ_CTL q) 0 true).setFld (Reg.SEQ_STS q) 3 1 0).seqStart q.val
    exec (.seqEnable ⟨q, p⟩) s = .next (if !u.seqClocked then u
      else if p then u.seqHalt q.val 4 (u.edgeFrom u.time) else u.seqBegin q.val (u.edgeFrom u.time)) := by
  simp [exec, execSeqEnable, hrun, hctl, hok]

end

/-- What is told to a running sequencer is posted to its own state (R193, R197). -/
theorem execSeqDisable_of_running (hrun : s.seqRunning q.val = true) :
    ∃ t, exec (.seqDisable q) s = .next t ∧ t.bit (Reg.SEQ_CTL q) 0 = false ∧ (t.seq q.val).stopPosted = true := by
  have hslot : Reg.SEQ_STS q ≠ Reg.SEQ_CTL q := slot_ne_of_sub_ne _ (by decide)
  have hrun' : (s.putBit (Reg.SEQ_CTL q) 0 false).seqRunning q.val = true := by
    rw [State.seqRunning, State.bit_putBit_ne _ _ _ _ hslot]
    exact hrun
  refine ⟨_, congrArg Host.Outcome.next (if_pos hrun'), ?off, ?posted⟩
  case off => rw [State.bit, State.rd_setSeq, ← State.bit, State.bit_putBit_same _ _ _ _ (by decide)]
  case posted => rw [State.seq_setSeq_same _ _ _ q.isLt]

theorem execForceHalt_of_running (hrun : s.seqRunning q.val = true) :
    ∃ t, exec (.forceHalt q) s = .next t ∧ (t.seq q.val).haltPosted = true ∧ t.regs = s.regs := by
  refine ⟨_, congrArg Host.Outcome.next (if_pos hrun), ?posted, State.setSeq_regs _ _ _⟩
  rw [State.seq_setSeq_same _ _ _ q.isLt]

theorem execSeqCommit_eq (s : State) (q : Fin 5) : exec (.seqCommit q) s =
    .next (if s.seqRunning q.val then s.putBit (Reg.SEQ_STS q) 8 true else s.seqHandover q.val s.time) := rfl

/-- Software's requests join those that wait (R202). -/
theorem fld_seqReq (s : State) (q : Fin 5) (mask : Fin 16) :
    (s.setFld (Reg.SEQ_REQ q) 3 0 (s.fld (Reg.SEQ_REQ q) 3 0 ||| mask.val)).fld (Reg.SEQ_REQ q) 3 0 =
      s.fld (Reg.SEQ_REQ q) 3 0 ||| mask.val := by
  have hor : s.fld (Reg.SEQ_REQ q) 3 0 ||| mask.val < 2 ^ 4 := Nat.or_lt_two_pow (getF_lt _ 3 0) mask.isLt
  rw [State.fld_setFld_same _ _ _ _ _ (by decide) (by decide), Nat.mod_eq_of_lt hor]

end

/-- Settles O44: every NAC code is `State.seqCommand`, which ends the begun word; each control is its own update. -/
theorem sequencersComplete : Obligations.SequencersComplete := by
  unfold Obligations.SequencersComplete
  intro s q
  refine ⟨?words, fun t hrun hclk => execSeqTimerExpiry_of_running hrun hclk t, ?enable,
    execSeqDisable_of_running, execForceHalt_of_running, fun hrun => ?commit, fun hrun => ?handover, rfl,
    fun mask => ⟨_, rfl, fld_seqReq s q mask⟩⟩
  case words =>
    intro b p hrun hclk hb runs
    have hruns (nac : Nat) : uNac b.w = nac → stackBad nac (s.seq q.val).stack = false →
        s.seqCommand q.val nac p = .next (s.runWord q.val b p) :=
      fun hnac h => seqCommand_of_runs hrun hclk hb hnac h p
    exact ⟨hruns 0, hruns 1, hruns 2, hruns 3, hruns 4, hruns 5, hruns 6, hruns 7, hruns 8, hruns 9, hruns 10,
      hruns 11, hruns 12⟩
  case enable =>
    intro hrun hctl hok u
    have hexec := execSeqEnable_of_starts hrun hctl hok
    refine ⟨fun hclk p => ?stopped, fun hclk => ⟨?begins, ?parity⟩⟩
    case stopped => rw [hexec p]; simp [u, hclk]
    case begins => rw [hexec false]; simp [u, hclk]
    case parity => rw [hexec true]; simp [u, hclk]
  case commit => rw [execSeqCommit_eq, if_pos hrun]
  case handover => rw [execSeqCommit_eq, if_neg (ne_true_of_eq_false hrun)]

end Sys2Proof.Machine
end

section
/-! Waypoints that are due and not late (R351-R353), and the message of a FABRIC entry that leaves ahead (R355). -/

namespace Sys2Proof.Machine

/-! ### A waypoint's target rests on its table words, the tracker and the mode -/

section
variable {s t : State} (hcycles : t.ccs.cycles = s.ccs.cycles)
include hcycles

theorem State.coordTime_congr (m frac : Nat) : t.coordTime m frac = s.coordTime m frac := by
  simp only [State.coordTime, State.coordOffset, hcycles]

theorem State.wpTarget_congr {n : Nat} (hword : t.wpWord n 0 = s.wpWord n 0)
    (hmode : t.rd Reg.CCS_WP_CFG = s.rd Reg.CCS_WP_CFG) (hsts : t.rd Reg.CCS_STS = s.rd Reg.CCS_STS) :
    t.wpTarget n = s.wpTarget n := by
  unfold State.wpTarget State.ccLocked State.bit State.fld
  rw [hword, hmode, hsts]
  simp only [State.coordTime_congr hcycles]

end

theorem State.wpTarget_lt {s : State} {n t : Nat} (h : s.wpTarget n = some t) : t < timeMod := by
  have hpos : 0 < timeMod := Nat.two_pow_pos 60
  simp only [State.wpTarget] at h
  split at h
  · rw [← Option.some.inj h]
    exact Nat.mod_lt _ hpos
  · split at h
    · obtain ⟨x, -, hx⟩ := Option.map_eq_some_iff.mp h
      rw [← hx]
      exact Nat.mod_lt _ hpos
    · cases h

/-- The entries of the waypoint table stand above those of the scheduler's own index. -/
theorem wpTable_ne_slot {i e sub : Nat} (h : sub < 256) : Reg.CCS_WP_TABLE i e ≠ slot 0x2101 sub := by
  unfold Reg.CCS_WP_TABLE slot
  omega

/-- The state in which a due entry acts at its target: it is counted as fired (R352). -/
def State.wpFired (s : State) (t : Nat) : State :=
  (s.wpCount.bump Reg.CCS_WP_FIRED 64).wr Reg.CCS_WP_LAST_TS (s.stampAt t true).word

section
variable (s : State) (t : Nat)

theorem State.rd_wpFired_ne {k : Nat} (hfired : k ≠ Reg.CCS_WP_FIRED) (hlast : k ≠ Reg.CCS_WP_LAST_TS) :
    (s.wpFired t).rd k = s.rd k :=
  (State.rd_wr_ne _ _ hlast).trans (State.rd_bump_ne _ _ _ hfired)

theorem State.cycles_wpFired : (s.wpFired t).ccs.cycles = s.ccs.cycles := by
  simp only [State.wpFired, State.wr_ccs, State.bump_ccs, State.wpCount]
  split <;> rfl

theorem State.wpHead_wpFired : (s.wpFired t).wpHead = s.wpHead :=
  congrArg BitVec.toNat (s.rd_wpFired_ne t (by decide) (by decide))

theorem State.wpWord_wpFired (n w : Nat) : (s.wpFired t).wpWord n w = s.wpWord n w :=
  s.rd_wpFired_ne t (wpTable_ne_slot (by decide)) (wpTable_ne_slot (by decide))

theorem State.wpTarget_wpFired (n : Nat) : (s.wpFired t).wpTarget n = s.wpTarget n :=
  State.wpTarget_congr (s.cycles_wpFired t) (s.wpWord_wpFired t n 0) (s.rd_wpFired_ne t (by decide) (by decide))
    (s.rd_wpFired_ne t (by decide) (by decide))

end

/-- The entry at HEAD is due, names an action, and its target `t` lies in the present tick (R351, R352; log entry 37
for the boundary). -/
structure State.WpDue (s : State) (t : Nat) : Prop where
  runs : s.wpRuns = true
  pending : s.wpPending ≠ 0
  target : s.wpTarget s.wpHead = some t
  reached : s.wpReached s.wpHead t 0 = true
  notFull : s.wpFull = false
  known : wpReserved (s.wpWord s.wpHead 1) = false
  inTime : timeDiff s.sysNow t < (s.lastTick : Int)

/-- What the action of an entry in time is given: its target as the firing time. -/
def State.wpFire (s : State) (t : Nat) : WpFire where
  slot := s.wpHead % 4096
  w := s.wpWord s.wpHead 1
  ts := s.stampAt t true
  late := false

section
variable {s : State} {t : Nat} (h : s.WpDue t)
include h

/-- An entry in time acts, whatever its action, and retires. -/
theorem wpRun_of_due {act : Nat} (hact : getF (s.wpWord s.wpHead 1) 3 0 = act) (eff : WpFire → State → State) :
    s.wpRun act eff = .next (eff (s.wpFire t) (s.wpFired t)).wpRetire := by
  obtain ⟨hruns, hpend, htarget, hreached, hfull, hknown, hin⟩ := h
  have hlate : ¬ (s.lastTick : Int) ≤ timeDiff s.sysNow t := Int.not_le.mpr hin
  simp [State.wpRun, hruns, hpend, htarget, hreached, hfull, hknown, hact, hlate, State.wpFire, State.wpFired]

/-- The message of a FABRIC entry bears the entry's target, which is its firing time here (R355). -/
theorem wpTarget_fired_eq : (s.wpFired t).wpTarget (s.wpFired t).wpHead = some (s.stampAt t true).t := by
  have hmod : t % timeMod = t := Nat.mod_eq_of_lt (State.wpTarget_lt h.target)
  rw [State.wpHead_wpFired, State.wpTarget_wpFired, h.target, State.stampAt, hmod]

end

theorem execFabricLookaheadSend_of_reached {s : State} {j : Fin 64} {t : Nat} (hruns : s.wpRuns = true)
    (hpend : j.val < s.wpPending) (hact : getF (s.wpWord ((s.wpHead + j.val) % 2 ^ 32) 1) 3 0 = 7)
    (hknown : wpReserved (s.wpWord ((s.wpHead + j.val) % 2 ^ 32) 1) = false)
    (htarget : s.wpTarget ((s.wpHead + j.val) % 2 ^ 32) = some t)
    (hreached : s.wpReached ((s.wpHead + j.val) % 2 ^ 32) t (s.fld Reg.CCS_WP_CFG 16 1 * 4096) = true) :
    exec (.fabricLookaheadSend j) s = .next (s.wpFabric ((s.wpHead + j.val) % 2 ^ 32) t) := by
  have hnotpast : ¬ s.wpPending ≤ j.val := Nat.not_le.mpr hpend
  simp only [exec, execFabricLookaheadSend, hruns, hnotpast, hact, hknown, htarget, hreached]
  simp

/-- Settles O52: `State.wpRun` gives each command's action the entry's word, its slot and its target as the firing
time. -/
theorem waypointActionsComplete : Obligations.WaypointActionsComplete := by
  unfold Obligations.WaypointActionsComplete
  intro s t
  refine ⟨?ahead, ?due⟩
  case ahead =>
    intro j n hruns hpend hact hknown htarget hreached
    exact execFabricLookaheadSend_of_reached hruns hpend hact hknown htarget hreached
  intro n w ts f v hruns hpend htarget hreached hfull hknown hin
  have hdue : s.WpDue t := ⟨hruns, hpend, htarget, hreached, hfull, hknown, hin⟩
  have hruns {act : Nat} (hact : getF w 3 0 = act) (eff : WpFire → State → State) :
      s.wpRun act eff = .next (eff f v).wpRetire := wpRun_of_due hdue hact eff
  refine ⟨fun hact => hruns hact fun _ u => u, fun hact => hruns hact fun f u => u.wpArm f,
    fun hact => hruns hact fun f u => u.waypointUnits (getF f.w 9 8) (getF f.w 17 10) f.slot f.ts,
    fun hact => hruns hact fun f u => u.wpSignal f, fun hact => hruns hact fun f u => u.wpTag f,
    fun hact => hruns hact fun f u => u.wpConvert f, fun hact => hruns hact fun f u => u.wpTask f,
    fun hact => ?fabric⟩
  case fabric =>
    have htarget : v.wpTarget v.wpHead = some ts.t := wpTarget_fired_eq hdue
    refine (hruns hact fun f u => u.wpFabric u.wpHead ((u.wpTarget u.wpHead).getD f.ts.t)).trans ?_
    simp only [htarget, Option.getD_some]

end Sys2Proof.Machine
end

section
/-! Lantern words that complete: the word at PC is the command's own, the core is ready for it, and no error of the
instruction memory meets it (R275, R282-R293, R303). -/

namespace Sys2Proof.Machine

section
variable {s : State} {k : Nat} (hready : s.lntReady k (s.lntP k (s.lntPc k)))
include hready

/-- With no error in the memories, a ready core's word acts on the state as it is. -/
theorem State.lntRun_of_ready {isIt : Nat → Bool} (hit : isIt (s.lntP k (s.lntPc k)) = true)
    (act : Nat → State → State) : s.lntRun k default isIt act = .next (act (s.lntP k (s.lntPc k)) s) := by
  obtain ⟨hstate, hclock, haccepts, hissue⟩ := hready
  have hclean : (default : LntEcc).double = false := rfl
  have hcorrected : s.lntCorrect k (min (default : LntEcc).corrected (s.lntWords k (s.lntP k (s.lntPc k)))) = s :=
    if_pos (Nat.zero_min _)
  simp [State.lntRun, hstate, hclock, haccepts, hissue, hclean, hcorrected, hit]

theorem State.parallel_of_ready (hpar : s.lntP k (s.lntPc k) < 2 ^ 47) {op : Nat}
    (hop : natBits (s.lntP k (s.lntPc k)) 46 40 = op) (f : AluIn → AluOut) :
    s.parallel k default op f = .next (s.parallelAct k (s.lntP k (s.lntPc k)) f) := by
  refine State.lntRun_of_ready (isIt := fun w => decide (w < 2 ^ 47) && natBits w 46 40 == op) hready ?_ _
  exact (Bool.and_eq_true _ _).mpr ⟨decide_eq_true hpar, beq_iff_eq.mpr hop⟩

end

/-- Settles O58: every ALU command is `State.parallel` with its opcode and its operation. -/
theorem parallelWordsComplete : Obligations.ParallelWordsComplete := by
  unfold Obligations.ParallelWordsComplete
  intro s k w hready hpar runs
  have hruns {c : Instr} {op : Nat} {f : AluIn → AluOut} (hc : exec c s = s.parallel k.val default op f) :
      runs c op f :=
    fun hop => hc.trans (State.parallel_of_ready hready hpar hop f)
  exact ⟨hruns rfl, hruns rfl, hruns rfl, hruns rfl, hruns rfl, hruns rfl, hruns rfl, hruns rfl, hruns rfl,
    hruns rfl, hruns rfl, hruns rfl, hruns rfl, hruns rfl, hruns rfl, hruns rfl, hruns rfl, hruns rfl, hruns rfl,
    hruns rfl, hruns rfl, hruns rfl, hruns rfl, hruns rfl, hruns rfl, hruns rfl, hruns rfl, hruns rfl, hruns rfl,
    hruns rfl, hruns rfl, hruns rfl, hruns rfl⟩

/-! ### Control words -/

section
variable {s : State} {k : Fin 32} (hready : s.lntReady k (s.lntP k (s.lntPc k)))
include hready

theorem execLntGoto_of_ready (hit : isBranch 0 (s.lntP k (s.lntPc k)) = true) :
    execLntGoto k default s = .next (((s.lntLand k).lntAdvance k).lntBranch k
      (if s.lntCond k (natBits (s.lntP k (s.lntPc k)) 43 40)
       then some (natBits (s.lntP k (s.lntPc k)) 14 0, none) else none)) := by
  rw [execLntGoto, State.lntRun_of_ready hready hit]

/-- A conditional word that is not taken only passes its delay slots on (R289). -/
theorem execLntCall_of_untaken (hit : isBranch 1 (s.lntP k (s.lntPc k)) = true)
    (h : s.lntCond k (natBits (s.lntP k (s.lntPc k)) 43 40) = false) :
    execLntCall k default s = .next (((s.lntLand k).lntAdvance k).lntBranch k none) := by
  rw [execLntCall, State.lntRun_of_ready hready hit]
  exact congrArg _ (if_neg (ne_true_of_eq_false h))

theorem execLntRet_of_untaken (hit : isBranch 2 (s.lntP k (s.lntPc k)) = true)
    (h : s.lntCond k (natBits (s.lntP k (s.lntPc k)) 43 40) = false) :
    execLntRet k default s = .next (((s.lntLand k).lntAdvance k).lntBranch k none) := by
  rw [execLntRet, State.lntRun_of_ready hready hit]
  exact congrArg _ (if_neg (ne_true_of_eq_false h))

theorem execLntIret_of_untaken (hit : isBranch 3 (s.lntP k (s.lntPc k)) = true)
    (h : s.lntCond k (natBits (s.lntP k (s.lntPc k)) 43 40) = false) :
    execLntIret k default s = .next (((s.lntLand k).lntAdvance k).lntBranch k none) := by
  rw [execLntIret, State.lntRun_of_ready hready hit]
  exact congrArg _ (if_neg (ne_true_of_eq_false h))

section
variable (htaken : s.lntCond k (natBits (s.lntP k (s.lntPc k)) 43 40) = true)
include htaken

theorem execLntCall_of_taken (hit : isBranch 1 (s.lntP k (s.lntPc k)) = true)
    (hroom : (s.core k).stack.length < 16) :
    let next := (s.lntLand k).lntAdvance k
    execLntCall k default s = .next ((next.setCore k { next.core k with
      stack := .addr ((next.lntPc k + 2) % 2 ^ 15) :: (next.core k).stack }).lntBranch k
        (some (natBits (s.lntP k (s.lntPc k)) 14 0, none))) := by
  rw [execLntCall, State.lntRun_of_ready hready hit]
  exact congrArg _ ((if_pos htaken).trans (if_neg (Nat.not_le.mpr hroom)))

theorem execLntRet_of_taken (hit : isBranch 2 (s.lntP k (s.lntPc k)) = true) {a : Nat} {u : State}
    (hpop : s.lntPopAddr k = some (a, u)) :
    execLntRet k default s = .next (((u.lntLand k).lntAdvance k).lntBranch k (some (a, none))) := by
  rw [execLntRet, State.lntRun_of_ready hready hit]
  refine congrArg _ ((if_pos htaken).trans ?_)
  rw [hpop]

theorem execLntIret_of_taken (hit : isBranch 3 (s.lntP k (s.lntPc k)) = true) {v a : Nat} {u t : State}
    (hsr : s.lntPopSr k = some (v, u)) (hpop : u.lntPopAddr k = some (a, t)) :
    execLntIret k default s = .next (((t.lntLand k).lntAdvance k).lntBranch k (some (a, some v))) := by
  rw [execLntIret, State.lntRun_of_ready hready hit]
  refine congrArg _ ((if_pos htaken).trans ?_)
  rw [hsr]
  simp only [hpop]

theorem execLntLeave_of_taken (hit : isBranch 4 (s.lntP k (s.lntPc k)) = true) (hstack : (s.core k).stack ≠ []) :
    execLntLeave k default s = .next (((s.lntLand k).lntPopLoop k).lntBoundary k) := by
  rw [execLntLeave, State.lntRun_of_ready hready hit]
  exact congrArg _ ((if_pos htaken).trans (if_neg (mt List.isEmpty_iff.mp hstack)))

end

theorem execLntLeave_of_untaken (hit : isBranch 4 (s.lntP k (s.lntPc k)) = true)
    (h : s.lntCond k (natBits (s.lntP k (s.lntPc k)) 43 40) = false) :
    execLntLeave k default s = .next ((s.lntLand k).lntDone k) := by
  rw [execLntLeave, State.lntRun_of_ready hready hit]
  exact congrArg _ (if_neg (ne_true_of_eq_false h))

theorem execLntLoop_of_room (hit : isClass 9 (s.lntP k (s.lntPc k)) = true) (hdepth : s.ldep k ≠ 4)
    (hroom : (s.core k).stack.length < 16) :
    let t := s.lntLand k
    let u := t.setCore k { t.core k with
      stack := .loop (t.core k).lend (t.core k).lcnt (t.core k).lstart :: (t.core k).stack
      lend := natBits (s.lntP k (s.lntPc k)) 14 0, lcnt := s.lntCount k (s.lntP k (s.lntPc k)),
      lstart := t.lntPc k + 1 }
    execLntLoop k default s = .next (((u.setFld (Reg.LNT_SR k) 14 12 (u.ldep k + 1)).setLntPc k
      (u.lntPc k + 1)).lntBoundary k) := by
  rw [execLntLoop, State.lntRun_of_ready hready hit]
  exact congrArg _ ((if_neg hdepth).trans (if_neg (Nat.not_le.mpr hroom)))

theorem execLntRepeat_of_ready (hit : isClass 10 (s.lntP k (s.lntPc k)) = true) :
    let next := (s.lntLand k).lntAdvance k
    execLntRepeat k default s = .next ((next.setCore k { next.core k with
      rep := s.lntCount k (s.lntP k (s.lntPc k)) }).putBit (Reg.LNT_SR k) 15 true) := by
  rw [execLntRepeat, State.lntRun_of_ready hready hit]

theorem execLntLimm_of_ready (hit : isClass 11 (s.lntP k (s.lntPc k)) = true) :
    execLntLimm k default s = .next (s.ctlMove k (s.lntP k (s.lntPc k))) := by
  rw [execLntLimm, State.lntRun_of_ready hready hit]

theorem execLntRmov_of_ready (hit : isClass 12 (s.lntP k (s.lntPc k)) = true) :
    execLntRmov k default s = .next (s.ctlMove k (s.lntP k (s.lntPc k))) := by
  rw [execLntRmov, State.lntRun_of_ready hready hit]

theorem execLntMmov_of_ready (hit : isClass 13 (s.lntP k (s.lntPc k)) = true) :
    execLntMmov k default s = .next (s.ctlMove k (s.lntP k (s.lntPc k))) := by
  rw [execLntMmov, State.lntRun_of_ready hready hit]

theorem execLntEvt_of_ready (hit : isSys 4 (s.lntP k (s.lntPc k)) = true) :
    execLntEvt k default s =
      .next (((s.raise (448 + k) (natBits (s.lntP k (s.lntPc k)) 23 0)).lntLand k).lntDone k) := by
  rw [execLntEvt, State.lntRun_of_ready hready hit]

theorem execLntSignal_of_ready (hit : isSys 6 (s.lntP k (s.lntPc k)) = true) :
    execLntSignal k default s =
      .next (((s.lntPost (natBits (s.lntP k (s.lntPc k)) 4 0) 3).lntLand k).lntDone k) := by
  rw [execLntSignal, State.lntRun_of_ready hready hit]

theorem execLntWait_of_waits (hit : isSys 0 (s.lntP k (s.lntPc k)) = true)
    (hrun : ((s.lntLand k).lntAdvance k).lntState k = 3)
    (hvector : (((s.lntLand k).lntAdvance k).core k).vector = none) :
    let next := (s.lntLand k).lntAdvance k
    execLntWait k default s =
      .next (((next.setCore k { next.core k with waiting := .wait }).setLntState k 4).lntBoundary k) := by
  have hwaits : ¬ (((s.lntLand k).lntAdvance k).lntState k ≠ 3 ∨
      (((s.lntLand k).lntAdvance k).core k).vector.isSome = true) := by
    simp [hrun, hvector]
  rw [execLntWait, State.lntRun_of_ready hready hit]
  exact congrArg _ (if_neg hwaits)

theorem execLntDone_of_pooled (hit : isSys 1 (s.lntP k (s.lntPc k)) = true)
    (hpool : ((s.lntLand k).poolOf k).isSome = true) :
    execLntDone k default s = .next ((s.lntLand k).setLntState k 5) := by
  rw [execLntDone, State.lntRun_of_ready hready hit]
  exact congrArg _ (if_pos hpool)

theorem execLntDone_of_alone (hit : isSys 1 (s.lntP k (s.lntPc k)) = true) (hpool : (s.lntLand k).poolOf k = none) :
    execLntDone k default s = .next ((s.lntLand k).lntHalt k 1) := by
  have hsome : ¬ ((s.lntLand k).poolOf k).isSome = true := by simp [hpool]
  rw [execLntDone, State.lntRun_of_ready hready hit]
  exact congrArg _ (if_neg hsome)

theorem execLntEnq_of_taken (hit : isSys 2 (s.lntP k (s.lntPc k)) = true)
    (htaken : (s.enq k (natBits (s.lntP k (s.lntPc k)) 31 16) (s.enqItem k (s.lntP k (s.lntPc k)))).2 = true) :
    execLntEnq k default s = .next ((((s.enq k (natBits (s.lntP k (s.lntPc k)) 31 16)
      (s.enqItem k (s.lntP k (s.lntPc k)))).1.lntLand k).putBit (Reg.LNT_SR k) 6 false).lntDone k) := by
  rw [execLntEnq, State.lntRun_of_ready hready hit]
  simp only [htaken, if_true, Bool.not_true]

theorem execLntXfer_of_room (hit : isSys 3 (s.lntP k (s.lntPc k)) = true) (hroom : (s.core k).xfers.length < 4) :
    execLntXfer k default s = .next ((((s.setCore k { s.core k with
      xfers := (s.core k).xfers ++ [(s.xferDesc k (s.lntP k (s.lntPc k))).1] }).lntLand k).putBit
        (Reg.LNT_SR k) 7 false).lntDone k) := by
  have hfull : decide (4 ≤ (s.core k).xfers.length) = false := decide_eq_false (Nat.not_le.mpr hroom)
  rw [execLntXfer, State.lntRun_of_ready hready hit]
  simp only [hfull, Bool.false_eq_true, if_false]

theorem execLntSync_of_idle (hit : isSys 5 (s.lntP k (s.lntPc k)) = true)
    (hidle : ((s.lntLand k).core k).xfers = []) :
    execLntSync k default s = .next ((s.lntLand k).lntDone k) := by
  rw [execLntSync, State.lntRun_of_ready hready hit]
  exact congrArg _ (if_pos (List.isEmpty_iff.mpr hidle))

end

/-- KIND tells the branch words apart. -/
theorem isBranch_unique {i j w : Nat} (hi : isBranch i w = true) (hij : i ≠ j) : isBranch j w = false := by
  obtain ⟨-, hkind⟩ := isBranch_iff.mp hi
  rw [← Bool.not_eq_true, isBranch_iff]
  exact fun h => hij (hkind.symm.trans h.2)

/-- Settles O59: each control command is `State.lntRun` with the test of its own word and its effect. -/
theorem controlWordsComplete : Obligations.ControlWordsComplete := by
  unfold Obligations.ControlWordsComplete
  intro s k w taken next c hready _
  refine ⟨execLntGoto_of_ready hready, fun hit htaken => execLntCall_of_taken hready htaken hit,
    fun a u hit htaken => execLntRet_of_taken hready htaken hit,
    fun v a u t hit htaken => execLntIret_of_taken hready htaken hit, ?untaken,
    fun hit htaken => execLntLeave_of_taken hready htaken hit, execLntLeave_of_untaken hready,
    execLntLoop_of_room hready, execLntRepeat_of_ready hready, execLntLimm_of_ready hready,
    execLntRmov_of_ready hready, execLntMmov_of_ready hready, execLntWait_of_waits hready,
    execLntDone_of_pooled hready, execLntDone_of_alone hready, execLntEnq_of_taken hready,
    execLntXfer_of_room hready, execLntEvt_of_ready hready, execLntSync_of_idle hready,
    execLntSignal_of_ready hready⟩
  case untaken =>
    rintro (hcall | hret | hiret) huntaken
    · rw [if_pos hcall]
      exact execLntCall_of_untaken hready hcall huntaken
    · rw [if_neg (ne_true_of_eq_false (isBranch_unique hret (by decide))), if_pos hret]
      exact execLntRet_of_untaken hready hret huntaken
    · rw [if_neg (ne_true_of_eq_false (isBranch_unique hiret (by decide))),
        if_neg (ne_true_of_eq_false (isBranch_unique hiret (by decide)))]
      exact execLntIret_of_untaken hready hiret huntaken

end Sys2Proof.Machine
end

section
/-! Full-width register writes (R505-R513): a plain write stores its fields, and a transaction of several slots is
the writes of its slots in ascending order. -/

namespace Sys2Proof.Machine

/-! ### The bytes of a transaction -/

section
variable (who : Fin 8) (uid : Nat) (env : WriteEnv) (s : State)

theorem State.writeBytes_nil (fuel k off : Nat) : State.writeBytes who uid env fuel k off [] s = .next s := by
  cases fuel <;> rfl

/-- The first slot takes its eight bytes and the rest goes on from the next slot. -/
theorem State.writeBytes_slot {n k : Nat} {a : List (BitVec 8)} (ha : a.length = 8) (b : List (BitVec 8)) {t : State}
    (h : s.writeSlot who uid k 0 8 (BitVec.ofNat 64 (ofLe a)) env = .next t) :
    State.writeBytes who uid env (n + 1) k 0 (a ++ b) s = State.writeBytes who uid env n (k + 1) 0 b t := by
  have hne : ¬ (a ++ b).isEmpty = true := by
    rw [List.isEmpty_iff, List.append_eq_nil_iff]
    rintro ⟨rfl, -⟩
    cases ha
  have htake : (a ++ b).take (8 - 0) = a := List.take_left' ha
  have hdrop : (a ++ b).drop (8 - 0) = b := List.drop_left' ha
  simp [State.writeBytes, hne, htake, hdrop, ha, h]

/-- A transaction that ends within its first slot is one write. -/
theorem State.writeBytes_one {n k : Nat} {a : List (BitVec 8)} (hpos : 0 < a.length) (ha : a.length ≤ 8) {t : State}
    (h : s.writeSlot who uid k 0 a.length (BitVec.ofNat 64 (ofLe a)) env = .next t) :
    State.writeBytes who uid env (n + 1) k 0 a s = .next t := by
  have hne : ¬ a.isEmpty = true := by
    rw [List.isEmpty_iff]
    rintro rfl
    cases hpos
  have htake : a.take (8 - 0) = a := List.take_of_length_le ha
  have hdrop : a.drop (8 - 0) = [] := List.drop_eq_nil_of_le ha
  simp [State.writeBytes, hne, htake, hdrop, h, State.writeBytes_nil]

end

/-- Settles O34: one unfolding of the transaction's recursion. -/
theorem registerWriteAscends : Obligations.RegisterWriteAscends := by
  unfold Obligations.RegisterWriteAscends
  intro s who uid n k env a b ha _ t h
  exact State.writeBytes_slot who uid env s ha b h

/-! ### A plain write -/

/-- The state that a plain write leaves: the slot, and the slot's parity fault forgotten. -/
def State.stored (s : State) (k : Nat) (v : BitVec 64) (r : EntryRow) : State :=
  let t := s.wr k (s.mixed k v r)
  { t with mgt := { t.mgt with faulted := t.mgt.faulted.filter fun x => !(x == k) } }

section
variable {s : State} {who : Fin 8} {uid k : Nat} {v : BitVec 64} {env : WriteEnv} {r : EntryRow}
  (h : s.plainWrite who uid k v env r)
include h

/-- With no rule of its own, no CFG change and no counter of the same clock, the write is the mix of its fields. -/
theorem State.takeWrite_of_plain : s.takeWrite who r k v env = .next (s.stored k v r) := by
  obtain ⟨-, -, hprot, -, -, -, hrule, -, -, hstray, hhw, hcfg⟩ := h
  have hrule' : s.writeRule who env k (v &&& s.typeBits k v) = none := hrule
  have hall : BitVec.ofNat 64 r.cfg &&& 18446744073709551615#64 = BitVec.ofNat 64 r.cfg := BitVec.and_allOnes
  have hcfg' : ((v &&& s.typeBits k v) ^^^ s.rd k) &&& BitVec.ofNat 64 r.cfg = 0#64 := hcfg
  simp [hall, State.takeWrite, hrule', hprot, hstray, hhw, hcfg', State.stored, State.mixed, State.written]

theorem State.writeSlot_of_plain {hi : Nat} (hwide : r.ty.width ≤ hi) :
    s.writeSlot who uid k 0 hi v env = .next (s.stored k v r) := by
  have htake := State.takeWrite_of_plain h
  obtain ⟨hrow, hacc, hprot, hpos, hserved, hreach, -, hign, hundef, -, -, -⟩ := h
  have hcut : ¬ (0 < 0 ∨ hi < r.ty.width) := by omega
  have hro : (r.acc == .ro) = false := by rcases hacc with h | h <;> rw [h] <;> rfl
  have hrwd : (r.acc == .rwd) = false := by rcases hacc with h | h <;> rw [h] <;> rfl
  simp only [State.writeSlot, hserved, hreach, hrow, if_neg hcut, if_neg (Nat.not_le.mpr hpos), hprot, hro, hrwd,
    hign, hundef, htake, Bool.false_and, Bool.or_self, Bool.not_true, Bool.false_eq_true, if_false]

/-- The memory's configuration is of class RWD, so that a plain write moves no byte of memory. -/
theorem State.plainWrite_ne_memCfg : k ≠ Reg.MEM_CFG := by
  obtain ⟨hrow, hacc, -⟩ := h
  rintro rfl
  have hrwd : ∀ r, findRow Reg.MEM_CFG = some r → r.acc = .rwd := by decide +kernel
  rw [hrwd r hrow] at hacc
  rcases hacc with h | h <;> cases h

end

section
variable (s : State) (k : Nat) (v : BitVec 64) (r : EntryRow)

theorem State.rd_stored_same : (s.stored k v r).rd k = s.mixed k v r := s.rd_wr_same k _

theorem State.rd_stored_ne {j : Nat} (h : j ≠ k) : (s.stored k v r).rd j = s.rd j := s.rd_wr_ne _ h

theorem State.rdByte_stored (h : k ≠ Reg.MEM_CFG) (a : Nat) : (s.stored k v r).rdByte a = s.rdByte a :=
  s.rdByte_wr k _ a h

/-! What a request finds noted before it is executed is neither in the dictionary nor in what is stored. -/

theorem State.regs_fresh' : s.fresh'.regs = s.regs := by
  unfold State.fresh' State.noteSram
  split <;> rfl

theorem State.mixed_fresh' : s.fresh'.mixed k v r = s.mixed k v r := by
  unfold State.fresh' State.noteSram
  split <;> rfl

theorem State.rdByte_fresh' (a : Nat) : s.fresh'.rdByte a = s.rdByte a := by
  unfold State.fresh' State.noteSram
  split <;> rfl

theorem State.time_fresh' : s.fresh'.time = s.time := by
  unfold State.fresh' State.noteSram
  split <;> rfl

theorem State.out_fresh' : s.fresh'.out = s.out := by
  unfold State.fresh' State.noteSram
  split <;> rfl

end

theorem EntryType.width_le (ty : EntryType) : ty.width ≤ 8 := by
  cases ty <;> decide

/-- A slot's byte address in BAR0 is 8 times its number (R505). -/
theorem toNat_slotAddr {k : Nat} (hk : k < 2 ^ 24) : (BitVec.ofNat 27 (8 * k)).toNat = 8 * k := by
  rw [BitVec.toNat_ofNat, Nat.mod_eq_of_lt (by omega)]

theorem execRegisterWrite_of_plain {s : State} {who : Fin 8} {uid : BitVec 56} {k : Nat} {data : List (BitVec 8)}
    {env : WriteEnv} {r : EntryRow} (hk : k < 2 ^ 24) (hlen : data.length = r.ty.width)
    (hserves : s.serves' who = true) (hwho : who ≠ 7)
    (h : s.fresh'.plainWrite who uid.toNat k (BitVec.ofNat 64 (ofLe data)) env r) :
    exec (.registerWrite who uid (BitVec.ofNat 27 (8 * k)) data env) s =
      .next (s.fresh'.stored k (BitVec.ofNat 64 (ofLe data)) r) := by
  have hpos : 0 < data.length := by
    obtain ⟨-, -, -, hpos, -⟩ := h
    omega
  have hwrite := State.writeBytes_one who uid.toNat env s.fresh' (n := data.length - 1) hpos
    (hlen.trans_le r.ty.width_le) (State.writeSlot_of_plain h hlen.ge)
  have hserved : (s.serves' who && who != 7) = true := by rw [hserves, bne_iff_ne.mpr hwho, Bool.and_self]
  have hdiv : 8 * k / 8 = k := by omega
  have hmod : 8 * k % 8 = 0 := by omega
  rw [Nat.sub_add_cancel hpos] at hwrite
  refine (if_pos hserved).trans ?_
  rw [toNat_slotAddr hk, hdiv, hmod, hwrite]

/-- Settles O33: the transaction is one write of its slot, and a plain write is `State.stored`. -/
theorem registerWriteStores : Obligations.RegisterWriteStores := by
  unfold Obligations.RegisterWriteStores
  intro s who uid k data env r v hk hlen hserves hwho h
  refine ⟨_, execRegisterWrite_of_plain hk hlen hserves hwho h, ?same, fun j hj => ?other, fun a => ?byte,
    s.time_fresh', s.out_fresh'⟩
  case same => rw [State.rd_stored_same, State.mixed_fresh']
  case other => rw [State.rd_stored_ne _ _ _ _ hj, State.rd_congr s.regs_fresh']
  case byte => rw [State.rdByte_stored _ _ _ _ (State.plainWrite_ne_memCfg h), State.rdByte_fresh']

end Sys2Proof.Machine
end

section
/-! Frames: what a command's writes leave unchanged, one rule for each way a command writes the state. -/

namespace Sys2Proof.Machine

section
variable {s t u : State} {W : Nat → Prop}

/-- Two states whose slots, memory, time and outputs are the same stores. -/
structure State.SameStores (t u : State) : Prop where
  regs : u.regs = t.regs
  mem : u.mem = t.mem
  misread : u.misread = t.misread
  pattern : u.ddr.pattern = t.ddr.pattern
  time : u.time = t.time
  out : u.out = t.out

theorem State.SameStores.rdByte (h : t.SameStores u) (a : Nat) : u.rdByte a = t.rdByte a := by
  obtain ⟨hregs, hmem, hmisread, hpattern, -, -⟩ := h
  unfold State.rdByte
  rw [State.inPattern_congr (State.rd_congr hregs _), hmem, hmisread, hpattern]

namespace State.Frame

theorem refl (s : State) (W : Nat → Prop) : s.Frame s W := ⟨fun _ _ => rfl, fun _ => rfl, rfl, rfl⟩

theorem mono {V : Nat → Prop} (h : s.Frame t V) (hsub : ∀ k, V k → W k) : s.Frame t W :=
  ⟨fun k hk => h.rd k (hk ∘ hsub k), h.byte, h.time, h.out⟩

theorem sameStores (h : s.Frame t W) (hsame : t.SameStores u) : s.Frame u W where
  rd k hk := (State.rd_congr hsame.regs k).trans (h.rd k hk)
  byte a := (hsame.rdByte a).trans (h.byte a)
  time := hsame.time.trans h.time
  out := hsame.out.trans h.out

theorem wr (h : s.Frame t W) {k : Nat} (hw : W k) (hk : k ≠ Reg.MEM_CFG) (v : BitVec 64) : s.Frame (t.wr k v) W where
  rd j hj := (t.rd_wr_ne v fun heq : j = k => hj (heq ▸ hw)).trans (h.rd j hj)
  byte a := (t.rdByte_wr k v a hk).trans (h.byte a)
  time := h.time
  out := h.out

theorem setFld (h : s.Frame t W) {k : Nat} (hw : W k) (hk : k ≠ Reg.MEM_CFG) (hi lo x : Nat) :
    s.Frame (t.setFld k hi lo x) W := h.wr hw hk _

theorem putBit (h : s.Frame t W) {k : Nat} (hw : W k) (hk : k ≠ Reg.MEM_CFG) (b : Nat) (x : Bool) :
    s.Frame (t.putBit k b x) W := h.wr hw hk _

theorem wrN (h : s.Frame t W) {k : Nat} (hw : W k) (hk : k ≠ Reg.MEM_CFG) (n : Nat) :
    s.Frame (t.wrN k n) W := h.wr hw hk _

theorem bump (h : s.Frame t W) {k : Nat} (hw : W k) (hk : k ≠ Reg.MEM_CFG) (w n : Nat) :
    s.Frame (t.bump k w n) W := h.wr hw hk _

theorem bumpSat (h : s.Frame t W) {k : Nat} (hw : W k) (hk : k ≠ Reg.MEM_CFG) (w n : Nat) :
    s.Frame (t.bumpSat k w n) W := h.wr hw hk _

theorem raiseTs (h : s.Frame t W) (n : Nat) (ts : Stamp) (p : Nat) : s.Frame (t.raiseTs n ts p) W :=
  h.sameStores ⟨rfl, rfl, rfl, rfl, rfl, rfl⟩

theorem raise (h : s.Frame t W) (n p : Nat) : s.Frame (t.raise n p) W := h.raiseTs _ _ _

theorem latchRaise (h : s.Frame t W) {k : Nat} (hw : W k) (hk : k ≠ Reg.MEM_CFG) (b n p : Nat) :
    s.Frame (t.latchRaise k b n p) W := by
  unfold State.latchRaise
  split
  · exact h
  · exact (h.putBit hw hk b true).raise n p

theorem ite {c : Prop} [Decidable c] (ht : s.Frame t W) (hu : s.Frame u W) : s.Frame (if c then t else u) W := by
  split
  · exact ht
  · exact hu

theorem foldl {α : Type} {f : State → α → State} (hf : ∀ t a, s.Frame t W → s.Frame (f t a) W) :
    ∀ (l : List α) {t : State}, s.Frame t W → s.Frame (l.foldl f t) W
  | [], _, h => h
  | a :: l, t, h => foldl hf l (hf t a h)

theorem setTch (h : s.Frame t W) (c : Nat) (x : TrigChan) : s.Frame (t.setTch c x) W :=
  h.sameStores ⟨by simp, by simp, by simp, by simp, by simp, by simp⟩

theorem setSeq (h : s.Frame t W) (c : Nat) (x : Seq) : s.Frame (t.setSeq c x) W :=
  h.sameStores ⟨by simp, by simp, by simp, by simp, by simp, by simp⟩

theorem setLane (h : s.Frame t W) (c : Nat) (x : LaneGroup) : s.Frame (t.setLane c x) W :=
  h.sameStores ⟨by simp, by simp, by simp, by simp, by simp, by simp⟩

theorem setCan (h : s.Frame t W) (c : Nat) (x : CanopyChan) : s.Frame (t.setCan c x) W :=
  h.sameStores ⟨by simp, by simp, by simp, by simp, by simp, by simp⟩

theorem setRes (h : s.Frame t W) (c : Nat) (x : SpxRes) : s.Frame (t.setRes c x) W :=
  h.sameStores ⟨by simp, by simp, by simp, by simp, by simp, by simp⟩

theorem setCore (h : s.Frame t W) (c : Nat) (x : LntCore) : s.Frame (t.setCore c x) W :=
  h.sameStores ⟨by simp, by simp, by simp, by simp, by simp, by simp⟩

theorem setPulse (h : s.Frame t W) (c : Nat) (x : List (Nat × Nat)) : s.Frame (t.setPulse c x) W :=
  h.sameStores ⟨by simp, by simp, by simp, by simp, by simp, by simp⟩

theorem setEp (h : s.Frame t W) (c : Nat) (x : EpFn) : s.Frame (t.setEp c x) W :=
  h.sameStores ⟨by simp, by simp, by simp, by simp, by simp, by simp⟩

theorem trgHandover (h : s.Frame t W) {c : Nat} (hsts : W (Reg.TRG_CH_STS c)) (hgen : W (Reg.TRG_SHADOW_GEN c))
    (hcfg : Reg.TRG_CH_STS c ≠ Reg.MEM_CFG) (hcfg' : Reg.TRG_SHADOW_GEN c ≠ Reg.MEM_CFG) (th : Nat) :
    s.Frame (t.trgHandover c th) W :=
  (((foldl (fun _ _ h => h.setTch _ _) _ (h.wrN hgen hcfg' _)).setTch _ _).putBit hsts hcfg 0 false).raiseTs _ _ _

theorem trgPass (h : s.Frame t W) {c : Nat} (hsts : W (Reg.TRG_CH_STS c)) (hgen : W (Reg.TRG_SHADOW_GEN c))
    (hcfg : Reg.TRG_CH_STS c ≠ Reg.MEM_CFG) (hcfg' : Reg.TRG_SHADOW_GEN c ≠ Reg.MEM_CFG) : s.Frame (t.trgPass c) W := by
  unfold State.trgPass
  split
  · exact ite (h.trgHandover hsts hgen hcfg hcfg' _) h
  · exact h

theorem trgRequest (h : s.Frame t W) {c : Nat} (hsts : W (Reg.TRG_CH_STS c)) (hgen : W (Reg.TRG_SHADOW_GEN c))
    (hcfg : Reg.TRG_CH_STS c ≠ Reg.MEM_CFG) (hcfg' : Reg.TRG_SHADOW_GEN c ≠ Reg.MEM_CFG) (th : Nat) (timed : Bool) :
    s.Frame (t.trgRequest c th timed) W :=
  have hhand := ((h.trgPass hsts hgen hcfg hcfg').setTch c _).putBit hsts hcfg 0 true
  (ite (hhand.latchRaise hsts hcfg _ _ _) hhand).trgPass hsts hgen hcfg hcfg'

theorem setWpHead (h : s.Frame t W) (hhead : W Reg.CCS_WP_HEAD) (hsts : W Reg.CCS_WP_STS) (n : Nat) :
    s.Frame (t.setWpHead n) W :=
  (h.wrN hhead (by decide) _).setFld hsts (by decide) _ _ _

theorem withCcs (h : s.Frame t W) (x : Ccs) : s.Frame { t with ccs := x } W :=
  h.sameStores ⟨rfl, rfl, rfl, rfl, rfl, rfl⟩

theorem snapBegin (h : s.Frame t W) (c : Nat) : s.Frame (t.snapBegin c) W := by
  unfold State.snapBegin
  dsimp only
  split
  · exact ite h (h.setCan c _)
  · exact h

theorem maintain (h : s.Frame t W) {c : Nat} (hw : W (Reg.CAN_STS c)) (hcfg : Reg.CAN_STS c ≠ Reg.MEM_CFG) :
    s.Frame (t.maintain c) W :=
  ite ((h.setFld hw hcfg _ _ _).setCan c _) (h.snapBegin c)

theorem dmaPause (h : s.Frame t W) {ch : Nat} (hw : W (Reg.QDM_CH_STS ch)) (hcfg : Reg.QDM_CH_STS ch ≠ Reg.MEM_CFG) :
    s.Frame (t.dmaPause ch) W := by
  unfold State.dmaPause
  split
  · exact h.setFld hw hcfg _ _ _
  · exact h.setFld hw hcfg _ _ _
  · exact h

theorem memTrain (h : s.Frame t W) (hw : W Reg.MEM_STS) (kind st : Nat) : s.Frame (t.memTrain kind st) W :=
  have hkind : s.Frame { t with ddr := { t.ddr with kind := kind } } W := h.sameStores ⟨rfl, rfl, rfl, rfl, rfl, rfl⟩
  hkind.setFld hw (by decide) _ _ _

theorem lntPost (h : s.Frame t W) {k : Nat} (hw : W (Reg.LNT_STS k)) (hcfg : Reg.LNT_STS k ≠ Reg.MEM_CFG) (v : Nat) :
    s.Frame (t.lntPost k v) W :=
  ite ((h.setCore k _).setFld hw hcfg _ _ _) (h.setCore k _)

end State.Frame
end

/-! ### No slot that these commands write is MEM_CFG, on which alone memory's readings depend -/

theorem slot_ne_memCfg_of_sub (index : Nat) {sub : Nat} (hlt : sub < 256) (hne : sub ≠ 1) :
    slot index sub ≠ Reg.MEM_CFG := by
  unfold Reg.MEM_CFG slot
  omega

theorem slot_ne_memCfg_of_index {index sub : Nat} (hindex : index ≠ 0x6000) (hlt : sub < 256) :
    slot index sub ≠ Reg.MEM_CFG := by
  unfold Reg.MEM_CFG slot
  omega

theorem Reg.TRG_CH_STS_ne_memCfg (c : Fin 4) : Reg.TRG_CH_STS c ≠ Reg.MEM_CFG :=
  slot_ne_memCfg_of_index (by omega) (by decide)

/-- A hand-over request writes the channel's status and shadow generation (R164, R165). -/
theorem State.frame_trgCommit (s : State) (c : Fin 4) (th : Nat) (timed : Bool) {t : State}
    (hrun : s.trgCommit c th timed = .next t) :
    s.Frame t (fun k => k = Reg.TRG_CH_STS c ∨ k = Reg.TRG_SHADOW_GEN c) := by
  unfold State.trgCommit at hrun
  split at hrun
  · cases hrun
  · cases hrun
    exact (State.Frame.refl s _).trgRequest (.inl rfl) (.inr rfl) (Reg.TRG_CH_STS_ne_memCfg c)
      (slot_ne_memCfg_of_sub _ (by decide) (by decide)) th timed

theorem State.frame_trigOutForce (s : State) (n : Fin 4) {t : State} (hrun : execTrigOutForce n s = .next t) :
    s.Frame t (fun _ => False) := by
  unfold execTrigOutForce at hrun
  by_cases hshort : s.fld (Reg.TRG_OUT_CFG n) 27 12 < 4
  · rw [State.pulseJudge, if_pos hshort] at hrun
    cases hrun
  · rw [State.pulseJudge, if_neg hshort] at hrun
    cases hrun
    exact (State.Frame.refl s _).setPulse _ _

/-- Settles O20: every one of these commands is a run of writes to the named slots and to state of its own. -/
theorem triggerSequencerFrame : Obligations.TriggerSequencerFrame := by
  unfold Obligations.TriggerSequencerFrame
  intro s t c u q
  have hframe (W : Nat → Prop) : s.Frame s W := State.Frame.refl s W
  have hself (k : Nat) : s.Frame s (· = k) := State.Frame.refl s _
  refine ⟨fun on h => ?arm, fun h => ?disable, fun h => h.elim (s.frame_trgCommit c _ _) (s.frame_trgCommit c _ _),
    fun n h => s.frame_trigOutForce n h, fun h => ?seqDisable, fun h => ?halt, fun h => ?post, fun mask h => ?req⟩
  case arm =>
    have hk : Reg.TRG_UNIT_CTL c u ≠ Reg.MEM_CFG := slot_ne_memCfg_of_sub _ (by decide) (by decide)
    cases (Host.Outcome.next.inj h : s.armUnit c u on s.time true = t)
    exact ((hself _).putBit rfl hk 1 on).setTch _ _
  case disable =>
    have hk : Reg.TRG_UNIT_CTL c u ≠ Reg.MEM_CFG := slot_ne_memCfg_of_sub _ (by decide) (by decide)
    cases (Host.Outcome.next.inj h : (s.parityFree (Reg.TRG_UNIT_CTL c u)).putBit (Reg.TRG_UNIT_CTL c u) 0 false = t)
    have hfree : s.Frame (s.parityFree (Reg.TRG_UNIT_CTL c u)) (· = Reg.TRG_UNIT_CTL c u) :=
      (hself _).sameStores ⟨rfl, rfl, rfl, rfl, rfl, rfl⟩
    exact hfree.putBit rfl hk 0 false
  case seqDisable =>
    have hk : Reg.SEQ_CTL q ≠ Reg.MEM_CFG := slot_ne_memCfg_of_sub _ (by decide) (by decide)
    cases (show execSeqDisable q s = .next t from h)
    have hoff := (hframe (· = Reg.SEQ_CTL q)).putBit rfl hk 0 false
    exact .ite (hoff.setSeq _ _) hoff
  case halt =>
    cases (show execForceHalt q s = .next t from h)
    exact .ite ((hframe _).setSeq _ _) (hframe _)
  case post =>
    have hk : Reg.SEQ_FAULT q ≠ Reg.MEM_CFG := slot_ne_memCfg_of_sub _ (by decide) (by decide)
    cases (show execFaultPost q s = .next t from h)
    exact .ite ((hself _).putBit rfl hk _ _) (hframe _)
  case req =>
    have hk : Reg.SEQ_REQ q ≠ Reg.MEM_CFG := slot_ne_memCfg_of_sub _ (by decide) (by decide)
    cases (show execSeqReq q mask s = .next t from h)
    exact (hself _).setFld rfl hk _ _ _

/-- Settles O21: every one of these commands is a run of writes to the named slots and to state of its own. -/
theorem signalPathFrame : Obligations.SignalPathFrame := by
  unfold Obligations.SignalPathFrame
  intro s t g c j r
  have hframe (W : Nat → Prop) : s.Frame s W := State.Frame.refl s W
  have hself (k : Nat) : s.Frame s (· = k) := State.Frame.refl s _
  have hcanSts : Reg.CAN_STS c ≠ Reg.MEM_CFG := slot_ne_memCfg_of_sub _ (by decide) (by decide)
  have hcanCtl : Reg.CAN_CTL c ≠ Reg.MEM_CFG := slot_ne_memCfg_of_sub _ (by decide) (by decide)
  refine ⟨fun low h => ?present, fun h => ?rawGo, fun words h => ?rawSnap, fun on errors h => ?prbs, fun h => ?spx,
    fun h => ?clear, fun h => ?commit, fun on h => ?hold, fun h => ?scan, fun mask h => ?traces⟩
  case present =>
    cases (show execPrsntEdge g low s = .next t from h)
    exact (hframe _).setLane _ _
  case rawGo =>
    cases (show execRawGo g s = .next t from h)
    exact .ite (.foldl (fun _ _ h => h.setLane _ _) _ (hframe _)) (hframe _)
  case rawSnap =>
    have hk (l : Nat) : Reg.LNK_RAW_WORD (s.jLane g l) ≠ Reg.MEM_CFG := slot_ne_memCfg_of_sub _ (by decide) (by decide)
    cases (show execRawSnap g words s = .next t from h)
    have hdraw : s.Frame s.draw.2 (fun k => ∃ l, k = Reg.LNK_RAW_WORD (s.jLane g l)) :=
      (hframe _).sameStores ⟨rfl, rfl, rfl, rfl, rfl, rfl⟩
    refine .foldl (fun t l h => ?_) _ hdraw
    have hmap : t.jLane g l = s.jLane g l := by
      unfold State.jLane State.fld
      rw [h.rd]
      rintro ⟨n, heq⟩
      unfold Reg.LNK_LANE_MAP Reg.LNK_RAW_WORD slot at heq
      omega
    rw [hmap]
    exact h.wrN ⟨l, rfl⟩ (hk l) _
  case prbs =>
    have herr : (if j.val < 48 then Reg.LNK_ERR_PRBS j else Reg.FAB_ERR_PRBS (j.val - 48)) ≠ Reg.MEM_CFG := by
      split
      · exact slot_ne_memCfg_of_sub _ (by decide) (by decide)
      · exact slot_ne_memCfg_of_sub _ (by decide) (by decide)
    have hsts : (if j.val < 48 then Reg.LNK_LANE_STS j else Reg.FAB_LANE_STS (j.val - 48)) ≠ Reg.MEM_CFG := by
      split
      · exact slot_ne_memCfg_of_index (by omega) (by decide)
      · exact slot_ne_memCfg_of_index (by omega) (by decide)
    cases (show execPrbsLock j on errors s = .next t from h)
    have hcount (k : Nat) (hk : k = (if j.val < 48 then Reg.LNK_ERR_PRBS j else Reg.FAB_ERR_PRBS (j.val - 48))) :=
      (hframe (fun k => k = (if j.val < 48 then Reg.LNK_ERR_PRBS j else Reg.FAB_ERR_PRBS (j.val - 48)) ∨
        k = (if j.val < 48 then Reg.LNK_LANE_STS j else Reg.FAB_LANE_STS (j.val - 48)))).bump (.inl hk) (hk ▸ herr) 64
          errors
    by_cases hlane : j.val < 48
    · simp only [hlane, if_true] at *
      exact (State.Frame.ite (hcount _ rfl) (hframe _)).putBit (.inr rfl) hsts _ _
    · simp only [hlane, if_false] at *
      exact (State.Frame.ite (hcount _ rfl) (hframe _)).putBit (.inr rfl) hsts _ _
  case spx =>
    have hk : Reg.SPX_RES_STS r ≠ Reg.MEM_CFG := slot_ne_memCfg_of_index (by omega) (by decide)
    cases (show execSpxCommit r s = .next t from h)
    exact ((hself _).setRes _ _).putBit rfl hk _ _
  case clear =>
    cases (show execCanClear c s = .next t from h)
    exact (hframe _).setCan _ _
  case commit =>
    cases (show execCanCommit c s = .next t from h)
    exact (hself _).putBit rfl hcanSts _ _
  case hold =>
    cases (show execCanHold c on s = .next t from h)
    have hheld (x : CanopyChan) := ((hframe fun k => k = Reg.CAN_CTL c ∨ (on = false ∧ k = Reg.CAN_STS c)).setCan c
      x).putBit (.inl rfl) hcanCtl 3 on
    cases on
    · exact .ite (hheld _) ((hheld _).maintain (.inr ⟨rfl, rfl⟩) hcanSts)
    · exact hheld _
  case scan =>
    have hk : Reg.SCN_STS ≠ Reg.MEM_CFG := slot_ne_memCfg_of_sub _ (by decide) (by decide)
    cases (show execScnCommit s = .next t from h)
    exact ((hself _).putBit rfl hk 1 true).sameStores ⟨rfl, rfl, rfl, rfl, rfl, rfl⟩
  case traces =>
    cases (show execTraceReset mask s = .next t from h)
    exact (hframe _).sameStores ⟨rfl, rfl, rfl, rfl, rfl, rfl⟩

/-- Settles O22: every one of these commands is a run of writes to the named slots and to state of its own. -/
theorem servicesFrame : Obligations.ServicesFrame := by
  unfold Obligations.ServicesFrame
  intro s t
  have hframe (W : Nat → Prop) : s.Frame s W := State.Frame.refl s W
  have hself (k : Nat) : s.Frame s (· = k) := State.Frame.refl s _
  have hwpSts : Reg.CCS_WP_STS ≠ Reg.MEM_CFG := slot_ne_memCfg_of_index (by decide) (by decide)
  refine ⟨fun v h => ?tail, fun h => ?cancel, fun i e v h => ?release, fun w v h => ?threshold, fun h => ?monTick,
    fun ch h => ?enable, fun ch h => ?pause, fun h => ?retrain, fun k h => ?hostIrq, fun n h => ?flr, fun h => ?kick⟩
  case tail =>
    have hk : Reg.CCS_WP_TAIL ≠ Reg.MEM_CFG := slot_ne_memCfg_of_sub _ (by decide) (by decide)
    replace h : execWpTailWrite v s = .next t := h
    unfold execWpTailWrite at h
    dsimp only at h
    split at h
    · cases h
    · cases h
      exact ((hframe _).wrN (.inl rfl) hk _).setFld (.inr rfl) hwpSts _ _ _
  case cancel =>
    have hcancelled : Reg.CCS_WP_CANCELLED ≠ Reg.MEM_CFG := slot_ne_memCfg_of_sub _ (by decide) (by decide)
    have hhead : Reg.CCS_WP_HEAD ≠ Reg.MEM_CFG := slot_ne_memCfg_of_sub _ (by decide) (by decide)
    have hrun : execWpCancel s = .next t := h
    unfold execWpCancel at hrun
    have hcount := (hframe fun k => k = Reg.CCS_WP_CANCELLED ∨ k = Reg.CCS_WP_HEAD ∨ k = Reg.CCS_WP_STS).bumpSat
      (.inl rfl) hcancelled 32 s.wpPending
    rw [← Host.Outcome.next.inj hrun]
    exact (hcount.withCcs _).setWpHead (.inr (.inl rfl)) (.inr (.inr rfl)) _
  case release =>
    have hk : Reg.TIM_S_REL i e ≠ Reg.MEM_CFG := slot_ne_memCfg_of_sub _ (by omega) (by omega)
    replace h : execTimSRelWrite i e v s = .next t := h
    unfold execTimSRelWrite at h
    dsimp only at h
    split at h
    · cases h
    · cases h
      exact (hself _).wr rfl hk v
  case threshold =>
    have hthr : Reg.CMP_MON_THR w ≠ Reg.MEM_CFG := slot_ne_memCfg_of_sub _ (by decide) (by decide)
    have hsts : Reg.CMP_MON_STS w ≠ Reg.MEM_CFG := slot_ne_memCfg_of_sub _ (by decide) (by decide)
    cases (show execMonThrWrite w v s = .next t from h)
    exact ((hframe _).wrN (.inl rfl) hthr _).setFld (.inr rfl) hsts _ _ _
  case monTick =>
    replace h : execMonTick s = .next t := h
    unfold execMonTick at h
    split at h
    · cases h
    · cases h
      split
      · exact hframe _
      · exact .ite ((hframe _).sameStores ⟨rfl, rfl, rfl, rfl, rfl, rfl⟩) (hframe _)
  case enable =>
    have hctl : Reg.QDM_CH_CTL ch ≠ Reg.MEM_CFG := slot_ne_memCfg_of_sub _ (by decide) (by decide)
    have hsts : Reg.QDM_CH_STS ch ≠ Reg.MEM_CFG := slot_ne_memCfg_of_index (by omega) (by decide)
    cases (show execDmaEnable ch s = .next t from h)
    have hon := ((hframe fun k => k = Reg.QDM_CH_CTL ch ∨ k = Reg.QDM_CH_STS ch).putBit (.inl rfl) hctl 0 true).putBit
      (.inr rfl) hsts 4 false
    exact .ite (hon.setFld (.inr rfl) hsts _ _ _) hon
  case pause =>
    have hctl : Reg.QDM_CH_CTL ch ≠ Reg.MEM_CFG := slot_ne_memCfg_of_sub _ (by decide) (by decide)
    have hsts : Reg.QDM_CH_STS ch ≠ Reg.MEM_CFG := slot_ne_memCfg_of_index (by omega) (by decide)
    cases (show execDmaPause ch s = .next t from h)
    exact ((hframe _).putBit (.inl rfl) hctl _ _).dmaPause (.inr rfl) hsts
  case retrain =>
    cases (show execRetrain s = .next t from h)
    exact .ite ((hself _).memTrain rfl 1 3) (hframe _)
  case hostIrq =>
    have hk : Reg.LNT_STS k ≠ Reg.MEM_CFG := slot_ne_memCfg_of_index (by omega) (by decide)
    cases (show execLntHostIrq k s = .next t from h)
    exact (hself _).lntPost rfl hk 4
  case flr =>
    cases (show execFlrStart n s = .next t from h)
    exact .ite (((hframe _).setEp _ _).sameStores ⟨rfl, rfl, rfl, rfl, rfl, rfl⟩) (hframe _)
  case kick =>
    cases (show execWdogKick s = .next t from h)
    exact (hframe _).sameStores ⟨rfl, rfl, rfl, rfl, rfl, rfl⟩

end Sys2Proof.Machine
end

section
/-! Stores from outside (R435, R439): the bytes that a write through a port leaves in memory. -/

namespace Sys2Proof.Machine

section
variable {s : State}

/-- A byte of a run that lies clear of the pattern area lies clear of it too. -/
theorem State.inPattern_byte {a n j : Nat} (hclear : s.inPattern a n = false) (hj : j < n) :
    s.inPattern (a + j) 1 = false := by
  simp only [State.inPattern, Bool.and_eq_false_iff, decide_eq_false_iff_not] at hclear ⊢
  omega

/-- Consecutive writes put each byte at its place (R435), but for bytes that hold no bit of a Lantern word (R305). -/
theorem State.rdByte_wrBytes_in (a : Nat) (data : List (BitVec 8)) (hclear : s.inPattern a data.length = false)
    {j : Nat} {b : BitVec 8} (hj : data[j]? = some b) (hpad : lanternPad (a + j) = false) :
    (s.wrBytes a data).rdByte (a + j) = b := by
  induction data generalizing s a j with
  | nil => simp at hj
  | cons x r ih =>
    have hfirst : s.inPattern (a + 0) 1 = false := State.inPattern_byte hclear (by simp)
    cases j with
    | zero =>
      obtain rfl : x = b := by simpa using hj
      change ((s.wrByte a x).wrBytes (a + 1) r).rdByte a = x
      rw [State.rdByte_wrBytes_out _ (a + 1) _ (.inl (Nat.lt_succ_self a)),
        State.rdByte_wrByte_same _ a x hpad fun _ => hfirst]
    | succ j =>
      rw [State.wrBytes, Nat.add_comm j 1, ← Nat.add_assoc]
      rw [Nat.add_comm j 1, ← Nat.add_assoc] at hpad
      refine ih (a + 1) ?_ (by simpa using hj) hpad
      rw [State.inPattern_congr (State.rd_wrByte s a x _)]
      simp only [State.inPattern, Bool.and_eq_false_iff, decide_eq_false_iff_not, List.length_cons] at hclear ⊢
      omega

/-- What a store of `data` at `a` keeps: every byte outside, every slot but `k`, and the time. -/
structure State.StoresAt (s t : State) (a : Nat) (data : List (BitVec 8)) (kept : Nat → Prop) : Prop where
  outside : ∀ b, b < a ∨ a + data.length ≤ b → t.rdByte b = s.rdByte b
  rd : ∀ k, kept k → t.rd k = s.rd k
  time : t.time = s.time

variable {a : Nat} {data : List (BitVec 8)} {kept : Nat → Prop}

theorem State.StoresAt.refl : s.StoresAt s a data kept := ⟨fun _ _ => rfl, fun _ _ => rfl, rfl⟩

/-- A write request is served or waits for GDDR7 (R383, R387): it reaches no byte but its own, and no slot. -/
theorem State.storesAt_memRequest (n tag len : Nat) :
    s.StoresAt (s.memRequest ⟨n, tag, true, a, len, data⟩) a data kept := by
  unfold State.memRequest
  split
  · exact ⟨fun _ _ => rfl, fun _ _ => rfl, rfl⟩
  · exact ⟨fun b hb => State.rdByte_wrBytes_out s a data hb, fun k _ => State.rd_wrBytes s a data k, by simp [State.serveHeld]⟩

/-- A write request that does not wait puts each byte at its place. -/
theorem State.rdByte_memRequest {n tag len : Nat} (hserved : s.portWaits n a = false)
    (hclear : s.inPattern a data.length = false) {j : Nat} {b : BitVec 8} (hj : data[j]? = some b)
    (hpad : lanternPad (a + j) = false) :
    (s.memRequest ⟨n, tag, true, a, len, data⟩).rdByte (a + j) = b := by
  rw [State.memRequest, if_neg (by simp [hserved])]
  exact State.rdByte_wrBytes_in a data hclear hj hpad

theorem State.memOk_of_memWriteOk {n : Nat} (h : s.memWriteOk a n = true) : s.memOk a n = true := by
  simp only [State.memWriteOk, Bool.and_eq_true] at h
  obtain ⟨⟨⟨hok, -⟩, -⟩, -⟩ := h
  exact hok

theorem State.inPattern_of_memWriteOk {n : Nat} (h : s.memWriteOk a n = true) : s.inPattern a n = false := by
  simp only [State.memWriteOk, Bool.and_eq_true, Bool.not_eq_true'] at h
  obtain ⟨⟨⟨-, hclear⟩, -⟩, -⟩ := h
  exact hclear

theorem State.memWriteOk_of_softWriteOk {n : Nat} (h : s.softWriteOk a n = true) : s.memWriteOk a n = true := by
  simp only [State.softWriteOk, Bool.and_eq_true] at h
  obtain ⟨⟨hok, -⟩, -⟩ := h
  exact hok

end

/-- What a write through BAR2 can do (R435): nothing, a count of a bad access, or the request. -/
theorem execBar2Access_write_cases {n : Fin 4} {tag : Fin 16384} {off len : Nat} {data : List (BitVec 8)} {s t : State}
    (h : execBar2Access n tag true off len data s = .next t) :
    t = s ∨ t = s.bumpSat (Reg.PCI_EP_BAD_ACC n) 32 ∨
      t = s.memRequest ⟨n, tag, true, s.fld (Reg.PCI_EP_BAR2 n) 47 20 * 2 ^ 20 + off, data.length, data⟩ := by
  unfold execBar2Access at h
  simp only [if_true] at h
  split at h
  · cases h
  split at h
  · exact .inl (Host.Outcome.next.inj h).symm
  split at h
  · cases h
  split at h
  · exact .inr (.inl (Host.Outcome.next.inj h).symm)
  split at h
  · cases h
  · exact .inr (.inr (Host.Outcome.next.inj h).symm)

/-- A write through BAR2 that is in the window, allowed and in order is its request. -/
theorem execBar2Access_of_allowed {n : Fin 4} {tag : Fin 16384} {off len : Nat} {data : List (BitVec 8)} {s t : State}
    (h : execBar2Access n tag true off len data s = .next t) (hserves : s.epServes n.val = true)
    (hsize : off + data.length ≤ 2 ^ s.fld (Reg.PCI_EP_BAR2 n) 5 0)
    (hok : s.softWriteOk (s.fld (Reg.PCI_EP_BAR2 n) 47 20 * 2 ^ 20 + off) data.length = true)
    (hallows : s.epAllows n.val (s.fld (Reg.PCI_EP_BAR2 n) 47 20 * 2 ^ 20 + off) data.length true = true) :
    t = s.memRequest ⟨n, tag, true, s.fld (Reg.PCI_EP_BAR2 n) 47 20 * 2 ^ 20 + off, data.length, data⟩ := by
  have hmem := State.memOk_of_memWriteOk (State.memWriteOk_of_softWriteOk hok)
  unfold execBar2Access at h
  simp only [hserves, Nat.not_lt.mpr hsize, hok, hallows, hmem, if_true, Bool.true_and, Bool.not_true, Bool.and_self,
    Bool.false_or, decide_false, Bool.false_eq_true, if_false, decide_eq_true_eq] at h
  split at h
  · cases h
  split at h
  · cases h
  · exact (Host.Outcome.next.inj h).symm

/-- What a write from below a root port can do (R439): nothing, or the request. -/
theorem execDownstreamRequest_write_cases {n : Fin 4} {tag : Fin 16384} {addr : BitVec 64} {len : Nat}
    {data : List (BitVec 8)} {s t : State} (h : execDownstreamRequest n tag true addr len data s = .next t) :
    t = s ∨ t = s.memRequest ⟨n, tag, true, addr.toNat, data.length, data⟩ := by
  unfold execDownstreamRequest at h
  simp only [if_true] at h
  split at h
  · exact .inl (Host.Outcome.next.inj h).symm
  split at h
  · split at h
    · exact .inl (Host.Outcome.next.inj h).symm
    split at h
    · cases h
    · exact .inr (Host.Outcome.next.inj h).symm
  split at h
  · exact .inl (Host.Outcome.next.inj h).symm
  split at h <;> exact .inl (Host.Outcome.next.inj h).symm

/-- Settles O23: a write from outside is nothing, a count of a bad access, or the bytes of its request. -/
theorem storesReachTheirBytes : Obligations.StoresReachTheirBytes := by
  unfold Obligations.StoresReachTheirBytes
  intro s t n tag data len
  refine ⟨fun off => ?bar2, fun addr h => ?downstream⟩
  case bar2 =>
    intro a h
    have hbad : Reg.PCI_EP_BAD_ACC n ≠ Reg.MEM_CFG := slot_ne_memCfg_of_sub _ (by decide) (by decide)
    have hstores : s.StoresAt t a data (· ≠ Reg.PCI_EP_BAD_ACC n) := by
      obtain rfl | rfl | rfl := execBar2Access_write_cases h
      · exact .refl
      · exact ⟨fun b _ => State.rdByte_bumpSat _ _ _ _ b hbad, fun k hk => State.rd_bumpSat_ne _ _ _ hk,
          State.bumpSat_time _ _ _ _⟩
      · exact State.storesAt_memRequest n tag data.length
    refine ⟨hstores.outside, hstores.rd, hstores.time, fun hserves hsize hok hallows hwaits j b hj hpad => ?_⟩
    obtain rfl := execBar2Access_of_allowed h hserves hsize hok hallows
    exact State.rdByte_memRequest hwaits (State.inPattern_of_memWriteOk (State.memWriteOk_of_softWriteOk hok)) hj hpad
  case downstream =>
    have hstores : s.StoresAt t addr.toNat data (fun _ => True) := by
      obtain rfl | rfl := execDownstreamRequest_write_cases h
      · exact .refl
      · exact State.storesAt_memRequest n tag data.length
    refine ⟨hstores.outside, fun k => hstores.rd k trivial, hstores.time,
      fun hrole hup htop hok hctx hwaits j b hj hpad => ?_⟩
    have hrun : execDownstreamRequest n tag true addr len data s =
        .next (s.memRequest ⟨n, tag, true, addr.toNat, data.length, data⟩) := by
      simp only [execDownstreamRequest, hrole, hup, htop, State.memOk_of_memWriteOk hok, hok, hctx, ne_eq,
        not_true_eq_false, or_self, if_true, if_false, Bool.not_true, Bool.not_false, Bool.and_self, Bool.true_and,
        Bool.false_eq_true]
    cases hrun.symm.trans h
    exact State.rdByte_memRequest hwaits (State.inPattern_of_memWriteOk hok) hj hpad

end Sys2Proof.Machine
end

section
/-! Growth (R1, R380, R505): what every function of the model keeps, one rule for each. `Evolves` follows a state through
a function, `Reaches` an outcome; the device's clock alone, resets and steps of device time move it. -/

namespace Sys2Proof.Machine

/-- `t` has grown out of `s`; with `ticks` false, device time and the time since power-on stand. -/
structure State.Evolves (ticks : Bool) (s t : State) : Prop where
  grows : s.Grows t
  still : ticks = false → t.time = s.time ∧ t.clk.up = s.clk.up

/-- The state that an outcome goes on with, if it does, has grown out of `s`. -/
def State.Reaches (ticks : Bool) (s : State) (o : Host.Outcome State Fault Refusal) : Prop :=
  ∀ t, o = .next t → s.Evolves ticks t

/-- The stores, counters and times that growth speaks of are the same. -/
structure State.SameGrowth (s t : State) : Prop where
  regs : t.regs = s.regs
  mem : t.mem = s.mem
  out : t.out = s.out
  fresh : t.fresh = s.fresh
  pending : t.pending = s.pending
  time : t.time = s.time
  up : t.clk.up = s.clk.up

theorem timeAdd_lt (a : Nat) (d : Int) : timeAdd a d < timeMod := by
  unfold timeAdd timeMod
  omega

section
-- Thousands of short proofs, elaborated in turn: in parallel they hold more threads than the checks' memory bound has.
set_option Elab.async false
variable {τ : Bool} {s₀ s t : State}

theorem State.canonical_iff :
    s.canonical = true ↔ Sparse.wf regDefault s.regs = true ∧ Memory.wf s.mem = true := by
  rw [State.canonical, Bool.and_eq_true]

theorem State.Evolves.refl : s.Evolves τ s where
  grows := ⟨List.prefix_rfl, rfl, Nat.le_refl _, id, id⟩
  still _ := ⟨rfl, rfl⟩

theorem State.Evolves.same (h : s₀.Evolves τ s) (hsame : s.SameGrowth t := by constructor <;> with_reducible rfl) :
    s₀.Evolves τ t := by
  obtain ⟨⟨hout, hpending, hfresh, hcanonical, htime⟩, hstill⟩ := h
  obtain ⟨eregs, emem, eout, efresh, epending, etime, eup⟩ := hsame
  refine ⟨⟨eout ▸ hout, epending.trans hpending, efresh ▸ hfresh, fun hs => ?_, etime ▸ htime⟩, etime ▸ eup ▸ hstill⟩
  unfold State.canonical
  rw [eregs, emem]
  exact hcanonical hs

theorem State.Evolves.keeps (h : s₀.Evolves τ s) (hsame : s.SameGrowth t := by constructor <;> rfl) :
    s₀.Evolves τ t := h.same hsame

theorem State.Evolves.withRegs (h : s₀.Evolves τ s) {m : List (Nat × BitVec 64)}
    (hwf : Sparse.wf regDefault s.regs = true → Sparse.wf regDefault m = true) :
    s₀.Evolves τ { s with regs := m } where
  grows := { h.grows with canonical := fun hs => State.canonical_iff.mpr <|
    have hcanonical := State.canonical_iff.mp (h.grows.canonical hs)
    ⟨hwf hcanonical.1, hcanonical.2⟩ }
  still := h.still

theorem State.Evolves.withMem (h : s₀.Evolves τ s) {m : List Host.Cell}
    (hwf : Memory.wf s.mem = true → Memory.wf m = true) : s₀.Evolves τ { s with mem := m } where
  grows := { h.grows with canonical := fun hs => State.canonical_iff.mpr <|
    have hcanonical := State.canonical_iff.mp (h.grows.canonical hs)
    ⟨hcanonical.1, hwf hcanonical.2⟩ }
  still := h.still

theorem State.Evolves.restrictRegs (h : s₀.Evolves τ s) {keep : Nat → Bool} :
    s₀.Evolves τ { s with regs := Sparse.restrict keep s.regs } :=
  h.withRegs fun hwf => Sparse.wf_restrict hwf keep

theorem State.Evolves.restrictMem (h : s₀.Evolves τ s) {keep : Nat → Bool} :
    s₀.Evolves τ { s with mem := Sparse.restrict keep s.mem } :=
  h.withMem fun hwf => Sparse.wf_restrict hwf keep

theorem State.Evolves.drawn (h : s₀.Evolves τ s) : s₀.Evolves τ { s with fresh := s.fresh + 1 } where
  grows := { h.grows with fresh := Nat.le_succ_of_le h.grows.fresh }
  still := h.still

theorem State.Evolves.withClock (h : s₀.Evolves true s) {n : Nat} {c : Clk} (hn : s.time < timeMod → n < timeMod) :
    s₀.Evolves true { s with time := n, clk := c } where
  grows := { h.grows with time := fun hs => hn (h.grows.time hs) }
  still := nofun

theorem State.Evolves.withTime (h : s₀.Evolves true s) {n : Nat} (hn : s.time < timeMod → n < timeMod) :
    s₀.Evolves true { s with time := n } where
  grows := { h.grows with time := fun hs => hn (h.grows.time hs) }
  still := nofun

theorem State.Evolves.ite {p : Prop} {_ : Decidable p} (hs : s₀.Evolves τ s) (ht : s₀.Evolves τ t) :
    s₀.Evolves τ (if p then s else t) := by
  split
  · exact hs
  · exact ht

theorem State.Evolves.iteFst {α : Type} {p : Prop} {_ : Decidable p} {x y : State × α} (hx : s₀.Evolves τ x.1)
    (hy : s₀.Evolves τ y.1) : s₀.Evolves τ (if p then x else y).1 := by
  split
  · exact hx
  · exact hy

theorem State.Evolves.iteSnd {α : Type} {p : Prop} {_ : Decidable p} {x y : α × State} (hx : s₀.Evolves τ x.2)
    (hy : s₀.Evolves τ y.2) : s₀.Evolves τ (if p then x else y).2 := by
  split
  · exact hx
  · exact hy

theorem State.Evolves.dite {p : Prop} {_ : Decidable p} {f : p → State} {g : ¬p → State}
    (hf : ∀ h, s₀.Evolves τ (f h)) (hg : ∀ h, s₀.Evolves τ (g h)) : s₀.Evolves τ (if h : p then f h else g h) := by
  split
  · exact hf _
  · exact hg _

theorem State.Evolves.foldl {α : Type} {l : List α} {f : State → α → State}
    (hf : ∀ {t : State} {a : α}, s₀.Evolves τ t → s₀.Evolves τ (f t a)) (h : s₀.Evolves τ s) :
    s₀.Evolves τ (l.foldl f s) := by
  induction l generalizing s with
  | nil => exact h
  | cons a l ih => exact ih (hf h)

theorem State.Reaches.next (h : s₀.Evolves τ s) : s₀.Reaches τ (.next s) := fun _ heq => Host.Outcome.next.inj heq ▸ h

theorem State.Reaches.fault {r : Fault} : s₀.Reaches τ (.fault r) := fun _ heq => by cases heq

theorem State.Reaches.refused {r : Refusal} : s₀.Reaches τ (.refused r) := fun _ heq => by cases heq

theorem State.Reaches.ite {p : Prop} {_ : Decidable p} {o₁ o₂ : Host.Outcome State Fault Refusal}
    (h₁ : s₀.Reaches τ o₁) (h₂ : s₀.Reaches τ o₂) : s₀.Reaches τ (if p then o₁ else o₂) := by
  split
  · exact h₁
  · exact h₂

/-! ### State operations (R10-R12, R505) -/

theorem State.Evolves.wr (h : s₀.Evolves τ s) {k : Nat} {v : BitVec 64} : s₀.Evolves τ (s.wr k v) :=
  h.withRegs fun hwf => Sparse.wf_put hwf k v

theorem State.Evolves.setFld (h : s₀.Evolves τ s) {k hi lo x : Nat} : s₀.Evolves τ (s.setFld k hi lo x) := .wr h

theorem State.Evolves.putBit (h : s₀.Evolves τ s) {k b : Nat} {x : Bool} : s₀.Evolves τ (s.putBit k b x) := .wr h

theorem State.Evolves.wrN (h : s₀.Evolves τ s) {k n : Nat} : s₀.Evolves τ (s.wrN k n) := .wr h

theorem State.Evolves.wrI (h : s₀.Evolves τ s) {k w : Nat} {i : Int} : s₀.Evolves τ (s.wrI k w i) := .wrN h

theorem State.Evolves.bumpSat (h : s₀.Evolves τ s) {k w n : Nat} : s₀.Evolves τ (s.bumpSat k w n) := .wrN h

theorem State.Evolves.bump (h : s₀.Evolves τ s) {k w n : Nat} : s₀.Evolves τ (s.bump k w n) := .wrN h

theorem State.Evolves.send (h : s₀.Evolves τ s) {m : OutMsg} : s₀.Evolves τ (s.send m) where
  grows := { h.grows with out := h.grows.out.trans (List.prefix_append _ _) }
  still := h.still

theorem State.Evolves.wrByte (h : s₀.Evolves τ s) {a : Nat} {b : BitVec 8} : s₀.Evolves τ (s.wrByte a b) :=
  .ite h (.same (h.withMem fun hwf => Sparse.wf_put hwf a b))

theorem State.Evolves.wrBytes {bs : List (BitVec 8)} (h : s₀.Evolves τ s) {a : Nat} :
    s₀.Evolves τ (s.wrBytes a bs) := by
  induction bs generalizing s a with
  | nil => exact h
  | cons b r ih => exact ih (.wrByte h)

theorem State.Evolves.setEp (h : s₀.Evolves τ s) {n : Nat} {f : EpFn} : s₀.Evolves τ (s.setEp n f) :=
  .dite (fun _ => .keeps h) (fun _ => h)

theorem State.Evolves.setQueue (h : s₀.Evolves τ s) {q : Nat} {x : QueueLive} : s₀.Evolves τ (s.setQueue q x) :=
  .keeps h

theorem State.Evolves.notifyQueue (h : s₀.Evolves τ s) {x : QueueLive} : s₀.Evolves τ (s.notifyQueue x) :=
  .ite (.ite (.wrBytes h) (.ite (.send h) h)) h

theorem State.Evolves.enqueueTaken (h : s₀.Evolves τ s) {q : Nat} {x : QueueLive} {k : QueueItem} :
    s₀.Evolves τ (s.enqueueTaken q x k) :=
  .ite (.notifyQueue (.setQueue (.wrBytes (.wrBytes h)))) (.setQueue (.wrBytes (.wrBytes h)))

theorem State.Evolves.enqueueStage (h : s₀.Evolves τ s) {q : Nat} {x : QueueLive} {k : QueueItem} :
    s₀.Evolves τ (s.enqueueStage q x k) :=
  .ite (.enqueueTaken h) (.setQueue h)

theorem State.Evolves.publishNext (h : s₀.Evolves τ s) {q : Nat} {k : QueueItem} :
    s₀.Evolves τ (s.publishNext q k) := by
  unfold State.publishNext
  split
  · exact .enqueueTaken h
  · exact h

theorem State.Evolves.publishQueue (h : s₀.Evolves τ s) {q : Nat} : s₀.Evolves τ (s.publishQueue q) := by
  unfold State.publishQueue
  split
  · exact .foldl (fun h => .publishNext h) h
  · exact h

theorem State.Evolves.publishStaged (h : s₀.Evolves τ s) : s₀.Evolves τ s.publishStaged :=
  .foldl (fun h => .ite (.publishQueue h) h) h

theorem State.Evolves.enqueue (h : s₀.Evolves τ s) {q kind : Nat} {item : List (BitVec 8)} {ts : BitVec 64} :
    s₀.Evolves τ (s.enqueue q kind item ts).1 := by
  unfold State.enqueue
  split
  · exact h
  · exact .iteFst h (.iteFst (.setQueue h) (.enqueueStage h))

theorem State.Evolves.sendMsix (h : s₀.Evolves τ s) {port v : Nat} : s₀.Evolves τ (s.sendMsix port v) :=
  .ite (.send h) (.setEp h)

theorem State.Evolves.raiseMsix (h : s₀.Evolves τ s) {n : Nat} : s₀.Evolves τ (s.raiseMsix n) :=
  .ite (.bump h) (.sendMsix (.putBit h))

theorem State.Evolves.deliver (h : s₀.Evolves τ s) {e : EventRec} : s₀.Evolves τ (s.deliver e) := by
  unfold State.deliver
  extract_lets _ _ _ s₁ _ _ s₂ s₃ _ s₄
  have h₁ : s₀.Evolves τ s₁ := .bump h
  have h₂ : s₀.Evolves τ s₂ := .ite (.raiseMsix h₁) h₁
  have h₃ : s₀.Evolves τ s₃ := .ite (.enqueue h₂) h₂
  have h₄ : s₀.Evolves τ s₄ := .same h₃
  exact .ite (.bump h₄) h₄

theorem State.Evolves.deliverRaised (h : s₀.Evolves τ s) : s₀.Evolves τ s.deliverRaised :=
  .foldl (fun h => .deliver h) (.keeps h)

theorem State.Evolves.raiseTs (h : s₀.Evolves τ s) {n : Nat} {ts : Stamp} {param : Nat} :
    s₀.Evolves τ (s.raiseTs n ts param) :=
  .keeps h

theorem State.Evolves.raise (h : s₀.Evolves τ s) {n param : Nat} : s₀.Evolves τ (s.raise n param) := .raiseTs h

theorem State.Evolves.latchRaise (h : s₀.Evolves τ s) {k b n param : Nat} :
    s₀.Evolves τ (s.latchRaise k b n param) :=
  .ite h (.raise (.putBit h))

theorem State.Evolves.flag (h : s₀.Evolves τ s) {r k : Nat} {f : AccFlag} : s₀.Evolves τ (s.flag r k f) := by
  unfold State.flag
  extract_lets _ s₁ s₂ s₃ _ s₄
  have h₁ : s₀.Evolves τ s₁ := .putBit h
  have h₂ : s₀.Evolves τ s₂ := .wrN h₁
  have h₃ : s₀.Evolves τ s₃ := .wr h₂
  have h₄ : s₀.Evolves τ s₄ := .same h₃
  exact .ite h₄ (.raise h₄)

theorem State.Evolves.ethLink (h : s₀.Evolves τ s) {up : Bool} : s₀.Evolves τ (s.ethLink up) :=
  .ite h (.raise (.ite (.putBit (.putBit h)) (.bumpSat (.putBit (.putBit h)))))

theorem State.Evolves.parityFree (h : s₀.Evolves τ s) {k : Nat} : s₀.Evolves τ (s.parityFree k) := .keeps h

theorem State.Evolves.draw (h : s₀.Evolves τ s) : s₀.Evolves τ s.draw.2 := h.drawn

theorem State.Evolves.postFault (h : s₀.Evolves τ s) {n q : Nat} : s₀.Evolves τ (s.postFault n q) :=
  .ite (.putBit h) h

theorem State.Evolves.postFaults (h : s₀.Evolves τ s) {n : Nat} {qs : List Nat} :
    s₀.Evolves τ (s.postFaults n qs) :=
  .foldl (fun h => .postFault h) h

theorem State.Evolves.postClock (h : s₀.Evolves τ s) {k : Nat} : s₀.Evolves τ (s.postClock k) :=
  .ite (.postFaults h) h

theorem State.Evolves.signalBits (h : s₀.Evolves τ s) {q clr set' edge : Nat} :
    s₀.Evolves τ (s.signalBits q clr set' edge) :=
  .dite (fun _ => .setFld (.keeps h)) (fun _ => h)

theorem State.Evolves.autoCount (h : s₀.Evolves τ s) {q src n : Nat} : s₀.Evolves τ (s.autoCount q src n) :=
  .foldl (fun h => .ite (.bump h) h) h

theorem State.Evolves.seqCycles (h : s₀.Evolves τ s) {n : Nat} : s₀.Evolves τ (s.seqCycles n) :=
  .foldl (fun h => .ite (.autoCount h) h) h

/-! ### Clock loops and the passing of time -/

theorem State.Evolves.lockShow (h : s₀.Evolves τ s) : s₀.Evolves τ s.lockShow := .ite h (.send (.setFld h))

theorem State.Evolves.pllSet (h : s₀.Evolves τ s) {k st : Nat} : s₀.Evolves τ (s.pllSet k st) := by
  unfold State.pllSet
  extract_lets _ s₁
  have h₁ : s₀.Evolves τ s₁ := .setFld h
  exact .lockShow (.same h₁)

theorem State.Evolves.pllBypass (h : s₀.Evolves τ s) {k : Nat} : s₀.Evolves τ (s.pllBypass k) :=
  .raise (.postClock (.putBit (.pllSet (.wr h))))

theorem State.Evolves.clockHold (h : s₀.Evolves τ s) : s₀.Evolves τ s.clockHold :=
  .foldl (fun h => .putBit h) (.keeps h)

theorem State.Evolves.clockGo (h : s₀.Evolves τ s) : s₀.Evolves τ s.clockGo := .foldl (fun h => .putBit h) h

theorem State.Evolves.pllStart (h : s₀.Evolves τ s) {k : Nat} : s₀.Evolves τ (s.pllStart k) :=
  .ite (.ite (.clockHold (.postClock (.putBit (.pllSet h)))) (.postClock (.putBit (.pllSet h)))) h

theorem State.Evolves.pllTarget (h : s₀.Evolves τ s) {k hz : Nat} : s₀.Evolves τ (s.pllTarget k hz) :=
  .ite (.ite (.ite (.wrN h) (.pllSet (.wrN h))) (.pllBypass (.wrN h))) (.wrN h)

theorem State.Evolves.clkSteer (h : s₀.Evolves τ s) : s₀.Evolves τ s.clkSteer :=
  .ite (.pllSet (.foldl (fun h => .ite h (.wrN h)) h)) (.foldl (fun h => .ite h (.wrN h)) h)

theorem State.Evolves.ageTimes (h : s₀.Evolves τ s) : s₀.Evolves τ s.ageTimes := .keeps h

theorem State.Evolves.pass (h : s₀.Evolves true s) {d : Nat} : s₀.Evolves true (s.pass d) := by
  have hcount {t : State} (h : s₀.Evolves true t) : s₀.Evolves true { t with
      time := if t.clk.everLocked then (t.time + d) % timeMod else t.time
      clk := { t.clk with up := t.clk.up + d } } := by
    refine h.withClock fun hlt => ?_
    split
    · exact Nat.mod_lt _ (by decide)
    · exact hlt
  refine .ite ?_ (.ageTimes ?_)
  all_goals exact hcount (.foldl (fun h => .dite (fun _ => .ite (.bump (.keeps h)) h) fun _ => h) h)

theorem State.Evolves.tickClock (h : s₀.Evolves true s) : s₀.Evolves true s.tickClock :=
  .ite (.pass h) (.pass (.keeps h))

/-! ### Waking, rails and power-good -/

theorem State.Evolves.moveTo (h : s₀.Evolves τ s) {target : Nat} : s₀.Evolves τ (s.moveTo target) :=
  .ite h (.putBit (.keeps h))

theorem State.Evolves.setRails (h : s₀.Evolves τ s) {en : Nat} : s₀.Evolves τ (s.setRails en) := .send (.keeps h)

theorem State.Evolves.railsUp (h : s₀.Evolves τ s) {mask : Nat} : s₀.Evolves τ (s.railsUp mask) := by
  unfold State.railsUp
  extract_lets _ s₁
  have h₁ : s₀.Evolves τ s₁ := .setRails h
  exact .same h₁

theorem State.Evolves.pgSample (h : s₀.Evolves τ s) : s₀.Evolves τ s.pgSample :=
  .ite (.ite (.railsUp (.keeps h)) (.keeps h)) h

theorem State.Evolves.undoBegins (h : s₀.Evolves τ s) : s₀.Evolves τ s.undoBegins := by
  unfold State.undoBegins
  extract_lets _ s₁
  have h₁ : s₀.Evolves τ s₁ := .keeps h
  split
  · exact .railsUp h₁
  · exact .railsUp h₁
  · exact .railsUp h₁
  · exact .foldl (fun h => .pllStart h) h₁
  · exact h₁

theorem State.Evolves.wakeBy (h : s₀.Evolves τ s) {b code hi lo : Nat} : s₀.Evolves τ (s.wakeBy b code hi lo) := by
  unfold State.wakeBy
  extract_lets _ s₁ _ s₂
  have h₁ : s₀.Evolves τ s₁ := .raise (.setFld h)
  have h₂ : s₀.Evolves τ s₂ := .same h₁
  exact .ite (.ite h₂ (.ite (.undoBegins (.moveTo h₂)) (.same h₂))) h

/-! ### Calibration states -/

theorem State.Evolves.journal (h : s₀.Evolves τ s) {kind target old new : Nat} :
    s₀.Evolves τ (s.journal kind target old new) :=
  .bump (.keeps h)

theorem State.Evolves.journalFree (h : s₀.Evolves τ s) {kind target : Nat} :
    s₀.Evolves τ (s.journalFree kind target) :=
  .journal (.draw h)

theorem State.Evolves.setCalState (h : s₀.Evolves τ s) {id x : Nat} : s₀.Evolves τ (s.setCalState id x) := .setFld h

theorem State.Evolves.calShow (h : s₀.Evolves τ s) : s₀.Evolves τ s.calShow := .wrN h

theorem State.Evolves.calBegin (h : s₀.Evolves τ s) {id : Nat} : s₀.Evolves τ (s.calBegin id) :=
  .ite h (.calShow (.setCalState (.keeps h)))

theorem State.Evolves.calLeaves (h : s₀.Evolves τ s) {id : Nat} : s₀.Evolves τ (s.calLeaves id) :=
  .calShow (.setCalState (.keeps h))

theorem State.Evolves.adjusted (h : s₀.Evolves τ s) {kind target old new : Nat} :
    s₀.Evolves τ (s.adjusted kind target old new) :=
  .raise (.journal h)

theorem State.Evolves.atLimit (h : s₀.Evolves τ s) {kind target : Nat} {reached : Bool} :
    s₀.Evolves τ (s.atLimit kind target reached) :=
  .ite h (.raise (.journalFree (.putBit h)))

theorem State.Evolves.dramAdjust (h : s₀.Evolves τ s) : s₀.Evolves τ s.dramAdjust := by
  unfold State.dramAdjust
  dsimp only
  split
  · exact h
  · exact .ite (.ite (.atLimit (.ite h (.adjusted (.setFld (.keeps h))))) (.ite h (.adjusted (.setFld (.keeps h)))))
        h

/-! ### The SRAM ring area -/

theorem State.Evolves.sramCorrected (h : s₀.Evolves τ s) {p n : Nat} : s₀.Evolves τ (s.sramCorrected p n) := .bump h

theorem State.Evolves.sramDouble (h : s₀.Evolves τ s) {p off : Nat} : s₀.Evolves τ (s.sramDouble p off) :=
  .ite h (.journalFree (.raise (.wr (.wrN (.bumpSat h)))))

/-! ### GDDR7 and its controller -/

theorem State.Evolves.setMemState (h : s₀.Evolves τ s) {x : Nat} : s₀.Evolves τ (s.setMemState x) := .setFld h

theorem State.Evolves.serveHeld (h : s₀.Evolves τ s) {k : HeldRequest} : s₀.Evolves τ (s.serveHeld k) :=
  .ite (.wrBytes h) (.send h)

theorem State.Evolves.heldServe (h : s₀.Evolves τ s) : s₀.Evolves τ s.heldServe :=
  .foldl (fun h => .serveHeld h) (.keeps h)

theorem State.Evolves.memReady (h : s₀.Evolves τ s) : s₀.Evolves τ s.memReady :=
  .heldServe (.publishStaged (.raise (.setMemState h)))

theorem State.Evolves.setLaneWord (h : s₀.Evolves τ s) {i : Nat} {r w : LanePick} {start : Bool} :
    s₀.Evolves τ (s.setLaneWord i r w start) := by
  unfold State.setLaneWord
  extract_lets _ s₁ s₂ s₃
  have h₁ : s₀.Evolves τ s₁ := .setFld (.setFld h)
  have h₂ : s₀.Evolves τ s₂ := .setFld (.setFld h₁)
  have h₃ : s₀.Evolves τ s₃ := .setFld (.setFld h₂)
  exact .ite (.setFld h₃) h₃

theorem State.Evolves.devicesTrained (h : s₀.Evolves τ s) : s₀.Evolves τ s.devicesTrained :=
  .foldl (fun h => .putBit (.putBit h)) h

theorem State.Evolves.setLanes (h : s₀.Evolves τ s) {x : Sweep} {start : Bool} :
    s₀.Evolves τ (s.setLanes x start) :=
  .foldl (fun h => .setLaneWord h) h

theorem State.Evolves.memPattern (h : s₀.Evolves τ s) : s₀.Evolves τ s.memPattern := by
  unfold State.memPattern
  extract_lets s₁
  have h₁ : s₀.Evolves τ s₁ := .draw h
  exact .same h₁

theorem State.Evolves.rateDrop (h : s₀.Evolves τ s) : s₀.Evolves τ s.rateDrop := .putBit (.keeps h)

theorem State.Evolves.memFail (h : s₀.Evolves τ s) {step' dev lane : Nat} :
    s₀.Evolves τ (s.memFail step' dev lane) :=
  .raise (.putBit (.setFld (.setFld (.setFld (.setMemState (.rateDrop (.keeps h)))))))

theorem State.Evolves.memTrain (h : s₀.Evolves τ s) {kind st : Nat} : s₀.Evolves τ (s.memTrain kind st) :=
  .setMemState (.keeps h)

theorem State.Evolves.rateStart (h : s₀.Evolves τ s) {sel : Nat} : s₀.Evolves τ (s.rateStart sel) :=
  .pllTarget (.putBit (.setMemState (.keeps h)))

theorem State.Evolves.rateHeld (h : s₀.Evolves τ s) : s₀.Evolves τ s.rateHeld := by
  unfold State.rateHeld
  split
  · exact .rateStart h
  · exact h

theorem State.Evolves.memTrained (h : s₀.Evolves τ s) {x : Sweep} : s₀.Evolves τ (s.memTrained x) := by
  unfold State.memTrained
  extract_lets _ s₁ _ s₂ s₃
  have h₁ : s₀.Evolves τ s₁ := .ite h (.setLanes h)
  have h₂ : s₀.Evolves τ s₂ := .memPattern (.devicesTrained (.same h₁))
  have h₃ : s₀.Evolves τ s₃ := .memReady (.wr h₂)
  split
  · exact .ite (.memTrain h) (.memFail h)
  · exact .rateHeld h₃

theorem State.Evolves.memRest (h : s₀.Evolves τ s) : s₀.Evolves τ s.memRest :=
  .ite (.setMemState (.keeps h)) (.ite (.setMemState (.keeps h)) h)

theorem State.Evolves.memResume (h : s₀.Evolves τ s) : s₀.Evolves τ s.memResume := by
  unfold State.memResume
  refine .ite ?_ h
  split
  · exact .setMemState (.keeps h)
  · exact .rateHeld (.memReady h)

theorem State.Evolves.memLocked (h : s₀.Evolves τ s) : s₀.Evolves τ s.memLocked :=
  .ite (.setMemState h) (.memResume h)

theorem State.Evolves.memPoll (h : s₀.Evolves τ s) : s₀.Evolves τ s.memPoll := .ite (.setMemState h) h

theorem State.Evolves.memLose (h : s₀.Evolves τ s) : s₀.Evolves τ s.memLose :=
  .foldl (fun h => .wrN h) (.wrN (.putBit (.same (.restrictMem h))))

theorem State.Evolves.probesEnd (h : s₀.Evolves τ s) : s₀.Evolves τ s.probesEnd :=
  .ite (.keeps h) (.ite (.rateHeld (.putBit (.keeps h))) (.putBit (.keeps h)))

theorem State.Evolves.setDebt (h : s₀.Evolves τ s) {k n : Nat} : s₀.Evolves τ (s.setDebt k n) := .keeps h

theorem State.Evolves.applyMove (h : s₀.Evolves τ s) {m : LaneMove} : s₀.Evolves τ (s.applyMove m) :=
  .raise (.setFld (.setFld (.setFld h)))

theorem State.Evolves.refreshBank (h : s₀.Evolves τ s) {d b : Nat} : s₀.Evolves τ (s.refreshBank d b) :=
  .ite (.keeps h) (.dramAdjust (.foldl (fun h => .applyMove h) (.keeps h)))

theorem State.Evolves.memUncorr (h : s₀.Evolves τ s) {d a : Nat} : s₀.Evolves τ (s.memUncorr d a) :=
  .journalFree (.latchRaise (.wr (.wrN (.bumpSat h))))

theorem State.Evolves.memErrors (h : s₀.Evolves τ s) {d a : Nat} {write : Bool} {x : MemAccess} :
    s₀.Evolves τ (s.memErrors d a write x) := by
  unfold State.memErrors
  extract_lets s₁ s₂
  have h₁ : s₀.Evolves τ s₁ := .bump h
  have h₂ : s₀.Evolves τ s₂ := .ite (.memUncorr h₁) h₁
  refine .ite h₂ ?_
  split
  · exact .bump h₂
  · exact .memUncorr h₂
  · exact h₂

theorem State.Evolves.setDdrQueue (h : s₀.Evolves τ s) {d : Nat} {q : List QueuedSeg} :
    s₀.Evolves τ (s.setDdrQueue d q) :=
  .dite (fun _ => .keeps h) (fun _ => h)

theorem State.Evolves.memArrive (h : s₀.Evolves τ s) {segs : List MemSeg} : s₀.Evolves τ (s.memArrive segs) :=
  .foldl (fun h => .ite h (.setDdrQueue h)) h

theorem State.Evolves.takeSeg (h : s₀.Evolves τ s) {d : Nat} {g : MemSeg} : s₀.Evolves τ (s.takeSeg d g) :=
  .setDdrQueue h

theorem State.Evolves.readBack (h : s₀.Evolves τ s) {g : MemSeg} {fails : Bool} {left : List (BitVec 8)} :
    s₀.Evolves τ (s.readBack g fails left) :=
  .keeps h

theorem State.Evolves.visit (h : s₀.Evolves τ s) {d : Nat} {g : MemSeg} {x : MemAccess} {left : List (BitVec 8)} :
    s₀.Evolves τ (s.visit d g x left) := by
  unfold State.visit
  extract_lets _ _ s₁ s₂ s₃ s₄
  have h₁ : s₀.Evolves τ s₁ := .keeps h
  have h₂ : s₀.Evolves τ s₂ := .ite (.wrN h₁) h₁
  have h₃ : s₀.Evolves τ s₃ := .ite (.ite (.raise h₂) h₂) h₁
  have h₄ : s₀.Evolves τ s₄ := .memErrors h₃
  exact .ite (.foldl (fun h => .wrByte h) h₄) (.readBack h₄)

theorem State.Evolves.patrolRead (h : s₀.Evolves τ s) {x : MemAccess} : s₀.Evolves τ (s.patrolRead x) :=
  .visit (.keeps h)

theorem State.Reaches.execMemEnable (h : s₀.Evolves τ s) : s₀.Reaches τ (execMemEnable s) := by
  unfold Machine.execMemEnable
  refine .ite (.next h) ?_
  refine .ite .fault ?_
  refine .next ?_
  extract_lets s₁ s₂ _ s₃ s₄
  have h₁ : s₀.Evolves τ s₁ := .putBit h
  have h₂ : s₀.Evolves τ s₂ := .wrN (.memTrain h₁)
  have h₃ : s₀.Evolves τ s₃ := .same h₂
  have h₄ : s₀.Evolves τ s₄ := .pllStart (.pllTarget h₃)
  split
  · exact .ite (.memLocked h₄) h₄
  · exact .memResume h₁

theorem State.Reaches.execMemDisable (h : s₀.Evolves τ s) : s₀.Reaches τ (execMemDisable s) := by
  unfold Machine.execMemDisable
  extract_lets s₁ s₂
  have h₁ : s₀.Evolves τ s₁ := .parityFree h
  have h₂ : s₀.Evolves τ s₂ := .putBit h₁
  refine .next ?_
  split
  · exact h₂
  · exact .memRest h₂
  · exact h₂
  · exact .memRest h₂
  · exact .ite (.memRest h₂) (.setMemState (.rateDrop h₂))
  · exact .setMemState (.rateDrop h₂)

theorem State.Reaches.execMemReady (h : s₀.Evolves τ s) {rd wr : List (List Nat)} {bad : BitVec 16} {late : Fin 8} :
    s₀.Reaches τ (execMemReady rd wr bad late s) :=
  .next (.ite (.ite (.memFail h) h) (.ite (.memTrained h) h))

theorem State.Reaches.execRetrain (h : s₀.Evolves τ s) : s₀.Reaches τ (execRetrain s) :=
  .next (.ite (.memTrain h) h)

theorem State.Reaches.execMemRateReq (h : s₀.Evolves τ s) {sel : Fin 32} : s₀.Reaches τ (execMemRateReq sel s) := by
  unfold Machine.execMemRateReq
  refine .ite .fault ?_
  refine .next ?_
  extract_lets s₁
  have h₁ : s₀.Evolves τ s₁ := .probesEnd (.setFld h)
  split
  · exact .ite (.rateStart h₁) (.putBit (.same h₁))
  · exact h₁
  · exact h₁
  · exact .putBit (.same h₁)

theorem State.Reaches.execMemRateDone (h : s₀.Evolves τ s) {rd wr : List (List Nat)} {bad : BitVec 16} {late : Fin
    8} :
    s₀.Reaches τ (execMemRateDone rd wr bad late s) := by
  unfold Machine.execMemRateDone
  refine .next (.ite ?_ h)
  extract_lets _ s₁ s₂
  have h₁ : s₀.Evolves τ s₁ := .memPattern (.devicesTrained (.setLanes h))
  have h₂ : s₀.Evolves τ s₂ := .wr h₁
  split
  · exact .memFail h
  · exact .rateHeld (.raise (.memReady (.setFld h₂)))

theorem State.Reaches.execBgtProbe (h : s₀.Evolves τ s) {d : Fin 16} {temp : Int} {found : ProbeFind} :
    s₀.Reaches τ (execBgtProbe d temp found s) := by
  unfold Machine.execBgtProbe
  refine .next ?_
  extract_lets s₁
  have h₁ : s₀.Evolves τ s₁ := .memArrive (.probesEnd h)
  split
  · exact h₁
  · refine .ite ?_ h₁
    extract_lets s₂ _ _ s₃
    have h₂ : s₀.Evolves τ s₂ := .memPattern (.visit h₁)
    have h₃ : s₀.Evolves τ s₃ := .putBit (.same h₂)
    exact .dramAdjust (.setFld h₃)

theorem State.Evolves.reportTemp (h : s₀.Evolves τ s) {d : Nat} {temp : Int} : s₀.Evolves τ (s.reportTemp d temp) :=
  .setFld h

theorem State.Reaches.execRefresh (h : s₀.Evolves τ s) {d b : Fin 16} {x : RefreshFind} :
    s₀.Reaches τ (execRefresh d b x s) := by
  unfold Machine.execRefresh
  refine .next ?_
  extract_lets s₁ _ s₂
  have h₁ : s₀.Evolves τ s₁ := .probesEnd h
  have h₂ : s₀.Evolves τ s₂ := .reportTemp h₁
  exact .ite h₁ (.ite (.setDebt h₂) (.ite (.refreshBank (.bumpSat h₂)) (.ite (.setDebt h₂) (.refreshBank h₂))))

theorem State.Reaches.execBankVisit (h : s₀.Evolves τ s) {d : Fin 16} {segs : List MemSeg} {retries : Fin 4} {fails
    : Bool} {ecc : Fin 3} {left : List (BitVec 8)} :
    s₀.Reaches τ (execBankVisit d segs retries fails ecc left s) := by
  unfold Machine.execBankVisit
  refine .next ?_
  extract_lets s₁
  have h₁ : s₀.Evolves τ s₁ := .memArrive (.probesEnd h)
  refine .ite h₁ ?_
  split
  · exact .refreshBank (.bumpSat (.setDebt h₁))
  · exact .refreshBank (.setDebt h₁)
  · exact .visit (.takeSeg h₁)
  · exact h₁

theorem State.Reaches.execPatrolRead (h : s₀.Evolves τ s) {x : PatrolFind} : s₀.Reaches τ (execPatrolRead x s) :=
  .next (.ite (.patrolRead (.memArrive (.probesEnd h))) (.memArrive (.probesEnd h)))

/-! ### Drive sets and journal blocks -/

theorem State.Evolves.setWriter (h : s₀.Evolves τ s) {c : Nat} {w : Writer} : s₀.Evolves τ (s.setWriter c w) :=
  .dite (fun _ => .keeps h) (fun _ => h)

theorem State.Evolves.setDset (h : s₀.Evolves τ s) {x : Nat} {d : DrvSet} : s₀.Evolves τ (s.setDset x d) :=
  .dite (fun _ => .keeps h) (fun _ => h)

theorem State.Evolves.setMember (h : s₀.Evolves τ s) {x m : Nat} {v : DrvMember} :
    s₀.Evolves τ (s.setMember x m v) :=
  .dite (fun _ => .setDset h) (fun _ => h)

theorem State.Evolves.memberTo (h : s₀.Evolves τ s) {x m st : Nat} : s₀.Evolves τ (s.memberTo x m st) :=
  .ite h (.raise (.setFld h))

theorem State.Evolves.setCtrl (h : s₀.Evolves τ s) {c : Ctrl} : s₀.Evolves τ (s.setCtrl c) := .keeps h

theorem State.Evolves.dropCtrl (h : s₀.Evolves τ s) {port fn : Nat} : s₀.Evolves τ (s.dropCtrl port fn) := .keeps h

theorem State.Evolves.drvNext (h : s₀.Evolves τ s) {port fn q : Nat} : s₀.Evolves τ (s.drvNext port fn q) := by
  unfold State.drvNext
  split
  · exact h
  · split
    · exact h
    · exact .ite (.send (.setCtrl h)) h

theorem State.Evolves.drvSend (h : s₀.Evolves τ s) {port fn : Nat} {op : NvmeOp} {what : DrvWhat} {lba : Nat} :
    s₀.Evolves τ (s.drvSend port fn op what lba) := by
  unfold State.drvSend
  split
  · exact h
  · extract_lets _ _ s₁ _ s₂
    have h₁ : s₀.Evolves τ s₁ := .setCtrl h
    have h₂ : s₀.Evolves τ s₂ := .same h₁
    exact .drvNext h₂

theorem State.Evolves.sendLabel (h : s₀.Evolves τ s) {x m : Nat} : s₀.Evolves τ (s.sendLabel x m) :=
  .drvSend (.send h)

theorem State.Evolves.sendLabels (h : s₀.Evolves τ s) {x : Nat} : s₀.Evolves τ (s.sendLabels x) :=
  .foldl (fun h => .ite (.sendLabel h) h) h

theorem State.Evolves.relabel (h : s₀.Evolves τ s) {x : Nat} : s₀.Evolves τ (s.relabel x) := .sendLabels (.bump h)

theorem State.Evolves.drvHealth (h : s₀.Evolves τ s) {x : Nat} : s₀.Evolves τ (s.drvHealth x) :=
  .ite h (.relabel (.raise (.setFld h)))

theorem State.Evolves.setDegFrom (h : s₀.Evolves τ s) {x : Nat} {v : Option Nat} :
    s₀.Evolves τ (s.setDegFrom x v) :=
  .wrN (.setDset h)

theorem State.Evolves.showJournal (h : s₀.Evolves τ s) : s₀.Evolves τ s.showJournal := .wrN h

theorem State.Evolves.drvStall (h : s₀.Evolves τ s) {x b : Nat} : s₀.Evolves τ (s.drvStall x b) :=
  .latchRaise (.putBit h)

theorem State.Evolves.canTake (h : s₀.Evolves τ s) {x : Nat} : s₀.Evolves τ (s.canTake x).1 :=
  .iteFst h (.iteFst (.drvStall h) (.iteFst (.drvStall h) (.putBit h)))

theorem State.Evolves.sendStrips (h : s₀.Evolves τ s) {x m st : Nat} {what : Nat → DrvWhat} :
    s₀.Evolves τ (s.sendStrips x m st what) :=
  .ite (.foldl (fun h => .drvSend h) h) h

theorem State.Evolves.acceptBlock (h : s₀.Evolves τ s) {k : DrvBlock} : s₀.Evolves τ (s.acceptBlock k) := by
  unfold State.acceptBlock
  extract_lets _ _ _ _ s₁ s₂ s₃
  have h₁ : s₀.Evolves τ s₁ := .keeps h
  have h₂ : s₀.Evolves τ s₂ := .showJournal (.wrN h₁)
  have h₃ : s₀.Evolves τ s₃ := .sendStrips h₂
  exact .ite (.sendStrips h₃) h₃

theorem State.Evolves.formBlock (h : s₀.Evolves τ s) {x c n : Nat} : s₀.Evolves τ (s.formBlock x c n) :=
  .dite (fun _ => .acceptBlock (.setDset h)) (fun _ => h)

theorem State.Evolves.formFull {fuel : Nat} (h : s₀.Evolves τ s) {x c : Nat} :
    s₀.Evolves τ (State.formFull x c fuel s) := by
  induction fuel generalizing s with
  | zero => exact h
  | succ fuel ih => exact .ite h (.ite (ih (.formBlock (.canTake h))) (.canTake h))

theorem State.Evolves.markPub (h : s₀.Evolves τ s) {x c : Nat} : s₀.Evolves τ (s.markPub x c) :=
  .dite (fun _ => .ite (.setDset h) h) (fun _ => h)

theorem State.Evolves.drvTake (h : s₀.Evolves τ s) {x : Nat} : s₀.Evolves τ (s.drvTake x) :=
  .ite (.foldl (fun h => .formFull (.markPub h)) h) h

theorem State.Evolves.drvPublished (h : s₀.Evolves τ s) {c : Nat} : s₀.Evolves τ (s.drvPublished c) :=
  .foldl (fun h => .ite (.drvTake h) h) h

theorem State.Evolves.settle (h : s₀.Evolves τ s) {x : Nat} : s₀.Evolves τ (s.settle x) :=
  .foldl (fun h => .ite (.wrN h) h) (.wrN (.setDset (.showJournal (.keeps h))))

theorem State.Evolves.rebuildGo (h : s₀.Evolves τ s) {x : Nat} : s₀.Evolves τ (s.rebuildGo x) := by
  unfold State.rebuildGo
  extract_lets _ s₁
  have h₁ : s₀.Evolves τ s₁ := .setDset h
  split
  · exact h
  · refine .ite h ?_
    refine .ite (.drvHealth (.memberTo (.setDegFrom h₁))) ?_
    refine .ite h ?_
    extract_lets _ s₂
    have h₂ : s₀.Evolves τ s₂ := .setDset h
    exact .ite (.foldl (fun h => .drvSend h) h₂) h

theorem State.Evolves.rebuildRead (h : s₀.Evolves τ s) {x st strip : Nat} :
    s₀.Evolves τ (s.rebuildRead x st strip) := by
  unfold State.rebuildRead
  extract_lets
  split
  · exact h
  · extract_lets s₁
    have h₁ : s₀.Evolves τ s₁ := .setDset h
    exact .ite (.drvSend h₁) h₁

theorem State.Evolves.rebuildWritten (h : s₀.Evolves τ s) {x : Nat} : s₀.Evolves τ (s.rebuildWritten x) := by
  unfold State.rebuildWritten
  extract_lets
  split
  · exact h
  · extract_lets _ _ s₁ s₂
    have h₁ : s₀.Evolves τ s₁ := .setDset h
    have h₂ : s₀.Evolves τ s₂ := .ite (.bump h₁) h₁
    exact .rebuildGo h₂

theorem State.Evolves.setEngine (h : s₀.Evolves τ s) {port fn : Nat} {on : Bool} :
    s₀.Evolves τ (s.setEngine port fn on) :=
  .putBit h

theorem State.Evolves.releaseMembers (h : s₀.Evolves τ s) {x : Nat} : s₀.Evolves τ (s.releaseMembers x) := by
  unfold State.releaseMembers
  refine .foldl (fun h => ?_) h
  extract_lets _ s₁ s₂
  have h₁ : s₀.Evolves τ s₁ := .setEngine h
  have h₂ : s₀.Evolves τ s₂ := by
    refine .ite h ?_
    split
    · exact .setCtrl h₁
    · exact h₁
  exact .ite h (.memberTo h₂)

theorem State.Evolves.memberLost (h : s₀.Evolves τ s) {x m st cause : Nat} :
    s₀.Evolves τ (s.memberLost x m st cause) := by
  unfold State.memberLost
  refine .ite (.releaseMembers h) ?_
  extract_lets s₁ s₂ _ s₃ _ s₄ s₅
  have h₁ : s₀.Evolves τ s₁ := .ite (.setDegFrom h) h
  have h₂ : s₀.Evolves τ s₂ := by
    unfold s₂
    split
    · exact .setCtrl h₁
    · exact h₁
  have h₃ : s₀.Evolves τ s₃ := .setMember h₂
  have h₄ : s₀.Evolves τ s₄ := by
    unfold s₄
    split
    · exact .ite (.setDset h₃) (.setDset h₃)
    · exact h₃
  have h₅ : s₀.Evolves τ s₅ := .drvHealth (.memberTo (.setFld h₄))
  exact .settle h₅

theorem State.Evolves.resendJournal (h : s₀.Evolves τ s) {x m : Nat} : s₀.Evolves τ (s.resendJournal x m) := by
  unfold State.resendJournal
  extract_lets _ _ s₁ s₂
  have h₁ : s₀.Evolves τ s₁ := .setMember h
  have h₂ : s₀.Evolves τ s₂ := .foldl (fun h => .ite (.sendStrips h) h) h₁
  exact .ite (.foldl (fun h => .ite (.sendStrips h) h) h₂) h₂

theorem State.Evolves.memberTake (h : s₀.Evolves τ s) {x m port fn st : Nat} :
    s₀.Evolves τ (s.memberTake x m port fn st) :=
  .drvSend (.memberTo (.setEngine (.setFld (.setFld (.setFld h)))))

theorem State.Evolves.startRebuild (h : s₀.Evolves τ s) {x m from' : Nat} :
    s₀.Evolves τ (s.startRebuild x m from') :=
  .wrN (.setDset (.memberTo h))

theorem State.Evolves.rejoin (h : s₀.Evolves τ s) {x m port fn : Nat} {blank : Bool} :
    s₀.Evolves τ (s.rejoin x m port fn blank) := by
  unfold State.rejoin
  extract_lets _ s₁ s₂ s₃
  have h₁ : s₀.Evolves τ s₁ := .memberTake h
  have h₂ : s₀.Evolves τ s₂ := .ite (.sendLabel h₁) h₁
  have h₃ : s₀.Evolves τ s₃ := .memberTake h
  exact .ite (.setDset h) (.ite (.rebuildGo (.drvHealth (.startRebuild h₂))) (.drvTake (.drvHealth (.resendJournal
      h₃))))

theorem State.Evolves.setOff (h : s₀.Evolves τ s) {x : Nat} : s₀.Evolves τ (s.setOff x) :=
  .setFld (.setDset (.releaseMembers h))

theorem State.Evolves.refuseSet (h : s₀.Evolves τ s) {x cause : Nat} : s₀.Evolves τ (s.refuseSet x cause) :=
  .setFld (.setOff h)

theorem State.Evolves.runSet (h : s₀.Evolves τ s) {x : Nat} {lost : List Nat} {stale : Option (Nat × Nat)} :
    s₀.Evolves τ (s.runSet x lost stale) := by
  unfold State.runSet
  extract_lets _ _ _ _ s₁ s₂ s₃ s₄ s₅
  have h₁ : s₀.Evolves τ s₁ := .setFld (.setDset h)
  have h₂ : s₀.Evolves τ s₂ := .foldl (fun h => .ite (.memberTo (.setFld h)) (.memberTo h)) h₁
  have h₃ : s₀.Evolves τ s₃ := by
    unfold s₃
    split
    · exact .ite (.setDegFrom h₂) h₂
    · exact h₂
  have h₄ : s₀.Evolves τ s₄ := by
    unfold s₄
    split
    · exact .startRebuild h₃
    · exact h₃
  have h₅ : s₀.Evolves τ s₅ := .ite h₄ (.foldl (fun h => .resendJournal h) h₄)
  exact .rebuildGo (.drvTake (.settle (.drvHealth h₅)))

theorem State.Evolves.newSet (h : s₀.Evolves τ s) {x : Nat} {cs : List Ctrl} : s₀.Evolves τ (s.newSet x cs) := by
  unfold State.newSet
  extract_lets r₁ _ s₂ s₃ s₄ _ s₅
  have h₁ : s₀.Evolves τ r₁.2 := .draw h
  have h₂ : s₀.Evolves τ s₂ := .setDset h₁
  have h₃ : s₀.Evolves τ s₃ := .wrN (.wr h₂)
  have h₄ : s₀.Evolves τ s₄ := .wrN (.wrN h₃)
  have h₅ : s₀.Evolves τ s₅ := .same h₄
  exact .sendLabels (.setFld (.setDegFrom (.showJournal h₅)))

theorem State.Evolves.oldSet (h : s₀.Evolves τ s) {x : Nat} {cs : List Ctrl} {ls : List DrvLabel} {lost : List Nat}
    :
    s₀.Evolves τ (s.oldSet x cs ls lost) :=
  .runSet (.setFld (.setDegFrom (.wrN (.wrN (.wrN (.wrN (.setDset h)))))))

theorem State.Evolves.initSet (h : s₀.Evolves τ s) {x : Nat} : s₀.Evolves τ (s.initSet x) := by
  unfold State.initSet
  refine .ite h ?_
  extract_lets _ _ _ _ _ _ _ _ s₁
  have h₁ : s₀.Evolves τ s₁ := .foldl (fun h => .ite h (.memberTake h)) h
  exact .ite (.refuseSet h) (.ite h (.ite (.refuseSet h) (.ite (.refuseSet h) (.ite (.newSet h₁) (.oldSet h₁)))))

theorem State.Evolves.ctrlOffer (h : s₀.Evolves τ s) {c : Ctrl} : s₀.Evolves τ (s.ctrlOffer c) := by
  unfold State.ctrlOffer
  refine .foldl (fun h => ?_) h
  extract_lets
  refine .ite (.initSet h) ?_
  refine .ite h ?_
  split
  · exact .ite (.rejoin h) h
  · split
    · exact .ite (.rejoin h) h
    · exact h

theorem State.Evolves.ctrlReady (h : s₀.Evolves τ s) {port fn : Nat} : s₀.Evolves τ (s.ctrlReady port fn) := by
  unfold State.ctrlReady
  split
  · exact h
  · extract_lets _ s₁ s₂
    have h₁ : s₀.Evolves τ s₁ := .setCtrl h
    have h₂ : s₀.Evolves τ s₂ := .foldl (fun h => .drvNext h) h₁
    exact .ctrlOffer h₂

theorem State.Evolves.ctrlStart (h : s₀.Evolves τ s) {port fn : Nat} : s₀.Evolves τ (s.ctrlStart port fn) :=
  .send (.setCtrl h)

theorem State.Evolves.ctrlAway (h : s₀.Evolves τ s) {port fn : Nat} : s₀.Evolves τ (s.ctrlAway port fn) :=
  .foldl (fun h => .initSet h) (.dropCtrl h)

theorem State.Evolves.ctrlGone (h : s₀.Evolves τ s) {port fn : Nat} : s₀.Evolves τ (s.ctrlGone port fn) := by
  unfold State.ctrlGone
  extract_lets s₁
  have h₁ : s₀.Evolves τ s₁ := by
    unfold s₁
    split
    · exact .memberLost h
    · exact h
  exact .ctrlAway h₁

theorem State.Evolves.setIdle (h : s₀.Evolves τ s) {x : Nat} : s₀.Evolves τ (s.setIdle x) :=
  .ite (.setOff (.setDset h)) (.foldl (fun h => .rejoin h) (.setFld (.setDset h)))

theorem State.Evolves.formRest {fuel : Nat} (h : s₀.Evolves τ s) {x c : Nat} :
    s₀.Evolves τ (State.formRest x c fuel s) := by
  induction fuel generalizing s with
  | zero => exact h
  | succ fuel ih => exact .ite h (.ite (ih (.setDset (.formBlock (.canTake h)))) (.canTake h))

theorem State.Evolves.padStripe {fuel : Nat} (h : s₀.Evolves τ s) {x : Nat} :
    s₀.Evolves τ (State.padStripe x fuel s) := by
  induction fuel generalizing s with
  | zero => exact h
  | succ fuel ih => exact .ite h (.ite (ih (.acceptBlock (.canTake h))) (.canTake h))

theorem State.Evolves.stopFill (h : s₀.Evolves τ s) {x : Nat} : s₀.Evolves τ (s.stopFill x) :=
  .ite (.padStripe (.foldl (fun h => .formRest h) h)) (.foldl (fun h => .formRest h) h)

theorem State.Evolves.stopGo (h : s₀.Evolves τ s) {x : Nat} : s₀.Evolves τ (s.stopGo x) := by
  unfold State.stopGo
  refine .ite h ?_
  extract_lets s₁ _ _ _ s₂
  have h₁ : s₀.Evolves τ s₁ := .ite (.stopFill h) h
  have h₂ : s₀.Evolves τ s₂ := .ite (.relabel (.setDset h₁)) h₁
  exact .ite (.setIdle h₂) h₂

theorem State.Evolves.drvStop (h : s₀.Evolves τ s) {x : Nat} : s₀.Evolves τ (s.drvStop x) :=
  .ite (.stopGo (.settle (.stopFill (.setFld (.setDset h))))) h

theorem State.Evolves.drvProgress (h : s₀.Evolves τ s) {x : Nat} : s₀.Evolves τ (s.drvProgress x) :=
  .stopGo (.rebuildGo (.drvTake (.settle h)))

theorem State.Evolves.drvResume (h : s₀.Evolves τ s) : s₀.Evolves τ s.drvResume :=
  .foldl (fun h => .ite (.initSet (.setFld (.setDset h))) h) h

/-! ### Record writers -/

theorem State.Evolves.wrRing {bs : List (BitVec 8)} (h : s₀.Evolves τ s) {base size off : Nat} :
    s₀.Evolves τ (s.wrRing base size off bs) := by
  induction bs generalizing s off with
  | nil => exact h
  | cons b r ih => exact ih (.wrByte h)

theorem State.Evolves.ringWr (h : s₀.Evolves τ s) {x : RecSettings} {off : Nat} {bs : List (BitVec 8)} :
    s₀.Evolves τ (s.ringWr x off bs) :=
  .wrRing h

theorem State.Evolves.ebLevel (h : s₀.Evolves τ s) {c : Nat} : s₀.Evolves τ (s.ebLevel c) :=
  .ite (.wrN (.wrN h)) (.wrN h)

theorem State.Evolves.writerBits (h : s₀.Evolves τ s) {c : Nat} {waiting : Bool} :
    s₀.Evolves τ (s.writerBits c waiting) := by
  unfold State.writerBits
  extract_lets _ s₁ s₂ s₃
  have h₁ : s₀.Evolves τ s₁ := .putBit h
  have h₂ : s₀.Evolves τ s₂ := .putBit h₁
  have h₃ : s₀.Evolves τ s₃ := .putBit h₂
  exact .ite (.ebLevel (.setWriter (.putBit h₃))) h₃

theorem State.Evolves.noteSpan (h : s₀.Evolves τ s) {c start len units : Nat} {packs : Bool} :
    s₀.Evolves τ (s.noteSpan c start len units packs) :=
  .setWriter h

theorem State.Evolves.openSpill (h : s₀.Evolves τ s) {c : Nat} {k : Capture} {rest : List Capture} :
    s₀.Evolves τ (s.openSpill c k rest) :=
  .wrN (.noteSpan (.setWriter (.ringWr h)))

theorem State.Evolves.stepSpill (h : s₀.Evolves τ s) {c : Nat} {k : Capture} {start : Nat} :
    s₀.Evolves τ (s.stepSpill c k start)  :=
  .ite (.wrN h) h

theorem State.Evolves.publishMarks (h : s₀.Evolves τ s) {c : Nat} {k : Capture} {gap : Bool} {lost : Nat} :
    s₀.Evolves τ (s.publishMarks c k gap lost) := by
  unfold State.publishMarks
  extract_lets s₁ s₂ s₃ s₄ s₅
  have h₁ : s₀.Evolves τ s₁ := .wr h
  have h₂ : s₀.Evolves τ s₂ := .bumpSat h₁
  have h₃ : s₀.Evolves τ s₃ := .ite (.latchRaise h₂) h₂
  have h₄ : s₀.Evolves τ s₄ := .ite (.latchRaise h₃) h₃
  have h₅ : s₀.Evolves τ s₅ := .ite (.latchRaise h₄) h₄
  exact .ite (.raise h₅) h₅

theorem State.Evolves.publish (h : s₀.Evolves τ s) {c lost : Nat} {k : Capture} {rest : List Capture}
    {ns : List Note} : s₀.Evolves τ (s.publish c k rest ns lost) :=
  .publishMarks (.wrN (.noteSpan (.setWriter (.ringWr (.ite h.drawn (.ringWr h.drawn))))))

theorem State.Evolves.recService {fuel : Nat} (h : s₀.Evolves τ s) {c : Nat} :
    s₀.Evolves τ (State.recService c fuel s) := by
  induction fuel generalizing s with
  | zero => exact .writerBits h
  | succ fuel ih =>
    unfold State.recService
    split
    · exact .writerBits h
    · refine .ite (.ite (ih (.openSpill h)) (.writerBits h))
        (.ite (.ite (ih (.publish h)) (.writerBits h)) (.writerBits ?_))
      split
      · exact .stepSpill h
      · exact h

theorem State.Evolves.serveWriter (h : s₀.Evolves τ s) {c : Nat} : s₀.Evolves τ (s.serveWriter c) :=
  .ite (.drvPublished (.recService h)) (.writerBits h)

theorem State.Evolves.openCapture (h : s₀.Evolves τ s) {c : Nat} {trig : Trig} {cont : Bool} :
    s₀.Evolves τ (s.openCapture c trig cont) :=
  .serveWriter (.bump (.setWriter h))

theorem State.Evolves.startIgnored (h : s₀.Evolves τ s) {c q : Nat} {trig : Trig} {t : Nat} :
    s₀.Evolves τ (s.startIgnored c q trig t) :=
  .bumpSat (.setWriter h)

theorem State.Evolves.heldOpens (h : s₀.Evolves τ s) {c : Nat} : s₀.Evolves τ (s.heldOpens c) := by
  unfold State.heldOpens
  extract_lets _ s₁
  have h₁ : s₀.Evolves τ s₁ := .setWriter h
  split
  · refine .ite ?_ h
    extract_lets _ s₂
    have h₂ : s₀.Evolves τ s₂ := .ite (.wrN h₁) h₁
    exact .openCapture h₂
  · exact h

theorem State.Evolves.keepUnit (h : s₀.Evolves τ s) {c : Nat} {u : RecUnit} : s₀.Evolves τ (s.keepUnit c u) :=
  .setWriter h

theorem State.Evolves.countUnit (h : s₀.Evolves τ s) {c : Nat} {u : RecUnit} {pace : Pace} :
    s₀.Evolves τ (s.countUnit c u pace)  :=
  .setWriter h

theorem State.Evolves.offerUnit (h : s₀.Evolves τ s) {c : Nat} {u : RecUnit} : s₀.Evolves τ (s.offerUnit c u).1 :=
  .ite (.raise (.bumpSat (.setWriter h))) (.bumpSat (.setWriter h))

theorem State.Evolves.unitArrives (h : s₀.Evolves τ s) {c : Nat} {u : RecUnit} {pace : Pace} :
    s₀.Evolves τ (s.unitArrives c u pace) := by
  unfold State.unitArrives
  extract_lets r₁ _ r₂ s₃
  have h₁ : s₀.Evolves τ r₁.1 := .offerUnit h
  have h₂ : s₀.Evolves τ r₂.1 := .offerUnit (.ite (.heldOpens h₁) h₁)
  have h₃ : s₀.Evolves τ s₃ := .countUnit h₂
  exact .ite (.ite (.heldOpens (.countUnit h₁)) (.countUnit h₁)) (.ite h₃ (.keepUnit h₃))

theorem State.Evolves.ebDiscard (h : s₀.Evolves τ s) {c : Nat} {ts : Stamp} {word : Bool} :
    s₀.Evolves τ (s.ebDiscard c ts word)  :=
  .postFaults (.wr (.wr (.bumpSat (.setWriter h))))

theorem State.Evolves.ebWord (h : s₀.Evolves τ s) {c size : Nat} {ts : Stamp} :
    s₀.Evolves τ (s.ebWord c size ts).1 :=
  .iteFst (.iteFst (.wr (.setWriter h)) (.iteFst h (.wr (.setWriter h)))) (.iteFst h (.ebDiscard h))

theorem State.Evolves.ebSpectrum (h : s₀.Evolves τ s) {c size : Nat} {ts : Stamp} :
    s₀.Evolves τ (s.ebSpectrum c size ts).1 :=
  .iteFst h (.iteFst h (.ebDiscard h))

theorem State.Evolves.ebPush (h : s₀.Evolves τ s) {c size : Nat} {unit : Option Nat} :
    s₀.Evolves τ (s.ebPush c size unit) :=
  .setWriter h

theorem State.Evolves.formUnit (h : s₀.Evolves τ s) {c size : Nat} {entered : Bool} {u : RecUnit} {pace : Pace} :
    s₀.Evolves τ (s.formUnit c size entered u pace) :=
  .unitArrives (.ite (.ebPush h) h)

theorem State.Evolves.iqUnit (h : s₀.Evolves τ s) {c : Nat} {entered : Bool} {x : OutSample} :
    s₀.Evolves τ (s.iqUnit c entered x)  :=
  .formUnit h

theorem State.Evolves.minMaxSample (h : s₀.Evolves τ s) {c : Nat} {entered : Bool} {x : OutSample} :
    s₀.Evolves τ (s.minMaxSample c entered x) :=
  .ite (.ite (.formUnit (.setWriter h)) (.setWriter h)) (.setWriter h)

theorem State.Evolves.recWord (h : s₀.Evolves τ s) {c : Nat} {xs : List OutSample} :
    s₀.Evolves τ (s.recWord c xs) := by
  unfold State.recWord
  split
  · exact h
  · refine .ite ?_ h
    extract_lets s₁ _ r₂ s₃ s₄ s₅
    have h₁ : s₀.Evolves τ s₁ := .setWriter h
    have h₂ : s₀.Evolves τ r₂.1 := .ebWord h₁
    have h₃ : s₀.Evolves τ s₃ := h₂
    have h₄ : s₀.Evolves τ s₄ := .ite (.ebPush h₃) h₃
    have h₅ : s₀.Evolves τ s₅ := .ite (.foldl (fun h => .iqUnit h) h₃) (.ite (.foldl (fun h => .minMaxSample h) h₄)
        h₄)
    exact .serveWriter (.ebLevel h₅)

theorem State.Evolves.recSpectrum (h : s₀.Evolves τ s) {c res : Nat} {ts : Stamp} {pace : Pace} {block : List
    (BitVec 8)} {invalid deg subst stale : Bool} :
    s₀.Evolves τ (s.recSpectrum c res ts pace block invalid deg subst stale) :=
  .ite (.serveWriter (.ebLevel (.formUnit (.ebSpectrum h)))) h

theorem State.Evolves.setTch (h : s₀.Evolves τ s) {c : Nat} {x : TrigChan} : s₀.Evolves τ (s.setTch c x) :=
  .dite (fun _ => .keeps h) (fun _ => h)

theorem State.Evolves.stopCapture (h : s₀.Evolves τ s) {c e at' : Nat} : s₀.Evolves τ (s.stopCapture c e at') :=
  .serveWriter (.setWriter h)

theorem State.Evolves.closeCaptures (h : s₀.Evolves τ s) {c e : Nat} : s₀.Evolves τ (s.closeCaptures c e) :=
  .serveWriter (.setWriter h)

theorem State.Evolves.placeTag (h : s₀.Evolves τ s) {c imm : Nat} {ts : Stamp} :
    s₀.Evolves τ (s.placeTag c imm ts) :=
  .setWriter h

theorem State.Evolves.ebPop (h : s₀.Evolves τ s) {c n : Nat} : s₀.Evolves τ (s.ebPop c n) := .setWriter h

theorem State.Evolves.moveHistory (h : s₀.Evolves τ s) {c n : Nat} : s₀.Evolves τ (s.moveHistory c n) :=
  .writerBits (.ebPop (.ringWr h))

theorem State.Evolves.moveUnit (h : s₀.Evolves τ s) {c n : Nat} : s₀.Evolves τ (s.moveUnit c n) := by
  unfold State.moveUnit
  split
  · exact .moveHistory h
  · split
    · exact .ite (.writerBits (.ebPop (.ringWr h))) (.writerBits h)
    · exact .ite (.writerBits h) (.moveHistory h)

theorem State.Evolves.writeUnit (h : s₀.Evolves τ s) {c : Nat} : s₀.Evolves τ (s.writeUnit c) := by
  unfold State.writeUnit
  extract_lets _ _ s₁ s₂
  have h₁ : s₀.Evolves τ s₁ := .setWriter h
  have h₂ : s₀.Evolves τ s₂ := by
    unfold s₂
    split
    · exact h₁
    · exact .moveUnit h₁
  exact .serveWriter (.ebLevel h₂)

theorem State.Evolves.startWriter (h : s₀.Evolves τ s) {c : Nat} : s₀.Evolves τ (s.startWriter c) :=
  .setWriter (.putBit h)

theorem State.Evolves.enableWriter (h : s₀.Evolves τ s) {c : Nat} : s₀.Evolves τ (s.enableWriter c) :=
  .ite (.putBit h) (.startWriter (.putBit h))

theorem State.Evolves.disableWriter (h : s₀.Evolves τ s) {c : Nat} : s₀.Evolves τ (s.disableWriter c) :=
  .ite (.closeCaptures (.putBit h)) h

theorem State.Evolves.powerCloseWriter (h : s₀.Evolves τ s) {c : Nat} : s₀.Evolves τ (s.powerCloseWriter c) :=
  .ite (.serveWriter (.ebLevel (.setWriter (.closeCaptures h)))) h

/-! ### Trigger units -/

theorem State.Evolves.setTunit (h : s₀.Evolves τ s) {c u : Nat} {v : TrigUnit} : s₀.Evolves τ (s.setTunit c u v) :=
  .setTch h

theorem State.Evolves.armUnit (h : s₀.Evolves τ s) {c u : Nat} {on : Bool} {t : Nat} {software : Bool} :
    s₀.Evolves τ (s.armUnit c u on t software) :=
  .ite h (.setTunit (.putBit h))

theorem State.Evolves.armMask (h : s₀.Evolves τ s) {c mask : Nat} {on : Bool} {t : Nat} :
    s₀.Evolves τ (s.armMask c mask on t) :=
  .foldl (fun h => .ite (.armUnit h) h) h

theorem State.Evolves.armsReset (h : s₀.Evolves τ s) : s₀.Evolves τ s.armsReset := .foldl (fun h => .setTunit h) h

theorem State.Evolves.notePrior (h : s₀.Evolves τ s) {c u : Nat} {v : UnitVer} : s₀.Evolves τ (s.notePrior c u v) :=
  .ite h (.setTunit h)

theorem State.Evolves.trgHandover (h : s₀.Evolves τ s) {c th : Nat} : s₀.Evolves τ (s.trgHandover c th) :=
  .raiseTs (.putBit (.setTch (.foldl (fun h => .setTunit h) (.wrN h))))

theorem State.Evolves.trgPass (h : s₀.Evolves τ s) {c : Nat} : s₀.Evolves τ (s.trgPass c) := by
  unfold State.trgPass
  split
  · exact .ite (.trgHandover h) h
  · exact h

theorem State.Evolves.trgEvaluated (h : s₀.Evolves τ s) {c t : Nat} : s₀.Evolves τ (s.trgEvaluated c t) := .setTch h

theorem State.Evolves.trgRequest (h : s₀.Evolves τ s) {c th : Nat} {timed : Bool} :
    s₀.Evolves τ (s.trgRequest c th timed) :=
  .trgPass (.ite (.latchRaise (.putBit (.setTch (.trgPass h)))) (.putBit (.setTch (.trgPass h))))

theorem State.Evolves.pendDecision (h : s₀.Evolves τ s) {c : Nat} {d : Decision} :
    s₀.Evolves τ (s.pendDecision c d) :=
  .setTch h

theorem State.Evolves.setUnitState (h : s₀.Evolves τ s) {c u x : Nat} : s₀.Evolves τ (s.setUnitState c u x) :=
  .setFld h

theorem State.Evolves.unitVerdict (h : s₀.Evolves τ s) {c u now : Nat} {d : Decision} :
    s₀.Evolves τ (s.unitVerdict c u now d) :=
  .ite (.pendDecision (.trgEvaluated (.setUnitState h))) (.trgEvaluated (.setUnitState h))

theorem State.Evolves.levelSample (h : s₀.Evolves τ s) {c u : Nat} {x : OutSample} :
    s₀.Evolves τ (s.levelSample c u x) :=
  .unitVerdict (.setTunit h)

theorem State.Evolves.powerSample (h : s₀.Evolves τ s) {c u : Nat} {x : OutSample} :
    s₀.Evolves τ (s.powerSample c u x) :=
  .ite (.setTunit h) (.unitVerdict (.setTunit h))

theorem State.Evolves.unitUnknown (h : s₀.Evolves τ s) {c u : Nat} : s₀.Evolves τ (s.unitUnknown c u) :=
  .setTunit (.setUnitState h)

theorem State.Evolves.tdUnit (h : s₀.Evolves τ s) {c : Nat} {x : OutSample} {u : Nat} :
    s₀.Evolves τ (s.tdUnit c x u) :=
  .ite (.ite (.unitUnknown h) (.ite (.levelSample h) (.powerSample h))) h

theorem State.Evolves.outsideCause (h : s₀.Evolves τ s) {c u : Nat} {cause : Stamp} {value ready : Nat} :
    s₀.Evolves τ (s.outsideCause c u cause value ready) := by
  unfold State.outsideCause
  refine .ite ?_ h
  extract_lets s₁
  have h₁ : s₀.Evolves τ s₁ := .trgEvaluated (.trgPass h)
  refine .ite (.pendDecision h₁) ?_
  split
  · exact .pendDecision h₁
  · exact .setTch h₁

theorem State.Evolves.attachWaiting (h : s₀.Evolves τ s) {c : Nat} {x : OutSample} :
    s₀.Evolves τ (s.attachWaiting c x) :=
  .foldl (fun h => .pendDecision h) (.setTch h)

theorem State.Evolves.flushWaiting (h : s₀.Evolves τ s) {c : Nat} : s₀.Evolves τ (s.flushWaiting c) :=
  .foldl (fun h => .pendDecision h) (.setTch h)

theorem State.Evolves.newOrigin (h : s₀.Evolves τ s) {c : Nat} : s₀.Evolves τ (s.newOrigin c) := .setTch h

theorem State.Evolves.trigSample (h : s₀.Evolves τ s) {c : Nat} {old : Bool} {x : OutSample} :
    s₀.Evolves τ (s.trigSample c old x)  :=
  .attachWaiting (.foldl (fun h => .tdUnit h) (.setTch (.trgPass h)))

theorem State.Evolves.forUnits (h : s₀.Evolves τ s) {ty : Nat} {f : Nat → Nat → State → State}
    (hf : ∀ {c u : Nat} {t : State}, s₀.Evolves τ t → s₀.Evolves τ (f c u t)) : s₀.Evolves τ (s.forUnits ty f) :=
  .foldl (fun h => .foldl (fun h => .ite (hf h) h) h) h

theorem State.Evolves.externalEdge (h : s₀.Evolves τ s) {p : Nat} {rising : Bool} :
    s₀.Evolves τ (s.externalEdge p rising) :=
  .forUnits h (fun h => .ite (.outsideCause h) h)

theorem State.Evolves.timuB (h : s₀.Evolves τ s) {c u : Nat} {b : Stamp} : s₀.Evolves τ (s.timuB c u b) := by
  unfold State.timuB
  extract_lets _ _ _ _ s₁
  have h₁ : s₀.Evolves τ s₁ := .setTunit h
  split
  · exact h
  · extract_lets
    split
    · exact .ite (.outsideCause h₁) h₁
    · exact .ite (.outsideCause h₁) (.ite (.outsideCause h₁) h₁)
    · exact h₁

theorem State.Evolves.timuEnd (h : s₀.Evolves τ s) {c u : Nat} {a : Stamp} {hi : Nat} :
    s₀.Evolves τ (s.timuEnd c u a hi) :=
  .outsideCause (.setTunit h)

theorem State.Evolves.timuPast (h : s₀.Evolves τ s) {c u t : Nat} : s₀.Evolves τ (s.timuPast c u t) := by
  unfold State.timuPast
  split
  · exact .ite (.timuEnd h) h
  · exact h

theorem State.Evolves.timuA (h : s₀.Evolves τ s) {c u : Nat} {a : Stamp} : s₀.Evolves τ (s.timuA c u a) :=
  .ite (.outsideCause (.setTunit (.timuPast h))) (.setTunit (.timuPast h))

theorem State.Evolves.timuStamp (h : s₀.Evolves τ s) {ti : Nat} {falling : Bool} {t : Stamp} :
    s₀.Evolves τ (s.timuStamp ti falling t) :=
  .forUnits h (fun h => .ite (.ite (.timuA (.ite (.timuB h) h)) (.ite (.timuB h) h)) h)

theorem State.Evolves.timuExpiry (h : s₀.Evolves τ s) {c u : Nat} : s₀.Evolves τ (s.timuExpiry c u) := by
  unfold State.timuExpiry
  split
  · exact h
  · exact .ite (.timuEnd h) h

theorem State.Evolves.waypointUnits (h : s₀.Evolves τ s) {c mask index : Nat} {t : Stamp} :
    s₀.Evolves τ (s.waypointUnits c mask index t) :=
  .foldl (fun h => .ite (.outsideCause h) h) h

theorem State.Evolves.fireUnits (h : s₀.Evolves τ s) {id seq : Nat} {prov : Bool} {fireAt : Stamp} :
    s₀.Evolves τ (s.fireUnits id seq prov fireAt) :=
  .forUnits h (fun h => .ite (.outsideCause h) h)

theorem State.Evolves.provHeld (h : s₀.Evolves τ s) : s₀.Evolves τ s.provHeld := .setFld h

theorem State.Evolves.provDiscard (h : s₀.Evolves τ s) {counter : Nat} : s₀.Evolves τ (s.provDiscard counter) :=
  .latchRaise (.provHeld (.bump h))

theorem State.Evolves.provDrop (h : s₀.Evolves τ s) {id seq : Nat} : s₀.Evolves τ (s.provDrop id seq) := .keeps h

theorem State.Evolves.provExpire (h : s₀.Evolves τ s) : s₀.Evolves τ s.provExpire :=
  .foldl (fun h => .provDiscard h) (.keeps h)

theorem State.Evolves.provArrive (h : s₀.Evolves τ s) {id seq : Nat} {fireAt : Stamp} :
    s₀.Evolves τ (s.provArrive id seq fireAt) := by
  unfold State.provArrive
  extract_lets s₁
  have h₁ : s₀.Evolves τ s₁ := .provExpire h
  exact .ite (.provDiscard h₁) (.provHeld (.same h₁))

theorem State.Evolves.provConfirm (h : s₀.Evolves τ s) {id seq : Nat} : s₀.Evolves τ (s.provConfirm id seq) := by
  unfold State.provConfirm
  split
  · exact .fireUnits (.provHeld (.bump (.provDrop h)))
  · exact .bump h

theorem State.Evolves.provCancel (h : s₀.Evolves τ s) {id seq : Nat} : s₀.Evolves τ (s.provCancel id seq) := by
  unfold State.provCancel
  split
  · exact .provDiscard (.provDrop h)
  · exact .bump h

/-! ### Fabric links -/

theorem State.Evolves.setFport (h : s₀.Evolves τ s) {p : Nat} {x : FabPort} : s₀.Evolves τ (s.setFport p x) :=
  .dite (fun _ => .keeps h) (fun _ => h)

theorem State.Evolves.stampSent (h : s₀.Evolves τ s) {k : FabPkt} : s₀.Evolves τ (s.stampSent k).1 := by
  unfold State.stampSent
  split
  · exact .iteFst (.keeps h) h
  · exact h

theorem State.Evolves.timeStamped (h : s₀.Evolves τ s) {p : Nat} {k : FabPkt} :
    s₀.Evolves τ (s.timeStamped p k).1 := by
  unfold State.timeStamped
  extract_lets
  split
  · exact .setFport h
  · exact h

theorem State.Evolves.linkAccept (h : s₀.Evolves τ s) {p : Nat} {k : FabPkt} : s₀.Evolves τ (s.linkAccept p k) :=
  .send (.setFport (.timeStamped (.stampSent h)))

theorem State.Evolves.drainWait {fuel : Nat} (h : s₀.Evolves τ s) {p : Nat} :
    s₀.Evolves τ (State.drainWait p fuel s) := by
  induction fuel generalizing s with
  | zero => exact h
  | succ fuel ih =>
    unfold State.drainWait
    dsimp only
    split
    · exact h
    · exact ih (.linkAccept (.setFport h))

theorem State.Evolves.portSend (h : s₀.Evolves τ s) {p : Nat} {k : FabPkt} : s₀.Evolves τ (s.portSend p k) :=
  .ite (.linkAccept h) (.setFport h)

theorem State.Evolves.childSend (h : s₀.Evolves τ s) {k : FabPkt} : s₀.Evolves τ (s.childSend k) :=
  .foldl (fun h => .ite (.portSend h) h) h

theorem State.Evolves.routeSend (h : s₀.Evolves τ s) {k : FabPkt} : s₀.Evolves τ (s.routeSend k) := by
  unfold State.routeSend
  split
  · split
    · exact .portSend h
    · exact h
  · split
    · exact .portSend h
    · exact .childSend h
  · split
    · exact .portSend h
    · exact h

theorem State.Evolves.e2eSend (h : s₀.Evolves τ s) {uid dst : Nat} {b : FabBody} :
    s₀.Evolves τ (s.e2eSend uid dst b) :=
  .ite (.keeps h) (.routeSend (.keeps h))

theorem State.Evolves.ridgeTake (h : s₀.Evolves τ s) {kind id seq : Nat} {at' : Stamp} :
    s₀.Evolves τ (s.ridgeTake kind id seq at') := by
  unfold State.ridgeTake
  split
  · exact .fireUnits h
  · exact .provArrive h
  · exact .provConfirm h
  · exact .provCancel h

theorem State.Evolves.ridgeSend (h : s₀.Evolves τ s) {kind id seq : Nat} {fireAt : BitVec 64} :
    s₀.Evolves τ (s.ridgeSend kind id seq fireAt) := by
  unfold State.ridgeSend
  extract_lets s₁ _ _ _ _ _ _ _ s₂ s₃
  have h₁ : s₀.Evolves τ s₁ := .bump h
  have h₂ : s₀.Evolves τ s₂ := .same h₁
  have h₃ : s₀.Evolves τ s₃ := .foldl (fun h => .ite (.portSend h) h) h₂
  exact .ridgeTake h₃

theorem State.Evolves.ridgeApply (h : s₀.Evolves τ s) {k : FabPkt} {fire : Stamp} :
    s₀.Evolves τ (s.ridgeApply k fire) := by
  unfold State.ridgeApply
  split
  · exact .ridgeTake h
  · exact h

theorem State.Evolves.ridgeDrain {fuel : Nat} (h : s₀.Evolves τ s) {src : Nat} :
    s₀.Evolves τ (State.ridgeDrain src fuel s) := by
  induction fuel generalizing s with
  | zero => exact h
  | succ fuel ih =>
    unfold State.ridgeDrain
    split
    · exact h
    · split
      · exact h
      · exact ih (.ridgeApply (.keeps h))

theorem State.Evolves.ridgeOrder (h : s₀.Evolves τ s) {k : FabPkt} {rlSeq : Nat} {fire : Stamp} :
    s₀.Evolves τ (s.ridgeOrder k rlSeq fire) := by
  unfold State.ridgeOrder
  extract_lets
  split
  · exact .ridgeApply (.keeps h)
  · exact .ite (.keeps h) (.ite (.bumpSat h) (.ite (.ridgeDrain (.ridgeApply (.keeps h))) (.keeps h)))

theorem State.Evolves.ridgeArrive (h : s₀.Evolves τ s) {p arrival : Nat} {k : FabPkt} :
    s₀.Evolves τ (s.ridgeArrive p arrival k) := by
  unfold State.ridgeArrive
  split
  · extract_lets _ _ _ _ s₁
    have h₁ : s₀.Evolves τ s₁ := .ite (.bumpSat h) (.foldl (fun h => .ite (.portSend h) h) h)
    exact .ridgeOrder h₁
  · exact h

theorem State.Evolves.ridgeSkip (h : s₀.Evolves τ s) {src : Nat} : s₀.Evolves τ (s.ridgeSkip src) := by
  unfold State.ridgeSkip
  split
  · exact h
  · split
    · exact h
    · refine .ite h ?_
      extract_lets _ _ _ _ s₁ s₂
      have h₁ : s₀.Evolves τ s₁ := .keeps h
      have h₂ : s₀.Evolves τ s₂ := .latchRaise (.bumpSat h₁)
      exact .ridgeDrain h₂

/-! ### Sample chains -/

theorem State.Evolves.setLane (h : s₀.Evolves τ s) {g : Nat} {x : LaneGroup} : s₀.Evolves τ (s.setLane g x) :=
  .dite (fun _ => .keeps h) (fun _ => h)

theorem State.Evolves.setCnd (h : s₀.Evolves τ s) {c : Nat} {x : CndChan} : s₀.Evolves τ (s.setCnd c x) :=
  .dite (fun _ => .keeps h) (fun _ => h)

theorem State.Evolves.setRes (h : s₀.Evolves τ s) {r : Nat} {x : SpxRes} : s₀.Evolves τ (s.setRes r x) :=
  .dite (fun _ => .keeps h) (fun _ => h)

theorem State.Evolves.chainFigures (h : s₀.Evolves τ s) {c : Nat} : s₀.Evolves τ (s.chainFigures c) :=
  .putBit (.setFld (.wrI (.wrN h)))

theorem State.Evolves.latencies (h : s₀.Evolves τ s) {c : Nat} : s₀.Evolves τ (s.latencies c) :=
  .putBit (.putBit (.putBit (.wrN (.wrN (.wrI (.wrN h))))))

/-! ### Acquisition -/

theorem State.Reaches.execAcqEnable (h : s₀.Evolves τ s) {c : Fin 4} : s₀.Reaches τ (execAcqEnable c s) :=
  .ite (.next h) (.ite (.next h) (.ite .fault (.next (.enableWriter h))))

theorem State.Reaches.execAcqDisable (h : s₀.Evolves τ s) {c : Fin 4} : s₀.Reaches τ (execAcqDisable c s) :=
  .next (.disableWriter (.parityFree h))

theorem State.Reaches.execRecordUnitWrite (h : s₀.Evolves τ s) {c : Fin 4} :
    s₀.Reaches τ (execRecordUnitWrite c s) :=
  .next (.ite (.writeUnit h) h)

theorem State.Reaches.execAcqRelWrite (h : s₀.Evolves τ s) {who : Fin 8} {c : Fin 4} {v : BitVec 64} :
    s₀.Reaches τ (execAcqRelWrite who c v s) :=
  .ite (.next h) (.ite (.next (.flag h)) (.ite .fault (.next (.serveWriter (.wr h)))))

theorem State.Reaches.execExtTrigEdge (h : s₀.Evolves τ s) {p : Fin 8} {rising : Bool} :
    s₀.Reaches τ (execExtTrigEdge p rising s)  :=
  .ite .fault (.next (.wakeBy (.ite (.externalEdge (.putBit h)) (.putBit h))))

/-! ### PCIe ports -/

theorem State.Evolves.roleCause (h : s₀.Evolves τ s) {n : Nat} : s₀.Evolves τ (s.roleCause n) := .ite (.setFld h) h

theorem State.Evolves.setEnum (h : s₀.Evolves τ s) {n : Nat} {on : Bool} : s₀.Evolves τ (s.setEnum n on) := .keeps h

theorem State.Evolves.fnGone (h : s₀.Evolves τ s) {n f : Nat} : s₀.Evolves τ (s.fnGone n f) := .ctrlGone (.putBit h)

theorem State.Evolves.readsDropped (h : s₀.Evolves τ s) {n : Nat} : s₀.Evolves τ (s.readsDropped n) := .keeps h

theorem State.Evolves.linkDown (h : s₀.Evolves τ s) {n : Nat} : s₀.Evolves τ (s.linkDown n) := by
  unfold State.linkDown
  refine .ite ?_ h
  extract_lets s₁ s₂ s₃
  have h₁ : s₀.Evolves τ s₁ := .bumpSat (.putBit (.readsDropped h))
  have h₂ : s₀.Evolves τ s₂ := .raise h₁
  have h₃ : s₀.Evolves τ s₃ := .ite (.raise (.setEnum h₂)) h₂
  exact .ite (.foldl (fun h => .fnGone h) h₃) h₂

theorem State.Evolves.listFn (h : s₀.Evolves τ s) {n f bus : Nat} {d : PciDev} {fits : Bool} :
    s₀.Evolves τ (s.listFn n f bus d fits) :=
  .wrN (.wrN h)

theorem State.Evolves.startFns (h : s₀.Evolves τ s) {n : Nat} {fs : List (Nat × PciDev × Bool)} :
    s₀.Evolves τ (s.startFns n fs)  :=
  .foldl (fun h => .ite (.ctrlStart h) h) h

theorem State.Evolves.listBars (h : s₀.Evolves τ s) {n f : Nat} {fits : Bool} {at' : List (Nat × Nat)} :
    s₀.Evolves τ (s.listBars n f fits at') :=
  .keeps h

theorem State.Evolves.enumEnd (h : s₀.Evolves τ s) {n : Nat} {devs : List PciDev} :
    s₀.Evolves τ (s.enumEnd n devs) := by
  unfold State.enumEnd
  extract_lets _ _ _ s₁ _ s₂ s₃ s₄ s₅ s₆ s₇
  have h₁ : s₀.Evolves τ s₁ := .foldl (fun h => .wrN (.wrN h)) h
  have h₂ : s₀.Evolves τ s₂ := .same h₁
  have h₃ : s₀.Evolves τ s₃ := .foldl (fun h => .listBars (.listFn h)) h₂
  have h₄ : s₀.Evolves τ s₄ := .wrN h₃
  have h₅ : s₀.Evolves τ s₅ := .putBit (.putBit h₄)
  have h₆ : s₀.Evolves τ s₆ := .raise (.setEnum h₅)
  have h₇ : s₀.Evolves τ s₇ := .startFns h₆
  exact .foldl (fun h => .initSet h) h₇

theorem State.Evolves.relist (h : s₀.Evolves τ s) {n : Nat} {e : Nat × PciDev × Bool × List (Nat × Nat)} :
    s₀.Evolves τ (s.relist n e) :=
  .ite (.putBit h) (.startFns (.listBars (.listFn (.wrN h))))

theorem State.Evolves.slotEnum (h : s₀.Evolves τ s) {n : Nat} {x : PciSlot} {devs : List PciDev} :
    s₀.Evolves τ (s.slotEnum n x devs) := by
  unfold State.slotEnum
  extract_lets _ s₁ _ _ s₂ s₃
  have h₁ : s₀.Evolves τ s₁ := .foldl (fun h => .ite (.fnGone (.listBars h)) h) h
  have h₂ : s₀.Evolves τ s₂ := .same h₁
  have h₃ : s₀.Evolves τ s₃ := .raise (.foldl (fun h => .relist h) h₂)
  exact .foldl (fun h => .initSet h) h₃

theorem State.Evolves.flushMsix (h : s₀.Evolves τ s) {n : Nat} : s₀.Evolves τ (s.flushMsix n) :=
  .ite (.foldl (fun h => .ite (.send (.setEp h)) h) h) h

theorem State.Evolves.flrStart (h : s₀.Evolves τ s) {n : Nat} : s₀.Evolves τ (s.flrStart n) :=
  .readsDropped (.setEp h)

theorem State.Evolves.epConfigWrite (h : s₀.Evolves τ s) {n r v : Nat} : s₀.Evolves τ (s.epConfigWrite n r v) :=
  .ite (.flushMsix (.setEp h)) (.ite (.flushMsix (.setEp h)) (.ite (.flrStart (.setEp h)) (.setEp h)))

theorem State.Evolves.epEnable (h : s₀.Evolves τ s) {n : Nat} : s₀.Evolves τ (s.epEnable n) := .ite (.setEp h) h

theorem State.Reaches.execPciLinkUp (h : s₀.Evolves τ s) {n : Fin 4} {rate : Fin 6} {width : Fin 4} {flit : Bool} :
    s₀.Reaches τ (execPciLinkUp n rate width flit s) := by
  unfold Machine.execPciLinkUp
  extract_lets _ _ _ s₁ s₂ s₃
  have h₁ : s₀.Evolves τ s₁ := .setFld (.putBit h)
  have h₂ : s₀.Evolves τ s₂ := .putBit (.setFld h₁)
  have h₃ : s₀.Evolves τ s₃ := .raise h₂
  exact .ite .fault (.next (.ite (.ite (.setEnum (.putBit (.putBit h₃))) h₃) h))

theorem State.Reaches.execPciLinkDown (h : s₀.Evolves τ s) {n : Fin 4} : s₀.Reaches τ (execPciLinkDown n s) :=
  .next (.linkDown h)

theorem State.Reaches.execPciEnum (h : s₀.Evolves τ s) {n : Fin 4} {devs : List PciDev} :
    s₀.Reaches τ (execPciEnum n devs s) :=
  .ite .fault (.next (.ite (.enumEnd h) h))

theorem State.Reaches.execSlotChange (h : s₀.Evolves τ s) {n : Fin 4} {bus : Fin 256} {devs : List PciDev} :
    s₀.Reaches τ (execSlotChange n bus devs s) := by
  unfold Machine.execSlotChange
  refine .next (.ite ?_ h)
  refine .ite (.raise h) ?_
  split
  · exact .slotEnum (.raise h)
  · exact h

theorem State.Reaches.execPerst (h : s₀.Evolves τ s) {n : Fin 4} : s₀.Reaches τ (execPerst n s) :=
  .ite .fault (.next (.epEnable (.setEp (.ite (.wakeBy h) h))))

theorem State.Reaches.execPerstRelease (h : s₀.Evolves τ s) {n : Fin 4} : s₀.Reaches τ (execPerstRelease n s) :=
  .next (.ite (.send h) h)

theorem State.Reaches.execConfigRequest (h : s₀.Evolves τ s) {n : Fin 4} {tag : Fin 16384} {write : Bool} {reg : Fin
    1024} {v : BitVec 32} :
    s₀.Reaches τ (execConfigRequest n tag write reg v s) :=
  .next (.ite (.ite (.send h) (.ite (.send (.epConfigWrite h)) (.send h))) h)

theorem State.Reaches.execFlrStart (h : s₀.Evolves τ s) {n : Fin 4} : s₀.Reaches τ (execFlrStart n s) :=
  .next (.ite (.flrStart h) h)

theorem State.Reaches.execPciFlr (h : s₀.Evolves τ s) {n : Fin 4} : s₀.Reaches τ (execPciFlr n s) :=
  .next (.ite (.raise (.setEp h)) h)

theorem State.Evolves.memRequest (h : s₀.Evolves τ s) {k : HeldRequest} : s₀.Evolves τ (s.memRequest k) :=
  .ite (.keeps h) (.serveHeld h)

theorem State.Reaches.execBar2Access (h : s₀.Evolves τ s) {n : Fin 4} {tag : Fin 16384} {write : Bool} {off len :
    Nat} {data : List (BitVec 8)} :
    s₀.Reaches τ (execBar2Access n tag write off len data s) := by
  unfold Machine.execBar2Access
  extract_lets _ _ _ _ _ s₁
  have h₁ : s₀.Evolves τ s₁ := .bumpSat h
  exact .ite .fault (.ite (.next h) (.ite .fault (.ite (.next (.ite h₁ (.send h₁))) (.ite .fault (.next (.memRequest
      h))))))

theorem State.Reaches.execCfgAccGo (h : s₀.Evolves τ s) {n : Fin 4} {v : BitVec 64} :
    s₀.Reaches τ (execCfgAccGo n v s) := by
  unfold Machine.execCfgAccGo
  extract_lets _ _ _ s₁ _ s₂
  have h₁ : s₀.Evolves τ s₁ := .wr h
  have h₂ : s₀.Evolves τ s₂ := .same h₁
  exact .ite .fault (.next (.ite (.send h₂) h₁))

theorem State.Reaches.execCfgAccDone (h : s₀.Evolves τ s) {n : Fin 4} {ur : Bool} {data : BitVec 32} :
    s₀.Reaches τ (execCfgAccDone n ur data s) :=
  .next (.ite (.ite (.putBit (.putBit (.keeps h))) (.setFld (.putBit (.putBit (.keeps h))))) h)

theorem State.Reaches.execDownstreamRequest (h : s₀.Evolves τ s) {n : Fin 4} {tag : Fin 16384} {write : Bool} {addr
    : BitVec 64} {len : Nat} {data : List (BitVec 8)} :
    s₀.Reaches τ (execDownstreamRequest n tag write addr len data s)  := by
  unfold Machine.execDownstreamRequest
  extract_lets _ _ s₁
  have h₁ : s₀.Evolves τ s₁ := .ite h (.send h)
  exact .ite (.next h) (.ite (.ite (.next h₁) (.ite .fault (.next (.memRequest h)))) (.ite (.next h) (.ite (.next h)
      (.next h₁))))

theorem State.Reaches.execPcieLinkError (h : s₀.Evolves τ s) {n : Fin 4} {fatal : Bool} :
    s₀.Reaches τ (execPcieLinkError n fatal s) :=
  .next (.ite (.raise (.bumpSat h)) (.bumpSat h))

/-! ### Drives -/

theorem State.Evolves.afterDrive (h : s₀.Evolves τ s) {x : Nat} : s₀.Evolves τ (s.afterDrive x) :=
  .foldl (fun h => .serveWriter h) (.drvProgress h)

theorem State.Evolves.stripDone (h : s₀.Evolves τ s) {x m st strip : Nat} :
    s₀.Evolves τ (s.stripDone x m st strip) :=
  .ite (.setMember h) (.setMember h)

theorem State.Evolves.initDone (h : s₀.Evolves τ s) {c : Ctrl} {step' : Nat} {ok : Bool} {data : NvmeData} :
    s₀.Evolves τ (s.initDone c step' ok data) :=
  .ite (.drvSend (.setCtrl h)) (.ctrlReady (.setCtrl h))

theorem State.Evolves.labelDone (h : s₀.Evolves τ s) {x : Nat} : s₀.Evolves τ (s.labelDone x) :=
  .ite (.runSet h) (.stopGo h)

theorem State.Evolves.cmdDone (h : s₀.Evolves τ s) {c : Ctrl} {k : DrvCmd} {data : NvmeData} :
    s₀.Evolves τ (s.cmdDone c k data) := by
  unfold State.cmdDone
  extract_lets
  split
  · exact .initDone h
  · exact .labelDone h
  · exact .afterDrive (.stripDone h)
  · exact .afterDrive (.stripDone h)
  · exact .afterDrive (.setMember h)
  · split
    · extract_lets _ s₁
      have h₁ : s₀.Evolves τ s₁ := .setFld (.setFld (.setFld h))
      exact .ite h₁ (.raise h₁)
    · exact h
  · exact .rebuildRead h
  · exact .rebuildWritten h
  · exact h

theorem State.Evolves.ctrlFailed (h : s₀.Evolves τ s) {port fn cause : Nat} :
    s₀.Evolves τ (s.ctrlFailed port fn cause) := by
  unfold State.ctrlFailed
  extract_lets s₁
  have h₁ : s₀.Evolves τ s₁ := .bumpSat h
  split
  · exact .ctrlAway (.afterDrive (.memberLost h₁))
  · exact .ctrlAway h₁

theorem State.Evolves.cmdFailed (h : s₀.Evolves τ s) {c : Ctrl} {k : DrvCmd} {data : NvmeData} :
    s₀.Evolves τ (s.cmdFailed c k data) := by
  unfold State.cmdFailed
  refine .ite ?_ ?_
  · refine .ite ?_ (.ctrlFailed h)
    extract_lets s₁
    have h₁ : s₀.Evolves τ s₁ := by
      unfold s₁
      split
      · exact .setCtrl h
      · exact h
    exact .drvNext h₁
  · split
    · exact .ite (.ctrlFailed h) (.initDone h)
    · split
      · exact .ite h (.ite (.refuseSet h) (.ctrlAway (.afterDrive (.setFld (.memberLost h)))))
      · exact h
    · exact .rebuildGo (.setDset h)
    · exact h

theorem State.Reaches.execNvmeCompletion (h : s₀.Evolves τ s) {port : Fin 4} {fn : Fin 32} {cookie : Nat} {ok :
    Bool} {data : NvmeData} :
    s₀.Reaches τ (execNvmeCompletion port fn cookie ok data s) := by
  unfold Machine.execNvmeCompletion
  refine .next ?_
  split
  · exact h
  · split
    · exact h
    · refine .ite h ?_
      extract_lets _ s₁
      have h₁ : s₀.Evolves τ s₁ := .drvNext (.setCtrl h)
      exact .ite (.cmdDone h₁) (.cmdFailed h₁)

theorem State.Reaches.execNvmeTimeout (h : s₀.Evolves τ s) {port : Fin 4} {fn : Fin 32} {cookie : Nat} :
    s₀.Reaches τ (execNvmeTimeout port fn cookie s) := by
  unfold Machine.execNvmeTimeout
  refine .next ?_
  split
  · exact h
  · split
    · exact h
    · exact .ite h (.ite (.ctrlFailed h) (.send (.setCtrl h)))

theorem State.Reaches.execControllerReadyChange (h : s₀.Evolves τ s) {port : Fin 4} {fn : Fin 32} {ready : Bool} :
    s₀.Reaches τ (execControllerReadyChange port fn ready s) := by
  unfold Machine.execControllerReadyChange
  refine .next ?_
  split
  · exact h
  · exact .ite (.ctrlStart h) (.ite (.drvSend (.setCtrl h)) h)

theorem State.Reaches.execCapToExpiry (h : s₀.Evolves τ s) {port : Fin 4} {fn : Fin 32} :
    s₀.Reaches τ (execCapToExpiry port fn s) := by
  unfold Machine.execCapToExpiry
  refine .next ?_
  split
  · exact h
  · exact .ite (.ctrlFailed h) h

theorem State.Reaches.execControllerFatal (h : s₀.Evolves τ s) {port : Fin 4} {fn : Fin 32} :
    s₀.Reaches τ (execControllerFatal port fn s) := by
  unfold Machine.execControllerFatal
  refine .next ?_
  split
  · exact .ctrlAway (.afterDrive (.memberLost h))
  · exact .ctrlAway h

theorem State.Reaches.execSmartPoll (h : s₀.Evolves τ s) : s₀.Reaches τ (execSmartPoll s) :=
  .next (.ite (.foldl (fun h => .foldl (fun h => .ite (.drvSend h) h) h) (.keeps h)) h)

theorem State.Reaches.execBlockFlushTimeout (h : s₀.Evolves τ s) {x c : Fin 4} :
    s₀.Reaches τ (execBlockFlushTimeout x c s) := by
  unfold Machine.execBlockFlushTimeout
  refine .next ?_
  split
  · extract_lets _ r₁
    have h₁ : s₀.Evolves τ r₁.1 := .canTake h
    exact .ite (.ite (.drvProgress (.formBlock h₁)) h₁) h
  · exact h

theorem State.Reaches.execDriveFlushTimer (h : s₀.Evolves τ s) {x : Fin 4} :
    s₀.Reaches τ (execDriveFlushTimer x s) :=
  .next (.ite h (.foldl (fun h => .ite (.drvSend h) h) (.setDset h)))

theorem State.Reaches.execDrvSetEnable (h : s₀.Evolves τ s) {x : Fin 4} {on init : Bool} :
    s₀.Reaches τ (execDrvSetEnable x on init s) := by
  unfold Machine.execDrvSetEnable
  refine .ite (.next h) ?_
  extract_lets s₁ s₂ _ s₃ _ s₄
  have h₁ : s₀.Evolves τ s₁ := .ite h (.parityFree h)
  have h₂ : s₀.Evolves τ s₂ := .putBit (.putBit h₁)
  have h₃ : s₀.Evolves τ s₃ := .putBit (.putBit (.setFld h₂))
  have h₄ : s₀.Evolves τ s₄ := .setDset h₃
  refine .ite .fault ?_
  refine .next (.ite (.ite (.ite (.setFld h₄) (.initSet (.setFld h₄))) h₂) ?_)
  split
  · exact .drvStop (.setDset h₂)
  · exact .setDset h₂
  · exact .setOff h₂

theorem State.Evolves.drvPoll (h : s₀.Evolves τ s) : s₀.Evolves τ s.drvPoll :=
  .foldl (fun h => .ite (.afterDrive h) h) h

theorem State.Reaches.execDrvStop (h : s₀.Evolves τ s) {x : Fin 4} : s₀.Reaches τ (execDrvStop x s) :=
  .next (.drvStop h)

theorem State.Reaches.execStreamApertureRead (h : s₀.Evolves τ s) {n : Fin 4} {tag : Fin 16384} {x : Fin 4} {st :
    Nat} {place : Fin 16} {strip : Fin 8} {off len : Nat} :
    s₀.Reaches τ (execStreamApertureRead n tag x st place strip off len s) := by
  unfold Machine.execStreamApertureRead
  refine .next ?_
  extract_lets _ _ _ _ s₁
  have h₁ : s₀.Evolves τ s₁ := .send h
  refine .ite h ?_
  refine .ite h₁ ?_
  refine .ite ?_ (.ite (.send h) h₁)
  split
  · exact .send h
  · exact h₁

/-! ### Queues and DMA -/

theorem State.Evolves.writeBack (h : s₀.Evolves τ s) {q : Nat} {x : QueueLive} : s₀.Evolves τ (s.writeBack q x) :=
  .wrBytes (.wrBytes h)

theorem State.Evolves.queueStatus (h : s₀.Evolves τ s) {q : Nat} : s₀.Evolves τ (s.queueStatus q) := .wrN (.wrN h)

theorem State.Evolves.enableQueue (h : s₀.Evolves τ s) {q : Nat} : s₀.Evolves τ (s.enableQueue q) :=
  .queueStatus (.ite h (.setQueue h))

theorem State.Evolves.disableQueue (h : s₀.Evolves τ s) {q : Nat} : s₀.Evolves τ (s.disableQueue q) := by
  unfold State.disableQueue
  extract_lets s₁ s₂
  have h₁ : s₀.Evolves τ s₁ := .publishQueue h
  have h₂ : s₀.Evolves τ s₂ := by
    unfold s₂
    split
    · extract_lets s₃
      have h₃ : s₀.Evolves τ s₃ := .writeBack h₁
      exact .same h₃
    · exact h₁
  exact .queueStatus h₂

theorem State.Evolves.syncQueue (h : s₀.Evolves τ s) {q : Nat} : s₀.Evolves τ (s.syncQueue q) := by
  unfold State.syncQueue
  extract_lets s₁
  have h₁ : s₀.Evolves τ s₁ := by
    unfold s₁
    split
    · exact .writeBack h
    · exact h
  exact .queueStatus h₁

theorem State.Evolves.dbIgnored (h : s₀.Evolves τ s) : s₀.Evolves τ s.dbIgnored := .bumpSat h

theorem State.Evolves.tailDoorbell (h : s₀.Evolves τ s) {q v : Nat} : s₀.Evolves τ (s.tailDoorbell q v) := by
  unfold State.tailDoorbell
  split
  · refine .ite ?_ (.dbIgnored h)
    extract_lets s₁
    have h₁ : s₀.Evolves τ s₁ := .setQueue h
    exact .ite (.notifyQueue h₁) h₁
  · exact .dbIgnored h

theorem State.Evolves.setHead (h : s₀.Evolves τ s) {q : Nat} {x : QueueLive} {v : Nat} :
    s₀.Evolves τ (s.setHead q x v) :=
  .ite (.notifyQueue (.setQueue h)) (.setQueue h)

theorem State.Evolves.headDoorbell (h : s₀.Evolves τ s) {q v : Nat} : s₀.Evolves τ (s.headDoorbell q v) := by
  unfold State.headDoorbell
  split
  · exact .ite (.dbIgnored h) (.setHead h)
  · exact .dbIgnored h

theorem State.Evolves.setFeed (h : s₀.Evolves τ s) {f : Nat} {x : Feed} : s₀.Evolves τ (s.setFeed f x) :=
  .dite (fun _ => .keeps h) (fun _ => h)

theorem State.Evolves.feedItem (h : s₀.Evolves τ s) {kind c res tagKind : Nat} {item : List (BitVec 8)} {ts : BitVec
    64} :
    s₀.Evolves τ (s.feedItem kind c res tagKind item ts) :=
  .foldl (fun h => .ite (.ite (.setFeed h) (.enqueue (.setFeed h))) h) h

theorem State.Evolves.feedSample (h : s₀.Evolves τ s) {c : Nat} {x : OutSample} : s₀.Evolves τ (s.feedSample c x) :=
  .foldl (fun h => .ite (.ite (.enqueue (.setFeed h)) (.setFeed h)) h) h

theorem State.Evolves.setDma (h : s₀.Evolves τ s) {ch : Nat} {x : DmaChan} : s₀.Evolves τ (s.setDma ch x) :=
  .dite (fun _ => .keeps h) (fun _ => h)

theorem State.Evolves.setDmaState (h : s₀.Evolves τ s) {ch x : Nat} : s₀.Evolves τ (s.setDmaState ch x) := .setFld h

theorem State.Evolves.dmaHandover (h : s₀.Evolves τ s) {ch : Nat} : s₀.Evolves τ (s.dmaHandover ch) :=
  .putBit (.bump (.wrN (.wrN (.wrN (.wrN h)))))

theorem State.Evolves.dmaStart (h : s₀.Evolves τ s) {ch : Nat} : s₀.Evolves τ (s.dmaStart ch) := by
  unfold State.dmaStart
  split
  · exact h
  · exact .setDmaState (.dmaHandover h)
  · exact .putBit h

theorem State.Evolves.descWrite (h : s₀.Evolves τ s) {ch : Nat} {d : Desc} {ofs : Nat} {bs : List (BitVec 8)} :
    s₀.Evolves τ (s.descWrite ch d ofs bs) :=
  .bump (.ite (.wrBytes h) (.send h))

theorem State.Evolves.dmaOff (h : s₀.Evolves τ s) {ch : Nat} : s₀.Evolves τ (s.dmaOff ch) :=
  .setDmaState (.setDma (.putBit (.wr (.wr (.wrN (.wrN (.wrN (.wrN h))))))))

theorem State.Evolves.dmaOn (h : s₀.Evolves τ s) {ch : Nat} : s₀.Evolves τ (s.dmaOn ch) := .setDmaState h

theorem State.Evolves.dmaDisabled (h : s₀.Evolves τ s) {ch : Nat} : s₀.Evolves τ (s.dmaDisabled ch) :=
  .ite (.dmaOn (.dmaOff h)) (.dmaOff h)

theorem State.Evolves.dmaPause (h : s₀.Evolves τ s) {ch : Nat} : s₀.Evolves τ (s.dmaPause ch) := by
  unfold State.dmaPause
  split
  · exact .setDmaState h
  · exact .setDmaState h
  · exact h

theorem State.Evolves.dmaResume (h : s₀.Evolves τ s) {ch : Nat} : s₀.Evolves τ (s.dmaResume ch) :=
  .ite (.ite (.setDmaState h) (.ite (.setDmaState (.dmaHandover h)) (.setDmaState h))) h

theorem State.Evolves.chainEnd (h : s₀.Evolves τ s) {ch : Nat} : s₀.Evolves τ (s.chainEnd ch) := by
  unfold State.chainEnd
  extract_lets s₁ s₂
  have h₁ : s₀.Evolves τ s₁ := .wr h
  have h₂ : s₀.Evolves τ s₂ := .raise h₁
  exact .ite (.ite (.dmaDisabled h₂) (.ite (.setDmaState (.dmaHandover h₂)) (.ite (.setDmaState (.dmaHandover h₂))
      (.setDmaState h₂)))) (.ite (.dmaHandover h₂) (.setDmaState h₂))

theorem State.Evolves.descDone (h : s₀.Evolves τ s) {ch : Nat} {bad : Bool} {cause : Nat} :
    s₀.Evolves τ (s.descDone ch bad cause) := by
  unfold State.descDone
  extract_lets s₁ s₂ s₃ s₄
  have h₁ : s₀.Evolves τ s₁ := .wrBytes h
  have h₂ : s₀.Evolves τ s₂ := .wrN h₁
  have h₃ : s₀.Evolves τ s₃ := .bump h₂
  have h₄ : s₀.Evolves τ s₄ := .ite (.putBit (.bumpSat h₃)) h₃
  exact .ite (.chainEnd h₄) h₄

theorem State.Evolves.doorbell (h : s₀.Evolves τ s) {w : BitVec 64} : s₀.Evolves τ (s.doorbell w) := by
  unfold State.doorbell
  extract_lets
  split
  · exact .tailDoorbell h
  · exact .headDoorbell h
  · exact .dmaStart h
  · exact .dbIgnored h

theorem State.Reaches.execQueueEnable (h : s₀.Evolves τ s) {q : Fin 65536} : s₀.Reaches τ (execQueueEnable q s) :=
  .ite (.next (.enableQueue h)) .fault

theorem State.Reaches.execQueueDisable (h : s₀.Evolves τ s) {q : Fin 65536} : s₀.Reaches τ (execQueueDisable q s) :=
  .next (.disableQueue h)

theorem State.Reaches.execQueueSync (h : s₀.Evolves τ s) {q : Fin 65536} : s₀.Reaches τ (execQueueSync q s) :=
  .next (.syncQueue h)

theorem State.Reaches.execTailDoorbell (h : s₀.Evolves τ s) {q : Fin 65536} {v : BitVec 32} :
    s₀.Reaches τ (execTailDoorbell q v s) :=
  .ite .fault (.next (.tailDoorbell h))

theorem State.Reaches.execHeadDoorbell (h : s₀.Evolves τ s) {q : Fin 65536} {v : BitVec 32} :
    s₀.Reaches τ (execHeadDoorbell q v s) :=
  .ite .fault (.next (.headDoorbell h))

theorem State.Reaches.execDmaStartDoorbell (h : s₀.Evolves τ s) {ch : Fin 128} :
    s₀.Reaches τ (execDmaStartDoorbell ch s) :=
  .ite .fault (.next (.dmaStart h))

theorem State.Reaches.execDmaDescriptorComplete (h : s₀.Evolves τ s) {ch : Fin 128} {data : List (BitVec 8)} :
    s₀.Reaches τ (execDmaDescriptorComplete ch data s) :=
  .ite (.ite .fault (.ite .fault (.ite (.next (.descDone h)) (.ite (.next (.descDone (.descWrite h))) (.next h)))))
    (.next h)

theorem State.Reaches.execDmaTransferError (h : s₀.Evolves τ s) {ch : Fin 128} {cause : Fin 8} {n : Nat} {data :
    List (BitVec 8)} :
    s₀.Reaches τ (execDmaTransferError ch cause n data s) :=
  .ite (.ite .fault (.ite .fault (.ite (.next (.descDone (.descWrite h))) (.next h)))) (.next h)

theorem State.Reaches.execDmaEnable (h : s₀.Evolves τ s) {ch : Fin 128} : s₀.Reaches τ (execDmaEnable ch s) :=
  .next (.ite (.dmaOn (.putBit (.putBit h))) (.putBit (.putBit h)))

theorem State.Reaches.execDmaDisable (h : s₀.Evolves τ s) {ch : Fin 128} : s₀.Reaches τ (execDmaDisable ch s) :=
  .next (.ite (.setDma (.dmaPause (.putBit h))) (.ite (.putBit h) (.dmaOff (.putBit h))))

theorem State.Reaches.execDmaPause (h : s₀.Evolves τ s) {ch : Fin 128} : s₀.Reaches τ (execDmaPause ch s) :=
  .next (.dmaPause (.putBit h))

theorem State.Reaches.execDmaDrainEnd (h : s₀.Evolves τ s) {ch : Fin 128} {n : Nat} {data : List (BitVec 8)} :
    s₀.Reaches τ (execDmaDrainEnd ch n data s) := by
  unfold Machine.execDmaDrainEnd
  extract_lets _ _ s₁ s₂
  have h₁ : s₀.Evolves τ s₁ := .ite (.wrN (.descWrite h)) h
  have h₂ : s₀.Evolves τ s₂ := .setDmaState h₁
  exact .ite (.ite .fault (.ite (.next (.dmaDisabled h₁)) (.ite (.next h₂) (.ite .fault (.next (.dmaResume h₂))))))
      (.next h)

theorem State.Reaches.execDmaResume (h : s₀.Evolves τ s) {ch : Fin 128} : s₀.Reaches τ (execDmaResume ch s) :=
  .ite (.next (.putBit h)) (.ite .fault (.next (.dmaResume (.putBit h))))

theorem State.Evolves.msixWrite (h : s₀.Evolves τ s) {n ofs : Nat} {data : List (BitVec 8)} :
    s₀.Evolves τ (s.msixWrite n ofs data) :=
  .ite (.flushMsix (.setEp h)) h

theorem State.Reaches.execBar4Write (h : s₀.Evolves τ s) {n : Fin 4} {off : Fin 65536} {data : List (BitVec 8)} :
    s₀.Reaches τ (execBar4Write n off data s) :=
  .ite (.next h) (.ite (.ite (.ite .fault (.next (.doorbell h))) (.next (.bumpSat h))) (.next (.ite (.msixWrite h)
    h)))

/-! ### Supply converters and monitors -/

theorem State.Evolves.setSup (h : s₀.Evolves τ s) {u : Nat} {x : SupUnit} : s₀.Evolves τ (s.setSup u x) :=
  .dite (fun _ => .keeps h) (fun _ => h)

theorem State.Evolves.setSupState (h : s₀.Evolves τ s) {u x : Nat} : s₀.Evolves τ (s.setSupState u x) := .setFld h

theorem State.Evolves.supTrigger (h : s₀.Evolves τ s) {u : Nat} {t : Stamp} : s₀.Evolves τ (s.supTrigger u t) := by
  unfold State.supTrigger
  extract_lets _ _ _ s₁
  have h₁ : s₀.Evolves τ s₁ := .setSup h
  refine .ite h ?_
  refine .ite ?_ (.ite (.putBit (.setSup h₁)) (.latchRaise (.bumpSat h₁)))
  split
  extract_lets s₂
  have h₂ : s₀.Evolves τ s₂ := .setSupState (.setSup h₁)
  exact .ite (.putBit h₂) h₂

theorem State.Evolves.supEnd (h : s₀.Evolves τ s) {u at' : Nat} : s₀.Evolves τ (s.supEnd u at') := by
  have hgo (x : SupUnit) : s₀.Evolves τ (((s.setSup u x).putBit (supSts u) 2 false).setSupState u 2) :=
    .setSupState (.putBit (.setSup h))
  obtain ⟨goAt, hgoAt⟩ : ∃ f, s.supGoAt u = f := ⟨_, rfl⟩
  unfold State.supEnd
  rw [hgoAt]
  dsimp only
  split
  · exact .ite (.putBit (hgo _)) (hgo _)
  · exact .setSupState (.setSup h)

theorem State.Evolves.supContinue (h : s₀.Evolves τ s) {u at' : Nat} : s₀.Evolves τ (s.supContinue u at') :=
  .ite (.setSupState h) (.setSupState (.setSup h))

theorem State.Evolves.supFreed (h : s₀.Evolves τ s) {u : Nat} : s₀.Evolves τ (s.supFreed u) :=
  .ite (.ite (.supContinue h) (.ite (.supEnd h) h)) h

theorem State.Evolves.supAbandon (h : s₀.Evolves τ s) {u cause : Nat} : s₀.Evolves τ (s.supAbandon u cause) :=
  .raise (.setFld (.putBit h))

theorem State.Evolves.supAfter (h : s₀.Evolves τ s) {u : Nat} : s₀.Evolves τ (s.supAfter u) :=
  .ite (.supContinue h) (.supEnd h)

theorem State.Evolves.supStop (h : s₀.Evolves τ s) {u : Nat} : s₀.Evolves τ (s.supStop u) :=
  .putBit (.setSup (.ite (.ite (.putBit h) (.supAbandon h)) h))

theorem State.Evolves.supNoLock (h : s₀.Evolves τ s) : s₀.Evolves τ s.supNoLock :=
  .foldl (fun h => .ite (.supAfter (.supAbandon h)) h) h

theorem State.Evolves.supStamp (h : s₀.Evolves τ s) {ti : Nat} {falling : Bool} {t : Stamp} :
    s₀.Evolves τ (s.supStamp ti falling t) := by
  unfold State.supStamp
  refine .foldl (fun h => ?_) h
  refine .ite ?_ h
  extract_lets _ s₁
  have h₁ : s₀.Evolves τ s₁ := .setSup h
  refine .ite (.setSup h) ?_
  split
  · exact h
  · exact .ite (.supTrigger h₁) h₁

theorem State.Evolves.sampleStep (h : s₀.Evolves τ s) {g : Nat} {codes : List (Nat × Nat)} :
    s₀.Evolves τ (s.sampleStep g codes)  :=
  .setSup (.ite (.bump h) h)

theorem State.Evolves.writeResults (h : s₀.Evolves τ s) {g : Nat} {x : SupStep} :
    s₀.Evolves τ (s.writeResults g x) :=
  .foldl (fun h => .wrN h) h

theorem State.Evolves.sequenceEnd (h : s₀.Evolves τ s) {g : Nat} {x : SupStep} :
    s₀.Evolves τ (s.sequenceEnd g x) := by
  unfold State.sequenceEnd
  extract_lets s₁ s₂ s₃ s₄
  have h₁ : s₀.Evolves τ s₁ := .wr h
  have h₂ : s₀.Evolves τ s₂ := .wr h₁
  have h₃ : s₀.Evolves τ s₃ := .wrN h₂
  have h₄ : s₀.Evolves τ s₄ := .ite (.raise h₃) h₃
  exact .ite h₄ (.supEnd h₄)

theorem State.Evolves.cyclesFrom (h : s₀.Evolves τ s) {u m : Nat} : s₀.Evolves τ (s.cyclesFrom u m) :=
  .setSupState (.setSup h)

theorem State.Evolves.supCycles (h : s₀.Evolves τ s) : s₀.Evolves τ s.supCycles := by
  unfold State.supCycles
  refine .foldl (fun h => ?_) h
  extract_lets
  refine .ite ?_ h
  split
  · exact .setSup h
  · exact h

theorem State.Evolves.windowGo (h : s₀.Evolves τ s) {u : Nat} : s₀.Evolves τ (s.windowGo u) := by
  unfold State.windowGo
  extract_lets _ s₁
  have h₁ : s₀.Evolves τ s₁ := .setSupState h
  refine .ite (.setSup h₁) ?_
  refine .ite ?_ (.setSup h₁)
  refine .ite (.supAfter (.supAbandon h₁)) ?_
  split
  · exact .cyclesFrom h₁
  · exact .supAfter (.supAbandon h₁)

theorem State.Evolves.windowDone (h : s₀.Evolves τ s) {u : Nat} {t0 : Stamp} {t1 : Nat} {nv : Int} :
    s₀.Evolves τ (s.windowDone u t0 t1 nv) := by
  unfold State.windowDone
  extract_lets _ s₁ s₂ s₃ s₄ s₅ s₆ _ s₇
  have h₁ : s₀.Evolves τ s₁ := .bump h
  have h₂ : s₀.Evolves τ s₂ := .wrN h₁
  have h₃ : s₀.Evolves τ s₃ := .wr h₂
  have h₄ : s₀.Evolves τ s₄ := .wr h₃
  have h₅ : s₀.Evolves τ s₅ := .wr h₄
  have h₆ : s₀.Evolves τ s₆ := .ite (.raise h₅) h₅
  have h₇ : s₀.Evolves τ s₇ := .supContinue h₆
  exact .ite (.ite h₇ (.ite (.setSupState (.setSup h₇)) (.ite (.cyclesFrom h₇) h₇))) (.supEnd h₆)

theorem State.Evolves.monEnable (h : s₀.Evolves τ s) {w : Nat} {was : Bool} : s₀.Evolves τ (s.monEnable w was) := by
  unfold State.monEnable
  refine .ite ?_ (.keeps h)
  refine .ite h ?_
  extract_lets s₁
  have h₁ : s₀.Evolves τ s₁ := .setFld h
  exact .ite (.same h₁) h₁

theorem State.Evolves.monViolate (h : s₀.Evolves τ s) {w bit' : Nat} : s₀.Evolves τ (s.monViolate w bit') :=
  .ite (.wr h) (.ite (.raise (.putBit (.wr h))) (.putBit (.wr h)))

theorem State.Evolves.monSample (h : s₀.Evolves τ s) {w : Nat} {high low undet : Bool} :
    s₀.Evolves τ (s.monSample w high low undet) := by
  unfold State.monSample
  extract_lets _ _ _ s₁ s₂ s₃
  have h₁ : s₀.Evolves τ s₁ := .keeps h
  have h₂ : s₀.Evolves τ s₂ := .ite (.raise h₁) h₁
  have h₃ : s₀.Evolves τ s₃ := .setFld h₂
  exact .ite (.ite h₁ (.bumpSat h₁)) (.ite (.monViolate (.bumpSat h₃)) (.ite (.monViolate (.bumpSat h₃)) h₃))

theorem State.Evolves.monPeriodStart (h : s₀.Evolves τ s) : s₀.Evolves τ s.monPeriodStart :=
  .foldl (fun h => .ite (.setFld (.setFld h)) h) (.keeps h)

theorem State.Evolves.supSleep (h : s₀.Evolves τ s) : s₀.Evolves τ s.supSleep := by
  unfold State.supSleep
  extract_lets s₁
  have h₁ : s₀.Evolves τ s₁ := .foldl (fun h => .ite h (.setSupState (.supStop h))) h
  exact .same h₁

theorem State.Evolves.supWakeUp (h : s₀.Evolves τ s) : s₀.Evolves τ s.supWakeUp := by
  unfold State.supWakeUp
  extract_lets s₁ _ s₂
  have h₁ : s₀.Evolves τ s₁ := .foldl (fun h => .ite h (.ite (.supContinue h) (.setSup h))) h
  have h₂ : s₀.Evolves τ s₂ := by
    unfold s₂
    split
    · exact .same h₁
    · exact h₁
  exact .foldl (fun h => .setFld h) h₂

theorem State.Evolves.supRate (h : s₀.Evolves τ s) {was : Nat × Nat} : s₀.Evolves τ (s.supRate was) :=
  .ite h (.keeps h)

theorem State.Evolves.supMove (h : s₀.Evolves τ s) {f : Nat → Nat} : s₀.Evolves τ (s.supMove f) := .keeps h

theorem State.Evolves.supLose (h : s₀.Evolves τ s) : s₀.Evolves τ s.supLose := by
  unfold State.supLose
  extract_lets s₁ s₂
  have h₁ : s₀.Evolves τ s₁ := .foldl (fun h => .putBit (.setSupState (.setSup h))) h
  have h₂ : s₀.Evolves τ s₂ := .foldl (fun h => .putBit h) h₁
  exact .same h₂

theorem State.Reaches.execSupEnable (h : s₀.Evolves τ s) {u : Fin 20} {on : Bool} :
    s₀.Reaches τ (execSupEnable u on s) := by
  unfold Machine.execSupEnable
  refine .ite (.next h) ?_
  extract_lets s₁ s₂ _ s₃
  have h₁ : s₀.Evolves τ s₁ := .ite h (.parityFree h)
  have h₂ : s₀.Evolves τ s₂ := .setSupState (.putBit h₁)
  have h₃ : s₀.Evolves τ s₃ := .setSup h₂
  exact .ite (.ite .fault (.next (.ite (.supContinue h₃) h₃))) (.ite (.next h₁) (.next (.ite h₁ (.setSupState
      (.putBit (.supStop h₁))))))

theorem State.Reaches.execSupTrigger (h : s₀.Evolves τ s) {u : Fin 20} : s₀.Reaches τ (execSupTrigger u s) :=
  .next (.supTrigger h)

theorem State.Reaches.execSupTimer (h : s₀.Evolves τ s) {u : Fin 20} : s₀.Reaches τ (execSupTimer u s) :=
  .next (.ite (.supTrigger (.setSup h)) h)

theorem State.Reaches.execSupGo (h : s₀.Evolves τ s) {u : Fin 20} : s₀.Reaches τ (execSupGo u s) :=
  .next (.ite (.ite (.setSupState (.setSup (.wr (.bump h)))) (.windowGo h)) h)

theorem State.Reaches.execSarStep (h : s₀.Evolves τ s) {g : Fin 16} {volts : List (Fin 64 × Int)} :
    s₀.Reaches τ (execSarStep g volts s) := by
  unfold Machine.execSarStep
  refine .next ?_
  split
  · exact .ite (.sampleStep h) h
  · exact h

theorem State.Reaches.execSarConversionEnd (h : s₀.Evolves τ s) {g : Fin 16} :
    s₀.Reaches τ (execSarConversionEnd g s) := by
  unfold Machine.execSarConversionEnd
  refine .next ?_
  extract_lets
  split
  · refine .ite ?_ h
    extract_lets s₁
    have h₁ : s₀.Evolves τ s₁ := .writeResults (.setSup h)
    exact .ite (.sequenceEnd h₁) h₁
  · exact h

theorem State.Reaches.execLineSyncEdge (h : s₀.Evolves τ s) : s₀.Reaches τ (execLineSyncEdge s) := by
  unfold Machine.execLineSyncEdge
  refine .next (.foldl (fun h => ?_) h)
  extract_lets
  refine .ite ?_ h
  split
  · exact .setSup h
  · exact .setSup h

theorem State.Reaches.execIcWindowEnd (h : s₀.Evolves τ s) {i : Fin 4} {m : WindowMean} :
    s₀.Reaches τ (execIcWindowEnd i m s)  := by
  unfold Machine.execIcWindowEnd
  refine .next ?_
  extract_lets
  split
  · exact .ite (.windowDone h) h
  · exact h

theorem State.Reaches.execIcNosync (h : s₀.Evolves τ s) {i : Fin 4} : s₀.Reaches τ (execIcNosync i s) :=
  .next (.ite (.supAfter (.supAbandon h)) h)

theorem State.Reaches.execMonTick (h : s₀.Evolves τ s) : s₀.Reaches τ (execMonTick s) := by
  unfold Machine.execMonTick
  refine .ite .fault ?_
  refine .next ?_
  split
  · exact h
  · exact .ite (.keeps h) h

theorem State.Reaches.execMonSample (h : s₀.Evolves τ s) {w : Fin 16} {si : Fin 64} {settle watch : List Int} :
    s₀.Reaches τ (execMonSample w si settle watch s) :=
  .next (.ite (.monSample h) h)

theorem State.Reaches.execMonPeriodStart (h : s₀.Evolves τ s) : s₀.Reaches τ (execMonPeriodStart s) := by
  unfold Machine.execMonPeriodStart
  refine .next ?_
  split
  · exact h
  · exact .ite (.monPeriodStart h) h

theorem State.Reaches.execMonThrWrite (h : s₀.Evolves τ s) {w : Fin 16} {v : BitVec 32} :
    s₀.Reaches τ (execMonThrWrite w v s) :=
  .next (.setFld (.wrN h))

/-! ### Cycles and waypoints -/

theorem State.Evolves.setCcsState (h : s₀.Evolves τ s) {x : Nat} : s₀.Evolves τ (s.setCcsState x) :=
  .putBit (.setFld h)

theorem State.Evolves.ccsForget (h : s₀.Evolves τ s) : s₀.Evolves τ s.ccsForget := .keeps h

theorem State.Evolves.ccsSeek (h : s₀.Evolves τ s) {cause : Nat} : s₀.Evolves τ (s.ccsSeek cause) := by
  unfold State.ccsSeek
  extract_lets _ s₁
  have h₁ : s₀.Evolves τ s₁ := .ccsForget (.setFld (.setCcsState h))
  exact .ite (.supNoLock (.raise (.putBit h₁))) h₁

theorem State.Evolves.ccsFault (h : s₀.Evolves τ s) {cause : Nat} : s₀.Evolves τ (s.ccsFault cause) := by
  unfold State.ccsFault
  refine .ite (.ccsSeek h) ?_
  extract_lets s₁
  have h₁ : s₀.Evolves τ s₁ := .wr (.setCcsState h)
  exact .putBit (.same h₁)

theorem State.Evolves.ccsPredict (h : s₀.Evolves τ s) : s₀.Evolves τ s.ccsPredict := .keeps h

theorem State.Evolves.ccsAdvance (h : s₀.Evolves τ s) {k : Nat} : s₀.Evolves τ (s.ccsAdvance k) :=
  .supCycles (.ccsPredict (.seqCycles (.keeps h)))

theorem State.Evolves.ccsLoop (h : s₀.Evolves τ s) {t16 : Nat} : s₀.Evolves τ (s.ccsLoop t16).1 :=
  .wrN (.setFld (.keeps h))

theorem State.Evolves.ccsVec0 (h : s₀.Evolves τ s) {t : Nat} : s₀.Evolves τ (s.ccsVec0 t) :=
  .ite (.raise (.bumpSat (.wr h))) (.bumpSat (.wr h))

theorem State.Evolves.seekEdge (h : s₀.Evolves τ s) {t16 : Nat} : s₀.Evolves τ (s.seekEdge t16) := by
  unfold State.seekEdge
  extract_lets _ s₁
  have h₁ : s₀.Evolves τ s₁ := .ite (.setFld h) h
  have hloop : ∀ t, s₀.Evolves τ (s₁.ccsLoop t).1 := fun _ => .ccsLoop h₁
  generalize s₁.ccsLoop = loop at hloop
  exact .ite (.same h₁) (.ite (.same h₁) (.ite (.setCcsState (.keeps (hloop _))) (.keeps (hloop _))))

theorem State.Evolves.originEdge (h : s₀.Evolves τ s) {t t16 : Nat} {vec0 : Bool} :
    s₀.Evolves τ (s.originEdge t t16 vec0) := by
  unfold State.originEdge
  extract_lets s₁ _ _ s₂ s₃
  have h₁ : s₀.Evolves τ s₁ := .ccsLoop h
  have h₂ : s₀.Evolves τ s₂ := .same h₁
  have h₃ : s₀.Evolves τ s₃ := .bump (.setCcsState h₂)
  exact .ite h₁ (.raise (.raiseTs (.wr h₃)))

theorem State.Evolves.trackEdge (h : s₀.Evolves τ s) {t t16 : Nat} {vec0 : Bool} :
    s₀.Evolves τ (s.trackEdge t t16 vec0) := by
  unfold State.trackEdge
  extract_lets _ s₁
  have h₁ : s₀.Evolves τ s₁ := .ite (.ccsAdvance (.ccsLoop h)) (.ccsFault h)
  exact .ite (.ccsVec0 h₁) h₁

theorem State.Evolves.holdAdvance (h : s₀.Evolves τ s) : s₀.Evolves τ s.holdAdvance :=
  .ite h (.ccsAdvance (.keeps h))

theorem State.Evolves.holdEdge (h : s₀.Evolves τ s) {t t16 : Nat} {vec0 : Bool} :
    s₀.Evolves τ (s.holdEdge t t16 vec0) := by
  unfold State.holdEdge
  extract_lets _ _ _ s₁ s₂
  have h₁ : s₀.Evolves τ s₁ := .ccsAdvance (.keeps h)
  have h₂ : s₀.Evolves τ s₂ := .ite (.ccsVec0 h₁) h₁
  exact .ite (.ite (.raise (.setCcsState h₂)) h₂) (.ccsSeek (.holdAdvance h))

theorem State.Evolves.ccsClock (h : s₀.Evolves τ s) : s₀.Evolves τ s.ccsClock := .ite h (.ccsSeek h)

theorem State.Evolves.ccsPower (h : s₀.Evolves τ s) : s₀.Evolves τ s.ccsPower := .ite h (.ccsSeek h)

theorem State.Evolves.setWpHead (h : s₀.Evolves τ s) {n : Nat} : s₀.Evolves τ (s.setWpHead n) := .setFld (.wrN h)

theorem State.Evolves.wpRetire (h : s₀.Evolves τ s) : s₀.Evolves τ s.wpRetire := .setWpHead (.keeps h)

theorem State.Evolves.wpLate (h : s₀.Evolves τ s) : s₀.Evolves τ s.wpLate := .latchRaise (.bumpSat h)

theorem State.Evolves.wpCount (h : s₀.Evolves τ s) : s₀.Evolves τ s.wpCount := .keeps h

theorem State.Reaches.wpRun (h : s₀.Evolves τ s) {act : Nat} {eff : WpFire → State → State}
    (heff : ∀ {f : WpFire} {t : State}, s₀.Evolves τ t → s₀.Evolves τ (eff f t)) :
    s₀.Reaches τ (s.wpRun act eff) := by
  refine .ite (.next h) ?_
  split
  · exact .next h
  · have hlate {p : Prop} [Decidable p] : s₀.Evolves τ (if p then s.wpLate else s) := .ite (.wpLate h) h
    exact .ite (.next h) (.ite .fault (.ite (.next h) (.next (.ite (.wpRetire (.bumpSat hlate))
      (.wpRetire (heff (.wr (.bump (.wpCount hlate)))))))))

theorem State.Evolves.wpArm (h : s₀.Evolves τ s) {f : WpFire} : s₀.Evolves τ (s.wpArm f) := .armMask (.armMask h)

theorem State.Evolves.wpSignal (h : s₀.Evolves τ s) {f : WpFire} : s₀.Evolves τ (s.wpSignal f) := .signalBits h

theorem State.Evolves.wpTag (h : s₀.Evolves τ s) {f : WpFire} : s₀.Evolves τ (s.wpTag f) :=
  .ite (.placeTag h) (.bumpSat h)

theorem State.Evolves.wpConvert (h : s₀.Evolves τ s) {f : WpFire} : s₀.Evolves τ (s.wpConvert f) :=
  .ite (.bumpSat h) (.supTrigger h)

theorem State.Evolves.wpTask (h : s₀.Evolves τ s) {f : WpFire} : s₀.Evolves τ (s.wpTask f) :=
  .ite (.enqueue h) (.latchRaise (.bumpSat (.enqueue h)))

theorem State.Evolves.wpFabric (h : s₀.Evolves τ s) {n t : Nat} : s₀.Evolves τ (s.wpFabric n t) := by
  unfold State.wpFabric
  refine .ite h ?_
  extract_lets s₁ _ s₂
  have h₁ : s₀.Evolves τ s₁ := .wrN h
  have h₂ : s₀.Evolves τ s₂ := .same h₁
  exact .ridgeSend h₂

theorem State.Evolves.wpLose (h : s₀.Evolves τ s) : s₀.Evolves τ s.wpLose :=
  .putBit (.putBit (.restrictRegs h))

theorem State.Reaches.execCcsEnable (h : s₀.Evolves τ s) {on : Bool} : s₀.Reaches τ (execCcsEnable on s) := by
  unfold Machine.execCcsEnable
  refine .ite (.next h) ?_
  extract_lets s₁ _ s₂
  have h₁ : s₀.Evolves τ s₁ := .ite h (.parityFree h)
  have h₂ : s₀.Evolves τ s₂ := .ccsForget (.setCcsState (.putBit h₁))
  exact .ite (.ite .fault (.next (.ccsSeek (.putBit h₁)))) (.ite (.next h₁) (.next (.ite (.supNoLock h₂) h₂)))

theorem State.Reaches.execReorigin (h : s₀.Evolves τ s) : s₀.Reaches τ (execReorigin s) := by
  unfold Machine.execReorigin
  refine .next (.ite ?_ h)
  extract_lets s₁
  have h₁ : s₀.Evolves τ s₁ := .setCcsState h
  exact .supNoLock (.same h₁)

theorem State.Reaches.execCycEdge (h : s₀.Evolves τ s) {sub : Fin 4096} {vec0 : Bool} :
    s₀.Reaches τ (execCycEdge sub vec0 s)  := by
  unfold Machine.execCycEdge
  refine .next ?_
  extract_lets _ _ _ s₁
  have h₁ : s₀.Evolves τ s₁ := .keeps h
  refine .ite h₁ ?_
  split
  · exact .seekEdge h₁
  · exact .originEdge h₁
  · exact .trackEdge h₁
  · exact .holdEdge h₁
  · exact h₁

theorem State.Reaches.execCycMissing (h : s₀.Evolves τ s) : s₀.Reaches τ (execCycMissing s) := by
  unfold Machine.execCycMissing
  refine .next ?_
  extract_lets
  refine .ite h ?_
  refine .ite ?_ h
  split
  · exact .setFld (.keeps h)
  · exact .ccsFault h
  · exact .holdAdvance h
  · exact h

theorem State.Reaches.execHoldExpired (h : s₀.Evolves τ s) : s₀.Reaches τ (execHoldExpired s) :=
  .next (.ite (.ccsSeek (.holdAdvance h)) h)

theorem State.Reaches.execWpEnable (h : s₀.Evolves τ s) {on : Bool} : s₀.Reaches τ (execWpEnable on s) :=
  .ite (.next h) (.next (.putBit (.putBit (.ite h (.parityFree h)))))

theorem State.Reaches.execWpTailWrite (h : s₀.Evolves τ s) {v : BitVec 32} : s₀.Reaches τ (execWpTailWrite v s) :=
  .ite .fault (.next (.setFld (.wrN h)))

theorem State.Reaches.execWpCancel (h : s₀.Evolves τ s) : s₀.Reaches τ (execWpCancel s) := by
  unfold Machine.execWpCancel
  refine .next ?_
  extract_lets s₁ _ s₂
  have h₁ : s₀.Evolves τ s₁ := .bumpSat h
  have h₂ : s₀.Evolves τ s₂ := .same h₁
  exact .setWpHead h₂

theorem State.Reaches.execWpNone (h : s₀.Evolves τ s) : s₀.Reaches τ (execWpNone s) := .wpRun h (fun h => h)

theorem State.Reaches.execWpArm (h : s₀.Evolves τ s) : s₀.Reaches τ (execWpArm s) := .wpRun h (fun h => .wpArm h)

theorem State.Reaches.execWpTrigger (h : s₀.Evolves τ s) : s₀.Reaches τ (execWpTrigger s) :=
  .wpRun h (fun h => .waypointUnits h)

theorem State.Reaches.execWpSignal (h : s₀.Evolves τ s) : s₀.Reaches τ (execWpSignal s) :=
  .wpRun h (fun h => .wpSignal h)

theorem State.Reaches.execWpTag (h : s₀.Evolves τ s) : s₀.Reaches τ (execWpTag s) := .wpRun h (fun h => .wpTag h)

theorem State.Reaches.execWpConvert (h : s₀.Evolves τ s) : s₀.Reaches τ (execWpConvert s) :=
  .wpRun h (fun h => .wpConvert h)

theorem State.Reaches.execWpTask (h : s₀.Evolves τ s) : s₀.Reaches τ (execWpTask s) := .wpRun h (fun h => .wpTask h)

theorem State.Reaches.execWpFabric (h : s₀.Evolves τ s) : s₀.Reaches τ (execWpFabric s) :=
  .wpRun h (fun h => .wpFabric h)

theorem State.Reaches.execFabricLookaheadSend (h : s₀.Evolves τ s) {j : Fin 64} :
    s₀.Reaches τ (execFabricLookaheadSend j s) := by
  unfold Machine.execFabricLookaheadSend
  extract_lets
  refine .ite (.next h) ?_
  refine .ite .fault ?_
  refine .next ?_
  split
  · exact .ite (.wpFabric h) h
  · exact h

/-! ### Canopy and spectrograms -/

theorem State.Evolves.setCan (h : s₀.Evolves τ s) {c : Nat} {x : CanopyChan} : s₀.Evolves τ (s.setCan c x) :=
  .dite (fun _ => .keeps h) (fun _ => h)

theorem State.Evolves.canStop (h : s₀.Evolves τ s) {c cause : Nat} : s₀.Evolves τ (s.canStop c cause) :=
  .raise (.setFld (.putBit h))

theorem State.Evolves.canCheck (h : s₀.Evolves τ s) {c : Nat} {v : SpxVer} : s₀.Evolves τ (s.canCheck c v) :=
  .ite (.canStop (.wrN h)) (.wrN h)

theorem State.Evolves.snapBegin (h : s₀.Evolves τ s) {c : Nat} : s₀.Evolves τ (s.snapBegin c) := by
  unfold State.snapBegin
  extract_lets
  split
  · exact .ite h (.setCan h)
  · exact h

theorem State.Evolves.maintain (h : s₀.Evolves τ s) {c : Nat} : s₀.Evolves τ (s.maintain c) :=
  .ite (.setCan (.setFld h)) (.snapBegin h)

theorem State.Evolves.decayEvent (h : s₀.Evolves τ s) {c : Nat} : s₀.Evolves τ (s.decayEvent c) :=
  .ite h (.ite (.latchRaise (.bumpSat h)) (.maintain (.setFld h)))

theorem State.Evolves.shownChanged (h : s₀.Evolves τ s) {c : Nat} : s₀.Evolves τ (s.shownChanged c) :=
  .ite (.keeps h) h

theorem State.Evolves.decayEnd (h : s₀.Evolves τ s) {c : Nat} : s₀.Evolves τ (s.decayEnd c) := by
  unfold State.decayEnd
  extract_lets
  split
  · extract_lets _ _ s₁ s₂
    have h₁ : s₀.Evolves τ s₁ := .setCan h
    have h₂ : s₀.Evolves τ s₂ := .shownChanged h₁
    exact .maintain (.bump h₂)
  · exact h

theorem State.Evolves.canClear (h : s₀.Evolves τ s) {c : Nat} {ts : Stamp} : s₀.Evolves τ (s.canClear c ts) :=
  .snapBegin (.setFld (.wr (.wrN (.wrN (.setCan (.draw h))))))

theorem State.Evolves.densityUnit (h : s₀.Evolves τ s) {c res : Nat} {ts : Stamp} {counted : Option (Nat × List
    CellHit)} {u : Nat} :
    s₀.Evolves τ (s.densityUnit c res ts counted u) := by
  unfold State.densityUnit
  refine .ite ?_ h
  split
  · exact .unitUnknown h
  · exact .unitVerdict h

theorem State.Evolves.densityUnits (h : s₀.Evolves τ s) {c res : Nat} {ts : Stamp} {counted : Option (Nat × List
    CellHit)} :
    s₀.Evolves τ (s.densityUnits c res ts counted) :=
  .foldl (fun h => .densityUnit h) h

theorem State.Evolves.canHandover (h : s₀.Evolves τ s) {c : Nat} : s₀.Evolves τ (s.canHandover c) :=
  .ite (.raise (.bump (.putBit (.setCan h)))) h

theorem State.Evolves.canCount (h : s₀.Evolves τ s) {c : Nat} {v : SpxVer} {ts : Stamp} {deg : Bool} {levels : List
    Nat} :
    s₀.Evolves τ (s.canCount c v ts deg levels) := by
  unfold State.canCount
  extract_lets s₁ s₂ r₃ s₄ _ _ _ s₅ s₆ s₇ s₈ s₉ _ s₁₀
  have h₁ : s₀.Evolves τ s₁ := .ite (.canClear h) h
  have h₂ : s₀.Evolves τ s₂ := .canHandover h₁
  have h₃ : s₀.Evolves τ r₃.2 := .draw h₂
  have h₄ : s₀.Evolves τ s₄ := h₃
  have h₅ : s₀.Evolves τ s₅ := .setCan h₄
  have h₆ : s₀.Evolves τ s₆ := .bump (.bump h₅)
  have h₇ : s₀.Evolves τ s₇ := .wr (.bump h₆)
  have h₈ : s₀.Evolves τ s₈ := .ite (.putBit h₇) h₇
  have h₉ : s₀.Evolves τ s₉ := .shownChanged h₈
  have h₁₀ : s₀.Evolves τ s₁₀ := .ite (.latchRaise (.setCan h₉)) h₉
  exact .densityUnits h₁₀

theorem State.Evolves.canSpectrum (h : s₀.Evolves τ s) {c res : Nat} {v : SpxVer} {ts : Stamp} {invalid deg handover
    : Bool} {levels : List Nat} :
    s₀.Evolves τ (s.canSpectrum c res v ts invalid deg handover levels) := by
  unfold State.canSpectrum
  refine .ite ?_ h
  extract_lets s₁ s₂
  have h₁ : s₀.Evolves τ s₁ := .ite (.canClear h) h
  have h₂ : s₀.Evolves τ s₂ := .ite (.canCheck h₁) h
  exact .ite (.densityUnits h₂) (.ite (.densityUnits (.bump h₂)) (.ite (.densityUnits (.bump h₂)) (.canCount h₂)))

theorem State.Evolves.canDisable (h : s₀.Evolves τ s) {c : Nat} : s₀.Evolves τ (s.canDisable c) :=
  .putBit (.putBit h)

theorem State.Evolves.canEnable (h : s₀.Evolves τ s) {c : Nat} : s₀.Evolves τ (s.canEnable c) := by
  unfold State.canEnable
  extract_lets _ s₁ _ s₂ s₃
  have h₁ : s₀.Evolves τ s₁ := .setFld (.putBit h)
  have h₂ : s₀.Evolves τ s₂ := .setCan h₁
  have h₃ : s₀.Evolves τ s₃ := .putBit h₂
  exact .ite (.canStop h₁) (.ite h₂ (.canCheck h₃))

theorem State.Reaches.execCanEnable (h : s₀.Evolves τ s) {c : Fin 4} : s₀.Reaches τ (execCanEnable c s) :=
  .ite (.next h) (.ite .fault (.ite .fault (.next (.canEnable h))))

theorem State.Reaches.execCanClear (h : s₀.Evolves τ s) {c : Fin 4} : s₀.Reaches τ (execCanClear c s) :=
  .next (.setCan h)

theorem State.Evolves.canHold (h : s₀.Evolves τ s) {c : Nat} {on : Bool} : s₀.Evolves τ (s.canHold c on) :=
  .ite (.putBit (.setCan h)) (.maintain (.putBit (.setCan h)))

theorem State.Reaches.execCanHold (h : s₀.Evolves τ s) {c : Fin 4} {on : Bool} :
    s₀.Reaches τ (execCanHold c on s) :=
  .next (.canHold h)

theorem State.Reaches.execCanCommit (h : s₀.Evolves τ s) {c : Fin 4} : s₀.Reaches τ (execCanCommit c s) :=
  .next (.putBit h)

theorem State.Evolves.canSnap (h : s₀.Evolves τ s) {r c : Nat} : s₀.Evolves τ (s.canSnap r c) :=
  .ite (.flag h) (.snapBegin (.setCan (.putBit h)))

theorem State.Reaches.execCanSnap (h : s₀.Evolves τ s) {r : Fin 8} {c : Fin 4} : s₀.Reaches τ (execCanSnap r c s) :=
  .ite .fault (.next (.canSnap h))

theorem State.Reaches.execCanSnapDone (h : s₀.Evolves τ s) {c : Fin 4} : s₀.Reaches τ (execCanSnapDone c s) := by
  unfold Machine.execCanSnapDone
  split
  · refine .ite ?_ (.next h)
    extract_lets s₁ _ s₂
    have h₁ : s₀.Evolves τ s₁ := .wrBytes h
    have h₂ : s₀.Evolves τ s₂ := .putBit (.setCan h₁)
    exact .next (.maintain (.raise h₂))
  · exact .next h

theorem State.Reaches.execDecayTimer (h : s₀.Evolves τ s) {c : Fin 4} : s₀.Reaches τ (execDecayTimer c s) :=
  .ite (.next (.decayEvent (.setCan h))) (.next h)

theorem State.Reaches.execDecayPassEnd (h : s₀.Evolves τ s) {c : Fin 4} : s₀.Reaches τ (execDecayPassEnd c s) :=
  .next (.ite h (.decayEnd h))

/-! ### Vectors -/

theorem State.Evolves.setSpg (h : s₀.Evolves τ s) {c : Nat} {x : SpgChan} : s₀.Evolves τ (s.setSpg c x) :=
  .dite (fun _ => .keeps h) (fun _ => h)

theorem State.Evolves.spgLine (h : s₀.Evolves τ s) {c : Nat} {short : Bool} : s₀.Evolves τ (s.spgLine c short) :=
  .setSpg h

theorem State.Evolves.spgVector (h : s₀.Evolves τ s) {c res : Nat} {v : ColVec} :
    s₀.Evolves τ (s.spgVector c res v) :=
  .ite (.ite (.spgLine (.setSpg (.ite (.spgLine h) h))) (.setSpg (.ite (.spgLine h) h))) h

theorem State.Evolves.spgDisable (h : s₀.Evolves τ s) {c : Nat} : s₀.Evolves τ (s.spgDisable c) :=
  .putBit (.putBit (.setSpg h))

theorem State.Evolves.startSpg (h : s₀.Evolves τ s) {c : Nat} : s₀.Evolves τ (s.startSpg c) := .putBit (.setSpg h)

theorem State.Evolves.spgEnable (h : s₀.Evolves τ s) {c : Nat} : s₀.Evolves τ (s.spgEnable c) :=
  .ite (.startSpg (.putBit h)) (.putBit h)

theorem State.Reaches.execSpgEnable (h : s₀.Evolves τ s) {c : Fin 4} : s₀.Reaches τ (execSpgEnable c s) :=
  .ite (.next h) (.ite .fault (.next (.spgEnable h)))

theorem State.Evolves.spgDiscard (h : s₀.Evolves τ s) {c : Nat} {ts : BitVec 64} :
    s₀.Evolves τ (s.spgDiscard c ts) :=
  .latchRaise (.bump (.setSpg h))

theorem State.Evolves.spgWrite (h : s₀.Evolves τ s) {c : Nat} {line : List (BitVec 8)} {ts : BitVec 64} {trunc :
    Bool} :
    s₀.Evolves τ (s.spgWrite c line ts trunc) := by
  unfold State.spgWrite
  extract_lets _ _ _ _ s₁ s₂ s₃ s₄ s₅
  have h₁ : s₀.Evolves τ s₁ := .wrBytes h
  have h₂ : s₀.Evolves τ s₂ := .wrBytes h₁
  have h₃ : s₀.Evolves τ s₃ := .wrBytes h₂
  have h₄ : s₀.Evolves τ s₄ := .setSpg h₃
  have h₅ : s₀.Evolves τ s₅ := .wr (.bump h₄)
  exact .ite (.latchRaise h₅) h₅

theorem State.Evolves.spgRest (h : s₀.Evolves τ s) {c : Nat} : s₀.Evolves τ (s.spgRest c) :=
  .ite (.foldl (fun h => .spgWrite h) (.setSpg (.ite (.spgLine h) h))) (.ite (.spgLine h) h)

theorem State.Reaches.execSpgLineWrite (h : s₀.Evolves τ s) {c : Fin 4} {stalled : Bool} :
    s₀.Reaches τ (execSpgLineWrite c stalled s) := by
  unfold Machine.execSpgLineWrite
  extract_lets
  split
  · refine .ite (.next h) ?_
    extract_lets s₁
    have h₁ : s₀.Evolves τ s₁ := .setSpg h
    exact .next (.ite (.spgDiscard h₁) (.spgWrite h₁))
  · exact .next h

theorem State.Evolves.traceUpdate (h : s₀.Evolves τ s) {t : Nat} {vals : List Nat} :
    s₀.Evolves τ (s.traceUpdate t vals) := by
  unfold State.traceUpdate
  extract_lets _ _ _ _ s₁
  have h₁ : s₀.Evolves τ s₁ := .wrBytes h
  exact .same h₁

theorem State.Evolves.traceTake (h : s₀.Evolves τ s) {t : Nat} {vals : List Nat} :
    s₀.Evolves τ (s.traceTake t vals) := by
  unfold State.traceTake
  extract_lets _ s₁
  have h₁ : s₀.Evolves τ s₁ := .keeps h
  exact .ite (.dite (fun _ => .same h₁) (fun _ => h₁)) (.traceUpdate h₁)

theorem State.Evolves.traceVector (h : s₀.Evolves τ s) {c res : Nat} {v : ColVec} :
    s₀.Evolves τ (s.traceVector c res v) :=
  .ite (.foldl (fun h => .ite (.traceTake h) h) h) h

theorem State.Evolves.copyEnds (h : s₀.Evolves τ s) : s₀.Evolves τ s.copyEnds := by
  unfold State.copyEnds
  extract_lets _ _ s₁
  have h₁ : s₀.Evolves τ s₁ := .keeps h
  refine .foldl (fun h => ?_) h₁
  split
  · exact .traceUpdate h
  · exact h

theorem State.Evolves.maskUnit (h : s₀.Evolves τ s) {c res : Nat} {v : ColVec} {u : Nat} :
    s₀.Evolves τ (s.maskUnit c res v u) :=
  .ite (.ite (.unitUnknown h) (.unitVerdict h)) h

theorem State.Evolves.maskUnits (h : s₀.Evolves τ s) {c res : Nat} {v : ColVec} :
    s₀.Evolves τ (s.maskUnits c res v) :=
  .foldl (fun h => .maskUnit h) h

/-! ### The spectral engine -/

theorem State.Evolves.spxHold (h : s₀.Evolves τ s) {r : Nat} {x : Nat × Nat} : s₀.Evolves τ (s.spxHold r x) :=
  .wrN (.setFld (.setFld h))

theorem State.Evolves.spxBusy (h : s₀.Evolves τ s) : s₀.Evolves τ s.spxBusy := .putBit h

theorem State.Evolves.spxStop (h : s₀.Evolves τ s) {r cause : Nat} : s₀.Evolves τ (s.spxStop r cause) :=
  .raise (.spxBusy (.setFld (.putBit (.putBit (.setRes (.spxHold h))))))

theorem State.Evolves.spxStart (h : s₀.Evolves τ s) {r : Nat} : s₀.Evolves τ (s.spxStart r) := by
  unfold State.spxStart
  extract_lets s₁ s₂ _ s₃ s₄
  have h₁ : s₀.Evolves τ s₁ := .spxHold h
  have h₂ : s₀.Evolves τ s₂ := .wrN (.putBit h₁)
  have h₃ : s₀.Evolves τ s₃ := .setRes h₂
  have h₄ : s₀.Evolves τ s₄ := .spxBusy (.latencies h₃)
  exact .ite (.canCheck h₄) h₄

theorem State.Evolves.spxEnable (h : s₀.Evolves τ s) {r : Nat} : s₀.Evolves τ (s.spxEnable r) := by
  unfold State.spxEnable
  extract_lets s₁
  have h₁ : s₀.Evolves τ s₁ := .setFld (.putBit h)
  exact .ite (.spxBusy (.setRes h₁)) (.ite (.spxBusy h₁) (.ite (.spxStart h₁) (.spxStop h₁)))

theorem State.Evolves.spxDisable (h : s₀.Evolves τ s) {r : Nat} : s₀.Evolves τ (s.spxDisable r) :=
  .ite (.spxBusy (.putBit (.setRes (.putBit h)))) (.spxBusy (.putBit h))

theorem State.Evolves.spxDrained (h : s₀.Evolves τ s) {r : Nat} : s₀.Evolves τ (s.spxDrained r) := by
  unfold State.spxDrained
  extract_lets _ s₁ s₂
  have h₁ : s₀.Evolves τ s₁ := .spxHold h
  have h₂ : s₀.Evolves τ s₂ := .spxBusy (.putBit (.putBit h₁))
  exact .ite (.spxEnable h₂) h₂

theorem State.Evolves.windowFigures (h : s₀.Evolves τ s) {r : Nat} {v : SpxVer} :
    s₀.Evolves τ (s.windowFigures r v) :=
  .ite (.wrN (.wrN h)) (.wrN (.wrN h))

theorem State.Evolves.spxHandover (h : s₀.Evolves τ s) {r : Nat} {ts : Stamp} : s₀.Evolves τ (s.spxHandover r ts) :=
  .raise (.spxBusy (.windowFigures (.putBit (.setRes (.wr (.wrN h))))))

theorem State.Evolves.spxCommit (h : s₀.Evolves τ s) {r : Nat} : s₀.Evolves τ (s.spxCommit r) := .putBit (.setRes h)

theorem State.Evolves.spxCommitTimed (h : s₀.Evolves τ s) {r : Nat} : s₀.Evolves τ (s.spxCommitTimed r) :=
  .ite (.latchRaise (.setRes (.putBit h))) (.setRes (.putBit h))

theorem State.Evolves.emitVector (h : s₀.Evolves τ s) {r : Nat} {v : ColVec} : s₀.Evolves τ (s.emitVector r v) :=
  .feedItem (.traceVector (.spgVector (.maskUnits h)))

theorem State.Evolves.skipMapped (h : s₀.Evolves τ s) {r : Nat} {f : SpxFrame} : s₀.Evolves τ (s.skipMapped r f) :=
  .ite (.ite (.emitVector (.setRes h)) (.setRes h)) h

theorem State.Evolves.frameMapped (h : s₀.Evolves τ s) {r : Nat} {f : SpxFrame} {x : Bins} {exp : Int} {invalid deg
    : Bool} :
    s₀.Evolves τ (s.frameMapped r f x exp invalid deg) :=
  .ite (.ite (.emitVector (.setRes h)) (.setRes h)) (.emitVector h)

theorem State.Evolves.countSkip (h : s₀.Evolves τ s) {r : Nat} {ts : Stamp} : s₀.Evolves τ (s.countSkip r ts) :=
  .ite (.setRes (.bump h)) (.raiseTs (.putBit (.setRes (.bump h))))

theorem State.Evolves.spxFall (h : s₀.Evolves τ s) : s₀.Evolves τ s.spxFall := .foldl (fun h => .setRes h) h

theorem State.Evolves.spxDegrade (h : s₀.Evolves τ s) : s₀.Evolves τ s.spxDegrade := .foldl (fun h => .setRes h) h

theorem State.Evolves.spxRelock (h : s₀.Evolves τ s) : s₀.Evolves τ s.spxRelock := .foldl (fun h => .setRes h) h

theorem State.Evolves.notePipe (h : s₀.Evolves τ s) {r : Nat} {f : SpxFrame} : s₀.Evolves τ (s.notePipe r f) :=
  .setRes h

theorem State.Evolves.frameSkipped (h : s₀.Evolves τ s) {r : Nat} {f : SpxFrame} :
    s₀.Evolves τ (s.frameSkipped r f) :=
  .ite (.skipMapped (.setRes (.countSkip h))) (.setRes (.setRes (.countSkip h)))

theorem State.Evolves.gridRestart (h : s₀.Evolves τ s) {r : Nat} : s₀.Evolves τ (s.gridRestart r) :=
  .ite (.foldl (fun h => .frameSkipped h) (.setRes h)) (.setRes h)

theorem State.Evolves.frameEnded (h : s₀.Evolves τ s) {r : Nat} {f : SpxFrame} : s₀.Evolves τ (s.frameEnded r f) :=
  .ite (.frameSkipped h) (.setRes (.notePipe h))

theorem State.Evolves.frameBegins (h : s₀.Evolves τ s) {r : Nat} {x : OutSample} :
    s₀.Evolves τ (s.frameBegins r x) :=
  .setRes (.ite (.spxHandover (.ite (.latchRaise h) h)) (.ite (.latchRaise h) h))

theorem State.Evolves.resSample (h : s₀.Evolves τ s) {x : OutSample} {r : Nat} : s₀.Evolves τ (s.resSample x r) :=
  .ite (.foldl (fun h => .frameEnded h) (.setRes (.ite (.frameBegins h) h))) h

theorem State.Evolves.spxSample (h : s₀.Evolves τ s) {c : Nat} {x : OutSample} : s₀.Evolves τ (s.spxSample c x) :=
  .foldl (fun h => .resSample h) (.ite (.wr (.wr h)) h)

theorem State.Evolves.spxRestart (h : s₀.Evolves τ s) {c : Nat} : s₀.Evolves τ (s.spxRestart c) :=
  .gridRestart (.gridRestart h)

theorem State.Evolves.resRate (h : s₀.Evolves τ s) {r : Nat} : s₀.Evolves τ (s.resRate r) :=
  .ite (.ite (.ite (.canCheck (.wrN (.spxHold h))) (.wrN (.spxHold h))) (.spxStop h)) h

theorem State.Evolves.spxRate (h : s₀.Evolves τ s) {c : Nat} : s₀.Evolves τ (s.spxRate c) :=
  .latencies (.resRate (.resRate h))

theorem State.Evolves.pairStops (h : s₀.Evolves τ s) {c : Nat} : s₀.Evolves τ (s.pairStops c) := by
  unfold State.pairStops
  extract_lets _ s₁
  have h₁ : s₀.Evolves τ s₁ := .ite (.spxStop (.ite (.spxStop h) h)) (.ite (.spxStop h) h)
  exact .ite (.canStop h₁) h₁

theorem State.Evolves.bandUnit (h : s₀.Evolves τ s) {c res : Nat} {ts : Stamp} {invalid : Bool} {lo : Nat} {x :
    Bins} {u : Nat} :
    s₀.Evolves τ (s.bandUnit c res ts invalid lo x u) :=
  .ite (.ite (.unitUnknown h) (.ite (.unitUnknown h) (.unitVerdict h))) h

theorem State.Evolves.emitFrame (h : s₀.Evolves τ s) {r : Nat} {f : SpxFrame} : s₀.Evolves τ (s.emitFrame r f) := by
  unfold State.emitFrame
  extract_lets _ _ _ _ _ _ _ _ s₁ s₂ _ s₃ s₄ s₅ s₆ _ s₇ s₈
  have h₁ : s₀.Evolves τ s₁ := .wr (.bump h)
  have h₂ : s₀.Evolves τ s₂ := .ite (.bump h₁) h₁
  have h₃ : s₀.Evolves τ s₃ := .trgPass h₂
  have h₄ : s₀.Evolves τ s₄ := .foldl (fun h => .bandUnit h) h₃
  have h₅ : s₀.Evolves τ s₅ := .frameMapped h₄
  have h₆ : s₀.Evolves τ s₆ := .canSpectrum h₅
  have h₇ : s₀.Evolves τ s₇ := .recSpectrum h₆
  have h₈ : s₀.Evolves τ s₈ := .feedItem h₇
  exact .feedItem h₈

theorem State.Evolves.passSkips {fuel : Nat} (h : s₀.Evolves τ s) {r : Nat} :
    s₀.Evolves τ (State.passSkips r fuel s) := by
  induction fuel generalizing s with
  | zero => exact h
  | succ fuel ih =>
    unfold State.passSkips
    split
    · exact .ite (ih (.skipMapped (.setRes h))) h
    · exact h

theorem State.Reaches.execSpectrumEmit (h : s₀.Evolves τ s) {r : Fin 8} : s₀.Reaches τ (execSpectrumEmit r s) := by
  unfold Machine.execSpectrumEmit
  split
  · refine .ite (.next h) ?_
    refine .ite .fault ?_
    refine .ite .fault ?_
    extract_lets _ s₁
    have h₁ : s₀.Evolves τ s₁ := .emitFrame (.setRes h)
    exact .next (.passSkips h₁)
  · exact .next h

theorem State.Reaches.execSpxEnable (h : s₀.Evolves τ s) {r : Fin 8} : s₀.Reaches τ (execSpxEnable r s) :=
  .ite (.next h) (.next (.spxEnable h))

theorem State.Reaches.execSpxDisable (h : s₀.Evolves τ s) {r : Fin 8} : s₀.Reaches τ (execSpxDisable r s) :=
  .next (.spxDisable (.parityFree h))

theorem State.Reaches.execSpxDrainEnd (h : s₀.Evolves τ s) {r : Fin 8} : s₀.Reaches τ (execSpxDrainEnd r s) :=
  .next (.ite (.spxDrained h) h)

theorem State.Reaches.execSpxCommit (h : s₀.Evolves τ s) {r : Fin 8} : s₀.Reaches τ (execSpxCommit r s) :=
  .next (.spxCommit h)

theorem State.Reaches.execSpxCommitTimed (h : s₀.Evolves τ s) {r : Fin 8} : s₀.Reaches τ (execSpxCommitTimed r s) :=
  .next (.spxCommitTimed h)

/-! ### Conditioning -/

theorem State.Evolves.noteOver (h : s₀.Evolves τ s) {c container : Nat} : s₀.Evolves τ (s.noteOver c container) :=
  .ite (.latchRaise (.bumpSat h)) h

theorem State.Evolves.eqJudge (h : s₀.Evolves τ s) {c : Nat} : s₀.Evolves τ (s.eqJudge c) :=
  .ite h (.raise (.putBit h))

theorem State.Evolves.cndHandover (h : s₀.Evolves τ s) {c : Nat} {ts : Stamp} : s₀.Evolves τ (s.cndHandover c ts) :=
  .eqJudge (.raise (.putBit (.wr (.bump (.setCnd (.ite (.setFld (.wrI h)) h))))))

theorem State.Evolves.cndIdleDue (h : s₀.Evolves τ s) {c : Nat} : s₀.Evolves τ (s.cndIdleDue c) :=
  .ite (.setCnd h) h

theorem State.Evolves.cndIdlePass (h : s₀.Evolves τ s) {c : Nat} : s₀.Evolves τ (s.cndIdlePass c) :=
  .ite (.cndHandover h) h

theorem State.Evolves.cndCommit (h : s₀.Evolves τ s) {c : Nat} : s₀.Evolves τ (s.cndCommit c) :=
  .ite h (.cndIdleDue (.putBit (.setCnd h)))

theorem State.Evolves.cndCommitTimed (h : s₀.Evolves τ s) {c : Nat} : s₀.Evolves τ (s.cndCommitTimed c) :=
  .ite h (.ite (.latchRaise (.cndIdleDue (.setCnd (.putBit h)))) (.setCnd (.putBit h)))

theorem State.Evolves.chainOut (h : s₀.Evolves τ s) {c : Nat} {ts : Stamp} {pace : Pace} {y : ChainSample} {w :
    CndWord} :
    s₀.Evolves τ (s.chainOut c ts pace y w).1 :=
  .setCnd h

theorem State.Evolves.cndMeets (h : s₀.Evolves τ s) {c : Nat} {ts : Stamp} : s₀.Evolves τ (s.cndMeets c ts) :=
  .ite (.cndHandover h) h

theorem State.Evolves.chainSample (h : s₀.Evolves τ s) {c k : Nat} {ts : Stamp} {v : ChainSample} {w : CndWord} :
    s₀.Evolves τ (s.chainSample c k ts v w).1 := by
  unfold State.chainSample
  extract_lets s₁ _ _ _ _ _ _ _ s₂
  have h₁ : s₀.Evolves τ s₁ := .cndMeets h
  have h₂ : s₀.Evolves τ s₂ := .setCnd h₁
  split
  · exact h₂
  · exact .chainOut h₂

theorem State.Evolves.ilEven (h : s₀.Evolves τ s) {c : Nat} {e : ChainSample} {w : CndWord} :
    s₀.Evolves τ (s.ilEven c e w).1 :=
  .iteFst (.setCnd h) h

theorem State.Evolves.ilOdd (h : s₀.Evolves τ s) {c : Nat} {e o : ChainSample} {w : CndWord} :
    s₀.Evolves τ (s.ilOdd c e o w).1 :=
  .iteFst (.setCnd h) h

theorem State.Evolves.chainWord {vs : List ChainSample} {r : State × CndWord} (h : s₀.Evolves τ r.1) {c k : Nat} :
    s₀.Evolves τ (State.chainWord c vs k r).1 := by
  induction vs generalizing r k with
  | nil => exact h
  | cons v rest ih => exact ih (.chainSample h)

theorem State.Evolves.pairWord {ps : List (ChainSample × ChainSample)} {r : State × CndWord} (h : s₀.Evolves τ r.1)
    {c k : Nat} : s₀.Evolves τ (State.pairWord c ps k r).1 := by
  induction ps generalizing r k with
  | nil => exact h
  | cons p rest ih => exact ih (.chainSample (.ilOdd (.cndMeets (.chainSample (.ilEven (.cndMeets h))))))

theorem State.Evolves.takeWord (h : s₀.Evolves τ s) {g : Nat} : s₀.Evolves τ (s.takeWord g).1 :=
  .iteFst (.setLane h) (.setLane h)

theorem State.Evolves.advance (h : s₀.Evolves τ s) {g n : Nat} : s₀.Evolves τ (s.advance g n) := .setLane h

theorem State.Evolves.laneWord (h : s₀.Evolves τ s) {c : Nat} : s₀.Evolves τ (s.laneWord c) :=
  .ite (.setCnd (.chainWord (.foldl (fun h => .noteOver h) (.advance (.takeWord h))))) (.advance (.takeWord h))

theorem State.Evolves.pairedWord (h : s₀.Evolves τ s) {c : Nat} : s₀.Evolves τ (s.pairedWord c) :=
  have htaken := (State.Evolves.advance (.advance (.takeWord (.takeWord h))))
  .ite (.setCnd (.pairWord (.foldl (fun h => .noteOver h) htaken))) htaken

theorem State.Reaches.execLaneWord (h : s₀.Evolves τ s) {g : Fin 4} : s₀.Reaches τ (execLaneWord g s) :=
  .next (.ite h (.ite (.ite (.ite (.pairedWord h) h) (.ite (.laneWord h) h)) (.ite (.ite (.pairedWord h) (.laneWord
    h)) h)))

theorem State.Evolves.noteSats (h : s₀.Evolves τ s) {c : Nat} {w : CndWord} : s₀.Evolves τ (s.noteSats c w) :=
  .foldl (fun h => .ite (.raise h) h) (.setFld (.ite h (.bumpSat h)))

theorem State.Evolves.outSample (h : s₀.Evolves τ s) {c : Nat} {old : Bool} {x : OutSample} :
    s₀.Evolves τ (s.outSample c old x)  :=
  .ite (.feedSample (.trigSample h)) (.spxSample (.feedSample (.trigSample h)))

theorem State.Evolves.wordLeaves (h : s₀.Evolves τ s) {c : Nat} {old : Bool} {w : CndWord} :
    s₀.Evolves τ (s.wordLeaves c old w) := by
  unfold State.wordLeaves
  extract_lets s₁ s₂ s₃
  have h₁ : s₀.Evolves τ s₁ := .noteSats h
  have h₂ : s₀.Evolves τ s₂ := .foldl (fun h => .outSample h) h₁
  have h₃ : s₀.Evolves τ s₃ := by
    unfold s₃
    split
    · exact .putBit h₂
    · exact h₂
  exact .recWord h₃

theorem State.Reaches.execConditioningOutput (h : s₀.Evolves τ s) {c : Fin 4} :
    s₀.Reaches τ (execConditioningOutput c s) := by
  unfold Machine.execConditioningOutput
  split
  · extract_lets _ s₁
    have h₁ : s₀.Evolves τ s₁ := .wordLeaves (.setCnd h)
    exact .ite .fault (.ite .fault (.next h₁))
  · exact .next h

theorem State.Evolves.cndStart (h : s₀.Evolves τ s) {c : Nat} : s₀.Evolves τ (s.cndStart c) :=
  .eqJudge (.cndIdleDue (.spxRate (.newOrigin (.spxRestart (.chainFigures (.putBit (.setCnd h)))))))

theorem State.Evolves.cndEnable (h : s₀.Evolves τ s) {c : Nat} : s₀.Evolves τ (s.cndEnable c) :=
  .ite h (.ite (.putBit h) (.cndStart (.putBit h)))

theorem State.Reaches.execCndEnable (h : s₀.Evolves τ s) {c : Fin 4} : s₀.Reaches τ (execCndEnable c s) :=
  .ite (.next h) (.ite .fault (.next (.cndEnable h)))

theorem State.Evolves.cndStop (h : s₀.Evolves τ s) {c : Nat} : s₀.Evolves τ (s.cndStop c) := by
  unfold State.cndStop
  refine .ite ?_ h
  extract_lets _ s₁ s₂ s₃
  have h₁ : s₀.Evolves τ s₁ := .setCnd h
  have h₂ : s₀.Evolves τ s₂ := .putBit (.putBit h₁)
  have h₃ : s₀.Evolves τ s₃ := .flushWaiting (.putBit h₂)
  exact .ite h₃ (.closeCaptures h₃)

theorem State.Evolves.cndDisable (h : s₀.Evolves τ s) {c : Nat} : s₀.Evolves τ (s.cndDisable c) :=
  .cndStop (.putBit h)

theorem State.Reaches.execCndDisable (h : s₀.Evolves τ s) {c : Fin 4} : s₀.Reaches τ (execCndDisable c s) :=
  .next (.cndDisable (.parityFree h))

theorem State.Reaches.execCndCommit (h : s₀.Evolves τ s) {c : Fin 4} : s₀.Reaches τ (execCndCommit c s) :=
  .next (.cndCommit h)

theorem State.Reaches.execCndCommitTimed (h : s₀.Evolves τ s) {c : Fin 4} : s₀.Reaches τ (execCndCommitTimed c s) :=
  .next (.cndCommitTimed h)

theorem State.Reaches.execCndCommitAtReached (h : s₀.Evolves τ s) {c : Fin 4} :
    s₀.Reaches τ (execCndCommitAtReached c s) :=
  .next (.cndIdlePass h)

theorem State.Reaches.execIlEstimate (h : s₀.Evolves τ s) {c : Fin 4} : s₀.Reaches τ (execIlEstimate c s) := by
  unfold Machine.execIlEstimate
  extract_lets _ s₁
  have h₁ : s₀.Evolves τ s₁ := .setCnd h
  split
  · extract_lets s₂ r₃ _ s₄ s₅
    have h₂ : s₀.Evolves τ s₂ := .wrI h₁
    have h₃ : s₀.Evolves τ r₃.2 := .draw h₂
    have h₄ : s₀.Evolves τ s₄ := .wrN h₃
    have h₅ : s₀.Evolves τ s₅ := .wrN h₄
    exact .next (.bump h₅)
  · exact .next h

/-! ### Lane groups -/

theorem State.Evolves.leaveRun (h : s₀.Evolves τ s) {g : Nat} : s₀.Evolves τ (s.leaveRun g) :=
  .ite (.raise (.putBit h)) (.cndIdleDue (.flushWaiting (.postFaults (.raise (.putBit h)))))

theorem State.Evolves.driveSync (h : s₀.Evolves τ s) {g : Nat} {low : Bool} : s₀.Evolves τ (s.driveSync g low) :=
  .ite h (.send (.setLane h))

theorem State.Evolves.enterLane (h : s₀.Evolves τ s) {g st : Nat} : s₀.Evolves τ (s.enterLane g st) := by
  unfold State.enterLane
  extract_lets _ s₁ _ s₂ s₃
  have h₁ : s₀.Evolves τ s₁ := .setFld h
  have h₂ : s₀.Evolves τ s₂ := .setLane h₁
  have h₃ : s₀.Evolves τ s₃ := .ite h₂ (.driveSync h₂)
  exact .ite (.leaveRun h₃) h₃

theorem State.Evolves.lanesEmpty (h : s₀.Evolves τ s) {g : Nat} : s₀.Evolves τ (s.lanesEmpty g) := .setLane h

theorem State.Evolves.lanesDown (h : s₀.Evolves τ s) {g : Nat} : s₀.Evolves τ (s.lanesDown g) :=
  .lanesEmpty (.setFld (.foldl (fun h => .wr h) h))

theorem State.Evolves.laneOff (h : s₀.Evolves τ s) {g : Nat} : s₀.Evolves τ (s.laneOff g) :=
  .lanesDown (.enterLane h)

theorem State.Evolves.lanePower (h : s₀.Evolves τ s) {g : Nat} : s₀.Evolves τ (s.lanePower g) := .enterLane h

theorem State.Evolves.laneCdr (h : s₀.Evolves τ s) {g : Nat} : s₀.Evolves τ (s.laneCdr g) := by
  unfold State.laneCdr
  extract_lets _ s₁ s₂
  have h₁ : s₀.Evolves τ s₁ := .enterLane (.lanesDown h)
  have h₂ : s₀.Evolves τ s₂ := .foldl (fun h => .putBit h) h₁
  exact .foldl (fun h => .ite (.putBit (.putBit h)) h) h₂

theorem State.Evolves.laneStart (h : s₀.Evolves τ s) {g : Nat} : s₀.Evolves τ (s.laneStart g) :=
  .ite (.enterLane h) (.lanePower h)

theorem State.Evolves.faultGroup (h : s₀.Evolves τ s) {g cause : Nat} : s₀.Evolves τ (s.faultGroup g cause) :=
  .raise (.enterLane (.setFld h))

theorem State.Evolves.laneFault (h : s₀.Evolves τ s) {g cause : Nat} : s₀.Evolves τ (s.laneFault g cause) := by
  unfold State.laneFault
  extract_lets s₁
  have h₁ : s₀.Evolves τ s₁ := .foldl (fun h => .ite (.faultGroup h) (.ite h (.faultGroup h))) h
  exact .ite (.lanesDown (.enterLane h₁)) h₁

theorem State.Evolves.laneParity (h : s₀.Evolves τ s) {g : Nat} : s₀.Evolves τ (s.laneParity g) :=
  .foldl (fun h => .laneOff (.setFld h)) h

theorem State.Evolves.groupEnable (h : s₀.Evolves τ s) {g : Nat} : s₀.Evolves τ (s.groupEnable g) := by
  unfold State.groupEnable
  extract_lets s₁ s₂
  have h₁ : s₀.Evolves τ s₁ := .putBit h
  have h₂ : s₀.Evolves τ s₂ := .foldl (fun h => .setFld h) h₁
  exact .ite h₁ (.ite h₂ (.foldl (fun h => .ite (.laneStart (.setLane h)) h) h₂))

theorem State.Evolves.groupDisable (h : s₀.Evolves τ s) {g : Nat} : s₀.Evolves τ (s.groupDisable g) := by
  unfold State.groupDisable
  extract_lets s₁ _ _ s₂
  have h₁ : s₀.Evolves τ s₁ := .putBit h
  have h₂ : s₀.Evolves τ s₂ := .same h₁
  exact .ite h₁ (.foldl (fun h => .laneOff h) h₂)

theorem State.Reaches.execLnkGroupEnable (h : s₀.Evolves τ s) {g : Fin 4} : s₀.Reaches τ (execLnkGroupEnable g s) :=
  .ite .fault (.next (.groupEnable h))

theorem State.Reaches.execLnkGroupDisable (h : s₀.Evolves τ s) {g : Fin 4} :
    s₀.Reaches τ (execLnkGroupDisable g s) :=
  .next (.groupDisable h)

theorem State.Reaches.execPairChange (h : s₀.Evolves τ s) {g : Nat} : s₀.Reaches τ (execPairChange g s) := by
  unfold Machine.execPairChange
  extract_lets _ s₁ _ _ _ _ s₂ s₃ s₄
  have h₁ : s₀.Evolves τ s₁ := .ite h (.laneOff h)
  have h₂ : s₀.Evolves τ s₂ := .ite (.groupEnable h) h
  have h₃ : s₀.Evolves τ s₃ := .ite (.startWriter h₂) h₂
  have h₄ : s₀.Evolves τ s₄ := .ite (.startSpg h₃) h₃
  exact .ite (.next (.cndStop h₁)) (.ite .fault (.ite .fault (.ite .fault (.ite .fault (.next (.ite (.cndStart h₄)
      h₄))))))

theorem State.Evolves.partnerRestart (h : s₀.Evolves τ s) {g : Nat} : s₀.Evolves τ (s.partnerRestart g) :=
  .foldl (fun h => .ite (.laneCdr h) h) h

theorem State.Reaches.execPowerDone (h : s₀.Evolves τ s) {g : Fin 4} : s₀.Reaches τ (execPowerDone g s) :=
  .next (.ite (.partnerRestart (.laneCdr h)) h)

theorem State.Evolves.lanesLock (h : s₀.Evolves τ s) {g lanes : Nat} : s₀.Evolves τ (s.lanesLock g lanes) :=
  .foldl (fun h => .ite (.putBit h) h) h

theorem State.Reaches.execCdrLock (h : s₀.Evolves τ s) {x : LaneSet} : s₀.Reaches τ (execCdrLock x s) :=
  .ite (.next (.ite (.enterLane (.lanesLock h)) (.lanesLock h))) (.next h)

theorem State.Reaches.execCdrTimeout (h : s₀.Evolves τ s) {g : Fin 4} : s₀.Reaches τ (execCdrTimeout g s) :=
  .next (.ite (.laneFault h) h)

theorem State.Evolves.dfeLane (h : s₀.Evolves τ s) {j : Nat} {dfe : List Int} : s₀.Evolves τ (s.dfeLane j dfe) :=
  .ite h (.wrN (.wrN h))

theorem State.Evolves.adaptLane (h : s₀.Evolves τ s) {j : Nat} {boost : Option Nat} {dfe : List Int} :
    s₀.Evolves τ (s.adaptLane j boost dfe) := by
  unfold State.adaptLane
  refine .ite h ?_
  extract_lets s₁
  have h₁ : s₀.Evolves τ s₁ := .dfeLane h
  split
  · exact .ite h₁ (.putBit (.setFld h₁))
  · exact h₁

theorem State.Evolves.laneSync (h : s₀.Evolves τ s) {g : Nat} : s₀.Evolves τ (s.laneSync g) :=
  .driveSync (.setLane (.enterLane h))

theorem State.Evolves.adaptLeaves (h : s₀.Evolves τ s) {g : Nat} : s₀.Evolves τ (s.adaptLeaves g) :=
  .ite (.enterLane h) (.ite (.enterLane h) (.laneSync h))

theorem State.Reaches.execAdaptDone (h : s₀.Evolves τ s) {g : Fin 4} {boost : List (Option Nat)} {dfe : List (List
    Int)} :
    s₀.Reaches τ (execAdaptDone g boost dfe s) := by
  unfold Machine.execAdaptDone
  extract_lets _ s₁
  have h₁ : s₀.Evolves τ s₁ := .foldl (fun h => .adaptLane h) h
  exact .ite (.next (.ite (.adaptLeaves h₁) h₁)) (.next h)

theorem State.Reaches.execAdaptTimeout (h : s₀.Evolves τ s) {g : Fin 4} : s₀.Reaches τ (execAdaptTimeout g s) :=
  .next (.ite (.laneFault h) h)

theorem State.Reaches.execAdaptRestart (h : s₀.Evolves τ s) {g : Fin 4} : s₀.Reaches τ (execAdaptRestart g s) :=
  .next (.ite (.foldl (fun h => .ite h (.putBit h)) h) h)

theorem State.Evolves.lanesUp (h : s₀.Evolves τ s) {g sync emb : Nat} : s₀.Evolves τ (s.lanesUp g sync emb) :=
  .foldl (fun h => .putBit (.ite (.putBit (.ite (.putBit h) h)) (.ite (.putBit h) h))) h

theorem State.Reaches.execEmbLock (h : s₀.Evolves τ s) {g : Fin 4} {x : SyncFind} :
    s₀.Reaches τ (execEmbLock g x s) := by
  unfold Machine.execEmbLock
  refine .ite ?_ (.next h)
  extract_lets s₁ _ s₂ _ s₃
  have h₁ : s₀.Evolves τ s₁ := .lanesUp h
  have h₂ : s₀.Evolves τ s₂ := .wrN (.driveSync h₁)
  have h₃ : s₀.Evolves τ s₃ := .setLane h₂
  exact .ite (.next h₁) (.ite (.ite (.next (.enterLane h₃)) (.ite (.next (.laneFault h₃)) (.next (.enterLane (.raise
      h₃))))) (.next (.enterLane (.setLane h₁))))

theorem State.Reaches.execSyncTimeout (h : s₀.Evolves τ s) {g : Fin 4} : s₀.Reaches τ (execSyncTimeout g s) :=
  .next (.ite (.laneFault h) h)

theorem State.Reaches.execSysrefMissing (h : s₀.Evolves τ s) {g : Fin 4} : s₀.Reaches τ (execSysrefMissing g s) :=
  .next (.ite (.laneFault h) h)

theorem State.Reaches.execFaultRelink (h : s₀.Evolves τ s) {g : Fin 4} : s₀.Reaches τ (execFaultRelink g s) :=
  .next (.ite (.foldl (fun h => .laneCdr h) h) h)

theorem State.Evolves.loseLane (h : s₀.Evolves τ s) {g what l : Nat} : s₀.Evolves τ (s.loseLane g what l) := by
  unfold State.loseLane
  extract_lets _ s₁ s₂
  have h₁ : s₀.Evolves τ s₁ := .putBit (.putBit h)
  have h₂ : s₀.Evolves τ s₂ := .ite (.putBit h₁) h₁
  exact .ite (.putBit h₂) h₂

theorem State.Reaches.execLinkLost (h : s₀.Evolves τ s) {x : LockLoss} : s₀.Reaches τ (execLinkLost x s) :=
  .next (.ite (.laneFault (.foldl (fun h => .loseLane h) h)) h)

theorem State.Evolves.laneOffset (h : s₀.Evolves τ s) {j : Nat} {on : Bool} : s₀.Evolves τ (s.laneOffset j on) :=
  .ite h (.ite (.putBit h) (.ite (.laneFault (.putBit (.putBit h))) (.putBit (.putBit h))))

theorem State.Evolves.sysrefCheck (h : s₀.Evolves τ s) {edge g : Nat} : s₀.Evolves τ (s.sysrefCheck edge g) :=
  .ite h (.ite (.ite (.setLane (.enterLane (.raise (.wrI h)))) (.raise (.wrI h))) (.wrI h))

theorem State.Evolves.sysrefGroup (h : s₀.Evolves τ s) {edge g : Nat} : s₀.Evolves τ (s.sysrefGroup edge g) := by
  unfold State.sysrefGroup
  extract_lets s₁ _ _ s₂
  have h₁ : s₀.Evolves τ s₁ := .wr h
  have h₂ : s₀.Evolves τ s₂ := .ite h₁ (.setLane h₁)
  exact .ite h₂ (.ite (.ite (.setLane h₂) h₂) (.ite (.sysrefCheck h₂) h₂))

theorem State.Reaches.execSysrefEdge (h : s₀.Evolves τ s) : s₀.Reaches τ (execSysrefEdge s) :=
  .ite (.next (.foldl (fun h => .sysrefGroup h) h)) (.next (.ite (.bumpSat h) h))

theorem State.Evolves.arrivals (h : s₀.Evolves τ s) {g : Nat} {xs : List (Option Int)} :
    s₀.Evolves τ (s.arrivals g xs) := by
  unfold State.arrivals
  refine .foldl (fun h => ?_) h
  split
  · exact .wrI h
  · exact h

theorem State.Evolves.cndRelease (h : s₀.Evolves τ s) {c : Nat} : s₀.Evolves τ (s.cndRelease c) :=
  .latencies (.newOrigin (.spxRestart (.ite (.eqJudge (.chainFigures (.setCnd h))) (.setCnd h))))

theorem State.Evolves.releaseGroup (h : s₀.Evolves τ s) {g c : Nat} : s₀.Evolves τ (s.releaseGroup g c) :=
  .raise (.bump (.putBit (.wr (.setLane (.enterLane h)))))

theorem State.Reaches.execLnkRelease (h : s₀.Evolves τ s) {g : Fin 4} {here there : List (Option Int)} :
    s₀.Reaches τ (execLnkRelease g here there s) := by
  unfold Machine.execLnkRelease
  extract_lets
  split
  · refine .ite ?_ (.next h)
    extract_lets _ _ _ _ s₁ s₂ s₃ s₄
    have h₁ : s₀.Evolves τ s₁ := .arrivals h
    have h₂ : s₀.Evolves τ s₂ := .ite (.arrivals h₁) h₁
    have h₃ : s₀.Evolves τ s₃ := .foldl (fun h => .releaseGroup h) h₂
    have h₄ : s₀.Evolves τ s₄ := .cndRelease h₃
    exact .ite (.next (.laneFault h₂)) (.ite (.next (.laneFault h₂)) (.ite .fault (.next (.ite (.pairStops h₄)
        h₄))))
  · exact .next h

theorem State.Reaches.execRawGo (h : s₀.Evolves τ s) {g : Fin 4} : s₀.Reaches τ (execRawGo g s) :=
  .next (.ite (.foldl (fun h => .setLane h) h) h)

theorem State.Evolves.countLanes (h : s₀.Evolves τ s) {g : Nat} {n k : Nat → Nat} :
    s₀.Evolves τ (s.countLanes g n k) :=
  .foldl (fun h => .ite h (.bumpSat h)) h

theorem State.Evolves.jesdSamples (h : s₀.Evolves τ s) {g : Nat} {cells : LaneCells} {ok : Bool} :
    s₀.Evolves τ (s.jesdSamples g cells ok).1 :=
  .setLane h

theorem State.Evolves.lanePush (h : s₀.Evolves τ s) {g : Nat} {first : Bool} {xs : List (Nat × Bool)} :
    s₀.Evolves τ (s.lanePush g first xs) :=
  .ite (.setLane h) (.ite (.ite (.setLane h) (.ite h (.setLane h))) h)

theorem State.Evolves.codeGroupLock (h : s₀.Evolves τ s) {g : Nat} {good : Nat → Bool} :
    s₀.Evolves τ (s.codeGroupLock g good)  := by
  unfold State.codeGroupLock
  refine .ite ?_ h
  extract_lets s₁
  have h₁ : s₀.Evolves τ s₁ := .foldl (fun h => .ite (.putBit h) h) h
  exact .ite (.driveSync h₁) h₁

theorem State.Evolves.rawCycle (h : s₀.Evolves τ s) {g : Nat} {octets : List (List (BitVec 8))} :
    s₀.Evolves τ (s.rawCycle g octets).1 :=
  .setLane h

theorem State.Reaches.execRawSnap (h : s₀.Evolves τ s) {g : Fin 4} {words : List (BitVec 64)} :
    s₀.Reaches τ (execRawSnap g words s) :=
  .next (.foldl (fun h => .wrN h) (.draw h))

theorem State.Reaches.execMultiblock (h : s₀.Evolves τ s) {g : Fin 4} {cells : LaneCells} {code : List Nat} {crc :
    BitVec 12} :
    s₀.Reaches τ (execMultiblock g cells code crc s) := by
  unfold Machine.execMultiblock
  extract_lets _ _ _ _ r₁ s₂ s₃ r₄ s₅ r₆
  have h₁ : s₀.Evolves τ r₁.1 := .rawCycle h
  have h₂ : s₀.Evolves τ s₂ := .countLanes h
  have h₃ : s₀.Evolves τ s₃ := .countLanes h₂
  have h₄ : s₀.Evolves τ r₄.1 := .jesdSamples h₃
  have h₅ : s₀.Evolves τ s₅ := .codeGroupLock h₂
  have h₆ : s₀.Evolves τ r₆.1 := .jesdSamples h₅
  exact .ite (.ite (.next (.lanePush h₁)) (.next h)) (.ite (.ite (.next (.lanePush h₄)) (.next (.lanePush h₆)))
      (.next h))

theorem State.Reaches.execPrbsLock (h : s₀.Evolves τ s) {j : Fin 64} {on : Bool} {errors : Nat} :
    s₀.Reaches τ (execPrbsLock j on errors s) :=
  .next (.putBit (.ite (.bump h) h))

theorem State.Evolves.setBuf (h : s₀.Evolves τ s) {k : Nat → Nat} {n : Nat} {bs : List (BitVec 8)} :
    s₀.Evolves τ (s.setBuf k n bs) :=
  .foldl (fun h => .wrN h) h

theorem State.Evolves.spiTake (h : s₀.Evolves τ s) {g : Nat} {data : List (BitVec 8)} :
    s₀.Evolves τ (s.spiTake g data) :=
  .setBuf h

theorem State.Reaches.execSpiGo (h : s₀.Evolves τ s) {g : Fin 4} : s₀.Reaches τ (execSpiGo g s) :=
  .ite (.next h) (.ite .fault (.next (.send (.wrN h))))

theorem State.Reaches.execSpiDone (h : s₀.Evolves τ s) {g : Fin 4} {data : List (BitVec 8)} :
    s₀.Reaches τ (execSpiDone g data s)  :=
  .next (.ite (.raise (.wrN (.spiTake h))) h)

theorem State.Reaches.execI2cGo (h : s₀.Evolves τ s) {g : Fin 4} : s₀.Reaches τ (execI2cGo g s) :=
  .next (.ite h (.send (.wrN h)))

theorem State.Evolves.i2cTake (h : s₀.Evolves τ s) {g : Nat} {data : List (BitVec 8)} :
    s₀.Evolves τ (s.i2cTake g data) :=
  .ite (.setBuf h) h

theorem State.Reaches.execI2cDone (h : s₀.Evolves τ s) {g : Fin 4} {nack : Bool} {data : List (BitVec 8)} :
    s₀.Reaches τ (execI2cDone g nack data s) :=
  .next (.ite (.raise (.wrN (.ite h (.i2cTake h)))) h)

theorem State.Reaches.execPrsntEdge (h : s₀.Evolves τ s) {g : Fin 4} {low : Bool} :
    s₀.Reaches τ (execPrsntEdge g low s) :=
  .next (.setLane h)

theorem State.Evolves.abortTransfers (h : s₀.Evolves τ s) {g : Nat} {spi i2c : List (BitVec 8)} :
    s₀.Evolves τ (s.abortTransfers g spi i2c) := by
  unfold State.abortTransfers
  extract_lets s₁ s₂
  have h₁ : s₀.Evolves τ s₁ := .send (.spiTake h)
  have h₂ : s₀.Evolves τ s₂ := .ite (.raise (.wrN h₁)) h
  exact .ite (.raise (.wrN (.i2cTake h₂))) h₂

theorem State.Evolves.abortId (h : s₀.Evolves τ s) {g : Nat} : s₀.Evolves τ (s.abortId g) :=
  .ite (.raise (.putBit (.setLane h))) h

theorem State.Evolves.arrives (h : s₀.Evolves τ s) {g : Nat} : s₀.Evolves τ (s.arrives g) := by
  unfold State.arrives
  extract_lets s₁ _ s₂
  have h₁ : s₀.Evolves τ s₁ := .raise (.putBit h)
  have h₂ : s₀.Evolves τ s₂ := .ite (.send (.setLane h₁)) h₁
  exact .ite (.lanePower h₂) h₂

theorem State.Evolves.departs (h : s₀.Evolves τ s) {g : Nat} {spi i2c : List (BitVec 8)} :
    s₀.Evolves τ (s.departs g spi i2c)  := by
  unfold State.departs
  extract_lets s₁ s₂
  have h₁ : s₀.Evolves τ s₁ := .raise (.putBit h)
  have h₂ : s₀.Evolves τ s₂ := .abortId (.abortTransfers h₁)
  exact .ite (.laneFault h₂) h₂

theorem State.Reaches.execPresentChange (h : s₀.Evolves τ s) {c : PresenceChange} :
    s₀.Reaches τ (execPresentChange c s) :=
  .ite .fault (.ite (.next (.wakeBy (.arrives h))) (.ite (.next (.wakeBy (.departs h))) (.next h)))

theorem State.Reaches.execIdReady (h : s₀.Evolves τ s) {g : Fin 4} {image : List (BitVec 8)} :
    s₀.Reaches τ (execIdReady g image s) :=
  .ite (.next (.raise (.putBit (.foldl (fun h => .wrN h) (.setLane h))))) (.next h)

theorem State.Reaches.execEyeScanStart (h : s₀.Evolves τ s) {j : Fin 64} : s₀.Reaches τ (execEyeScanStart j s) := by
  unfold Machine.execEyeScanStart
  extract_lets s₁
  have h₁ : s₀.Evolves τ s₁ := .wr h
  exact .next (.same h₁)

theorem State.Reaches.execEyeDone (h : s₀.Evolves τ s) {j : Fin 64} {bad : BitVec 32} :
    s₀.Reaches τ (execEyeDone j bad s) := by
  unfold Machine.execEyeDone
  split
  · extract_lets s₁ s₂
    have h₁ : s₀.Evolves τ s₁ := .keeps h
    have h₂ : s₀.Evolves τ s₂ := .wrN h₁
    exact .next (.raise h₂)
  · exact .next h

/-! ### Time-interval units -/

theorem State.Evolves.setTim (h : s₀.Evolves τ s) {i : Nat} {x : TimInput} : s₀.Evolves τ (s.setTim i x) :=
  .dite (fun _ => .keeps h) (fun _ => h)

theorem State.Evolves.setTstream (h : s₀.Evolves τ s) {i e : Nat} {y : TimStream} :
    s₀.Evolves τ (s.setTstream i e y) :=
  .wrN (.setTim h)

theorem State.Evolves.winOf (h : s₀.Evolves τ s) {i : Nat} : s₀.Evolves τ (s.winOf i).2 :=
  .iteSnd h (.iteSnd (.draw h) h)

theorem State.Evolves.winSeen (h : s₀.Evolves τ s) {i bit' counter : Nat} :
    s₀.Evolves τ (s.winSeen i bit' counter) :=
  .ite (.bumpSat h) (.ite (.raise (.putBit (.bumpSat h))) (.putBit (.bumpSat h)))

theorem State.Evolves.winUpdate (h : s₀.Evolves τ s) {i : Nat} : s₀.Evolves τ (s.winUpdate i) :=
  .ite (.winSeen (.setFld (.winOf h))) (.ite (.winSeen (.setFld (.winOf h))) (.setFld (.winOf h)))

theorem State.Evolves.cmpDetermined (h : s₀.Evolves τ s) {i b : Nat} : s₀.Evolves τ (s.cmpDetermined i b) :=
  .raise (.putBit h)

theorem State.Evolves.cmpStart (h : s₀.Evolves τ s) {i b level : Nat} : s₀.Evolves τ (s.cmpStart i b level) :=
  .ite (.putBit (.putBit h)) (.ite (.cmpDetermined (.putBit h)) (.putBit h))

theorem State.Evolves.timNote (h : s₀.Evolves τ s) {i e : Nat} {n : TimNote} : s₀.Evolves τ (s.timNote i e n) :=
  .setTstream h

theorem State.Evolves.timAlert (h : s₀.Evolves τ s) {i b : Nat} : s₀.Evolves τ (s.timAlert i b) := .latchRaise h

theorem State.Evolves.timLossSeen (h : s₀.Evolves τ s) {i : Nat} {ns : List TimNote} :
    s₀.Evolves τ (s.timLossSeen i ns) :=
  .ite (.timAlert h) h

theorem State.Evolves.timPut (h : s₀.Evolves τ s) {i e : Nat} {ns : List TimNote} {w0 w1 : BitVec 64} :
    s₀.Evolves τ (s.timPut i e ns w0 w1) :=
  .ite (.bump (.setTstream h)) (.timLossSeen (.wr (.bump (.setTstream h))))

theorem State.Evolves.timOwn (h : s₀.Evolves τ s) {i e : Nat} {ts : Stamp} {range : Bool} :
    s₀.Evolves τ (s.timOwn i e ts range).2  :=
  .setTstream h

theorem State.Evolves.timData (h : s₀.Evolves τ s) {i e : Nat} {ts : Stamp} {range : Bool} {w1 : BitVec 64} :
    s₀.Evolves τ (s.timData i e ts range w1) :=
  .timPut (.timOwn h)

theorem State.Evolves.gateCount (h : s₀.Evolves τ s) {n : Nat} {d : Int} : s₀.Evolves τ (s.gateCount n d).2 :=
  .iteSnd (.draw h) h

theorem State.Evolves.freqEdge (h : s₀.Evolves τ s) {i e : Nat} {ts : Stamp} {range : Bool} :
    s₀.Evolves τ (s.freqEdge i e ts range) := by
  have hcounted (n : Nat) (d : Int) : s₀.Evolves τ (s.gateCount n d).2 := .gateCount h
  obtain ⟨count, hcount⟩ : ∃ f, s.gateCount = f := ⟨_, rfl⟩
  unfold State.freqEdge
  rw [hcount] at hcounted ⊢
  dsimp only
  split
  · exact .setTstream h
  · exact .ite (.timData (.setTstream (hcounted _ _))) (.setTstream h)

theorem State.Evolves.timUnpaired (h : s₀.Evolves τ s) {i e n : Nat} : s₀.Evolves τ (s.timUnpaired i e n) :=
  .ite h (.bumpSat (.setTstream h))

theorem State.Evolves.timStart (h : s₀.Evolves τ s) {i e : Nat} {ts : Stamp} : s₀.Evolves τ (s.timStart i e ts) :=
  .setTstream h

theorem State.Evolves.timItem (h : s₀.Evolves τ s) {i e : Nat} {ts : Stamp} {range : Bool} :
    s₀.Evolves τ (s.timItem i e ts range) := by
  unfold State.timItem
  refine .ite h ?_
  split
  · exact .timData h
  · extract_lets r₁
    have h₁ : s₀.Evolves τ r₁.2 := .timOwn h
    exact .setTstream h₁
  · exact .freqEdge h
  · exact .timData h

theorem State.Evolves.timFlush (h : s₀.Evolves τ s) {i e : Nat} : s₀.Evolves τ (s.timFlush i e) :=
  .ite h (.timLossSeen (.setTstream h))

theorem State.Evolves.timPair (h : s₀.Evolves τ s) {i e : Nat} : s₀.Evolves τ (s.timPair i e) := by
  unfold State.timPair
  dsimp only
  split
  · exact h
  · refine .timFlush ?_
    split
    · exact .timPut (.setTstream (.timUnpaired (.setTstream h)))
    · exact .timPut (.timAlert (.bumpSat (.setTstream (.timUnpaired (.setTstream h)))))

theorem State.Evolves.timPairAll {fuel : Nat} (h : s₀.Evolves τ s) {i e : Nat} :
    s₀.Evolves τ (State.timPairAll i e fuel s) := by
  induction fuel generalizing s with
  | zero => exact h
  | succ fuel ih => exact ih (.timPair h)

theorem State.Evolves.timTransition (h : s₀.Evolves τ s) {i e : Nat} : s₀.Evolves τ (s.timTransition i e) := by
  unfold State.timTransition
  extract_lets
  split
  · exact .setTstream h
  · exact h

theorem State.Evolves.timStamp (h : s₀.Evolves τ s) {i e : Nat} {ts : Stamp} {range : Bool} :
    s₀.Evolves τ (s.timStamp i e ts range) :=
  .foldl (fun h => .timStart h) (.timItem h)

theorem State.Evolves.timStampEdge (h : s₀.Evolves τ s) {i e at' : Nat} {c c1 c2 : Int} :
    s₀.Evolves τ (s.timStampEdge i e at' c c1 c2) := by
  unfold State.timStampEdge
  extract_lets _ _ _ s₁
  have h₁ : s₀.Evolves τ s₁ := .ite (.draw h) h
  split
  extract_lets _ s₂ s₃ s₄ s₅ s₆
  have h₂ : s₀.Evolves τ s₂ := .setTim h₁
  have h₃ : s₀.Evolves τ s₃ := .bump (.wrN h₂)
  have h₄ : s₀.Evolves τ s₄ := .ite (.timAlert (.bumpSat h₃)) h₃
  have h₅ : s₀.Evolves τ s₅ := .timStamp h₄
  have h₆ : s₀.Evolves τ s₆ := .timuStamp h₅
  exact .supStamp h₆

theorem State.Evolves.timEdge (h : s₀.Evolves τ s) {i e at' : Nat} {c c1 c2 : Int} :
    s₀.Evolves τ (s.timEdge i e at' c c1 c2)  := by
  unfold State.timEdge
  extract_lets s₁ _ _ s₂ s₃
  have h₁ : s₀.Evolves τ s₁ := .timTransition h
  have h₂ : s₀.Evolves τ s₂ := .setTim h₁
  have h₃ : s₀.Evolves τ s₃ := .timAlert (.bumpSat h₂)
  exact .ite h₂ (.ite (.ite (.timNote h₃) h₃) (.ite (.timStampEdge h₂) h₂))

theorem State.Evolves.inlEnd (h : s₀.Evolves τ s) {i : Nat} : s₀.Evolves τ (s.inlEnd i) := by
  unfold State.inlEnd
  extract_lets _ _ s₁ _ _ _ _ _ _ s₂ s₃ s₄ s₅ s₆ s₇
  have h₁ : s₀.Evolves τ s₁ := .setTim (.putBit h)
  have h₂ : s₀.Evolves τ s₂ := .setTim h₁
  have h₃ : s₀.Evolves τ s₃ := .foldl (fun h => .foldl (fun h => .wrN h) h) h₂
  have h₄ : s₀.Evolves τ s₄ := .wr (.bump h₃)
  have h₅ : s₀.Evolves τ s₅ := .putBit h₄
  have h₆ : s₀.Evolves τ s₆ := .foldl (fun h => .ite (.timNote h) h) h₅
  have h₇ : s₀.Evolves τ s₇ := .ite (.ite (.foldl (fun h => .ite (.timNote h) h) h₆) h₆) (.foldl (fun h => .ite
      (.timNote h) h) (.putBit h₁))
  exact .raise h₇

theorem State.Evolves.inlHit (h : s₀.Evolves τ s) {i : Nat} {c c1 c2 : Int} : s₀.Evolves τ (s.inlHit i c c1 c2) :=
  .ite (.inlEnd (.setTim (.ite (.draw h) h))) (.setTim (.ite (.draw h) h))

theorem State.Evolves.inlAbandon (h : s₀.Evolves τ s) {i : Nat} : s₀.Evolves τ (s.inlAbandon i) :=
  .setTim (.putBit h)

theorem State.Evolves.timDrained (h : s₀.Evolves τ s) {i : Nat} : s₀.Evolves τ (s.timDrained i) :=
  .ite (.putBit h) h

theorem State.Evolves.timSend (h : s₀.Evolves τ s) {i e : Nat} : s₀.Evolves τ (s.timSend i e) := by
  unfold State.timSend
  extract_lets _ s₁
  have h₁ : s₀.Evolves τ s₁ := .setTstream h
  split
  · exact h
  · extract_lets r₂
    have h₂ : s₀.Evolves τ r₂.1 := .enqueue h₁
    exact .ite h₂ (.bump (.setTstream h₂))

theorem State.Evolves.timJoin (h : s₀.Evolves τ s) {i e : Nat} {x : TimEntry} : s₀.Evolves τ (s.timJoin i e x) :=
  .ite (.timSend (.setTstream h)) (.setTstream h)

theorem State.Evolves.timGather (h : s₀.Evolves τ s) {i e : Nat} {x : TimEntry} :
    s₀.Evolves τ (s.timGather i e x) := by
  unfold State.timGather
  extract_lets
  split
  · exact .ite (.timJoin (.timJoin (.timAlert (.setTstream h)))) (.timJoin h)
  · exact .timJoin h

theorem State.Evolves.timTail (h : s₀.Evolves τ s) {i e : Nat} : s₀.Evolves τ (s.timTail i e) := by
  unfold State.timTail
  extract_lets
  split
  · exact .ite h (.timJoin (.timAlert (.setTstream h)))
  · exact h

theorem State.Evolves.timMove (h : s₀.Evolves τ s) {i e : Nat} : s₀.Evolves τ (s.timMove i e) := by
  unfold State.timMove
  extract_lets
  split
  · exact h
  · refine .ite h ?_
    extract_lets _ s₁ _ _ s₂
    have h₁ : s₀.Evolves τ s₁ := .setTstream h
    have h₂ : s₀.Evolves τ s₂ := .ite (.timGather h₁) (.wrN (.wrRing h₁))
    exact .timDrained (.timTail (.timFlush h₂))

theorem State.Evolves.timDrain {fuel : Nat} (h : s₀.Evolves τ s) {i e : Nat} :
    s₀.Evolves τ (State.timDrain i e fuel s) := by
  induction fuel generalizing s with
  | zero => exact .timSend h
  | succ fuel ih => exact .ite (.timSend h) (ih (.timMove h))

theorem State.Evolves.timDrainAll (h : s₀.Evolves τ s) : s₀.Evolves τ s.timDrainAll :=
  .foldl (fun h => .timDrain h) h

theorem State.Evolves.timStop (h : s₀.Evolves τ s) : s₀.Evolves τ s.timStop := by
  unfold State.timStop
  refine .foldl (fun h => ?_) h
  extract_lets s₁
  have h₁ : s₀.Evolves τ s₁ := .ite (.inlAbandon h) h
  exact .foldl (fun h => .timUnpaired (.setTstream (.timPairAll h))) h₁

theorem State.Evolves.timNotes (h : s₀.Evolves τ s) {kind : Nat} {at' : TimInput → BitVec 64} :
    s₀.Evolves τ (s.timNotes kind at')  :=
  .foldl (fun h => .foldl (fun h => .ite (.timNote h) h) h) h

theorem State.Evolves.timBypass (h : s₀.Evolves τ s) : s₀.Evolves τ s.timBypass := .clockHold (.timStop h)

theorem State.Evolves.timRelock (h : s₀.Evolves τ s) : s₀.Evolves τ s.timRelock := .timNotes (.clockGo h)

theorem State.Evolves.timIdle (h : s₀.Evolves τ s) : s₀.Evolves τ s.timIdle := by
  unfold State.timIdle
  extract_lets s₁
  have h₁ : s₀.Evolves τ s₁ := .timStop h
  exact .same h₁

theorem State.Evolves.timWake (h : s₀.Evolves τ s) : s₀.Evolves τ s.timWake := .timNotes h

theorem State.Evolves.timLose (h : s₀.Evolves τ s) : s₀.Evolves τ s.timLose :=
  .foldl (fun h => .putBit (.putBit (.putBit (.setTim (.foldl (fun h => .setTstream h) h))))) h

theorem State.Evolves.cmpPower (h : s₀.Evolves τ s) {i a b : Nat} : s₀.Evolves τ (s.cmpPower i a b) :=
  .setTim (.winUpdate (.cmpStart (.cmpStart h)))

theorem State.Evolves.cmpRestart (h : s₀.Evolves τ s) {levels : List (Fin 3)} :
    s₀.Evolves τ (s.cmpRestart levels) :=
  .foldl (fun h => .cmpPower h) h

theorem State.Reaches.execTiEdge (h : s₀.Evolves τ s) {i : Fin 64} {b : Fin 2} {up : Bool} {sub : Fin 4096} {c c1 c2
    : Int} :
    s₀.Reaches τ (execTiEdge i b up sub c c1 c2 s) := by
  unfold Machine.execTiEdge
  extract_lets _ _ _ s₁
  have h₁ : s₀.Evolves τ s₁ := .winUpdate (.putBit h)
  exact .ite (.next h) (.ite .fault (.ite .fault (.next (.ite (.winUpdate (.cmpDetermined (.putBit h))) (.ite h
      (.ite h₁ (.timEdge h₁)))))))

theorem State.Reaches.execIntervalPair (h : s₀.Evolves τ s) {i : Fin 64} {e : Fin 2} :
    s₀.Reaches τ (execIntervalPair i e s) := by
  unfold Machine.execIntervalPair
  refine .next ?_
  split
  · exact .ite (.timDrained (.timPair h)) h
  · exact h

theorem State.Reaches.execPairWindowExpiry (h : s₀.Evolves τ s) {i : Fin 64} {e : Fin 2} :
    s₀.Reaches τ (execPairWindowExpiry i e s) := by
  unfold Machine.execPairWindowExpiry
  refine .next ?_
  extract_lets
  split
  · exact .ite (.timUnpaired (.setTstream h)) h
  · exact h

theorem State.Reaches.execNoedge (h : s₀.Evolves τ s) {i : Fin 64} {e : Fin 2} :
    s₀.Reaches τ (execNoedge i e s) := by
  unfold Machine.execNoedge
  refine .next ?_
  extract_lets _ s₁
  have h₁ : s₀.Evolves τ s₁ := .setTstream h
  split
  · exact .ite (.timAlert (.timNote h₁)) h
  · exact h

theorem State.Reaches.execStreamWrite (h : s₀.Evolves τ s) {i : Fin 64} {e : Fin 2} :
    s₀.Reaches τ (execStreamWrite i e s) :=
  .ite (.next h) (.ite (.next (.timMove (.keeps h))) .fault)

theorem State.Reaches.execQueueBatchTimeout (h : s₀.Evolves τ s) {i : Fin 64} {e : Fin 2} :
    s₀.Reaches τ (execQueueBatchTimeout i e s) :=
  .next (.ite h (.ite (.timDrained (.timSend h)) h))

theorem State.Evolves.timStreamOff (h : s₀.Evolves τ s) {i e : Nat} : s₀.Evolves τ (s.timStreamOff i e) :=
  .timTail (.timFlush (.setTstream h))

theorem State.Reaches.execTimStreams (h : s₀.Evolves τ s) {i : Fin 64} {en : BitVec 2} :
    s₀.Reaches τ (execTimStreams i en s) :=
  .next (.foldl (fun h => .ite h (.timStreamOff h)) (.putBit (.putBit h)))

theorem State.Reaches.execTimEnable (h : s₀.Evolves τ s) {i : Fin 64} {on : Bool} :
    s₀.Reaches τ (execTimEnable i on s) := by
  unfold Machine.execTimEnable
  refine .ite (.next h) ?_
  extract_lets s₁ s₂ _ s₃
  have h₁ : s₀.Evolves τ s₁ := .ite h (.parityFree h)
  have h₂ : s₀.Evolves τ s₂ := .putBit (.putBit h₁)
  have h₃ : s₀.Evolves τ s₃ := .putBit (.inlAbandon h₁)
  exact .next (.ite (.ite h₁ (.setTim h₂)) (.ite h₁ (.timDrained (.foldl (fun h => .timStreamOff h) h₃))))

theorem State.Reaches.execTimSRelWrite (h : s₀.Evolves τ s) {i : Fin 64} {e : Fin 2} {v : BitVec 64} :
    s₀.Reaches τ (execTimSRelWrite i e v s) :=
  .ite .fault (.next (.wr h))

theorem State.Evolves.inlStart (h : s₀.Evolves τ s) {i : Nat} : s₀.Evolves τ (s.inlStart i) :=
  .ite h (.calBegin (.setTim (.putBit h)))

theorem State.Reaches.execInlStart (h : s₀.Evolves τ s) {i : Fin 64} : s₀.Reaches τ (execInlStart i s) :=
  .ite .fault (.next (.inlStart h))

theorem State.Reaches.execInjectedEdge (h : s₀.Evolves τ s) {i : Fin 64} {c c1 c2 : Int} :
    s₀.Reaches τ (execInjectedEdge i c c1 c2 s) :=
  .ite (.next h) (.ite .fault (.next (.inlHit h)))

theorem State.Reaches.execCmpThresholdWrite (h : s₀.Evolves τ s) {i : Fin 64} {hyst : Bool} {v : BitVec 32} :
    s₀.Reaches τ (execCmpThresholdWrite i hyst v s) :=
  .ite .fault (.next (.setTim (.putBit (.ite (.setFld (.setFld h)) (.setFld (.setFld h))))))

theorem State.Reaches.execSettlingEnd (h : s₀.Evolves τ s) {i : Fin 64} {a b : Fin 3} :
    s₀.Reaches τ (execSettlingEnd i a b s) :=
  .next (.ite (.ite (.putBit h) (.cmpPower (.putBit h))) (.ite (.cmpPower h) h))

/-! ### The fabric -/

theorem State.Evolves.setTimeState (h : s₀.Evolves τ s) {x : Nat} : s₀.Evolves τ (s.setTimeState x) :=
  .ite h (.raise (.putBit (.setFld (.keeps h))))

theorem State.Evolves.timeFollow (h : s₀.Evolves τ s) {lost : Bool} : s₀.Evolves τ (s.timeFollow lost) := by
  unfold State.timeFollow
  extract_lets _ s₁
  have h₁ : s₀.Evolves τ s₁ := .ite (.setTimeState h) h
  refine .ite (.setTimeState h) ?_
  refine .ite (.setTimeState h) ?_
  split
  · exact .ite (.setTimeState h₁) h₁
  · exact .ite h₁ (.setTimeState h₁)
  · exact h₁
  · exact .ite (.setTimeState h₁) h₁
  · exact .ite h₁ (.setTimeState h₁)

theorem State.Evolves.setFabState (h : s₀.Evolves τ s) {x : Nat} : s₀.Evolves τ (s.setFabState x) := .setFld h

theorem State.Evolves.resendRidge (h : s₀.Evolves τ s) : s₀.Evolves τ s.resendRidge :=
  .ite (.foldl (fun h => .foldl (fun h => .ite (.portSend h) h) h) (.keeps h)) h

theorem State.Evolves.elect (h : s₀.Evolves τ s) {lost : Bool} : s₀.Evolves τ (s.elect lost) := by
  unfold State.elect
  extract_lets _ _ _ s₁ _ _ s₂ s₃ _ s₄ s₅
  have h₁ : s₀.Evolves τ s₁ := .foldl (fun h => .putBit (.putBit h)) h
  have h₂ : s₀.Evolves τ s₂ := .setFld h₁
  have h₃ : s₀.Evolves τ s₃ := .ite (.raise (.wrN h₂)) h₂
  have h₄ : s₀.Evolves τ s₄ := .ite (.same h₃) h₃
  have h₅ : s₀.Evolves τ s₅ := .ite (.setFabState h₄) h₄
  exact .resendRidge (.timeFollow h₅)

theorem State.Evolves.showMember (h : s₀.Evolves τ s) {a uid hops : Nat} : s₀.Evolves τ (s.showMember a uid hops) :=
  .wrN (.wrN h)

theorem State.Evolves.storeLsr (h : s₀.Evolves τ s) {l : Lsr} : s₀.Evolves τ (s.storeLsr l) :=
  .ite (.showMember (.keeps h)) (.raise (.showMember (.keeps h)))

theorem State.Evolves.floodOwn (h : s₀.Evolves τ s) : s₀.Evolves τ s.floodOwn :=
  .ite (.foldl (fun h => .ite (.portSend h) h) (.storeLsr (.keeps h))) h

theorem State.Evolves.dropMember (h : s₀.Evolves τ s) {a : Nat} : s₀.Evolves τ (s.dropMember a) :=
  .raise (.wrN (.wrN (.keeps h)))

theorem State.Evolves.markRoutes (h : s₀.Evolves τ s) : s₀.Evolves τ s.markRoutes := .keeps h

theorem State.Evolves.reroute (h : s₀.Evolves τ s) : s₀.Evolves τ s.reroute :=
  .raise (.markRoutes (.foldl (fun h => .showMember (.setFld h)) (.same (.restrictRegs h))))

theorem State.Evolves.setPort (h : s₀.Evolves τ s) {p st : Nat} : s₀.Evolves τ (s.setPort p st) :=
  .setFport (.setFld h)

theorem State.Evolves.fLaneBit (h : s₀.Evolves τ s) {p b : Nat} {on : Bool} : s₀.Evolves τ (s.fLaneBit p b on) :=
  .putBit (.putBit h)

theorem State.Evolves.altRoutes (h : s₀.Evolves τ s) {p : Nat} : s₀.Evolves τ (s.altRoutes p) :=
  .foldl (fun h => .ite (.setFld h) h) h

theorem State.Evolves.portDark (h : s₀.Evolves τ s) {p : Nat} : s₀.Evolves τ (s.portDark p) :=
  .putBit (.fLaneBit (.fLaneBit (.fLaneBit h)))

theorem State.Evolves.portDrop (h : s₀.Evolves τ s) {p st : Nat} : s₀.Evolves τ (s.portDrop p st) := by
  unfold State.portDrop
  extract_lets _ _ s₁ _ s₂ s₃ s₄ _ s₅ s₆ s₇
  have h₁ : s₀.Evolves τ s₁ := .portDark (.setPort h)
  have h₂ : s₀.Evolves τ s₂ := .setFport h₁
  have h₃ : s₀.Evolves τ s₃ := .bumpSat (.wrN h₂)
  have h₄ : s₀.Evolves τ s₄ := .raise h₃
  have h₅ : s₀.Evolves τ s₅ := .same h₄
  have h₆ : s₀.Evolves τ s₆ := .altRoutes h₅
  have h₇ : s₀.Evolves τ s₇ := .ite h₆ (.setFabState h₆)
  exact .floodOwn (.markRoutes (.elect h₇))

theorem State.Evolves.portTo (h : s₀.Evolves τ s) {p st : Nat} : s₀.Evolves τ (s.portTo p st) :=
  .ite (.portDrop h) (.portDark (.setPort h))

theorem State.Evolves.portFault (h : s₀.Evolves τ s) {p cause : Nat} : s₀.Evolves τ (s.portFault p cause) :=
  .setFld (.portTo h)

theorem State.Evolves.portTrain (h : s₀.Evolves τ s) {p rate : Nat} : s₀.Evolves τ (s.portTrain p rate) :=
  .setFld (.setPort (.fLaneBit (.fLaneBit h)))

theorem State.Evolves.portRetest (h : s₀.Evolves τ s) {p : Nat} : s₀.Evolves τ (s.portRetest p) :=
  .ite (.ite h (.portTo h)) (.ite (.setPort h) h)

theorem State.Reaches.execPortRetest (h : s₀.Evolves τ s) {p : Nat} : s₀.Reaches τ (execPortRetest p s) :=
  .ite .fault (.next (.portRetest h))

theorem State.Evolves.portSignal (h : s₀.Evolves τ s) {p : Nat} : s₀.Evolves τ (s.portSignal p) :=
  .ite (.ite (.setPort h) (.portTrain h)) h

theorem State.Evolves.txDrain {fuel : Nat} (h : s₀.Evolves τ s) {uid vc : Nat} :
    s₀.Evolves τ (State.txDrain uid vc fuel s) := by
  induction fuel generalizing s with
  | zero => exact h
  | succ fuel ih =>
    unfold State.txDrain
    dsimp only
    split
    · exact h
    · exact .ite h (ih (.routeSend (.keeps h)))

theorem State.Evolves.txDrainAll (h : s₀.Evolves τ s) : s₀.Evolves τ s.txDrainAll := .foldl (fun h => .txDrain h) h

theorem State.Evolves.ackTake (h : s₀.Evolves τ s) {uid vc n : Nat} : s₀.Evolves τ (s.ackTake uid vc n) :=
  .ite h (.txDrainAll (.keeps h))

theorem State.Evolves.e2eTake (h : s₀.Evolves τ s) {k : FabPkt} : s₀.Evolves τ (s.e2eTake k).1 := by
  unfold State.e2eTake
  split
  · exact h
  · extract_lets _ _ _ _ _ _ s₁
    have h₁ : s₀.Evolves τ s₁ := .keeps h
    exact .ite h₁ (.bumpSat h₁)

theorem State.Evolves.e2eAcks (h : s₀.Evolves τ s) {k : FabPkt} : s₀.Evolves τ (s.e2eAcks k) := by
  unfold State.e2eAcks
  split
  · exact .ackTake h
  · exact h

theorem State.Evolves.recordGrant (h : s₀.Evolves τ s) {uid a : Nat} : s₀.Evolves τ (s.recordGrant uid a) :=
  .keeps h

theorem State.Evolves.joined (h : s₀.Evolves τ s) {a : Nat} : s₀.Evolves τ (s.joined a) :=
  .resendRidge (.floodOwn (.timeFollow (.setFabState (.raise (.putBit (.wrN h))))))

theorem State.Evolves.requestAddr (h : s₀.Evolves τ s) : s₀.Evolves τ s.requestAddr := .e2eSend (.keeps h)

theorem State.Evolves.addrReqTake (h : s₀.Evolves τ s) {uid src : Nat} {want : Option Nat} :
    s₀.Evolves τ (s.addrReqTake uid src want) := by
  unfold State.addrReqTake
  split
  · exact h
  · exact .e2eSend (.recordGrant h)

theorem State.Evolves.moveRecords (h : s₀.Evolves τ s) {f : Nat → Nat} : s₀.Evolves τ (s.moveRecords f) := by
  unfold State.moveRecords
  extract_lets _ _ _ _ _ s₁ s₂
  have h₁ : s₀.Evolves τ s₁ := .keeps h
  have h₂ : s₀.Evolves τ s₂ := .same h₁
  exact .supMove h₂

theorem State.Evolves.moveTime (h : s₀.Evolves true s) {d : Int} : s₀.Evolves true (s.moveTime d) :=
  .setTimeState (.raise (.wrI (.wr (.foldl (fun h => .ite (.enterLane h) h) (.moveRecords
    (.same (h.withTime (n := timeAdd s.time d) fun _ => timeAdd_lt s.time d)))))))

theorem State.Evolves.autoStep (h : s₀.Evolves true s) : s₀.Evolves true s.autoStep := .ite (.moveTime h) h

theorem State.Evolves.fabSteer (h : s₀.Evolves τ s) {θ : Int} : s₀.Evolves τ (s.fabSteer θ) := .clkSteer (.keeps h)

theorem State.Evolves.thetaTake (h : s₀.Evolves true s) {θ : Int} : s₀.Evolves true (s.thetaTake θ) := by
  unfold State.thetaTake
  extract_lets _ _ _ s₁ s₂ _ s₃
  have h₁ : s₀.Evolves true s₁ := .keeps h
  have h₂ : s₀.Evolves true s₂ := .wrI h₁
  have h₃ : s₀.Evolves true s₃ := .fabSteer h₂
  split
  · exact .ite h₂ (.ite (.setTimeState h₃) (.ite (.setTimeState h₃) (.autoStep (.setTimeState h₃))))
  · exact .autoStep h₂
  · exact .ite (.setTimeState (.fabSteer h₂)) (.fabSteer h₂)
  · exact .ite (.setTimeState (.fabSteer h₂)) (.fabSteer h₂)
  · exact h₂

theorem State.Evolves.timeTake (h : s₀.Evolves true s) {p prevSend arrival t : Nat} :
    s₀.Evolves true (s.timeTake p prevSend arrival t) := by
  unfold State.timeTake
  extract_lets _ s₁
  have h₁ : s₀.Evolves true s₁ := .setFport h
  split
  · exact h₁
  · refine .ite h₁ ?_
    extract_lets _ _ s₂
    have h₂ : s₀.Evolves true s₂ := .wrN h₁
    exact .ite (.thetaTake h₂) h₂

theorem State.Evolves.helloTake (h : s₀.Evolves τ s) {p key addr root dist : Nat} {parent : Bool} :
    s₀.Evolves τ (s.helloTake p key addr root dist parent) :=
  .ite (.elect (.wrN (.setFport h))) (.floodOwn (.elect (.wrN (.setFport h))))

theorem State.Evolves.lsrTake (h : s₀.Evolves τ s) {p : Nat} {k : FabPkt} {l : Lsr} :
    s₀.Evolves τ (s.lsrTake p k l) :=
  .ite (.ite (.bumpSat (.storeLsr h)) (.foldl (fun h => .ite (.portSend h) h) (.storeLsr h))) h

theorem State.Evolves.forward (h : s₀.Evolves τ s) {k : FabPkt} : s₀.Evolves τ (s.forward k) :=
  .ite (.bumpSat h) (.routeSend h)

theorem State.Evolves.pktArrive (h : s₀.Evolves true s) {p : Nat} {k : FabPkt} {sub : Nat} :
    s₀.Evolves true (s.pktArrive p k sub) := by
  unfold State.pktArrive
  split
  · exact .helloTake h
  · exact .timeTake h
  · exact .lsrTake h
  · exact .ridgeArrive h
  · exact .bumpSat h
  · exact .ite h (.forward h)
  · exact .ite (.e2eAcks h) (.forward h)
  · exact .ite (.ite (.addrReqTake (.e2eTake (.e2eAcks h))) (.e2eTake (.e2eAcks h))) (.forward h)
  · exact .ite (.ite (.joined (.e2eTake (.e2eAcks h))) (.e2eTake (.e2eAcks h))) (.forward h)

theorem State.Evolves.fabRest (h : s₀.Evolves τ s) : s₀.Evolves τ s.fabRest :=
  .setTimeState (.setFabState (.wrN (.wrN (.same (.restrictRegs (.foldl (fun h => .portTo h) h))))))

theorem State.Evolves.adaptFLane (h : s₀.Evolves τ s) {l boost : Nat} {dfe : List Int} :
    s₀.Evolves τ (s.adaptFLane l boost dfe)  :=
  .ite (.setFld h) (.wrN (.wrN (.setFld h)))

theorem State.Reaches.execFabEnable (h : s₀.Evolves τ s) {on : Bool} : s₀.Reaches τ (execFabEnable on s) := by
  unfold Machine.execFabEnable
  refine .ite (.next h) ?_
  extract_lets s₁ _ s₂ s₃ s₄ s₅
  have h₁ : s₀.Evolves τ s₁ := .ite h (.parityFree h)
  have h₂ : s₀.Evolves τ s₂ := .same h₁
  have h₃ : s₀.Evolves τ s₃ := .clkSteer (.elect (.setFabState (.putBit h₂)))
  have h₄ : s₀.Evolves τ s₄ := .fabRest h₁
  have h₅ : s₀.Evolves τ s₅ := .wrN (.setFabState h₄)
  exact .next (.ite (.ite h₁ (.foldl (fun h => .portRetest h) h₃)) (.clkSteer (.putBit (.wrN h₅))))

theorem State.Reaches.execFabPortEnable (h : s₀.Evolves τ s) {p : Fin 8} {on : Bool} :
    s₀.Reaches τ (execFabPortEnable p on s)  := by
  unfold Machine.execFabPortEnable
  refine .ite (.next h) ?_
  extract_lets s₁ s₂
  have h₁ : s₀.Evolves τ s₁ := .ite h (.parityFree h)
  have h₂ : s₀.Evolves τ s₂ := .putBit h₁
  exact .ite .fault (.next (.ite (.portRetest h₂) (.portTo h₂)))

theorem State.Reaches.execSignalDetect (h : s₀.Evolves τ s) {p : Fin 8} : s₀.Reaches τ (execSignalDetect p s) :=
  .ite .fault (.next (.portSignal (.wakeBy h)))

theorem State.Reaches.execPortTrainDone (h : s₀.Evolves τ s) {p : Fin 8} {boost : List Nat} {dfe : List (List Int)}
    :
    s₀.Reaches τ (execPortTrainDone p boost dfe s) :=
  .next (.ite (.setPort (.fLaneBit (.fLaneBit (.foldl (fun h => .adaptFLane h) h)))) h)

theorem State.Reaches.execPortTrainTimeout (h : s₀.Evolves τ s) {p : Fin 8} :
    s₀.Reaches τ (execPortTrainTimeout p s) :=
  .next (.ite (.ite (.portTrain h) (.portFault h)) h)

theorem State.Reaches.execPortAlignDone (h : s₀.Evolves τ s) {p : Fin 8} : s₀.Reaches τ (execPortAlignDone p s) :=
  .next (.ite (.putBit (.setPort (.fLaneBit h))) h)

theorem State.Reaches.execPortAlignTimeout (h : s₀.Evolves τ s) {p : Fin 8} :
    s₀.Reaches τ (execPortAlignTimeout p s) :=
  .next (.ite (.portFault h) h)

theorem State.Reaches.execPortInitDone (h : s₀.Evolves τ s) {p : Fin 8} : s₀.Reaches τ (execPortInitDone p s) := by
  unfold Machine.execPortInitDone
  refine .next (.ite ?_ h)
  extract_lets _ _ s₁ _ s₂
  have h₁ : s₀.Evolves τ s₁ := .raise (.setPort (.setFport h))
  have h₂ : s₀.Evolves τ s₂ := .ite (.setFabState (.same h₁)) h₁
  exact .floodOwn h₂

theorem State.Reaches.execPortInitTimeout (h : s₀.Evolves τ s) {p : Fin 8} :
    s₀.Reaches τ (execPortInitTimeout p s) :=
  .next (.ite (.portFault h) h)

theorem State.Reaches.execPortFaultEnd (h : s₀.Evolves τ s) {p : Fin 8} : s₀.Reaches τ (execPortFaultEnd p s) :=
  .next (.ite (.setPort h) h)

theorem State.Reaches.execPortLinkLost (h : s₀.Evolves τ s) {p : Fin 8} : s₀.Reaches τ (execPortLinkLost p s) :=
  .next (.ite (.portDrop h) h)

theorem State.Reaches.execFreqOfsFault (h : s₀.Evolves τ s) {x : OffsetChange} :
    s₀.Reaches τ (execFreqOfsFault x s) := by
  unfold Machine.execFreqOfsFault
  extract_lets _ _ _ _ s₁ s₂
  have h₁ : s₀.Evolves τ s₁ := .putBit h
  have h₂ : s₀.Evolves τ s₂ := .putBit h₁
  exact .next (.ite (.laneOffset h) (.ite h (.ite h₁ (.ite (.portDrop h₂) h₂))))

theorem State.Reaches.execReplayStall (h : s₀.Evolves τ s) {p : Fin 8} : s₀.Reaches τ (execReplayStall p s) := by
  unfold Machine.execReplayStall
  refine .next ?_
  split
  · exact .ite (.portFault h) h
  · exact h

theorem State.Reaches.execHelloSend (h : s₀.Evolves τ s) {p : Fin 8} : s₀.Reaches τ (execHelloSend p s) :=
  .next (.ite (.portSend (.setFport h)) h)

theorem State.Evolves.arriveIf (h : s₀.Evolves true s) {p : Nat} {k : FabPkt} {ty sub : Nat} :
    s₀.Evolves true (s.arriveIf p k ty sub) :=
  .ite (.pktArrive h) h

theorem State.Reaches.execHelloPacket (h : s₀.Evolves true s) {p : Fin 8} {k : FabPkt} :
    s₀.Reaches true (execHelloPacket p k s)  :=
  .next (.arriveIf h)

theorem State.Reaches.execElectStable (h : s₀.Evolves τ s) : s₀.Reaches τ (execElectStable s) := by
  unfold Machine.execElectStable
  refine .next (.ite ?_ h)
  refine .ite ?_ (.requestAddr (.setFabState h))
  split
  · exact .joined (.recordGrant h)
  · exact h

theorem State.Reaches.execAddrReq (h : s₀.Evolves true s) {p : Fin 8} {k : FabPkt} :
    s₀.Reaches true (execAddrReq p k s) :=
  .next (.arriveIf h)

theorem State.Reaches.execAddrGrant (h : s₀.Evolves true s) {p : Fin 8} {k : FabPkt} :
    s₀.Reaches true (execAddrGrant p k s) :=
  .next (.arriveIf h)

theorem State.Reaches.execAddrReqResend (h : s₀.Evolves τ s) : s₀.Reaches τ (execAddrReqResend s) :=
  .next (.ite (.requestAddr (.ite (.putBit h) h)) h)

theorem State.Reaches.execAddrHoldExpiry (h : s₀.Evolves τ s) : s₀.Reaches τ (execAddrHoldExpiry s) :=
  .next (.keeps h)

theorem State.Reaches.execLsrPacket (h : s₀.Evolves true s) {p : Fin 8} {k : FabPkt} :
    s₀.Reaches true (execLsrPacket p k s) :=
  .next (.arriveIf h)

theorem State.Reaches.execLsrFloodTimer (h : s₀.Evolves τ s) : s₀.Reaches τ (execLsrFloodTimer s) :=
  .next (.ite (.floodOwn (.keeps h)) h)

theorem State.Reaches.execMemberAgeOut (h : s₀.Evolves τ s) {a : Fin 1024} :
    s₀.Reaches τ (execMemberAgeOut a s) := by
  unfold Machine.execMemberAgeOut
  refine .next ?_
  split
  · exact h
  · exact .ite (.dropMember h) h

theorem State.Reaches.execFabRoute (h : s₀.Evolves τ s) : s₀.Reaches τ (execFabRoute s) :=
  .next (.ite (.reroute h) h)

theorem State.Reaches.execE2eAck (h : s₀.Evolves true s) {p : Fin 8} {k : FabPkt} :
    s₀.Reaches true (execE2eAck p k s) :=
  .next (.arriveIf h)

theorem State.Reaches.execE2eAckSend (h : s₀.Evolves τ s) {uid : BitVec 56} {vc : Fin 3} :
    s₀.Reaches τ (execE2eAckSend uid vc s) := by
  unfold Machine.execE2eAckSend
  refine .next ?_
  split
  · exact .routeSend (.keeps h)
  · exact h

theorem State.Reaches.execE2eRto (h : s₀.Evolves τ s) {uid : BitVec 56} {vc : Fin 3} :
    s₀.Reaches τ (execE2eRto uid vc s) := by
  unfold Machine.execE2eRto
  refine .next ?_
  extract_lets _ _ _ s₁
  have h₁ : s₀.Evolves τ s₁ := .keeps h
  split
  · exact h
  · exact .ite (.markRoutes (.foldl (fun h => .routeSend h) h₁)) h

theorem State.Reaches.execFabUnreach (h : s₀.Evolves τ s) {uid : BitVec 56} {vc : Fin 3} :
    s₀.Reaches τ (execFabUnreach uid vc s)  :=
  .next (.ite h (.txDrainAll (.latchRaise (.bumpSat (.keeps h)))))

theorem State.Reaches.execTimeSend (h : s₀.Evolves τ s) {p : Fin 8} {sub : Fin 4096} :
    s₀.Reaches τ (execTimeSend p sub s) :=
  .next (.ite (.ite (.setFport (.portSend (.setFport h))) (.portSend (.setFport h))) h)

theorem State.Reaches.execTimePacket (h : s₀.Evolves true s) {p : Fin 8} {k : FabPkt} {sub : Fin 4096} :
    s₀.Reaches true (execTimePacket p k sub s) :=
  .next (.arriveIf h)

theorem State.Reaches.execFabStep (h : s₀.Evolves true s) : s₀.Reaches true (execFabStep s) := .next (.moveTime h)

theorem State.Reaches.execFabHoldMax (h : s₀.Evolves τ s) : s₀.Reaches τ (execFabHoldMax s) :=
  .next (.ite (.setTimeState h) h)

theorem State.Reaches.execRlHoldExpiry (h : s₀.Evolves τ s) {src : Fin 1024} :
    s₀.Reaches τ (execRlHoldExpiry src s) :=
  .next (.ridgeSkip h)

/-! ### Clock commands -/

theorem State.Evolves.bypassBegins (h : s₀.Evolves τ s) {k : Nat} : s₀.Evolves τ (s.bypassBegins k) := by
  unfold State.bypassBegins
  extract_lets s₁
  have h₁ : s₀.Evolves τ s₁ := .ite (.timeFollow (.ccsClock (.timBypass h))) h
  exact .ite (.memRest h₁) h₁

theorem State.Evolves.clkFall (h : s₀.Evolves τ s) {k : Nat} {count : Bool} : s₀.Evolves τ (s.clkFall k count) := by
  unfold State.clkFall
  extract_lets _ _ s₁ s₂ s₃
  have h₁ : s₀.Evolves τ s₁ := .ite (.spxFall h) h
  have h₂ : s₀.Evolves τ s₂ := .ite (.spxDegrade h₁) h₁
  have h₃ : s₀.Evolves τ s₃ := .foldl (fun h => .ite (.putBit (.bumpSat (.pllBypass h))) (.pllBypass h)) h₂
  exact .supRate (.foldl (fun h => .bypassBegins h) h₃)

theorem State.Evolves.clkSource (h : s₀.Evolves τ s) : s₀.Evolves τ s.clkSource :=
  .foldl (fun h => .ite (.putBit h) h) h

theorem State.Evolves.bandUse (h : s₀.Evolves τ s) {k j : Nat} : s₀.Evolves τ (s.bandUse k j) :=
  .dite (fun _ => .keeps h) (fun _ => h)

theorem State.Evolves.bandLock (h : s₀.Evolves τ s) {k : Nat} : s₀.Evolves τ (s.bandLock k) := by
  unfold State.bandLock
  extract_lets _ _ _ s₁
  have h₁ : s₀.Evolves τ s₁ := .wrN h
  split
  · exact .bandUse (.putBit h)
  · exact .bandUse (.putBit h₁)

theorem State.Evolves.bandClear (h : s₀.Evolves τ s) {k : Nat} : s₀.Evolves τ (s.bandClear k) := by
  unfold State.bandClear
  extract_lets s₁
  have h₁ : s₀.Evolves τ s₁ := .foldl (fun h => .wrN h) h
  exact .dite (fun _ => .same h₁) (fun _ => h₁)

theorem State.Evolves.toEpoch (h : s₀.Evolves true s) : s₀.Evolves true s.toEpoch :=
  .ite (.pass (.keeps h)) (h.withClock fun _ => by decide)

theorem State.Evolves.clkEnter (h : s₀.Evolves τ s) {ks : List Nat} : s₀.Evolves τ (s.clkEnter ks) := by
  unfold State.clkEnter
  extract_lets _ s₁ _ s₂ s₃ s₄ s₅
  have h₁ : s₀.Evolves τ s₁ := .supRate (.foldl (fun h => .putBit (.pllSet h)) h)
  have h₂ : s₀.Evolves τ s₂ := .ite (.wrI (.same h₁)) h₁
  have h₃ : s₀.Evolves τ s₃ := .foldl (fun h => .raise (.bandLock (.wr h))) h₂
  have h₄ : s₀.Evolves τ s₄ := .ite (.spxRelock h₃) h₃
  have h₅ : s₀.Evolves τ s₅ := .ite (.timeFollow (.timRelock h₄)) h₄
  exact .ite (.memLocked h₅) h₅

theorem State.Evolves.clkMeets (h : s₀.Evolves true s) {k : Fin 6} {word : Nat} :
    s₀.Evolves true (s.clkMeets k word) :=
  .ite (.ite (.clkEnter (.toEpoch (.keeps h))) (.keeps h)) (.clkEnter (.keeps h))

theorem State.Reaches.execRefLost (h : s₀.Evolves τ s) : s₀.Reaches τ (execRefLost s) := by
  unfold Machine.execRefLost
  refine .next (.ite ?_ h)
  extract_lets _ s₁ s₂ s₃
  have h₁ : s₀.Evolves τ s₁ := .bumpSat (.putBit (.putBit h))
  have h₂ : s₀.Evolves τ s₂ := .raise (.wrI h₁)
  have h₃ : s₀.Evolves τ s₃ := .foldl (fun h => .ite (.pllSet h) (.ite (.pllSet h) h)) h₂
  exact .supRate (.clkSource h₃)

theorem State.Reaches.execRefBack (h : s₀.Evolves τ s) {far : BitVec 6} : s₀.Reaches τ (execRefBack far s) := by
  unfold Machine.execRefBack
  refine .next (.ite h ?_)
  extract_lets _ s₁
  have h₁ : s₀.Evolves τ s₁ := .supRate (.clkSource (.raise (.putBit h)))
  exact .foldl (fun h => .ite (.ite (.clkFall h) (.pllSet h)) h) h₁

theorem State.Reaches.execClkLock (h : s₀.Evolves true s) {k : Fin 6} {word : BitVec 24} :
    s₀.Reaches true (execClkLock k word s)  :=
  .next (.ite (.clkMeets h) h)

theorem State.Reaches.execClkUnlock (h : s₀.Evolves τ s) {k : Fin 6} : s₀.Reaches τ (execClkUnlock k s) :=
  .next (.ite (.clkFall h) h)

theorem State.Reaches.execSlewDone (h : s₀.Evolves τ s) {k : Fin 6} : s₀.Reaches τ (execSlewDone k s) :=
  .next (.ite (.pllSet (.ite (.wrI h) h)) h)

theorem State.Reaches.execClkOffsetWrite (h : s₀.Evolves τ s) {who : Fin 8} {v : BitVec 24} {stands : Int} :
    s₀.Reaches τ (execClkOffsetWrite who v stands s) :=
  .next (.ite (.flag h) (.clkSteer (.wrN (.ite (.wrI h) h))))

theorem State.Reaches.execBandClear (h : s₀.Evolves τ s) {k : Fin 6} : s₀.Reaches τ (execBandClear k s) :=
  .next (.bandClear h)

/-! ### Scan-out -/

theorem State.Evolves.setScn (h : s₀.Evolves τ s) {x : Scn} : s₀.Evolves τ (s.setScn x) := .keeps h

theorem State.Evolves.scnRefuse (h : s₀.Evolves τ s) {cause : Nat} : s₀.Evolves τ (s.scnRefuse cause) :=
  .raise (.setScn (.setFld h))

theorem State.Evolves.glLocked (h : s₀.Evolves τ s) {on : Bool} : s₀.Evolves τ (s.glLocked on) :=
  .ite h (.raise (.putBit h))

theorem State.Evolves.scnTrain (h : s₀.Evolves τ s) {what : Nat} : s₀.Evolves τ (s.scnTrain what) :=
  .send (.setScn h)

theorem State.Evolves.scnRetrain (h : s₀.Evolves τ s) {what : Nat} : s₀.Evolves τ (s.scnRetrain what) :=
  .scnTrain (.raise h)

theorem State.Evolves.glReset (h : s₀.Evolves τ s) : s₀.Evolves τ s.glReset :=
  .setScn (.wrI (.putBit (.glLocked h)))

theorem State.Evolves.scnEnable (h : s₀.Evolves τ s) : s₀.Evolves τ s.scnEnable := by
  unfold State.scnEnable
  extract_lets s₁ _ s₂
  have h₁ : s₀.Evolves τ s₁ := .setFld (.putBit h)
  have h₂ : s₀.Evolves τ s₂ := .glReset (.pllStart (.pllTarget h₁))
  exact .ite (.setScn h₁) (.ite (.scnRefuse h₁) (.ite (.scnRefuse h₁) (.scnTrain (.send h₂))))

theorem State.Reaches.execScnEnable (h : s₀.Evolves τ s) : s₀.Reaches τ (execScnEnable s) :=
  .ite (.next h) (.ite (.next (.scnEnable h)) (.ite .fault (.ite .fault (.next (.scnEnable h)))))

theorem State.Evolves.scnDisable (h : s₀.Evolves τ s) : s₀.Evolves τ s.scnDisable :=
  .ite (.setScn (.setScn (.putBit h))) (.setScn (.putBit (.setScn (.putBit h))))

theorem State.Reaches.execScnDisable (h : s₀.Evolves τ s) : s₀.Reaches τ (execScnDisable s) :=
  .next (.scnDisable (.parityFree h))

theorem State.Evolves.scnHandover (h : s₀.Evolves τ s) : s₀.Evolves τ s.scnHandover :=
  .ite (.bump (.putBit (.setScn h))) h

theorem State.Reaches.execEdpLinkTrained (h : s₀.Evolves τ s) {e : TrainEnd} {psr msa : Bool} :
    s₀.Reaches τ (execEdpLinkTrained e psr msa s) := by
  unfold Machine.execEdpLinkTrained
  refine .ite ?_ (.next h)
  extract_lets _ s₁
  have h₁ : s₀.Evolves τ s₁ := .setScn h
  exact .ite (.next (.scnRefuse h₁)) (.ite (.next (.ite h₁ (.scnRefuse h₁))) (.next (.setScn (.putBit h₁))))

theorem State.Reaches.execScnCommit (h : s₀.Evolves τ s) : s₀.Reaches τ (execScnCommit s) :=
  .next (.setScn (.putBit h))

theorem State.Evolves.psrEnter (h : s₀.Evolves τ s) : s₀.Evolves τ s.psrEnter := .ite (.setScn h) h

theorem State.Reaches.execPsrEnter (h : s₀.Evolves τ s) : s₀.Reaches τ (execPsrEnter s) := .next (.psrEnter h)

theorem State.Evolves.psrExit (h : s₀.Evolves τ s) : s₀.Evolves τ s.psrExit := .ite (.scnRetrain (.setScn h)) h

theorem State.Reaches.execPsrExit (h : s₀.Evolves τ s) : s₀.Reaches τ (execPsrExit s) := .next (.psrExit h)

theorem State.Reaches.execTraceReset (h : s₀.Evolves τ s) {mask : BitVec 8} :
    s₀.Reaches τ (execTraceReset mask s) :=
  .next (.setScn h)

theorem State.Evolves.psrActive (h : s₀.Evolves τ s) : s₀.Evolves τ s.psrActive :=
  .raise (.putBit (.setScn (.copyEnds h)))

theorem State.Evolves.underrun (h : s₀.Evolves τ s) {n : Nat} : s₀.Evolves τ (s.underrun n) :=
  .ite h (.latchRaise (.bumpSat h))

theorem State.Reaches.execLineStart (h : s₀.Evolves τ s) {n : Fin 4096} {late : List (Nat × Nat)} :
    s₀.Reaches τ (execLineStart n late s) := by
  unfold Machine.execLineStart
  refine .ite ?_ (.next h)
  extract_lets s₁ r₂ _ s₃
  have h₁ : s₀.Evolves τ s₁ := .underrun h
  have h₂ : s₀.Evolves τ r₂.2 := .draw h₁
  have h₃ : s₀.Evolves τ s₃ := .setScn h₂
  exact .next (.ite (.send h₃) h₃)

theorem State.Evolves.traceCopy (h : s₀.Evolves τ s) : s₀.Evolves τ s.traceCopy := .setScn (.copyEnds h)

theorem State.Evolves.frameDecay (h : s₀.Evolves τ s) : s₀.Evolves τ s.frameDecay :=
  .foldl (fun h => .ite (.decayEvent h) h) h

theorem State.Evolves.sample (h : s₀.Evolves τ s) : s₀.Evolves τ s.sample := by
  unfold State.sample
  extract_lets s₁ _ s₂ s₃
  have h₁ : s₀.Evolves τ s₁ := .ite (.frameDecay h) h
  have h₂ : s₀.Evolves τ s₂ := .traceCopy (.scnHandover (.copyEnds h₁))
  have h₃ : s₀.Evolves τ s₃ := .ite (.send h₂) h₂
  exact .setScn h₃

theorem State.Reaches.execSamplingPoint (h : s₀.Evolves τ s) : s₀.Reaches τ (execSamplingPoint s) :=
  .ite (.ite .fault (.next (.sample h))) (.next h)

theorem State.Reaches.execExtendedLineEnd (h : s₀.Evolves τ s) : s₀.Reaches τ (execExtendedLineEnd s) :=
  .ite (.ite .fault (.next (.setScn (.traceCopy (.scnHandover (.copyEnds h)))))) (.next h)

theorem State.Evolves.psrLeft (h : s₀.Evolves τ s) : s₀.Evolves τ s.psrLeft :=
  .raise (.setScn (.putBit (.traceCopy (.scnHandover h))))

theorem State.Evolves.scnFlip (h : s₀.Evolves τ s) {ts : Stamp} : s₀.Evolves τ (s.scnFlip ts) :=
  .raiseTs (.wr (.wr (.wrN (.setScn h))))

theorem State.Evolves.frameStart (h : s₀.Evolves τ s) {late : Nat} : s₀.Evolves τ (s.frameStart late) := by
  unfold State.frameStart
  extract_lets s₁ _ s₂ s₃ s₄ s₅ _ s₆ s₇ s₈
  have h₁ : s₀.Evolves τ s₁ := .wrN h
  have h₂ : s₀.Evolves τ s₂ := .ite (.psrLeft h₁) h₁
  have h₃ : s₀.Evolves τ s₃ := .copyEnds h₂
  have h₄ : s₀.Evolves τ s₄ := .ite (.scnFlip h₃) h₃
  have h₅ : s₀.Evolves τ s₅ := .ite (.raiseTs h₄) h₄
  have h₆ : s₀.Evolves τ s₆ := .underrun h₅
  have h₇ : s₀.Evolves τ s₇ := .ite h₆ (.bumpSat h₆)
  have h₈ : s₀.Evolves τ s₈ := .ite (.send h₇) h₇
  exact .setScn h₈

theorem State.Reaches.execFrameStart (h : s₀.Evolves τ s) {late : BitVec 8} :
    s₀.Reaches τ (execFrameStart late s) := by
  unfold Machine.execFrameStart
  refine .ite ?_ (.next h)
  refine .ite ?_ (.ite (.next (.psrActive h)) (.ite .fault (.next (.frameStart h))))
  extract_lets _ s₁
  have h₁ : s₀.Evolves τ s₁ := .setScn h
  exact .next (.putBit h₁)

theorem State.Reaches.execIrqHpd (h : s₀.Evolves τ s) {lost : Bool} : s₀.Reaches τ (execIrqHpd lost s) :=
  .next (.ite (.scnRetrain (.bumpSat (.send (.raise h)))) (.send (.raise h)))

theorem State.Reaches.execHpdLost (h : s₀.Evolves τ s) : s₀.Reaches τ (execHpdLost s) :=
  .next (.ite (.setScn h) (.raise (.putBit (.setScn h))))

theorem State.Reaches.execHpdReturn (h : s₀.Evolves τ s) : s₀.Reaches τ (execHpdReturn s) := by
  unfold Machine.execHpdReturn
  extract_lets _ s₁ s₂
  have h₁ : s₀.Evolves τ s₁ := .setScn h
  have h₂ : s₀.Evolves τ s₂ := .raise (.putBit h₁)
  exact .next (.ite (.ite (.scnRetrain h₂) h₂) h₁)

theorem State.Evolves.genlock (h : s₀.Evolves τ s) {t : Nat} : s₀.Evolves τ (s.genlock t) := by
  unfold State.genlock
  extract_lets _ _ _ _ _ s₁ s₂ _ s₃ s₄
  have h₁ : s₀.Evolves τ s₁ := .wrI (.wrI h)
  have h₂ : s₀.Evolves τ s₂ := .putBit (.putBit h₁)
  have h₃ : s₀.Evolves τ s₃ := .setScn h₂
  have h₄ : s₀.Evolves τ s₄ := .ite (.glLocked h₃) (.ite (.glLocked h₃) h₃)
  exact .pllTarget h₄

theorem State.Reaches.execVsyncInEdge (h : s₀.Evolves τ s) : s₀.Reaches τ (execVsyncInEdge s) :=
  .next (.ite (.ite (.genlock h) (.setScn (.putBit h))) h)

theorem State.Reaches.execScnVsyncLost (h : s₀.Evolves τ s) : s₀.Reaches τ (execScnVsyncLost s) :=
  .next (.ite (.raise (.putBit h)) h)

theorem State.Evolves.scnRestBegins (h : s₀.Evolves τ s) : s₀.Evolves τ s.scnRestBegins :=
  .ite (.setScn (.psrEnter h)) h

theorem State.Evolves.scnPowerDown (h : s₀.Evolves τ s) : s₀.Evolves τ s.scnPowerDown := .ite (.setScn h) h

theorem State.Evolves.scnDoze (h : s₀.Evolves τ s) : s₀.Evolves τ s.scnDoze :=
  .ite (.setScn h) (.setScn (.putBit (.copyEnds h)))

theorem State.Evolves.scnDozeLeft (h : s₀.Evolves τ s) : s₀.Evolves τ s.scnDozeLeft :=
  .ite (.psrExit (.setScn h)) (.ite (.scnRetrain (.setScn h)) (.setScn h))

theorem State.Evolves.scnPowerUp (h : s₀.Evolves τ s) : s₀.Evolves τ s.scnPowerUp :=
  .ite (.psrExit (.setScn h)) (.ite (.scnRetrain h) h)

/-! ### Lantern core state -/

theorem State.Evolves.setCore (h : s₀.Evolves τ s) {k : Nat} {c : LntCore} : s₀.Evolves τ (s.setCore k c) :=
  .dite (fun _ => .keeps h) (fun _ => h)

theorem State.Evolves.setLntState (h : s₀.Evolves τ s) {k x : Nat} : s₀.Evolves τ (s.setLntState k x) := .setFld h

theorem State.Evolves.lntStore (h : s₀.Evolves τ s) {k : Nat} {y : Bool} {a v : Nat} :
    s₀.Evolves τ (s.lntStore k y a v) :=
  .wrBytes h

theorem State.Evolves.lntStores {vs : List Nat} (h : s₀.Evolves τ s) {k a : Nat} {y : Bool} :
    s₀.Evolves τ (s.lntStores k y a vs) := by
  induction vs generalizing s a with
  | nil => exact h
  | cons v r ih => exact .ite (ih (.lntStore h)) h

theorem State.Evolves.lntWrite (h : s₀.Evolves τ s) {k : Nat} {w : LntWrite} : s₀.Evolves τ (s.lntWrite k w) := by
  unfold State.lntWrite
  refine .ite (.setCore h) ?_
  refine .ite (.setCore h) ?_
  refine .ite (.setCore h) ?_
  refine .ite (.setCore h) ?_
  refine .ite (.setCore h) ?_
  refine .ite (.setCore h) ?_
  refine .ite ?_ (.ite (.setCore h) (.setCore h))
  split
  · exact .wrN h
  · exact .setCore h
  · exact .setCore h
  · exact .setCore h
  · exact .setCore h
  · exact .setCore h
  · exact h

theorem State.Evolves.landAll {fuel : Nat} (h : s₀.Evolves τ s) {k : Nat} {ws : List LntWrite} :
    s₀.Evolves τ (State.landAll k fuel ws s) := by
  induction fuel generalizing s ws with
  | zero => exact h
  | succ fuel ih =>
    cases ws with
    | nil => exact h
    | cons w r =>
      refine ih ?_
      have hdrawn (c : Prop) [Decidable c] (x y : Option LntWrite) :
          s₀.Evolves τ (if c then (s, x) else (s.draw.2, y)).1 := by
        split
        · exact h
        · exact .draw h
      split
      · exact .lntWrite (hdrawn _ _ _)
      · exact hdrawn _ _ _

theorem State.Evolves.moveStore (h : s₀.Evolves τ s) {r : State} {k f : Nat} {y : Bool} :
    s₀.Evolves τ (s.moveStore r k y f) := .ite (.lntStore h) h

/-! ### Lantern words -/

theorem State.Evolves.setHeld (h : s₀.Evolves τ s) {p : Nat} {ts : List LntTask} : s₀.Evolves τ (s.setHeld p ts) :=
  .wrN (.dite (fun _ => .keeps h) (fun _ => h))

theorem State.Evolves.mapTask (h : s₀.Evolves τ s) {k : Nat} {f : LntTask → LntTask} :
    s₀.Evolves τ (s.mapTask k f) := by
  unfold State.mapTask
  split
  · exact .setHeld h
  · exact h

theorem State.Evolves.unreserve (h : s₀.Evolves τ s) {q : Nat} : s₀.Evolves τ (s.unreserve q) := by
  unfold State.unreserve
  split
  · exact .setQueue h
  · exact h

theorem State.Evolves.retireOne (h : s₀.Evolves τ s) {p : Nat} {t : LntTask} {rest : List LntTask} :
    s₀.Evolves τ (s.retireOne p t rest) := by
  unfold State.retireOne
  extract_lets s₁
  have h₁ : s₀.Evolves τ s₁ := .wrN (.setHeld h)
  split
  · exact .setHead h₁
  · exact h₁

theorem State.Evolves.retireDead {fuel : Nat} (h : s₀.Evolves τ s) {p : Nat} :
    s₀.Evolves τ (State.retireDead p fuel s) := by
  induction fuel generalizing s with
  | zero => exact h
  | succ fuel ih =>
    unfold State.retireDead
    split
    · exact .ite (ih (.retireOne h)) h
    · exact h

theorem State.Evolves.taskFault (h : s₀.Evolves τ s) {k : Nat} : s₀.Evolves τ (s.taskFault k) := by
  unfold State.taskFault
  split
  · extract_lets s₁ _ s₂ s₃
    have h₁ : s₀.Evolves τ s₁ := .foldl (fun h => .unreserve h) h
    have h₂ : s₀.Evolves τ s₂ := .enqueue h₁
    have h₃ : s₀.Evolves τ s₃ := .wrN (.bumpSat h₂)
    exact .ite (.retireDead (.mapTask h₃)) (.mapTask h₁)
  · exact h

theorem State.Evolves.lntHalt (h : s₀.Evolves τ s) {k cause : Nat} : s₀.Evolves τ (s.lntHalt k cause) := by
  unfold State.lntHalt
  extract_lets s₁ _ s₂ s₃ s₄
  have h₁ : s₀.Evolves τ s₁ := .setFld (.setLntState h)
  have h₂ : s₀.Evolves τ s₂ := .setCore h₁
  have h₃ : s₀.Evolves τ s₃ := .wr h₂
  have h₄ : s₀.Evolves τ s₄ := .ite h₃ (.raise h₃)
  exact .taskFault h₄

theorem State.Evolves.lntOff (h : s₀.Evolves τ s) {k : Nat} : s₀.Evolves τ (s.lntOff k) := .setLntState (.setCore h)

theorem State.Evolves.lntPost (h : s₀.Evolves τ s) {k v : Nat} : s₀.Evolves τ (s.lntPost k v) :=
  .ite (.setLntState (.setCore h)) (.setCore h)

theorem State.Evolves.lntCycles (h : s₀.Evolves τ s) {k n : Nat} : s₀.Evolves τ (s.lntCycles k n) :=
  .ite (.bump (.setCore h)) (.setCore h)

theorem State.Evolves.setLntPc (h : s₀.Evolves τ s) {k a : Nat} : s₀.Evolves τ (s.setLntPc k a) := .wrN h

theorem State.Evolves.lntPopAddr (h : s₀.Evolves τ s) {k a : Nat} {t : State} (hpop : s.lntPopAddr k = some (a, t)) :
    s₀.Evolves τ t := by
  unfold State.lntPopAddr at hpop
  dsimp only at hpop
  split at hpop
  · cases hpop
  · cases hpop
    exact .setCore h
  · cases hpop
    exact .setCore (.draw h)

theorem State.Evolves.lntPopSr (h : s₀.Evolves τ s) {k a : Nat} {t : State} (hpop : s.lntPopSr k = some (a, t)) :
    s₀.Evolves τ t := by
  unfold State.lntPopSr at hpop
  dsimp only at hpop
  split at hpop
  · cases hpop
  · cases hpop
    exact .setCore h
  · cases hpop
    exact .setCore (.draw h)

theorem State.Evolves.lntPopLoop (h : s₀.Evolves τ s) {k : Nat} : s₀.Evolves τ (s.lntPopLoop k) := by
  unfold State.lntPopLoop
  extract_lets
  split
  · exact .lntHalt h
  · exact .setLntPc (.setFld (.setCore h))
  · exact .setLntPc (.setFld (.setCore (.draw h)))

theorem State.Evolves.lntSeq (h : s₀.Evolves τ s) {k : Nat} : s₀.Evolves τ (s.lntSeq k) :=
  .ite (.ite (.lntPopLoop h) (.setLntPc (.setCore h))) (.setLntPc h)

theorem State.Evolves.lntAdvance (h : s₀.Evolves τ s) {k : Nat} : s₀.Evolves τ (s.lntAdvance k) := by
  unfold State.lntAdvance
  extract_lets _ s₁
  have h₁ : s₀.Evolves τ s₁ := .setCore h
  refine .ite (.setLntPc (.setCore h)) ?_
  refine .ite ?_ (.ite (.setCore h) (.ite (.lntSeq (.putBit (.setCore h))) (.lntSeq h)))
  split
  · exact .setLntPc h₁
  · exact .setLntPc h₁
  · exact .wrN (.setLntPc h₁)

theorem State.Evolves.lntBoundary (h : s₀.Evolves τ s) {k : Nat} : s₀.Evolves τ (s.lntBoundary k) :=
  .ite (.lntOff h) h

theorem State.Evolves.lntLand (h : s₀.Evolves τ s) {k : Nat} {now next : List LntWrite} {flags : Option Nat} {lim :
    Bool} :
    s₀.Evolves τ (s.lntLand k now next flags lim) := by
  unfold State.lntLand
  extract_lets s₁ _ _ s₂ s₃
  have h₁ : s₀.Evolves τ s₁ := .lntCycles h
  have h₂ : s₀.Evolves τ s₂ := .landAll (.setCore h₁)
  have h₃ : s₀.Evolves τ s₃ := by
    unfold s₃
    split
    · exact .setFld h₂
    · exact h₂
  exact .ite (.putBit h₃) h₃

theorem State.Evolves.lntBranch (h : s₀.Evolves τ s) {k : Nat} {t : Option (Nat × Option Nat)} :
    s₀.Evolves τ (s.lntBranch k t) :=
  .setCore h

theorem State.Evolves.lntCorrect (h : s₀.Evolves τ s) {k n : Nat} : s₀.Evolves τ (s.lntCorrect k n) :=
  .ite h (.sramCorrected (.bumpSat h))

theorem State.Evolves.lntDouble (h : s₀.Evolves τ s) {k : Nat} : s₀.Evolves τ (s.lntDouble k) :=
  .lntHalt (.sramDouble (.draw h))

theorem State.Reaches.lntRun (h : s₀.Evolves τ s) {k : Nat} {ecc : LntEcc} {isIt : Nat → Bool}
    {act : Nat → State → State} (hact : ∀ {w : Nat} {t : State}, s₀.Evolves τ t → s₀.Evolves τ (act w t)) :
    s₀.Reaches τ (s.lntRun k ecc isIt act) := by
  refine .ite (.ite (.next (.lntDouble h)) ?_) (.next h)
  split
  · exact .fault
  · exact .ite (.next (hact (.lntCorrect h))) (.next h)

theorem State.Evolves.parallelAct (h : s₀.Evolves τ s) {k w : Nat} {f : AluIn → AluOut} :
    s₀.Evolves τ (s.parallelAct k w f) := .lntBoundary (.lntAdvance (.lntLand (.moveStore (.moveStore h))))

theorem State.Reaches.parallel (h : s₀.Evolves τ s) {k : Nat} {ecc : LntEcc} {op : Nat} {f : AluIn → AluOut} :
    s₀.Reaches τ (s.parallel k ecc op f) :=
  .lntRun h (fun h => .parallelAct h)

theorem State.Evolves.lntDone (h : s₀.Evolves τ s) {k : Nat} : s₀.Evolves τ (s.lntDone k) :=
  .lntBoundary (.lntAdvance h)

theorem State.Evolves.ctlMove (h : s₀.Evolves τ s) {k w : Nat} : s₀.Evolves τ (s.ctlMove k w) := by
  unfold State.ctlMove
  extract_lets _ s₁ s₂
  have h₁ : s₀.Evolves τ s₁ := h
  have h₂ : s₀.Evolves τ s₂ := .ite (.lntStore h) h
  split
  · exact .ite (.lntDone (.lntLand h₂)) (.ite (.lntDone (.lntLand h₂)) (.lntDone (.lntLand h₂)))
  · exact .lntDone (.lntLand h₂)

theorem State.Evolves.enq (h : s₀.Evolves τ s) {k q : Nat} {item : List (BitVec 8)} :
    s₀.Evolves τ (s.enq k q item).1 := by
  unfold State.enq
  split
  · exact .iteFst (.enqueue h) h
  · split
    · exact .iteFst h (.mapTask (.setQueue h))
    · exact h

theorem State.Evolves.xferMove (h : s₀.Evolves τ s) {k : Nat} {x : LntXfer} {n : Nat} :
    s₀.Evolves τ (s.xferMove k x n) :=
  .ite (.wrBytes h) (.ite (.lntStores (.lntStores (.draw h))) (.lntStores (.draw h)))

theorem State.Evolves.writeInbox (h : s₀.Evolves τ s) {k p : Nat} {t : LntTask} :
    s₀.Evolves τ (s.writeInbox k p t) :=
  .draw (.ite (.lntStores (.lntStores (.draw h))) (.lntStores (.draw h)))

theorem State.Evolves.lntStart (h : s₀.Evolves τ s) {k : Nat} : s₀.Evolves τ (s.lntStart k) :=
  .setLntState (.wrN (.setLntPc (.setCore h)))

theorem State.Evolves.lntIdle (h : s₀.Evolves τ s) {k : Nat} : s₀.Evolves τ (s.lntIdle k) :=
  .ite (.lntOff h) (.setLntState h)

theorem State.Evolves.lntTake (h : s₀.Evolves τ s) {k seq : Nat} : s₀.Evolves τ (s.lntTake k seq) :=
  .wrN (.setLntState (.setCore h))

theorem State.Evolves.dispatch (h : s₀.Evolves τ s) {p k : Nat} : s₀.Evolves τ (s.dispatch p k) := by
  unfold State.dispatch
  split
  · extract_lets s₁
    have h₁ : s₀.Evolves τ s₁ := .setHeld h
    exact .lntTake (.bumpSat h₁)
  · refine .ite ?_ h
    split
    · extract_lets s₁
      have h₁ : s₀.Evolves τ s₁ := .setHeld h
      exact .lntTake (.bump h₁)
    · exact h

theorem State.Evolves.commitTask (h : s₀.Evolves τ s) {k p : Nat} {t : LntTask} {rest : List LntTask} :
    s₀.Evolves τ (s.commitTask k p t rest) :=
  .lntIdle (.bump (.retireDead (.retireOne (.foldl (fun h => .enqueue (.unreserve h)) h))))

theorem State.Evolves.showPooled (h : s₀.Evolves τ s) {p : Nat} : s₀.Evolves τ (s.showPooled p) :=
  .foldl (fun h => .ite (.putBit h) h) h

theorem State.Evolves.lntLose (h : s₀.Evolves τ s) : s₀.Evolves τ s.lntLose :=
  .foldl (fun h => .setLntState h) (.same (.restrictMem h))

theorem State.Evolves.lntParity (h : s₀.Evolves τ s) {p : Nat} : s₀.Evolves τ (s.lntParity p) :=
  .foldl (fun h => .ite (.lntHalt h) h) h

theorem State.Reaches.execLntNop (h : s₀.Evolves τ s) {k : Fin 32} {ecc : LntEcc} :
    s₀.Reaches τ (execLntNop k ecc s) :=
  .parallel h

theorem State.Reaches.execLntZero (h : s₀.Evolves τ s) {k : Fin 32} {ecc : LntEcc} :
    s₀.Reaches τ (execLntZero k ecc s) :=
  .parallel h

theorem State.Reaches.execLntCopy (h : s₀.Evolves τ s) {k : Fin 32} {ecc : LntEcc} :
    s₀.Reaches τ (execLntCopy k ecc s) :=
  .parallel h

theorem State.Reaches.execLntCopya (h : s₀.Evolves τ s) {k : Fin 32} {ecc : LntEcc} :
    s₀.Reaches τ (execLntCopya k ecc s) :=
  .parallel h

theorem State.Reaches.execLntAdd (h : s₀.Evolves τ s) {k : Fin 32} {ecc : LntEcc} :
    s₀.Reaches τ (execLntAdd k ecc s) :=
  .parallel h

theorem State.Reaches.execLntSub (h : s₀.Evolves τ s) {k : Fin 32} {ecc : LntEcc} :
    s₀.Reaches τ (execLntSub k ecc s) :=
  .parallel h

theorem State.Reaches.execLntAdda (h : s₀.Evolves τ s) {k : Fin 32} {ecc : LntEcc} :
    s₀.Reaches τ (execLntAdda k ecc s) :=
  .parallel h

theorem State.Reaches.execLntSuba (h : s₀.Evolves τ s) {k : Fin 32} {ecc : LntEcc} :
    s₀.Reaches τ (execLntSuba k ecc s) :=
  .parallel h

theorem State.Reaches.execLntMul (h : s₀.Evolves τ s) {k : Fin 32} {ecc : LntEcc} :
    s₀.Reaches τ (execLntMul k ecc s) :=
  .parallel h

theorem State.Reaches.execLntMuln (h : s₀.Evolves τ s) {k : Fin 32} {ecc : LntEcc} :
    s₀.Reaches τ (execLntMuln k ecc s) :=
  .parallel h

theorem State.Reaches.execLntMadd (h : s₀.Evolves τ s) {k : Fin 32} {ecc : LntEcc} :
    s₀.Reaches τ (execLntMadd k ecc s) :=
  .parallel h

theorem State.Reaches.execLntMsub (h : s₀.Evolves τ s) {k : Fin 32} {ecc : LntEcc} :
    s₀.Reaches τ (execLntMsub k ecc s) :=
  .parallel h

theorem State.Reaches.execLntDmul (h : s₀.Evolves τ s) {k : Fin 32} {ecc : LntEcc} :
    s₀.Reaches τ (execLntDmul k ecc s) :=
  .parallel h

theorem State.Reaches.execLntDmadd (h : s₀.Evolves τ s) {k : Fin 32} {ecc : LntEcc} :
    s₀.Reaches τ (execLntDmadd k ecc s) :=
  .parallel h

theorem State.Reaches.execLntDsump (h : s₀.Evolves τ s) {k : Fin 32} {ecc : LntEcc} :
    s₀.Reaches τ (execLntDsump k ecc s) :=
  .parallel h

theorem State.Reaches.execLntDdifp (h : s₀.Evolves τ s) {k : Fin 32} {ecc : LntEcc} :
    s₀.Reaches τ (execLntDdifp k ecc s) :=
  .parallel h

theorem State.Reaches.execLntCross (h : s₀.Evolves τ s) {k : Fin 32} {ecc : LntEcc} :
    s₀.Reaches τ (execLntCross k ecc s) :=
  .parallel h

theorem State.Reaches.execLntAbs (h : s₀.Evolves τ s) {k : Fin 32} {ecc : LntEcc} :
    s₀.Reaches τ (execLntAbs k ecc s) :=
  .parallel h

theorem State.Reaches.execLntNeg (h : s₀.Evolves τ s) {k : Fin 32} {ecc : LntEcc} :
    s₀.Reaches τ (execLntNeg k ecc s) :=
  .parallel h

theorem State.Reaches.execLntRound (h : s₀.Evolves τ s) {k : Fin 32} {ecc : LntEcc} :
    s₀.Reaches τ (execLntRound k ecc s) :=
  .parallel h

theorem State.Reaches.execLntClip (h : s₀.Evolves τ s) {k : Fin 32} {ecc : LntEcc} :
    s₀.Reaches τ (execLntClip k ecc s) :=
  .parallel h

theorem State.Reaches.execLntShl (h : s₀.Evolves τ s) {k : Fin 32} {ecc : LntEcc} :
    s₀.Reaches τ (execLntShl k ecc s) :=
  .parallel h

theorem State.Reaches.execLntShra (h : s₀.Evolves τ s) {k : Fin 32} {ecc : LntEcc} :
    s₀.Reaches τ (execLntShra k ecc s) :=
  .parallel h

theorem State.Reaches.execLntShrl (h : s₀.Evolves τ s) {k : Fin 32} {ecc : LntEcc} :
    s₀.Reaches τ (execLntShrl k ecc s) :=
  .parallel h

theorem State.Reaches.execLntAnd (h : s₀.Evolves τ s) {k : Fin 32} {ecc : LntEcc} :
    s₀.Reaches τ (execLntAnd k ecc s) :=
  .parallel h

theorem State.Reaches.execLntOr (h : s₀.Evolves τ s) {k : Fin 32} {ecc : LntEcc} :
    s₀.Reaches τ (execLntOr k ecc s) :=
  .parallel h

theorem State.Reaches.execLntXor (h : s₀.Evolves τ s) {k : Fin 32} {ecc : LntEcc} :
    s₀.Reaches τ (execLntXor k ecc s) :=
  .parallel h

theorem State.Reaches.execLntNot (h : s₀.Evolves τ s) {k : Fin 32} {ecc : LntEcc} :
    s₀.Reaches τ (execLntNot k ecc s) :=
  .parallel h

theorem State.Reaches.execLntCmp (h : s₀.Evolves τ s) {k : Fin 32} {ecc : LntEcc} :
    s₀.Reaches τ (execLntCmp k ecc s) :=
  .parallel h

theorem State.Reaches.execLntCmpa (h : s₀.Evolves τ s) {k : Fin 32} {ecc : LntEcc} :
    s₀.Reaches τ (execLntCmpa k ecc s) :=
  .parallel h

theorem State.Reaches.execLntMax (h : s₀.Evolves τ s) {k : Fin 32} {ecc : LntEcc} :
    s₀.Reaches τ (execLntMax k ecc s) :=
  .parallel h

theorem State.Reaches.execLntMin (h : s₀.Evolves τ s) {k : Fin 32} {ecc : LntEcc} :
    s₀.Reaches τ (execLntMin k ecc s) :=
  .parallel h

theorem State.Reaches.execLntNsign (h : s₀.Evolves τ s) {k : Fin 32} {ecc : LntEcc} :
    s₀.Reaches τ (execLntNsign k ecc s) :=
  .parallel h

theorem State.Reaches.execLntGoto (h : s₀.Evolves τ s) {k : Fin 32} {ecc : LntEcc} :
    s₀.Reaches τ (execLntGoto k ecc s) :=
  .lntRun h (fun h => .lntBranch (.lntAdvance (.lntLand h)))

theorem State.Reaches.execLntCall (h : s₀.Evolves τ s) {k : Fin 32} {ecc : LntEcc} :
    s₀.Reaches τ (execLntCall k ecc s) := by
  unfold Machine.execLntCall
  refine .lntRun h (fun h => ?_)
  refine .ite ?_ (.lntBranch (.lntAdvance (.lntLand h)))
  refine .ite (.lntHalt h) ?_
  extract_lets s₁
  have h₁ : s₀.Evolves τ s₁ := .lntAdvance (.lntLand h)
  exact .lntBranch (.setCore h₁)

theorem State.Reaches.execLntRet (h : s₀.Evolves τ s) {k : Fin 32} {ecc : LntEcc} :
    s₀.Reaches τ (execLntRet k ecc s) := by
  refine .lntRun h fun h => .ite ?_ (.lntBranch (.lntAdvance (.lntLand h)))
  split
  case h_1 hpop => exact .lntBranch (.lntAdvance (.lntLand (.lntPopAddr h hpop)))
  case h_2 => exact .lntHalt h

theorem State.Reaches.execLntIret (h : s₀.Evolves τ s) {k : Fin 32} {ecc : LntEcc} :
    s₀.Reaches τ (execLntIret k ecc s) := by
  refine .lntRun h fun h => .ite ?_ (.lntBranch (.lntAdvance (.lntLand h)))
  split
  case h_1 hsr =>
    split
    case h_1 haddr => exact .lntBranch (.lntAdvance (.lntLand (.lntPopAddr (.lntPopSr h hsr) haddr)))
    case h_2 => exact .lntHalt (.lntPopSr h hsr)
  case h_2 => exact .lntHalt h

theorem State.Reaches.execLntLeave (h : s₀.Evolves τ s) {k : Fin 32} {ecc : LntEcc} :
    s₀.Reaches τ (execLntLeave k ecc s) :=
  .lntRun h (fun h => .ite (.ite (.lntHalt h) (.lntBoundary (.lntPopLoop (.lntLand h)))) (.lntDone (.lntLand h)))

theorem State.Reaches.execLntLoop (h : s₀.Evolves τ s) {k : Fin 32} {ecc : LntEcc} :
    s₀.Reaches τ (execLntLoop k ecc s) := by
  unfold Machine.execLntLoop
  refine .lntRun h (fun h => ?_)
  refine .ite (.lntHalt h) ?_
  refine .ite (.lntHalt h) ?_
  extract_lets _ s₁ _ s₂
  have h₁ : s₀.Evolves τ s₁ := .lntLand h
  have h₂ : s₀.Evolves τ s₂ := .setCore h₁
  exact .lntBoundary (.setLntPc (.setFld h₂))

theorem State.Reaches.execLntRepeat (h : s₀.Evolves τ s) {k : Fin 32} {ecc : LntEcc} :
    s₀.Reaches τ (execLntRepeat k ecc s) :=
  .lntRun h (fun h => .putBit (.setCore (.lntAdvance (.lntLand h))))

theorem State.Reaches.execLntLimm (h : s₀.Evolves τ s) {k : Fin 32} {ecc : LntEcc} :
    s₀.Reaches τ (execLntLimm k ecc s) :=
  .lntRun h (fun h => .ctlMove h)

theorem State.Reaches.execLntRmov (h : s₀.Evolves τ s) {k : Fin 32} {ecc : LntEcc} :
    s₀.Reaches τ (execLntRmov k ecc s) :=
  .lntRun h (fun h => .ctlMove h)

theorem State.Reaches.execLntMmov (h : s₀.Evolves τ s) {k : Fin 32} {ecc : LntEcc} :
    s₀.Reaches τ (execLntMmov k ecc s) :=
  .lntRun h (fun h => .ctlMove h)

theorem State.Reaches.execLntWait (h : s₀.Evolves τ s) {k : Fin 32} {ecc : LntEcc} :
    s₀.Reaches τ (execLntWait k ecc s) := by
  unfold Machine.execLntWait
  refine .lntRun h (fun h => ?_)
  extract_lets s₁
  have h₁ : s₀.Evolves τ s₁ := .lntAdvance (.lntLand h)
  exact .ite (.lntBoundary h₁) (.lntBoundary (.setLntState (.setCore h₁)))

theorem State.Reaches.execLntDone (h : s₀.Evolves τ s) {k : Fin 32} {ecc : LntEcc} :
    s₀.Reaches τ (execLntDone k ecc s) :=
  .lntRun h (fun h => .ite (.setLntState (.lntLand h)) (.lntHalt (.lntLand h)))

theorem State.Reaches.execLntEnq (h : s₀.Evolves τ s) {k : Fin 32} {ecc : LntEcc} :
    s₀.Reaches τ (execLntEnq k ecc s) :=
  .lntRun h (fun h => .lntDone (.putBit (.lntLand (.ite (.enq h) (.bumpSat (.enq h))))))

theorem State.Reaches.execLntXfer (h : s₀.Evolves τ s) {k : Fin 32} {ecc : LntEcc} :
    s₀.Reaches τ (execLntXfer k ecc s) :=
  .lntRun h (fun h => .lntDone (.putBit (.lntLand (.ite h (.setCore h)))))

theorem State.Reaches.execLntEvt (h : s₀.Evolves τ s) {k : Fin 32} {ecc : LntEcc} :
    s₀.Reaches τ (execLntEvt k ecc s) :=
  .lntRun h (fun h => .lntDone (.lntLand (.raise h)))

theorem State.Reaches.execLntSync (h : s₀.Evolves τ s) {k : Fin 32} {ecc : LntEcc} :
    s₀.Reaches τ (execLntSync k ecc s) := by
  unfold Machine.execLntSync
  refine .lntRun h (fun h => ?_)
  extract_lets s₁
  have h₁ : s₀.Evolves τ s₁ := .lntLand h
  exact .ite (.lntDone h₁) (.lntBoundary (.setLntState (.setCore h₁)))

theorem State.Reaches.execLntSignal (h : s₀.Evolves τ s) {k : Fin 32} {ecc : LntEcc} :
    s₀.Reaches τ (execLntSignal k ecc s) :=
  .lntRun h (fun h => .lntDone (.lntLand (.lntPost h)))

theorem State.Reaches.execLntInterruptAccept (h : s₀.Evolves τ s) {k : Fin 32} :
    s₀.Reaches τ (execLntInterruptAccept k s) := by
  unfold Machine.execLntInterruptAccept
  refine .next (.ite ?_ h)
  split
  · exact h
  · refine .ite (.lntHalt h) ?_
    extract_lets _ s₁ s₂ _ s₃
    have h₁ : s₀.Evolves τ s₁ := .landAll (.setCore h)
    have h₂ : s₀.Evolves τ s₂ := .lntCycles h₁
    have h₃ : s₀.Evolves τ s₃ := .setCore h₂
    exact .setLntState (.setLntPc (.putBit h₃))

theorem State.Reaches.execLntTmrExpiry (h : s₀.Evolves τ s) {k : Fin 32} : s₀.Reaches τ (execLntTmrExpiry k s) :=
  .next (.ite (.lntPost (.setCore h)) h)

theorem State.Reaches.execLntXferComplete (h : s₀.Evolves τ s) {k : Fin 32} {i : Fin 4} {o : XferEnd} {n : Nat} :
    s₀.Reaches τ (execLntXferComplete k i o n s) := by
  unfold Machine.execLntXferComplete
  refine .next ?_
  split
  · refine .ite h ?_
    extract_lets s₁ s₂ _ s₃ s₄ s₅
    have h₁ : s₀.Evolves τ s₁ := .xferMove h
    have h₂ : s₀.Evolves τ s₂ := .ite (.lntCorrect h₁) h₁
    have h₃ : s₀.Evolves τ s₃ := .setCore h₂
    have h₄ : s₀.Evolves τ s₄ := .ite (.bumpSat (.putBit h₃)) h₃
    have h₅ : s₀.Evolves τ s₅ := .lntPost h₄
    exact .ite (.lntDouble h₅) (.ite (.lntDone (.setLntState (.setCore h₅))) h₅)
  · exact h

theorem State.Reaches.execLntHostIrq (h : s₀.Evolves τ s) {k : Fin 32} : s₀.Reaches τ (execLntHostIrq k s) :=
  .next (.lntPost h)

theorem State.Reaches.execLntEnable (h : s₀.Evolves τ s) {k : Fin 32} : s₀.Reaches τ (execLntEnable k s) := by
  unfold Machine.execLntEnable
  refine .ite .fault ?_
  refine .next ?_
  extract_lets s₁ _ s₂
  have h₁ : s₀.Evolves τ s₁ := .setFld (.putBit h)
  have h₂ : s₀.Evolves τ s₂ := .wrN (.setCore h₁)
  refine .ite ?_ (.ite h₁ (.setCore h₁))
  split
  · exact .setLntState (.putBit h₂)
  · exact .lntStart (.putBit h₂)

theorem State.Reaches.execLntDisable (h : s₀.Evolves τ s) {k : Fin 32} : s₀.Reaches τ (execLntDisable k s) :=
  .next (.ite (.putBit h) (.ite (.lntOff (.putBit h)) (.lntBoundary (.setCore (.putBit h)))))

theorem State.Reaches.execLntForceHalt (h : s₀.Evolves τ s) {k : Fin 32} : s₀.Reaches τ (execLntForceHalt k s) :=
  .next (.ite (.lntHalt h) h)

theorem State.Reaches.execLntPoolEnable (h : s₀.Evolves τ s) {p : Fin 8} {on : Bool} :
    s₀.Reaches τ (execLntPoolEnable p on s) :=
  .ite .fault (.ite (.next h) (.next (.showPooled (.setHeld (.putBit (.ite h (.parityFree h)))))))

theorem State.Reaches.execTaskDispatch (h : s₀.Evolves τ s) {p : Fin 8} : s₀.Reaches τ (execTaskDispatch p s) := by
  unfold Machine.execTaskDispatch
  split
  · exact .ite .fault (.next (.ite h (.dispatch h)))
  · exact .next h

theorem State.Reaches.execInboxDone (h : s₀.Evolves τ s) {k : Fin 32} : s₀.Reaches τ (execInboxDone k s) := by
  unfold Machine.execInboxDone
  refine .next ?_
  split
  · exact .ite (.lntStart (.writeInbox h)) h
  · exact h

theorem State.Reaches.execTaskCommit (h : s₀.Evolves τ s) {k : Fin 32} : s₀.Reaches τ (execTaskCommit k s) := by
  unfold Machine.execTaskCommit
  refine .next ?_
  split
  · split
    · exact .ite (.commitTask h) h
    · exact h
  · exact h

theorem State.Reaches.execLntWatchdog (h : s₀.Evolves τ s) {k : Fin 32} : s₀.Reaches τ (execLntWatchdog k s) :=
  .next (.ite (.lntHalt h) h)

/-! ### Sequencers -/

theorem State.Evolves.setSeq (h : s₀.Evolves τ s) {q : Nat} {x : Seq} : s₀.Evolves τ (s.setSeq q x) :=
  .dite (fun _ => .keeps h) (fun _ => h)

theorem State.Evolves.setInhibit (h : s₀.Evolves τ s) {q : Nat} {x : Bool} : s₀.Evolves τ (s.setInhibit q x) :=
  .putBit h

theorem State.Evolves.noteStoreWrite (h : s₀.Evolves τ s) {k : Nat} : s₀.Evolves τ (s.noteStoreWrite k) := by
  unfold State.noteStoreWrite
  extract_lets
  exact .ite (.setSeq h) (.setSeq h)

theorem State.Evolves.swapBanks (h : s₀.Evolves τ s) {q : Nat} : s₀.Evolves τ (s.swapBanks q) :=
  .setSeq (.foldl (fun h => .wrN (.wrN h)) (.foldl (fun h => .wrN h) (.restrictRegs h)))

theorem State.Evolves.seqHandover (h : s₀.Evolves τ s) {q at' : Nat} : s₀.Evolves τ (s.seqHandover q at') := by
  unfold State.seqHandover
  extract_lets s₁ s₂ s₃ s₄ _ s₅ s₆ s₇ s₈
  have h₁ : s₀.Evolves τ s₁ := .swapBanks h
  have h₂ : s₀.Evolves τ s₂ := .bump h₁
  have h₃ : s₀.Evolves τ s₃ := .putBit h₂
  have h₄ : s₀.Evolves τ s₄ := .putBit h₃
  have h₅ : s₀.Evolves τ s₅ := .setSeq h₄
  have h₆ : s₀.Evolves τ s₆ := .setFld (.setInhibit h₅)
  have h₇ : s₀.Evolves τ s₇ := .wrN h₆
  have h₈ : s₀.Evolves τ s₈ := .ite (.wr h₇) h₄
  exact .raiseTs h₈

theorem State.Evolves.seqHalt (h : s₀.Evolves τ s) {q cause at' : Nat} : s₀.Evolves τ (s.seqHalt q cause at') := by
  unfold State.seqHalt
  extract_lets s₁ s₂ _ s₃ s₄
  have h₁ : s₀.Evolves τ s₁ := .putBit h
  have h₂ : s₀.Evolves τ s₂ := .setFld h₁
  have h₃ : s₀.Evolves τ s₃ := .setSeq h₂
  have h₄ : s₀.Evolves τ s₄ := .raiseTs h₃
  exact .ite (.seqHandover h₄) h₄

theorem State.Evolves.latchEntry (h : s₀.Evolves τ s) {q : Nat} : s₀.Evolves τ (s.latchEntry q) := by
  unfold State.latchEntry
  split
  · exact .wrN h
  · exact .wrN h

theorem State.Evolves.takenEntry (h : s₀.Evolves τ s) {q : Nat} : s₀.Evolves τ (s.takenEntry q) := by
  unfold State.takenEntry
  split
  · exact .wrN (.wr (.wr h))
  · exact .wrN (.wr (.wr h))

theorem State.Evolves.present (h : s₀.Evolves τ s) {q : Nat} {ts : List Trig} : s₀.Evolves τ (s.present q ts) := by
  unfold State.present
  extract_lets _ _ s₁
  have h₁ : s₀.Evolves τ s₁ := by
    unfold s₁
    split
    · exact .bumpSat (.setSeq h)
    · exact .setSeq h
    · exact h
  exact .ite (.latchEntry (.autoCount h₁)) h

theorem State.Evolves.actArm (h : s₀.Evolves τ s) {q n at' : Nat} : s₀.Evolves τ (s.actArm q n at') :=
  .ite h (.armMask (.armMask h))

theorem State.Evolves.actCap (h : s₀.Evolves τ s) {q n at' : Nat} {t : Option Trig} :
    s₀.Evolves τ (s.actCap q n at' t) := by
  unfold State.actCap
  refine .ite h ?_
  refine .ite ?_ (.ite h (.openCapture h))
  split
  · exact .startIgnored h
  · exact .stopCapture h
  · exact .openCapture (.stopCapture h)

theorem State.Evolves.actCounter (h : s₀.Evolves τ s) {q n imm i : Nat} :
    s₀.Evolves τ (s.actCounter q n imm i) := by
  unfold State.actCounter
  split
  · exact .bump h
  · exact .wrN h
  · exact .wrN h
  · exact h

theorem State.Evolves.actTimers (h : s₀.Evolves τ s) {q n imm : Nat} : s₀.Evolves τ (s.actTimers q n imm) :=
  .wrN (.setSeq h)

theorem State.Evolves.actFab (h : s₀.Evolves τ s) {q n at' : Nat} {t : Option Trig} :
    s₀.Evolves τ (s.actFab q n at' t) :=
  .ite h (.ite (.ridgeSend (.ite (.setSeq (.bump h)) (.bump h))) (.ridgeSend (.setSeq h)))

theorem State.Evolves.actSignals (h : s₀.Evolves τ s) {q n edge : Nat} : s₀.Evolves τ (s.actSignals q n edge) :=
  .signalBits (.signalBits h)

theorem State.Evolves.actTag (h : s₀.Evolves τ s) {q n imm at' : Nat} : s₀.Evolves τ (s.actTag q n imm at') :=
  .ite h (.ite (.placeTag h) (.bumpSat h))

theorem State.Evolves.nanoActions (h : s₀.Evolves τ s) {q n imm at' : Nat} :
    s₀.Evolves τ (s.nanoActions q n imm at') := by
  unfold State.nanoActions
  extract_lets _ s₁ s₂ s₃ s₄ s₅ s₆ s₇ s₈
  have h₁ : s₀.Evolves τ s₁ := .actArm h
  have h₂ : s₀.Evolves τ s₂ := .actCap h₁
  have h₃ : s₀.Evolves τ s₃ := .foldl (fun h => .actCounter h) h₂
  have h₄ : s₀.Evolves τ s₄ := .actTimers h₃
  have h₅ : s₀.Evolves τ s₅ := .actFab h₄
  have h₆ : s₀.Evolves τ s₆ := .ite (.dmaStart h₅) h₅
  have h₇ : s₀.Evolves τ s₇ := .actSignals h₆
  have h₈ : s₀.Evolves τ s₈ := .actTag h₇
  exact .ite (.raiseTs h₈) h₈

theorem State.Evolves.seqGoto (h : s₀.Evolves τ s) {q pc : Nat} {st : List Nat} :
    s₀.Evolves τ (s.seqGoto q pc st) :=
  .setFld (.wrN (.setSeq h))

theorem State.Evolves.seqClocks (h : s₀.Evolves τ s) {q clocks : Nat} : s₀.Evolves τ (s.seqClocks q clocks) :=
  .autoCount (.ite (.wrN (.wrN (.setSeq h))) (.wrN (.setSeq h)))

theorem State.Evolves.latchAct (h : s₀.Evolves τ s) {q n : Nat} : s₀.Evolves τ (s.latchAct q n) := by
  unfold State.latchAct
  extract_lets
  split
  · exact .latchEntry (.takenEntry (.setSeq h))
  · exact .latchEntry (.setSeq h)
  · exact h

theorem State.Evolves.takeFault (h : s₀.Evolves τ s) {q at' : Nat} : s₀.Evolves τ (s.takeFault q at') :=
  .ite (.seqHalt h) (.seqGoto (.wrN (.setInhibit h)))

theorem State.Evolves.takeRequest (h : s₀.Evolves τ s) {q n : Nat} : s₀.Evolves τ (s.takeRequest q n) :=
  .ite h (.seqGoto (.putBit (.setInhibit h)))

theorem State.Evolves.safePoint (h : s₀.Evolves τ s) {q at' : Nat} : s₀.Evolves τ (s.safePoint q at') := by
  unfold State.safePoint
  extract_lets _ s₁
  have h₁ : s₀.Evolves τ s₁ := .setSeq h
  refine .ite (.seqHalt h₁) ?_
  refine .ite (.seqHandover h₁) ?_
  refine .ite h₁ ?_
  refine .ite (.takeFault h₁) ?_
  split
  · exact .takeRequest h₁
  · exact h₁

theorem State.Evolves.endWord (h : s₀.Evolves τ s) {q w n g at' : Nat} : s₀.Evolves τ (s.endWord q w n g at') := by
  unfold State.endWord
  extract_lets _ _ _ s₁ s₂ s₃
  have h₁ : s₀.Evolves τ s₁ := .latchAct h
  have h₂ : s₀.Evolves τ s₂ := .seqGoto h₁
  have h₃ : s₀.Evolves τ s₃ := .ite (.setInhibit h₂) h₂
  exact .ite (.seqHalt h₃) (.ite (.seqHalt h₃) (.ite (.safePoint h₃) h₃))

theorem State.Evolves.seqBegin (h : s₀.Evolves τ s) {q edge : Nat} : s₀.Evolves τ (s.seqBegin q edge) := by
  unfold State.seqBegin
  split
  · exact h
  · exact .nanoActions (.setSeq h)

theorem State.Evolves.runWord (h : s₀.Evolves τ s) {q : Nat} {b : SeqBegun} {parity : Bool} :
    s₀.Evolves τ (s.runWord q b parity) := by
  unfold State.runWord
  extract_lets _ _ _ s₁ s₂
  have h₁ : s₀.Evolves τ s₁ := .setSeq h
  have h₂ : s₀.Evolves τ s₂ := .endWord (.seqClocks h₁)
  exact .ite h₂ (.ite (.seqHalt h₂) (.seqBegin h₂))

theorem State.Reaches.endCommand (h : s₀.Evolves τ s) {q nac : Nat} {parity : Bool} {b : SeqBegun} :
    s₀.Reaches τ (s.endCommand q nac parity b) :=
  .ite (.next h) (.ite .fault (.next (.runWord h)))

theorem State.Evolves.seqsHold (h : s₀.Evolves τ s) : s₀.Evolves τ s.seqsHold := .foldl (fun h => .setSeq h) h

theorem State.Evolves.seqsGo (h : s₀.Evolves τ s) : s₀.Evolves τ s.seqsGo := .foldl (fun h => .setSeq h) h

theorem State.Reaches.seqCommand (h : s₀.Evolves τ s) {q nac : Nat} {parity : Bool} :
    s₀.Reaches τ (s.seqCommand q nac parity)  := by
  unfold State.seqCommand
  refine .ite ?_ (.next h)
  split
  · exact .endCommand h
  · refine .ite (.next (.seqHalt h)) ?_
    split
    · exact .fault
    · refine .ite (.next h) ?_
      extract_lets s₁
      have h₁ : s₀.Evolves τ s₁ := .seqBegin h
      split
      · exact .endCommand h₁
      · exact .next h₁

theorem State.Reaches.execSeqCont (h : s₀.Evolves τ s) {q : Fin 5} {parity : Bool} :
    s₀.Reaches τ (execSeqCont q parity s) :=
  .seqCommand h

theorem State.Reaches.execSeqJump (h : s₀.Evolves τ s) {q : Fin 5} {parity : Bool} :
    s₀.Reaches τ (execSeqJump q parity s) :=
  .seqCommand h

theorem State.Reaches.execSeqMap (h : s₀.Evolves τ s) {q : Fin 5} {parity : Bool} :
    s₀.Reaches τ (execSeqMap q parity s) :=
  .seqCommand h

theorem State.Reaches.execSeqJnz (h : s₀.Evolves τ s) {q : Fin 5} {parity : Bool} :
    s₀.Reaches τ (execSeqJnz q parity s) :=
  .seqCommand h

theorem State.Reaches.execSeqJz (h : s₀.Evolves τ s) {q : Fin 5} {parity : Bool} :
    s₀.Reaches τ (execSeqJz q parity s) :=
  .seqCommand h

theorem State.Reaches.execSeqWait (h : s₀.Evolves τ s) {q : Fin 5} {parity : Bool} :
    s₀.Reaches τ (execSeqWait q parity s) :=
  .seqCommand h

theorem State.Reaches.execSeqWaitmap (h : s₀.Evolves τ s) {q : Fin 5} {parity : Bool} :
    s₀.Reaches τ (execSeqWaitmap q parity s)  :=
  .seqCommand h

theorem State.Reaches.execSeqCall (h : s₀.Evolves τ s) {q : Fin 5} {parity : Bool} :
    s₀.Reaches τ (execSeqCall q parity s) :=
  .seqCommand h

theorem State.Reaches.execSeqCallmap (h : s₀.Evolves τ s) {q : Fin 5} {parity : Bool} :
    s₀.Reaches τ (execSeqCallmap q parity s)  :=
  .seqCommand h

theorem State.Reaches.execSeqRet (h : s₀.Evolves τ s) {q : Fin 5} {parity : Bool} :
    s₀.Reaches τ (execSeqRet q parity s) :=
  .seqCommand h

theorem State.Reaches.execSeqReti (h : s₀.Evolves τ s) {q : Fin 5} {parity : Bool} :
    s₀.Reaches τ (execSeqReti q parity s) :=
  .seqCommand h

theorem State.Reaches.execSeqRestart (h : s₀.Evolves τ s) {q : Fin 5} {parity : Bool} :
    s₀.Reaches τ (execSeqRestart q parity s)  :=
  .seqCommand h

theorem State.Reaches.execSeqHalt (h : s₀.Evolves τ s) {q : Fin 5} {parity : Bool} :
    s₀.Reaches τ (execSeqHalt q parity s) :=
  .seqCommand h

theorem State.Reaches.execSeqTimerExpiry (h : s₀.Evolves τ s) {q : Fin 5} {t : Fin 2} :
    s₀.Reaches τ (execSeqTimerExpiry q t s) :=
  .next (.ite (.wrN (.ite (.setSeq h) (.setSeq h))) h)

theorem State.Evolves.seqStart (h : s₀.Evolves τ s) {q : Nat} : s₀.Evolves τ (s.seqStart q) :=
  .latchEntry (.putBit (.setFld (.setInhibit (.setFld (.setFld (.wrN (.wrN (.wrN (.setSeq h)))))))))

theorem State.Reaches.execSeqEnable (h : s₀.Evolves τ s) {x : SeqStart} : s₀.Reaches τ (execSeqEnable x s) := by
  unfold Machine.execSeqEnable
  extract_lets _ _ s₁ s₂
  have h₁ : s₀.Evolves τ s₁ := .setFld (.putBit h)
  have h₂ : s₀.Evolves τ s₂ := .seqStart h₁
  exact .ite .fault (.next (.ite (.ite h₂ (.ite (.seqHalt h₂) (.seqBegin h₂))) h₁))

theorem State.Reaches.execSeqDisable (h : s₀.Evolves τ s) {q : Fin 5} : s₀.Reaches τ (execSeqDisable q s) :=
  .next (.ite (.setSeq (.putBit h)) (.putBit h))

theorem State.Reaches.execForceHalt (h : s₀.Evolves τ s) {q : Fin 5} : s₀.Reaches τ (execForceHalt q s) :=
  .next (.ite (.setSeq h) h)

theorem State.Reaches.execSeqCommit (h : s₀.Evolves τ s) {q : Fin 5} : s₀.Reaches τ (execSeqCommit q s) :=
  .next (.ite (.putBit h) (.seqHandover h))

theorem State.Reaches.execFaultPost (h : s₀.Evolves τ s) {q : Fin 5} : s₀.Reaches τ (execFaultPost q s) :=
  .next (.postFault h)

theorem State.Reaches.execSeqReq (h : s₀.Evolves τ s) {q : Fin 5} {mask : Fin 16} :
    s₀.Reaches τ (execSeqReq q mask s) :=
  .next (.setFld h)

/-! ### Resets -/

theorem State.Evolves.setStage (h : s₀.Evolves τ s) {x : Nat} : s₀.Evolves τ (s.setStage x) := .setFld h

theorem State.Evolves.setBoot (h : s₀.Evolves τ s) {b : Boot} : s₀.Evolves τ (s.setBoot b) := .keeps h

theorem State.Evolves.pinsOf {r : State} (h : s₀.Evolves τ r) : s₀.Evolves τ (s.pinsOf r) := .keeps h

theorem State.Evolves.island (h : s₀.Evolves τ s) {keep : Nat → Bool} : s₀.Evolves τ (s.island keep) := by
  unfold State.island
  extract_lets src r
  have hwf (hs : s₀.canonical = true) : Sparse.wf regDefault (Sparse.restrict keep s.regs) = true :=
    Sparse.wf_restrict (State.canonical_iff.mp (h.grows.canonical hs)).1 keep
  have hr : s₀.Evolves τ r := .pinsOf
    ⟨⟨h.grows.out, h.grows.pending, h.grows.fresh, fun hs => State.canonical_iff.mpr ⟨hwf hs, rfl⟩, h.grows.time⟩,
      h.still⟩
  exact .ite (.foldl (fun h => .epEnable (.roleCause h)) hr) hr

theorem State.Evolves.islandOnly (h : s₀.Evolves τ s) {keep : Nat → Bool} : s₀.Evolves τ (s.islandOnly keep) := by
  unfold State.islandOnly
  extract_lets s₁
  have h₁ : s₀.Evolves τ s₁ := .foldl (fun h => .calLeaves h) h
  exact .same h₁

theorem State.Evolves.showSets (h : s₀.Evolves τ s) : s₀.Evolves τ s.showSets := .putBit (.putBit h)

/-- After a cold reset the stores are empty and device time is 0; what has left the device stays outside (R549). -/
theorem State.Evolves.coldBase (h : s₀.Evolves true s) {cause : Nat} : s₀.Evolves true (s.coldBase cause) := by
  have hreset : s₀.Evolves true { State.reset with
      mgt := { (default : Mgt) with sets := s.mgt.sets }
      clk := { (default : Clk) with up := s.clk.up }
      hlt := { il := s.hlt.il, stored := s.hlt.stored, tables := s.hlt.tables, trims := s.hlt.trims,
               journal := s.hlt.journal, ageCopy := s.hlt.ageCopy }
      boot := { (default : Boot) with wdogAt := s.clk.up }
      pwr := { (default : Pwr) with pgHigh := s.pwr.pgHigh }
      out := s.out, fresh := s.fresh, pending := s.pending } :=
    ⟨⟨h.grows.out, h.grows.pending, h.grows.fresh, fun _ => rfl, fun _ => (by decide : 0 < timeMod)⟩, nofun⟩
  have hpins := hreset.pinsOf (s := s)
  unfold State.coldBase
  refine .setFld (.setRails (.showSets ?_))
  split
  · exact .wr (.wrN hpins)
  · exact .wrN hpins

theorem State.Evolves.coldReset (h : s₀.Evolves true s) {cause : Nat} : s₀.Evolves true (s.coldReset cause) :=
  .setStage (.railsUp (.coldBase h))

theorem State.Evolves.warmReset (h : s₀.Evolves true s) {cause : Nat} : s₀.Evolves true (s.warmReset cause) := by
  unfold State.warmReset
  refine .ite (.coldReset h) ?_
  refine .ite h ?_
  extract_lets s₁ s₂ s₃ _ _ s₄ _ s₅
  have h₁ : s₀.Evolves true s₁ := .wrN h
  have h₂ : s₀.Evolves true s₂ := .bumpSat (.wr h₁)
  have h₃ : s₀.Evolves true s₃ := .putBit h₂
  have h₄ : s₀.Evolves true s₄ := .same h₃
  have h₅ : s₀.Evolves true s₅ := .setBoot h₄
  exact .foldl (fun h => .dmaPause h) h₅

theorem State.Evolves.queuesBack (h : s₀.Evolves τ s) : s₀.Evolves τ s.queuesBack :=
  .foldl (fun h => .writeBack h) h

theorem State.Evolves.warmBase (h : s₀.Evolves τ s) {left : Nat} : s₀.Evolves τ (s.warmBase left) := by
  unfold State.warmBase
  extract_lets j kept r₁ r₂
  have h₁ : s₀.Evolves τ r₁ := .islandOnly (.island h)
  have h₂ : s₀.Evolves τ r₂ := .clkSteer (.ite (.clockHold h₁) h₁)
  have hmem (hs : s₀.canonical = true) :
      Memory.wf (if kept then Sparse.restrict (fun a => decide (a < 2 ^ 44)) s.mem else []) = true := by
    split
    · exact Sparse.wf_restrict (State.canonical_iff.mp (h.grows.canonical hs)).2 _
    · rfl
  exact ⟨⟨h₂.grows.out, h₂.grows.pending, h₂.grows.fresh,
    fun hs => State.canonical_iff.mpr ⟨(State.canonical_iff.mp (h₂.grows.canonical hs)).1, hmem hs⟩,
    h₂.grows.time⟩, h₂.still⟩

theorem State.Evolves.quiesced (h : s₀.Evolves τ s) {left : Nat} : s₀.Evolves τ (s.quiesced left) := by
  unfold State.quiesced
  extract_lets _ s₁ s₂ _ s₃ s₄ s₅
  have h₁ : s₀.Evolves τ s₁ := .ite (.queuesBack h) h
  have h₂ : s₀.Evolves τ s₂ := .ite (.timDrainAll h₁) h₁
  have h₃ : s₀.Evolves τ s₃ := .setFld (.setFld h₂)
  have h₄ : s₀.Evolves τ s₄ := .putBit h₃
  have h₅ : s₀.Evolves τ s₅ := .foldl (fun h => .linkDown h) h₄
  exact .warmBase (.fabRest h₅)

theorem State.Evolves.recoverWriter (h : s₀.Evolves τ s) {w : Writer} {c : Nat} :
    s₀.Evolves τ (s.recoverWriter w c) :=
  .serveWriter (.setWriter (.ite h (.putBit h)))

theorem State.Evolves.replay (h : s₀.Evolves τ s) {j : Journal} : s₀.Evolves τ (s.replay j) := by
  unfold State.replay
  extract_lets s₁ s₂ s₃ _ s₄ s₅ s₆
  have h₁ : s₀.Evolves τ s₁ := .foldl (fun h => .wr h) h
  have h₂ : s₀.Evolves τ s₂ := .foldl (fun h => .dite (fun _ => .recoverWriter h) (fun _ => h)) h₁
  have h₃ : s₀.Evolves τ s₃ := .foldl (fun h => .putBit (.putBit (.setDmaState h))) h₂
  have h₄ : s₀.Evolves τ s₄ := .same h₃
  have h₅ : s₀.Evolves τ s₅ := .wrN h₄
  have h₆ : s₀.Evolves τ s₆ := .foldl (fun h => .showPooled h) h₅
  exact .setBoot h₆

theorem State.Reaches.execPor (h : s₀.Evolves true s) : s₀.Reaches true (execPor s) := .next (.coldBase h)

theorem State.Reaches.execWrst (h : s₀.Evolves true s) : s₀.Reaches true (execWrst s) := .next (.warmReset h)

theorem State.Reaches.execWarmReset (h : s₀.Evolves true s) : s₀.Reaches true (execWarmReset s) :=
  .next (.warmReset h)

theorem State.Reaches.execColdReset (h : s₀.Evolves true s) : s₀.Reaches true (execColdReset s) :=
  .next (.coldReset h)

theorem State.Reaches.execQuiesceEnd (h : s₀.Evolves τ s) {left : BitVec 6} :
    s₀.Reaches τ (execQuiesceEnd left s) :=
  .ite .fault (.next (.ite (.quiesced h) h))

theorem State.Reaches.execReplayStart (h : s₀.Evolves τ s) {who : Fin 8} :
    s₀.Reaches τ (execReplayStart who s) := by
  unfold Machine.execReplayStart
  refine .next ?_
  split
  · exact .ite (.replay h) (.flag h)
  · exact .flag h

theorem State.Reaches.execMgtReplayDone (h : s₀.Evolves τ s) : s₀.Reaches τ (execMgtReplayDone s) :=
  .next (.ite (.ite (.raise (.putBit (.putBit h))) (.raise (.raise (.putBit (.putBit h))))) h)

theorem State.Reaches.execWdogKick (h : s₀.Evolves τ s) : s₀.Reaches τ (execWdogKick s) := .next (.setBoot h)

theorem State.Reaches.execWdogExpiry (h : s₀.Evolves true s) : s₀.Reaches true (execWdogExpiry s) :=
  .next (.ite (.ite (.coldReset (.setBoot h)) (.warmReset (.setBoot h))) h)

/-! ### The power ladder -/

theorem State.Evolves.lostStops (h : s₀.Evolves τ s) : s₀.Evolves τ s.lostStops := .keeps h

theorem State.Evolves.sramLost (h : s₀.Evolves τ s) : s₀.Evolves τ s.sramLost := by
  unfold State.sramLost
  extract_lets s₁ s₂ s₃ s₄ lost s₅ s₆ s₇ s₈ _ s₉
  have h₁ : s₀.Evolves τ s₁ := .foldl (fun h => .setRes (.wrN (.putBit (.putBit (.putBit (.putBit h)))))) h
  have h₂ : s₀.Evolves τ s₂ := .wr h₁
  have h₃ : s₀.Evolves τ s₃ := .foldl (fun h => .setFld (.setSpg (.spgDisable (.setCan (.canDisable h))))) h₂
  have h₄ : s₀.Evolves τ s₄ := .foldl (fun h => .setSeq (.setFld (.putBit h))) h₃
  have h₅ : s₀.Evolves τ s₅ := .same (h₄.restrictRegs (keep := fun k => !lost k))
  have h₆ : s₀.Evolves τ s₆ := .glLocked (.lostStops h₅)
  have h₇ : s₀.Evolves τ s₇ := .ite (.raise h₆) h₆
  have h₈ : s₀.Evolves τ s₈ := .setFld (.putBit h₇)
  have h₉ : s₀.Evolves τ s₉ := .setScn h₈
  exact .wpLose (.supLose (.timLose (.lntLose h₉)))

theorem State.Evolves.islandLeft (h : s₀.Evolves τ s) : s₀.Evolves τ s.islandLeft := .islandOnly (.island h)

theorem State.Evolves.dmaRest (h : s₀.Evolves τ s) : s₀.Evolves τ s.dmaRest :=
  .foldl (fun h => .ite (.dmaPause (.setDma h)) h) h

theorem State.Evolves.stepBegins (h : s₀.Evolves τ s) : s₀.Evolves τ s.stepBegins := by
  unfold State.stepBegins
  extract_lets _ s₁
  have h₁ : s₀.Evolves τ s₁ := .keeps h
  split
  · exact .scnRestBegins h₁
  · exact .dmaRest h₁
  · exact .dmaRest (.foldl (fun h => .powerCloseWriter h) h₁)
  · exact .timDrainAll h₁
  · exact .foldl (fun h => .drvStop h) h₁
  · exact .ite (.pllStart h₁) h₁
  · exact h₁

theorem State.Evolves.flush (h : s₀.Evolves τ s) : s₀.Evolves τ s.flush := by
  unfold State.flush
  extract_lets s₁
  have h₁ : s₀.Evolves τ s₁ := .queuesBack h
  exact .same h₁

theorem State.Evolves.dmaKept (h : s₀.Evolves τ s) : s₀.Evolves τ s.dmaKept :=
  .foldl (fun h => .setDma (.putBit (.setDmaState h))) h

theorem State.Evolves.lanesRest (h : s₀.Evolves τ s) : s₀.Evolves τ s.lanesRest :=
  .foldl (fun h => .ite h (.laneOff h)) h

theorem State.Evolves.stepDown (h : s₀.Evolves τ s) : s₀.Evolves τ s.stepDown := by
  unfold State.stepDown
  split
  · exact .foldl (fun h => .setTch h) h
  · exact .scnPowerDown h
  · exact .timIdle h
  · exact .foldl (fun h => .spgRest h) h
  · exact .scnDoze (.foldl (fun h => .linkDown h) (.lanesRest (.fabRest h)))
  · exact .ite (.flush h) (.keeps h)
  · exact .memRest h
  · exact .clockGo (.foldl (fun h => .pllSet h) (.ccsPower (.supSleep h)))
  · exact .ite h (.pllSet (.memRest (.flush h)))
  · exact .dmaKept (.sramLost h)
  · exact .setRails h
  · exact .memLose (.setRails h)
  · exact .islandLeft (.setRails h)
  · exact h

theorem State.Evolves.unitsUnknown (h : s₀.Evolves τ s) : s₀.Evolves τ s.unitsUnknown :=
  .foldl (fun h => .ite (.unitUnknown h) h) h

theorem State.Evolves.restEnds (h : s₀.Evolves τ s) : s₀.Evolves τ s.restEnds := .foldl (fun h => .setTch h) h

theorem State.Evolves.provEmpty (h : s₀.Evolves τ s) : s₀.Evolves τ s.provEmpty :=
  .foldl (fun h => .provDiscard h) (.keeps h)

theorem State.Evolves.lanesWake (h : s₀.Evolves τ s) : s₀.Evolves τ s.lanesWake :=
  .foldl (fun h => .ite (.lanePower h) h) h

theorem State.Evolves.stepUp' (h : s₀.Evolves τ s) {levels : List (Fin 3)} : s₀.Evolves τ (s.stepUp' levels) := by
  unfold State.stepUp'
  split
  · exact .supWakeUp (.keeps h)
  · exact .memResume h
  · exact .scnDozeLeft (.foldl (fun h => .portRetest h) (.lanesWake h))
  · exact .drvResume h
  · exact .cmpRestart h
  · exact .foldl (fun h => .ite (.ite (.setDma h) (.dmaResume (.setDma h))) h) h
  · exact .scnPowerUp h
  · exact .restEnds (.provEmpty (.unitsUnknown h))
  · exact h

theorem State.Evolves.move (h : s₀.Evolves τ s) {target : Nat} : s₀.Evolves τ (s.move target) :=
  .ite (.ite (.stepBegins (.moveTo h)) (.undoBegins (.moveTo h))) (.moveTo h)

theorem State.Evolves.timerWake (h : s₀.Evolves τ s) : s₀.Evolves τ s.timerWake := .ite (.wakeBy h) h

theorem State.Evolves.reached (h : s₀.Evolves τ s) {st : Nat} : s₀.Evolves τ (s.reached st) := by
  unfold State.reached
  extract_lets s₁ _ s₂ s₃ s₄ _ s₅ s₆ _ _ s₇
  have h₁ : s₀.Evolves τ s₁ := .ite (.timerWake h) h
  have h₂ : s₀.Evolves τ s₂ := .wr (.setFld h₁)
  have h₃ : s₀.Evolves τ s₃ := .raise (.bumpSat h₂)
  have h₄ : s₀.Evolves τ s₄ := .ite (.seqsHold h₃) (.ite (.timWake (.seqsGo h₃)) h₃)
  have h₅ : s₀.Evolves τ s₅ := .ite (.setBoot h₄) h₄
  have h₆ : s₀.Evolves τ s₆ := .ite h₄ (.memResume h₅)
  have h₇ : s₀.Evolves τ s₇ := .same h₆
  exact .ite (.putBit h₇) (.move h₆)

theorem State.Evolves.stepEnds (h : s₀.Evolves τ s) {levels : List (Fin 3)} : s₀.Evolves τ (s.stepEnds levels) := by
  unfold State.stepEnds
  extract_lets s₁ _ s₂
  have h₁ : s₀.Evolves τ s₁ := .ite (.stepDown h) (.stepUp' h)
  have h₂ : s₀.Evolves τ s₂ := .same h₁
  exact .ite (.ite (.stepBegins (.same h₂)) (.reached h₂)) (.ite (.undoBegins (.same h₂)) (.reached h₂))

theorem State.Reaches.execPwrGo (h : s₀.Evolves τ s) {who : Fin 8} : s₀.Reaches τ (execPwrGo who s) :=
  .ite (.next (.flag h)) (.ite .fault (.next (.ite (.keeps h) (.move (.ite (.raise (.setFld h)) h)))))

theorem State.Reaches.execPowerStepEnd (h : s₀.Evolves τ s) {levels : List (Fin 3)} :
    s₀.Reaches τ (execPowerStepEnd levels s) :=
  .ite .fault (.next (.ite (.stepEnds h) h))

theorem State.Reaches.execPsPgAssert (h : s₀.Evolves τ s) {k : Fin 3} : s₀.Reaches τ (execPsPgAssert k s) :=
  .next (.pgSample (.keeps h))

theorem State.Evolves.pgFalls (h : s₀.Evolves τ s) {k : Nat} : s₀.Evolves τ (s.pgFalls k) := .keeps h

theorem State.Reaches.execPwrFault (h : s₀.Evolves true s) {k : Fin 3} {falls : Bool} :
    s₀.Reaches true (execPwrFault k falls s) := by
  unfold Machine.execPwrFault
  extract_lets _ _ s₁
  have h₁ : s₀.Evolves true s₁ := .ite (.pgFalls h) h
  exact .ite .fault (.next (.ite (.raise (.journalFree (.coldReset h₁))) (.ite (.pgFalls h) h)))

theorem State.Reaches.execWakeN (h : s₀.Evolves τ s) : s₀.Reaches τ (execWakeN s) := .ite .fault (.next (.wakeBy h))

theorem State.Reaches.execWakeAt (h : s₀.Evolves τ s) : s₀.Reaches τ (execWakeAt s) :=
  .ite .fault (.next (.timerWake h))

theorem State.Reaches.execEthWake (h : s₀.Evolves τ s) : s₀.Reaches τ (execEthWake s) :=
  .ite .fault (.next (.wakeBy h))

theorem State.Evolves.railAlert (h : s₀.Evolves τ s) {k : Nat} : s₀.Evolves τ (s.railAlert k) := .raise (.putBit h)

theorem State.Evolves.railSend (h : s₀.Evolves τ s) {k code v : Nat} : s₀.Evolves τ (s.railSend k code v).1 :=
  .iteFst (.railAlert (.foldl (fun h => .send h) (.draw h))) (.foldl (fun h => .send h) (.draw h))

theorem State.Evolves.railPage (h : s₀.Evolves τ s) {k : Nat} : s₀.Evolves τ (s.railPage k) := .ite h (.railSend h)

theorem State.Evolves.railCommand (h : s₀.Evolves τ s) {k : Nat} : s₀.Evolves τ (s.railCommand k) :=
  .railSend (.railPage (.ite h (.putBit h)))

theorem State.Evolves.railMode (h : s₀.Evolves τ s) {k : Nat} : s₀.Evolves τ (s.railMode k) := by
  unfold State.railMode
  extract_lets r₁ r₂ s₃
  have h₁ : s₀.Evolves τ r₁.1 := .railSend (.railPage h)
  have h₂ : s₀.Evolves τ r₂.2 := .draw h₁
  have h₃ : s₀.Evolves τ s₃ := h₂
  exact .dite (fun _ => .same h₃) (fun _ => h₁)

theorem State.Evolves.railWork (h : s₀.Evolves τ s) {e : Nat × Bool} : s₀.Evolves τ (s.railWork e) :=
  .ite h (.ite (.keeps h) (.ite (.railMode h) (.railCommand h)))

theorem State.Evolves.railsDue (h : s₀.Evolves τ s) : s₀.Evolves τ s.railsDue :=
  .ite h (.foldl (fun h => .railWork h) (.keeps h))

theorem State.Evolves.railSet (h : s₀.Evolves τ s) {k mv : Nat} : s₀.Evolves τ (s.railSet k mv) :=
  .railWork (.setFld h)

theorem State.Evolves.railEnabled (h : s₀.Evolves τ s) {k : Nat} : s₀.Evolves τ (s.railEnabled k) := .railWork h

theorem State.Evolves.railStatus (h : s₀.Evolves τ s) {k w : Nat} : s₀.Evolves τ (s.railStatus k w) :=
  .ite (.setFld h) (.railAlert (.setFld h))

theorem State.Evolves.railRead (h : s₀.Evolves τ s) {k : Nat} {a : Option (Nat × Nat × Int × Nat)} :
    s₀.Evolves τ (s.railRead k a) := by
  unfold State.railRead
  split
  · exact .railAlert h
  · extract_lets s₁
    have h₁ : s₀.Evolves τ s₁ := .setFld (.setFld h)
    exact .railStatus (.setFld h₁)

theorem State.Reaches.execPmbusPoll (h : s₀.Evolves τ s) {rails : List (Option (Nat × Nat × Int × Nat))} :
    s₀.Reaches τ (execPmbusPoll rails s) := by
  unfold Machine.execPmbusPoll
  extract_lets _ _ _ s₁
  have h₁ : s₀.Evolves τ s₁ := .setBoot h
  exact .ite .fault (.next (.ite (.foldl (fun h => .ite (.railRead (.foldl (fun h => .send h) (.railPage h))) h) h₁)
      h))

theorem State.Reaches.execPmbAlert (h : s₀.Evolves τ s) {status : List (Option (BitVec 16))} :
    s₀.Reaches τ (execPmbAlert status s) := by
  unfold Machine.execPmbAlert
  refine .next (.ite ?_ h)
  refine .foldl (fun h => ?_) h
  refine .ite ?_ h
  extract_lets s₁
  have h₁ : s₀.Evolves τ s₁ := .send (.railPage h)
  split
  · exact .railStatus h₁
  · exact .railAlert h₁

/-! ### Calibration and ageing -/

theorem State.Evolves.setHlt (h : s₀.Evolves τ s) {h' : Hlt} : s₀.Evolves τ (s.setHlt h') := .keeps h

theorem State.Evolves.calMakeDue (h : s₀.Evolves τ s) {id : Nat} : s₀.Evolves τ (s.calMakeDue id) :=
  .ite h (.calShow (.ite (.setHlt h) (.setCalState (.setHlt h))))

theorem State.Evolves.calFreed (h : s₀.Evolves τ s) {id : Nat} : s₀.Evolves τ (s.calFreed id) :=
  .ite h (.ite (.foldl (fun h => .ite (.supFreed h) h) h) (.supFreed h))

theorem State.Evolves.calAbandon (h : s₀.Evolves τ s) {id : Nat} : s₀.Evolves τ (s.calAbandon id) :=
  .calFreed (.calLeaves h)

theorem State.Evolves.calSweep (h : s₀.Evolves τ s) : s₀.Evolves τ s.calSweep := .foldl (fun h => .calAbandon h) h

theorem State.Evolves.calTry (h : s₀.Evolves τ s) {id : Nat} : s₀.Evolves τ (s.calTry id) :=
  .ite (.ite (.setCalState h) (.ite (.inlStart h) (.calBegin h))) h

theorem State.Evolves.calStart (h : s₀.Evolves τ s) : s₀.Evolves τ s.calStart :=
  .ite (.calShow (.foldl (fun h => .calTry h) (.calSweep h))) (.calShow (.calSweep h))

theorem State.Reaches.calGo (h : s₀.Evolves τ s) : s₀.Reaches τ s.calGo := .ite .fault (.next (.calStart h))

theorem State.Evolves.setStale (h : s₀.Evolves τ s) {id : Nat} {on : Bool} : s₀.Evolves τ (s.setStale id on) := by
  unfold State.setStale
  extract_lets _ s₁ s₂
  have h₁ : s₀.Evolves τ s₁ := .journal (.putBit h)
  have h₂ : s₀.Evolves τ s₂ := .calShow (.raise h₁)
  exact .ite h (.ite (.foldl (fun h => .ite (.timNote h) h) (.putBit h₂)) h₂)

theorem State.Evolves.calEnded (h : s₀.Evolves τ s) {id : Nat} : s₀.Evolves τ (s.calEnded id) :=
  .calFreed (.calLeaves h)

theorem State.Evolves.calPass (h : s₀.Evolves τ s) {id : Nat} {temp : Int} {at' : BitVec 64} :
    s₀.Evolves τ (s.calPass id temp at') :=
  .calShow (.putBit (.setStale (.raise (.wrI (.wr (.wr (.bump (.calEnded (.setHlt h)))))))))

theorem State.Evolves.calFail (h : s₀.Evolves τ s) {id : Nat} : s₀.Evolves τ (s.calFail id) :=
  .setStale (.raise (.journalFree (.putBit (.bumpSat (.calEnded (.setHlt (.calMakeDue h)))))))

theorem State.Evolves.storeTable (h : s₀.Evolves τ s) {i : Nat} : s₀.Evolves τ (s.storeTable i) := .setHlt h

theorem State.Evolves.ilApply (h : s₀.Evolves τ s) {c : Nat} : s₀.Evolves τ (s.ilApply c) :=
  .cndCommit (.setHlt (.wrN (.wrI (.ite h (.draw h)))))

theorem State.Evolves.calRunEnd (h : s₀.Evolves τ s) {r : CalRun} {lo hi : Int} :
    s₀.Evolves τ (s.calRunEnd r lo hi) := by
  unfold State.calRunEnd
  extract_lets _ _ _ s₁
  have h₁ : s₀.Evolves τ s₁ := .setHlt h
  refine .ite (.calAbandon h) ?_
  refine .ite ?_ (.ite (.ite h (.ite (.calPass (.ilApply h)) (.calFail h))) (.ite (.ite (.calPass h₁) (.calFail h))
      h))
  split
  · exact .calPass (.storeTable h)
  · exact .calFail h
  · exact h

theorem State.Evolves.tempWarn (h : s₀.Evolves τ s) : s₀.Evolves τ s.tempWarn := by
  unfold State.tempWarn
  extract_lets
  refine .ite (.ite (.setHlt h) h) ?_
  split
  · exact .raise (.journalFree (.setHlt h))
  · exact h

theorem State.Evolves.voltStep (h : s₀.Evolves τ s) {up : Bool} : s₀.Evolves τ (s.voltStep up) := by
  unfold State.voltStep
  extract_lets _ _ _ _ _ _ _ _ _ s₁ s₂
  have h₁ : s₀.Evolves τ s₁ := .setHlt h
  have h₂ : s₀.Evolves τ s₂ := .ite h (.adjusted (.railSet h₁))
  exact .ite (.atLimit h₂) h₂

theorem State.Evolves.voltAdjust (h : s₀.Evolves τ s) {least : Int} : s₀.Evolves τ (s.voltAdjust least) :=
  .ite (.ite (.voltStep (.setHlt h)) (.ite (.voltStep (.setHlt h)) (.setHlt h))) (.setHlt h)

theorem State.Evolves.eqAdjust (h : s₀.Evolves τ s) {j : Nat} : s₀.Evolves τ (s.eqAdjust j) := by
  unfold State.eqAdjust
  extract_lets _ _ _ _ s₁ s₂ _ s₃ s₄
  have h₁ : s₀.Evolves τ s₁ := .setHlt h
  have h₂ : s₀.Evolves τ s₂ := .setFld h₁
  have h₃ : s₀.Evolves τ s₃ := .ite h₂ (.setFld h₂)
  have h₄ : s₀.Evolves τ s₄ := .adjusted h₃
  exact .ite (.ite (.atLimit h) (.ite (.atLimit h₄) h₄)) h

theorem State.Evolves.trimAdjust (h : s₀.Evolves τ s) {i : Nat} : s₀.Evolves τ (s.trimAdjust i) := by
  unfold State.trimAdjust
  extract_lets _ _ _ _ _ _ _ s₁
  have h₁ : s₀.Evolves τ s₁ := .ite h (.calMakeDue (.adjusted (.setFld h)))
  exact .ite (.ite (.atLimit h₁) h₁) h

theorem State.Evolves.ageStore (h : s₀.Evolves τ s) : s₀.Evolves τ s.ageStore := .setHlt h

theorem State.Evolves.ageSecond (h : s₀.Evolves τ s) : s₀.Evolves τ s.ageSecond := by
  unfold State.ageSecond
  extract_lets _ _ r₁ _ s₂ _ _ _ _ s₃ _ s₄
  have h₁ : s₀.Evolves τ r₁.2 := .draw h
  have h₂ : s₀.Evolves τ s₂ := .ite h₁ h
  have h₃ : s₀.Evolves τ s₃ := .wrN h₂
  have h₄ : s₀.Evolves τ s₄ := .setHlt h₃
  exact .ite (.ite (.ageStore h₄) h₄) (.raise (.journal (.ageStore h₄)))

theorem State.Reaches.execSensorRead (h : s₀.Evolves τ s) {temps : List Int} :
    s₀.Reaches τ (execSensorRead temps s) := by
  unfold Machine.execSensorRead
  refine .ite ?_ (.next h)
  extract_lets _ s₁ s₂ s₃ _ s₄
  have h₁ : s₀.Evolves τ s₁ := .setHlt h
  have h₂ : s₀.Evolves τ s₂ := .foldl (fun h => .wrI h) h₁
  have h₃ : s₀.Evolves τ s₃ := .tempWarn h₂
  have h₄ : s₀.Evolves τ s₄ := .ite (.foldl (fun h => .ite (.calMakeDue h) h) h₃) h₃
  exact .ite .fault (.calGo h₄)

theorem State.Reaches.execCalRun (h : s₀.Evolves τ s) {id : Fin 86} : s₀.Reaches τ (execCalRun id s) :=
  .calGo (.calMakeDue h)

theorem State.Reaches.execCalRunAll (h : s₀.Evolves τ s) : s₀.Reaches τ (execCalRunAll s) :=
  .calGo (.foldl (fun h => .calMakeDue h) h)

theorem State.Reaches.execCalRunEnd (h : s₀.Evolves τ s) {id : Fin 86} {lo hi : Int} :
    s₀.Reaches τ (execCalRunEnd id lo hi s)  := by
  unfold Machine.execCalRunEnd
  split
  · exact .calGo (.calRunEnd h)
  · exact .next h

theorem State.Reaches.execCalRetry (h : s₀.Evolves τ s) {id : Fin 86} : s₀.Reaches τ (execCalRetry id s) := by
  unfold Machine.execCalRetry
  split
  · exact .ite (.calGo (.setHlt h)) (.next h)
  · exact .next h

theorem State.Reaches.execCalMaxWait (h : s₀.Evolves τ s) {id : Fin 86} : s₀.Reaches τ (execCalMaxWait id s) := by
  unfold Machine.execCalMaxWait
  refine .next ?_
  split
  · exact .ite (.setStale h) h
  · exact h

theorem State.Reaches.execReplicaRead (h : s₀.Evolves τ s) {slacks : List Int} :
    s₀.Reaches τ (execReplicaRead slacks s) :=
  .next (.ite (.voltAdjust (.foldl (fun h => .wrI h) (.setHlt h))) h)

theorem State.Reaches.execLaneEyePoll (h : s₀.Evolves τ s) {height : BitVec 8} {width : BitVec 7} :
    s₀.Reaches τ (execLaneEyePoll height width s) := by
  unfold Machine.execLaneEyePoll
  refine .ite .fault ?_
  refine .next (.ite ?_ h)
  split
  · extract_lets _ s₁ s₂
    have h₁ : s₀.Evolves τ s₁ := .setHlt h
    have h₂ : s₀.Evolves τ s₂ := .setFld (.setFld h₁)
    exact .eqAdjust h₂
  · exact .setHlt h

theorem State.Reaches.execAgeTick (h : s₀.Evolves τ s) : s₀.Reaches τ (execAgeTick s) := by
  unfold Machine.execAgeTick
  refine .next (.ite ?_ h)
  extract_lets _ s₁ s₂
  have h₁ : s₀.Evolves τ s₁ := .setHlt h
  have h₂ : s₀.Evolves τ s₂ := .ite (.ageSecond h₁) h₁
  exact .ite (.foldl (fun h => .trimAdjust h) h₂) h₂

/-! ### Parity and owners -/

theorem State.Evolves.noteSram (h : s₀.Evolves τ s) : s₀.Evolves τ s.noteSram := .ite h (.keeps h)

theorem State.Evolves.stopFor (h : s₀.Evolves τ s) {k : Nat} {off : State → State}
    (hoff : ∀ {t : State}, s₀.Evolves τ t → s₀.Evolves τ (off t)) : s₀.Evolves τ (s.stopFor k off) :=
  .ite (.same (.putBit (hoff h))) h

theorem State.Evolves.outcomeState (h : s₀.Evolves τ s) {o : Host.Outcome State Fault Refusal}
    (ho : s₀.Reaches τ o) : s₀.Evolves τ (outcomeState s o) := by
  cases o with
  | next t => exact ho t rfl
  | fault r => exact h
  | refused r => exact h

theorem State.Evolves.parityStop (h : s₀.Evolves τ s) {k : Nat} : s₀.Evolves τ (s.parityStop k) := by
  have hgroup {p : Prop} [Decidable p] {g : Nat} {l : List Nat} : s₀.Evolves τ (if p then s else
      { s.laneParity g with mgt := { (s.laneParity g).mgt with stopped := l } }) := .ite h (.same (.laneParity h))
  unfold State.parityStop
  refine .ite (.stopFor h id) ?_
  refine .ite (.stopFor h fun h => .outcomeState h (.execCcsEnable h)) ?_
  refine .ite (.stopFor h fun h => .outcomeState h (.execWpEnable h)) ?_
  refine .ite hgroup (.ite hgroup ?_)
  refine .ite (.stopFor h fun h => .cndDisable h) ?_
  refine .ite (.stopFor h fun h => .spxDisable h) ?_
  refine .ite (.stopFor h id) (.ite (.stopFor h id) ?_)
  refine .ite (.ite (.seqHalt h) h) ?_
  refine .ite (.stopFor h fun h => .disableWriter h) ?_
  refine .ite (.ite (.stopFor h fun h => .spgDisable h) (.stopFor h fun h => .canDisable h)) ?_
  refine .ite (.stopFor h fun h => .scnDisable h) ?_
  refine .ite (.stopFor (.lntParity h) fun h => .outcomeState h (.execLntPoolEnable h)) ?_
  refine .ite (.stopFor h fun h => .outcomeState h (.execTimEnable h)) ?_
  refine .ite (.stopFor h fun h => .monEnable (.putBit h)) ?_
  refine .ite (.foldl (fun h => .stopFor h fun h => .monEnable (.putBit h)) h) ?_
  refine .ite (.stopFor h fun h => .outcomeState h (.execSupEnable h)) ?_
  refine .ite (.stopFor h fun h => .outcomeState h (.execSupEnable h)) ?_
  refine .ite (.stopFor h fun h => .outcomeState h (.execMemDisable h)) ?_
  refine .ite (.foldl (fun h => .disableQueue h) h) ?_
  refine .ite (.stopFor h id) ?_
  refine .ite (.dmaPause (.putBit (.putBit h))) ?_
  refine .ite (.stopFor h fun h => .outcomeState h (.execDrvSetEnable h)) ?_
  refine .ite (.foldl (fun h => .stopFor h fun h => .outcomeState h (.execDrvSetEnable h)) h) ?_
  refine .ite (.stopFor h fun h => .outcomeState h (.execFabEnable h)) ?_
  refine .ite (.stopFor h fun h => .outcomeState h (.execFabPortEnable h)) ?_
  exact .ite (.stopFor h fun h => .ethLink h) h

theorem State.Evolves.parityFault (h : s₀.Evolves τ s) {k : Nat} : s₀.Evolves τ (s.parityFault k) :=
  .ite h (.parityStop (.raise (.bumpSat (.wr (.wrN (.keeps h))))))

theorem State.Reaches.execParityCheck (h : s₀.Evolves τ s) {bad : List Nat} :
    s₀.Reaches τ (execParityCheck bad s) :=
  .next (.foldl (fun h => .parityFault h) h)

/-! ### Management -/

theorem State.Reaches.execSaveStart (h : s₀.Evolves τ s) {who : Fin 8} : s₀.Reaches τ (execSaveStart who s) := by
  unfold Machine.execSaveStart
  refine .next (.ite (.flag h) ?_)
  extract_lets s₁
  have h₁ : s₀.Evolves τ s₁ := .putBit h
  exact .same h₁

theorem State.Reaches.execSaveComplete (h : s₀.Evolves τ s) : s₀.Reaches τ (execSaveComplete s) := by
  unfold Machine.execSaveComplete
  refine .next ?_
  split
  · exact h
  · exact .raise (.wr (.bump (.showSets (.putBit (.keeps (.draw h))))))

theorem State.Reaches.execEraseSets (h : s₀.Evolves τ s) : s₀.Reaches τ (execEraseSets s) :=
  .next (.showSets (.keeps h))

theorem State.Reaches.execMgtBlkRst (h : s₀.Evolves τ s) {who : Fin 8} {range : Fin 256} :
    s₀.Reaches τ (execMgtBlkRst who range s) :=
  .next (.ite (.setBoot (.setFld (.ite (.armsReset (.restrictRegs h)) (.restrictRegs h)))) (.flag h))

theorem State.Reaches.execMgtBlkRstDone (h : s₀.Evolves τ s) : s₀.Reaches τ (execMgtBlkRstDone s) := by
  unfold Machine.execMgtBlkRstDone
  refine .next ?_
  split
  · exact .raise (.setBoot h)
  · exact h

theorem State.Evolves.protLock (h : s₀.Evolves τ s) : s₀.Evolves τ s.protLock := by
  unfold State.protLock
  refine .ite h ?_
  extract_lets s₁ _ _ s₂ s₃
  have h₁ : s₀.Evolves τ s₁ := .wr (.putBit h)
  have h₂ : s₀.Evolves τ s₂ := .same h₁
  have h₃ : s₀.Evolves τ s₃ := .foldl (fun h => .epEnable (.roleCause h)) h₂
  exact .raise h₃

/-! ### Trigger decisions -/

theorem State.Evolves.unitIssued (h : s₀.Evolves τ s) {c : Nat} {ts : Stamp} {d : Decision} :
    s₀.Evolves τ (s.unitIssued c ts d)  :=
  .ite (.raiseTs (.wrN (.wr (.bump h)))) (.wrN (.wr (.bump h)))

theorem State.Evolves.setPulse (h : s₀.Evolves τ s) {n : Nat} {x : List (Nat × Nat)} :
    s₀.Evolves τ (s.setPulse n x) :=
  .dite (fun _ => .keeps h) (fun _ => h)

theorem State.Evolves.startPulse (h : s₀.Evolves τ s) {n edge : Nat} : s₀.Evolves τ (s.startPulse n edge) :=
  .setPulse h

theorem State.Reaches.pulseJudge (h : s₀.Evolves τ s) {n : Nat} : s₀.Reaches τ (s.pulseJudge n) :=
  .ite .fault (.next h)

theorem State.Evolves.trigOutputs (h : s₀.Evolves τ s) {c : Nat} {t : Trig} {edge : Nat} :
    s₀.Evolves τ (s.trigOutputs c t edge)  :=
  .foldl (fun h => .ite (.startPulse h) h) h

theorem State.Evolves.issueTrig (h : s₀.Evolves τ s) {c : Nat} {t : Trig} {ds : List Decision} {edge : Nat} :
    s₀.Evolves τ (s.issueTrig c t ds edge) := by
  unfold State.issueTrig
  extract_lets s₁ s₂ s₃ s₄
  have h₁ : s₀.Evolves τ s₁ := .foldl (fun h => .unitIssued h) h
  have h₂ : s₀.Evolves τ s₂ := .bump h₁
  have h₃ : s₀.Evolves τ s₃ := .wr h₂
  have h₄ : s₀.Evolves τ s₄ := .trigOutputs h₃
  exact .ite (.enqueue h₄) h₄

theorem State.Evolves.formedAdd {f : Formed} (h : s₀.Evolves τ f.s) {c : Nat} {d : Decision} :
    s₀.Evolves τ (Formed.add c f d).s := by
  unfold Formed.add
  extract_lets
  split
  · exact h
  split
  · exact .putBit (.bumpSat h)
  · exact .setTunit h

theorem State.Evolves.formedFold {c : Nat} {ds : List Decision} :
    ∀ {f : Formed}, s₀.Evolves τ f.s → s₀.Evolves τ (ds.foldl (Formed.add c) f).s := by
  induction ds with
  | nil => exact id
  | cons d r ih => exact fun h => ih (.formedAdd h)

theorem State.Evolves.issueGroup (h : s₀.Evolves τ s) {c edge : Nat} {ds : List Decision} {late : Bool} :
    s₀.Evolves τ (s.issueGroup c ds late edge).1 := by
  have hformed : s₀.Evolves τ ((byCause ds).foldl (Formed.add c) { s := s, got := [] }).s := .formedFold h
  unfold State.issueGroup
  dsimp only
  split
  · exact hformed
  · exact .issueTrig hformed

theorem State.Evolves.issueFirst {gs : List (List Decision)} (h : s₀.Evolves τ s) {c edge : Nat} {late : Bool} :
    s₀.Evolves τ (State.issueFirst c late edge gs s).1 := by
  induction gs generalizing s with
  | nil => exact h
  | cons g rest ih =>
    have hissued (x : TrigChan) : s₀.Evolves τ ((s.setTch c x).issueGroup c g late edge).1 := .issueGroup (.setTch h)
    unfold State.issueFirst
    dsimp only
    split
    · exact ih (hissued _)
    · exact hissued _

theorem State.Evolves.presentAll (h : s₀.Evolves τ s) {c : Nat} {ts : List Trig} :
    s₀.Evolves τ (s.presentAll c ts) :=
  .ite (.present (.present h)) (.present h)

theorem State.Evolves.countLate (h : s₀.Evolves τ s) {c : Nat} : s₀.Evolves τ (s.countLate c) :=
  .latchRaise (.bumpSat h)

theorem State.Evolves.issueAt (h : s₀.Evolves τ s) {c e : Nat} : s₀.Evolves τ (s.issueAt c e) := by
  unfold State.issueAt
  extract_lets _ _ s₁ _ r₂ _ r₃ s₄ _ r₅ r₆
  have h₁ : s₀.Evolves τ s₁ := .setTch h
  have h₂ : s₀.Evolves τ r₂.1 := .issueFirst h₁
  have h₃ : s₀.Evolves τ r₃.1 := .issueFirst h₂
  have h₄ : s₀.Evolves τ s₄ := .ite h₃ (.countLate h₃)
  have h₅ : s₀.Evolves τ r₅.1 := .issueFirst h₄
  have h₆ : s₀.Evolves τ r₆.1 := .issueFirst h₅
  exact .presentAll h₆

theorem State.Evolves.trigIssue (h : s₀.Evolves τ s) {c : Nat} : s₀.Evolves τ (s.trigIssue c) := by
  unfold State.trigIssue
  extract_lets
  split
  · exact h
  · exact .ite (.issueAt h) h

theorem State.Reaches.execTriggerIssue (h : s₀.Evolves τ s) {c : Fin 4} : s₀.Reaches τ (execTriggerIssue c s) :=
  .next (.trigIssue h)

theorem State.Reaches.execTrigOutPulseEnd (h : s₀.Evolves τ s) {n : Fin 4} :
    s₀.Reaches τ (execTrigOutPulseEnd n s) :=
  .next (.setPulse h)

theorem State.Reaches.execTrigOutForce (h : s₀.Evolves τ s) {n : Fin 4} : s₀.Reaches τ (execTrigOutForce n s) := by
  have hjudged : s₀.Reaches τ (State.pulseJudge n s) := .pulseJudge h
  unfold Machine.execTrigOutForce
  split
  case h_1 t hnext => exact .next (.startPulse (hjudged t hnext))
  case h_2 => exact hjudged

theorem State.Reaches.execTimuWindowExpiry (h : s₀.Evolves τ s) {c : Fin 4} {u : Fin 8} :
    s₀.Reaches τ (execTimuWindowExpiry c u s) :=
  .next (.timuExpiry h)

theorem State.Evolves.ridgeCommand (h : s₀.Evolves τ s) {p kind sub : Nat} {k : FabPkt} :
    s₀.Evolves τ (s.ridgeCommand p kind sub k) :=
  .ite (.ridgeArrive h) h

theorem State.Reaches.execRlFire (h : s₀.Evolves τ s) {p : Fin 8} {k : RidgeMsg} :
    s₀.Reaches τ (execRlFire p k s) :=
  .next (.ridgeCommand h)

theorem State.Reaches.execRlProvisional (h : s₀.Evolves τ s) {p : Fin 8} {k : RidgeMsg} :
    s₀.Reaches τ (execRlProvisional p k s)  :=
  .next (.ridgeCommand h)

theorem State.Reaches.execRlConfirm (h : s₀.Evolves τ s) {p : Fin 8} {k : RidgeMsg} :
    s₀.Reaches τ (execRlConfirm p k s) :=
  .next (.ridgeCommand h)

theorem State.Reaches.execRlCancel (h : s₀.Evolves τ s) {p : Fin 8} {k : RidgeMsg} :
    s₀.Reaches τ (execRlCancel p k s) :=
  .next (.ridgeCommand h)

theorem State.Reaches.execProvisionalExpiry (h : s₀.Evolves τ s) : s₀.Reaches τ (execProvisionalExpiry s) :=
  .next (.provExpire h)

theorem State.Evolves.startUnit (h : s₀.Evolves τ s) {c u : Nat} : s₀.Evolves τ (s.startUnit c u) :=
  .setUnitState (.setTunit (.putBit h))

theorem State.Reaches.execTrgUnitEnable (h : s₀.Evolves τ s) {c : Fin 4} {u : Fin 8} :
    s₀.Reaches τ (execTrgUnitEnable c u s)  := by
  unfold Machine.execTrgUnitEnable
  refine .ite (.next h) ?_
  refine .ite (.next h) ?_
  split
  · exact .fault
  · exact .fault
  · exact .next (.startUnit h)

theorem State.Reaches.execTrgUnitDisable (h : s₀.Evolves τ s) {c : Fin 4} {u : Fin 8} :
    s₀.Reaches τ (execTrgUnitDisable c u s) :=
  .next (.putBit (.parityFree h))

theorem State.Reaches.execTrgArm (h : s₀.Evolves τ s) {c : Fin 4} {u : Fin 8} {on : Bool} :
    s₀.Reaches τ (execTrgArm c u on s) :=
  .next (.armUnit h)

theorem State.Reaches.trgCommit (h : s₀.Evolves τ s) {c th : Nat} {timed : Bool} :
    s₀.Reaches τ (s.trgCommit c th timed) := by
  unfold State.trgCommit
  split
  · exact .fault
  · exact .next (.trgRequest h)

theorem State.Reaches.execTrgCommit (h : s₀.Evolves τ s) {c : Fin 4} : s₀.Reaches τ (execTrgCommit c s) :=
  .trgCommit h

theorem State.Reaches.execTrgCommitTimed (h : s₀.Evolves τ s) {c : Fin 4} : s₀.Reaches τ (execTrgCommitTimed c s) :=
  .trgCommit h

theorem State.Reaches.execTrgHandover (h : s₀.Evolves τ s) {c : Fin 4} : s₀.Reaches τ (execTrgHandover c s) :=
  .next (.trgPass h)

/-! ### Register access -/

/-- An action that keeps the growth of every state it is run in. -/
structure Act.Grows (a : Act) : Prop where
  run : ∀ {s₀ s : State}, s₀.Evolves true s → s₀.Reaches true (a s)

def Acts.Grow (as : List Act) : Prop := ∀ a ∈ as, Act.Grows a

theorem Acts.Grow.nil : Acts.Grow [] := nofun

theorem Acts.Grow.cons {a : Act} {as : List Act} (ha : Act.Grows a) (has : Acts.Grow as) : Acts.Grow (a :: as) :=
  List.forall_mem_cons.mpr ⟨ha, has⟩

theorem Acts.Grow.one {a : Act} (ha : Act.Grows a) : Acts.Grow [a] := .cons ha .nil

theorem Acts.Grow.append {as bs : List Act} (has : Acts.Grow as) (hbs : Acts.Grow bs) : Acts.Grow (as ++ bs) :=
  List.forall_mem_append.mpr ⟨has, hbs⟩

theorem Acts.Grow.ite {p : Prop} {_ : Decidable p} {as bs : List Act} (has : Acts.Grow as) (hbs : Acts.Grow bs) :
    Acts.Grow (if p then as else bs) := by
  split
  · exact has
  · exact hbs

theorem Act.Grows.ite {p : Prop} {_ : Decidable p} {a b : Act} (ha : Act.Grows a) (hb : Act.Grows b) :
    Act.Grows (if p then a else b) := by
  split
  · exact ha
  · exact hb

theorem Act.Grows.act {f : State → State} (hf : ∀ {s₀ s : State}, s₀.Evolves true s → s₀.Evolves true (f s)) :
    Act.Grows (act f) := ⟨fun h => .next (hf h)⟩

theorem State.Reaches.runActs (h : s₀.Evolves true s) {as : List Act} (has : Acts.Grow as) :
    s₀.Reaches true (runActs as s) := by
  suffices hfrom : ∀ {as : List Act}, Acts.Grow as → ∀ {o : Host.Outcome State Fault Refusal}, s₀.Reaches true o →
      s₀.Reaches true (as.foldl (fun o a => match o with
        | .next s => a s
        | o => o) o) from hfrom has (.next h)
  intro as has
  induction as with
  | nil => exact id
  | cons a as ih =>
    intro o ho
    obtain ⟨ha, hrest⟩ := List.forall_mem_cons.mp has
    refine ih hrest ?_
    cases o with
    | next t => exact ha.run (ho t rfl)
    | fault r => exact .fault
    | refused r => exact .refused

theorem State.Evolves.readSlot (h : s₀.Evolves τ s) {who uid k : Nat} : s₀.Evolves τ (s.readSlot who uid k).1 :=
  .iteFst (.flag h) (.iteFst (.flag h) (.iteFst (.flag h) h))

theorem Acts.Grow.onBit {v : BitVec 64} {b : Nat} {f : Act} (hf : Act.Grows f) : Acts.Grow (onBit v b f) :=
  .ite (.one hf) .nil

theorem Acts.Grow.onEnable {k : Nat} {v : BitVec 64} {on off : Act} (hon : Act.Grows on) (hoff : Act.Grows off) :
    Acts.Grow (s.onEnable k v on off) := .ite (.one hon) (.ite (.one hoff) .nil)

theorem Acts.Grow.plainEnable {k : Nat} {v : BitVec 64} : Acts.Grow (s.plainEnable k v) :=
  .onEnable (.act fun h => .ite h (.putBit h)) (.act fun h => .putBit (.parityFree h))

theorem Act.Grows.clkOffsetAct {who : Fin 8} {v : BitVec 64} {env : WriteEnv} : Act.Grows (clkOffsetAct who v env) := by
  refine ⟨fun {s₀ s} h => ?_⟩
  unfold Machine.clkOffsetAct
  dsimp only
  split
  · exact .execClkOffsetWrite h
  · exact .execClkOffsetWrite (.draw h)

theorem Acts.Grow.monEnableActs {w : Nat} {v : BitVec 64} : Acts.Grow (s.monEnableActs w v) :=
  .onEnable (.act fun h => .ite h (.monEnable (.putBit h))) (.act fun h => .monEnable (.putBit (.parityFree h)))

theorem Act.Grows.queueCommand {v : BitVec 64} : Act.Grows (queueCommand v) := by
  unfold Machine.queueCommand
  dsimp only
  split
  · exact ⟨fun h => .execQueueEnable h⟩
  · exact ⟨fun h => .execQueueDisable h⟩
  · exact ⟨fun h => .execQueueSync h⟩
  · exact .act fun h => .queueStatus h

theorem Act.Grows.doorbellAct {v : BitVec 64} : Act.Grows (doorbellAct v) :=
  ⟨fun h => .ite .fault (.next (.doorbell h))⟩

theorem Acts.Grow.feedEnable {f : Nat} {v : BitVec 64} : Acts.Grow (s.feedEnable f v) :=
  .append (.append (.ite (.one ⟨fun _ => .fault⟩) .nil) .plainEnable) (.ite (.one (.act fun h => .setFeed h)) .nil)

/-- Write rules whose actions keep growth. -/
def Rules.Grow (rs : List WriteRule) : Prop := ∀ r ∈ rs, ∀ n e, Acts.Grow (r.acts n e)

theorem Rules.Grow.nil : Rules.Grow [] := nofun

theorem Rules.Grow.cons {base stride count sub subCount bits : Nat} {acts : Nat → Nat → List Act} {rs : List WriteRule}
    (hacts : ∀ {n e}, Acts.Grow (acts n e)) (hrs : Rules.Grow rs) :
    Rules.Grow (⟨base, stride, count, sub, subCount, bits, acts⟩ :: rs) :=
  List.forall_mem_cons.mpr ⟨fun _ _ => hacts, hrs⟩

theorem Rules.Grow.append {rs qs : List WriteRule} (hrs : Rules.Grow rs) (hqs : Rules.Grow qs) :
    Rules.Grow (rs ++ qs) :=
  List.forall_mem_append.mpr ⟨hrs, hqs⟩

section
variable {who : Fin 8} {env : WriteEnv} {k : Nat} {v : BitVec 64}

theorem Rules.Grow.mgmtRules : Rules.Grow (s.mgmtRules who v) :=
  .cons (.append (.onBit ⟨fun h => .execSaveStart h⟩) (.onBit ⟨fun h => .execEraseSets h⟩)) <|
  .cons (.onBit (.act fun h => .protLock h)) <|
  .cons (.onBit ⟨fun h => .execPwrGo h⟩) <|
  .cons (.ite (.one (.act fun h => .railEnabled h)) .nil) <|
  .cons (.ite .nil (.one (.act fun h => .railSet h))) <|
  .cons (.append (.append (.onBit ⟨fun h => .execWarmReset h⟩) (.onBit ⟨fun h => .execColdReset h⟩))
    (.onBit ⟨fun h => .execReplayStart h⟩)) <|
  .cons (.ite (.one ⟨fun h => .execWdogKick h⟩) (.onBit ⟨fun h => .execWdogKick h⟩)) <|
  .cons (.onBit ⟨fun h => .execMgtBlkRst h⟩) <|
  .cons .plainEnable <|
  .cons (.append (.onBit ⟨fun h => .execCalRunAll h⟩) (.one ⟨fun h => .calGo h⟩)) <|
  .cons (.onBit ⟨fun h => .execCalRun h⟩) <|
  .cons (.append .plainEnable (.ite .nil (.one (.act fun h => .ethLink h)))) .nil

theorem Rules.Grow.clockRules : Rules.Grow (s.clockRules who env v) :=
  .cons (.one (.act fun h => .supRate (.lockShow (.clkSource h)))) <|
  .cons (.one (.act fun h => .supRate h)) <|
  .cons (.one .clkOffsetAct) <|
  .cons (.onBit ⟨fun h => .execBandClear h⟩) <|
  .cons (.append (.onEnable ⟨fun h => .execCcsEnable h⟩ ⟨fun h => .execCcsEnable h⟩)
    (.onBit ⟨fun h => .execReorigin h⟩)) <|
  .cons (.append (.onEnable ⟨fun h => .execWpEnable h⟩ ⟨fun h => .execWpEnable h⟩)
    (.onBit ⟨fun h => .execWpCancel h⟩)) <|
  .cons (.one ⟨fun h => .execWpTailWrite h⟩) .nil

theorem Rules.Grow.intakeRules : Rules.Grow (s.intakeRules v) :=
  .cons (.onBit ⟨fun h => .execEyeScanStart h⟩) <|
  .cons (.append (.append (.append (.append (.ite (.one ⟨fun h => .execPairChange h⟩) .nil)
    (.onEnable ⟨fun h => .execLnkGroupEnable h⟩ ⟨fun h => .execLnkGroupDisable h⟩)) (.onBit ⟨fun h => .execRawGo h⟩))
    (.onBit ⟨fun h => .execRawSnap h⟩)) (.onBit ⟨fun h => .execAdaptRestart h⟩)) <|
  .cons (.onBit ⟨fun h => .execSpiGo h⟩) <|
  .cons (.onBit ⟨fun h => .execI2cGo h⟩) <|
  .cons (.append (.append (.append (.onEnable ⟨fun h => .execCndEnable h⟩ ⟨fun h => .execCndDisable h⟩)
    (.onBit ⟨fun h => .execCndCommit h⟩)) (.onBit ⟨fun h => .execCndCommitTimed h⟩))
    (.one (.act fun h => .eqJudge h))) <|
  .cons (.one (.act fun h => .eqJudge h)) <|
  .cons (.append (.append (.onEnable ⟨fun h => .execSpxEnable h⟩ ⟨fun h => .execSpxDisable h⟩)
    (.onBit ⟨fun h => .execSpxCommit h⟩)) (.onBit ⟨fun h => .execSpxCommitTimed h⟩)) <|
  .cons (.one (.act fun h => .spxBusy h)) .nil

theorem Rules.Grow.triggerRules : Rules.Grow (s.triggerRules who env k v) :=
  .cons (.append (.onBit ⟨fun h => .execTrgCommit h⟩) (.onBit ⟨fun h => .execTrgCommitTimed h⟩)) <|
  .cons (.append (.onEnable ⟨fun h => .execTrgUnitEnable h⟩ ⟨fun h => .execTrgUnitDisable h⟩)
    (.one ⟨fun h => .execTrgArm h⟩)) <|
  .cons (.ite (.one (.act fun h => .notePrior h)) .nil) <|
  .cons (.append (.append (.ite (.one ⟨fun h => .pulseJudge h⟩) .nil) .plainEnable)
    (.onBit ⟨fun h => .execTrigOutForce h⟩)) <|
  .cons (.append (.append (.append (.onEnable ⟨fun h => .execSeqEnable h⟩ ⟨fun h => .execSeqDisable h⟩)
    (.onBit ⟨fun h => .execForceHalt h⟩)) (.onBit ⟨fun h => .execSeqCommit h⟩)) (.onBit ⟨fun h => .execFaultPost h⟩)) <|
  .cons (.one ⟨fun h => .execSeqReq h⟩) <|
  .cons (.one (.act fun h => .noteStoreWrite h)) <|
  .cons (.onEnable ⟨fun h => .execAcqEnable h⟩ ⟨fun h => .execAcqDisable h⟩) <|
  .cons (.one ⟨fun h => .execAcqRelWrite h⟩) <|
  .cons (.one (.act fun h => .ebLevel h)) .nil

theorem Rules.Grow.densityRules : Rules.Grow (s.densityRules who v) :=
  .cons (.append (.append (.append (.append
    (.onEnable ⟨fun h => .execCanEnable h⟩ (.act fun h => .canDisable (.parityFree h)))
    (.onBit ⟨fun h => .execCanCommit h⟩)) (.onBit ⟨fun h => .execCanClear h⟩))
    (.ite .nil (.one ⟨fun h => .execCanHold h⟩))) (.onBit ⟨fun h => .execCanSnap h⟩)) <|
  .cons (.onEnable ⟨fun h => .execSpgEnable h⟩ (.act fun h => .spgDisable (.parityFree h))) <|
  .cons (.append (.append (.append (.append (.onEnable ⟨fun h => .execScnEnable h⟩ ⟨fun h => .execScnDisable h⟩)
    (.onBit ⟨fun h => .execScnCommit h⟩)) (.onBit ⟨fun h => .execPsrEnter h⟩)) (.onBit ⟨fun h => .execPsrExit h⟩))
    (.ite .nil (.one ⟨fun h => .execTraceReset h⟩))) .nil

theorem Rules.Grow.dspRules : Rules.Grow (s.dspRules v) :=
  .cons (.append (.append (.onEnable ⟨fun h => .execLntEnable h⟩ ⟨fun h => .execLntDisable h⟩)
    (.onBit ⟨fun h => .execLntForceHalt h⟩)) (.onBit ⟨fun h => .execLntHostIrq h⟩)) <|
  .cons (.onEnable ⟨fun h => .execLntPoolEnable h⟩ ⟨fun h => .execLntPoolEnable h⟩) <|
  .cons (.append (.append (.one ⟨fun h => .execTimStreams h⟩)
    (.onEnable ⟨fun h => .execTimEnable h⟩ ⟨fun h => .execTimEnable h⟩)) (.onBit ⟨fun h => .execInlStart h⟩)) <|
  .cons (.one ⟨fun h => .execTimSRelWrite h⟩) <|
  .cons (.one ⟨fun h => .execTimSRelWrite h⟩) <|
  .cons (.one ⟨fun h => .execCmpThresholdWrite h⟩) <|
  .cons .monEnableActs <|
  .cons (.one ⟨fun h => .execMonThrWrite h⟩) <|
  .cons (.append (.onEnable ⟨fun h => .execSupEnable h⟩ ⟨fun h => .execSupEnable h⟩)
    (.onBit ⟨fun h => .execSupTrigger h⟩)) <|
  .cons (.append (.onEnable ⟨fun h => .execSupEnable h⟩ ⟨fun h => .execSupEnable h⟩)
    (.onBit ⟨fun h => .execSupTrigger h⟩)) .nil

theorem Rules.Grow.memoryRules : Rules.Grow (s.memoryRules v) :=
  .cons (.append (.onEnable ⟨fun h => .execMemEnable h⟩ ⟨fun h => .execMemDisable h⟩) (.onBit ⟨fun h => .execRetrain h⟩)) <|
  .cons (.onBit ⟨fun h => .execMemRateReq h⟩) <|
  .cons (.one .queueCommand) <|
  .cons (.one .doorbellAct) <|
  .cons .feedEnable <|
  .cons (.append (.append (.onEnable ⟨fun h => .execDmaEnable h⟩ ⟨fun h => .execDmaDisable h⟩)
    (.ite .nil (.one (.ite ⟨fun h => .execDmaPause h⟩ ⟨fun h => .execDmaResume h⟩))))
    (.onBit ⟨fun h => .execDmaStartDoorbell h⟩)) <|
  .cons (.onBit ⟨fun h => .execCfgAccGo h⟩) .nil

theorem Rules.Grow.fabricRules : Rules.Grow (s.fabricRules v) :=
  .cons (.append (.onEnable ⟨fun h => .execDrvSetEnable h⟩ ⟨fun h => .execDrvSetEnable h⟩)
    (.onBit ⟨fun h => .execDrvStop h⟩)) <|
  .cons (.append (.onEnable ⟨fun h => .execFabEnable h⟩ ⟨fun h => .execFabEnable h⟩) (.onBit ⟨fun h => .execFabStep h⟩)) <|
  .cons (.onEnable ⟨fun h => .execFabPortEnable h⟩ ⟨fun h => .execFabPortEnable h⟩) <|
  .cons (.one ⟨fun h => .execPortRetest h⟩) <|
  .cons (.onBit ⟨fun h => .execEyeScanStart h⟩) .nil

theorem Acts.Grow.of_writeRule {r : WriteRule} (hrule : s.writeRule who env k v = some r) {n e : Nat} :
    Acts.Grow (r.acts n e) := by
  unfold State.writeRule at hrule
  have hmem := List.mem_of_find?_eq_some hrule
  split at hmem
  · exact Rules.Grow.mgmtRules r hmem n e
  · exact Rules.Grow.clockRules r hmem n e
  · exact Rules.Grow.intakeRules r hmem n e
  · exact (Rules.Grow.intakeRules.append .triggerRules).append .densityRules r hmem n e
  · exact Rules.Grow.dspRules r hmem n e
  · exact (Rules.Grow.memoryRules.append .fabricRules).append .mgmtRules r hmem n e

end

theorem State.Reaches.takeWrite (h : s₀.Evolves true s) {who : Fin 8} {r : EntryRow} {k : Nat} {v : BitVec 64}
    {env : WriteEnv} : s₀.Reaches true (s.takeWrite who r k v env) := by
  have hstored (p q : Prop) [Decidable p] [Decidable q] (k' : Nat) (x : BitVec 64) (l : List Nat) :
      let t := s.wr k' x
      let t := { t with mgt := { t.mgt with faulted := l } }
      let t := if p then t.flag who k .ignored else t
      s₀.Evolves true (if q then t.flag who k .conflict else t) := by
    intro t t' t''
    have hflagged : s₀.Evolves true t'' := .ite (.flag (.same (.wr h))) (.same (.wr h))
    exact .ite (.flag hflagged) hflagged
  unfold State.takeWrite
  dsimp only
  split
  case h_1 hrule => exact .runActs (hstored _ _ _ _ _) (.of_writeRule hrule)
  case h_2 => exact .next (hstored _ _ _ _ _)

theorem State.Reaches.writeSlot (h : s₀.Evolves true s) {who : Fin 8} {uid k lo hi : Nat} {v : BitVec 64} {env :
    WriteEnv} :
    s₀.Reaches true (s.writeSlot who uid k lo hi v env) := by
  unfold State.writeSlot
  refine .ite (.next (.flag h)) ?_
  refine .ite (.next (.flag h)) ?_
  split
  · exact .next (.flag h)
  · refine .ite (.next h) ?_
    refine .ite (.next (.flag h)) ?_
    refine .ite (.next (.flag h)) ?_
    refine .ite (.next (.flag h)) ?_
    split
    · exact .fault
    · exact .takeWrite h

theorem State.Evolves.fresh' (h : s₀.Evolves τ s) : s₀.Evolves τ s.fresh' := by
  unfold State.fresh'
  extract_lets s₁
  have h₁ : s₀.Evolves τ s₁ := .noteSram h
  exact .same h₁

theorem State.Reaches.writeBytes {fuel : Nat} (h : s₀.Evolves true s) {who : Fin 8} {uid k off : Nat} {env : WriteEnv}
    {bs : List (BitVec 8)} : s₀.Reaches true (State.writeBytes who uid env fuel k off bs s) := by
  induction fuel generalizing s k off bs with
  | zero => exact .next h
  | succ fuel ih =>
    have hslot (hi : Nat) (v : BitVec 64) : s₀.Reaches true (s.writeSlot who uid k off hi v env) := .writeSlot h
    refine .ite (.next h) ?_
    dsimp only
    split
    case h_1 t hnext => exact ih (hslot _ _ t hnext)
    case h_2 => exact hslot _ _

theorem State.Reaches.execRegisterWrite (h : s₀.Evolves true s) {who : Fin 8} {uid : BitVec 56} {addr : BitVec 27}
    {data : List (BitVec 8)} {env : WriteEnv} :
    s₀.Reaches true (execRegisterWrite who uid addr data env s) :=
  .ite (.writeBytes (.fresh' h)) (.next h)

/-! ### RAP -/

theorem State.Evolves.rapBad (h : s₀.Evolves τ s) : s₀.Evolves τ s.rapBad := .bumpSat h

theorem State.Evolves.ethTaken (h : s₀.Evolves τ s) : s₀.Evolves τ s.ethTaken := .bump h

theorem State.Evolves.ethDrop (h : s₀.Evolves τ s) : s₀.Evolves τ s.ethDrop := .bumpSat h

theorem State.Evolves.ethSend (h : s₀.Evolves τ s) {m : OutMsg} : s₀.Evolves τ (s.ethSend m) := .send (.bump h)

theorem State.Evolves.rapSend (h : s₀.Evolves τ s) {peer : Peer} {r : RapReply} {reply : Bool} :
    s₀.Evolves τ (s.rapSend peer r reply) := by
  unfold State.rapSend
  split
  · exact .ethSend h
  · exact .e2eSend h

theorem State.Evolves.setSessions (h : s₀.Evolves τ s) {xs : List Session} : s₀.Evolves τ (s.setSessions xs) :=
  .wrN (.keeps h)

theorem State.Evolves.onSession (h : s₀.Evolves τ s) {peer : Peer} {id : Nat} {f : Session → Session} :
    s₀.Evolves τ (s.onSession peer id f) :=
  .setSessions h

theorem State.Evolves.sessionRoom (h : s₀.Evolves τ s) : s₀.Evolves τ (s.sessionRoom).1 := by
  unfold State.sessionRoom
  refine .iteFst h ?_
  split
  · exact h
  · exact .iteFst (.raise (.setSessions h)) h

theorem State.Evolves.writeBlock {vs : List (BitVec 64)} (h : s₀.Evolves true s) {who : Fin 8} {uid addr i : Nat}
    {envs : List WriteEnv} {r : State × Nat × List Bool}
    (hrun : State.writeBlock who uid addr i vs envs s = .next r) : s₀.Evolves true r.1 := by
  induction vs generalizing s i envs r with
  | nil =>
    cases hrun
    exact h
  | cons v vs ih =>
    unfold State.writeBlock at hrun
    split at hrun
    case h_1 t hslot =>
      have ht : s₀.Evolves true t := State.Reaches.writeSlot (.fresh' h) t hslot
      dsimp only at hrun
      split at hrun
      case h_1 r' hrest =>
        cases hrun
        exact ih (r := r') ht hrest
      all_goals cases hrun
    all_goals cases hrun

theorem State.Evolves.readBlock {fuel : Nat} (h : s₀.Evolves τ s) {who uid addr i : Nat} :
    s₀.Evolves τ (State.readBlock who uid addr fuel i s).state := by
  induction fuel generalizing s i with
  | zero => exact h
  | succ fuel ih => exact ih (.readSlot (.fresh' h))

theorem State.Evolves.rapRun (h : s₀.Evolves true s) {peer : Peer} {op : Nat} {m : RapMsg} {envs : List WriteEnv}
    {d : RapDone} (hrun : s.rapRun peer op m envs = .next d) : s₀.Evolves true d.state := by
  unfold State.rapRun at hrun
  dsimp only at hrun
  split at hrun
  · cases hrun
    exact h
  split at hrun
  · cases hrun
    exact .readBlock h
  · split at hrun
    case h_1 hblock =>
      cases hrun
      exact .writeBlock h hblock
    all_goals cases hrun
  · cases hrun
    exact .readBlock h
  · split at hrun
    case h_1 hblock =>
      cases hrun
      exact .writeBlock h hblock
    all_goals cases hrun
  · cases hrun
    exact .onSession h

theorem State.Reaches.rapTurn (h : s₀.Evolves true s) {peer : Peer} {op : Nat} {m : RapMsg} {envs : List WriteEnv} :
    s₀.Reaches true (s.rapTurn peer op m envs) := by
  unfold State.rapTurn
  split
  case h_1 d hrun =>
    have hd : s₀.Evolves true d.state := .rapRun h hrun
    exact .ite (.next hd) (.next (.rapSend (.onSession hd)))
  · exact .fault
  · exact .refused

theorem State.Reaches.rapAhead {fuel : Nat} (h : s₀.Evolves true s) {peer : Peer} {id : Nat} :
    s₀.Reaches true (State.rapAhead peer id fuel s) := by
  induction fuel generalizing s with
  | zero => exact .next h
  | succ fuel ih =>
    unfold State.rapAhead
    split
    · exact .next h
    split
    · exact .next h
    have hturn (f : Session → Session) (op : Nat) (r : RapMsg) :
        s₀.Reaches true ((s.onSession peer id f).rapTurn peer op r []) := .rapTurn (.onSession h)
    dsimp only
    split
    case h_1 t hnext => exact ih (hturn _ _ _ t hnext)
    case h_2 => exact hturn _ _ _

theorem State.Reaches.rapOrder (h : s₀.Evolves true s) {peer : Peer} {x : Session} {op : Nat} {m : RapMsg}
    {envs : List WriteEnv} : s₀.Reaches true (s.rapOrder peer x op m envs) := by
  have hturn : s₀.Reaches true (s.rapTurn peer op m envs) := .rapTurn h
  refine .ite ?_ (.ite (.ite (.next h) (.next (.onSession h))) ?_)
  · split
    case h_1 t hnext => exact .rapAhead (hturn t hnext)
    case h_2 => exact hturn
  split
  · exact .next (.rapSend (.bumpSat h))
  · exact .next (.rapSend (.bumpSat h))

theorem State.Reaches.rapServe (h : s₀.Evolves true s) {peer : Peer} {op : Nat} {m : RapMsg} {envs : List WriteEnv}
    :
    s₀.Reaches true (s.rapServe peer op m envs) := by
  unfold State.rapServe
  split
  · extract_lets s₁
    have h₁ : s₀.Evolves true s₁ := .onSession h
    exact .rapOrder h₁
  · exact .ite (.rapOrder (.setSessions (.sessionRoom h))) (.next (.rapSend (.sessionRoom h)))

theorem State.Evolves.notifyAck (h : s₀.Evolves τ s) {peer : Peer} {id seq : Nat} :
    s₀.Evolves τ (s.notifyAck peer id seq) :=
  .onSession h

theorem State.Reaches.rapArrive (h : s₀.Evolves true s) {peer : Peer} {op : Nat} {reply : Bool} {m : RapMsg} {envs :
    List WriteEnv} :
    s₀.Reaches true (s.rapArrive peer op reply m envs) :=
  .ite (.next h) (.ite (.next (.rapBad h)) (.ite (.next (.ite (.notifyAck h) h)) (.ite (.next (.setBoot h))
    (.rapServe h))))

theorem State.Reaches.rapFrom (h : s₀.Evolves true s) {peer : Peer} {op : Nat} {reply : Bool} {m : RapMsg} {envs :
    List WriteEnv} :
    s₀.Reaches true (s.rapFrom peer op reply m envs) := by
  unfold State.rapFrom
  split
  · exact .rapArrive h
  · exact .ite (.next h) (.ite .fault (.ite (.next (.wakeBy h)) (.ite (.next (.wakeBy (.ethDrop (.ethTaken h))))
        (.rapArrive (.wakeBy (.ethTaken h))))))

theorem State.Reaches.execRapRead (h : s₀.Evolves true s) {peer : Peer} {m : RapMsg} :
    s₀.Reaches true (execRapRead peer m s) :=
  .rapFrom h

theorem State.Reaches.execRapWrite (h : s₀.Evolves true s) {peer : Peer} {m : RapMsg} {env : WriteEnv} :
    s₀.Reaches true (execRapWrite peer m env s) :=
  .rapFrom h

theorem State.Reaches.execRapReadBlock (h : s₀.Evolves true s) {peer : Peer} {m : RapMsg} :
    s₀.Reaches true (execRapReadBlock peer m s) :=
  .rapFrom h

theorem State.Reaches.execRapWriteBlock (h : s₀.Evolves true s) {peer : Peer} {m : RapMsg} {envs : List WriteEnv} :
    s₀.Reaches true (execRapWriteBlock peer m envs s) :=
  .rapFrom h

theorem State.Reaches.execRapSubscribe (h : s₀.Evolves true s) {peer : Peer} {m : RapMsg} :
    s₀.Reaches true (execRapSubscribe peer m s) :=
  .rapFrom h

theorem State.Reaches.execNotifyAck (h : s₀.Evolves true s) {peer : Peer} {m : RapMsg} :
    s₀.Reaches true (execNotifyAck peer m s)  :=
  .rapFrom h

theorem State.Reaches.execNotifySend (h : s₀.Evolves τ s) {i : Fin 32} : s₀.Reaches τ (execNotifySend i s) := by
  unfold Machine.execNotifySend
  refine .next ?_
  split
  · exact h
  · refine .ite h ?_
    extract_lets _ _ s₁
    have h₁ : s₀.Evolves τ s₁ := .onSession h
    exact .rapSend h₁

theorem State.Reaches.execNotifyResend (h : s₀.Evolves τ s) {i : Fin 32} {seq : BitVec 32} :
    s₀.Reaches τ (execNotifyResend i seq s) := by
  unfold Machine.execNotifyResend
  refine .next ?_
  split
  · exact h
  · split
    · exact h
    · refine .ite ?_ h
      extract_lets s₁
      have h₁ : s₀.Evolves τ s₁ := .onSession h
      exact .rapSend (.bumpSat h₁)

theorem State.Reaches.execArpRequest (h : s₀.Evolves τ s) {mac : BitVec 48} {ip target : BitVec 32} :
    s₀.Reaches τ (execArpRequest mac ip target s) :=
  .next (.ite (.ite (.ethSend (.ethTaken h)) (.ethDrop (.ethTaken h))) h)

theorem State.Reaches.execIcmpEchoRequest (h : s₀.Evolves τ s) {mac : BitVec 48} {ip : BitVec 32} {data : List
    (BitVec 8)} :
    s₀.Reaches τ (execIcmpEchoRequest mac ip data s) :=
  .next (.ite (.ite (.ethSend (.ethTaken h)) (.ethDrop (.ethTaken h))) h)

theorem State.Reaches.execEthFrameDiscard (h : s₀.Evolves τ s) {taken : Bool} :
    s₀.Reaches τ (execEthFrameDiscard taken s) :=
  .next (.ite (.ite (.ethDrop (.ethTaken h)) (.ethDrop h)) h)

theorem State.Reaches.execMgtEthLink (h : s₀.Evolves τ s) {up : Bool} : s₀.Reaches τ (execMgtEthLink up s) :=
  .next (.ite h (.ethLink h))

/-! ### Boot -/

theorem State.Evolves.bootFail (h : s₀.Evolves τ s) : s₀.Evolves τ s.bootFail := .send (.setStage (.keeps h))

theorem State.Evolves.scriptStop (h : s₀.Evolves τ s) {cause : Nat} : s₀.Evolves τ (s.scriptStop cause) :=
  .bootFail (.setFld h)

theorem State.Evolves.calMissing (h : s₀.Evolves τ s) {id : Nat} : s₀.Evolves τ (s.calMissing id) :=
  .calMakeDue (.putBit (.setHlt h))

theorem State.Evolves.calLoad (h : s₀.Evolves τ s) {missing : List Nat} : s₀.Evolves τ (s.calLoad missing) :=
  .foldl (fun h => .wr h) (.foldl (fun h => .wrN (.wrI h)) (.foldl (fun h => .calMissing h) h))

theorem State.Evolves.scriptNext (h : s₀.Evolves τ s) {skip : Nat} : s₀.Evolves τ (s.scriptNext skip) := .setBoot h

theorem State.Evolves.sysStart (h : s₀.Evolves τ s) : s₀.Evolves τ s.sysStart :=
  .ite (.foldl (fun h => .pllStart h) h) h

theorem State.Reaches.scriptRun (h : s₀.Evolves τ s) {op : Nat}
    {f : ScriptRec → State → Host.Outcome State Fault Refusal}
    (hf : ∀ {r : ScriptRec} {t : State}, s₀.Evolves τ t → s₀.Reaches τ (f r t)) :
    s₀.Reaches τ (s.scriptRun op f) :=
  .ite (.next h) (.ite (.next (.scriptStop (.wrN h))) (.ite (.next h) (.ite .fault
    (hf (.ite (.wrN h) (.sysStart (.wrN h)))))))

theorem State.Evolves.waitHolds (h : s₀.Evolves τ s) {r : ScriptRec} : s₀.Evolves τ (s.waitHolds r).1 := .readSlot h

theorem State.Reaches.execPorRelease (h : s₀.Evolves τ s) : s₀.Reaches τ (execPorRelease s) :=
  .next (.ite (.setStage (.railsUp h)) h)

theorem State.Evolves.mramBad (h : s₀.Evolves τ s) {bad : List (BitVec 18)} : s₀.Evolves τ (s.mramBad bad) := by
  unfold State.mramBad
  extract_lets _ s₁ _ _ _ s₂
  have h₁ : s₀.Evolves τ s₁ := .foldl (fun h => .raise h) h
  have h₂ : s₀.Evolves τ s₂ := .showSets (.same h₁)
  exact .ite (.wr (.same h₂)) h₂

theorem State.Evolves.slotStarts (h : s₀.Evolves τ s) {r : SlotRead} {n : Nat} :
    s₀.Evolves τ (s.slotStarts r n) := by
  unfold State.slotStarts
  extract_lets s₁ s₂ _ _ s₃
  have h₁ : s₀.Evolves τ s₁ := .mramBad h
  have h₂ : s₀.Evolves τ s₂ := .setStage (.putBit h₁)
  have h₃ : s₀.Evolves τ s₃ := .wrN (.setFld h₂)
  exact .ite (.setBoot h₂) (.setBoot (.calLoad h₃))

theorem State.Reaches.execSlotReadDone (h : s₀.Evolves true s) {r : SlotRead} :
    s₀.Reaches true (execSlotReadDone r s) := by
  unfold Machine.execSlotReadDone
  refine .next (.ite h ?_)
  extract_lets
  split
  · refine .ite (.coldReset h) ?_
    extract_lets s₁
    have h₁ : s₀.Evolves true s₁ := .setFld h
    exact .ite (.bootFail h₁) (.setBoot h₁)
  · exact .ite (.coldReset h) (.slotStarts h)

theorem State.Reaches.execScriptWrite (h : s₀.Evolves true s) {env : WriteEnv} :
    s₀.Reaches true (execScriptWrite env s) :=
  .scriptRun h (fun h => .ite .fault (.writeSlot (.scriptNext h)))

theorem State.Reaches.execScriptWait (h : s₀.Evolves τ s) : s₀.Reaches τ (execScriptWait s) := by
  unfold Machine.execScriptWait
  refine .scriptRun h (fun h => ?_)
  extract_lets r₁
  have h₁ : s₀.Evolves τ r₁.1 := .waitHolds h
  exact .ite .fault (.next (.ite (.scriptNext h₁) (.ite h₁ (.setBoot h₁))))

theorem State.Reaches.execScriptWaitTimeout (h : s₀.Evolves τ s) : s₀.Reaches τ (execScriptWaitTimeout s) := by
  unfold Machine.execScriptWaitTimeout
  refine .scriptRun h (fun h => ?_)
  refine .next ?_
  split
  · exact h
  · refine .ite ?_ h
    extract_lets r₁
    have h₁ : s₀.Evolves τ r₁.1 := .waitHolds h
    exact .ite (.scriptNext h₁) (.scriptStop h₁)

theorem State.Reaches.execScriptDelay (h : s₀.Evolves τ s) : s₀.Reaches τ (execScriptDelay s) :=
  .scriptRun h (fun h => .next (.ite h (.setBoot h)))

theorem State.Reaches.execScriptDelayEnd (h : s₀.Evolves τ s) : s₀.Reaches τ (execScriptDelayEnd s) := by
  unfold Machine.execScriptDelayEnd
  refine .scriptRun h (fun h => ?_)
  refine .next ?_
  split
  · exact h
  · exact .ite (.scriptNext h) h

theorem State.Reaches.execScriptSaveset (h : s₀.Evolves true s) : s₀.Reaches true (execScriptSaveset s) := by
  refine .scriptRun h fun h => .runActs (.scriptNext h) ?_
  intro a ha
  obtain ⟨r, -, rfl⟩ := List.mem_map.mp ha
  exact ⟨fun h => .writeSlot h⟩

theorem State.Reaches.execScriptWarm (h : s₀.Evolves τ s) : s₀.Reaches τ (execScriptWarm s) :=
  .scriptRun h (fun h => .next (.scriptNext h))

theorem State.Reaches.execScriptCopy (h : s₀.Evolves τ s) : s₀.Reaches τ (execScriptCopy s) :=
  .scriptRun h (fun h => .ite (.next (.scriptStop h)) (.ite .fault (.next (.wrBytes (.scriptNext h)))))

theorem State.Reaches.execScriptEnd (h : s₀.Evolves τ s) : s₀.Reaches τ (execScriptEnd s) :=
  .scriptRun h (fun h => .next (.setBoot (.setStage (.protLock h))))

theorem State.Reaches.rapReleased (h : s₀.Evolves true s) {held : List (Peer × Nat × RapMsg)} :
    s₀.Reaches true (s.rapReleased held) := by
  refine .runActs h fun a ha => ?_
  obtain ⟨r, -, rfl⟩ := List.mem_map.mp ha
  exact ⟨fun h => .rapServe h⟩

theorem State.Reaches.execResetRelease (h : s₀.Evolves true s) : s₀.Reaches true (execResetRelease s) := by
  unfold Machine.execResetRelease
  refine .ite ?_ (.next h)
  extract_lets _ _ s₁ s₂ s₃
  have h₁ : s₀.Evolves true s₁ := .setBoot h
  have h₂ : s₀.Evolves true s₂ := .railsUp (.setStage h₁)
  have h₃ : s₀.Evolves true s₃ := .ite h₂ (.reached h₂)
  exact .rapReleased h₃

/-! ### Fabric reception -/

theorem State.Evolves.frameAcked (h : s₀.Evolves τ s) {p n : Nat} : s₀.Evolves τ (s.frameAcked p n) :=
  .ite h (.drainWait (.setFport h))

theorem State.Evolves.frameNaked (h : s₀.Evolves τ s) {p n : Nat} : s₀.Evolves τ (s.frameNaked p n) := by
  unfold State.frameNaked
  extract_lets _ _ s₁ s₂
  have h₁ : s₀.Evolves τ s₁ := .setFport h
  have h₂ : s₀.Evolves τ s₂ := .foldl (fun h => .send (.bumpSat h)) h₁
  exact .ite (.portFault h₂) h₂

theorem State.Evolves.creditBack (h : s₀.Evolves τ s) {p vc n : Nat} : s₀.Evolves τ (s.creditBack p vc n) :=
  .drainWait (.setFport h)

theorem State.Reaches.rapPacket (h : s₀.Evolves true s) {k : FabPkt} {bytes : List (BitVec 8)} :
    s₀.Reaches true (s.rapPacket k bytes) := by
  unfold State.rapPacket
  split
  · exact .next h
  · refine .ite ?_ (.next (.e2eTake (.e2eAcks h)))
    split
    · exact .next (.ite (.rapBad (.e2eTake (.e2eAcks h))) (.e2eTake (.e2eAcks h)))
    · exact .rapFrom (.e2eTake (.e2eAcks h))

theorem State.Reaches.framePacket (h : s₀.Evolves true s) {p sub : Nat} {k : FabPkt} :
    s₀.Reaches true (s.framePacket p sub k)  := by
  unfold State.framePacket
  extract_lets s₁
  have h₁ : s₀.Evolves true s₁ := .send h
  split
  · exact .ite (.rapPacket h₁) (.next (.pktArrive h₁))
  · exact .next (.pktArrive h₁)

theorem State.Reaches.frameTake (h : s₀.Evolves true s) {p sub : Nat} {f : FabFrame} :
    s₀.Reaches true (s.frameTake p sub f) := by
  unfold State.frameTake
  extract_lets s₁ s₂ _ s₃ s₄ s₅ s₆
  have h₁ : s₀.Evolves true s₁ := .bump h
  have h₂ : s₀.Evolves true s₂ := .bumpSat h₁
  have h₃ : s₀.Evolves true s₃ := .setFport h₂
  have h₄ : s₀.Evolves true s₄ := .send h₃
  have h₅ : s₀.Evolves true s₅ := by
    unfold s₅
    split
    · exact .creditBack h₄
    · exact h₄
  have h₆ : s₀.Evolves true s₆ := by
    unfold s₆
    split
    · extract_lets s₇
      have h₇ : s₀.Evolves true s₇ := .frameAcked h₅
      exact .ite h₇ (.frameNaked h₇)
    · exact h₅
  refine .ite (.next (.send h₂)) ?_
  split
  · exact .framePacket h₆
  · exact .next h₆

theorem State.Reaches.execFrameReceive (h : s₀.Evolves true s) {p : Fin 8} {sub : Fin 4096} {f : FabFrame} :
    s₀.Reaches true (execFrameReceive p sub f s) :=
  .ite (.frameTake h) (.next (.ite (.send h) h))

theorem State.Reaches.execJtagInstruction (h : s₀.Evolves τ s) {i : Fin 4} :
    s₀.Reaches τ (execJtagInstruction i s) := by
  unfold Machine.execJtagInstruction
  refine .ite .fault ?_
  refine .next ?_
  extract_lets s₁
  have h₁ : s₀.Evolves τ s₁ := .keeps h
  split
  · exact .send h₁
  · exact .send (.draw h₁)
  · exact .send h₁

/-! ### The steps of one cycle -/

theorem State.Evolves.sramPassed (h : s₀.Evolves τ s) {p off : Nat} : s₀.Evolves τ (s.sramPassed p off) :=
  .ite (.setCan h) h

theorem State.Evolves.sramReadBad (h : s₀.Evolves τ s) {e : Fin 5 × Nat} : s₀.Evolves τ (s.sramReadBad e) :=
  .ite h (.sramPassed (.sramDouble h))

theorem State.Evolves.sramReadCorrected (h : s₀.Evolves τ s) {e : Fin 5 × Nat} :
    s₀.Evolves τ (s.sramReadCorrected e) :=
  .ite h (.sramCorrected h)

theorem State.Reaches.execSramScrub (h : s₀.Evolves τ s) {corrected double : List (Fin 5 × Nat)} :
    s₀.Reaches τ (execSramScrub corrected double s) := by
  unfold Machine.execSramScrub
  refine .next ?_
  extract_lets _ _ _ _ s₁
  have h₁ : s₀.Evolves τ s₁ := .ite (.keeps h) h
  exact .ite (.foldl (fun h => .sramReadBad h) (.foldl (fun h => .sramReadCorrected h) h₁)) h

/-! ### Every command -/

theorem State.Reaches.exec (h : s₀.Evolves true s) {i : Instr} : s₀.Reaches true (exec i s) := by
  unfold Machine.exec
  split
  · exact .execRegisterWrite h
  · exact .execRapRead h
  · exact .execRapWrite h
  · exact .execRapReadBlock h
  · exact .execRapWriteBlock h
  · exact .execRapSubscribe h
  · exact .execNotifyAck h
  · exact .execNotifySend h
  · exact .execNotifyResend h
  · exact .execArpRequest h
  · exact .execIcmpEchoRequest h
  · exact .execEthFrameDiscard h
  · exact .execMgtEthLink h
  · exact .execParityCheck h
  · exact .execSaveStart h
  · exact .execSaveComplete h
  · exact .execEraseSets h
  · exact .execLnkGroupEnable h
  · exact .execLnkGroupDisable h
  · exact .execPrsntEdge h
  · exact .execPresentChange h
  · exact .execIdReady h
  · exact .execPowerDone h
  · exact .execCdrLock h
  · exact .execCdrTimeout h
  · exact .execAdaptDone h
  · exact .execAdaptTimeout h
  · exact .execEmbLock h
  · exact .execSyncTimeout h
  · exact .execSysrefEdge h
  · exact .execLnkRelease h
  · exact .execSysrefMissing h
  · exact .execRawGo h
  · exact .execRawSnap h
  · exact .execAdaptRestart h
  · exact .execFaultRelink h
  · exact .execMultiblock h
  · exact .execLinkLost h
  · exact .execFreqOfsFault h
  · exact .execEyeScanStart h
  · exact .execEyeDone h
  · exact .execSpiGo h
  · exact .execSpiDone h
  · exact .execI2cGo h
  · exact .execI2cDone h
  · exact .execLaneWord h
  · exact .execConditioningOutput h
  · exact .execCndEnable h
  · exact .execCndDisable h
  · exact .execCndCommit h
  · exact .execCndCommitTimed h
  · exact .execIlEstimate h
  · exact .execSpxEnable h
  · exact .execSpxDisable h
  · exact .execSpxDrainEnd h
  · exact .execSpectrumEmit h
  · exact .execSpxCommit h
  · exact .execSpxCommitTimed h
  · exact .execTriggerIssue h
  · exact .execTrigOutPulseEnd h
  · exact .execTrigOutForce h
  · exact .execExtTrigEdge h
  · exact .execTimuWindowExpiry h
  · exact .execRlFire h
  · exact .execRlProvisional h
  · exact .execRlConfirm h
  · exact .execRlCancel h
  · exact .execProvisionalExpiry h
  · exact .execTrgUnitEnable h
  · exact .execTrgUnitDisable h
  · exact .execTrgArm h
  · exact .execTrgCommit h
  · exact .execTrgCommitTimed h
  · exact .execTrgHandover h
  · exact .execSeqEnable h
  · exact .execSeqDisable h
  · exact .execForceHalt h
  · exact .execSeqCommit h
  · exact .execFaultPost h
  · exact .execSeqReq h
  · exact .execSeqCont h
  · exact .execSeqJump h
  · exact .execSeqMap h
  · exact .execSeqJnz h
  · exact .execSeqJz h
  · exact .execSeqWait h
  · exact .execSeqWaitmap h
  · exact .execSeqCall h
  · exact .execSeqCallmap h
  · exact .execSeqRet h
  · exact .execSeqReti h
  · exact .execSeqRestart h
  · exact .execSeqHalt h
  · exact .execSeqTimerExpiry h
  · exact .execAcqEnable h
  · exact .execAcqDisable h
  · exact .execRecordUnitWrite h
  · exact .execAcqRelWrite h
  · exact .execCanEnable h
  · exact .execCanClear h
  · exact .execCanHold h
  · exact .execCanCommit h
  · exact .execCanSnap h
  · exact .execCanSnapDone h
  · exact .execDecayTimer h
  · exact .execDecayPassEnd h
  · exact .execSpgEnable h
  · exact .execSpgLineWrite h
  · exact .execScnEnable h
  · exact .execScnDisable h
  · exact .execScnCommit h
  · exact .execPsrEnter h
  · exact .execPsrExit h
  · exact .execTraceReset h
  · exact .execSamplingPoint h
  · exact .execFrameStart h
  · exact .execLineStart h
  · exact .execExtendedLineEnd h
  · exact .execIrqHpd h
  · exact .execHpdLost h
  · exact .execHpdReturn h
  · exact .execVsyncInEdge h
  · exact .execScnVsyncLost h
  · exact .execLntNop h
  · exact .execLntZero h
  · exact .execLntCopy h
  · exact .execLntCopya h
  · exact .execLntAdd h
  · exact .execLntSub h
  · exact .execLntAdda h
  · exact .execLntSuba h
  · exact .execLntMul h
  · exact .execLntMuln h
  · exact .execLntMadd h
  · exact .execLntMsub h
  · exact .execLntDmul h
  · exact .execLntDmadd h
  · exact .execLntDsump h
  · exact .execLntDdifp h
  · exact .execLntCross h
  · exact .execLntAbs h
  · exact .execLntNeg h
  · exact .execLntRound h
  · exact .execLntClip h
  · exact .execLntShl h
  · exact .execLntShra h
  · exact .execLntShrl h
  · exact .execLntAnd h
  · exact .execLntOr h
  · exact .execLntXor h
  · exact .execLntNot h
  · exact .execLntCmp h
  · exact .execLntCmpa h
  · exact .execLntMax h
  · exact .execLntMin h
  · exact .execLntNsign h
  · exact .execLntGoto h
  · exact .execLntCall h
  · exact .execLntRet h
  · exact .execLntIret h
  · exact .execLntLeave h
  · exact .execLntLoop h
  · exact .execLntRepeat h
  · exact .execLntLimm h
  · exact .execLntRmov h
  · exact .execLntMmov h
  · exact .execLntWait h
  · exact .execLntDone h
  · exact .execLntEnq h
  · exact .execLntXfer h
  · exact .execLntEvt h
  · exact .execLntSync h
  · exact .execLntSignal h
  · exact .execLntInterruptAccept h
  · exact .execLntTmrExpiry h
  · exact .execLntXferComplete h
  · exact .execLntHostIrq h
  · exact .execLntEnable h
  · exact .execLntDisable h
  · exact .execLntForceHalt h
  · exact .execLntPoolEnable h
  · exact .execTaskDispatch h
  · exact .execInboxDone h
  · exact .execTaskCommit h
  · exact .execLntWatchdog h
  · exact .execTiEdge h
  · exact .execIntervalPair h
  · exact .execPairWindowExpiry h
  · exact .execNoedge h
  · exact .execStreamWrite h
  · exact .execQueueBatchTimeout h
  · exact .execTimEnable h
  · exact .execTimSRelWrite h
  · exact .execInlStart h
  · exact .execInjectedEdge h
  · exact .execCmpThresholdWrite h
  · exact .execSettlingEnd h
  · exact .execCcsEnable h
  · exact .execReorigin h
  · exact .execCycEdge h
  · exact .execCycMissing h
  · exact .execHoldExpired h
  · exact .execWpEnable h
  · exact .execWpTailWrite h
  · exact .execWpCancel h
  · exact .execWpNone h
  · exact .execWpArm h
  · exact .execWpTrigger h
  · exact .execWpSignal h
  · exact .execWpTag h
  · exact .execWpConvert h
  · exact .execWpTask h
  · exact .execWpFabric h
  · exact .execFabricLookaheadSend h
  · exact .execSupEnable h
  · exact .execSupTrigger h
  · exact .execSupTimer h
  · exact .execSupGo h
  · exact .execSarStep h
  · exact .execSarConversionEnd h
  · exact .execLineSyncEdge h
  · exact .execIcWindowEnd h
  · exact .execIcNosync h
  · exact .execMonTick h
  · exact .execMonSample h
  · exact .execMonPeriodStart h
  · exact .execMonThrWrite h
  · exact .execMemEnable h
  · exact .execMemDisable h
  · exact .execMemReady h
  · exact .execRetrain h
  · exact .execMemRateReq h
  · exact .execMemRateDone h
  · exact .execBgtProbe h
  · exact .execRefresh h
  · exact .execBankVisit h
  · exact .execPatrolRead h
  · exact .execSramScrub h
  · exact .execQueueEnable h
  · exact .execQueueDisable h
  · exact .execQueueSync h
  · exact .execTailDoorbell h
  · exact .execHeadDoorbell h
  · exact .execDmaStartDoorbell h
  · exact .execDmaDescriptorComplete h
  · exact .execDmaTransferError h
  · exact .execDmaEnable h
  · exact .execDmaDisable h
  · exact .execDmaPause h
  · exact .execDmaDrainEnd h
  · exact .execDmaResume h
  · exact .execPciLinkUp h
  · exact .execPciLinkDown h
  · exact .execPciEnum h
  · exact .execSlotChange h
  · exact .execPerst h
  · exact .execConfigRequest h
  · exact .execFlrStart h
  · exact .execPciFlr h
  · exact .execBar2Access h
  · exact .execCfgAccGo h
  · exact .execCfgAccDone h
  · exact .execStreamApertureRead h
  · exact .execDownstreamRequest h
  · exact .execNvmeCompletion h
  · exact .execNvmeTimeout h
  · exact .execSmartPoll h
  · exact .execBlockFlushTimeout h
  · exact .execDriveFlushTimer h
  · exact .execDrvSetEnable h
  · exact .execDrvStop h
  · exact .execFabEnable h
  · exact .execFabPortEnable h
  · exact .execSignalDetect h
  · exact .execPortTrainDone h
  · exact .execPortTrainTimeout h
  · exact .execPortAlignDone h
  · exact .execPortAlignTimeout h
  · exact .execPortInitDone h
  · exact .execPortInitTimeout h
  · exact .execPortFaultEnd h
  · exact .execPortLinkLost h
  · exact .execFrameReceive h
  · exact .execReplayStall h
  · exact .execHelloSend h
  · exact .execHelloPacket h
  · exact .execElectStable h
  · exact .execAddrReq h
  · exact .execAddrGrant h
  · exact .execAddrReqResend h
  · exact .execAddrHoldExpiry h
  · exact .execLsrPacket h
  · exact .execLsrFloodTimer h
  · exact .execMemberAgeOut h
  · exact .execFabRoute h
  · exact .execE2eAck h
  · exact .execE2eAckSend h
  · exact .execE2eRto h
  · exact .execFabUnreach h
  · exact .execTimeSend h
  · exact .execTimePacket h
  · exact .execFabStep h
  · exact .execFabHoldMax h
  · exact .execRlHoldExpiry h
  · exact .execRefLost h
  · exact .execRefBack h
  · exact .execClkLock h
  · exact .execClkUnlock h
  · exact .execSlewDone h
  · exact .execClkOffsetWrite h
  · exact .execBandClear h
  · exact .execPor h
  · exact .execPorRelease h
  · exact .execSlotReadDone h
  · exact .execScriptWrite h
  · exact .execScriptWait h
  · exact .execScriptWaitTimeout h
  · exact .execScriptDelay h
  · exact .execScriptDelayEnd h
  · exact .execScriptSaveset h
  · exact .execScriptWarm h
  · exact .execScriptCopy h
  · exact .execScriptEnd h
  · exact .execWrst h
  · exact .execWarmReset h
  · exact .execColdReset h
  · exact .execQuiesceEnd h
  · exact .execResetRelease h
  · exact .execReplayStart h
  · exact .execMgtReplayDone h
  · exact .execWdogKick h
  · exact .execWdogExpiry h
  · exact .execMgtBlkRst h
  · exact .execMgtBlkRstDone h
  · exact .execPwrGo h
  · exact .execPowerStepEnd h
  · exact .execPsPgAssert h
  · exact .execPwrFault h
  · exact .execWakeN h
  · exact .execWakeAt h
  · exact .execEthWake h
  · exact .execPmbusPoll h
  · exact .execPmbAlert h
  · exact .execSensorRead h
  · exact .execCalRun h
  · exact .execCalRunAll h
  · exact .execCalRunEnd h
  · exact .execCalRetry h
  · exact .execCalMaxWait h
  · exact .execReplicaRead h
  · exact .execLaneEyePoll h
  · exact .execAgeTick h
  · exact .execCndCommitAtReached h
  · exact .execPrbsLock h
  · exact .execEdpLinkTrained h
  · exact .execControllerReadyChange h
  · exact .execCapToExpiry h
  · exact .execControllerFatal h
  · exact .execBar4Write h
  · exact .execPcieLinkError h
  · exact .execPerstRelease h
  · exact .execJtagInstruction h

/-! ### Tick -/

theorem State.Evolves.tickCores (h : s₀.Evolves τ s) {n : Nat} : s₀.Evolves τ (s.tickCores n) :=
  .ite h (.foldl (fun h => .ite h (.lntCycles h)) h)

theorem State.Evolves.idleHandovers (h : s₀.Evolves τ s) : s₀.Evolves τ s.idleHandovers :=
  .ite h (.foldl (fun h => .cndIdlePass h) h)

theorem State.Evolves.tick (h : s₀.Evolves true s) : s₀.Evolves true s.tick := by
  unfold State.tick
  extract_lets s₁
  have h₁ : s₀.Evolves true s₁ := .calSweep (.drvPoll (.railsDue (.noteSram (.probesEnd (.memPoll (.pgSample
      (.idleHandovers (.tickClock (.deliverRaised h)))))))))
  exact .tickCores h₁

end

/-- Settles O4: the command in front, or the cycle of an empty queue, grows out of the state without it. -/
theorem everyStepGrows : Obligations.EveryStepGrows := by
  unfold Obligations.EveryStepGrows
  intro s t hstep
  cases hpending : s.pending with
  | nil =>
    rw [step_of_nil hpending] at hstep
    cases hstep
    have htick := (State.Evolves.tick (s₀ := s) .refl).grows
    rw [List.tail_nil, ← hpending]
    exact htick
  | cons c r =>
    rw [step_of_cons hpending] at hstep
    exact (State.Reaches.exec .refl t hstep).grows

end Sys2Proof.Machine
end

section
namespace Sys2Proof.Machine

/-! ### Boot and resets -/

section
variable (s : State)

@[simp] theorem State.rd_railsUp (mask k : Nat) : (s.railsUp mask).rd k = s.rd k := rfl

@[simp] theorem State.boot_setBoot (b : Boot) : (s.setBoot b).boot = b := rfl

theorem State.boot_withPwr (p : Pwr) : ({ s with pwr := p } : State).boot = s.boot := rfl

theorem State.clk_withPwr (p : Pwr) : ({ s with pwr := p } : State).clk = s.clk := rfl

theorem State.stage_setStage {x : Nat} (h : x < 8) : (s.setStage x).stage = x := by
  have hfld := s.fld_setFld_same Reg.MGT_BOOT_STS 2 0 x (by decide) (by decide)
  exact hfld.trans (Nat.mod_eq_of_lt h)

theorem State.rd_setStage_ne {x k : Nat} (h : k ≠ Reg.MGT_BOOT_STS) : (s.setStage x).rd k = s.rd k :=
  s.rd_setFld_ne _ _ _ h

theorem State.locked_setStage (x : Nat) : (s.setStage x).locked = s.locked :=
  s.bit_setFld_ne _ _ _ _ (by decide)

theorem State.stage_bootFail : s.bootFail.stage = 7 := State.stage_setStage _ (by decide)

theorem State.locked_bootFail : s.bootFail.locked = s.locked := State.locked_setStage _ 7

/-- A cold reset's cause stands in MGT_RST_STS; POR's, which comes with the rails off, too (R549). -/
theorem State.fld_coldBase {cause : Nat} (h : cause < 8) : (s.coldBase cause).fld Reg.MGT_RST_STS 2 0 = cause := by
  have hfld (u : State) : (u.setFld Reg.MGT_RST_STS 2 0 cause).fld Reg.MGT_RST_STS 2 0 = cause :=
    (u.fld_setFld_same Reg.MGT_RST_STS 2 0 cause (by decide) (by decide)).trans (Nat.mod_eq_of_lt h)
  unfold State.coldBase
  exact hfld _

theorem State.fld_coldReset {cause : Nat} (h : cause < 8) :
    (s.coldReset cause).fld Reg.MGT_RST_STS 2 0 = cause := by
  have hrd : (s.coldReset cause).rd Reg.MGT_RST_STS = (s.coldBase cause).rd Reg.MGT_RST_STS := by
    unfold State.coldReset
    rw [State.rd_setStage_ne _ (by decide), State.rd_railsUp]
  rw [State.fld, hrd]
  exact s.fld_coldBase h

theorem State.stage_coldReset (cause : Nat) : (s.coldReset cause).stage = 1 := State.stage_setStage _ (by decide)

@[simp] theorem State.rd_setRails (en k : Nat) : (s.setRails en).rd k = s.rd k := rfl

@[simp] theorem State.en_setRails (en : Nat) : (s.setRails en).pwr.en = en := rfl

theorem State.rd_showSets_ne {k : Nat} (h : k ≠ Reg.MGT_SAVE_STS) : s.showSets.rd k = s.rd k := by
  unfold State.showSets
  rw [State.rd_putBit_ne _ _ _ h, State.rd_putBit_ne _ _ _ h]

/-- The slots that a reset without rails shows something in; the others stand at their defaults. -/
theorem State.rd_coldBase {cause k : Nat} (hrst : k ≠ Reg.MGT_RST_STS) (hsave : k ≠ Reg.MGT_SAVE_STS)
    (hage : k ≠ Reg.HLT_AGE) (hhead : k ≠ Reg.HLT_JRN_HEAD) : (s.coldBase cause).rd k = regDefault k := by
  unfold State.coldBase
  rw [State.rd_setFld_ne _ _ _ _ hrst]
  rw [State.rd_setRails, State.rd_showSets_ne _ hsave]
  split
  · rw [State.rd_wr_ne _ _ hage, State.rd_wrN_ne _ _ hhead]
    rfl
  · rw [State.rd_wrN_ne _ _ hhead]
    rfl

theorem State.stage_coldBase (cause : Nat) : (s.coldBase cause).stage = 0 := by
  have hrd : (s.coldBase cause).rd Reg.MGT_BOOT_STS = 0 :=
    (s.rd_coldBase (by decide) (by decide) (by decide) (by decide)).trans (by decide +kernel)
  unfold State.stage State.fld
  rw [hrd]
  decide

theorem State.en_coldBase (cause : Nat) : (s.coldBase cause).pwr.en = 0 := by
  unfold State.coldBase
  rw [State.setFld_pwr, State.en_setRails]

theorem State.boot_dmaPause (ch : Nat) : (s.dmaPause ch).boot = s.boot := by
  unfold State.dmaPause
  split <;> rfl

theorem State.boot_foldl_dmaPause (chs : List Nat) : (chs.foldl State.dmaPause s).boot = s.boot := by
  induction chs generalizing s with
  | nil => rfl
  | cons ch chs ih => exact (ih _).trans (s.boot_dmaPause ch)

end

theorem State.boot_quiesceBegins {s u : State} (hboot : u.boot = s.boot) (hclk : u.clk = s.clk) :
    (u.setBoot { u.boot with phase := 1, since := u.clk.up, waits := none }).boot =
      { s.boot with phase := 1, since := s.clk.up, waits := none } := by
  rw [State.boot_setBoot, hboot, hclk]

/-- A warm reset from IDLE or above begins by quiescing, with its DMA channels pausing (R551). -/
theorem State.warmReset_quiesces {s : State} (hpower : s.power < 4) (hreset : s.inReset = false)
    (hstage : s.stage ≠ 7) (cause : Nat) :
    ∃ u : State, s.warmReset cause = (List.range 128).foldl State.dmaPause u ∧
      u.boot = { s.boot with phase := 1, since := s.clk.up, waits := none } := by
  have hfree : ¬ (s.inReset ∨ s.stage = 7) := by simp [hreset, hstage]
  unfold State.warmReset
  rw [if_neg (by omega), if_neg hfree]
  extract_lets s₁ s₂ s₃ _ _ s₄ _ s₅
  have h₁ : s₁.boot = s.boot ∧ s₁.clk = s.clk := ⟨s.wrN_boot _ _, s.wrN_clk _ _⟩
  have h₂ : s₂.boot = s.boot ∧ s₂.clk = s.clk := ⟨(State.bumpSat_boot _ _ _ _).trans ((s₁.wr_boot _ _).trans h₁.1),
    (State.bumpSat_clk _ _ _ _).trans ((s₁.wr_clk _ _).trans h₁.2)⟩
  have h₃ : s₃.boot = s.boot ∧ s₃.clk = s.clk := ⟨(s₂.putBit_boot _ _ _).trans h₂.1, (s₂.putBit_clk _ _ _).trans h₂.2⟩
  exact ⟨s₅, rfl, State.boot_quiesceBegins ((s₃.boot_withPwr _).trans h₃.1) ((s₃.clk_withPwr _).trans h₃.2)⟩

theorem State.boot_warmReset {s : State} (hpower : s.power < 4) (hreset : s.inReset = false) (hstage : s.stage ≠ 7)
    (cause : Nat) : (s.warmReset cause).boot = { s.boot with phase := 1, since := s.clk.up, waits := none } := by
  obtain ⟨u, hu, hboot⟩ := State.warmReset_quiesces hpower hreset hstage cause
  rw [hu, State.boot_foldl_dmaPause, hboot]

section
variable {s : State}

theorem execSlotReadDone_of_fails {r : SlotRead} {n cause : Nat} (hstage : s.stage = 1) (hphase : s.boot.phase ≠ 3)
    (hfails : s.slotFails r (s.slotTried r) = some cause) (htried : s.boot.tried = some n) :
    execSlotReadDone r s = .next (s.setFld Reg.MGT_BOOT_STS (7 + 4 * s.slotTried r) (4 + 4 * s.slotTried r)
      cause).bootFail := by
  simp [execSlotReadDone, hstage, hphase, hfails, htried]

theorem execSlotReadDone_of_starts {r : SlotRead} (hstage : s.stage = 1) (hphase : s.boot.phase ≠ 3)
    (hfails : s.slotFails r (s.slotTried r) = none) :
    execSlotReadDone r s = .next (s.slotStarts r (s.slotTried r)) := by
  simp [execSlotReadDone, hstage, hphase, hfails]

theorem execResetRelease_of_due (hphase : s.boot.phase = 2) (hdue : s.elapsed s.boot.since (usec 10) = true)
    (hheld : s.boot.held = []) (hpower : s.power = 0) :
    execResetRelease s = .next
      (((s.setBoot { s.boot with phase := 3, since := s.clk.up, held := [] }).setStage 1).railsUp 7) := by
  have hstays : (((s.setBoot { s.boot with phase := 3, since := s.clk.up, held := [] }).setStage 1).railsUp 7).power
      = 0 := by
    unfold State.power State.fld at hpower ⊢
    rw [State.rd_railsUp, State.rd_setStage_ne _ (by decide), State.rd_setBoot]
    exact hpower
  unfold execResetRelease
  rw [if_pos ⟨hphase, hdue⟩]
  dsimp only
  rw [if_pos hstays, hheld]
  rfl

end

/-- Settles O25. -/
theorem bootRomCompletes : Obligations.BootRomCompletes := by
  unfold Obligations.BootRomCompletes
  intro s
  refine ⟨fun hstage => congrArg Host.Outcome.next (if_pos hstage), fun r hstage hphase hfails => ?starts,
    fun r n cause hstage hphase hfails htried => ?fails, fun hphase hdue hheld hpower => ?release⟩
  case starts => exact execSlotReadDone_of_starts hstage hphase hfails
  case fails =>
    refine ⟨_, execSlotReadDone_of_fails hstage hphase hfails htried, State.stage_bootFail _, ?_⟩
    exact (State.locked_bootFail _).trans (s.bit_setFld_ne _ _ _ _ (by decide))
  case release =>
    refine ⟨_, execResetRelease_of_due hphase hdue hheld hpower, ?_, rfl⟩
    exact State.stage_setStage _ (by decide)

/-- Settles O27. -/
theorem resetsComplete : Obligations.ResetsComplete := by
  unfold Obligations.ResetsComplete
  intro s
  refine ⟨⟨_, rfl, s.fld_coldBase (by decide), s.stage_coldBase 0, s.en_coldBase 0⟩,
    ⟨_, rfl, s.fld_coldReset (by decide), s.stage_coldReset 1⟩,
    fun hpower hreset hstage => ?wrst, fun hpower hreset hstage => ?warm, fun left hq hdef hleft hpaused => ?quiesce,
    fun who j hj hbit hmem => ?replay, fun hbit hj => ?done, rfl, fun hms hheld hover hcold => ?expiry⟩
  case wrst =>
    have hboot := State.boot_warmReset hpower hreset hstage 4
    exact ⟨_, rfl, by rw [hboot], by rw [hboot]⟩
  case warm =>
    have hboot := State.boot_warmReset hpower hreset hstage 5
    exact ⟨_, rfl, by rw [hboot], by rw [hboot]⟩
  case quiesce =>
    show execQuiesceEnd left s = _
    have hall : ((List.range 128).all fun ch => s.dmaState ch != 3) = true ∨ left.getLsbD 2 = true :=
      hpaused.imp_left fun h => by simpa using h
    simp only [execQuiesceEnd, hq, hdef, hleft, hall, true_and, and_self, if_true, Bool.false_eq_true, if_false]
  case replay =>
    show execReplayStart who s = _
    simp [execReplayStart, hj, hbit, hmem]
  case done =>
    have hdone (u : State) : ((u.putBit Reg.MGT_RST_STS 10 false).putBit Reg.MGT_RST_STS 3 true).bit Reg.MGT_RST_STS 10
        = false ∧ ((u.putBit Reg.MGT_RST_STS 10 false).putBit Reg.MGT_RST_STS 3 true).bit Reg.MGT_RST_STS 3 = true := by
      rw [State.bit_putBit_apart _ _ _ _ _ (by decide) (by decide)]
      simp
    refine ⟨_, congrArg Host.Outcome.next (if_pos ⟨hbit, hj⟩), ?_⟩
    dsimp only
    split <;> exact hdone s
  case expiry =>
    have hrun : execWdogExpiry s = .next ((s.setBoot { s.boot with wdogAt := s.clk.up }).coldReset 2) := by
      have hcold' : (s.setBoot { s.boot with wdogAt := s.clk.up }).bit Reg.MGT_WDOG 16 = true := hcold
      simp [execWdogExpiry, hms, hheld, hover, hcold']
    exact ⟨_, hrun, State.fld_coldReset _ (by decide), State.stage_coldReset _ 2⟩

end Sys2Proof.Machine
end

section
namespace Sys2Proof.Machine

/-! ### Save sets, block reset, fabric frames and JTAG -/

section
variable (s : State)

theorem saveSts_not_saved : ∀ k ∈ savedSlots, k ≠ Reg.MGT_SAVE_STS := by
  intro k hk heq
  have hnot : savedSlots.contains Reg.MGT_SAVE_STS = false := by decide +kernel
  rw [List.contains_eq_mem, decide_eq_false_iff_not] at hnot
  exact hnot (heq ▸ hk)

theorem State.mgt_showSets : s.showSets.mgt = s.mgt := rfl

theorem State.bit_showSets_zero : s.showSets.bit Reg.MGT_SAVE_STS 0 = s.bit Reg.MGT_SAVE_STS 0 := by
  unfold State.showSets
  dsimp only
  rw [State.bit_putBit_apart _ _ _ _ _ (by decide) (by decide), State.bit_putBit_apart _ _ _ _ _ (by decide) (by decide)]

theorem State.saveSet_congr {s t : State} (h : t.mgt = s.mgt) (n : Nat) : t.saveSet n = s.saveSet n := by
  unfold State.saveSet
  rw [h]

theorem State.freeSet_cases : s.freeSet = 0 ∨ s.freeSet = 1 := by
  unfold State.freeSet
  split
  · exact .inr rfl
  · exact .inl rfl

theorem State.bit_raise (n p k b : Nat) : (s.raise n p).bit k b = s.bit k b := rfl

theorem State.saving_raise (n p : Nat) : (s.raise n p).mgt.saving = s.mgt.saving := rfl

theorem State.saveSet_raise (n p j : Nat) : (s.raise n p).saveSet j = s.saveSet j := rfl

/-- What a save shows once its records stand in their set (R516). -/
def State.saved (s : State) (ts : BitVec 64) (gen : Nat) : State :=
  ((((s.putBit Reg.MGT_SAVE_STS 0 false).showSets).bump Reg.MGT_SAVE_GEN 32).wr Reg.MGT_SAVE_TS ts).raise 2 gen

variable (ts : BitVec 64) (gen : Nat)

theorem State.saving_saved : (s.saved ts gen).mgt.saving = s.mgt.saving := by
  unfold State.saved
  rw [State.saving_raise, State.wr_mgt, State.bump_mgt, State.mgt_showSets, State.putBit_mgt]

theorem State.saveSet_saved (j : Nat) : (s.saved ts gen).saveSet j = s.saveSet j := by
  unfold State.saved
  rw [State.saveSet_raise, State.saveSet_congr (State.wr_mgt _ _ _), State.saveSet_congr (State.bump_mgt _ _ _ _),
    State.saveSet_congr (State.mgt_showSets _), State.saveSet_congr (State.putBit_mgt _ _ _ _)]

theorem State.bit_saved_busy : (s.saved ts gen).bit Reg.MGT_SAVE_STS 0 = false := by
  unfold State.saved
  rw [State.bit_raise, State.bit_wr_ne _ _ _ (by decide), State.bump_eq, State.bit_wr_ne _ _ _ (by decide),
    State.bit_showSets_zero]
  exact State.bit_putBit_same _ _ _ _ (by decide)

/-- The save that completes leaves its set valid and the other one invalid (R516). -/
theorem saveSets_valid (sets : Vector SaveSet 2) (recs : List (Nat × BitVec 64)) {n : Nat} (hn : n = 0 ∨ n = 1) :
    let old := sets.map fun (x : SaveSet) => { x with valid := false }
    let new := if n = 0 then old.set 0 { valid := true, recs := recs } else old.set 1 { valid := true, recs := recs }
    (if n = 0 then new[0] else new[1]).valid = true ∧ (if 1 - n = 0 then new[0] else new[1]).valid = false := by
  rcases hn with rfl | rfl <;> simp

theorem State.fport_bumped (p k k' n n' : Nat) :
    ((s.bump k 64 n).bumpSat k' 32 n').fport p = s.fport p := rfl

/-- A frame in order that carries neither packet nor credit nor acknowledgement is acknowledged (R460). -/
theorem State.frameTake_inOrder {p : Fin 8} {sub : Fin 4096} {f : FabFrame} (hok : f.ok = true) (hpkt : f.pkt = none)
    (hseq : f.seq = (s.fport p).rxNext) (hcredit : f.credit = none) (hack : f.ack = none) :
    let u := (s.bump (Reg.FAB_PORT_FEC_CORR p) 64 f.corrected).bumpSat (Reg.FAB_PORT_FEC_UNCORR p) 32 f.uncorrected
    s.frameTake p sub f = .next ((u.setFport p
      { s.fport p with rxNext := (f.seq + 1) % 4096 }).send (.fabricAck p f.seq true)) := by
  unfold State.frameTake
  simp only [hok, hpkt, hcredit, hack, hseq, State.fport_bumped, Bool.not_true, Bool.false_or, bne_self_eq_false,
    Bool.false_eq_true, if_false]

/-- A save that is under way completes: its records take the place of the invalid set. -/
theorem execSaveComplete_of_saving {rs : List (Nat × BitVec 64)} (hrs : s.mgt.saving = some rs) :
    ∃ (u : State) (recs : List (Nat × BitVec 64)) (ts : BitVec 64) (gen : Nat),
      execSaveComplete s = .next (u.saved ts gen) ∧ u.mgt.saving = none ∧
      u.mgt.sets = (if s.freeSet = 0 then
          (s.mgt.sets.map fun (x : SaveSet) => { x with valid := false }).set 0 { valid := true, recs := recs }
        else (s.mgt.sets.map fun (x : SaveSet) => { x with valid := false }).set 1 { valid := true, recs := recs }) := by
  unfold execSaveComplete
  rw [hrs]
  exact ⟨_, _, _, _, rfl, rfl, rfl⟩

theorem State.rd_armsReset (k : Nat) : s.armsReset.rd k = s.rd k := by
  unfold State.armsReset
  generalize List.range 32 = ns
  induction ns generalizing s with
  | nil => rfl
  | cons n ns ih => exact (ih _).trans (s.rd_setTch _ _ k)

/-- A slot that a block reset takes reads as its default (R554). -/
theorem State.rd_restricted {range k : Nat} (hrange : slotIndex k / 256 = range) (hprot : inProtection k = false) :
    ({ s with regs := Sparse.restrict (fun k => slotIndex k / 256 != range || inProtection k) s.regs } : State).rd k
      = regDefault k := by
  have hout : ¬ (slotIndex k / 256 != range || inProtection k) = true := by simp [hrange, hprot]
  exact (Sparse.get_restrict regDefault (fun k => slotIndex k / 256 != range || inProtection k) s.regs k).trans (if_neg hout)

theorem execSaveStart_of_idle {who : Fin 8} (hidle : s.bit Reg.MGT_SAVE_STS 0 = false) :
    execSaveStart who s = .next { s.putBit Reg.MGT_SAVE_STS 0 true with
      mgt := { s.mgt with saving := some (savedSlots.map fun k => (k, s.rd k)) } } := by
  have hsame : (savedSlots.map fun k => (k, (s.putBit Reg.MGT_SAVE_STS 0 true).rd k))
      = savedSlots.map fun k => (k, s.rd k) :=
    List.map_congr_left fun k hk => by rw [State.rd_putBit_ne _ _ _ (saveSts_not_saved k hk)]
  simp only [execSaveStart, hidle, Bool.false_eq_true, if_false, hsame, State.putBit_mgt]

end

/-- Settles O28. -/
theorem managementCompletes : Obligations.ManagementCompletes := by
  unfold Obligations.ManagementCompletes
  intro s
  refine ⟨fun who hidle => ?start, fun rs hrs => ?complete, ⟨_, rfl, ?erase0, ?erase1⟩, fun who range hok => ?blk,
    fun r hr => ?blkDone, fun bad => rfl, fun p sub f hup hok hpkt hseq hcredit hack => ?frame,
    fun code hcode => ?jtag⟩
  case start =>
    refine ⟨_, execSaveStart_of_idle s hidle, ?_, rfl⟩
    exact s.bit_putBit_same _ _ _ (by decide)
  case complete =>
    obtain ⟨u, recs, ts, gen, hrun, hsaving, hsets⟩ := execSaveComplete_of_saving s hrs
    obtain ⟨hnew, hold⟩ := saveSets_valid s.mgt.sets recs s.freeSet_cases
    refine ⟨_, hrun, (u.saving_saved ts gen).trans hsaving, ?_, ?_, ?_⟩
    · rw [State.saveSet_saved, State.saveSet, hsets]
      exact hnew
    · rw [State.saveSet_saved, State.saveSet, hsets]
      exact hold
    · exact u.bit_saved_busy ts gen
  case erase0 => exact congrArg SaveSet.valid (State.saveSet_congr (State.mgt_showSets _) 0) |>.trans (by simp [State.saveSet])
  case erase1 => exact congrArg SaveSet.valid (State.saveSet_congr (State.mgt_showSets _) 1) |>.trans (by simp [State.saveSet])
  case blk =>
    refine ⟨_, congrArg Host.Outcome.next (if_pos hok), rfl, fun k hrange hprot hne => ?_⟩
    refine (State.rd_setFld_ne _ _ _ _ hne).trans (Eq.trans ?_ (s.rd_restricted hrange hprot))
    split
    · exact State.rd_armsReset _ k
    · rfl
  case blkDone =>
    show execMgtBlkRstDone s = _
    simp only [execMgtBlkRstDone, hr]
  case frame =>
    have hup' : execFrameReceive p sub f s = s.frameTake p sub f := if_pos hup
    refine ⟨_, hup'.trans (s.frameTake_inOrder hok hpkt hseq hcredit hack), ?_, ?_⟩
    · exact congrArg FabPort.rxNext (State.fport_setFport_same _ p _ p.isLt)
    · simp
  case jtag =>
    have hdef : ¬ (code = 3 ∧ s.anyEnabled = true) := by
      rintro ⟨rfl, hany⟩
      rcases hcode with h | h
      · exact h rfl
      · rw [h] at hany
        exact Bool.noConfusion hany
    obtain ⟨t, ht⟩ : ∃ t, execJtagInstruction code s = .next t := by
      unfold execJtagInstruction
      rw [if_neg hdef]
      exact ⟨_, rfl⟩
    refine ⟨t, ht, ?_⟩
    unfold execJtagInstruction at ht
    rw [if_neg hdef] at ht
    cases ht
    dsimp only
    split <;> exact ⟨rfl, rfl, rfl⟩

end Sys2Proof.Machine
end

section
namespace Sys2Proof.Machine

/-! ### The power ladder and PMBus -/

section
variable {s : State}

theorem State.calGo_of_defined (h : s.calUndefined = false) : s.calGo = .next s.calStart := by
  simp [State.calGo, h]

theorem State.boot_railAlert (k : Nat) : (s.railAlert k).boot = s.boot := by
  unfold State.railAlert
  rw [State.raise_boot, State.putBit_boot]

theorem State.boot_railStatus (k w : Nat) : (s.railStatus k w).boot = s.boot := by
  unfold State.railStatus
  extract_lets t
  have ht : t.boot = s.boot := s.setFld_boot _ _ _ _
  split
  · exact ht
  · exact t.boot_railAlert k |>.trans ht

theorem State.boot_railRead (k : Nat) (r : Option (Nat × Nat × Int × Nat)) : (s.railRead k r).boot = s.boot := by
  cases r with
  | none => exact State.boot_railAlert k
  | some r =>
    unfold State.railRead
    rw [State.boot_railStatus, State.setFld_boot, State.setFld_boot, State.setFld_boot]

theorem State.boot_foldl {α : Type} {f : State → α → State} (hf : ∀ t a, (f t a).boot = t.boot) (as : List α) :
    (as.foldl f s).boot = s.boot := by
  induction as generalizing s with
  | nil => rfl
  | cons a as ih => exact ih.trans (hf s a)

theorem State.boot_railSend (k code v : Nat) : (s.railSend k code v).1.boot = s.boot := by
  have hsent : ((List.range (min 4 (Config.pmbusFails s.draw.1 + 1))).foldl
      (fun (s : State) _ => s.send (.pmbus k code v)) s.draw.2).boot = s.boot :=
    State.boot_foldl (fun t _ => t.send_boot (.pmbus k code v)) _
  unfold State.railSend
  dsimp only
  split
  · exact (State.boot_railAlert k).trans hsent
  · exact hsent

theorem State.boot_railPage (k : Nat) : (s.railPage k).boot = s.boot := by
  unfold State.railPage
  dsimp only
  split
  · rfl
  · exact State.boot_railSend _ _ _

/-- One rail's turn of a poll leaves the ROM's state. -/
theorem State.boot_railPolled (k : Nat) (r : Option (Nat × Nat × Int × Nat)) :
    ((List.foldl (fun (s : State) c => s.send (.pmbus k c 0)) (s.railPage k) [0x8B, 0x8C, 0x8D, 0x79]).railRead k r).boot
      = s.boot := by
  rw [State.boot_railRead, State.boot_foldl fun t c => t.send_boot (.pmbus k c 0), State.boot_railPage]

/-- What has left the device stays on record while the rails are asked in turn. -/
theorem State.mem_out_foldl {α : Type} {f : State → α → State} {m : OutMsg} (hf : ∀ t a, m ∈ t.out → m ∈ (f t a).out)
    (as : List α) (h : m ∈ s.out) : m ∈ (as.foldl f s).out := by
  induction as generalizing s with
  | nil => exact h
  | cons a as ih => exact ih (hf s a h)

theorem State.mem_out_foldl_of_mem {α : Type} {P : State → Prop} {f : State → α → State} {m : OutMsg} {a : α}
    (hf : ∀ t a, m ∈ t.out → m ∈ (f t a).out) (hP : ∀ t a, P t → P (f t a)) (ha : ∀ t, P t → m ∈ (f t a).out)
    (hs : P s) {as : List α} (hmem : a ∈ as) : m ∈ (as.foldl f s).out := by
  induction as generalizing s with
  | nil => exact absurd hmem List.not_mem_nil
  | cons b as ih =>
    rcases List.mem_cons.mp hmem with rfl | h
    · exact State.mem_out_foldl hf as (ha s hs)
    · exact ih (hP s b hs) h

theorem State.railOn_congr {t : State} {k : Nat} (h : t.rd (Reg.PWR_RAIL_CFG k) = s.rd (Reg.PWR_RAIL_CFG k)) :
    t.railOn k = s.railOn k := by
  unfold State.railOn State.bit
  rw [h]

theorem railCfg_ne_sts (k : Nat) : Reg.PWR_RAIL_CFG k ≠ Reg.PWR_STS := by
  unfold Reg.PWR_RAIL_CFG Reg.PWR_STS slot
  omega

theorem railCfg_ne_telem (k j : Nat) : Reg.PWR_RAIL_CFG k ≠ Reg.PWR_RAIL_TELEM j := by
  unfold Reg.PWR_RAIL_CFG Reg.PWR_RAIL_TELEM slot
  omega

theorem State.railOn_railAlert (k j : Nat) : (s.railAlert j).railOn k = s.railOn k :=
  State.railOn_congr (State.rd_putBit_ne s _ _ (railCfg_ne_sts k))

theorem State.railOn_railStatus (k j w : Nat) : (s.railStatus j w).railOn k = s.railOn k := by
  have hset (x : Nat) : (s.setFld (Reg.PWR_RAIL_TELEM j) 63 48 x).railOn k = s.railOn k :=
    State.railOn_congr (s.rd_setFld_ne _ _ _ (railCfg_ne_telem k j))
  unfold State.railStatus
  dsimp only
  split
  · exact hset w
  · exact (State.railOn_railAlert k j).trans (hset w)

theorem State.regs_foldl_send (as : List Nat) (m : OutMsg) :
    (as.foldl (fun (s : State) _ => s.send m) s).regs = s.regs := by
  induction as generalizing s with
  | nil => rfl
  | cons a as ih => exact ih

theorem State.railOn_railPage (k j : Nat) : (s.railPage j).railOn k = s.railOn k := by
  have hsent (m : OutMsg) (as : List Nat) : (as.foldl (fun (s : State) _ => s.send m) s.draw.2).railOn k = s.railOn k :=
    State.railOn_congr (State.rd_congr (State.regs_foldl_send as m) _)
  unfold State.railPage State.railSend
  dsimp only
  split
  · rfl
  · split
    · exact (State.railOn_railAlert k j).trans (hsent _ _)
    · exact hsent _ _

theorem State.Evolves.mem_out {τ : Bool} {m : OutMsg} {t : State} (h : s.Evolves τ t) (hm : m ∈ s.out) : m ∈ t.out :=
  h.grows.out.subset hm

/-- A supply that comes good while its wait has lasted 20 µs has its power-good input seen (R558). -/
theorem State.pg_pgSample {k : Nat} (hk : k < 3) (hwait : s.pwr.pgWait.testBit k = true) (hhigh : s.pwr.pgHigh.testBit k = true)
    (hdue : s.elapsed s.pwr.pgSince (usec 20) = true) :
    s.pgSample.pwr.pg.testBit k = true ∧ s.pgSample.pwr.pgHigh = s.pwr.pgHigh := by
  have hnow : (s.pwr.pgWait &&& s.pwr.pgHigh).testBit k = true := by rw [Nat.testBit_and, hwait, hhigh]; rfl
  have hne : s.pwr.pgWait &&& s.pwr.pgHigh ≠ 0 := fun h => by simp [h] at hnow
  unfold State.pgSample
  dsimp only
  rw [if_pos ⟨hne, hdue⟩]
  have hset : (s.pwr.pg ||| (s.pwr.pgWait &&& s.pwr.pgHigh)).testBit k = true := by
    rw [Nat.testBit_or, hnow, Bool.or_true]
  split
  case isTrue hall =>
    obtain ⟨hen, -, -⟩ := hall
    refine ⟨?_, rfl⟩
    show ((s.pwr.pg ||| (s.pwr.pgWait &&& s.pwr.pgHigh)) &&& (s.pwr.en ||| 6)).testBit k = true
    have hrail : (1 ||| 6 : Nat).testBit k = true := by interval_cases k <;> rfl
    rw [Nat.testBit_and, hset, show s.pwr.en = 1 from hen, hrail]
    rfl
  case isFalse => exact ⟨hset, rfl⟩

theorem State.pgSample_early (hdue : s.elapsed s.pwr.pgSince (usec 20) = false) : s.pgSample = s := by
  simp [State.pgSample, hdue]

end

/-- Settles O30. -/
theorem powerCompletes : Obligations.PowerCompletes := by
  unfold Obligations.PowerCompletes
  intro s
  refine ⟨fun who hreset hstage hto hmove => ?moving, fun who hreset hstage hto hne hmove => ?move,
    fun levels hbad hbad' hmove hreset hdown hend => ?step, fun k hwait hdue => ?pgAssert,
    fun k hdue => congrArg Host.Outcome.next (State.pgSample_early hdue), fun k hen hpg => ?fault,
    fun hw => ?wakeN, fun hdue hw => ?wakeAt, fun hw => ?ethWake, fun rails hruns hms hpoll => ?poll,
    fun status k hruns hk hon => ?alert⟩
  case moving =>
    show execPwrGo who s = _
    have hto' : ¬ 6 ≤ s.fld Reg.PWR_CTL 2 0 := by omega
    simp [execPwrGo, hreset, hstage, hto', hmove]
  case move =>
    show execPwrGo who s = _
    have hto' : ¬ 6 ≤ s.fld Reg.PWR_CTL 2 0 := by omega
    simp [execPwrGo, hreset, hstage, hto', hmove, hne]
  case step =>
    show execPowerStepEnd levels s = _
    simp [execPowerStepEnd, hbad, hbad', hmove, hreset, hdown, hend]
  case pgAssert =>
    refine ⟨_, rfl, State.pg_pgSample k.isLt hwait ?_ hdue⟩
    simp
  case fault =>
    show execPwrFault k true s = _
    simp [execPwrFault, hen, hpg]
  case wakeN => exact if_neg (by simp [hw])
  case wakeAt =>
    show execWakeAt s = _
    simp [execWakeAt, State.timerWake, hdue, hw]
  case ethWake => exact if_neg (by simp [hw])
  case poll =>
    have hdef : ¬ (s.pmbusRuns = true ∧ s.fld Reg.PWR_PMBUS_CFG 15 8 = 0) := fun h => hms h.2
    refine ⟨_, (if_neg hdef).trans (congrArg Host.Outcome.next (if_pos ?_)), ?_⟩
    · rw [hruns, hpoll]
      rfl
    · refine congrArg Boot.pollAt (State.boot_foldl (fun t k => ?_) _)
      split
      · exact State.boot_railPolled k _
      · rfl
  case alert =>
    refine ⟨_, congrArg Host.Outcome.next (if_pos hruns), ?_⟩
    refine State.mem_out_foldl_of_mem (P := fun t => t.railOn k = true) (a := k) (fun t j h => ?_) (fun t j h => ?_)
      (fun t h => ?_) hon (List.mem_range.mpr hk)
    · dsimp only
      split
      · refine State.Evolves.mem_out (τ := false) ?_ h
        split
        · exact .railStatus (.send (.railPage .refl))
        · exact .railAlert (.send (.railPage .refl))
      · exact h
    · have hsent : ((t.railPage j).send (.pmbus j 0x79 0)).railOn k = true := (State.railOn_railPage k j).trans h
      dsimp only
      split
      · split
        · exact (State.railOn_railStatus k j _).trans hsent
        · exact (State.railOn_railAlert k j).trans hsent
      · exact h
    · have hsent : OutMsg.pmbus k 0x79 0 ∈ ((t.railPage k).send (.pmbus k 0x79 0)).out := by simp
      dsimp only
      rw [if_pos h]
      refine State.Evolves.mem_out (τ := false) ?_ hsent
      split
      · exact .railStatus .refl
      · exact .railAlert .refl

/-! ### Calibration and ageing -/

/-- Settles O31. -/
theorem healthCompletes : Obligations.HealthCompletes := by
  unfold Obligations.HealthCompletes
  intro s
  refine ⟨fun temps hpower hdue => ?sensor, fun id hdef => State.calGo_of_defined hdef,
    fun hdef => State.calGo_of_defined hdef, fun id lo hi r hr hdef => ?runEnd, fun id e he hpower hdue => ?retry,
    fun id d hd hpower hdue => ?maxWait, fun slacks hpower hdue => ?replica, fun height width j hpower hadj hdue hj => ?eye,
    fun hdue => ?age⟩
  case sensor =>
    intro t hoff hdef
    show execSensorRead temps s = _
    unfold execSensorRead
    rw [if_pos ⟨hpower, hdue⟩]
    show (if t.bit Reg.CAL_CTL 0 = true ∧ State.fld (if t.bit Reg.CAL_CTL 0 = true then _ else t) _ _ _ = 0
      then _ else State.calGo (if t.bit Reg.CAL_CTL 0 = true then _ else t)) = _
    rw [hoff]
    exact State.calGo_of_defined hdef
  case runEnd =>
    show execCalRunEnd id lo hi s = _
    unfold execCalRunEnd
    rw [hr]
    exact State.calGo_of_defined hdef
  case retry =>
    intro t hdef
    show execCalRetry id s = _
    unfold execCalRetry
    rw [he]
    exact (if_pos ⟨hpower, hdue⟩).trans (State.calGo_of_defined hdef)
  case maxWait =>
    show execCalMaxWait id s = _
    unfold execCalMaxWait
    rw [hd]
    exact congrArg Host.Outcome.next (if_pos ⟨hpower, hdue⟩)
  case replica => exact congrArg Host.Outcome.next (if_pos ⟨hpower, hdue⟩)
  case eye =>
    intro t
    show execLaneEyePoll height width s = _
    have hdef : ¬ (s.adjusts 1 = true ∧ 8 < s.fld Reg.HLT_EQ_CFG 15 8) := by
      rintro ⟨hon, hmost⟩
      rcases hadj with h | h
      · simp [h] at hon
      · omega
    unfold execLaneEyePoll
    rw [if_neg hdef, if_pos ⟨hpower, hdue⟩, hj]
  case age => exact congrArg Host.Outcome.next (if_pos hdue)

end Sys2Proof.Machine
end

section
namespace Sys2Proof.Machine

/-! ### Record writers and external triggers -/

/-- Settles O32. -/
theorem writersComplete : Obligations.WritersComplete := by
  unfold Obligations.WritersComplete
  intro s
  refine ⟨fun c hpar hoff hdef => ?enable, fun c => rfl, fun c hserved => congrArg Host.Outcome.next (if_pos hserved),
    fun who c v hpair hauto hlow hhigh halign => ?rel, fun p rising hpower hw => ?wake, fun p rising hpower hw => ?edge⟩
  case enable =>
    show execAcqEnable c s = _
    have hdef' : ¬ (!s.pairedOff c && s.writerUndefined c ≠ 0) = true := by
      rcases hdef with h | h <;> simp [h]
    simp only [execAcqEnable, hpar, hoff, Bool.false_eq_true, if_false]
    exact if_neg hdef'
  case rel =>
    show execAcqRelWrite who c v s = _
    have hok : ¬ (v.toNat < s.rdN (Reg.ACQ_REL c) ∨ s.rdN (Reg.ACQ_PUB c) < v.toNat ∨ v.toNat % 64 ≠ 0) := by omega
    simp only [execAcqRelWrite, hpair, hauto, Bool.false_eq_true, if_false]
    exact if_neg hok
  case wake =>
    have hlevel : ¬ (s.putBit Reg.TRG_EXT_LEVEL p.val rising).power ≤ 1 := by
      have hsame : (s.putBit Reg.TRG_EXT_LEVEL p.val rising).power = s.power := s.fld_putBit_ne _ _ _ _ (by decide)
      omega
    show execExtTrigEdge p rising s = _
    simp only [execExtTrigEdge, hw, Bool.false_eq_true, if_false, hlevel]
  case edge =>
    have hlevel : (s.putBit Reg.TRG_EXT_LEVEL p.val rising).power ≤ 1 := by
      have hsame : (s.putBit Reg.TRG_EXT_LEVEL p.val rising).power = s.power := s.fld_putBit_ne _ _ _ _ (by decide)
      omega
    show execExtTrigEdge p rising s = _
    simp only [execExtTrigEdge, hw, Bool.false_eq_true, if_false, hlevel, if_true]

end Sys2Proof.Machine
end

section
namespace Sys2Proof.Machine

/-! ### RAP sessions and replies (R520-R524) -/

theorem Peer.same_refl (p : Peer) : p.same p = true := by
  cases p <;> simp [Peer.same]

section
variable {s t : State} {peer : Peer} {id : Nat}

theorem State.session_congr (h : t.mgt.sessions = s.mgt.sessions) (peer : Peer) (id : Nat) :
    t.session peer id = s.session peer id := by
  unfold State.session
  rw [h]

theorem State.is_of_session {x : Session} (h : s.session peer id = some x) : x.is peer id = true :=
  List.find?_some (p := fun x : Session => x.is peer id) (show s.mgt.sessions.find? _ = some x from h)

/-- A change of a peer's session that leaves it that peer's shows in it. -/
theorem State.session_onSession {f : Session → Session} (hf : ∀ x, x.is peer id = true → (f x).is peer id = true) :
    (s.onSession peer id f).session peer id = (s.session peer id).map f := by
  have hsame (x : Session) : (if x.is peer id then f x else x).is peer id = x.is peer id := by
    split
    case isTrue h => rw [h, hf x h]
    case isFalse => rfl
  show (s.mgt.sessions.map fun x => if x.is peer id then f x else x).find? (fun x => x.is peer id) = _
  rw [List.find?_map, Function.comp_def]
  simp only [hsame]
  refine Option.map_congr fun x hx => ?_
  rw [if_pos (State.is_of_session hx)]

theorem Session.is_withPeer {x : Session} (h : x.is peer id = true) (n : Nat) :
    Session.is { x with peer := peer, lastAt := n } peer id = true := by
  unfold Session.is at h ⊢
  rw [Bool.and_eq_true] at h ⊢
  exact ⟨h.1, peer.same_refl⟩

/-! What leaves through the fabric or the Ethernet port changes neither memory nor the sessions. -/

/-- Sending changes the state of the links and what has left the device alone. -/
structure State.Sends (s t : State) : Prop where
  regs : t.regs = s.regs
  mgt : t.mgt = s.mgt
  mem : t.mem = s.mem

theorem State.Sends.refl : s.Sends s := ⟨rfl, rfl, rfl⟩

theorem State.Sends.trans {u : State} (h : s.Sends t) (g : t.Sends u) : s.Sends u :=
  ⟨g.regs.trans h.regs, g.mgt.trans h.mgt, g.mem.trans h.mem⟩

variable (s) in
theorem State.sends_setFport (p : Nat) (x : FabPort) : s.Sends (s.setFport p x) :=
  ⟨State.setFport_regs _ _ _, State.setFport_mgt _ _ _, State.setFport_mem _ _ _⟩

variable (s) in
theorem State.sends_stampSent (k : FabPkt) : s.Sends (s.stampSent k).1 := by
  unfold State.stampSent
  split
  · split
    · exact ⟨rfl, rfl, rfl⟩
    · exact .refl
  · exact .refl

variable (s) in
theorem State.sends_timeStamped (p : Nat) (k : FabPkt) : s.Sends (s.timeStamped p k).1 := by
  unfold State.timeStamped
  dsimp only
  split
  · exact s.sends_setFport _ _
  · exact .refl

variable (s) in
theorem State.sends_linkAccept (p : Nat) (k : FabPkt) : s.Sends (s.linkAccept p k) :=
  ((s.sends_stampSent k).trans (State.sends_timeStamped _ p _)).trans
    ((State.sends_setFport _ _ _).trans ⟨rfl, rfl, rfl⟩)

variable (s) in
theorem State.sends_portSend (p : Nat) (k : FabPkt) : s.Sends (s.portSend p k) := by
  unfold State.portSend
  dsimp only
  split
  · exact s.sends_linkAccept p k
  · exact s.sends_setFport _ _

theorem State.Sends.foldl {α : Type} {f : State → α → State} (hf : ∀ t a, s.Sends t → s.Sends (f t a))
    (h : s.Sends t) (as : List α) : s.Sends (as.foldl f t) := by
  induction as generalizing t with
  | nil => exact h
  | cons a as ih => exact ih (hf t a h)

variable (s) in
theorem State.sends_childSend (k : FabPkt) : s.Sends (s.childSend k) := by
  refine .foldl (fun t p h => ?_) .refl _
  split
  · exact h.trans (t.sends_portSend p k)
  · exact h

variable (s) in
theorem State.sends_routeSend (k : FabPkt) : s.Sends (s.routeSend k) := by
  unfold State.routeSend
  split
  · split
    · exact s.sends_portSend _ _
    · exact .refl
  · split
    · exact s.sends_portSend _ _
    · exact s.sends_childSend _
  · split
    · exact s.sends_portSend _ _
    · exact .refl

variable (s) in
theorem State.sends_e2eSend (uid dst : Nat) (b : FabBody) : s.Sends (s.e2eSend uid dst b) := by
  unfold State.e2eSend
  extract_lets x k
  split
  · exact ⟨rfl, rfl, rfl⟩
  · refine State.Sends.trans ?_ (State.sends_routeSend _ _)
    exact ⟨rfl, rfl, rfl⟩

theorem State.mgt_rapSend (r : RapReply) (reply : Bool) : (s.rapSend peer r reply).mgt = s.mgt := by
  cases peer with
  | eth mac ip port => rfl
  | fabric uid => exact (s.sends_e2eSend _ _ _).mgt

theorem State.rd_rapSend_ne {k : Nat} (h : k ≠ Reg.MGT_ETH_TX) (r : RapReply) (reply : Bool) :
    (s.rapSend peer r reply).rd k = s.rd k := by
  cases peer with
  | eth mac ip port => exact s.rd_bump_ne _ _ h
  | fabric uid => exact State.rd_congr (s.sends_e2eSend _ _ _).regs k

/-! A request in its turn: what is executed, and the reply that the session holds. -/

variable {m : RapMsg} {op : Nat} {envs : List WriteEnv} {x z : Session} {d : RapDone}

theorem State.rapAhead_of_none (h : s.session peer id = some x) (hahead : x.ahead = []) (fuel : Nat) :
    State.rapAhead peer id (fuel + 1) s = .next s := by
  simp only [State.rapAhead, h, hahead, List.find?_nil]

/-- The session of a request that has been executed: it expects the next SEQ and holds the reply. -/
def Session.answered (z : Session) (m : RapMsg) (r : RapReply) : Session :=
  { z with expected := (m.seq + 1) % 2 ^ 32, cache := (r :: z.cache).take 64 }

theorem State.rapTurn_of_run (hrun : s.rapRun peer op m envs = .next d)
    (hz : d.state.session peer m.session = some z) :
    let r := d.state.rapReply op m d.status d.data
    s.rapTurn peer op m envs = .next
      ((d.state.onSession peer m.session fun x => x.answered m r).rapSend peer r true) := by
  simp only [State.rapTurn, hrun, hz, Option.isNone_some, Bool.false_eq_true, if_false]
  rfl

theorem State.session_answered (r : RapReply) (hz : s.session peer m.session = some z) (reply : Bool) :
    ((s.onSession peer m.session fun x => x.answered m r).rapSend peer r reply).session peer m.session =
      some (z.answered m r) := by
  rw [State.session_congr (congrArg Mgt.sessions (State.mgt_rapSend r reply)), State.session_onSession, hz]
  · rfl
  · exact fun x hx => hx

/-- A request in its turn is executed, its reply is held and sent, and nothing held ahead follows (R520, R521). -/
theorem State.rapOrder_of_turn (hseq : x.expected = m.seq) (hrun : s.rapRun peer op m envs = .next d)
    (hz : d.state.session peer m.session = some z) (hahead : z.ahead = []) :
    let r := d.state.rapReply op m d.status d.data
    s.rapOrder peer x op m envs = .next
      ((d.state.onSession peer m.session fun x => x.answered m r).rapSend peer r true) := by
  intro r
  have hturn : (m.seq + 2 ^ 32 - x.expected) % 2 ^ 32 = 0 := by
    rw [hseq, Nat.add_sub_cancel_left, Nat.mod_self]
  unfold State.rapOrder
  dsimp only
  rw [if_pos hturn, State.rapTurn_of_run hrun hz]
  exact State.rapAhead_of_none (State.session_answered r hz true) hahead 15

/-- A request's arrival is counted where it comes over Ethernet (R525). -/
def State.rapIn (s : State) (peer : Peer) : State :=
  match peer with
  | .fabric _ => s
  | .eth .. => s.ethTaken

/-- The state in which a request of an open session runs, before what it finds noted is cleared (R520). -/
def State.rapHeard (s : State) (peer : Peer) (m : RapMsg) : State :=
  (s.rapIn peer).onSession peer m.session fun y => { y with peer := peer, lastAt := (s.rapIn peer).clk.up }

theorem State.rapMet_eq : s.rapMet peer m = (s.rapHeard peer m).fresh' := by
  cases peer <;> rfl

theorem State.mgt_rapIn : (s.rapIn peer).mgt = s.mgt := by
  cases peer <;> rfl

theorem State.clk_rapIn : (s.rapIn peer).clk = s.clk := by
  cases peer <;> rfl

theorem State.mem_rapIn : (s.rapIn peer).mem = s.mem := by
  cases peer <;> rfl

theorem State.session_rapHeard (hx : s.session peer m.session = some x) :
    (s.rapHeard peer m).session peer m.session = some { x with peer := peer, lastAt := s.clk.up } := by
  refine (State.session_onSession fun y hy => Session.is_withPeer hy _).trans ?_
  rw [State.session_congr (congrArg Mgt.sessions State.mgt_rapIn), hx, State.clk_rapIn]
  rfl

theorem State.rd_ethTaken_ne {k : Nat} (h : k ≠ Reg.MGT_ETH_RX) : s.ethTaken.rd k = s.rd k := s.rd_bump_ne _ _ h

/-- With the device awake and at rest no frame wakes it (R559). -/
theorem State.wakes_of_active (hpower : s.power = 0) (hmove : s.moving = false) (b lo : Nat) :
    s.wakes b 1 lo = false := by
  simp [State.wakes, hmove, hpower]

theorem State.wakeBy_of_active (hpower : s.power = 0) (hmove : s.moving = false) (b code lo : Nat) :
    s.wakeBy b code 1 lo = s := by
  simp [State.wakeBy, State.wakes_of_active hpower hmove]

/-- A message of a session's peer reaches RAP while the device is awake (R520, R525). -/
theorem State.rapFrom_of_reached (hreach : s.rapReached peer) (reply : Bool) :
    s.rapFrom peer op reply m envs = (s.rapIn peer).rapArrive peer op reply m envs := by
  obtain ⟨hpower, hmove, hon, -, hopen⟩ := hreach
  cases peer with
  | fabric uid => rfl
  | eth mac ip port =>
    obtain ⟨hruns, hip⟩ := hopen
    have hpower' : s.ethTaken.power = 0 := (State.fld_wr_ne _ _ _ _ (by decide)).trans hpower
    have hmove' : s.ethTaken.moving = false := (State.bit_wr_ne _ _ _ (by decide)).trans hmove
    have hip' : (s.ethIp == 0) = false := by simpa using hip
    have hundef : s.wakeUndefined 1 1 5 = false := by
      rw [State.wakeUndefined, State.wakes_of_active hpower hmove, Bool.false_and]
    have hcfg : s.bit Reg.MGT_RAP_CFG 0 = true := by
      simp only [State.rapOn, Bool.and_eq_true] at hon
      exact hon.1.1
    simp only [State.rapFrom, hruns, hip', hundef, hpower, hcfg, State.wakeBy_of_active hpower' hmove',
      Bool.not_true, Bool.or_self, Bool.false_eq_true, if_false]
    rfl

theorem State.rapOn_rapIn : (s.rapIn peer).rapOn peer = s.rapOn peer := by
  cases peer with
  | fabric uid => rfl
  | eth mac ip port =>
    have hcfg : s.ethTaken.rd Reg.MGT_RAP_CFG = s.rd Reg.MGT_RAP_CFG := State.rd_ethTaken_ne (by decide)
    have hlock : s.ethTaken.rd Reg.PROT_LOCK = s.rd Reg.PROT_LOCK := State.rd_ethTaken_ne (by decide)
    have hstage : s.ethTaken.rd Reg.MGT_BOOT_STS = s.rd Reg.MGT_BOOT_STS := State.rd_ethTaken_ne (by decide)
    show s.ethTaken.rapOn _ = _
    simp only [State.rapOn, State.locked, State.stage, State.bit, State.fld, hcfg, hlock, hstage]

theorem State.rapServe_of_session (hx : s.session peer m.session = some x) :
    s.rapServe peer op m envs =
      (s.onSession peer m.session fun y => { y with peer := peer, lastAt := s.clk.up }).rapOrder peer x op m envs := by
  simp only [State.rapServe, hx]

theorem State.inReset_rapIn : (s.rapIn peer).inReset = s.inReset := by
  cases peer <;> rfl

/-- A request of an open session goes to that session's order (R520, R521). -/
theorem State.rapFrom_of_session (hreach : s.rapReached peer) (hwhole : m.whole = true)
    (hx : s.session peer m.session = some x) :
    s.rapFrom peer op false m envs = (s.rapHeard peer m).rapOrder peer x op m envs := by
  have hx' : (s.rapIn peer).session peer m.session = some x :=
    (State.session_congr (congrArg Mgt.sessions State.mgt_rapIn) _ _).trans hx
  rw [State.rapFrom_of_reached hreach]
  obtain ⟨-, -, hon, hreset, -⟩ := hreach
  have hon' : (s.rapIn peer).rapOn peer = true := State.rapOn_rapIn.trans hon
  have hreset' : (s.rapIn peer).inReset = false := State.inReset_rapIn.trans hreset
  simp only [State.rapArrive, hon', hwhole, hreset', Bool.not_true, Bool.false_eq_true, if_false,
    State.rapServe_of_session hx']
  rfl

/-- A request of an open session that comes in its turn completes (R520, R521). -/
theorem State.rap_completes (hreach : s.rapReached peer) (hwhole : m.whole = true)
    (hx : s.session peer m.session = some x) (hseq : x.expected = m.seq)
    (hrun : (s.rapHeard peer m).rapRun peer op m envs = .next d)
    (hz : d.state.session peer m.session = some z) (hahead : z.ahead = []) :
    ∃ t y r, s.rapFrom peer op false m envs = .next t ∧ t.session peer m.session = some y ∧
      y.expected = (m.seq + 1) % 2 ^ 32 ∧ y.subs = z.subs ∧ y.cache.head? = some r ∧ r.op = op ∧ r.seq = m.seq ∧
      r.status = d.status ∧ r.data = d.data ∧ ∀ mac ip port, peer = .eth mac ip port → OutMsg.rap peer r ∈ t.out := by
  have hdone := (State.rapFrom_of_session hreach hwhole hx).trans (State.rapOrder_of_turn hseq hrun hz hahead)
  refine ⟨_, _, d.state.rapReply op m d.status d.data, hdone, State.session_answered _ hz true, rfl, rfl, rfl, rfl, rfl,
    rfl, rfl, ?_⟩
  rintro mac ip port rfl
  exact List.mem_append_right _ (List.mem_singleton_self _)

/-! What each operation runs. Accesses to the dictionary leave the sessions. -/

theorem State.sessions_fresh' : s.fresh'.mgt.sessions = s.mgt.sessions := by
  unfold State.fresh' State.noteSram
  split <;> rfl

theorem State.sramUsers_fresh' : s.fresh'.sramUsers = s.sramUsers := by
  unfold State.fresh' State.noteSram
  split <;> rfl

theorem State.noteSram_fresh' : s.fresh'.noteSram = s.fresh' := by
  have hnoted : (s.fresh'.ddr.sramUsed || !s.fresh'.sramUsers) = true := by
    rw [State.sramUsers_fresh']
    unfold State.fresh' State.noteSram
    split
    case isTrue h => exact h
    case isFalse => rfl
  exact if_pos hnoted

theorem State.fresh'_fresh' : s.fresh'.fresh' = s.fresh' := by
  have hnoted := s.noteSram_fresh'
  unfold State.fresh' at hnoted ⊢
  rw [hnoted]

theorem State.sessions_flag (r k : Nat) (f : AccFlag) : (s.flag r k f).mgt.sessions = s.mgt.sessions := by
  have hwrites (u : State) (v : BitVec 64) (n : Nat) (b : Bool) : ((((u.putBit (Reg.MGT_ACC_STS r) f.bit b).wrN
      (Reg.MGT_ACC_LAST r) n).wr (Reg.MGT_ACC_LAST_TS r) v)).mgt.sessions = u.mgt.sessions := by
    rw [State.wr_mgt, State.wrN_mgt, State.putBit_mgt]
  unfold State.flag
  extract_lets was s₁ s₂ s₃ _ s₄
  have h₃ : s₃.mgt.sessions = s.mgt.sessions := hwrites s _ _ _
  have h₄ : s₄.mgt.sessions = s.mgt.sessions := h₃
  split
  · exact h₄
  · exact h₄

theorem State.sessions_readSlot (who uid k : Nat) : (s.readSlot who uid k).1.mgt.sessions = s.mgt.sessions := by
  unfold State.readSlot
  split
  · exact State.sessions_flag _ _ _
  · split
    · exact State.sessions_flag _ _ _
    · split
      · exact State.sessions_flag _ _ _
      · rfl

theorem State.sessions_readBlock (who uid addr n i : Nat) :
    (State.readBlock who uid addr n i s).state.mgt.sessions = s.mgt.sessions := by
  induction n generalizing i s with
  | zero => rfl
  | succ n ih => exact (ih _).trans ((State.sessions_readSlot _ _ _).trans State.sessions_fresh')

/-- A block read clears what it finds noted before its first slot. -/
theorem State.readBlock_fresh' (who uid addr n i : Nat) :
    State.readBlock who uid addr (n + 1) i s.fresh' = State.readBlock who uid addr (n + 1) i s := by
  simp only [State.readBlock, State.fresh'_fresh']

theorem State.writeBlock_fresh' (who : Fin 8) (uid addr i : Nat) {vs : List (BitVec 64)} (hvs : vs ≠ [])
    (envs : List WriteEnv) :
    State.writeBlock who uid addr i vs envs s.fresh' = State.writeBlock who uid addr i vs envs s := by
  cases vs with
  | nil => exact absurd rfl hvs
  | cons v vs => simp only [State.writeBlock, State.fresh'_fresh']

theorem State.takeWrite_of_noRule {who : Fin 8} {r : EntryRow} {k : Nat} {v : BitVec 64} {env : WriteEnv}
    (hrule : s.writeRule who env k ((if strayPaired k v then setBit v 3 false else v) &&& s.typeBits k v) = none) :
    ∃ t, s.takeWrite who r k v env = .next t ∧ t.mgt.sessions = s.mgt.sessions := by
  have hflagged (u : State) (hu : u.mgt.sessions = s.mgt.sessions) (c : Prop) [Decidable c] (f : AccFlag) :
      (if c then u.flag who k f else u).mgt.sessions = s.mgt.sessions := by
    split
    · exact (State.sessions_flag _ _ _).trans hu
    · exact hu
  unfold State.takeWrite
  extract_lets stray v' busy rule kept cfg old changes lost s₁ _ s₂ s₃ s₄
  have hnone : rule = none := hrule
  have h₁ : s₁.mgt.sessions = s.mgt.sessions := congrArg Mgt.sessions (s.wr_mgt k _)
  have h₂ : s₂.mgt.sessions = s.mgt.sessions := h₁
  have h₄ : s₄.mgt.sessions = s.mgt.sessions := hflagged s₃ (hflagged s₂ h₂ _ _) _ _
  rw [hnone]
  exact ⟨s₄, rfl, h₄⟩

/-- A write whose entry has no rule of its own completes and leaves the sessions. -/
theorem State.writeSlot_of_noRule {who : Fin 8} {uid k lo hi : Nat} {v : BitVec 64} {env : WriteEnv}
    (hrule : ∀ v, s.writeRule who env k v = none) (hundef : s.writeUndefined k v = none) :
    ∃ t, s.writeSlot who uid k lo hi v env = .next t ∧ t.mgt.sessions = s.mgt.sessions := by
  have hflag (f : AccFlag) : ∃ t, (.next (s.flag who k f) : Host.Outcome State Fault Refusal) = .next t ∧
      t.mgt.sessions = s.mgt.sessions := ⟨_, rfl, State.sessions_flag _ _ _⟩
  unfold State.writeSlot
  split
  · exact hflag _
  split
  · exact hflag _
  split
  · exact hflag _
  next r _ =>
    split
    · exact ⟨s, rfl, rfl⟩
    split
    · exact hflag _
    split
    · exact hflag _
    split
    · exact hflag _
    rw [hundef]
    exact State.takeWrite_of_noRule (hrule _)

/-- A block write into entries without rules completes (R522). -/
theorem State.writeBlock_of_noRule {who : Fin 8} {uid addr i : Nat} {vs : List (BitVec 64)} {envs : List WriteEnv}
    (hplain : ∀ j < vs.length, ∀ (w : State) (env : WriteEnv) (v : BitVec 64),
      w.writeRule who env (blockSlot addr (i + j)) v = none ∧ w.writeUndefined (blockSlot addr (i + j)) v = none) :
    ∃ d, State.writeBlock who uid addr i vs envs s = .next d ∧ d.1.mgt.sessions = s.mgt.sessions := by
  induction vs generalizing i envs s with
  | nil => exact ⟨(s, 0, []), rfl, rfl⟩
  | cons v vs ih =>
    obtain ⟨hrule, hundef⟩ := forall_and.mp fun w => forall_and.mp fun v =>
      hplain 0 (Nat.succ_pos _) w (envs.head?.getD default) v
    obtain ⟨t, ht, hsessions⟩ := State.writeSlot_of_noRule (s := s.fresh') (uid := uid) (lo := 0) (hi := 8) (v := v)
      (hrule _) (hundef _ v)
    obtain ⟨d, hd, hsame⟩ := ih (s := t) (i := i + 1) (envs := envs.tail) fun j hj w env v => by
      have h := hplain (j + 1) (Nat.succ_lt_succ hj) w env v
      rwa [Nat.add_comm j 1, ← Nat.add_assoc] at h
    refine ⟨(d.1, firstCause (statusOf t.mgt.flagged) d.2.1, (statusOf t.mgt.flagged == 0) :: d.2.2), ?_,
      hsame.trans (hsessions.trans State.sessions_fresh')⟩
    rw [Nat.add_zero] at ht
    simp only [State.writeBlock, ht, hd]

theorem blockSlot_zero (m : RapMsg) : blockSlot (m.addr % 2 ^ 24) 0 = m.addr % 2 ^ 24 := by
  rw [blockSlot, Nat.add_zero, Nat.mod_mod]

theorem firstCause_zero (n : Nat) : firstCause n 0 = n := by
  unfold firstCause
  split <;> simp_all

theorem dataWords_one (bs : List (BitVec 8)) : dataWords 1 bs = [BitVec.ofNat 64 (ofLe (bs.take 8))] := rfl

theorem length_dataWords (n : Nat) (bs : List (BitVec 8)) : (dataWords n bs).length = n := by
  simp [dataWords]

theorem RapMsg.count_pos {op : Nat} (hop : op = 3 ∨ op = 4) (h : m.fits op = true) : 0 < m.count := by
  rcases hop with rfl | rfl <;>
    · simp only [RapMsg.fits, Bool.and_eq_true, decide_eq_true_eq] at h
      omega

theorem State.rapRun_read (hfits : m.fits 1 = true) :
    let r := s.fresh'.readSlot peer.who peer.uid (m.addr % 2 ^ 24)
    s.rapRun peer 1 m envs = .next
      { state := r.1, status := statusOf r.1.mgt.flagged, data := leBytes 8 r.2.toNat } := by
  simp only [State.rapRun, hfits, State.readBlock, blockSlot_zero, firstCause_zero, List.append_nil, Bool.not_true,
    Bool.false_eq_true, if_false]

theorem State.rapRun_readBlock (hfits : m.fits 3 = true) :
    s.rapRun peer 3 m envs = .next (State.readBlock peer.who peer.uid (m.addr % 2 ^ 24) m.count 0 s.fresh') := by
  obtain ⟨n, hn⟩ := Nat.exists_eq_add_of_lt (RapMsg.count_pos (.inl rfl) hfits)
  rw [Nat.zero_add] at hn
  simp only [State.rapRun, hfits, Bool.not_true, Bool.false_eq_true, if_false]
  rw [hn, State.readBlock_fresh']

theorem State.rapRun_write {env : WriteEnv} {r : EntryRow} (hfits : m.fits 2 = true)
    (hplain : s.fresh'.plainWrite peer.who peer.uid (m.addr % 2 ^ 24) (BitVec.ofNat 64 (ofLe (m.data.take 8))) env r) :
    let stored := s.fresh'.stored (m.addr % 2 ^ 24) (BitVec.ofNat 64 (ofLe (m.data.take 8))) r
    s.rapRun peer 2 m [env] = .next { state := stored, status := 0, data := [] } := by
  have hwrite := State.writeSlot_of_plain hplain r.ty.width_le
  simp only [State.rapRun, hfits, dataWords_one, State.writeBlock, blockSlot_zero, List.head?_cons, Option.getD_some,
    hwrite, Bool.not_true, Bool.false_eq_true, if_false]
  rfl

theorem State.rapRun_writeBlock {r : State × Nat × List Bool} (hfits : m.fits 4 = true)
    (hwrite : State.writeBlock peer.who peer.uid (m.addr % 2 ^ 24) 0 (dataWords m.count m.data) envs s.fresh' = .next r) :
    s.rapRun peer 4 m envs = .next
      { state := r.1, status := r.2.1, data := leBytes 16 (bitsNat r.2.2) } := by
  have hne : dataWords m.count m.data ≠ [] := fun h => by
    have hlen := length_dataWords m.count m.data
    rw [h] at hlen
    exact absurd hlen (Nat.ne_of_lt (RapMsg.count_pos (.inr rfl) hfits))
  rw [State.writeBlock_fresh' _ _ _ _ hne] at hwrite
  simp only [State.rapRun, hfits, hwrite, Bool.not_true, Bool.false_eq_true, if_false]

theorem State.rapRun_subscribe (hfits : m.fits 5 = true) :
    let subscribed := s.onSession peer m.session fun x => x.subscribe (ofLe m.data)
    s.rapRun peer 5 m envs = .next { state := subscribed, status := 0, data := [] } := by
  simp only [State.rapRun, hfits, Bool.not_true, Bool.false_eq_true, if_false]

/-- A client's acknowledgement reaches its session (R524). -/
theorem State.rapFrom_notifyAck (hreach : s.rapReached peer) (hwhole : m.whole = true) :
    s.rapFrom peer 6 true m envs = .next ((s.rapIn peer).notifyAck peer m.session m.seq) := by
  rw [State.rapFrom_of_reached hreach]
  obtain ⟨-, -, hon, -⟩ := hreach
  have hon' : (s.rapIn peer).rapOn peer = true := State.rapOn_rapIn.trans hon
  simp only [State.rapArrive, hon', hwhole, Bool.not_true, Bool.false_eq_true, if_false, if_true]

end

/-- Settles O36: each operation is one turn of its session. -/
theorem rapRequestsComplete : Obligations.RapRequestsComplete := by
  unfold Obligations.RapRequestsComplete
  intro s peer m x hreach hwhole hx u a done
  have hheard := State.session_rapHeard hx
  have hmet : u = (s.rapHeard peer m).fresh' := State.rapMet_eq
  have hkept {t : State} (h : t.mgt.sessions = (s.rapHeard peer m).fresh'.mgt.sessions) :
      t.session peer m.session = some { x with peer := peer, lastAt := s.clk.up } :=
    (State.session_congr (h.trans State.sessions_fresh') _ _).trans hheard
  refine ⟨fun hahead hseq _ => ⟨fun hfits => ?read, fun hfits => ?readBlock, fun env r hfits => ?write,
    fun envs hfits hplain => ?writeBlock, fun hfits => ?subscribe⟩, ?ack⟩
  case read =>
    intro d
    have hd : d = (s.rapHeard peer m).fresh'.readSlot peer.who peer.uid a := by rw [← hmet]
    rw [hd]
    have hdone := State.rap_completes hreach hwhole hx hseq (State.rapRun_read (envs := []) hfits)
      (hkept (State.sessions_readSlot _ _ _)) hahead
    exact hdone
  case readBlock =>
    intro d
    have hd : d = State.readBlock peer.who peer.uid a m.count 0 (s.rapHeard peer m).fresh' := by rw [← hmet]
    rw [hd]
    have hdone := State.rap_completes hreach hwhole hx hseq (State.rapRun_readBlock (envs := []) hfits)
      (hkept (State.sessions_readBlock _ _ _ _ _)) hahead
    exact hdone
  case write =>
    intro v hplain
    rw [hmet] at hplain
    have hdone := State.rap_completes hreach hwhole hx hseq (State.rapRun_write hfits hplain) (hkept rfl) hahead
    refine ⟨hdone, ?_⟩
    rw [hmet]
    exact ⟨_, State.writeSlot_of_plain hplain r.ty.width_le, State.rd_stored_same _ _ _ _⟩
  case writeBlock =>
    obtain ⟨d, hd, hsame⟩ := State.writeBlock_of_noRule (s := (s.rapHeard peer m).fresh') (who := peer.who)
      (uid := peer.uid) (addr := a) (i := 0) (vs := dataWords m.count m.data) (envs := envs) fun j hj w env v => by
        rw [Nat.zero_add]
        exact hplain j (by rwa [length_dataWords] at hj) w peer.who env v
    refine ⟨d, by rw [hmet]; exact hd, ?_⟩
    have hdone := State.rap_completes hreach hwhole hx hseq (State.rapRun_writeBlock hfits hd) (hkept hsame) hahead
    exact hdone
  case subscribe =>
    have hsub : ((s.rapHeard peer m).onSession peer m.session fun x => x.subscribe (ofLe m.data)).session peer m.session =
        some (Session.subscribe { x with peer := peer, lastAt := s.clk.up } (ofLe m.data)) := by
      rw [State.session_onSession (f := fun x => x.subscribe (ofLe m.data)) fun y hy => hy, hheard]
      rfl
    have hdone := State.rap_completes hreach hwhole hx hseq (State.rapRun_subscribe (envs := []) hfits) hsub hahead
    exact hdone
  case ack =>
    have hx' : (s.rapIn peer).session peer m.session = some x :=
      (State.session_congr (congrArg Mgt.sessions State.mgt_rapIn) _ _).trans hx
    have hacked : ((s.rapIn peer).notifyAck peer m.session m.seq).session peer m.session = some { x with
        outstanding := x.outstanding.filter fun o => !(o.seq == m.seq), lastAt := (s.rapIn peer).clk.up } := by
      unfold State.notifyAck
      rw [State.session_onSession, hx']
      · rfl
      · exact fun y hy => hy
    refine ⟨_, _, State.rapFrom_notifyAck hreach hwhole, hacked, rfl, ?_, rfl, ?_⟩
    · exact congrArg Clk.up State.clk_rapIn
    · exact (State.wrN_mem _ _ _).trans State.mem_rapIn

end Sys2Proof.Machine
end

section
namespace Sys2Proof.Machine

/-! ### Notifications and the management Ethernet port (R524, R525) -/

section
variable {s : State}

theorem State.rd_onSession_ne {k : Nat} (h : k ≠ Reg.MGT_RAP_SESSIONS) (peer : Peer) (id : Nat)
    (f : Session → Session) : (s.onSession peer id f).rd k = s.rd k :=
  State.rd_wrN_ne _ _ h

theorem execNotifySend_of_open {n : Fin 32} {x : Session} (hx : s.mgt.sessions[n.val]? = some x) (hbuf : x.buf ≠ [])
    (hroom : x.outstanding.length < 8) (hopen : s.notifyOpen x.peer = true) :
    let o : NotifyOut := { seq := x.nseq, recs := x.buf.take 32, sentAt := s.clk.up }
    let t := s.onSession x.peer x.id fun y =>
      { y with buf := y.buf.drop 32, nseq := (y.nseq + 1) % 2 ^ 32, outstanding := y.outstanding ++ [o] }
    execNotifySend n s = .next (t.rapSend x.peer (t.notifyMsg x o.seq o.recs) false) := by
  have hbuf' : x.buf.isEmpty = false := by simpa using hbuf
  have hroom' : decide (8 ≤ x.outstanding.length) = false := by simpa using hroom
  simp only [execNotifySend, hx, hbuf', hroom', hopen, Bool.not_true, Bool.or_self, Bool.false_eq_true, if_false]

theorem execNotifyResend_of_due {n : Fin 32} {seq : BitVec 32} {x : Session} {o : NotifyOut}
    (hx : s.mgt.sessions[n.val]? = some x) (ho : (x.outstanding.find? fun o => o.seq == seq.toNat) = some o)
    (hdue : s.elapsed o.sentAt (msec 1) = true) (hopen : s.notifyOpen x.peer = true) :
    let t := s.onSession x.peer x.id fun y => { y with outstanding := y.outstanding.map fun (p : NotifyOut) =>
      if p.seq = o.seq then { p with sentAt := s.clk.up } else p }
    execNotifyResend n seq s = .next ((t.bumpSat Reg.MGT_NOTIFY_RESENT 32).rapSend x.peer
      (t.notifyMsg x o.seq o.recs) false) := by
  simp only [execNotifyResend, hx, ho, hdue, hopen, Bool.and_self, if_true]

theorem State.rd_resent (peer : Peer) (id : Nat) (f : Session → Session) (r : RapReply) :
    (((s.onSession peer id f).bumpSat Reg.MGT_NOTIFY_RESENT 32).rapSend peer r false).rd Reg.MGT_NOTIFY_RESENT =
      BitVec.ofNat 64 (satAdd 32 (s.rdN Reg.MGT_NOTIFY_RESENT) 1) := by
  have hrd : (s.onSession peer id f).rdN Reg.MGT_NOTIFY_RESENT = s.rdN Reg.MGT_NOTIFY_RESENT :=
    congrArg BitVec.toNat (State.rd_onSession_ne (by decide) _ _ _)
  rw [State.rd_rapSend_ne (by decide), State.bumpSat_eq, State.rd_wr_same, hrd]

/-- A change of the Ethernet link shows in bit 0 of MGT_ETH_STS (R525). -/
theorem State.bit_ethLink (up : Bool) : (s.ethLink up).bit Reg.MGT_ETH_STS 0 = up := by
  unfold State.ethLink
  split
  case isTrue h => exact h.symm
  case isFalse =>
    have hput (an : Bool) : ((s.putBit Reg.MGT_ETH_STS 0 up).putBit Reg.MGT_ETH_STS 1 an).bit Reg.MGT_ETH_STS 0 = up := by
      rw [State.bit_putBit_apart _ _ _ _ _ (by decide) (by decide), State.bit_putBit_same _ _ _ _ (by decide)]
    dsimp only
    rw [State.bit_raise]
    split
    · exact hput _
    · exact (State.bit_wr_ne _ _ _ (by decide)).trans (hput _)

end

/-- Settles O37. -/
theorem ethernetCompletes : Obligations.EthernetCompletes := by
  unfold Obligations.EthernetCompletes
  intro s
  refine ⟨fun n x hx hbuf hroom hopen => execNotifySend_of_open hx hbuf hroom hopen,
    fun n seq x o hx ho hdue hopen => ⟨_, execNotifyResend_of_due hx ho hdue hopen, State.rd_resent _ _ _ _⟩,
    fun mac ip target hacts htarget => ?arp, fun mac ip data hacts hecho => ?echo, fun hruns hpower => ⟨?taken, ?dropped⟩,
    fun hup => ?down, fun hdown hruns => ?up⟩
  case arp => exact congrArg Host.Outcome.next ((if_pos hacts).trans (if_pos htarget))
  case echo => exact congrArg Host.Outcome.next ((if_pos hacts).trans (if_pos hecho))
  case taken => exact congrArg Host.Outcome.next (if_pos (by rw [hruns, decide_eq_true hpower]; rfl))
  case dropped => exact congrArg Host.Outcome.next (if_pos (by rw [hruns, decide_eq_true hpower]; rfl))
  case down => exact ⟨_, rfl, State.bit_ethLink false⟩
  case up =>
    have hrun : execMgtEthLink true s = .next (s.ethLink true) := by simp [execMgtEthLink, hruns]
    exact ⟨_, hrun, State.bit_ethLink true⟩

end Sys2Proof.Machine
end

section
namespace Sys2Proof.Machine

/-! ### Lane groups: the link state machine (R39-R65) -/

section
variable {s t : State} {g : Nat}

theorem State.laneState_congr (h : t.rd (Reg.LNK_GRP_STATE g) = s.rd (Reg.LNK_GRP_STATE g)) :
    t.laneState g = s.laneState g := by
  unfold State.laneState State.fld
  rw [h]

variable (s) in
theorem State.rd_driveSync (g : Nat) (low : Bool) (k : Nat) : (s.driveSync g low).rd k = s.rd k := by
  unfold State.driveSync
  split
  · rfl
  · exact (State.rd_send _ _ _).trans (State.rd_setLane _ _ _ _)

/-- A group that was not in RUN enters a state and takes no more leave of what it had. -/
theorem State.laneState_enterLane {st : Nat} (hst : st < 16) (hwas : s.laneState g ≠ 7) :
    (s.enterLane g st).laneState g = st := by
  have hset (u : State) : (u.setFld (Reg.LNK_GRP_STATE g) 3 0 st).laneState g = st :=
    (u.fld_setFld_same _ _ _ _ (by decide) (by decide)).trans (Nat.mod_eq_of_lt hst)
  have hlane (u : State) (x : LaneGroup) : (u.setLane g x).laneState g = u.laneState g :=
    State.laneState_congr (State.rd_setLane _ _ _ _)
  have hsync (u : State) (low : Bool) : (u.driveSync g low).laneState g = u.laneState g :=
    State.laneState_congr (State.rd_driveSync _ _ _ _)
  unfold State.enterLane
  dsimp only
  rw [if_neg (fun h => hwas h.1)]
  split
  · rw [hlane, hset]
  · rw [hsync, hlane, hset]

theorem State.jLane_lt {l : Nat} (hg : g < 4) : s.jLane g l < 64 := by
  have hfld : s.fld (Reg.LNK_LANE_MAP g) (4 * l + 3) (4 * l) < 2 ^ (4 * l + 3 + 1 - 4 * l) := getF_lt _ _ _
  rw [show 4 * l + 3 + 1 - 4 * l = 4 by omega] at hfld
  unfold State.jLane
  omega

theorem State.laneCount_le : s.laneCount g ≤ 16 := by
  have hfld : s.fld (Reg.LNK_JESD_PARAMS g) 3 0 < 2 ^ 4 := getF_lt _ _ _
  unfold State.laneCount
  omega

theorem lnkGrpState_ne_laneSts {j : Nat} (hj : j < 64) : Reg.LNK_GRP_STATE g ≠ Reg.LNK_LANE_STS j := by
  unfold Reg.LNK_GRP_STATE Reg.LNK_LANE_STS slot
  omega

theorem lnkGrpCtl_ne_laneSts (j : Nat) : Reg.LNK_GRP_CTL g ≠ Reg.LNK_LANE_STS j := by
  unfold Reg.LNK_GRP_CTL Reg.LNK_LANE_STS slot
  omega

/-- Locks found in the lanes write the lanes' status, and the group's above its state, alone (R49). -/
theorem State.lanesUp_induction {P : State → Prop} (hg : g < 4)
    (hlane : ∀ u j b x, j < 64 → P u → P (u.putBit (Reg.LNK_LANE_STS j) b x))
    (hshow : ∀ u l x, l < 16 → P u → P (u.putBit (Reg.LNK_GRP_STATE g) (8 + l) x)) (sync emb : Nat) (hs : P s) :
    P (s.lanesUp g sync emb) := by
  have hlanes : ∀ e ∈ (s.lanesUsed g).zipIdx, e.1 < 64 ∧ e.2 < 16 := fun e he => by
    have hmem := List.fst_mem_of_mem_zipIdx he
    have hlt := List.snd_lt_of_mem_zipIdx he
    obtain ⟨l, -, hl⟩ := List.mem_map.mp hmem
    have hlen : (s.lanesUsed g).length ≤ 16 := by simpa [State.lanesUsed] using s.laneCount_le
    exact ⟨hl ▸ State.jLane_lt hg, by omega⟩
  unfold State.lanesUp
  generalize (s.lanesUsed g).zipIdx = es at hlanes
  induction es generalizing s with
  | nil => exact hs
  | cons e es ih =>
    obtain ⟨⟨hj, hl⟩, hrest⟩ := List.forall_mem_cons.mp hlanes
    have hfound (u : State) (b : Nat) (c : Prop) [Decidable c] (hu : P u) :
        P (if c then u.putBit (Reg.LNK_LANE_STS e.1) b true else u) := by
      split
      · exact hlane u _ b true hj hu
      · exact hu
    exact ih (hshow _ _ _ hl (hfound _ _ _ (hfound _ _ _ hs))) hrest

theorem State.laneState_lanesUp (hg : g < 4) (sync emb : Nat) : (s.lanesUp g sync emb).laneState g = s.laneState g :=
  State.lanesUp_induction (P := fun u => u.laneState g = s.laneState g) hg
    (fun u _ _ _ hj hu => (u.fld_putBit_ne _ _ _ _ (lnkGrpState_ne_laneSts hj)).trans hu)
    (fun u _ _ hl hu => (u.fld_putBit_apart _ _ _ _ _ (by omega) (by omega)).trans hu) sync emb rfl

theorem State.bit_lanesUp_grpCtl (hg : g < 4) (sync emb b : Nat) :
    (s.lanesUp g sync emb).bit (Reg.LNK_GRP_CTL g) b = s.bit (Reg.LNK_GRP_CTL g) b :=
  State.lanesUp_induction (P := fun u => u.bit (Reg.LNK_GRP_CTL g) b = s.bit (Reg.LNK_GRP_CTL g) b) hg
    (fun u _ _ _ _ hu => (u.bit_putBit_ne _ _ _ (lnkGrpCtl_ne_laneSts _)).trans hu)
    (fun u _ _ _ hu => (u.bit_putBit_ne _ _ _ (slot_ne_of_sub_ne _ (by decide))).trans hu) sync emb rfl

/-- What the ILAS of a group that has locked leaves shown before the group goes on (R51). -/
def State.ilasShown (s : State) (g seen : Nat) : State :=
  let t := (s.driveSync g false).wrN (Reg.LNK_ILAS_SEEN g) (seen % 2 ^ 45)
  t.setLane g { t.lane g with loopN := 0, part := [] }

theorem State.rd_ilasShown_ne {k : Nat} (seen : Nat) (h : k ≠ Reg.LNK_ILAS_SEEN g) :
    (s.ilasShown g seen).rd k = s.rd k :=
  (State.rd_setLane _ _ _ _).trans ((State.rd_wrN_ne _ _ h).trans (s.rd_driveSync g false k))

theorem State.laneState_ilasShown (seen : Nat) : (s.ilasShown g seen).laneState g = s.laneState g :=
  State.laneState_congr (State.rd_ilasShown_ne seen (slot_ne_of_sub_ne _ (by decide)))

theorem execEmbLock_of_ilas {g : Fin 4} {x : SyncFind} (hst : s.laneState g = 5)
    (hall : (let u := s.lanesUp g x.sync.toNat x.emb.toNat; u.allLanes g 2 && u.allLanes g 3) = true)
    (hmode : (s.lanesUp g x.sync.toNat x.emb.toNat).laneMode g = 1) :
    let u := s.lanesUp g x.sync.toNat x.emb.toNat
    ∃ seen, execEmbLock g x s = if (u.ilasShown g seen).ilasAll g x.ilas then .next ((u.ilasShown g seen).enterLane g 6)
      else if (u.ilasShown g seen).bit (Reg.LNK_GRP_CTL g) 6 then .next ((u.ilasShown g seen).laneFault g 5)
      else .next (((u.ilasShown g seen).raise (148 + g)).enterLane g 6) := by
  have hall' : ¬ (!(let u := s.lanesUp g x.sync.toNat x.emb.toNat; u.allLanes g 2 && u.allLanes g 3)) = true := by
    rw [hall]
    decide
  exact ⟨_, (if_pos hst).trans ((if_neg hall').trans (if_pos hmode))⟩

end

/-- Settles O38. -/
theorem lanesComplete : Obligations.LanesComplete := by
  unfold Obligations.LanesComplete
  intro s g
  refine ⟨fun hpair hdef => ?enable, rfl, fun hst hdue => congrArg Host.Outcome.next (if_pos ⟨hst, hdue⟩),
    fun lanes hst => if_pos hst, fun hst hdue => congrArg Host.Outcome.next (if_pos ⟨hst, hdue⟩),
    fun boost dfe hlow hhigh => if_pos ⟨hlow, hhigh⟩, fun hst hdue => congrArg Host.Outcome.next (if_pos ⟨hst, hdue⟩),
    fun hlow hhigh => congrArg Host.Outcome.next (if_pos ⟨hlow, hhigh⟩), fun x hst => ?emb,
    fun hst hdue => congrArg Host.Outcome.next (if_pos ⟨hst, hdue⟩),
    fun hst hmode hdue => congrArg Host.Outcome.next (if_pos ⟨hst, hmode, hdue⟩),
    fun hready hctl => congrArg Host.Outcome.next (if_pos ?_), fun lost what hls hraw hjesd => ?lost⟩
  case enable => exact if_neg (by simp [hdef])
  case emb =>
    intro u all
    have hst' : u.laneState g = 5 := (State.laneState_lanesUp g.isLt _ _).trans hst
    refine ⟨fun hall => ?waits, fun hall hmode => ?noIlas, fun hall hmode hctl => ?ilas⟩
    case waits => exact (if_pos hst).trans (if_pos (show (!all) = true by rw [hall]; rfl))
    case noIlas =>
      exact (if_pos hst).trans ((if_neg (show ¬ (!all) = true by rw [hall]; decide)).trans (if_neg hmode))
    case ilas =>
      obtain ⟨seen, hrun⟩ := execEmbLock_of_ilas hst hall hmode
      have hnot : (u.ilasShown g seen).laneState g ≠ 7 := by
        rw [State.laneState_ilasShown, hst']
        decide
      have hlax : ¬ (u.ilasShown g seen).bit (Reg.LNK_GRP_CTL g) 6 = true := by
        have hne : Reg.LNK_GRP_CTL g ≠ Reg.LNK_ILAS_SEEN g := slot_ne_of_sub_ne _ (by decide)
        rw [State.bit, State.rd_ilasShown_ne _ hne, ← State.bit, State.bit_lanesUp_grpCtl g.isLt, hctl]
        decide
      by_cases hilas : (u.ilasShown g seen).ilasAll g x.ilas = true
      · exact ⟨_, hrun.trans (if_pos hilas), State.laneState_enterLane (by decide) hnot⟩
      · exact ⟨_, hrun.trans ((if_neg hilas).trans (if_neg hlax)), State.laneState_enterLane (by decide) hnot⟩
  case lost =>
    refine congrArg Host.Outcome.next (if_pos ⟨?_, hls⟩)
    split
    case isTrue h => exact hraw h
    case isFalse h => exact hjesd h
  · exact Bool.and_eq_true_iff.mpr ⟨hready, hctl⟩

end Sys2Proof.Machine
end

section
namespace Sys2Proof.Machine

/-! ### Lane groups: arrivals, releases and scans (R39-R56) -/

section
variable {s : State}

theorem State.laneOffset_of_cdr {j : Nat} (hused : (s.lanesUsed (j / 12)).contains j = true) (hloop : s.loops j = false)
    (hst : s.laneState (j / 12) = 3) (on : Bool) :
    s.laneOffset j on = if on then (s.putBit (Reg.LNK_LANE_STS j) 10 on).putBit (Reg.LNK_LANE_STS j) 0 false
      else s.putBit (Reg.LNK_LANE_STS j) 10 on := by
  have hmeets : ¬ ((!(s.lanesUsed (j / 12)).contains j) = true ∨ s.loops j = true ∨ s.laneState (j / 12) < 3) := by
    rw [hused, hloop, hst]
    simp
  unfold State.laneOffset
  dsimp only
  rw [if_neg hmeets, hst]
  cases on <;> simp

/-- A lane that leaves its offset range shows it and is no longer locked (R49). -/
theorem bits_offset (k : Nat) (on : Bool) :
    let t := if on then (s.putBit k 10 on).putBit k 0 false else s.putBit k 10 on
    t.bit k 10 = on ∧ (on = true → t.bit k 0 = false) := by
  cases on
  · exact ⟨s.bit_putBit_same _ _ _ (by decide), fun h => Bool.noConfusion h⟩
  · refine ⟨?_, fun _ => State.bit_putBit_same _ _ _ _ (by decide)⟩
    exact (State.bit_putBit_apart _ _ _ _ _ (by decide) (by decide)).trans (s.bit_putBit_same _ _ _ (by decide))

theorem State.fpState_congr {t : State} {p : Nat} (h : t.rd (Reg.FAB_PORT_STS p) = s.rd (Reg.FAB_PORT_STS p)) :
    t.fpState p = s.fpState p := by
  unfold State.fpState State.fld
  rw [h]

theorem execFreqOfsFault_of_training {x : OffsetChange} (hport : 48 ≤ x.lane.val)
    (hst : s.fpState ((x.lane.val - 48) / 2) = 1) :
    let k := Reg.FAB_LANE_STS (x.lane.val - 48)
    execFreqOfsFault x s = .next (if x.leaves then (s.putBit k 10 x.leaves).putBit k 0 false
      else s.putBit k 10 x.leaves) := by
  intro k
  have hlane : ¬ x.lane.val < 48 := by omega
  have hne : Reg.FAB_PORT_STS ((x.lane.val - 48) / 2) ≠ k := by
    unfold k Reg.FAB_PORT_STS Reg.FAB_LANE_STS slot
    omega
  have hup (u : State) (hu : u.fpState ((x.lane.val - 48) / 2) = 1) : u.fpUp ((x.lane.val - 48) / 2) = false := by
    rw [State.fpUp, hu]
    rfl
  have hkept (a b : Bool) : ((s.putBit k 10 a).putBit k 0 b).fpState ((x.lane.val - 48) / 2) = 1 := by
    rw [State.fpState_congr (State.rd_putBit_ne _ _ _ hne), State.fpState_congr (State.rd_putBit_ne _ _ _ hne), hst]
  have hon : ¬ (s.fpState ((x.lane.val - 48) / 2) = 0 ∨ s.fpState ((x.lane.val - 48) / 2) = 6) := by
    rw [hst]
    decide
  unfold execFreqOfsFault
  dsimp only
  rw [if_neg hlane, if_neg hon, hup _ (hkept _ _)]
  cases x.leaves <;> rfl

/-- A lane's count of PRBS errors and its lock bit, as an error report leaves them (R56). -/
def State.prbsShown (s : State) (sts cnt ctl errors : Nat) (on : Bool) : State :=
  let u := if s.bit sts 4 then s.bump cnt 64 errors else s
  u.putBit sts 4 (on && u.fld ctl 6 4 != 0)

theorem State.prbsShown_of_on {sts cnt ctl errors : Nat} {on : Bool} (hne : ctl ≠ cnt) (hctl : s.fld ctl 6 4 ≠ 0) :
    s.prbsShown sts cnt ctl errors on = (if s.bit sts 4 then s.bump cnt 64 errors else s).putBit sts 4 on := by
  have hkept : ((if s.bit sts 4 then s.bump cnt 64 errors else s).fld ctl 6 4 != 0) = true := by
    split
    · rw [State.bump_eq, State.fld_wr_ne _ _ _ _ hne]
      exact bne_iff_ne.mpr hctl
    · exact bne_iff_ne.mpr hctl
  unfold State.prbsShown
  dsimp only
  rw [hkept, Bool.and_true]

/-- The word that a snapshot shows for a lane: the slipped one, or what the lane's word reads as (R55). -/
def State.rawValue (s : State) (words : List (BitVec 64)) (g f l : Nat) : Nat :=
  (s.slipped g l 0 (s.lane g).raw).getD (words[l]?.getD (Config.rawWord f l)).toNat

/-- The first `n` lanes of a group have their words shown, and nothing else is written. -/
structure State.RawShown (s : State) (words : List (BitVec 64)) (g f n : Nat) (t : State) : Prop where
  others : ∀ k, (∀ j, k ≠ Reg.LNK_RAW_WORD j) → t.rd k = s.rd k
  lanes : t.lanes = s.lanes
  shows : ∀ l < n, t.rd (Reg.LNK_RAW_WORD (s.jLane g l)) = BitVec.ofNat 64 (s.rawValue words g f l)

section
variable {t : State} {words : List (BitVec 64)} {g f n : Nat}

theorem State.RawShown.jLane (h : s.RawShown words g f n t) (l : Nat) : t.jLane g l = s.jLane g l := by
  have hmap : t.rd (Reg.LNK_LANE_MAP g) = s.rd (Reg.LNK_LANE_MAP g) := h.others _ fun j => by
    unfold Reg.LNK_LANE_MAP Reg.LNK_RAW_WORD slot
    omega
  unfold State.jLane State.fld
  rw [hmap]

theorem State.RawShown.rawValue (h : s.RawShown words g f n t) (l : Nat) :
    t.rawValue words g f l = s.rawValue words g f l := by
  have hctl : t.rd (Reg.LNK_LANE_CTL (s.jLane g l)) = s.rd (Reg.LNK_LANE_CTL (s.jLane g l)) := h.others _ fun j => by
    unfold Reg.LNK_LANE_CTL Reg.LNK_RAW_WORD slot
    omega
  have hlane : t.lane g = s.lane g := by
    unfold State.lane
    rw [h.lanes]
  unfold State.rawValue State.slipped State.fld
  rw [h.jLane, hctl, hlane]

theorem State.RawShown.step (h : s.RawShown words g f n t) (hnew : ∀ l < n, s.jLane g l ≠ s.jLane g n) :
    s.RawShown words g f (n + 1) (t.wrN (Reg.LNK_RAW_WORD (t.jLane g n)) (t.rawValue words g f n)) where
  others k hk := (State.rd_wrN_ne _ _ (hk _)).trans (h.others k hk)
  lanes := (State.wrN_lanes _ _ _).trans h.lanes
  shows l hl := by
    rw [h.jLane, h.rawValue]
    rcases Nat.lt_succ_iff_lt_or_eq.mp hl with hlt | rfl
    · have hne : Reg.LNK_RAW_WORD (s.jLane g l) ≠ Reg.LNK_RAW_WORD (s.jLane g n) := by
        have := hnew l hlt
        unfold Reg.LNK_RAW_WORD slot
        omega
      exact (State.rd_wrN_ne _ _ hne).trans (h.shows l hlt)
    · exact State.rd_wrN_same _ _ _

end

/-- A snapshot of a group whose lanes differ shows the word of each (R55). -/
theorem State.rawShown_range {words : List (BitVec 64)} {g n : Nat} (hnodup : (s.lanesUsed g).Nodup)
    (hn : n ≤ s.laneCount g) : s.RawShown words g s.fresh n ((List.range n).foldl (fun s' l =>
      s'.wrN (Reg.LNK_RAW_WORD (s'.jLane g l)) (s'.rawValue words g s.fresh l)) s.draw.2) := by
  induction n with
  | zero => exact ⟨fun _ _ => rfl, rfl, fun _ h => absurd h (Nat.not_lt_zero _)⟩
  | succ n ih =>
    rw [List.range_succ, List.foldl_append]
    refine (ih (Nat.le_of_succ_le hn)).step fun l hl heq => ?_
    have hinj := List.inj_on_of_nodup_map hnodup (List.mem_range.mpr (Nat.lt_trans hl hn)) (List.mem_range.mpr hn) heq
    exact Nat.ne_of_lt hl hinj

end

/-- Settles O39. -/
theorem laneArrivalsComplete : Obligations.LaneArrivalsComplete := by
  unfold Obligations.LaneArrivalsComplete
  intro s
  refine ⟨fun j on hj => congrArg Host.Outcome.next (if_pos hj), fun j on hused hloop hst => ?offset,
    fun j on => ?fabOffset, fun hlock => if_pos hlock, ?release, fun g hmode hst hpair => ?rawGo, ?rawSnap, ?multiblock,
    ?prbs, fun j => ?eyeStart, fun j bad dwell hfind => ?eyeDone⟩
  case offset =>
    rw [State.laneOffset_of_cdr hused hloop hst]
    exact bits_offset _ on
  case fabOffset =>
    intro l hj hst
    exact ⟨_, execFreqOfsFault_of_training hj hst, bits_offset _ on⟩
  case release =>
    intro g here there c hcapture hpartners hoff hon hst hpoint b xs t u hton harr hrate huon
    have hopen : (!s.pairedOff g.val && ((s.partners g.val).all fun h => s.laneState h == 6) &&
        atOrAfter s.time (s.releasePoint g.val c)) = true := by
      rw [hpartners, hoff, hpoint]
      simp [hst]
    show execLnkRelease g here there s = _
    unfold execLnkRelease
    rw [hcapture]
    refine (if_pos hopen).trans ?_
    extract_lets room ys t₂ u₁ u₂
    have ht : t₂ = t := if_neg (by rw [hton]; decide)
    have harr' : ¬ (!t₂.arrived g.val room xs) = true := by
      rw [ht, harr]
      decide
    have hpair' : ¬ (t₂.pairedOn g.val && !t₂.arrived (g.val + 1) room ys) = true := by
      rw [ht, hton, Bool.false_and]
      decide
    have hrate' : ¬ (t₂.bit (Reg.CND_STS g) 0 && t₂.rateUndefined g.val) = true := by
      rw [ht]
      rcases hrate with h | h <;> simp [h]
    refine (if_neg harr').trans ((if_neg hpair').trans ((if_neg hrate').trans ?_))
    have hu : u₂ = u := by
      unfold u₂ u₁
      rw [ht, hpartners]
      rfl
    rw [hu, if_neg (by rw [huon]; decide)]
  case rawGo => exact congrArg Host.Outcome.next (if_pos ⟨hmode, hst, by rw [hpair]; rfl⟩)
  case rawSnap =>
    intro g words hnodup
    refine ⟨_, rfl, fun l hl => ⟨Config.rawWord s.fresh l, ?_⟩⟩
    exact (State.rawShown_range hnodup (Nat.le_refl _)).shows l hl
  case multiblock =>
    intro g octets code crc first ok u
    refine ⟨fun hmode hlow hhigh => (if_pos hmode).trans (if_pos ⟨hlow, hhigh⟩),
      fun hmode hlow hhigh hjesd => ?_, fun hmode hlow hhigh hjesd => ?_⟩
    · exact (if_neg hmode).trans ((if_pos ⟨hlow, hhigh⟩).trans (if_pos hjesd))
    · exact (if_neg hmode).trans ((if_pos ⟨hlow, hhigh⟩).trans (if_neg hjesd))
  case prbs =>
    intro j on errors sts cnt ctl hctl
    have hne : ctl ≠ cnt ∧ sts ≠ cnt := by
      unfold ctl cnt sts
      split
      · exact ⟨slot_ne_of_sub_ne _ (by decide), slot_ne_of_sub_ne _ (by decide)⟩
      · exact ⟨slot_ne_of_sub_ne _ (by decide), slot_ne_of_sub_ne _ (by decide)⟩
    have hrun : execPrbsLock j on errors s = .next
        ((if s.bit sts 4 then s.bump cnt 64 errors else s).putBit sts 4 on) := by
      rw [← State.prbsShown_of_on hne.1 hctl]
      unfold execPrbsLock sts cnt ctl
      split <;> rfl
    refine ⟨_, hrun, State.bit_putBit_same _ _ _ _ (by decide), fun hlocked => ?_⟩
    rw [State.rd_putBit_ne _ _ _ hne.2.symm, if_pos hlocked]
    exact State.rd_wr_same _ _ _
  case eyeStart =>
    refine ⟨_, rfl, State.rd_wr_same _ _ _, ?_⟩
    exact List.mem_append_right _ (List.mem_singleton_self _)
  case eyeDone =>
    have hrun : ∃ n, execEyeDone j bad s = .next (State.raise (State.wrN
        { s with eyes := s.eyes.filter fun e => e.1 != j.val } (eyeResult j)
        (bad.toNat + 2 ^ (10 + 2 * dwell) * 2 ^ 32 + 2 ^ 63)) n) := by
      unfold execEyeDone
      rw [hfind]
      exact ⟨_, rfl⟩
    obtain ⟨n, hrun⟩ := hrun
    exact ⟨_, hrun, (State.rd_raise _ _ _ _).trans (State.rd_wrN_same _ _ _)⟩

end Sys2Proof.Machine
end

section
namespace Sys2Proof.Machine

/-! ### Sideband and conditioning (R61-R99) -/

/-- Settles O40. -/
theorem sidebandCompletes : Obligations.SidebandCompletes := by
  unfold Obligations.SidebandCompletes
  intro s g
  refine ⟨fun hidle hlow hhigh => ?spiGo, fun data hbusy => ?spiDone, fun hidle => ?i2cGo, fun nack data hbusy => ?i2cDone,
    fun low => ?edge, fun spi i2c hlow haway hdue hw => ?comes, fun spi i2c hlow haway hdue hw => ?goes,
    fun image hbusy => ?ready⟩
  case spiGo =>
    have hspeed : ¬ (getF (s.rd (Reg.LNK_SPI_CFG g)) 7 0 < 5 ∨ 250 < getF (s.rd (Reg.LNK_SPI_CFG g)) 7 0) := by
      unfold State.fld at hlow hhigh
      omega
    refine ⟨_, (if_neg (by rw [hidle]; decide)).trans (if_neg hspeed), ?_, ?_⟩
    · exact (State.rd_send _ _ _).trans (State.rd_wrN_same _ _ _)
    · exact List.length_append
  case spiDone =>
    exact ⟨_, congrArg Host.Outcome.next (if_pos hbusy), (State.rd_raise _ _ _ _).trans (State.rd_wrN_same _ _ _)⟩
  case i2cGo =>
    refine ⟨_, congrArg Host.Outcome.next (if_neg (by rw [hidle]; decide)), ?_, ?_⟩
    · exact (State.rd_send _ _ _).trans (State.rd_wrN_same _ _ _)
    · exact List.length_append
  case i2cDone =>
    exact ⟨_, congrArg Host.Outcome.next (if_pos hbusy), (State.rd_raise _ _ _ _).trans (State.rd_wrN_same _ _ _)⟩
  case edge =>
    have hlane := s.lane_setLane_same g { s.lane g with prsntLow := low, prsntSince := s.clk.up } g.isLt
    exact ⟨_, rfl, congrArg LaneGroup.prsntLow hlane, congrArg LaneGroup.prsntSince hlane, State.setLane_regs _ _ _,
      State.setLane_mem _ _ _⟩
  case comes =>
    show execPresentChange ⟨g, spi, i2c⟩ s = _
    simp [execPresentChange, hlow, haway, hdue, hw]
  case goes =>
    show execPresentChange ⟨g, spi, i2c⟩ s = _
    simp [execPresentChange, hlow, haway, hdue, hw]
  case ready =>
    exact ⟨_, if_pos hbusy, (State.bit_raise _ _ _ _ _).trans (State.bit_putBit_same _ _ _ _ (by decide))⟩

theorem toSigned_ofSigned_24 {i : Int} (hlow : -8388608 ≤ i) (hhigh : i ≤ 8388607) :
    toSigned 24 (ofSigned 24 i % 2 ^ 64) = i := by
  unfold toSigned ofSigned
  split <;> omega

theorem sat24_range (i : Int) : -8388608 ≤ sat24 i ∧ sat24 i ≤ 8388607 := by
  unfold sat24 clampI
  omega

section
variable (s : State)

theorem State.rdI_wrI_same (k : Nat) {i : Int} (hlow : -8388608 ≤ i) (hhigh : i ≤ 8388607) :
    (s.wrI k 24 i).rdI k 24 = i := by
  unfold State.rdI
  rw [State.rdN, State.wrI_eq, State.rd_wr_same, BitVec.toNat_ofNat]
  exact toSigned_ofSigned_24 hlow hhigh

theorem State.rdN_bump_lt (k n : Nat) {w : Nat} (hw : w ≤ 64) : (s.bump k w n).rdN k = (s.rdN k + n) % 2 ^ w := by
  have hlt : (s.rdN k + n) % 2 ^ w < 2 ^ 64 :=
    Nat.lt_of_lt_of_le (Nat.mod_lt _ (Nat.two_pow_pos w)) (Nat.pow_le_pow_right (by decide) hw)
  rw [State.rdN, State.bump_eq, State.rd_wr_same, BitVec.toNat_ofNat, Nat.mod_eq_of_lt hlt]

theorem State.rdI_congr {t : State} {k w : Nat} (h : t.rd k = s.rd k) : t.rdI k w = s.rdI k w := by
  unfold State.rdI State.rdN
  rw [h]

/-- The estimates of an interleaved pair, as the end of a block shows them (R80). -/
def State.ilEstimated (s : State) (c : Nat) (b : IlBlock) (gain skew : Nat) : State :=
  let x := s.cndCh c
  let t := (s.setCnd c { x with ilDone := none }).wrI (Reg.CND_IL_EST_OFS c) 24 (sat24 (rneDiv (b.sumO - b.sumE) b.n))
  ((t.draw.2.wrN (Reg.CND_IL_EST_GAIN c) gain).wrN (Reg.CND_IL_EST_SKEW c) skew).bump (Reg.CND_IL_EST_BLOCKS c) 32

theorem State.ilEstimated_facts {c : Nat} (hc : c < 4) (b : IlBlock) (gain skew : Nat) :
    ((s.ilEstimated c b gain skew).cndCh c).ilDone = none ∧
      (s.ilEstimated c b gain skew).rdN (Reg.CND_IL_EST_BLOCKS c) =
        (s.rdN (Reg.CND_IL_EST_BLOCKS c) + 1) % 2 ^ 32 ∧
      (s.ilEstimated c b gain skew).rdI (Reg.CND_IL_EST_OFS c) 24 = sat24 (rneDiv (b.sumO - b.sumE) b.n) := by
  unfold State.ilEstimated
  extract_lets x t
  have hdone : (t.cndCh c).ilDone = none := congrArg CndChan.ilDone (s.cndCh_setCnd_same c { x with ilDone := none } hc)
  have hblocks : t.rd (Reg.CND_IL_EST_BLOCKS c) = s.rd (Reg.CND_IL_EST_BLOCKS c) :=
    (State.rd_wrI_ne _ _ _ (slot_ne_of_sub_ne _ (by decide))).trans (s.rd_setCnd c _ _)
  have hskew : Reg.CND_IL_EST_BLOCKS c ≠ Reg.CND_IL_EST_SKEW c := slot_ne_of_sub_ne _ (by decide)
  have hgain : Reg.CND_IL_EST_BLOCKS c ≠ Reg.CND_IL_EST_GAIN c := slot_ne_of_sub_ne _ (by decide)
  have hofs : ∀ k ∈ [Reg.CND_IL_EST_BLOCKS c, Reg.CND_IL_EST_SKEW c, Reg.CND_IL_EST_GAIN c], Reg.CND_IL_EST_OFS c ≠ k := by
    intro k hk
    simp only [List.mem_cons, List.not_mem_nil, or_false] at hk
    rcases hk with rfl | rfl | rfl <;> exact slot_ne_of_sub_ne _ (by decide)
  refine ⟨hdone, ?_, ?_⟩
  · rw [State.rdN_bump_lt _ _ _ (by decide), State.rdN, State.rd_wrN_ne _ _ hskew, State.rd_wrN_ne _ _ hgain]
    exact congrArg (fun v : BitVec 64 => (v.toNat + 1) % 2 ^ 32) hblocks
  · obtain ⟨hlow, hhigh⟩ := sat24_range (rneDiv (b.sumO - b.sumE) b.n)
    refine (State.rdI_congr _ ?_).trans (State.rdI_wrI_same (s.setCnd c { x with ilDone := none }) _ hlow hhigh)
    rw [State.rd_bump_ne _ _ _ (hofs _ (by simp)), State.rd_wrN_ne _ _ (hofs _ (by simp)),
      State.rd_wrN_ne _ _ (hofs _ (by simp))]
    rfl

theorem execIlEstimate_of_done {c : Fin 4} {b : IlBlock} (hb : (s.cndCh c).ilDone = some b) :
    ∃ gain skew, execIlEstimate c s = .next (s.ilEstimated c b gain skew) := by
  unfold execIlEstimate
  dsimp only
  rw [hb]
  exact ⟨_, _, rfl⟩

/-- A channel's front passes its time with no samples coming: the hand-over is made (R99). -/
theorem State.cndIdlePass_of_hit {c at' : Nat} (hon : s.bit (Reg.CND_STS c) 0 = true) (hfed : s.cndFed c = false)
    (htimed : (s.cndCh c).timed = some at') (hdue : atOrAfter s.frontNow at' = true) :
    s.cndIdlePass c = s.cndHandover c (s.stampAt s.frontNow true) := by
  have hhit : (s.cndCh c).idleHit s.frontNow = true := by
    unfold CndChan.idleHit
    rw [htimed, Option.any_some, hdue, Bool.or_true]
  have hgo : (s.bit (Reg.CND_STS c) 0 && !s.cndFed c && (s.cndCh c).idleHit s.frontNow) = true := by
    rw [hon, hfed, hhit]
    rfl
  unfold State.cndIdlePass
  rw [if_pos hgo]

end

/-- Settles O41. -/
theorem conditioningCompletes : Obligations.ConditioningCompletes := by
  unfold Obligations.ConditioningCompletes
  intro s c
  refine ⟨fun hrun hoff hon hready hready' => ?paired, fun hrun hoff hon hready => ?alone, fun hrun hoff hlost => ?lost,
    fun w rest hwords => ?output, fun hpar hdef => ?enable, rfl, rfl, rfl, fun at' hon hfed htimed hdue => ?commit, rfl,
    fun b hb => ?estimate⟩
  case paired =>
    show execLaneWord c s = _
    simp [execLaneWord, hrun, hoff, hon, hready, hready']
  case alone =>
    show execLaneWord c s = _
    simp [execLaneWord, hrun, hoff, hon, hready]
  case lost =>
    show execLaneWord c s = _
    simp [execLaneWord, hrun, hoff, hlost]
  case output =>
    intro x t hspx htrace htrace'
    show execConditioningOutput c s = _
    have hdef : ¬ (s.traceUndefined c.val 0 || s.traceUndefined c.val 1) = true := by simp [htrace, htrace']
    unfold execConditioningOutput
    rw [hwords]
    exact (if_neg (by rw [hspx]; decide)).trans (if_neg hdef)
  case enable =>
    show execCndEnable c s = _
    have hdef' : ¬ (!s.bit (Reg.CND_CTL c) 0 && !s.pairedOff c && s.chainUndefined c) = true := by
      rcases hdef with h | h | h <;> simp [h]
    exact (if_neg (by rw [hpar]; decide)).trans (if_neg hdef')
  case commit =>
    exact congrArg Host.Outcome.next (s.cndIdlePass_of_hit hon hfed htimed hdue)
  case estimate =>
    obtain ⟨gain, skew, hrun⟩ := execIlEstimate_of_done s hb
    obtain ⟨hdone, hblocks, hshown⟩ := s.ilEstimated_facts c.isLt b gain skew
    exact ⟨_, hrun, hdone, hblocks, hshown⟩

/-- Settles O42. -/
theorem spectralCompletes : Obligations.SpectralCompletes := by
  unfold Obligations.SpectralCompletes
  intro s r
  refine ⟨fun f rest hready hpower hcan htrace => ?emit, fun hpar => ?enable, rfl, fun hdrain hready => ?drained, rfl, rfl⟩
  case emit =>
    show execSpectrumEmit r s = _
    have hon : ¬ 1 ≤ s.power := by omega
    unfold execSpectrumEmit
    rw [hready]
    exact (if_neg hon).trans ((if_neg (by rw [hcan]; decide)).trans (if_neg (by rw [htrace]; decide)))
  case enable => exact if_neg (by rw [hpar]; decide)
  case drained =>
    show execSpxDrainEnd r s = _
    simp [execSpxDrainEnd, hdrain, hready]

end Sys2Proof.Machine
end

section
namespace Sys2Proof.Machine

/-! ### Trigger units and outputs (R142-R167) -/

section
variable {s : State}

theorem State.ridgeCommand_of_kind {p kind : Nat} {k : FabPkt} (hup : s.fpUp p = true) (hkind : k.ridgeKind = some kind)
    (sub : Nat) : s.ridgeCommand p kind sub k = s.ridgeArrive p (s.tickPlace sub) k := by
  have hgo : (s.fpUp p && k.ridgeKind == some kind) = true := by
    rw [hup, hkind]
    exact beq_self_eq_true _
  unfold State.ridgeCommand
  rw [if_pos hgo]

theorem State.trgCommit_of_good {c th : Nat} {timed : Bool} (h : s.shadowsBad c = none) :
    s.trgCommit c th timed = .next (s.trgRequest c th timed) := by
  unfold State.trgCommit
  rw [h]

theorem State.trgPass_of_due {c th : Nat} (hhand : (s.tch c).handAt = some th) (hdue : atOrAfter s.time th = true) :
    s.trgPass c = s.trgHandover c th := by
  unfold State.trgPass
  rw [hhand]
  exact if_pos hdue

end

/-- Settles O43. -/
theorem triggersComplete : Obligations.TriggersComplete := by
  unfold Obligations.TriggersComplete
  intro s
  refine ⟨fun c => rfl, fun n => ?pulseEnd, fun n hwide => ?force, fun c u => rfl, fun p k sub hup => ?ridge, rfl,
    fun c u hpar hoff hbad hpend => ?enable, fun c u => ?disable, fun c u on => rfl,
    fun c hgood => State.trgCommit_of_good hgood, fun c hgood => State.trgCommit_of_good hgood,
    fun c th hhand hdue => congrArg Host.Outcome.next (State.trgPass_of_due hhand hdue)⟩
  case pulseEnd =>
    exact ⟨_, rfl, s.pulse_setPulse_same _ _ n.isLt, State.setPulse_regs _ _ _, State.setPulse_mem _ _ _⟩
  case force =>
    show execTrigOutForce n s = _
    have hjudge : s.pulseJudge n = .next s := if_neg (by omega)
    unfold execTrigOutForce
    rw [hjudge]
  case ridge =>
    exact ⟨fun hkind => congrArg Host.Outcome.next (State.ridgeCommand_of_kind hup hkind sub),
      fun hkind => congrArg Host.Outcome.next (State.ridgeCommand_of_kind hup hkind sub),
      fun hkind => congrArg Host.Outcome.next (State.ridgeCommand_of_kind hup hkind sub),
      fun hkind => congrArg Host.Outcome.next (State.ridgeCommand_of_kind hup hkind sub)⟩
  case enable =>
    show execTrgUnitEnable c u s = _
    unfold execTrgUnitEnable
    rw [if_neg (by rw [hpar]; decide), if_neg (by rw [hoff]; decide), hbad, hpend]
  case disable =>
    exact ⟨_, rfl, State.bit_putBit_same _ _ _ _ (by decide), State.putBit_trig _ _ _ _⟩

/-! ### Canopy and spectrogram (R235-R248) -/

/-- Settles O45. -/
theorem canopyCompletes : Obligations.CanopyCompletes := by
  unfold Obligations.CanopyCompletes
  intro s c
  refine ⟨fun hpar hsrc hperiod => ?enable, ⟨_, rfl, ?clear, State.setCan_regs _ _ _, State.setCan_mem _ _ _⟩,
    fun on => rfl, rfl, fun who hdef => ?snap, fun p hp hbegun hserved hawake => ?snapDone,
    fun hsrc hon hoff hdue => ?timer, fun hawake => congrArg Host.Outcome.next (if_neg (by rw [hawake]; decide)),
    fun hpar hdef => ?spgEnable, fun l ts trunc rest hlines hserved => ?line, fun l ts trunc rest hlines => ?stalled⟩
  case enable =>
    have hdef : ¬ (s.decaySrc c = 2 ∧ (s.rdN (Reg.CAN_DECAY_PERIOD c) < 200 ∨ 1000000 < s.rdN (Reg.CAN_DECAY_PERIOD c))) := by
      rintro ⟨htimer, hbad⟩
      have hgood := hperiod htimer
      omega
    exact (if_neg (by rw [hpar]; decide)).trans ((if_neg hsrc).trans (if_neg hdef))
  case clear => exact congrArg CanopyChan.clear (s.can_setCan_same c { s.can c with clear := true } c.isLt)
  case snap => exact if_neg (by rcases hdef with h | h <;> simp [h])
  case snapDone =>
    intro u
    have hgo : (p.begun && s.serves p.addr && !s.idleOrLower) = true := by
      rw [hbegun, hserved, hawake]
      rfl
    show execCanSnapDone c s = _
    unfold execCanSnapDone
    rw [hp]
    exact if_pos hgo
  case timer => exact if_pos ⟨hsrc, hon, by rw [hoff]; rfl, hdue⟩
  case spgEnable =>
    have hdef' : ¬ (!s.bit (Reg.SPG_CTL c) 0 && !s.pairedOff c && s.spgUndefined c) = true := by
      rcases hdef with h | h | h <;> simp [h]
    exact (if_neg (by rw [hpar]; decide)).trans (if_neg hdef')
  case line =>
    show execSpgLineWrite c false s = _
    unfold execSpgLineWrite
    dsimp only
    rw [hlines]
    exact if_neg (by rw [hserved]; decide)
  case stalled =>
    show execSpgLineWrite c true s = _
    unfold execSpgLineWrite
    dsimp only
    rw [hlines]
    rfl

end Sys2Proof.Machine
end

section
namespace Sys2Proof.Machine

/-! ### Scan-out (R254-R271) -/

section
variable {s : State}

theorem State.scn_latchRaise (k b n p : Nat) : (s.latchRaise k b n p).scn = s.scn := by
  unfold State.latchRaise
  split
  · rfl
  · exact (State.raise_scn _ _ _).trans (State.putBit_scn _ _ _ _)

theorem State.scn_underrun (n : Nat) : (s.underrun n).scn = s.scn := by
  unfold State.underrun
  split
  · rfl
  · exact (State.scn_latchRaise _ _ _ _).trans (State.bumpSat_scn _ _ _ _)

/-- The link comes up when training has ended well and the sink has what the plane configuration asks for (R269). -/
theorem execEdpLinkTrained_of_capable {psr msa fast : Bool} (htrain : s.scn.training = true)
    (hcap : s.bit Reg.SCN_STS 0 = true ∨ ((s.bit Reg.SCN_CFG 7 = false ∨ msa = true) ∧
      (s.bit Reg.SCN_CFG 8 = false ∨ psr = true))) :
    ∃ u x, execEdpLinkTrained ⟨true, fast⟩ psr msa s = .next ((State.putBit u Reg.SCN_STS 0 true).setScn x) ∧
      x.link = true ∧ x.training = false := by
  have hlacks : ¬ (!s.bit Reg.SCN_STS 0 && ((s.bit Reg.SCN_CFG 7 && !msa) || (s.bit Reg.SCN_CFG 8 && !psr))) = true := by
    rcases hcap with h | ⟨h | h, h' | h'⟩ <;> simp [*]
  exact ⟨_, _, (if_pos htrain).trans ((if_neg hlacks).trans (if_neg Bool.false_ne_true)), rfl, rfl⟩

/-- A line in its turn leaves with the pixels that stand at its start (R256). -/
theorem execLineStart_of_turn {n : Fin 4096} {late : List (Nat × Nat)} (hclk : s.scnClocked = true)
    (hblank : s.scn.blank = false) (hline : n.val = s.scn.nextLine) (hactive : n.val < s.scnActive)
    (hsending : s.scn.sending = true) :
    ∃ u px, execLineStart n late s = .next (State.send u (.line (u.rdN Reg.SCN_FRAME) n.val px)) ∧
      px.length = (timing (u.rd Reg.SCN_H_TIMING)).1 ∧ u.scn.nextLine = n.val + 1 := by
  have hgo : (s.scnClocked && !s.scn.blank && n.val == s.scn.nextLine && decide (n.val < s.scnActive)) = true := by
    rw [hclk, hblank, decide_eq_true hactive, beq_iff_eq.mpr hline]
    rfl
  have hsends (m : Nat) : (s.underrun m).scn.sending = true := by rw [State.scn_underrun, hsending]
  exact ⟨_, _, (if_pos hgo).trans (congrArg Host.Outcome.next (if_pos (hsends _))),
    by rw [List.length_map, List.length_range], rfl⟩

end

/-- Settles O46. -/
theorem displayCompletes : Obligations.DisplayCompletes := by
  unfold Obligations.DisplayCompletes
  intro s
  refine ⟨fun hpar hdef => ?enable, rfl, fun psr msa fast htrain hcap => ?trained, ⟨_, rfl, ?commit, rfl⟩, rfl, rfl,
    fun mask => rfl, fun n late hclk hblank hline hactive hsending => ?line, fun hclk hblank hdone hdef => ?sample,
    fun hclk hext hdef => ?extended, fun late hclk hblank hext hstop hpsr hdef => ?frame,
    fun late hclk hblank hext hstop => ?stop, rfl, ?lost, ?back, fun hcfg hon htiming => ?lock,
    fun hcfg hon htiming => ?edge, fun hcfg htiming hsync hdue => ?vsyncLost⟩
  case enable =>
    refine (if_neg (by rw [hpar]; decide)).trans ?_
    rcases hdef with hon | ⟨hdef, hplanes⟩
    · exact if_pos hon
    · by_cases hon : s.bit Reg.SCN_STS 0 = true
      · exact if_pos hon
      · exact (if_neg hon).trans ((if_neg (by rw [hdef]; decide)).trans (if_neg (not_not_intro hplanes)))
  case trained =>
    obtain ⟨u, x, hrun, hlink, htraining⟩ := execEdpLinkTrained_of_capable (fast := fast) htrain hcap
    refine ⟨_, hrun, ?_, hlink, htraining⟩
    exact u.bit_putBit_same _ _ _ (by decide)
  case commit => exact s.bit_putBit_same _ _ _ (by decide)
  case line =>
    obtain ⟨u, px, hrun, hlen, hnext⟩ := execLineStart_of_turn (late := late) hclk hblank hline hactive hsending
    exact ⟨_, px, hrun, List.mem_append_right _ (List.mem_singleton_self _), hlen, hnext⟩
  case sample =>
    have hgo : (s.scnClocked && !s.scn.blank && decide (s.scnActive ≤ s.scn.nextLine)) = true := by
      rw [hclk, hblank, decide_eq_true hdone]
      rfl
    exact (if_pos hgo).trans (if_neg (not_not_intro hdef))
  case extended =>
    have hgo : (s.scnClocked && s.scn.extended) = true := by
      rw [hclk, hext]
      rfl
    exact ⟨_, (if_pos hgo).trans (if_neg (not_not_intro hdef)), rfl⟩
  case frame =>
    have hgo : (s.scnClocked && s.scn.blank && !s.scn.extended) = true := by
      rw [hclk, hblank, hext]
      rfl
    have hdef' : ¬ (s.scn.psrExit && s.planesUndefined != 0) = true := by
      rcases hdef with h | h <;> simp [h]
    exact (if_pos hgo).trans ((if_neg (by rw [hstop]; decide)).trans ((if_neg hpsr).trans (if_neg hdef')))
  case stop =>
    have hgo : (s.scnClocked && s.scn.blank && !s.scn.extended) = true := by
      rw [hclk, hblank, hext]
      rfl
    refine ⟨_, (if_pos hgo).trans (if_pos hstop), State.bit_putBit_same _ _ _ _ (by decide), ?_⟩
    rw [State.putBit_scn]
    rfl
  case lost =>
    refine ⟨_, rfl, ?_⟩
    dsimp only
    split
    case isTrue h => exact ⟨rfl, rfl, h⟩
    case isFalse => exact ⟨rfl, rfl, State.bit_putBit_same _ _ _ _ (by decide)⟩
  case back =>
    refine ⟨_, rfl, ?_⟩
    dsimp only
    split
    case isTrue h =>
      split
      · exact ⟨rfl, State.bit_putBit_same _ _ _ _ (by decide)⟩
      · exact ⟨rfl, State.bit_putBit_same _ _ _ _ (by decide)⟩
    case isFalse h => exact ⟨rfl, Bool.eq_false_iff.mpr h⟩
  case lock =>
    have hgo : (s.bit Reg.SCN_CFG 6 && s.bit Reg.SCN_STS 0) = true := by
      rw [hcfg, hon]
      rfl
    exact congrArg Host.Outcome.next ((if_pos hgo).trans (if_pos htiming))
  case edge =>
    have hgo : (s.bit Reg.SCN_CFG 6 && s.bit Reg.SCN_STS 0) = true := by
      rw [hcfg, hon]
      rfl
    exact congrArg Host.Outcome.next ((if_pos hgo).trans (if_neg (by rw [htiming]; decide)))
  case vsyncLost =>
    have hgo : (s.bit Reg.SCN_CFG 6 && s.scn.timing && !s.bit Reg.SCN_STS 5 && s.elapsed s.scn.edgeAt
        (3 * s.lineLen * s.frameLines * 10240000000 / max 1 (s.rdN Reg.SCN_PIXCLK))) = true := by
      rw [hcfg, htiming, hsync, hdue]
      rfl
    exact congrArg Host.Outcome.next (if_pos hgo)

end Sys2Proof.Machine
end

section
namespace Sys2Proof.Machine

/-! ### Time-interval units (R314-R339) -/

/-- Settles O47. -/
theorem timuCompletes : Obligations.TimuCompletes := by
  unfold Obligations.TimuCompletes
  intro s i e
  refine ⟨fun b up sub c c1 c2 hpower hcmp htim hundet hlevel => ?edge, fun p r hstops hstarts => ?pair,
    fun a r hstarts hstops hdue => ?window, fun g hgate hedge hdue => ?noedge, fun hawake hturn hring => ?write,
    fun hawake hbatch hdue => ?batch, fun hpar hoff => ?enable, fun v halign hlow hhigh => ?rel,
    fun hinl => if_neg (by rw [hinl]; decide), fun c c1 c2 hcal hinl => ?injected, fun v hgood => ?threshold,
    fun a b hsettles hdue hpower => ?settled, fun a b hsettled hstart hstage hpower => ?first⟩
  case edge =>
    intro t hsettled hinput
    show execTiEdge i b up sub c c1 c2 s = _
    have hpower' : ¬ 2 ≤ s.power := by omega
    have hchanges : ¬ s.bit (Reg.CMP_STS i) (2 * b.val) = up := by
      rw [hlevel]
      cases up <;> decide
    have hmeant : ¬ (t.bit (Reg.CMP_STS i) 8 || t.fld (Reg.TIM_S_CFG i (b2n (!up))) 0 0 != b.val) = true := by
      rw [hsettled, hinput]
      simp
    refine (if_neg hpower').trans ((if_neg (by rw [hcmp]; decide)).trans ((if_neg (by rw [htim]; decide)).trans ?_))
    exact congrArg Host.Outcome.next ((if_neg (by rw [hundet]; decide)).trans ((if_neg hchanges).trans (if_neg hmeant)))
  case pair =>
    show execIntervalPair i e s = _
    unfold execIntervalPair
    rw [hstops]
    exact congrArg Host.Outcome.next (if_pos hstarts)
  case window =>
    show execPairWindowExpiry i e s = _
    unfold execPairWindowExpiry
    dsimp only
    rw [hstarts]
    exact congrArg Host.Outcome.next (if_pos ⟨by rw [hstops]; rfl, hdue⟩)
  case noedge =>
    show execNoedge i e s = _
    unfold execNoedge
    dsimp only
    rw [hgate]
    exact congrArg Host.Outcome.next (if_pos ⟨by rw [hedge]; rfl, hdue⟩)
  case write =>
    have hgo : ¬ ((s.idleOrLower && !s.timDraining) = true ∨ s.timTurn ≠ some (2 * i.val + e.val)) := by
      rw [hturn]
      rcases hawake with h | h <;> simp [h]
    exact (if_neg hgo).trans (if_pos hring)
  case batch =>
    have hgo : ¬ (s.idleOrLower && !s.timDraining) = true := by rcases hawake with h | h <;> simp [h]
    exact congrArg Host.Outcome.next ((if_neg hgo).trans (if_pos ⟨by rw [hbatch]; rfl, hdue⟩))
  case enable =>
    have hrun : execTimEnable i true s = .next
        (((s.putBit (Reg.TIM_CTL i) 0 true).putBit (Reg.TIM_STS i) 0 true).setTim i
          { ((s.putBit (Reg.TIM_CTL i) 0 true).putBit (Reg.TIM_STS i) 0 true).tim i with rot := 0, edgeAt := none }) := by
      simp [execTimEnable, hpar, hoff]
    refine ⟨_, hrun, ?_, ?_⟩
    · have hne : Reg.TIM_CTL i ≠ Reg.TIM_STS i := slot_ne_of_sub_ne _ (by decide)
      rw [State.bit, State.rd_setTim, ← State.bit, State.bit_putBit_ne _ _ _ _ hne]
      exact s.bit_putBit_same _ _ _ (by decide)
    · rw [State.bit, State.rd_setTim, ← State.bit]
      exact State.bit_putBit_same _ _ _ _ (by decide)
  case rel =>
    have hgood : ¬ (v.toNat % 16 ≠ 0 ∨ v.toNat < s.rdN (Reg.TIM_S_REL i e) ∨ s.rdN (Reg.TIM_S_PUB i e) < v.toNat) := by
      omega
    exact if_neg hgood
  case injected => exact (if_neg (by rw [hcal]; decide)).trans (if_neg (by rw [hinl]; decide))
  case threshold =>
    refine ⟨_, if_neg (by rw [if_neg Bool.false_ne_true, hgood]; decide), ?_, ?_⟩
    · rw [State.bit, State.rd_setTim, ← State.bit]
      exact State.bit_putBit_same _ _ _ _ (by decide)
    · exact congrArg TimInput.settleAt (State.tim_setTim_same _ i _ i.isLt)
  case settled =>
    have hawake : ¬ 2 ≤ (s.putBit (Reg.CMP_STS i) 8 false).power := by
      have hsame : (s.putBit (Reg.CMP_STS i) 8 false).power = s.power := s.fld_putBit_ne _ _ _ _ (by
        unfold Reg.PWR_STS Reg.CMP_STS slot
        omega)
      omega
    exact congrArg Host.Outcome.next ((if_pos ⟨hsettles, hdue⟩).trans (if_neg hawake))
  case first =>
    have hnot : ¬ (s.bit (Reg.CMP_STS i) 8 = true ∧ s.elapsed (s.tim i).settleAt (nsec 50) = true) := by simp [hsettled]
    exact congrArg Host.Outcome.next ((if_neg hnot).trans (if_pos ⟨by rw [hstart]; rfl, hstage, hpower⟩))

end Sys2Proof.Machine
end

section
namespace Sys2Proof.Machine

/-! ### The cycle tracker and the waypoint scheduler's controls (R343-R350) -/

theorem supSts_ne_memCfg (u : Nat) : supSts u ≠ Reg.MEM_CFG := by
  unfold supSts
  split
  · exact slot_ne_memCfg_of_sub _ (by decide) (by decide)
  · exact slot_ne_memCfg_of_sub _ (by decide) (by decide)

/-- The slots of the supply units' status. -/
def isSupSts (k : Nat) : Prop := ∃ u, k = supSts u

theorem supSts_ge (u : Nat) : 0x530000 ≤ supSts u := by
  unfold supSts
  split
  · unfold Reg.SUP_G_STS slot
    omega
  · unfold Reg.SUP_IC_STS slot
    omega

theorem not_isSupSts {k : Nat} (h : k < 0x530000) : ¬ isSupSts k := by
  rintro ⟨u, rfl⟩
  exact absurd (supSts_ge u) (by omega)

section
variable {s t : State} {W : Nat → Prop}

theorem State.Frame.setSup (h : s.Frame t W) (u : Nat) (x : SupUnit) : s.Frame (t.setSup u x) W :=
  h.sameStores ⟨State.setSup_regs _ _ _, State.setSup_mem _ _ _, State.setSup_misread _ _ _,
    congrArg Ddr.pattern (State.setSup_ddr _ _ _),
    State.setSup_time _ _ _, State.setSup_out _ _ _⟩

theorem State.Frame.setSupState (h : s.Frame t isSupSts) (u x : Nat) : s.Frame (t.setSupState u x) isSupSts :=
  h.setFld ⟨u, rfl⟩ (supSts_ne_memCfg u) _ _ _

theorem State.Frame.supContinue (h : s.Frame t isSupSts) (u at' : Nat) : s.Frame (t.supContinue u at') isSupSts :=
  .ite (h.setSupState u 1) ((h.setSup _ _).setSupState u 2)

theorem State.Frame.supEnd (h : s.Frame t isSupSts) (u at' : Nat) : s.Frame (t.supEnd u at') isSupSts := by
  have hgo (x : SupUnit) : s.Frame (((t.setSup u x).putBit (supSts u) 2 false).setSupState u 2) isSupSts :=
    ((h.setSup u x).putBit ⟨u, rfl⟩ (supSts_ne_memCfg u) _ _).setSupState u 2
  obtain ⟨goAt, hgoAt⟩ : ∃ f, t.supGoAt u = f := ⟨_, rfl⟩
  unfold State.supEnd
  rw [hgoAt]
  dsimp only
  split
  · exact .ite ((hgo _).putBit ⟨u, rfl⟩ (supSts_ne_memCfg u) _ _) (hgo _)
  · exact (h.setSup _ _).setSupState u 1

theorem State.Frame.supAfter (h : s.Frame t isSupSts) (u : Nat) : s.Frame (t.supAfter u) isSupSts :=
  .ite (h.supContinue u _) (h.supEnd u _)

theorem State.Frame.supAbandon (h : s.Frame t isSupSts) (u cause : Nat) : s.Frame (t.supAbandon u cause) isSupSts :=
  ((h.putBit ⟨u, rfl⟩ (supSts_ne_memCfg u) _ _).setFld ⟨u, rfl⟩ (supSts_ne_memCfg u) _ _ _).raise _ _

/-- The loss of the tracker's lock abandons conversions of the supply units, and writes their status alone (R345). -/
theorem State.Frame.supNoLock (h : s.Frame t isSupSts) : s.Frame t.supNoLock isSupSts :=
  .foldl (f := fun s i => if s.supState (16 + i) = 3 ∧ s.fld (supCfg (16 + i)) 7 6 = 1 then
    (s.supAbandon (16 + i) 2).supAfter (16 + i) else s) (fun _ _ h => .ite ((h.supAbandon _ _).supAfter _) h) _ h

/-! The tracker's own state is no part of it. -/

theorem State.rdN_withCcs (c : Ccs) (k : Nat) : ({ s with ccs := c } : State).rdN k = s.rdN k := rfl

theorem State.ccsState_withCcs (c : Ccs) : ({ s with ccs := c } : State).ccsState = s.ccsState := rfl

theorem State.rd_ccsForget (k : Nat) : s.ccsForget.rd k = s.rd k := rfl

theorem State.ccsState_ccsForget : s.ccsForget.ccsState = s.ccsState := rfl

theorem State.ccs_setSupState (u x : Nat) : (s.setSupState u x).ccs = s.ccs := State.setFld_ccs _ _ _ _ _

theorem State.ccs_supContinue (u at' : Nat) : (s.supContinue u at').ccs = s.ccs := by
  unfold State.supContinue
  split
  · exact State.ccs_setSupState u 1
  · exact (State.ccs_setSupState u 2).trans (State.setSup_ccs _ _ _)

theorem State.ccs_supEnd (u at' : Nat) : (s.supEnd u at').ccs = s.ccs := by
  have hgo (x : SupUnit) : (((s.setSup u x).putBit (supSts u) 2 false).setSupState u 2).ccs = s.ccs := by
    rw [State.ccs_setSupState, State.putBit_ccs, State.setSup_ccs]
  obtain ⟨goAt, hgoAt⟩ : ∃ f, s.supGoAt u = f := ⟨_, rfl⟩
  unfold State.supEnd
  rw [hgoAt]
  dsimp only
  split
  · split
    · exact (State.putBit_ccs _ _ _ _).trans (hgo _)
    · exact hgo _
  · exact (State.ccs_setSupState u 1).trans (State.setSup_ccs _ _ _)

theorem State.ccs_supAfter (u : Nat) : (s.supAfter u).ccs = s.ccs := by
  unfold State.supAfter
  split
  · exact State.ccs_supContinue _ _
  · exact State.ccs_supEnd _ _

theorem State.ccs_supAbandon (u cause : Nat) : (s.supAbandon u cause).ccs = s.ccs := by
  unfold State.supAbandon
  rw [State.raise_ccs, State.setFld_ccs, State.putBit_ccs]

theorem State.ccs_supNoLock : s.supNoLock.ccs = s.ccs := by
  unfold State.supNoLock
  generalize List.range 4 = is
  induction is generalizing s with
  | nil => rfl
  | cons i is ih =>
    refine ih.trans ?_
    dsimp only
    split
    · exact State.ccs_supAfter _ |>.trans (State.ccs_supAbandon _ _)
    · rfl

theorem State.rd_supNoLock {k : Nat} (h : k < 0x530000) : s.supNoLock.rd k = s.rd k :=
  (State.Frame.supNoLock (.refl s _)).rd k (not_isSupSts h)

theorem State.ccsState_congr (h : t.rd Reg.CCS_STS = s.rd Reg.CCS_STS) : t.ccsState = s.ccsState := by
  unfold State.ccsState State.fld
  rw [h]

theorem State.ccsState_setCcsState {x : Nat} (h : x < 8) : (s.setCcsState x).ccsState = x := by
  have hfld := s.fld_setFld_same Reg.CCS_STS 2 0 x (by decide) (by decide)
  refine (State.fld_putBit_apart _ _ _ _ _ _ (by decide) (by decide)).trans (hfld.trans (Nat.mod_eq_of_lt h))

theorem State.rd_setCcsState_ne {k : Nat} (h : k ≠ Reg.CCS_STS) (x : Nat) : (s.setCcsState x).rd k = s.rd k :=
  (State.rd_putBit_ne _ _ _ h).trans (s.rd_setFld_ne _ _ _ h)

theorem State.pllLocked_withCcs (c : Ccs) (i : Nat) : ({ s with ccs := c } : State).pllLocked i = s.pllLocked i := rfl

theorem State.power_withCcs (c : Ccs) : ({ s with ccs := c } : State).power = s.power := rfl

theorem State.ccs_running (hpll : s.pllLocked 0 = true) (hpower : s.power ≤ 1) :
    ¬ ((!s.pllLocked 0) = true ∨ 2 ≤ s.power) := by
  rw [hpll]
  simp only [Bool.not_true, Bool.false_eq_true, false_or, Nat.not_le]
  exact Nat.lt_succ_of_le hpower

/-- With its clock locked and its power up the tracker takes an edge as its state says (R343). -/
theorem execCycEdge_running (hpll : s.pllLocked 0 = true) (hpower : s.power ≤ 1) (sub : Fin 4096) (vec0 : Bool) :
    let t := timeAdd (s.tickPlace sub.val) (-(s.rdI Reg.CCS_CYC_DLY 24))
    let u : State := { s with ccs := { s.ccs with cameAt := s.clk.up } }
    (s.ccsState = 1 → execCycEdge sub vec0 s = .next (u.seekEdge (t * 65536))) ∧
    (s.ccsState = 2 → execCycEdge sub vec0 s = .next (u.originEdge t (t * 65536) vec0)) ∧
    (s.ccsState = 3 → execCycEdge sub vec0 s = .next (u.trackEdge t (t * 65536) vec0)) ∧
    (s.ccsState = 4 → execCycEdge sub vec0 s = .next (u.holdEdge t (t * 65536) vec0)) := by
  unfold execCycEdge
  extract_lets t c u t16
  have hgo : ¬ ((!u.pllLocked 0) = true ∨ 2 ≤ u.power) := by
    rw [State.pllLocked_withCcs, State.power_withCcs]
    exact State.ccs_running hpll hpower
  have hstate : u.ccsState = s.ccsState := State.ccsState_withCcs _
  rw [if_neg hgo, hstate]
  refine ⟨fun h => ?_, fun h => ?_, fun h => ?_, fun h => ?_⟩ <;> simp only [h] <;> rfl

/-- With its clock locked and its power up the tracker takes a missing edge as its state says (R343). -/
theorem execCycMissing_running (hpll : s.pllLocked 0 = true) (hpower : s.power ≤ 1)
    (hspan : s.cycSpan ≤ (s.clk.up - s.ccs.cameAt) * 65536) :
    (s.ccsState = 1 → execCycMissing s = .next
      (({ s with ccs := { s.ccs with seen := false, two := false, good := 0 } } : State).setFld Reg.CCS_STS 5 3 1)) ∧
    (s.ccsState = 3 → execCycMissing s = .next (s.ccsFault 1)) ∧
    (s.ccsState = 4 → execCycMissing s = .next s.holdAdvance) := by
  unfold execCycMissing
  rw [if_neg (State.ccs_running hpll hpower), if_pos hspan]
  refine ⟨fun h => ?_, fun h => ?_, fun h => ?_⟩ <;> simp only [h]

/-- A new tail shows how many waypoints wait (R350). -/
theorem State.rdN_shownPending (k n m : Nat) (h : k ≠ Reg.CCS_WP_STS) :
    (s.setFld Reg.CCS_WP_STS n 1 m).rdN k = s.rdN k :=
  congrArg BitVec.toNat (s.rd_setFld_ne _ _ _ h)

/-- What waits is counted as cancelled, and the head moves to the tail (R350). -/
theorem execWpCancel_eq (s : State) :
    ∃ t, execWpCancel s = .next t ∧
      t.rdN Reg.CCS_WP_CANCELLED = satAdd 32 (s.rdN Reg.CCS_WP_CANCELLED) s.wpPending ∧
      t.rdN Reg.CCS_WP_HEAD = s.rdN Reg.CCS_WP_TAIL % 2 ^ 32 ∧ t.rdN Reg.CCS_WP_TAIL = s.rdN Reg.CCS_WP_TAIL := by
  have hcounted {k : Nat} (h : k ≠ Reg.CCS_WP_CANCELLED) :
      (s.bumpSat Reg.CCS_WP_CANCELLED 32 s.wpPending).rdN k = s.rdN k := congrArg BitVec.toNat (s.rd_bumpSat_ne _ _ h)
  have hmoved (u : State) (n : Nat) {k : Nat} (hk : k ≠ Reg.CCS_WP_STS) (hk' : k ≠ Reg.CCS_WP_HEAD) :
      (u.setWpHead n).rdN k = u.rdN k :=
    (State.rdN_shownPending _ _ _ hk).trans (congrArg BitVec.toNat (u.rd_wrN_ne _ hk'))
  have hhead (u : State) (n : Nat) : (u.setWpHead n).rdN Reg.CCS_WP_HEAD = n % 2 ^ 32 := by
    refine (State.rdN_shownPending _ _ _ (by decide)).trans ((u.rdN_wrN_same _ _).trans ?_)
    omega
  refine ⟨_, rfl, ?_, ?_, ?_⟩
  · rw [hmoved _ _ (by decide) (by decide), State.rdN_withCcs, State.rdN_bumpSat_same]
  · rw [hhead, State.rdN_withCcs, hcounted (by decide)]
  · rw [hmoved _ _ (by decide) (by decide), State.rdN_withCcs, hcounted (by decide)]

end

/-- Settles O48. -/
theorem trackerCompletes : Obligations.TrackerCompletes := by
  unfold Obligations.TrackerCompletes
  intro s
  refine ⟨fun hpar hst hcfg => ?enable, fun hlock => ?disable, fun hlock => ?reorigin, fun sub vec0 hpll hpower => ?cycle,
    fun hpll hpower hspan => ?missing, fun hst hdue => congrArg Host.Outcome.next (if_pos ⟨hst, hdue⟩), ?wpOff,
    fun hpar => ?wpOn, fun v hlow hhigh => ?tail, ?cancel⟩
  case enable =>
    exact (if_neg (by rw [hpar]; decide)).trans ((if_pos ⟨rfl, hst⟩).trans (if_neg hcfg))
  case disable =>
    have hrun : execCcsEnable false s = .next
        ((((s.parityFree Reg.CCS_CTL).putBit Reg.CCS_CTL 0 false).setCcsState 0).ccsForget) := by
      have hlock' : (s.parityFree Reg.CCS_CTL).ccLocked = false := hlock
      simp [execCcsEnable, hlock']
    refine ⟨_, hrun, ?_, State.ccsState_ccsForget.trans (State.ccsState_setCcsState (by decide))⟩
    rw [State.bit, State.rd_ccsForget, State.rd_setCcsState_ne (by decide), ← State.bit]
    exact State.bit_putBit_same _ _ _ _ (by decide)
  case reorigin =>
    refine ⟨_, congrArg Host.Outcome.next (if_pos hlock), ?_, congrArg Ccs.cycles State.ccs_supNoLock⟩
    rw [State.ccsState_congr (State.rd_supNoLock (by decide)), State.ccsState_withCcs]
    exact State.ccsState_setCcsState (by decide)
  case cycle => exact execCycEdge_running hpll hpower sub vec0
  case missing =>
    obtain ⟨hseek, htrack, hhold⟩ := execCycMissing_running hpll hpower hspan
    refine ⟨fun h => ⟨_, hseek h, ?_, State.fld_setFld_same _ _ _ _ _ (by decide) (by decide)⟩, htrack, hhold⟩
    refine (State.fld_setFld_apart _ _ _ _ _ _ _ (by decide) (by decide) (by decide)).trans ?_
    exact (State.ccsState_withCcs _).trans h
  case wpOff =>
    refine ⟨_, rfl, ?_, State.bit_putBit_same _ _ _ _ (by decide)⟩
    exact (State.bit_putBit_ne _ _ _ _ (by decide)).trans (State.bit_putBit_same _ _ _ _ (by decide))
  case wpOn =>
    refine ⟨_, if_neg (by rw [hpar]; decide), ?_, State.bit_putBit_same _ _ _ _ (by decide)⟩
    exact (State.bit_putBit_ne _ _ _ _ (by decide)).trans (State.bit_putBit_same _ _ _ _ (by decide))
  case tail =>
    have hgood : ¬ ((v.toNat + 2 ^ 32 - s.wpHead) % 2 ^ 32 < s.wpPending ∨
        4096 < (v.toNat + 2 ^ 32 - s.wpHead) % 2 ^ 32) := by omega
    refine ⟨_, if_neg hgood, (State.rdN_shownPending _ _ _ (by decide)).trans ((State.rdN_wrN_same _ _ _).trans ?_)⟩
    exact Nat.mod_eq_of_lt (by have := v.isLt; omega)
  case cancel =>
    obtain ⟨u, hu, hcancelled, hhead, htail⟩ := execWpCancel_eq s
    refine ⟨_, hu, hcancelled, ?_⟩
    unfold State.wpPending State.wpHead
    rw [hhead, htail]
    omega

end Sys2Proof.Machine
end

section
namespace Sys2Proof.Machine

/-! ### Supply converters and monitors (R359-R372) -/

section
variable {s : State}

/-- A sequence that goes off is counted and stamped, and its group converts (R362). -/
theorem execSupGo_group (u : Fin 20) (hu : u.val < 16) (hruns : s.supRuns = true) (hst : s.supState u.val = 2)
    (hgo : atOrAfter s.time (s.supu u.val).go = true) :
    ∃ t, execSupGo u s = .next t ∧ t.supState u.val = 3 ∧
      t.rdN (Reg.SUP_G_STARTED u) = (s.rdN (Reg.SUP_G_STARTED u) + 1) % 2 ^ 32 ∧
      t.rd (Reg.SUP_G_TRIG_TS u) = (s.supu u.val).trig.word := by
  have hsts : supSts u.val = Reg.SUP_G_STS u.val := if_pos hu
  have hstarted : Reg.SUP_G_STARTED u ≠ supSts u.val := by
    rw [hsts]
    exact slot_ne_of_sub_ne _ (by decide)
  have hstamped : Reg.SUP_G_TRIG_TS u ≠ supSts u.val := by
    rw [hsts]
    exact slot_ne_of_sub_ne _ (by decide)
  have happart : Reg.SUP_G_STARTED u ≠ Reg.SUP_G_TRIG_TS u := slot_ne_of_sub_ne _ (by decide)
  refine ⟨_, congrArg Host.Outcome.next ((if_pos ⟨hruns, hst, hgo⟩).trans (if_pos hu)), ?_, ?_, ?_⟩
  · exact State.fld_setFld_same _ _ _ _ _ (by decide) (by decide)
  · refine (congrArg BitVec.toNat ?_).trans (State.rdN_bump_lt _ _ _ (by decide))
    rw [State.setSupState, State.rd_setFld_ne _ _ _ _ hstarted, State.rd_setSup, State.rd_wr_ne _ _ happart]
  · rw [State.setSupState, State.rd_setFld_ne _ _ _ _ hstamped, State.rd_setSup, State.rd_wr_same]

/-- An edge of the line gives the windows that wait for it their bounds, and writes no slot and no memory (R366). -/
theorem execLineSyncEdge_frame : ∃ t, execLineSyncEdge s = .next t ∧ t.regs = s.regs ∧ t.mem = s.mem := by
  refine ⟨_, rfl, ?_⟩
  generalize List.range 4 = is
  induction is generalizing s with
  | nil => exact ⟨rfl, rfl⟩
  | cons i is ih =>
    obtain ⟨hregs, hmem⟩ := ih (s := _)
    rw [List.foldl_cons]
    refine ⟨hregs.trans ?_, hmem.trans ?_⟩ <;> dsimp only <;> split
    · split
      · exact State.setSup_regs _ _ _
      · exact State.setSup_regs _ _ _
    · rfl
    · split
      · exact State.setSup_mem _ _ _
      · exact State.setSup_mem _ _ _
    · rfl

/-- A tick of the monitors that is due is counted (R370). -/
theorem execMonTick_due {b : Nat} (hbase : s.mon.base = some b) (htick : 2 ≤ s.monTick)
    (hdue : atOrAfter s.time (s.monTime b s.mon.ticks) = true) (hmore : s.mon.ticks < s.mon.periods * s.monPeriod)
    (hruns : s.supRuns = true) :
    ∃ t, execMonTick s = .next t ∧ t.mon.ticks = s.mon.ticks + 1 ∧ t.regs = s.regs ∧ t.mem = s.mem := by
  have hdefined : ¬ (s.mon.base.isSome = true ∧ s.monTick < 2) := by omega
  unfold execMonTick
  rw [if_neg hdefined, hbase]
  dsimp only
  rw [if_pos ⟨hdue, hmore, hruns⟩]
  exact ⟨_, rfl, rfl, rfl, rfl⟩

end

/-- Settles O49. -/
theorem supplyCompletes : Obligations.SupplyCompletes := by
  unfold Obligations.SupplyCompletes
  intro s
  refine ⟨fun u hpar hst hdef => ?enable, fun u => rfl,
    fun u hruns hst hsrc hdue => congrArg Host.Outcome.next (if_pos ⟨hruns, hst, hsrc, hdue⟩),
    fun u hruns hst hgo hu => congrArg Host.Outcome.next ((if_pos ⟨hruns, hst, hgo⟩).trans (if_neg (Nat.not_lt.2 hu))),
    fun u hruns hst hgo hu => execSupGo_group u hu hruns hst hgo, fun g volts codes hdue hcodes => ?step,
    fun g st r hsteps hst hends => ?conversion, execLineSyncEdge_frame,
    fun x si nv t0 t1 hstart hending hst hdue hinput => ?window,
    fun x hst hline hending hpast => congrArg Host.Outcome.next (if_pos ⟨hst, hline, by rw [hending]; rfl, hpast⟩),
    fun b hbase htick hdue hmore hruns => execMonTick_due hbase htick hdue hmore hruns,
    fun w si settle watch hwatch hon hpast hinput => congrArg Host.Outcome.next (if_pos ⟨hwatch, hon, hpast, hinput⟩),
    fun b hbase hdue hruns => ?period, fun w v => rfl⟩
  case enable =>
    exact (if_neg (by rw [hpar]; decide)).trans ((if_pos ⟨rfl, hst⟩).trans (if_neg (fun h => h hdef)))
  case step =>
    show execSarStep g volts s = _
    unfold execSarStep
    rw [hcodes]
    exact congrArg Host.Outcome.next (if_pos hdue)
  case conversion =>
    show execSarConversionEnd g s = _
    unfold execSarConversionEnd
    dsimp only
    rw [hsteps]
    exact congrArg Host.Outcome.next (if_pos ⟨hst, hends⟩)
  case window =>
    show execIcWindowEnd x ⟨si, nv⟩ s = _
    unfold execIcWindowEnd
    dsimp only
    rw [hstart, hending]
    exact congrArg Host.Outcome.next (if_pos ⟨hst, hdue, hinput⟩)
  case period =>
    show execMonPeriodStart s = _
    unfold execMonPeriodStart
    rw [hbase]
    exact congrArg Host.Outcome.next (if_pos ⟨hdue, hruns⟩)

end Sys2Proof.Machine
end

section
namespace Sys2Proof.Machine

/-! ### The clock loops (R489-R502)

A clock that falls stops and holds much of the device; of what these steps write, the reference's own status (bit 0 of
CLK_STS) is no part.
-/

/-- The reference's status stands. -/
def State.RefStands (s t : State) : Prop := t.bit Reg.CLK_STS 0 = s.bit Reg.CLK_STS 0

section
variable {s t u : State}

namespace State.RefStands

theorem refl (s : State) : s.RefStands s := rfl

theorem trans (h : s.RefStands t) (h' : t.RefStands u) : s.RefStands u := Eq.trans h' h

theorem keeps (h : s.RefStands t) (hregs : u.regs = t.regs := by rfl) : s.RefStands u :=
  (congrArg (bitAt · 0) (State.rd_congr hregs _)).trans h

theorem wr (h : s.RefStands t) {k : Nat} (hk : Reg.CLK_STS ≠ k) (v : BitVec 64) : s.RefStands (t.wr k v) :=
  (State.bit_wr_ne _ _ _ hk).trans h

theorem setFld (h : s.RefStands t) {k : Nat} (hk : Reg.CLK_STS ≠ k) (hi lo x : Nat) : s.RefStands (t.setFld k hi lo x) :=
  h.wr hk _

theorem putBit (h : s.RefStands t) {k : Nat} (hk : Reg.CLK_STS ≠ k) (b : Nat) (x : Bool) :
    s.RefStands (t.putBit k b x) := h.wr hk _

theorem wrN (h : s.RefStands t) {k : Nat} (hk : Reg.CLK_STS ≠ k) (n : Nat) : s.RefStands (t.wrN k n) := h.wr hk _

theorem wrI (h : s.RefStands t) {k : Nat} (hk : Reg.CLK_STS ≠ k) (w : Nat) (n : Int) : s.RefStands (t.wrI k w n) :=
  h.wr hk _

theorem bump (h : s.RefStands t) {k : Nat} (hk : Reg.CLK_STS ≠ k) (w n : Nat) : s.RefStands (t.bump k w n) := h.wr hk _

theorem bumpSat (h : s.RefStands t) {k : Nat} (hk : Reg.CLK_STS ≠ k) (w n : Nat) : s.RefStands (t.bumpSat k w n) :=
  h.wr hk _

/-- The other bits of the same slot may change. -/
theorem putClkSts (h : s.RefStands t) {b : Nat} (hb : b ≠ 0) (hlt : b < 64) (x : Bool) :
    s.RefStands (t.putBit Reg.CLK_STS b x) := (State.bit_putBit_apart _ _ _ _ _ hlt hb.symm).trans h

theorem raise (h : s.RefStands t) (n p : Nat) : s.RefStands (t.raise n p) := h

theorem latchRaise (h : s.RefStands t) {k : Nat} (hk : Reg.CLK_STS ≠ k) (b n p : Nat) :
    s.RefStands (t.latchRaise k b n p) := by
  unfold State.latchRaise
  split
  · exact h
  · exact h.putBit hk b true

theorem ite {c : Prop} [Decidable c] (ht : s.RefStands t) (hu : s.RefStands u) :
    s.RefStands (if c then t else u) := by
  split
  · exact ht
  · exact hu

theorem foldl {α : Type} {f : State → α → State} :
    ∀ (l : List α) {t : State}, (∀ t a, a ∈ l → s.RefStands t → s.RefStands (f t a)) → s.RefStands t →
      s.RefStands (l.foldl f t)
  | [], _, _, h => h
  | a :: l, t, hf, h =>
    foldl l (fun t b hb => hf t b (List.mem_cons_of_mem a hb)) (hf t a List.mem_cons_self h)

/-! Loops. -/

theorem lockShow (h : s.RefStands t) : s.RefStands t.lockShow := by
  refine .ite h ?_
  refine Eq.trans ?_ h
  exact (congrArg (bitAt · 0) (State.rd_send _ _ _)).trans
    (State.bit_setFld_apart _ _ _ _ _ _ (by decide) (by decide) (by decide))

theorem clkSts_ne_pllSts {k : Nat} (hk : k < 6) : Reg.CLK_STS ≠ Reg.CLK_PLL_STS k := by
  unfold Reg.CLK_STS Reg.CLK_PLL_STS slot
  omega

theorem pllSet (h : s.RefStands t) {k : Nat} (hk : k < 6) (st : Nat) : s.RefStands (t.pllSet k st) :=
  have hset := h.setFld (clkSts_ne_pllSts hk) 2 0 st
  lockShow (hset.keeps)

theorem clkSource (h : s.RefStands t) : s.RefStands t.clkSource :=
  .foldl _ (fun _ _ hk h => .ite (h.putBit (clkSts_ne_pllSts (List.mem_range.1 hk)) _ _) h) h

theorem supRate (h : s.RefStands t) (was : Nat × Nat) : s.RefStands (t.supRate was) := .ite h h.keeps

theorem postClock (h : s.RefStands t) (k : Nat) : s.RefStands (t.postClock k) :=
  .ite (.foldl _ (fun _ _ _ h => .ite (h.putBit (by unfold Reg.CLK_STS Reg.SEQ_FAULT slot; omega) _ _) h) h) h

theorem pllBypass (h : s.RefStands t) {k : Nat} (hk : k < 6) : s.RefStands (t.pllBypass k) :=
  ((((h.wr (by unfold Reg.CLK_STS Reg.CLK_PLL_UNLOCK_TS slot; omega) _).pllSet hk 1).putBit
    (clkSts_ne_pllSts hk) _ _).postClock k).raise _ _

/-! Spectra. -/

theorem setRes (h : s.RefStands t) (r : Nat) (x : SpxRes) : s.RefStands (t.setRes r x) :=
  h.keeps (State.setRes_regs _ _ _)

theorem spxFall (h : s.RefStands t) : s.RefStands t.spxFall := .foldl _ (fun _ _ _ h => h.setRes _ _) h

theorem spxDegrade (h : s.RefStands t) : s.RefStands t.spxDegrade := .foldl _ (fun _ _ _ h => h.setRes _ _) h

/-! Time-interval units. -/

theorem setTim (h : s.RefStands t) (i : Nat) (x : TimInput) : s.RefStands (t.setTim i x) :=
  h.keeps (State.setTim_regs _ _ _)

theorem clkSts_ne_timSts (i : Nat) : Reg.CLK_STS ≠ Reg.TIM_STS i := by
  unfold Reg.CLK_STS Reg.TIM_STS slot
  omega

theorem clkSts_ne_timIndex {k : Nat} (hk : 0x510000 ≤ k) : Reg.CLK_STS ≠ k := by
  unfold Reg.CLK_STS slot
  omega

theorem setTstream (h : s.RefStands t) (i e : Nat) (y : TimStream) : s.RefStands (t.setTstream i e y) :=
  (h.setTim i _).wrN (clkSts_ne_timIndex (by unfold Reg.TIM_S_LEVEL slot; omega)) _

theorem timLossSeen (h : s.RefStands t) (i : Nat) (ns : List TimNote) : s.RefStands (t.timLossSeen i ns) :=
  .ite (h.latchRaise (clkSts_ne_timSts i) _ _ _) h

theorem timPut (h : s.RefStands t) (i e : Nat) (ns : List TimNote) (w0 w1 : BitVec 64) :
    s.RefStands (t.timPut i e ns w0 w1) :=
  .ite ((h.setTstream i e _).bump (clkSts_ne_timIndex (by unfold Reg.TIM_S_LOST slot; omega)) _ _)
    ((((h.setTstream i e _).bump (clkSts_ne_timIndex (by unfold Reg.TIM_S_COUNT slot; omega)) _ _).wr
      (clkSts_ne_timIndex (by unfold Reg.TIM_S_LAST slot; omega)) _).timLossSeen i _)

theorem timFlush (h : s.RefStands t) (i e : Nat) : s.RefStands (t.timFlush i e) :=
  .ite h ((h.setTstream i e _).timLossSeen i _)

theorem timUnpaired (h : s.RefStands t) (i e n : Nat) : s.RefStands (t.timUnpaired i e n) :=
  .ite h ((h.setTstream i e _).bumpSat (clkSts_ne_timIndex (by unfold Reg.TIM_S_UNPAIRED slot; omega)) _ _)

theorem timPair (h : s.RefStands t) (i e : Nat) : s.RefStands (t.timPair i e) := by
  have horphan : Reg.CLK_STS ≠ Reg.TIM_S_ORPHAN i e :=
    clkSts_ne_timIndex (by unfold Reg.TIM_S_ORPHAN slot; omega)
  unfold State.timPair
  dsimp only
  split
  · exact h
  · refine timFlush ?_ i e
    split
    · exact (((h.setTstream i e _).timUnpaired i e _).setTstream i e _).timPut i e _ _ _
    · exact (((((h.setTstream i e _).timUnpaired i e _).setTstream i e _).bumpSat horphan _ _).latchRaise
        (clkSts_ne_timSts i) _ _ _).timPut i e _ _ _

theorem timPairAll (i e : Nat) : ∀ (fuel : Nat) {t : State}, s.RefStands t → s.RefStands (State.timPairAll i e fuel t)
  | 0, _, h => h
  | fuel + 1, _, h => timPairAll i e fuel (h.timPair i e)

theorem inlAbandon (h : s.RefStands t) (i : Nat) : s.RefStands (t.inlAbandon i) :=
  (h.putBit (clkSts_ne_timSts i) _ _).setTim i _

theorem timStop (h : s.RefStands t) : s.RefStands t.timStop := by
  unfold State.timStop
  refine .foldl _ (fun t i _ h => ?_) h
  extract_lets s₁
  have h₁ : s.RefStands s₁ := .ite (h.inlAbandon i) h
  exact .foldl _ (fun _ e _ h => ((timPairAll i e _ h).setTstream i e _).timUnpaired i e _) h₁

theorem clockHold (h : s.RefStands t) : s.RefStands t.clockHold :=
  .foldl _ (fun _ i _ h => h.putBit (clkSts_ne_timSts i) _ _) (keeps h)

theorem timBypass (h : s.RefStands t) : s.RefStands t.timBypass := h.timStop.clockHold

/-! The tracker, and fabric time. -/

theorem supNoLock (h : s.RefStands t) : s.RefStands t.supNoLock :=
  (congrArg (bitAt · 0) (State.rd_supNoLock (by decide))).trans h

theorem ccsSeek (h : s.RefStands t) (cause : Nat) : s.RefStands (t.ccsSeek cause) := by
  unfold State.ccsSeek
  extract_lets _ s₁
  have h₁ : s.RefStands s₁ := 
    (((h.setFld (k := Reg.CCS_STS) (by decide) _ _ _).putBit (k := Reg.CCS_STS) (by decide) _ _).setFld
      (k := Reg.CCS_STS) (by decide) _ _ _).keeps
  exact .ite (((h₁.putBit (by decide) _ _).raise _ _).supNoLock) h₁

theorem ccsClock (h : s.RefStands t) : s.RefStands t.ccsClock := .ite h (h.ccsSeek 4)

theorem setTimeState (h : s.RefStands t) (x : Nat) : s.RefStands (t.setTimeState x) :=
  .ite h (((h.keeps).setFld (by decide) _ _ _).putBit (by decide) _ _)

theorem timeFollow (h : s.RefStands t) (lost : Bool) : s.RefStands (t.timeFollow lost) := by
  unfold State.timeFollow
  extract_lets _ s₁
  have h₁ : s.RefStands s₁ := .ite (h.setTimeState _) h
  refine .ite (h.setTimeState _) (.ite (h.setTimeState _) ?_)
  split
  · exact .ite (h₁.setTimeState _) h₁
  · exact .ite h₁ (h₁.setTimeState _)
  · exact h₁
  · exact .ite (h₁.setTimeState _) h₁
  · exact .ite h₁ (h₁.setTimeState _)

theorem memRest (h : s.RefStands t) : s.RefStands t.memRest :=
  .ite ((h.keeps).setFld (by decide) _ _ _) (.ite ((h.keeps).setFld (by decide) _ _ _) h)

/-! A loop that falls. -/

theorem bypassBegins (h : s.RefStands t) (k : Nat) : s.RefStands (t.bypassBegins k) := by
  unfold State.bypassBegins
  extract_lets s₁
  have h₁ : s.RefStands s₁ := .ite (h.timBypass.ccsClock.timeFollow _) h
  exact .ite h₁.memRest h₁

/-- A loop falls with those that follow it, and the reference's status stands (R495). -/
theorem clkFall (h : s.RefStands t) {k : Nat} (hk : k < 6) (count : Bool) : s.RefStands (t.clkFall k count) := by
  have hmem (p : Nat → Bool) {j : Nat} (hj : j ∈ (if k = 0 then [0, 1, 2, 3] else [k]).filter p) : j < 6 := by
    have hj' := (List.mem_filter.1 hj).1
    split at hj' <;> simp at hj' <;> omega
  have hunlocks {j : Nat} : Reg.CLK_STS ≠ Reg.CLK_PLL_UNLOCKS j := by
    unfold Reg.CLK_STS Reg.CLK_PLL_UNLOCKS slot
    omega
  unfold State.clkFall
  extract_lets _ _ s₁ s₂ s₃
  have h₁ : s.RefStands s₁ := .ite h.spxFall h
  have h₂ : s.RefStands s₂ := .ite h₁.spxDegrade h₁
  have h₃ : s.RefStands s₃ := .foldl _ (fun _ _ hj h => .ite
    (((h.pllBypass (hmem _ hj)).bumpSat hunlocks _ _).putClkSts (by decide) (by decide) _) (h.pllBypass (hmem _ hj))) h₂
  exact supRate (.foldl _ (fun _ j _ h => h.bypassBegins j) h₃) _

end State.RefStands

/-- What follows the reference's loss leaves its status (R497). -/
theorem execRefLost_lost (h : s.bit Reg.CLK_STS 0 = true) :
    ∃ t, execRefLost s = .next t ∧ t.bit Reg.CLK_STS 0 = false := by
  refine ⟨_, congrArg Host.Outcome.next (if_pos h), ?_⟩
  have hlost : (s.putBit Reg.CLK_STS 0 false).bit Reg.CLK_STS 0 = false := State.bit_putBit_same _ _ _ _ (by decide)
  refine Eq.trans ?_ hlost
  have hbase := ((State.RefStands.refl (s.putBit Reg.CLK_STS 0 false)).putClkSts (b := 3) (by decide) (by decide)
    true).bumpSat (k := Reg.CLK_REF_LOSTS) (by decide) 32 1
  refine (State.RefStands.foldl [0, 4, 5] (fun t k hk h => ?_) ((hbase.wrI (by decide) _ _).raise _ _)).clkSource.supRate _
  have hlt : k < 6 := by
    simp at hk
    omega
  exact .ite (h.pllSet hlt _) (.ite (h.pllSet hlt _) h)

/-- What follows the reference's return leaves its status (R498). -/
theorem execRefBack_back (far : BitVec 6) (h : s.bit Reg.CLK_STS 0 = false) :
    ∃ t, execRefBack far s = .next t ∧ t.bit Reg.CLK_STS 0 = true := by
  refine ⟨_, congrArg Host.Outcome.next (if_neg (by rw [h]; decide)), ?_⟩
  have hback : (s.putBit Reg.CLK_STS 0 true).bit Reg.CLK_STS 0 = true := State.bit_putBit_same _ _ _ _ (by decide)
  refine Eq.trans ?_ hback
  have hbase := (((State.RefStands.refl (s.putBit Reg.CLK_STS 0 true)).raise 77 0).clkSource).supRate s.sysPeriod
  refine State.RefStands.foldl [0, 4, 5] (fun t k hk h => ?_) hbase
  have hlt : k < 6 := by
    simp at hk
    omega
  exact .ite (.ite (h.clkFall hlt _) (h.pllSet hlt _)) h

theorem State.pllState_lockShow (k : Nat) (hk : k < 6) : s.lockShow.pllState k = s.pllState k := by
  have hrd (n : Nat) : (s.setFld Reg.CLK_STS 2 1 n).rd (Reg.CLK_PLL_STS k) = s.rd (Reg.CLK_PLL_STS k) :=
    s.rd_setFld_ne _ _ _ (State.RefStands.clkSts_ne_pllSts hk).symm
  unfold State.lockShow
  dsimp only
  split
  · rfl
  · exact congrArg (getF · 2 0) ((State.rd_send _ _ _).trans (hrd _))

theorem State.rd_withClk (c : Clk) (k : Nat) : ({ s with clk := c } : State).rd k = s.rd k := rfl

theorem State.pllState_pllSet {k st : Nat} (hk : k < 6) (hst : st < 8) : (s.pllSet k st).pllState k = st := by
  unfold State.pllSet
  extract_lets met s₁
  refine (State.pllState_lockShow k hk).trans ?_
  exact (State.fld_setFld_same _ _ _ _ _ (by decide) (by decide)).trans (Nat.mod_eq_of_lt hst)

theorem State.rd_lockShow_ne {k : Nat} (hk : k ≠ Reg.CLK_STS) : s.lockShow.rd k = s.rd k := by
  unfold State.lockShow
  dsimp only
  split
  · rfl
  · exact (State.rd_send _ _ _).trans (s.rd_setFld_ne _ _ _ hk)

theorem State.rd_pllSet_ne {k j : Nat} (st : Nat) (hk : k ≠ Reg.CLK_STS) (hj : k ≠ Reg.CLK_PLL_STS j) :
    (s.pllSet j st).rd k = s.rd k := by
  unfold State.pllSet
  extract_lets met s₁
  exact (State.rd_lockShow_ne hk).trans ((State.rd_withClk _ _).trans (s.rd_setFld_ne _ _ _ hj))

theorem State.rd_foldl_eq {α : Type} {f : State → α → State} {k : Nat} (hf : ∀ t a, (f t a).rd k = t.rd k) :
    ∀ (l : List α) (s : State), (l.foldl f s).rd k = s.rd k
  | [], _ => rfl
  | a :: l, s => (rd_foldl_eq hf l (f s a)).trans (hf s a)

/-- Steering writes the loops' frequencies and the first loop's state. -/
theorem State.rd_clkSteer_offset : s.clkSteer.rd Reg.CLK_OFFSET = s.rd Reg.CLK_OFFSET := by
  have hfreqs (x : Int) (u : State) : ((List.range 4).foldl (fun s k => if s.pllState k = 0 then s
      else s.wrN (Reg.CLK_PLL_FREQ k) (steeredHz (nominalHz k) x)) u).rd Reg.CLK_OFFSET = u.rd Reg.CLK_OFFSET := by
    refine State.rd_foldl_eq (fun t k => ?_) _ u
    split
    · rfl
    · exact t.rd_wrN_ne _ (by unfold Reg.CLK_OFFSET Reg.CLK_PLL_FREQ slot; omega)
  unfold State.clkSteer
  extract_lets x u
  split
  · exact (State.rd_pllSet_ne _ (by decide) (by decide)).trans (hfreqs x s)
  · exact hfreqs x s

end

/-- Settles O29. -/
theorem clocksComplete : Obligations.ClocksComplete := by
  unfold Obligations.ClocksComplete
  intro s
  refine ⟨execRefLost_lost, fun far h => execRefBack_back far h, fun k word hst hk href => ?lock,
    fun k hst => congrArg Host.Outcome.next (if_pos hst), fun k hst => ?slew, fun who v stands hfab => ?offset, fun k => rfl⟩
  case lock =>
    have hserved : ¬ (1 ≤ k.val ∧ k.val ≤ 3) := by omega
    exact congrArg Host.Outcome.next (if_pos ⟨hst, (if_neg hserved).trans href⟩)
  case slew =>
    exact ⟨_, congrArg Host.Outcome.next (if_pos hst), State.pllState_pllSet k.isLt (by decide)⟩
  case offset =>
    refine ⟨_, congrArg Host.Outcome.next (if_neg (by rw [hfab]; decide)), State.rd_clkSteer_offset.trans ?_⟩
    refine (State.rd_wrN_same _ _ _).trans ?_
    apply BitVec.eq_of_toNat_eq
    simp

end Sys2Proof.Machine
end

section
namespace Sys2Proof.Machine

/-! ### A step on an empty queue

The statement of O2 fails on a state that holds a calibration run of an ID that no block bears: when the run is
abandoned its status is written (State.setCalState), and the slot that this ID names is MEM_CFG, on which the range of
GDDR7's test pattern rests. A byte of the pattern then leaves that range and reads what is stored there.
-/

section
variable {s t u : State}

/-- Two states that agree on what decides how the steps of a quiet cycle go. -/
structure State.SameQuiet (s t : State) : Prop where
  regs : t.regs = s.regs
  misread : t.misread = s.misread
  hlt : t.hlt = s.hlt
  pwr : t.pwr = s.pwr
  probing : t.ddr.probing = s.ddr.probing

theorem State.SameQuiet.trans (h : s.SameQuiet t) (h' : t.SameQuiet u) : s.SameQuiet u where
  regs := h'.regs.trans h.regs
  misread := h'.misread.trans h.misread
  hlt := h'.hlt.trans h.hlt
  pwr := h'.pwr.trans h.pwr
  probing := h'.probing.trans h.probing

theorem State.SameQuiet.of_eq (h : t = s) : s.SameQuiet t := by
  subst h
  exact ⟨rfl, rfl, rfl, rfl, rfl⟩

theorem State.SameQuiet.rd (h : s.SameQuiet t) (k : Nat) : t.rd k = s.rd k := State.rd_congr h.regs k

theorem State.SameQuiet.fld (h : s.SameQuiet t) (k hi lo : Nat) : t.fld k hi lo = s.fld k hi lo :=
  congrArg (getF · hi lo) (h.rd k)

/-- No loop that counts bypass time, no conditioning clock, no rail, no training and no probe waits for a cycle. -/
structure State.Quiet (s : State) : Prop where
  locked : s.pllLocked 0 = true
  bypass : ∀ k, k < 6 → s.pllState k ≠ 1
  front : s.pllState 2 = 0
  good : s.pwr.pgWait = 0
  training : s.memState = 0
  probes : s.ddr.probing = []
  resting : s.power = 3
  drives : ∀ x, x < 4 → s.dState x < 2

theorem State.SameQuiet.quiet (h : s.SameQuiet t) (hs : s.Quiet) : t.Quiet where
  locked := by
    have hlocked := hs.locked
    unfold State.pllLocked State.pllState at hlocked ⊢
    rwa [h.fld]
  bypass k hk := (h.fld _ _ _).trans_ne (hs.bypass k hk)
  front := (h.fld _ _ _).trans hs.front
  good := congrArg Pwr.pgWait h.pwr ▸ hs.good
  training := (h.fld _ _ _).trans hs.training
  probes := h.probing.trans hs.probes
  resting := (h.fld _ _ _).trans hs.resting
  drives x hx := (h.fld _ _ _).trans_lt (hs.drives x hx)

theorem foldl_eq_self {α β : Type} {f : β → α → β} {b : β} : ∀ l : List α, (∀ a ∈ l, f b a = b) → l.foldl f b = b
  | [], _ => rfl
  | a :: l, h => by
    rw [List.foldl_cons, h a List.mem_cons_self]
    exact foldl_eq_self l fun c hc => h c (List.mem_cons_of_mem a hc)

theorem State.sameQuiet_deliverRaised (h : s.mgt.raised = []) : s.SameQuiet s.deliverRaised := by
  unfold State.deliverRaised
  rw [h]
  exact ⟨rfl, rfl, rfl, rfl, rfl⟩

theorem State.sameQuiet_pass (h : s.Quiet) (d : Nat) : s.SameQuiet (s.pass d) := by
  have hloops : (List.range 6).foldl (fun s k =>
      if h : k < 6 then
        if s.pllState k = 1 then
          let n := s.clk.bypassRem[k] + d
          let c := { s.clk with bypassRem := s.clk.bypassRem.set k (n % 10240) }
          ({ s with clk := c } : State).bump (Reg.CLK_PLL_BYPASS_NS k) 64 (n / 10240)
        else s
      else s) s = s :=
    foldl_eq_self _ fun k hk => (dif_pos (List.mem_range.1 hk)).trans (if_neg (h.bypass k (List.mem_range.1 hk)))
  unfold State.pass
  rw [hloops]
  extract_lets was c x u
  have hu : s.SameQuiet u := ⟨rfl, rfl, rfl, rfl, rfl⟩
  split
  · exact hu
  · exact hu.trans ⟨rfl, rfl, rfl, rfl, rfl⟩

theorem State.sameQuiet_tickClock (h : s.Quiet) : s.SameQuiet s.tickClock := by
  unfold State.tickClock
  rw [if_pos h.locked]
  exact State.sameQuiet_pass h 4096

theorem State.idleHandovers_quiet (h : s.Quiet) : s.idleHandovers = s := if_pos h.front

theorem State.pgSample_quiet (h : s.Quiet) : s.pgSample = s := by
  unfold State.pgSample
  refine if_neg fun hgo => hgo.1 ?_
  rw [h.good, Nat.zero_and]

theorem State.memPoll_quiet (h : s.Quiet) : s.memPoll = s :=
  if_neg fun hgo => absurd (h.training.symm.trans hgo.1) (by decide)

theorem State.sameQuiet_probesEnd (h : s.Quiet) : s.SameQuiet s.probesEnd := by
  unfold State.probesEnd
  rw [h.probes]
  exact ⟨rfl, rfl, rfl, rfl, h.probes.symm⟩

theorem State.sameQuiet_noteSram : s.SameQuiet s.noteSram := by
  unfold State.noteSram
  split
  · exact .of_eq rfl
  · exact ⟨rfl, rfl, rfl, rfl, rfl⟩

theorem State.railsDue_quiet (h : s.Quiet) : s.railsDue = s :=
  if_pos (.inl (by rw [h.resting]; decide))

theorem State.drvPoll_quiet (h : s.Quiet) : s.drvPoll = s :=
  foldl_eq_self _ fun x hx => if_neg (Nat.not_le.2 (h.drives x (List.mem_range.1 hx)))

/-- Before its calibration sweep a quiet cycle changes nothing that decides how its steps go. -/
theorem State.sameQuiet_sweeps (hraised : s.mgt.raised = []) (h : s.Quiet) :
    ∃ t, s.SameQuiet t ∧ s.tick = t.calSweep.tickCores (s.dspCount t.calSweep.clk.up - s.dspCount s.clk.up) := by
  have h₁ := State.sameQuiet_deliverRaised hraised
  have h₂ := h₁.trans (State.sameQuiet_tickClock (h₁.quiet h))
  have h₃ := h₂.trans (State.sameQuiet_probesEnd (h₂.quiet h))
  have h₄ := h₃.trans State.sameQuiet_noteSram
  refine ⟨_, h₄, ?_⟩
  unfold State.tick
  dsimp only
  rw [State.idleHandovers_quiet (h₂.quiet h), State.pgSample_quiet (h₂.quiet h), State.memPoll_quiet (h₂.quiet h),
    State.railsDue_quiet (h₄.quiet h), State.drvPoll_quiet (h₄.quiet h)]

/-! A run of an ID that no block bears. -/

/-- The ID whose status would be slot MEM_CFG. -/
def strayId : Nat := 0x6000 - 0x1610

theorem calIdSts_strayId : Reg.CAL_ID_STS strayId = Reg.MEM_CFG := rfl

theorem State.Frame.supFreed (h : s.Frame t isSupSts) (u : Nat) : s.Frame (t.supFreed u) isSupSts :=
  .ite (.ite (h.supContinue u _) (.ite (h.supEnd u _) h)) h

/-- What abandoning a run writes beside its status. -/
def besideStatus (k : Nat) : Prop := k = Reg.CAL_STS ∨ isSupSts k

theorem State.frame_calFreed_strayId : s.Frame (s.calFreed strayId) isSupSts := by
  unfold State.calFreed
  rw [if_neg (by decide), if_neg (by decide)]
  exact (State.Frame.refl s _).supFreed _

/-- The abandoned run's status is written into MEM_CFG. -/
theorem State.frame_calAbandon_strayId (s : State) :
    ∃ u : State, u.regs = s.regs ∧ u.misread = s.misread ∧
      (u.setFld Reg.MEM_CFG 1 0 (b2n (u.calDue strayId))).Frame (s.calAbandon strayId) besideStatus ∧
      u.hlt.due = s.hlt.due := by
  refine ⟨{ s with hlt := { s.hlt with runs := s.hlt.runs.filter fun r => r.id != strayId } }, rfl, rfl, ?_, rfl⟩
  have hshown : ∀ t : State, t.Frame t.calShow besideStatus := fun t =>
    (State.Frame.refl t _).wrN (.inl rfl) (by decide) _
  have hfreed : ∀ t : State, t.Frame (t.calFreed strayId) besideStatus := fun t =>
    State.frame_calFreed_strayId.mono fun _ => .inr
  have htrans {a b c : State} (h : a.Frame b besideStatus) (h' : b.Frame c besideStatus) : a.Frame c besideStatus :=
    ⟨fun k hk => (h'.rd k hk).trans (h.rd k hk), fun a => (h'.byte a).trans (h.byte a), h'.time.trans h.time,
      h'.out.trans h.out⟩
  rw [← calIdSts_strayId]
  exact htrans (hshown _) (hfreed _)

end

/-! The state that refutes O2. -/

/-- The last byte below 48 GiB. -/
def strayByte : Nat := 51539607551

/-- Power state 3, the first loop locked, and 48 GiB of memory. -/
def strayRegs : List (Nat × BitVec 64) := [(Reg.PWR_STS, 3), (Reg.CLK_PLL_STS 0, 2), (Reg.MEM_CFG, 1)]

/-- A state at rest with a calibration run of an ID that no block bears, and with `x` stored at `strayByte`. -/
def strayState (x : BitVec 8) : State :=
  { State.reset with
    regs := strayRegs
    misread := [(strayByte, x)]
    clk := { State.reset.clk with everLocked := true }
    hlt := { State.reset.hlt with runs := [{ (default : CalRun) with id := strayId }] } }

theorem fld_strayState (x : BitVec 8) (k hi lo : Nat) :
    (strayState x).fld k hi lo = getF (Sparse.get regDefault strayRegs k) hi lo := rfl

theorem strayRegs_loops : ∀ k, k < 6 →
    getF (Sparse.get regDefault strayRegs (Reg.CLK_PLL_STS k)) 2 0 = if k = 0 then 2 else 0 := by decide

theorem strayRegs_drives : ∀ x, x < 4 → getF (Sparse.get regDefault strayRegs (Reg.DRV_SET_STS x)) 2 0 = 0 := by decide

theorem strayRegs_power : getF (Sparse.get regDefault strayRegs Reg.PWR_STS) 2 0 = 3 := by decide

theorem strayRegs_training : getF (Sparse.get regDefault strayRegs Reg.MEM_STS) 2 0 = 0 := by decide

theorem strayRegs_memCfg : Sparse.get regDefault strayRegs Reg.MEM_CFG = 1 := by decide

theorem strayState_quiet (x : BitVec 8) : (strayState x).Quiet where
  locked := by
    unfold State.pllLocked State.pllState
    rw [fld_strayState, strayRegs_loops 0 (by decide)]
    decide
  bypass k hk := by
    refine ((fld_strayState _ _ _ _).trans (strayRegs_loops k hk)).trans_ne ?_
    split
    · decide
    · decide
  front := (fld_strayState _ _ _ _).trans (strayRegs_loops 2 (by decide))
  good := rfl
  training := (fld_strayState _ _ _ _).trans strayRegs_training
  probes := rfl
  resting := (fld_strayState _ _ _ _).trans strayRegs_power
  drives x' hx := ((fld_strayState _ _ _ _).trans (strayRegs_drives x' hx)).trans_lt (by decide)

/-- Before the cycle the byte belongs to the test pattern. -/
theorem rdByte_strayState (x : BitVec 8) :
    (strayState x).rdByte strayByte = Config.patternByte State.reset.ddr.pattern strayByte := by
  have hin : (strayState x).inPattern strayByte 1 = true := by
    unfold State.inPattern State.memEnd State.memCapacity
    rw [fld_strayState, strayRegs_memCfg]
    decide
  unfold State.rdByte
  rw [if_neg (by decide), if_pos hin]
  rfl

/-- Where 32 GiB of memory are set up the byte reads what is stored there. -/
theorem rdByte_of_memCfg {t : State} {x : BitVec 8} (hcfg : t.fld Reg.MEM_CFG 1 0 = 0)
    (hmisread : t.misread = [(strayByte, x)]) : t.rdByte strayByte = x := by
  have hin : t.inPattern strayByte 1 = false := by
    unfold State.inPattern State.memEnd State.memCapacity
    rw [hcfg]
    decide
  unfold State.rdByte
  rw [if_neg (by decide), hin, hmisread]
  rfl

theorem rdByte_tick_strayState (x : BitVec 8) : (strayState x).tick.rdByte strayByte = x := by
  have hquiet := strayState_quiet x
  obtain ⟨t, hsame, htick⟩ := State.sameQuiet_sweeps (s := strayState x) rfl hquiet
  have hpower : t.power = 3 := (hsame.quiet hquiet).resting
  have hstopped (r : CalRun) (h : r.id = strayId) : t.calStopped r = true := by
    unfold State.calStopped
    rw [h, hpower]
    rfl
  have hsweep : t.calSweep = t.calAbandon strayId := by
    unfold State.calSweep
    rw [hsame.hlt]
    show ([_].filter _).foldl _ t = _
    rw [List.filter_cons_of_pos (hstopped _ rfl)]
    rfl
  obtain ⟨u, hregs, hmisread, hframe, hdue⟩ := State.frame_calAbandon_strayId t
  have hnotDue : b2n (u.calDue strayId) = 0 := by
    unfold State.calDue
    rw [hdue, hsame.hlt]
    rfl
  have hresting : (t.calAbandon strayId).power = 3 := by
    refine (congrArg (getF · 2 0) ((hframe.rd _ ?_).trans (u.rd_setFld_ne _ _ _ (by decide)))).trans
      ((congrArg (getF · 2 0) (State.rd_congr hregs _)).trans hpower)
    rintro (h | h)
    · exact absurd h (by decide)
    · exact not_isSupSts (by decide) h
  have hcores : (strayState x).tick = t.calAbandon strayId := by
    rw [htick, hsweep]
    exact if_pos (.inr (by rw [hresting]; decide))
  rw [hcores, hframe.byte]
  refine rdByte_of_memCfg ?_ ((State.setFld_misread _ _ _ _ _).trans (hmisread.trans hsame.misread))
  rw [hnotDue]
  exact State.fld_setFld_same _ _ _ _ _ (by decide) (by decide)

/-- Refutes O2: with a calibration run of ID 0x49F0, which no block bears, an empty step writes MEM_CFG, and the last
byte below 48 GiB leaves the test pattern and reads what is stored there. -/
theorem not_idleStepTicks : ¬ Obligations.IdleStepTicks := by
  unfold Obligations.IdleStepTicks
  intro h
  obtain ⟨t, ht, -, -, -, hbytes⟩ :=
    h (strayState (Config.patternByte State.reset.ddr.pattern strayByte + 1)) rfl (strayState_quiet _).locked rfl
  have hstep : step (strayState (Config.patternByte State.reset.ddr.pattern strayByte + 1)) =
      .next (strayState (Config.patternByte State.reset.ddr.pattern strayByte + 1)).tick := rfl
  obtain rfl : _ = t := Host.Outcome.next.inj (hstep.symm.trans ht)
  have hbyte := hbytes rfl (strayState_quiet _).drives strayByte
  rw [rdByte_tick_strayState, rdByte_strayState] at hbyte
  exact absurd hbyte (by generalize Config.patternByte State.reset.ddr.pattern strayByte = b; revert b; decide)

end Sys2Proof.Machine
end

section
namespace Sys2Proof.Machine

/-! ### GDDR7 and SRAM (R383-R400) -/

section
variable {s t : State}

/-! Starting loop 4 leaves the memory controller's slots. -/

theorem pllSlot_lt {k : Nat} (hk : k < 6) (sub : Nat) (hsub : sub < 256) : slot (0x2010 + k) sub < 0x600000 := by
  unfold slot
  omega

theorem State.rd_pllSet_mem {k j : Nat} (hk : k < 6) (st : Nat) (hj : 0x600000 ≤ j) : (s.pllSet k st).rd j = s.rd j :=
  State.rd_pllSet_ne st (by unfold Reg.CLK_STS slot; omega) (Nat.ne_of_gt (Nat.lt_of_lt_of_le (pllSlot_lt hk 1 (by decide)) hj))

theorem State.postClock_of_lt {k : Nat} (h : 2 < k) : s.postClock k = s := if_neg (Nat.not_le.2 h)

theorem State.rd_pllBypass_mem {j : Nat} (hj : 0x600000 ≤ j) : (s.pllBypass 4).rd j = s.rd j := by
  have hts : j ≠ Reg.CLK_PLL_UNLOCK_TS 4 := by
    rintro rfl
    exact absurd hj (by decide)
  have hsts : j ≠ Reg.CLK_PLL_STS 4 := by
    rintro rfl
    exact absurd hj (by decide)
  unfold State.pllBypass
  dsimp only
  rw [State.rd_raise, State.postClock_of_lt (by decide), State.rd_putBit_ne _ _ _ hsts, State.rd_pllSet_mem (by decide) _ hj,
    State.rd_wr_ne _ _ hts]

theorem State.rd_pllTarget_mem (hz : Nat) {j : Nat} (hj : 0x600000 ≤ j) : (s.pllTarget 4 hz).rd j = s.rd j := by
  have hfreq (n : Nat) : (s.wrN (Reg.CLK_PLL_FREQ 4) n).rd j = s.rd j := s.rd_wrN_ne _ (by
    rintro rfl
    exact absurd hj (by decide))
  unfold State.pllTarget
  dsimp only
  split
  · split
    · split
      · exact hfreq hz
      · exact (State.rd_pllSet_mem (by decide) _ hj).trans (hfreq hz)
    · exact (State.rd_pllBypass_mem hj).trans (hfreq hz)
  · exact hfreq hz

theorem State.rd_pllStart_mem {j : Nat} (hj : 0x600000 ≤ j) : (s.pllStart 4).rd j = s.rd j := by
  have hsts : j ≠ Reg.CLK_PLL_STS 4 := by
    rintro rfl
    exact absurd hj (by decide)
  unfold State.pllStart
  dsimp only
  split
  · rw [if_neg (by decide), State.postClock_of_lt (by decide), State.rd_putBit_ne _ _ _ hsts, State.rd_pllSet_mem (by decide) _ hj]
  · rfl

theorem State.memState_congr (h : t.rd Reg.MEM_STS = s.rd Reg.MEM_STS) : t.memState = s.memState :=
  congrArg (getF · 2 0) h

theorem State.memState_setMemState {x : Nat} (h : x < 8) : (s.setMemState x).memState = x :=
  (State.fld_setFld_same _ _ _ _ _ (by decide) (by decide)).trans (Nat.mod_eq_of_lt h)

theorem State.rd_setMemState_ne {k : Nat} (x : Nat) (h : k ≠ Reg.MEM_STS) : (s.setMemState x).rd k = s.rd k :=
  s.rd_setFld_ne _ _ _ h

theorem State.rd_withDdr (x : Ddr) (k : Nat) : ({ s with ddr := x } : State).rd k = s.rd k := rfl

/-- The loop's lock ends the controller's first state alone (R388). -/
theorem State.memLocked_training (h : s.memState = 1) :
    ∃ x, (x = 2 ∨ x = 3) ∧ s.memLocked = s.setMemState x := by
  refine ⟨if s.ddr.kind = 3 then 3 else 2, ?_, if_pos h⟩
  split
  · exact .inr rfl
  · exact .inl rfl

theorem State.memEnd_lt : s.memEnd < 2 ^ 64 := by
  have hfld : s.fld Reg.MEM_CFG 1 0 < 2 ^ 2 := getF_lt _ _ _
  unfold State.memEnd State.memCapacity
  omega

theorem State.memEnd_putBit {k : Nat} (h : Reg.MEM_CFG ≠ k) (b : Nat) (x : Bool) : (s.putBit k b x).memEnd = s.memEnd := by
  unfold State.memEnd State.memCapacity
  rw [State.fld_putBit_ne _ _ _ _ _ h]

/-- What the controller's slots show once its training begins (R388). -/
def State.MemBegins (s t : State) : Prop :=
  t.bit Reg.MEM_CTL 0 = true ∧ t.memState = 1 ∧ t.rdN Reg.MEM_SIZE = s.memEnd

theorem State.memBegins_memTrain (kind : Nat) :
    s.MemBegins (((s.putBit Reg.MEM_CTL 0 true).memTrain kind 1).wrN Reg.MEM_SIZE (s.putBit Reg.MEM_CTL 0 true).memEnd) := by
  refine ⟨?_, ?_, ?_⟩
  · refine (congrArg (bitAt · 0) ((State.rd_wrN_ne _ _ (by decide)).trans
      ((State.rd_setMemState_ne _ (by decide)).trans (State.rd_withDdr _ _)))).trans ?_
    exact State.bit_putBit_same _ _ _ _ (by decide)
  · exact (State.memState_congr (State.rd_wrN_ne _ _ (by decide))).trans (State.memState_setMemState (by decide))
  · exact (State.rdN_wrN_same _ _ _).trans ((Nat.mod_eq_of_lt State.memEnd_lt).trans
      (State.memEnd_putBit (by decide) _ _))

theorem State.MemBegins.congr {u : State} (h : s.MemBegins t) (hrd : ∀ j, 0x600000 ≤ j → u.rd j = t.rd j) :
    s.MemBegins u := by
  obtain ⟨hctl, hstate, hsize⟩ := h
  exact ⟨(congrArg (bitAt · 0) (hrd _ (by decide))).trans hctl, (State.memState_congr (hrd _ (by decide))).trans hstate,
    (congrArg BitVec.toNat (hrd _ (by decide))).trans hsize⟩

/-- An idle controller that is enabled begins its training, and shows the size of the memory (R388). -/
theorem execMemEnable_idle (hpar : s.parityStopped Reg.MEM_CTL = false) (hcfg : s.fld Reg.MEM_CFG 1 0 ≠ 3)
    (hrate : rateOk (s.fld Reg.MEM_CFG 6 2) = true) (hidle : (s.putBit Reg.MEM_CTL 0 true).memState = 0) :
    ∃ t, execMemEnable s = .next t ∧ t.bit Reg.MEM_CTL 0 = true ∧ 1 ≤ t.memState ∧ t.memState ≤ 3 ∧
      t.rdN Reg.MEM_SIZE = s.memEnd := by
  have hdefined : ¬ (s.fld Reg.MEM_CFG 1 0 = 3 ∨ (!rateOk (s.fld Reg.MEM_CFG 6 2)) = true) := by
    rw [hrate]
    simpa using hcfg
  obtain ⟨u, hrun, hbegins⟩ : ∃ u : State, execMemEnable s = .next (if u.pllLocked 4 then u.memLocked else u) ∧
      s.MemBegins u := by
    unfold execMemEnable
    rw [if_neg (by rw [hpar]; decide), if_neg hdefined]
    dsimp only
    simp only [hidle]
    refine ⟨_, rfl, (State.memBegins_memTrain
      (if (s.putBit Reg.MEM_CTL 0 true).ddr.kept = true then 3 else 0)).congr fun j hj => ?_⟩
    exact (State.rd_pllStart_mem hj).trans ((State.rd_pllTarget_mem _ hj).trans (State.rd_withDdr _ _))
  obtain ⟨hctl, hstate, hsize⟩ := hbegins
  rw [hrun]
  by_cases hlocked : u.pllLocked 4 = true
  · obtain ⟨x, hx, hlock⟩ := State.memLocked_training hstate
    have hnew : (u.setMemState x).memState = x := State.memState_setMemState (by omega)
    rw [if_pos hlocked, hlock]
    refine ⟨_, rfl, ?_, by omega, by omega, ?_⟩
    · exact (congrArg (bitAt · 0) (State.rd_setMemState_ne x (by decide))).trans hctl
    · exact (congrArg BitVec.toNat (State.rd_setMemState_ne x (by decide))).trans hsize
  · rw [if_neg hlocked]
    exact ⟨_, rfl, hctl, by omega, by omega, hsize⟩

/-! A background probe's device shows its temperature (R394). -/

theorem State.rd_journal_ne {k : Nat} (kind target old new : Nat) (h : k ≠ Reg.HLT_JRN_HEAD) :
    (s.journal kind target old new).rd k = s.rd k := by
  unfold State.journal
  extract_lets n r x u
  exact u.rd_bump_ne _ _ h

theorem State.rd_atLimit_ne {k : Nat} (kind target : Nat) (reached : Bool) (h : k ≠ Reg.HLT_JRN_HEAD)
    (h' : k ≠ Reg.HLT_LIMIT_STS) : (s.atLimit kind target reached).rd k = s.rd k := by
  unfold State.atLimit
  split
  · rfl
  · exact (State.rd_raise _ _ _ _).trans ((State.rd_journal_ne _ _ _ _ h).trans (s.rd_putBit_ne _ _ h'))

theorem State.rd_withHlt (x : Hlt) (k : Nat) : ({ s with hlt := x } : State).rd k = s.rd k := rfl

/-- A memory's ageing changes the interval of the probes, and no slot of a device. -/
theorem State.rd_dramAdjust_ne {k : Nat} (h : k ≠ Reg.HLT_JRN_HEAD) (h' : k ≠ Reg.HLT_LIMIT_STS)
    (h'' : k ≠ Reg.MEM_BGT_CFG) : s.dramAdjust.rd k = s.rd k := by
  unfold State.dramAdjust
  dsimp only
  split
  · rfl
  · split
    · split
      · refine (State.rd_atLimit_ne _ _ _ h h').trans ?_
        split
        · rfl
        · exact (State.rd_journal_ne _ _ _ _ h).trans ((State.rd_setFld_ne _ _ _ _ h'').trans (State.rd_withHlt _ _))
      · split
        · rfl
        · exact (State.rd_journal_ne _ _ _ _ h).trans ((State.rd_setFld_ne _ _ _ _ h'').trans (State.rd_withHlt _ _))
    · rfl

theorem execBgtProbe_first {d : Fin 16} {temp : Int} {found : ProbeFind} {x b : Nat}
    (hst : (s.probesEnd.memArrive found.segs).memState = 4)
    (hon : (s.probesEnd.memArrive found.segs).bit Reg.MEM_CTL 2 = true)
    (hfirst : ((s.probesEnd.memArrive found.segs).ddr.probes.find? fun p => p.1 == d.val) = none)
    (hbank : ((s.probesEnd.memArrive found.segs).ddr.refreshed.find? fun r => r.1 == d.val) = some (x, b))
    (hfree : (s.probesEnd.memArrive found.segs).probed d.val = false)
    (hpicks : (s.probesEnd.memArrive found.segs).picks d.val
      ((s.probesEnd.memArrive found.segs).probeSeg d.val b) = true) :
    ∃ t, execBgtProbe d temp found s = .next t ∧ t.fld (Reg.MEM_DEV_STS d) 9 2 = ofSigned 8 (floorDiv temp 10) := by
  have hsts : Reg.MEM_DEV_STS d ≠ Reg.HLT_JRN_HEAD ∧ Reg.MEM_DEV_STS d ≠ Reg.HLT_LIMIT_STS ∧
      Reg.MEM_DEV_STS d ≠ Reg.MEM_BGT_CFG := by
    unfold Reg.MEM_DEV_STS Reg.HLT_JRN_HEAD Reg.HLT_LIMIT_STS Reg.MEM_BGT_CFG slot
    omega
  obtain ⟨hhead, hlimit, hcfg⟩ := hsts
  obtain ⟨t, hrun⟩ : ∃ t : State, execBgtProbe d temp found s =
      .next (t.setFld (Reg.MEM_DEV_STS d) 9 2 (ofSigned 8 (floorDiv temp 10))).dramAdjust := by
    unfold execBgtProbe
    dsimp only
    rw [hbank]
    dsimp only
    rw [hfirst, if_pos ⟨hst, hon, rfl, hfree, hpicks⟩]
    exact ⟨_, rfl⟩
  refine ⟨_, hrun, (congrArg (getF · 9 2) (State.rd_dramAdjust_ne hhead hlimit hcfg)).trans ?_⟩
  refine (State.fld_setFld_same _ _ _ _ _ (by decide) (by decide)).trans (Nat.mod_eq_of_lt ?_)
  unfold ofSigned
  omega

/-- A bank whose refresh is due is refreshed, or its refresh is held where the device is at work or data waits (R396). -/
theorem execRefresh_ready (d b : Fin 16) (x : RefreshFind) (hst : s.probesEnd.memState = 4) :
    let u := s.probesEnd.reportTemp d.val x.temp
    let k := d.val * 16 + b.val
    let waits := (u.waiting d.val).any fun g => ddrBank g.addr == b.val
    (x.busy = true ∨ u.probed d.val = true ∨ (u.debt k < 4 ∧ waits = true) →
      execRefresh d b x s = .next (u.setDebt k (u.debt k + 1))) ∧
    (x.busy = false → u.probed d.val = false → 4 ≤ u.debt k →
      execRefresh d b x s = .next ((u.bumpSat Reg.MEM_REF_LATE 32).refreshBank d.val b.val)) ∧
    (x.busy = false → u.probed d.val = false → u.debt k < 4 → waits = false →
      execRefresh d b x s = .next (u.refreshBank d.val b.val)) := by
  unfold execRefresh
  rw [if_neg (not_not.2 hst)]
  intro u k waits
  refine ⟨fun h => congrArg Host.Outcome.next ?_, fun hbusy hfree hlate => congrArg Host.Outcome.next ?_,
    fun hbusy hfree hdebt hwaits => congrArg Host.Outcome.next ?_⟩
  · by_cases hwork : (x.busy || u.probed d.val) = true
    · exact if_pos hwork
    · have hwait : u.debt k < 4 ∧ waits = true := by
        simp only [Bool.or_eq_true, not_or] at hwork
        tauto
      exact (if_neg hwork).trans ((if_neg (Nat.not_le.2 hwait.1)).trans (if_pos hwait.2))
  · have hwork : ¬ (x.busy || u.probed d.val) = true := by
      rw [hbusy, hfree]
      decide
    exact (if_neg hwork).trans (if_pos hlate)
  · have hwork : ¬ (x.busy || u.probed d.val) = true := by
      rw [hbusy, hfree]
      decide
    have hwait : ¬ waits = true := by
      rw [hwaits]
      decide
    exact (if_neg hwork).trans ((if_neg (Nat.not_le.2 hdebt)).trans (if_neg hwait))

/-! Where a byte lies (R383). -/

theorem ddrPlace_eq (a : Nat) : ddrPlace a =
    ⟨a / 256 % 16, a / 32768 % 16, a / 524288 % 131072, a / 4096 % 8 * 256 + a % 256⟩ := by
  simp [ddrPlace, ddrDevice, ddrBank, natBits]

theorem DdrPlace.addr_eq (x : DdrPlace) :
    x.addr = x.row * 524288 + x.bank * 32768 + x.col / 256 * 4096 + x.dev * 256 + x.col % 256 := rfl

theorem ddrPlace_addr (a : Nat) (h : a < 2 ^ 36) : (ddrPlace a).addr = a := by
  rw [ddrPlace_eq, DdrPlace.addr_eq]
  dsimp only
  omega

theorem addr_ddrPlace (x : DdrPlace) (hdev : x.dev < 16) (hbank : x.bank < 16) (hrow : x.row < 2 ^ 17)
    (hcol : x.col < 2048) : ddrPlace x.addr = x := by
  obtain ⟨dev, bank, row, col⟩ := x
  dsimp only at hdev hbank hrow hcol
  rw [ddrPlace_eq, DdrPlace.addr_eq]
  dsimp only
  obtain ⟨a, ha⟩ : ∃ a, a = row * 524288 + bank * 32768 + col / 256 * 4096 + dev * 256 + col % 256 := ⟨_, rfl⟩
  rw [← ha]
  have hd : a / 256 = row * 2048 + bank * 128 + col / 256 * 16 + dev := by omega
  have hb : a / 32768 = row * 16 + bank := by omega
  have hr : a / 524288 = row := by omega
  have hc : a / 4096 = row * 128 + bank * 8 + col / 256 := by omega
  have hl : a % 256 = col % 256 := by omega
  rw [hd, hb, hr, hc, hl]
  congr 1 <;> omega

end

/-- Settles O50. -/
theorem memoryCompletes : Obligations.MemoryCompletes := by
  unfold Obligations.MemoryCompletes
  intro s
  refine ⟨fun hpar hcfg hrate hst => ?resume, fun hpar hcfg hrate hst => execMemEnable_idle hpar hcfg hrate hst,
    ?disable, fun rd wr bad late => ⟨fun hst hlate => congrArg Host.Outcome.next ((if_pos hst).trans (if_neg hlate)),
      fun hst hlocked => congrArg Host.Outcome.next ((if_neg (by omega)).trans (if_pos ⟨hst, hlocked⟩))⟩,
    fun hst => congrArg Host.Outcome.next (if_pos hst), ?rate, fun rd wr bad late st d l hst hlocked hfail => ?failed,
    fun rd wr bad late hst hlocked hfail => ?done, ?probe, ?refresh, ?visit,
    ?patrol, fun corrected double hpower hspan hon hdue => ?scrub, ddrPlace_addr, addr_ddrPlace⟩
  case resume =>
    have hdefined : ¬ (s.fld Reg.MEM_CFG 1 0 = 3 ∨ (!rateOk (s.fld Reg.MEM_CFG 6 2)) = true) := by
      rw [hrate]
      simpa using hcfg
    show execMemEnable s = _
    unfold execMemEnable
    rw [if_neg (by rw [hpar]; decide), if_neg hdefined]
    dsimp only
    simp only [hst]
  case disable =>
    intro u hst
    show execMemDisable s = _
    unfold execMemDisable
    extract_lets v w
    have hw : w.memState = 4 ∨ w.memState = 7 := hst
    rcases hw with h | h <;> simp only [h] <;> rfl
  case rate =>
    intro sel t hsel hst hprobing
    show execMemRateReq sel s = _
    unfold execMemRateReq
    rw [if_neg (by rw [hsel]; decide)]
    have hst' : (s.setFld Reg.MEM_RATE_REQ 4 0 sel.val).probesEnd.memState = 4 := hst
    have hprobing' : (s.setFld Reg.MEM_RATE_REQ 4 0 sel.val).probesEnd.ddr.probing = [] := hprobing
    simp only [hst', hprobing', List.isEmpty_nil, if_true]
    rfl
  case failed =>
    show execMemRateDone rd wr bad late s = _
    unfold execMemRateDone
    rw [if_pos ⟨hst, hlocked⟩]
    dsimp only
    rw [hfail]
  case done =>
    intro u t
    show execMemRateDone rd wr bad late s = _
    unfold execMemRateDone
    rw [if_pos ⟨hst, hlocked⟩]
    dsimp only
    rw [hfail]
  case probe =>
    intro d temp found x b u hst hon hfirst hbank hfree hpicks
    exact execBgtProbe_first hst hon hfirst hbank hfree hpicks
  case refresh =>
    intro d b x u k waits hst
    obtain ⟨held, late, due⟩ := execRefresh_ready d b x hst
    exact ⟨held, due, late⟩
  case visit =>
    intro d segs retries fails ecc left u hst hfree
    have hgo : ¬ (u.memState ≠ 4 ∨ u.probed d.val = true) := by
      rw [hfree]
      simpa using hst
    refine ⟨fun g hg => congrArg Host.Outcome.next ((if_neg hgo).trans ?_),
      fun b hb => congrArg Host.Outcome.next ((if_neg hgo).trans ?_)⟩
    · rw [hg]
    · rw [hb]
  case patrol =>
    intro x u d hst hon hfree hpicks
    exact congrArg Host.Outcome.next (if_pos ⟨hst, hon, hfree, hpicks⟩)
  case scrub =>
    intro on u
    have hdue' : (decide (0 < s.fld Reg.SRM_SCRUB 15 0) && s.bit Reg.SRM_PART 4 &&
        s.elapsed s.ddr.scrubAt (msec (s.fld Reg.SRM_SCRUB 15 0))) = true := by
      rw [hon, hdue, decide_eq_true hspan]
      rfl
    show execSramScrub corrected double s = _
    unfold execSramScrub
    dsimp only
    rw [if_pos hpower, hdue', if_pos rfl]

end Sys2Proof.Machine
end

section
namespace Sys2Proof.Machine

/-! ### Queues and DMA (R406-R428) -/

section
variable {s : State}

/-- A descriptor's write is data, a write outside or a count: the channel stands. -/
theorem State.descWrite_dma (ch : Nat) (d : Desc) (ofs : Nat) (bs : List (BitVec 8)) :
    (s.descWrite ch d ofs bs).dma = s.dma := by
  unfold State.descWrite
  dsimp only
  rw [State.bump_dma]
  split
  · exact State.wrBytes_dma _ _ _
  · rfl

theorem State.descWrite_boot (ch : Nat) (d : Desc) (ofs : Nat) (bs : List (BitVec 8)) :
    (s.descWrite ch d ofs bs).boot = s.boot := by
  unfold State.descWrite
  dsimp only
  rw [State.bump_boot]
  split
  · exact State.wrBytes_boot _ _ _
  · rfl

theorem State.rd_descWrite_ne {ch k : Nat} (d : Desc) (ofs : Nat) (bs : List (BitVec 8)) (h : k ≠ Reg.QDM_CH_BYTES ch) :
    (s.descWrite ch d ofs bs).rd k = s.rd k := by
  unfold State.descWrite
  dsimp only
  rw [State.rd_bump_ne _ _ _ h]
  split
  · exact State.rd_congr (State.wrBytes_regs _ _ _) _
  · rfl

theorem State.dmaChan_congr {t : State} (h : t.dma = s.dma) (ch : Nat) : t.dmaChan ch = s.dmaChan ch := by
  unfold State.dmaChan
  rw [h]

theorem State.dmaHolds_congr {t : State} {ch : Nat} (hctl : t.rd (Reg.QDM_CH_CTL ch) = s.rd (Reg.QDM_CH_CTL ch))
    (hdma : t.dma = s.dma) (hboot : t.boot = s.boot) : t.dmaHolds ch = s.dmaHolds ch := by
  unfold State.dmaHolds State.quiesces State.bit
  rw [hctl, State.dmaChan_congr hdma, hboot]

theorem State.dmaState_setDmaState (ch : Nat) {x : Nat} (h : x < 8) : (s.setDmaState ch x).dmaState ch = x :=
  (State.fld_setFld_same _ _ _ _ _ (by decide) (by decide)).trans (Nat.mod_eq_of_lt h)

/-- The channel's state once what it has read is written. -/
def State.drained (s : State) (ch n : Nat) (data : List (BitVec 8)) : State :=
  let d := s.desc ch
  let ofs := s.rdN (Reg.QDM_CH_OFFSET ch)
  if s.dmaMoves ch && decide (n < d.len - ofs) && d.delivers n data then
    (s.descWrite ch d ofs (s.descData d ofs n data)).wrN (Reg.QDM_CH_OFFSET ch) (ofs + n)
  else s

theorem State.drained_stands (s : State) (ch n : Nat) (data : List (BitVec 8)) :
    (s.drained ch n data).dma = s.dma ∧ (s.drained ch n data).boot = s.boot ∧
      (s.drained ch n data).rd (Reg.QDM_CH_CTL ch) = s.rd (Reg.QDM_CH_CTL ch) := by
  have hctl (ofs m : Nat) (bs : List (BitVec 8)) :
      ((s.descWrite ch (s.desc ch) ofs bs).wrN (Reg.QDM_CH_OFFSET ch) m).rd (Reg.QDM_CH_CTL ch) =
        s.rd (Reg.QDM_CH_CTL ch) :=
    (State.rd_wrN_ne _ _ (slot_ne_of_sub_ne _ (by decide))).trans
      (State.rd_descWrite_ne _ _ _ (slot_ne_of_sub_ne _ (by decide)))
  unfold State.drained
  dsimp only
  split
  · exact ⟨(State.wrN_dma _ _ _).trans (State.descWrite_dma _ _ _ _),
      (State.wrN_boot _ _ _).trans (State.descWrite_boot _ _ _ _), hctl _ _ _⟩
  · exact ⟨rfl, rfl, rfl⟩

/-- A channel that is held pauses once what it has read is written (R423). -/
theorem execDmaDrainEnd_held (ch : Fin 128) (n : Nat) (data : List (BitVec 8)) (hst : s.dmaState ch.val = 3)
    (hdesc : s.dmaMoves ch.val = false ∨ s.descUndefined ch.val = 0) (hoff : (s.dmaChan ch.val).offPending = false)
    (hheld : s.dmaHolds ch.val = true) :
    ∃ t, execDmaDrainEnd ch n data s = .next t ∧ t.dmaState ch.val = 4 := by
  have hdefined : ¬ (s.dmaMoves ch && s.descUndefined ch != 0) = true := by
    rcases hdesc with h | h <;> simp [h]
  obtain ⟨hdma, hboot, hrd⟩ := s.drained_stands ch n data
  refine ⟨_, (if_pos hst).trans ((if_neg hdefined).trans ((if_neg ?_).trans (if_pos ?_))),
    State.dmaState_setDmaState _ (by decide)⟩
  · show ¬ ((s.drained ch n data).dmaChan ch).offPending = true
    rw [State.dmaChan_congr hdma, hoff]
    decide
  · show (s.drained ch n data).dmaHolds ch = true
    rw [State.dmaHolds_congr hrd hdma hboot, hheld]

/-- A channel that is off and enabled waits, or pauses at once where its pause bit stands (R422). -/
theorem execDmaEnable_off (ch : Fin 128) (hoff : s.dmaState ch.val = 0) :
    ∃ t, execDmaEnable ch s = .next t ∧ t.dmaState ch.val = (if s.bit (Reg.QDM_CH_CTL ch) 1 then 4 else 1) ∧
      t.bit (Reg.QDM_CH_CTL ch) 0 = true ∧ t.bit (Reg.QDM_CH_STS ch) 4 = false := by
  have happart : Reg.QDM_CH_STS ch ≠ Reg.QDM_CH_CTL ch := slot_ne_of_sub_ne _ (by decide)
  have hstate (u : State) : (u.putBit (Reg.QDM_CH_STS ch) 4 false).dmaState ch = u.dmaState ch :=
    State.fld_putBit_apart _ _ _ _ _ _ (by decide) (by decide)
  have hoff' : ((s.putBit (Reg.QDM_CH_CTL ch) 0 true).putBit (Reg.QDM_CH_STS ch) 4 false).dmaState ch = 0 :=
    (hstate _).trans ((State.fld_putBit_ne _ _ _ _ _ happart).trans hoff)
  have hpause : ((s.putBit (Reg.QDM_CH_CTL ch) 0 true).putBit (Reg.QDM_CH_STS ch) 4 false).bit (Reg.QDM_CH_CTL ch) 1 =
      s.bit (Reg.QDM_CH_CTL ch) 1 :=
    (State.bit_putBit_ne _ _ _ _ happart.symm).trans (State.bit_putBit_apart _ _ _ _ _ (by decide) (by decide))
  refine ⟨_, congrArg Host.Outcome.next (if_pos hoff'), ?_, ?_, ?_⟩
  · unfold State.dmaOn
    rw [hpause]
    refine State.dmaState_setDmaState _ ?_
    split
    · decide
    · decide
  · refine (State.bit_setFld_ne _ _ _ _ _ happart.symm).trans ((State.bit_putBit_ne _ _ _ _ happart.symm).trans ?_)
    exact State.bit_putBit_same _ _ _ _ (by decide)
  · refine (State.bit_setFld_apart _ _ _ _ _ _ (by decide) (by decide) (by decide)).trans ?_
    exact State.bit_putBit_same _ _ _ _ (by decide)

end

/-- Settles O51. -/
theorem queuesComplete : Obligations.QueuesComplete := by
  unfold Obligations.QueuesComplete
  intro s
  refine ⟨fun q hq => if_pos (by simpa using hq), fun q => rfl, fun q => rfl,
    fun q v hbad => if_neg (by rw [hbad]; decide), fun q v hbad => if_neg (by rw [hbad]; decide),
    fun ch hbad => if_neg (by rw [hbad]; decide),
    fun ch data hmoves hdesc hlast hdead hdata => (if_pos hmoves).trans ((if_neg (fun h => h hdesc)).trans
      ((if_neg (by rw [hlast]; decide)).trans ((if_neg (by rw [hdead]; decide)).trans (if_pos hdata)))),
    fun ch cause n data hmoves hlow hhigh hdesc hlast hlen hdata => ?error,
    fun ch hst => execDmaEnable_off ch hst, fun ch hst => ?disable, fun ch => rfl,
    fun ch n data hst hdesc hoff hheld => execDmaDrainEnd_held ch n data hst hdesc hoff hheld, ?resume⟩
  case error =>
    have hgo : (s.dmaMoves ch && decide (1 ≤ cause.val ∧ cause.val ≤ 5)) = true := by
      rw [hmoves, decide_eq_true ⟨hlow, hhigh⟩]
      rfl
    have hmoved : (decide (n ≤ (s.desc ch).len - s.rdN (Reg.QDM_CH_OFFSET ch)) && (s.desc ch).delivers n data) = true := by
      rw [hdata, decide_eq_true hlen]
      rfl
    exact (if_pos hgo).trans ((if_neg (fun h => h hdesc)).trans ((if_neg (by rw [hlast]; decide)).trans (if_pos hmoved)))
  case disable =>
    have hst' : (s.putBit (Reg.QDM_CH_CTL ch) 0 false).dmaState ch = 4 := by
      refine (State.fld_putBit_ne _ _ _ _ _ ?_).trans hst
      exact slot_ne_of_sub_ne _ (by decide)
    exact congrArg Host.Outcome.next ((if_neg (by omega)).trans (if_neg (by omega)))
  case resume =>
    intro ch u
    exact ⟨fun hheld => if_pos hheld, fun hfree hbad =>
      (if_neg (by rw [hfree]; decide)).trans (if_neg (by rw [hbad]; decide))⟩

end Sys2Proof.Machine
end

section
namespace Sys2Proof.Machine

/-! ### PCIe ports (R431-R441, R453, R458, R599) -/

section
variable {s : State}

/-- A port that is not a root port's shows its link up, at the lesser of the two rates (R432). -/
theorem execPciLinkUp_endpoint {n : Fin 4} {rate : Fin 6} {width : Fin 4} {flit : Bool}
    (hruns : s.portRuns n.val = true) (hdown : s.linkUp n.val = false) (hpower : s.power ≤ 1)
    (hroot : s.pciRole n.val ≠ 1) (hrole : s.pciRole n.val ≠ 3) (htop : s.fld (Reg.PCI_PORT_CFG n) 4 2 ≤ 5) :
    ∃ t, execPciLinkUp n rate width flit s = .next t ∧ t.linkUp n.val = true ∧
      t.fld (Reg.PCI_PORT_STS n) 3 1 = min rate.val (s.fld (Reg.PCI_PORT_CFG n) 4 2) := by
  have hdefined : ¬ (s.pciRole n = 3 ∨ (s.portRuns n = true ∧ 5 < s.fld (Reg.PCI_PORT_CFG n) 4 2)) := by omega
  have hgo : s.portRuns n = true ∧ ¬ s.linkUp n = true ∧ s.power ≤ 1 := ⟨hruns, by rw [hdown]; decide, hpower⟩
  have hshown (u : State) (r w : Nat) (f : Bool) :
      let v := (((((u.putBit (Reg.PCI_PORT_STS n) 0 true).setFld (Reg.PCI_PORT_STS n) 3 1 r).setFld
        (Reg.PCI_PORT_STS n) 5 4 w).putBit (Reg.PCI_PORT_STS n) 6 f).raise (896 + n))
      v.linkUp n = true ∧ v.fld (Reg.PCI_PORT_STS n) 3 1 = r % 2 ^ 3 := by
    refine ⟨?_, ?_⟩
    · refine (State.bit_putBit_apart _ _ _ _ _ (by decide) (by decide)).trans ?_
      refine (State.bit_setFld_apart _ _ _ _ _ _ (by decide) (by decide) (by decide)).trans ?_
      refine (State.bit_setFld_apart _ _ _ _ _ _ (by decide) (by decide) (by decide)).trans ?_
      exact State.bit_putBit_same _ _ _ _ (by decide)
    · refine (State.fld_putBit_apart _ _ _ _ _ _ (by decide) (by decide)).trans ?_
      refine (State.fld_setFld_apart _ _ _ _ _ _ _ (by decide) (by decide) (by decide)).trans ?_
      exact State.fld_setFld_same _ _ _ _ _ (by decide) (by decide)
  have hrole' (u : State) (r w : Nat) (f : Bool) :
      ((((((u.putBit (Reg.PCI_PORT_STS n) 0 true).setFld (Reg.PCI_PORT_STS n) 3 1 r).setFld
        (Reg.PCI_PORT_STS n) 5 4 w).putBit (Reg.PCI_PORT_STS n) 6 f).raise (896 + n)).pciRole n) = u.pciRole n := by
    have happart : Reg.PCI_PORT_CFG n ≠ Reg.PCI_PORT_STS n := slot_ne_of_sub_ne _ (by decide)
    unfold State.pciRole State.fld
    rw [State.rd_raise, State.rd_putBit_ne _ _ _ happart, State.rd_setFld_ne _ _ _ _ happart,
      State.rd_setFld_ne _ _ _ _ happart, State.rd_putBit_ne _ _ _ happart]
  refine ⟨_, (if_neg hdefined).trans (congrArg Host.Outcome.next ((if_pos hgo).trans (if_neg ?_))), ?_⟩
  · rw [hrole']
    exact hroot
  · obtain ⟨hup, hrate⟩ := hshown s (min rate.val (s.fld (Reg.PCI_PORT_CFG n) 4 2)) (min width.val
      (((s.putBit (Reg.PCI_PORT_STS n) 0 true).setFld (Reg.PCI_PORT_STS n) 3 1
        (min rate.val (s.fld (Reg.PCI_PORT_CFG n) 4 2))).fld (Reg.PCI_PORT_CFG n) 6 5))
      (flit || min rate.val (s.fld (Reg.PCI_PORT_CFG n) 4 2) == 5)
    exact ⟨hup, hrate.trans (Nat.mod_eq_of_lt (by omega))⟩

theorem State.epFn_out_epEnable {n : Nat} (hn : n < 4) (h : (s.epFn n).out = true) : ((s.epEnable n).epFn n).out = true := by
  unfold State.epEnable
  dsimp only
  split
  · rw [State.epFn_setEp_same _ _ _ hn]
    exact h
  · exact h

theorem State.epFn_raise (m k p : Nat) : (s.raise m p).epFn k = s.epFn k := rfl

theorem execPerst_out {n : Fin 4} (hwake : s.isEndpoint n.val = false ∨ s.wakeUndefined 6 2 3 = false) :
    ∃ t, execPerst n s = .next t ∧ (t.epFn n.val).out = true := by
  have hdefined : ¬ (s.isEndpoint n = true ∧ s.wakeUndefined 6 2 3 = true) := by
    rcases hwake with h | h <;> simp [h]
  obtain ⟨u, hrun⟩ : ∃ u : State, execPerst n s = .next ((u.setEp n { u.epFn n with out := true }).epEnable n) :=
    ⟨_, if_neg hdefined⟩
  refine ⟨_, hrun, State.epFn_out_epEnable n.isLt ?_⟩
  rw [State.epFn_setEp_same _ _ _ n.isLt]

theorem State.rd_withDrv (x : Drv) (k : Nat) : ({ s with drv := x } : State).rd k = s.rd k := rfl

theorem State.out_withDrv (x : Drv) : ({ s with drv := x } : State).out = s.out := rfl

/-- A read of a function's configuration leaves through the root port (R440). -/
theorem execCfgAccGo_read {n : Fin 4} {v : BitVec 64} (hroot : s.pciRole n.val = 1) (hread : bitAt v 28 = false) :
    ∃ t, execCfgAccGo n v s = .next t ∧ t.rd (Reg.PCI_RP_CFG_ACC n) = setF v 31 29 0 ∧
      t.out = s.out ++ [.pcieConfig n.val (getF v 15 0) (getF v 27 16) false (getF v 63 32)] := by
  have happart : Reg.PCI_PORT_CFG n ≠ Reg.PCI_RP_CFG_ACC n := slot_ne_of_sub_ne _ (by decide)
  have hroot' : (s.wr (Reg.PCI_RP_CFG_ACC n) (setF v 31 29 0)).pciRole n = 1 :=
    (congrArg (getF · 1 0) (s.rd_wr_ne _ happart)).trans hroot
  obtain ⟨x, hrun⟩ : ∃ x : Drv, execCfgAccGo n v s =
      .next (({ s.wr (Reg.PCI_RP_CFG_ACC n) (setF v 31 29 0) with drv := x } : State).send
        (.pcieConfig n.val (getF v 15 0) (getF v 27 16) false (getF v 63 32))) := by
    unfold execCfgAccGo
    dsimp only
    rw [hread, if_neg (by simp), if_pos hroot']
    exact ⟨_, rfl⟩
  refine ⟨_, hrun, ?_, ?_⟩
  · rw [State.rd_send, State.rd_withDrv, State.rd_wr_same]
  · rw [State.send_out, State.out_withDrv, State.wr_out]

/-- The answer to a configuration access is held, with its data where it read (R440). -/
theorem execCfgAccDone_held {n : Fin 4} {ur : Bool} {data : BitVec 32} (hacc : s.drv.acc.testBit n.val = true) :
    ∃ t, execCfgAccDone n ur data s = .next t ∧ t.bit (Reg.PCI_RP_CFG_ACC n) 30 = true ∧
      t.bit (Reg.PCI_RP_CFG_ACC n) 31 = ur ∧
      (s.bit (Reg.PCI_RP_CFG_ACC n) 28 = false → t.fld (Reg.PCI_RP_CFG_ACC n) 63 32 = data.toNat) := by
  obtain ⟨x, hrun⟩ : ∃ x : Drv, execCfgAccDone n ur data s = .next (
      let u := (({ s with drv := x } : State).putBit (Reg.PCI_RP_CFG_ACC n) 30 true).putBit (Reg.PCI_RP_CFG_ACC n) 31 ur
      if u.bit (Reg.PCI_RP_CFG_ACC n) 28 then u else u.setFld (Reg.PCI_RP_CFG_ACC n) 63 32 data.toNat) :=
    ⟨_, congrArg Host.Outcome.next (if_pos hacc)⟩
  rw [hrun]
  generalize hbase : ({ s with drv := x } : State) = b
  have hread : b.bit (Reg.PCI_RP_CFG_ACC n) 28 = s.bit (Reg.PCI_RP_CFG_ACC n) 28 := by
    rw [← hbase]
    rfl
  have hdone : ((b.putBit (Reg.PCI_RP_CFG_ACC n) 30 true).putBit (Reg.PCI_RP_CFG_ACC n) 31 ur).bit
      (Reg.PCI_RP_CFG_ACC n) 30 = true :=
    (State.bit_putBit_apart _ _ _ _ _ (by decide) (by decide)).trans (State.bit_putBit_same _ _ _ _ (by decide))
  have hur : ((b.putBit (Reg.PCI_RP_CFG_ACC n) 30 true).putBit (Reg.PCI_RP_CFG_ACC n) 31 ur).bit
      (Reg.PCI_RP_CFG_ACC n) 31 = ur := State.bit_putBit_same _ _ _ _ (by decide)
  have hwrite : ((b.putBit (Reg.PCI_RP_CFG_ACC n) 30 true).putBit (Reg.PCI_RP_CFG_ACC n) 31 ur).bit
      (Reg.PCI_RP_CFG_ACC n) 28 = s.bit (Reg.PCI_RP_CFG_ACC n) 28 :=
    ((State.bit_putBit_apart _ _ _ _ _ (by decide) (by decide)).trans
      (State.bit_putBit_apart _ _ _ _ _ (by decide) (by decide))).trans hread
  refine ⟨_, rfl, ?_⟩
  dsimp only
  split
  case isTrue h => exact ⟨hdone, hur, fun h' => absurd ((hwrite.symm.trans h).symm.trans h') (by decide)⟩
  case isFalse h =>
    refine ⟨?_, ?_, fun _ => ?_⟩
    · exact (State.bit_setFld_apart _ _ _ _ _ _ (by decide) (by decide) (by decide)).trans hdone
    · exact (State.bit_setFld_apart _ _ _ _ _ _ (by decide) (by decide) (by decide)).trans hur
    · exact (State.fld_setFld_same _ _ _ _ _ (by decide) (by decide)).trans (Nat.mod_eq_of_lt data.isLt)

end

/-- Settles O53. -/
theorem pcieCompletes : Obligations.PcieCompletes := by
  unfold Obligations.PcieCompletes
  intro s n
  refine ⟨fun rate width flit hruns hdown hpower hroot hrole htop =>
      execPciLinkUp_endpoint hruns hdown hpower hroot hrole htop, rfl, fun devs hup henum hdevs => ?enum,
    fun bus devs x hup hroot henum hslot => ?slot, fun hwake => execPerst_out hwake,
    fun hroot hgood hpast => congrArg Host.Outcome.next (if_pos ⟨hroot, hgood, hpast⟩),
    fun tag reg v hend hup hon hflr => ?config, fun hend hup hon => ?flrStart, fun hflr => ?flrEnd,
    fun v hroot hread => ?accGo, fun ur data hacc => ?accDone, rfl, rfl⟩
  case enum =>
    have hdefined : ¬ (s.linkUp n = true ∧ s.drv.enum.testBit n = true ∧ devs ≠ [] ∧ s.rpUndefined n = true) := by
      rcases hdevs with h | h <;> simp [h]
    exact (if_neg hdefined).trans (congrArg Host.Outcome.next (if_pos ⟨hup, henum⟩))
  case slot =>
    refine congrArg Host.Outcome.next ((if_pos ⟨hup, hroot⟩).trans ((if_neg (by rw [henum]; decide)).trans ?_))
    rw [hslot]
  case config =>
    have hgo : (s.isEndpoint n && s.linkUp n) = true := by
      rw [hend, hup]
      rfl
    have hserves : ¬ (!(s.epFn n).enabled || (s.epFn n).flr) = true := by
      rw [hon, hflr]
      decide
    exact ⟨congrArg Host.Outcome.next ((if_pos hgo).trans ((if_neg hserves).trans (if_pos rfl))),
      congrArg Host.Outcome.next ((if_pos hgo).trans ((if_neg hserves).trans (if_neg (by decide))))⟩
  case flrStart =>
    have hgo : (s.isEndpoint n && s.linkUp n && (s.epFn n).enabled) = true := by
      rw [hend, hup, hon]
      rfl
    refine ⟨_, congrArg Host.Outcome.next (if_pos hgo), ?_, State.setEp_regs _ _ _, State.setEp_mem _ _ _⟩
    exact congrArg EpFn.flr (State.epFn_setEp_same s _ { s.epFn n with flr := true } n.isLt)
  case flrEnd =>
    refine ⟨_, congrArg Host.Outcome.next (if_pos hflr), ?_⟩
    rw [State.epFn_raise, State.epFn_setEp_same _ _ _ n.isLt]
    exact ⟨rfl, rfl, rfl⟩
  case accGo =>
    exact execCfgAccGo_read hroot hread
  case accDone =>
    exact execCfgAccDone_held hacc

end Sys2Proof.Machine
end

section
namespace Sys2Proof.Machine

/-! ### PCIe memory accesses from outside (R435, R436, R439, R546) -/

section
variable {s : State} {n : Fin 4}

theorem State.memRequest_read (tag a len : Nat) (data : List (BitVec 8)) :
    s.memRequest ⟨n, tag, false, a, len, data⟩ = if s.portWaits n.val a
      then { s with heldReqs := s.heldReqs ++ [⟨n.val, tag, false, a, len, data⟩] }
      else s.send (.pcieCompletion n.val tag 0 (s.rdBytes a len)) := rfl

theorem State.memRequest_write (tag a len : Nat) (data : List (BitVec 8)) :
    s.memRequest ⟨n, tag, true, a, len, data⟩ = if s.portWaits n.val a
      then { s with heldReqs := s.heldReqs ++ [⟨n.val, tag, true, a, len, data⟩] }
      else s.wrBytes a data := rfl

/-- An access inside BAR2 that the windows allow is served, where a write is one that software may do (R435, R546). -/
theorem execBar2Access_served {tag : Fin 16384} {write : Bool} {off len : Nat} {data : List (BitVec 8)}
    (hlow : 20 ≤ s.fld (Reg.PCI_EP_BAR2 n) 5 0) (hhigh : s.fld (Reg.PCI_EP_BAR2 n) 5 0 ≤ 36)
    (hserves : s.epServes n.val = true) (hwin : s.epWinBad n.val = false)
    (hin : off + (if write then data.length else len) ≤ 2 ^ s.fld (Reg.PCI_EP_BAR2 n) 5 0)
    (hok : s.memOk (s.fld (Reg.PCI_EP_BAR2 n) 47 20 * 2 ^ 20 + off) (if write then data.length else len) = true)
    (hallows : s.epAllows n.val (s.fld (Reg.PCI_EP_BAR2 n) 47 20 * 2 ^ 20 + off)
      (if write then data.length else len) write = true)
    (hwrite : (write && !s.softWriteOk (s.fld (Reg.PCI_EP_BAR2 n) 47 20 * 2 ^ 20 + off)
      (if write then data.length else len)) = false) :
    execBar2Access n tag write off len data s = .next (s.memRequest ⟨n, tag, write,
      s.fld (Reg.PCI_EP_BAR2 n) 47 20 * 2 ^ 20 + off, if write then data.length else len, data⟩) := by
  have hsize : ¬ (s.epServes n &&
      decide (s.fld (Reg.PCI_EP_BAR2 n) 5 0 < 20 ∨ 36 < s.fld (Reg.PCI_EP_BAR2 n) 5 0)) = true := by
    rw [hserves, Bool.true_and, decide_eq_true_eq]
    omega
  have hinside : ¬ (!(s.epServes n) || decide (2 ^ s.fld (Reg.PCI_EP_BAR2 n) 5 0 <
      off + (if write then data.length else len))) = true := by
    rw [hserves, Bool.not_true, Bool.false_or, decide_eq_true_eq]
    exact Nat.not_lt.2 hin
  have hgood : ¬ (!(s.memOk (s.fld (Reg.PCI_EP_BAR2 n) 47 20 * 2 ^ 20 + off) (if write then data.length else len) &&
      s.epAllows n (s.fld (Reg.PCI_EP_BAR2 n) 47 20 * 2 ^ 20 + off) (if write then data.length else len) write)) =
        true := by
    rw [hok, hallows]
    decide
  exact (if_neg hsize).trans ((if_neg hinside).trans ((if_neg (by rw [hwin]; decide)).trans
    ((if_neg hgood).trans (if_neg (by rw [hwrite]; decide)))))

/-- A request from below a root port into device memory is served (R439). -/
theorem execDownstreamRequest_served {tag : Fin 16384} {write : Bool} {addr : BitVec 64} {len : Nat}
    {data : List (BitVec 8)} (hroot : s.pciRole n.val = 1) (hup : s.linkUp n.val = true)
    (hin : addr.toNat + (if write then data.length else len) ≤ 2 ^ 48)
    (hok : s.memOk addr.toNat (if write then data.length else len) = true)
    (hwrite : (write && !(s.memWriteOk addr.toNat (if write then data.length else len) &&
      !s.contextHit addr.toNat (if write then data.length else len))) = false) :
    execDownstreamRequest n tag write addr len data s =
      .next (s.memRequest ⟨n, tag, write, addr.toNat, if write then data.length else len, data⟩) := by
  have hup' : ¬ (s.pciRole n ≠ 1 ∨ ¬ s.linkUp n = true) := fun h => h.elim (fun h => h hroot) fun h => h hup
  exact (if_neg hup').trans ((if_pos hin).trans ((if_neg (by rw [hok]; decide)).trans
    (if_neg (by rw [hwrite]; decide))))

theorem EpFn.vector_cons (f : EpFn) (v : Nat) (e : MsixVec) (l : List (Nat × MsixVec)) :
    ({ f with table := (v, e) :: l } : EpFn).vector v = e := by
  unfold EpFn.vector
  rw [List.find?_cons_of_pos (by simp)]

theorem State.flushMsix_off {k : Nat} (h : (s.epFn k).msixEnable = false) : s.flushMsix k = s :=
  if_neg (by rw [h]; simp)

/-- Eight bytes at a vector's start set its address, and with MSI-X off nothing leaves (R436). -/
theorem State.msixWrite_address {ofs : Nat} {data : List (BitVec 8)} (hofs : ofs % 16 = 0) (hlen : data.length = 8)
    (hoff : (s.epFn n.val).msixEnable = false) :
    (((s.msixWrite n ofs data).epFn n.val).vector (ofs / 16)).addr = ofLe data ∧
      (s.msixWrite n ofs data).regs = s.regs ∧ (s.msixWrite n ofs data).mem = s.mem := by
  have hgo : (data.length = 4 ∨ data.length = 8) ∧ ofs % data.length = 0 := ⟨.inr hlen, by rw [hlen]; omega⟩
  obtain ⟨e, he, hrun⟩ : ∃ e : MsixVec, e.addr = ofLe data ∧ s.msixWrite n ofs data = (s.setEp n { s.epFn n with
      table := (ofs / 16, e) :: (s.epFn n).table.filter fun x => x.1 != ofs / 16 }).flushMsix n := by
    unfold State.msixWrite
    rw [if_pos hgo]
    refine ⟨_, ?_, rfl⟩
    simp [hofs, hlen]
  have hsame := State.epFn_setEp_same s n.val { s.epFn n with
    table := (ofs / 16, e) :: (s.epFn n).table.filter fun x => x.1 != ofs / 16 } n.isLt
  rw [hrun, State.flushMsix_off ((congrArg EpFn.msixEnable hsame).trans hoff), hsame, EpFn.vector_cons]
  exact ⟨he, State.setEp_regs _ _ _, State.setEp_mem _ _ _⟩

/-- A data strip of a block that the journal holds is read from the journal (R453). -/
theorem execStreamApertureRead_journal {tag : Fin 16384} {x : Fin 4} {st : Nat} {place : Fin 16} {strip : Fin 8}
    {off len : Nat} {k : DrvBlock} (hroot : s.pciRole n.val = 1) (hup : s.linkUp n.val = true)
    (hin : off + len ≤ 131072) (hplace : place.val < s.dData x.val)
    (hblock : (s.drv.journal.find? fun k => k.set == x.val && k.b == st * s.dData x.val + place.val) = some k) :
    execStreamApertureRead n tag x st place strip off len s = .next (s.send (.pcieCompletion n.val tag.val 0
      ((List.range len).map fun i => s.blockByte k (strip.val * 131072 + off + i)))) := by
  have hup' : ¬ (s.pciRole n ≠ 1 ∨ ¬ s.linkUp n = true) := fun h => h.elim (fun h => h hroot) fun h => h hup
  refine congrArg Host.Outcome.next ((if_neg hup').trans ((if_neg (Nat.not_lt.2 hin)).trans ((if_pos hplace).trans ?_)))
  have hget : ((List.range (s.dData x)).map fun j =>
      s.drv.journal.find? fun k => k.set == x.val && k.b == st * s.dData x + j).getD place.val none = some k := by
    rw [List.getD_eq_getElem _ _ (by simpa using hplace)]
    simpa using hblock
  rw [hget]

end

/-- Settles O54. -/
theorem pcieAccessesComplete : Obligations.PcieAccessesComplete := by
  unfold Obligations.PcieAccessesComplete
  intro s n tag data
  refine ⟨?bar2, fun addr len hroot hup hfree => ⟨fun hin hok => ?downRead, fun hin hok hwrite hctx => ?downWrite⟩,
    fun off hserves hlow hhigh hofs hlen hoff => ?msix, fun off hserves hin hofs hlen hdefined => ?doorbell,
    fun x st place strip off len k hroot hup hin hplace hblock =>
      execStreamApertureRead_journal hroot hup hin hplace hblock⟩
  case bar2 =>
    intro off len a hlow hhigh hserves hwin
    refine ⟨fun hin hok hallows => ?_, fun hin hok hsoft hallows => ?_⟩
    · rw [← State.memRequest_read]
      exact execBar2Access_served (write := false) hlow hhigh hserves hwin hin hok hallows rfl
    · rw [← State.memRequest_write]
      exact execBar2Access_served (write := true) hlow hhigh hserves hwin hin hok hallows
        (by rw [Bool.true_and]; exact congrArg not hsoft)
  case downRead =>
    refine (execDownstreamRequest_served (write := false) hroot hup hin hok rfl).trans ?_
    exact congrArg Host.Outcome.next (if_neg (by rw [hfree]; decide))
  case downWrite =>
    have hgood : (true && !(s.memWriteOk addr.toNat data.length && !s.contextHit addr.toNat data.length)) = false := by
      rw [hwrite, hctx]
      rfl
    refine (execDownstreamRequest_served (write := true) hroot hup hin hok hgood).trans ?_
    exact congrArg Host.Outcome.next (if_neg (by rw [hfree]; decide))
  case msix =>
    obtain ⟨haddr, hregs, hmem⟩ := State.msixWrite_address (s := s) (n := n) (ofs := off.val - 0x8000)
      (by omega) hlen hoff
    exact ⟨_, (if_neg (by rw [hserves]; decide)).trans ((if_neg (Nat.not_lt.2 hlow)).trans
      (congrArg Host.Outcome.next (if_pos hhigh))), haddr, hregs, hmem⟩
  case doorbell =>
    exact (if_neg (by rw [hserves]; decide)).trans ((if_pos hin).trans ((if_pos ⟨hofs, hlen⟩).trans
      (if_neg (fun h => h hdefined))))

end Sys2Proof.Machine
end

section
namespace Sys2Proof.Machine

/-! ### Drives (R442-R453) -/

section
variable {s : State}

theorem State.ctrl_setCtrl (c : Ctrl) : (s.setCtrl c).ctrl c.port c.fn = some c :=
  List.find?_cons_of_pos (by simp)

theorem State.ctrl_send (m : OutMsg) (port fn : Nat) : (s.send m).ctrl port fn = s.ctrl port fn := rfl

/-- A controller found for a port and a function bears them. -/
theorem State.names_of_ctrl {port fn : Nat} {c : Ctrl} (h : s.ctrl port fn = some c) : c.port = port ∧ c.fn = fn := by
  simpa using List.find?_some h

/-- The first command that times out resets its controller (R447). -/
theorem execNvmeTimeout_first {port : Fin 4} {fn : Fin 32} {cookie : Nat} {c : Ctrl} {k : DrvCmd}
    (hctrl : s.ctrl port.val fn.val = some c) (hcmd : (c.cmds.find? fun e => e.cookie == cookie) = some k)
    (hphase : 3 ≤ c.phase) (hsent : k.sent = true)
    (hdue : s.overdue k.sentAt (msec (s.fld Reg.DRV_CMD_TIMEOUT 31 0)) = true) (hfirst : c.timeoutAt = none) :
    ∃ t d, execNvmeTimeout port fn cookie s = .next t ∧ t.ctrl port.val fn.val = some d ∧ d.phase = 1 ∧
      d.timeoutAt = some s.clk.up ∧ t.out = s.out ++ [.nvmeEnable port.val fn.val false] := by
  have hgo : ¬ (c.phase < 3 ∨ (!k.sent) = true ∨
      ¬ s.overdue k.sentAt (msec (s.fld Reg.DRV_CMD_TIMEOUT 31 0)) = true) := by
    rw [hsent, hdue]
    simpa using hphase
  obtain ⟨cmds, hrun⟩ : ∃ cmds, execNvmeTimeout port fn cookie s =
      .next ((s.setCtrl { c with phase := 1, cmds := cmds, timeoutAt := some s.clk.up }).send
        (.nvmeEnable port.val fn.val false)) := by
    unfold execNvmeTimeout
    rw [hctrl]
    dsimp only
    rw [hcmd]
    dsimp only
    rw [if_neg hgo, hfirst]
    exact ⟨_, rfl⟩
  obtain ⟨hport, hfn⟩ := State.names_of_ctrl hctrl
  refine ⟨_, { c with phase := 1, cmds := cmds, timeoutAt := some s.clk.up }, hrun, ?_, rfl, rfl, rfl⟩
  rw [State.ctrl_send, ← hport, ← hfn]
  exact State.ctrl_setCtrl { c with phase := 1, cmds := cmds, timeoutAt := some s.clk.up }

/-- In a set that runs the enable command sets its two bits alone (R449). -/
theorem execDrvSetEnable_running {x : Fin 4} {init : Bool} (hst : s.dState x.val = 2)
    (hpar : s.parityStopped (Reg.DRV_SET_CTL x) = false) :
    ∃ t, execDrvSetEnable x true init s = .next t ∧ t.bit (Reg.DRV_SET_CTL x) 0 = true ∧
      t.bit (Reg.DRV_SET_CTL x) 2 = init ∧ t.dState x.val = 2 := by
  have happart : Reg.DRV_SET_STS x ≠ Reg.DRV_SET_CTL x := slot_ne_of_sub_ne _ (by decide)
  have hst' : ((s.putBit (Reg.DRV_SET_CTL x) 0 true).putBit (Reg.DRV_SET_CTL x) 2 init).dState x = 2 :=
    (State.fld_putBit_ne _ _ _ _ _ happart).trans ((State.fld_putBit_ne _ _ _ _ _ happart).trans hst)
  have hdefined : ¬ (true && s.dState x == 0 && decide (s.setUndefined x ≠ 0)) = true := by
    rw [hst]
    simp
  refine ⟨_, (if_neg (by rw [hpar]; decide)).trans ((if_neg hdefined).trans
    (congrArg Host.Outcome.next ((if_pos rfl).trans (if_neg ?_)))), ?_, ?_, hst'⟩
  · exact fun h => absurd (hst'.symm.trans h) (by decide)
  · exact (State.bit_putBit_apart _ _ _ _ _ (by decide) (by decide)).trans (State.bit_putBit_same _ _ _ _ (by decide))
  · exact State.bit_putBit_same _ _ _ _ (by decide)

/-- A set that is off and set up for an area that holds it begins its initialisation (R449). -/
theorem execDrvSetEnable_off {x : Fin 4} {init : Bool} (hst : s.dState x.val = 0)
    (hpar : s.parityStopped (Reg.DRV_SET_CTL x) = false) (hdef : s.setUndefined x.val = 0) :
    let k := Reg.DRV_SET_STS x.val
    let u := (s.putBit (Reg.DRV_SET_CTL x) 0 true).putBit (Reg.DRV_SET_CTL x) 2 init
    let v := ((u.setFld k 9 7 0).putBit k 5 false).putBit k 6 false
    let w := v.setDset x.val { v.dset x.val with init := init }
    w.areaOk = true → execDrvSetEnable x true init s = .next ((w.setFld k 2 0 1).initSet x.val) := by
  have happart : Reg.DRV_SET_STS x ≠ Reg.DRV_SET_CTL x := slot_ne_of_sub_ne _ (by decide)
  have hst' : ((s.putBit (Reg.DRV_SET_CTL x) 0 true).putBit (Reg.DRV_SET_CTL x) 2 init).dState x = 0 :=
    (State.fld_putBit_ne _ _ _ _ _ happart).trans ((State.fld_putBit_ne _ _ _ _ _ happart).trans hst)
  have hdefined : ¬ (true && s.dState x == 0 && decide (s.setUndefined x ≠ 0)) = true := by
    rw [hdef]
    simp
  intro k u v w harea
  refine (if_neg (by rw [hpar]; decide)).trans ((if_neg hdefined).trans
    (congrArg Host.Outcome.next ((if_pos rfl).trans ((if_pos hst').trans (if_neg ?_)))))
  show ¬ (!w.areaOk) = true
  rw [harea]
  decide

end

/-- Settles O55. -/
theorem drivesComplete : Obligations.DrivesComplete := by
  unfold Obligations.DrivesComplete
  intro s
  refine ⟨fun port fn cookie data c k hctrl hcmd hphase => ?completion,
    fun port fn cookie c k hctrl hcmd hphase hsent hdue hfirst =>
      execNvmeTimeout_first hctrl hcmd hphase hsent hdue hfirst,
    fun port fn c hctrl => ⟨fun hphase => ?start, fun hphase => ?expiry⟩, fun port fn c hctrl hphase => ?ready,
    fun port fn x m hmember => ?fatal, fun hdue => congrArg Host.Outcome.next (if_pos hdue),
    fun x c e t hmark hst hdata hdue htake => ?flush, fun x hoff hdue => ?timer,
    fun x init hst hpar => execDrvSetEnable_running hst hpar,
    fun x init hst hpar hdef => execDrvSetEnable_off hst hpar hdef, fun x => rfl⟩
  case completion =>
    intro d u
    have hgo : ¬ c.phase < 3 := Nat.not_lt.2 hphase
    have hrun (ok : Bool) : execNvmeCompletion port fn cookie ok data s =
        .next (if ok then u.cmdDone d k data else u.cmdFailed d k data) := by
      unfold execNvmeCompletion
      rw [hctrl]
      dsimp only
      rw [hcmd]
      exact congrArg Host.Outcome.next (if_neg hgo)
    exact ⟨hrun true, hrun false⟩
  case start =>
    show execControllerReadyChange port fn false s = _
    unfold execControllerReadyChange
    rw [hctrl]
    exact congrArg Host.Outcome.next (if_pos ⟨hphase, rfl⟩)
  case expiry =>
    show execCapToExpiry port fn s = _
    unfold execCapToExpiry
    rw [hctrl]
    exact congrArg Host.Outcome.next (if_pos hphase)
  case ready =>
    show execControllerReadyChange port fn true s = _
    unfold execControllerReadyChange
    rw [hctrl]
    exact congrArg Host.Outcome.next ((if_neg (fun h => absurd h.2 (by decide))).trans (if_pos ⟨hphase, rfl⟩))
  case fatal =>
    show execControllerFatal port fn s = _
    unfold execControllerFatal
    rw [hmember]
  case flush =>
    show execBlockFlushTimeout x c s = _
    unfold execBlockFlushTimeout
    rw [hmark]
    exact congrArg Host.Outcome.next ((if_pos ⟨hst, hdata, hdue⟩).trans (if_pos htake))
  case timer =>
    intro u
    have hgo : ¬ (s.bit (Reg.DRV_SET_CFG x) 12 = true ∨
        ¬ s.sinceNote (s.dset x).flushAt (usec (s.fld (Reg.DRV_SET_FLUSH x) 31 16)) = true) := by
      rw [hoff, hdue]
      simp
    exact congrArg Host.Outcome.next (if_neg hgo)

end Sys2Proof.Machine
end

section
namespace Sys2Proof.Machine

/-! ### The fabric port state machine (R460-R466) -/

section
variable {s : State} {p : Nat}

theorem State.fpState_setPort {st : Nat} (h : st < 8) : (s.setPort p st).fpState p = st :=
  (State.fpState_congr (State.rd_setFport _ _ _ _)).trans
    ((State.fld_setFld_same _ _ _ _ _ (by decide) (by decide)).trans (Nat.mod_eq_of_lt h))

theorem State.rd_withFab (x : Fab) (k : Nat) : ({ s with fab := x } : State).rd k = s.rd k := rfl

theorem State.ownAddr_lt : s.ownAddr < 1024 := by
  have hfld : s.fld Reg.FAB_ADDR 9 0 < 2 ^ 10 := getF_lt _ _ _
  unfold State.ownAddr
  split
  · exact hfld
  · decide

/-- A device's record reaches the membership table, which no port's status is part of. -/
theorem State.rd_storeLsr_portSts (hp : p < 8) {l : Lsr} (hl : l.addr < 1024) :
    (s.storeLsr l).rd (Reg.FAB_PORT_STS p) = s.rd (Reg.FAB_PORT_STS p) := by
  have hmember : Reg.FAB_PORT_STS p ≠ Reg.FAB_MEMBER (l.addr / 256) (l.addr % 256) := by
    unfold Reg.FAB_PORT_STS Reg.FAB_MEMBER slot
    omega
  have hmembers : Reg.FAB_PORT_STS p ≠ Reg.FAB_MEMBERS := by
    unfold Reg.FAB_PORT_STS Reg.FAB_MEMBERS slot
    omega
  have hshown (u : State) (uid hops : Nat) : (u.showMember l.addr uid hops).rd (Reg.FAB_PORT_STS p) =
      u.rd (Reg.FAB_PORT_STS p) := (State.rd_wrN_ne _ _ hmembers).trans (State.rd_wrN_ne _ _ hmember)
  unfold State.storeLsr
  extract_lets same quiet f grants u v
  have hv : v.rd (Reg.FAB_PORT_STS p) = s.rd (Reg.FAB_PORT_STS p) := (hshown u _ _).trans (State.rd_withFab _ _)
  split
  · exact hv
  · exact (State.rd_raise _ _ _ _).trans hv

/-- What a device floods of itself leaves its ports' status (R474). -/
theorem State.rd_floodOwn_portSts (hp : p < 8) : s.floodOwn.rd (Reg.FAB_PORT_STS p) = s.rd (Reg.FAB_PORT_STS p) := by
  have hsent (k : FabPkt) (u : State) : ((List.range 8).foldl (fun s p => if s.fpUp p then s.portSend p k else s)
      u).rd (Reg.FAB_PORT_STS p) = u.rd (Reg.FAB_PORT_STS p) := by
    refine State.rd_foldl_eq (fun t q => ?_) _ u
    split
    · exact State.rd_congr (t.sends_portSend q k).regs _
    · rfl
  unfold State.floodOwn
  split
  · exact (hsent _ _).trans (State.rd_storeLsr_portSts hp State.ownAddr_lt)
  · rfl

/-- The end of a port's initialisation brings it up (R464). -/
theorem execPortInitDone_up {p : Fin 8} (hst : s.fpState p.val = 3) :
    ∃ t, execPortInitDone p s = .next t ∧ t.fpUp p.val = true := by
  obtain ⟨x, hrun⟩ : ∃ x : FabPort, execPortInitDone p s = .next (
      let v := ((s.setFport p x).setPort p 4).raise (960 + p)
      (if v.fabState = 1 then ({ v with fab := { v.fab with stableSince := v.clk.up } } : State).setFabState 2
        else v).floodOwn) := ⟨_, congrArg Host.Outcome.next (if_pos hst)⟩
  have hup : (((s.setFport p x).setPort p 4).raise (960 + p)).fpState p = 4 :=
    (State.fpState_congr (State.rd_raise _ _ _ _)).trans (State.fpState_setPort (by decide))
  generalize ((s.setFport p x).setPort p 4).raise (960 + p) = v at hrun hup
  refine ⟨_, hrun, beq_iff_eq.2 ((State.fpState_congr (State.rd_floodOwn_portSts p.isLt)).trans ?_)⟩
  have hfabSts : Reg.FAB_PORT_STS p ≠ Reg.FAB_STS := by
    unfold Reg.FAB_PORT_STS Reg.FAB_STS slot
    omega
  split
  · exact (State.fpState_congr ((State.rd_setFld_ne _ _ _ _ hfabSts).trans (State.rd_withFab _ _))).trans hup
  · exact hup

end

/-- Settles O56. -/
theorem fabricPortsComplete : Obligations.FabricPortsComplete := by
  unfold Obligations.FabricPortsComplete
  intro s p
  refine ⟨fun hpar hdef => (if_neg (by rw [hpar]; decide)).trans ((if_neg (by simp [hdef])).trans
      (congrArg Host.Outcome.next (if_pos rfl))), rfl, fun hwake => if_neg (by rw [hwake]; decide),
    fun boost dfe hst h0 h1 => ?trainDone, fun hst hdue => congrArg Host.Outcome.next (if_pos ⟨hst, hdue⟩),
    fun hst => ?alignDone, fun hst hdue hctl => congrArg Host.Outcome.next (if_pos ⟨hst, hdue, by rw [hctl]; decide⟩),
    fun hst => execPortInitDone_up hst, fun hst hdue => congrArg Host.Outcome.next (if_pos ⟨hst, hdue⟩),
    fun hst hdue => congrArg Host.Outcome.next (if_pos ⟨hst, hdue⟩), fun hup => congrArg Host.Outcome.next (if_pos hup),
    fun t hfull hup hdue => ?stall, fun hup hdue => congrArg Host.Outcome.next (if_pos ⟨hup, hdue⟩),
    fun k hup => ?packets, ?timeSend⟩
  case trainDone =>
    exact ⟨_, congrArg Host.Outcome.next (if_pos ⟨hst, by rw [h0]; decide, by rw [h1]; decide⟩),
      State.fpState_setPort (by decide)⟩
  case alignDone =>
    exact ⟨_, congrArg Host.Outcome.next (if_pos hst),
      (State.fld_putBit_apart _ _ _ _ _ _ (by decide) (by decide)).trans (State.fpState_setPort (by decide))⟩
  case stall =>
    show execReplayStall p s = _
    unfold execReplayStall
    rw [hfull]
    exact congrArg Host.Outcome.next (if_pos ⟨hup, hdue⟩)
  case packets =>
    have harrive (ty sub : Nat) (hty : k.body.type = ty) : s.arriveIf p k ty sub = s.pktArrive p k sub :=
      if_pos (by rw [hup, hty, beq_self_eq_true]; rfl)
    exact ⟨fun h => congrArg Host.Outcome.next (harrive 0 0 h), fun h => congrArg Host.Outcome.next (harrive 2 0 h),
      fun h => congrArg Host.Outcome.next (harrive 3 0 h), fun h => congrArg Host.Outcome.next (harrive 4 0 h),
      fun h => congrArg Host.Outcome.next (harrive 5 0 h), fun sub h => congrArg Host.Outcome.next (harrive 1 sub h)⟩
  case timeSend =>
    intro sub x hup hctl hlocked hdue u t
    exact congrArg Host.Outcome.next (if_pos ⟨hup, hctl, hlocked, hdue⟩)

end Sys2Proof.Machine
end

section
namespace Sys2Proof.Machine

/-! ### Fabric membership, routing, streams and time (R468-R484) -/

section
variable {s : State}

/-- The acknowledgements a device owes are no part of where another lies. -/
theorem State.addrOfUid_withRx (rx : List E2eRx) (uid : Nat) :
    ({ s with fab := { s.fab with rx := rx } } : State).addrOfUid uid = s.addrOfUid uid := rfl

/-- An address whose holder has been away for 10 s is free, and no other grant changes (R471). -/
theorem execAddrHoldExpiry_frees : ∃ t, execAddrHoldExpiry s = .next t ∧ t.regs = s.regs ∧ t.mem = s.mem ∧
    (∀ g ∈ t.fab.grants, ∀ d, g.leftAt = some d → s.elapsed d (msec 10000) = true → g.free = true) ∧
    t.fab.grants.map (·.addr) = s.fab.grants.map (·.addr) := by
  obtain ⟨f, hrun, hf⟩ : ∃ f : Grant → Grant, execAddrHoldExpiry s =
      .next { s with fab := { s.fab with grants := s.fab.grants.map f } } ∧
      f = fun g => match g.leftAt with
        | some t => { g with free := g.free || s.elapsed t (msec 10000) }
        | none => g := ⟨_, rfl, rfl⟩
  have hfree (g : Grant) (d : Nat) (hleft : (f g).leftAt = some d) (hdue : s.elapsed d (msec 10000) = true) :
      (f g).free = true := by
    rw [hf] at hleft ⊢
    cases hg : g.leftAt with
    | none => simp [hg] at hleft
    | some t =>
      simp only [hg, Option.some.injEq] at hleft ⊢
      rw [hleft, hdue, Bool.or_true]
  have haddr (g : Grant) : (f g).addr = g.addr := by
    rw [hf]
    cases hg : g.leftAt <;> simp [hg]
  refine ⟨_, hrun, rfl, rfl, fun g hg d hleft hdue => ?_, ?_⟩
  · obtain ⟨g', -, rfl⟩ := List.mem_map.1 hg
    exact hfree g' d hleft hdue
  · show (s.fab.grants.map f).map (·.addr) = _
    rw [List.map_map]
    exact List.map_congr_left fun g _ => haddr g

end

/-- Settles O57. -/
theorem fabricCompletes : Obligations.FabricCompletes := by
  unfold Obligations.FabricCompletes
  intro s
  refine ⟨fun hoff hpar => ?enable, rfl, fun hst hdue hroot => ?request, fun a hst hdue hroot ha => ?grant,
    fun hst hdue hsent => ?resend, execAddrHoldExpiry_frees, fun hst hdue => congrArg Host.Outcome.next (if_pos ⟨hst, hdue⟩),
    fun a l hl huid hdue => ?ageOut, fun hdue => congrArg Host.Outcome.next (if_pos hdue),
    fun uid vc n a rx hack => ?ack, fun uid vc e r hsent hdue => ?rto, fun uid vc => ?unreach, rfl,
    fun hst hdue => congrArg Host.Outcome.next (if_pos ⟨hst, hdue⟩), fun src => rfl⟩
  case enable =>
    exact (if_neg (by rw [hpar]; decide)).trans (congrArg Host.Outcome.next
      ((if_pos rfl).trans (if_neg (by simp [hoff]))))
  case request =>
    exact congrArg Host.Outcome.next ((if_pos ⟨hst, hdue⟩).trans (if_neg (by rw [hroot]; decide)))
  case grant =>
    refine congrArg Host.Outcome.next ((if_pos ⟨hst, hdue⟩).trans ((if_pos hroot).trans ?_))
    rw [ha]
  case resend =>
    have hempty : (findTx s.rootUid 0 s.fab.tx).unacked.isEmpty = false := by
      simpa using hsent
    show execAddrReqResend s = _
    unfold execAddrReqResend
    rw [if_pos ⟨hst, hdue⟩]
    dsimp only
    rw [hempty, if_neg (by decide)]
  case ageOut =>
    show execMemberAgeOut a s = _
    unfold execMemberAgeOut
    rw [hl]
    exact congrArg Host.Outcome.next (if_pos ⟨huid, .inl hdue⟩)
  case ack =>
    intro t ha
    have ha' : s.addrOfUid uid.toNat = some a := (State.addrOfUid_withRx rx _).symm.trans ha
    show execE2eAckSend uid vc s = _
    unfold execE2eAckSend
    rw [hack, ha']
    rfl
  case rto =>
    intro items u
    show execE2eRto uid vc s = _
    unfold execE2eRto
    dsimp only
    rw [hsent]
    exact congrArg Host.Outcome.next (if_pos hdue)
  case unreach =>
    intro x gone n u hn
    exact congrArg Host.Outcome.next (if_neg hn)

end Sys2Proof.Machine
end

section
namespace Sys2Proof.Machine

/-! ### Lantern cores, pools and tasks (R293-R310) -/

section
variable {s : State} {k : Nat}

theorem lowestBit_lt {x : Nat} : ∀ {w i b : Nat}, lowestBit x w i = some b → b < i + w := by
  intro w
  induction w with
  | zero =>
    intro i b h
    exact absurd h (by simp [lowestBit])
  | succ w ih =>
    intro i b h
    unfold lowestBit at h
    split at h
    · obtain rfl := Option.some.inj h
      omega
    · have := ih h
      omega

theorem LntCore.vector_le {c : LntCore} {v : Nat} (h : c.vector = some v) : v ≤ 4 := by
  obtain ⟨b, hb, rfl⟩ := Option.map_eq_some_iff.1 h
  have := lowestBit_lt hb
  omega

theorem State.lntState_setLntState {x : Nat} (h : x < 8) : (s.setLntState k x).lntState k = x :=
  (State.fld_setFld_same _ _ _ _ _ (by decide) (by decide)).trans (Nat.mod_eq_of_lt h)

theorem State.lntPc_setLntState (x : Nat) : (s.setLntState k x).lntPc k = s.lntPc k :=
  congrArg BitVec.toNat (s.rd_setFld_ne _ _ _ (slot_ne_of_sub_ne _ (by decide)))

theorem State.lntPc_setLntPc {a : Nat} (h : a < 2 ^ 15) : (s.setLntPc k a).lntPc k = a := by
  refine (State.rdN_wrN_same _ _ _).trans ?_
  omega

/-- An interrupt that is accepted runs from its vector (R300). -/
theorem execLntInterruptAccept_runs {k : Fin 32} {v : Nat} (haccepts : s.lntAccepts k.val = true)
    (hrun : s.idleOrLower = false) (hvector : (s.core k.val).vector = some v) (hroom : (s.core k.val).stack.length ≤ 14) :
    ∃ t, execLntInterruptAccept k s = .next t ∧ t.lntPc k.val = 4 * v ∧ t.lntState k.val = 3 := by
  have hv := LntCore.vector_le hvector
  obtain ⟨u, hu⟩ : ∃ u : State, execLntInterruptAccept k s = .next ((u.setLntPc k (4 * v)).setLntState k 3) := by
    unfold execLntInterruptAccept
    rw [if_pos ⟨haccepts, by rw [hrun]; decide⟩, hvector]
    dsimp only
    rw [if_neg (Nat.not_lt.2 hroom)]
    exact ⟨_, rfl⟩
  exact ⟨_, hu, (State.lntPc_setLntState 3).trans (State.lntPc_setLntPc (by omega)),
    State.lntState_setLntState (by decide)⟩

/-- A transfer that ends without an error posts its vector, and ends a SYNC that waited for it alone (R302). -/
theorem execLntXferComplete_good {k : Fin 32} {i : Fin 4} {n : Nat} {x : LntXfer}
    (hxfer : (s.core k.val).xfers[i.val]? = some x) (hrun : s.idleOrLower = false) (hserves : s.serves x.addr = true) :
    let u := s.xferMove k.val x x.count
    let v := (u.setCore k.val { u.core k.val with xfers := (u.core k.val).xfers.eraseIdx i.val }).lntPost k.val 2
    execLntXferComplete k i default n s = .next (
      if v.lntState k.val = 4 ∧ (v.core k.val).waiting = .sync ∧ (v.core k.val).xfers = [] then
        ((v.setCore k.val { v.core k.val with waiting := .none }).setLntState k.val 3).lntDone k.val
      else v) := by
  have hgo : ¬ (s.idleOrLower = true ∨ (!s.serves x.addr) = true) := by
    rw [hrun, hserves]
    decide
  obtain ⟨o, ho⟩ : ∃ o : XferEnd, o = default := ⟨_, rfl⟩
  have herr : o.err = false := congrArg XferEnd.err ho
  have hdouble : o.ecc.double = false := congrArg (fun o : XferEnd => o.ecc.double) ho
  have hcorrected : o.ecc.corrected = 0 := congrArg (fun o : XferEnd => o.ecc.corrected) ho
  have hcorrect (t : State) (m : Nat) : (if x.out then t.lntCorrect k (min 0 m) else t) = t := by
    rw [Nat.zero_min]
    split
    · exact if_pos rfl
    · rfl
  intro u v
  rw [← ho]
  unfold execLntXferComplete
  rw [hxfer]
  dsimp only
  rw [if_neg hgo, herr, hdouble, hcorrected]
  simp only [Bool.and_false, Bool.or_false, Bool.false_eq_true, if_false, hcorrect]
  rfl

/-- Enabling a core clears its cause and leaves its state. -/
theorem State.lntState_enabled (s : State) (k : Nat) :
    ((s.putBit (Reg.LNT_CTL k) 0 true).setFld (Reg.LNT_STS k) 6 3 0).lntState k = s.lntState k :=
  (State.fld_setFld_apart _ _ _ _ _ _ _ (by decide) (by decide) (by decide)).trans
    (State.fld_putBit_ne _ _ _ _ _ (slot_ne_of_sub_ne _ (by decide)))

theorem State.core_enabled (s : State) (k : Nat) :
    ((s.putBit (Reg.LNT_CTL k) 0 true).setFld (Reg.LNT_STS k) 6 3 0).core k = s.core k := by
  unfold State.core
  rw [State.setFld_lnt, State.putBit_lnt]

/-- A core that is off and enabled waits for a task of its pool, or runs (R293). -/
theorem execLntEnable_off {k : Fin 32} (hpools : s.twoPools k.val = false) (hoff : s.lntState k.val = 0) :
    ∃ t, execLntEnable k s = .next t ∧ (t.lntState k.val = 1 ∨ t.lntState k.val = 3) := by
  have hoff' := (s.lntState_enabled k).trans hoff
  obtain ⟨t, ht⟩ : ∃ t : State, execLntEnable k s = .next (match t.poolOf k with
      | some p => (t.putBit (Reg.LNT_STS k) 7 (t.poolOn p)).setLntState k 1
      | none => (t.putBit (Reg.LNT_STS k) 7 false).lntStart k) :=
    ⟨_, (if_neg (by rw [hpools]; decide)).trans (congrArg Host.Outcome.next (if_pos (.inl hoff')))⟩
  rw [ht]
  cases t.poolOf k with
  | some p => exact ⟨_, rfl, .inl (State.lntState_setLntState (by decide))⟩
  | none => exact ⟨_, rfl, .inr (State.lntState_setLntState (by decide))⟩

end

/-- Settles O60. -/
theorem coresAndTasksComplete : Obligations.CoresAndTasksComplete := by
  unfold Obligations.CoresAndTasksComplete
  intro s k
  refine ⟨fun v haccepts hrun hvector hroom => execLntInterruptAccept_runs haccepts hrun hvector hroom,
    fun htmr hst hrun => congrArg Host.Outcome.next (if_pos ⟨htmr, hst, by rw [hrun]; decide⟩),
    fun i n x hxfer hrun hserves => execLntXferComplete_good hxfer hrun hserves, rfl,
    fun hpools hst hzero => ?halted, fun hpools hoff => execLntEnable_off hpools hoff, rfl,
    fun hlow hhigh => congrArg Host.Outcome.next (if_pos ⟨hlow, hhigh⟩), fun p => ?poolOff,
    fun p hpar hpools => ?poolOn, fun p j hidle hpools hrun => ?dispatch,
    fun p x hpool htask hst hspent hrun => ?inbox, fun p x r hpool hheld hst hcore hdead hrun => ?commit,
    fun hst hlimit hspent htask hrun => ?watchdog⟩
  case halted =>
    refine (if_neg (by rw [hpools]; decide)).trans (congrArg Host.Outcome.next ((if_neg ?_).trans (if_pos hst)))
    rintro (h | ⟨-, h⟩)
    · exact absurd (hst.symm.trans h) (by decide)
    · rw [State.core_enabled, hzero] at h
      exact absurd h (by decide)
  case poolOff =>
    intro t
    show execLntPoolEnable p false s = _
    unfold execLntPoolEnable
    simp only [Bool.false_eq_true, false_and, if_false]
    rfl
  case poolOn =>
    have hpools' : ¬ (true = true ∧ ((List.range 32).any fun k =>
        s.bit (Reg.LNT_POOL_MEMBERS p) k && s.twoPools k) = true) := by
      rintro ⟨-, h⟩
      obtain ⟨j, hj, hboth⟩ := List.any_eq_true.1 h
      obtain ⟨hbit, htwo⟩ := Bool.and_eq_true_iff.1 hboth
      exact absurd (htwo.symm.trans (hpools j (List.mem_range.1 hj) hbit)) (by decide)
    exact (if_neg hpools').trans (if_neg (fun h => absurd (hpar.symm.trans h.2) (by decide)))
  case dispatch =>
    show execTaskDispatch p s = _
    unfold execTaskDispatch
    rw [hidle]
    exact (if_neg (by rw [hpools]; decide)).trans (congrArg Host.Outcome.next (if_neg (by rw [hrun]; decide)))
  case inbox =>
    show execInboxDone k s = _
    unfold execInboxDone
    rw [hpool, htask]
    exact congrArg Host.Outcome.next (if_pos ⟨hst, hspent, by rw [hrun]; decide⟩)
  case commit =>
    show execTaskCommit k s = _
    unfold execTaskCommit
    rw [hpool]
    dsimp only
    rw [hheld]
    exact congrArg Host.Outcome.next (if_pos ⟨hst, hcore, by rw [hdead]; decide, by rw [hrun]; decide⟩)
  case watchdog =>
    exact congrArg Host.Outcome.next (if_pos ⟨hst, by omega, hspent, htask, by rw [hrun]; decide⟩)

end Sys2Proof.Machine
end
